-- ==== Sys2Proof/Word.lean ====
section
/-! DEFINITION. The plain types every other file uses: registers are 32 bits wide (R7), octets 8 bits,
device time is a count of nanoseconds (R64), and sparse tables are lists of key and value pairs. -/

namespace Sys2Proof

/-- A register's 32 bits (R7). -/
abbrev Word := BitVec 32

/-- One octet. -/
abbrev Byte := BitVec 8

/-- A sparse table: pairs of a key and a value, keys strictly rising (the form `Machine.KMap.sorted` states). -/
abbrev KMap (α : Type) := List (Nat × α)

/-- One thing for each of the four spindles (R14), also used for the four dies. -/
structure Four (α : Type) where
  a : α
  b : α
  c : α
  d : α
  deriving DecidableEq, Repr

/-- The entry of spindle `n`. -/
def Four.get {α : Type} (x : Four α) (n : Fin 4) : α :=
  match n with
  | 0 => x.a
  | 1 => x.b
  | 2 => x.c
  | 3 => x.d

/-- The four entries with that of spindle `n` replaced. -/
def Four.set {α : Type} (x : Four α) (n : Fin 4) (v : α) : Four α :=
  match n with
  | 0 => { x with a := v }
  | 1 => { x with b := v }
  | 2 => { x with c := v }
  | 3 => { x with d := v }

/-- The same value four times. -/
def Four.all {α : Type} (v : α) : Four α := ⟨v, v, v, v⟩

/-- Each entry mapped, with its number. -/
def Four.mapIdx {α β : Type} (x : Four α) (f : Fin 4 → α → β) : Four β :=
  ⟨f 0 x.a, f 1 x.b, f 2 x.c, f 3 x.d⟩

/-- The entries in order. -/
def Four.list {α : Type} (x : Four α) : List α := [x.a, x.b, x.c, x.d]

end Sys2Proof
end

