-- ==== Sys2Proof/Syntax.lean ====
section
/-! DEFINITION. The commands of the FD4800: one constructor of `Instr` for each row of spec/opcode_table.json,
in the table's order, and the types of their operands. Every command carries `dt`, the nanoseconds of device
time that pass since the command before it. -/

namespace Sys2Proof

/-- The five ports of the shuttle (R225). -/
inductive Port
  | bh0 | bh1 | plk | mesh | cpu
  deriving DecidableEq, Repr

/-- The number of a port in the register maps (R239, R261). -/
def Port.num : Port → Nat
  | .bh0 => 0
  | .bh1 => 1
  | .plk => 2
  | .mesh => 3
  | .cpu => 4

/-- The firmware phases that have a deadline (R82, R84). -/
inductive TickPhase
  | drain | sched | txprep
  deriving DecidableEq, Repr

/-- What the SFDP table of the flash declares (R36). -/
structure Sfdp where
  present : Bool
  /-- JESD216 revision B or later. -/
  revB : Bool
  fast114 : Bool
  fast144 : Bool
  fourByte : Bool
  sizeMiB : Nat
  deriving DecidableEq, Repr

/-- What reading a reel gives: the header's fields (R325) and the outcomes of the checks over its octets
(HCRC, zero octets of the header and the head, the signature, the blocks' CRCs and manifest hashes), with the
octets measured under R318 standing by their SHA-384. -/
structure Reel where
  magic : BitVec 32
  format : BitVec 16
  kind : BitVec 8
  keyid : BitVec 8
  target : BitVec 32
  nblk : Nat
  svn : Nat
  version : Nat
  size : Nat
  build : Nat
  zeros : Bool
  hcrcOk : Bool
  headZeros : Bool
  sigOk : Bool
  blocksOk : Bool
  digest : BitVec 384
  deriving DecidableEq, Repr

/-- One row of a self-test run at start (R368): the block's number and its 2-bit code. -/
structure SelfTest where
  block : Nat
  code : BitVec 2
  deriving DecidableEq, Repr

/-- How a PTP message came (R71): UDP over IPv6 to FF02::181 or, `global_`, to FF0E::181; the IEEE 802.3 transport; UDP over
IPv4. -/
inductive PtpVia
  | udp6 (global_ : Bool) | ieee8023 | udp4
  deriving DecidableEq, Repr

/-- What R71 does not support and a PTP message may show: the peer-to-peer delay mechanism, unicast negotiation, the
authentication TLV, an alternate timescale. -/
inductive PtpExtra
  | none | peerDelay | unicast | authTlv | altTimescale
  deriving DecidableEq, Repr

/-- A received Sync with its Follow_Up where needed (R67, R71): `t1` is the master's time of departure with its
corrections, in ns; `usable` says that the Follow_Up a two-step Sync needs arrived. -/
structure PtpSync where
  domain : Nat
  via : PtpVia
  extra : PtpExtra
  logInterval : Int
  clockId : Nat
  t1 : Nat
  usable : Bool
  deriving DecidableEq, Repr

/-- A received Announce with the dataset that the BMCA compares (R67, R71). -/
structure PtpAnnounce where
  domain : Nat
  via : PtpVia
  extra : PtpExtra
  logInterval : Int
  clockId : Nat
  priority1 : Nat
  clockClass : Nat
  accuracy : Nat
  variance : Nat
  priority2 : Nat
  stepsRemoved : Nat
  ptpTimescale : Bool
  deriving DecidableEq, Repr

/-- A received Delay_Resp (R71, R72): `t4` is the master's receive time, in ns. -/
structure PtpDelayResp where
  domain : Nat
  via : PtpVia
  extra : PtpExtra
  clockId : Nat
  logMinDelayReq : Int
  t4 : Nat
  deriving DecidableEq, Repr

/-- The timed steps of a transmission's start (R105). -/
inductive TxStep
  | blank | powerUp | bias | trsw | ramp
  deriving DecidableEq, Repr

/-- The timed steps after a transmission's end (R106). -/
inductive TxRelease
  | trsw | bias | rx
  deriving DecidableEq, Repr

/-- The calibration kinds of R110. -/
inductive CalKind
  | txsyn | rxlo | rxdc | rxiq | rxgain | txiq
  deriving DecidableEq, Repr

/-- One run's measurement of one kind (R110), in the units the tolerances are compared in: the VCO band code,
then up to three values, then the receive gain steps. TXSYN: v1 loop gain. RXLO: v1 lock frequency, 0.001 ppm.
RXDC: v1, v2 the I and Q offsets, 0.01 % of full scale. RXIQ: v1 phase, 0.01°; v2 gain, 0.001 dB. TXIQ: as RXIQ
with v3 leakage, 0.001 dB. RXGAIN: steps, 0.001 dB. -/
structure CalMeas where
  band : Nat
  v1 : Int
  v2 : Int
  v3 : Int
  steps : List Int
  deriving DecidableEq, Repr

/-- The two runs of a pair for one kind (R109). -/
structure CalPair where
  kind : CalKind
  first : CalMeas
  second : CalMeas
  deriving DecidableEq, Repr

/-- What the PHR or the native header of a frame says, as received (R131, R132, R134). -/
inductive RxHeader
  | sunFsk (modeSwitch fcs2 : Bool) (len : Nat)
  | oqpsk (len : Nat)
  | native (octets : List Byte)
  deriving DecidableEq, Repr

/-- What a frame carries for the firmware (R170). -/
inductive UpKind
  /-- a data frame whose payload is the IPv6 packet given with it -/
  | data
  /-- a DIO of another RPL router, consistent with this root's DODAG (R169) -/
  | dio
  /-- the acknowledgement of the downlink record with this hash -/
  | ack (hash : Nat)
  deriving DecidableEq, Repr

/-- An IPv6 packet or another Ethernet frame as the shuttle sees it (R225, R226, R229). `len` is L of R226 in
octets; `ptp` and `plink` mark the Ethertypes of R225 step 1. -/
structure Packet where
  ipv6 : Bool
  ptp : Bool
  plink : Bool
  src : BitVec 128
  dst : BitVec 128
  dscp : BitVec 6
  ecn : BitVec 2
  flow : BitVec 20
  nextHdr : BitVec 8
  sport : BitVec 16
  dport : BitVec 16
  frag : Bool
  hop : Nat
  /-- octets of the IPv6 packet, for the MTU check -/
  ipLen : Nat
  len : Nat
  poison : Bool
  /-- what the IPv6 packet carries: after the UDP header for UDP, after the IPv6 header otherwise -/
  data : List Byte := []
  deriving DecidableEq, Repr

/-- What the link layer of a received frame says (R165, R315): the sender, the auxiliary security header, the
outcome of the CCM* check under the key that the generation chosen by R315 gives, and the frame's content. -/
structure MacInfo where
  /-- EUI-64 of the sender -/
  eui : BitVec 64
  district : BitVec 16
  keyIndex : BitVec 8
  secLevel : Nat
  micOk : Bool
  /-- incoming frame counter -/
  fc : Nat
  ackReq : Bool
  kind : UpKind
  packet : Packet
  deriving DecidableEq, Repr

/-- The position of one IPv6 fragment in its datagram (R188). -/
structure Fragment where
  id : Nat
  /-- octets of the whole datagram present once this fragment has arrived -/
  whole : Bool
  deriving DecidableEq, Repr

/-- A CCP packet as received (R189): where it came from, the header's fields, whether its tag verifies under the
key of IDENT, and the body in clear. -/
structure CcpPacket where
  dst : BitVec 128
  src : BitVec 128
  sport : BitVec 16
  datagram : Nat
  ver : BitVec 8
  type : BitVec 8
  ident : BitVec 8
  flags : BitVec 8
  length : Nat
  dply : BitVec 8
  dside : BitVec 8
  boot : BitVec 32
  seq : Nat
  tagOk : Bool
  body : List Byte
  deriving DecidableEq, Repr

/-- The header of a ply-link or loom frame as received (R269, R290). -/
structure LinkHeader where
  ver : BitVec 8
  side : BitVec 8
  boot : BitVec 32
  seq : Nat
  tagOk : Bool
  deriving DecidableEq, Repr

/-- The body of a heartbeat (R271). -/
structure Heartbeat where
  asn : Nat
  role : BitVec 4
  master : Bool
  fault : Bool
  ready : Bool
  power : BitVec 8
  whorl : BitVec 8
  mepoch : BitVec 32
  mdigest : BitVec 32
  pdigest : BitVec 32
  spn : BitVec 32
  parent : Nat
  t1 : Nat
  t3echo : Nat
  t4rx : Nat
  acks : List Nat
  /-- the sender's HOLD_LIMIT: R274 has both sides read it from the heartbeats, whose layout names no bit for it (log 43) -/
  limit : Bool := false
  deriving DecidableEq, Repr

/-- The path a ply-link frame travels (R268): PLK, or path B over a backhaul port. -/
inductive Path
  | plk | b
  deriving DecidableEq, Repr

/-- What a downlink record is (R276). -/
inductive RecKind
  /-- a packet from MESH egress -/
  | packet
  /-- copy of the THROW of this launch entry (R177) -/
  | throwMsg (throwId : Nat)
  | cancel (throwId : Nat)
  /-- datagram of a NODE_REQ with this TAG (R219) -/
  | nodeReq (tag : Nat)
  /-- datagram of OBJ_SEND: object and offset (R218) -/
  | objBlock (obj offset : Nat)
  | correction (tc : Int)
  | hint (gen : Nat)
  | dioUnicast
  | daoAck
  | dio
  deriving DecidableEq, Repr

/-- A downlink record (R276): `dest` is a node index, or none for a broadcast; `share` is S of R276. -/
structure DownRec where
  kind : RecKind
  dest : Option Nat
  hash : Nat
  oneSide : Bool
  /-- the unsecured MAC payload; of a correction frame, the IE it carries instead (R171) -/
  payload : List Byte
  ackReq : Bool
  share : Option Nat
  retries : Nat
  /-- key generation of a frame that answers one (R315); none where it is the skein's GEN -/
  gen : Option Nat := none
  /-- DSN and frame counter with which it was placed last (R277) -/
  dsn : Nat := 0
  fc : Nat := 0
  /-- placed on this side without being sent (R112) -/
  mute : Bool := false
  deriving DecidableEq, Repr

/-- What both sides need of a node's join to pin it alike and to lead its throws alike (R175, R230): hop depth, band, and the
district of its key. -/
structure NodeRoute where
  depth : Nat
  band : Bool
  district : BitVec 16
  deriving DecidableEq, Repr

/-- A mirrored change (R280). -/
inductive Delta
  | join (index : Nat) (eui : BitVec 64) (handle : BitVec 32) (home : Nat) (route : NodeRoute)
  | leave (index : Nat)
  | release (index : Nat)
  | groups (index : Nat) (gs : List Nat)
  | counterIn (index : Nat) (fc : Nat)
  | keyGen (skein gen : Nat)
  | cell (spn index : Nat) (w0 w1 : Word)
  | cellFree (spn index : Nat)
  /-- a change of the template, a slotframe or a hopping table, by its register and value -/
  | warpReg (addr : Nat) (v : Word)
  deriving DecidableEq, Repr

/-- A node record of a snapshot (R280, R283). -/
structure NodeSnap where
  index : Nat
  eui : BitVec 64
  handle : BitVec 32
  home : Nat
  groups : List Nat
  fcIn : Nat
  dsn : Nat
  fcOut : Nat
  dormantSince : Option Nat
  /-- the ply that serves it while it is away (R292) -/
  away : Option Nat
  route : NodeRoute
  deriving DecidableEq, Repr

/-- The body of a loom BEACON (R291). -/
structure Beacon where
  eui : BitVec 64
  devAddr : BitVec 128
  meshPrefix : BitVec 64
  epoch : Nat
  period : Nat
  role : BitVec 8
  prole : BitVec 8
  nodes : Nat
  free : Nat
  deriving DecidableEq, Repr

/-- A received MAC Control frame (R255). -/
inductive MacCtl
  | pause (time : Nat)
  | pfc (enable : BitVec 8) (times : List Nat)
  | other
  deriving DecidableEq, Repr

/-- What the picker finds in a word it reads (R358 to R362). -/
inductive ScrubTarget
  | forwarding (shadow : Bool) (table index : Nat)
  | node (index : Nat)
  | skeinShare (s : Nat)
  | halfInForce (s : Nat)
  | halfOther (s : Nat)
  | cacheEntry (skein : Nat) (eui : BitVec 64) (gen : Nat)
  /-- a cell of the packet `pos` places behind the head of queue (port, class) -/
  | bufferCell (port : Port) (cls : Fin 16) (pos : Nat)
  | thread (th : Nat)
  | object (obj : Nat)
  | cell (spn : Fin 4) (index : Nat)
  | policy (index : Nat)
  | logEntry (index : Nat)
  | working
  | freeBuffer (location : Nat)
  | freePage (location : Nat)
  | freeThread (location : Nat)
  | freeNode (location : Nat)
  deriving DecidableEq, Repr

/-- The outcome of one picker read. -/
inductive ScrubResult
  | clean | correctable | uncorrectable
  deriving DecidableEq, Repr

/-- The memories of R358, each with its own pass. -/
inductive ScrubMemory
  | buffer | tables | forwarding | dram
  deriving DecidableEq, Repr

/-- The result of a spindle self-test (R364): PASS and FAIL bits, noise floor and EVM. -/
structure TestResult where
  pass : BitVec 4
  fail : BitVec 4
  noise : Int
  evm : Nat
  deriving DecidableEq, Repr

/-- The SD card's answer (R329): nothing, no file, or the reel in the file with the file's length. -/
inductive Card
  | none
  | noFile
  | file (length : Nat) (reel : Reel)
  deriving DecidableEq, Repr

/-- The commands: one constructor for each row of spec/opcode_table.json. -/
inductive Instr
  -- registers, supply and start
  /-- REGISTER_WRITE (R8): byte address and value. -/
  | registerWrite (dt : Nat) (addr : Nat) (v : Word)
  /-- LOGIC_RAIL_RISE (R376). -/
  | logicRailRise (dt : Nat)
  /-- RESET_N_RELEASE (R38). -/
  | resetNRelease (dt : Nat)
  /-- INPUT_RISE_35V (R38). -/
  | inputRise35V (dt : Nat)
  /-- RESET_N_ASSERT (R40, R385): 125 low samples. -/
  | resetNAssert (dt : Nat)
  /-- INPUT_FALL_33V (R40). -/
  | inputFall33V (dt : Nat)
  /-- RAIL_IN_TOLERANCE (R38). -/
  | railInTolerance (dt : Nat)
  /-- RAIL_TIMEOUT (R39): at the first step of R38, which raises two rails, whether it is the board I/O rail that
  misses. -/
  | railTimeout (dt : Nat) (board : Bool)
  /-- CONTROL_DIE_RESET_RELEASE (R38): level of RECOVERY_N low, the five mode straps (R386: BH0 B, A, BH1 B, A, PLK
  from bit 4 down), whether BHREF runs (R388), and the outcome of the verify of PRA_BOOT's write (R53). -/
  | controlDieResetRelease (dt : Nat) (recoveryLow : Bool) (straps : BitVec 5) (bhref verifyOk : Bool)
  /-- SFDP_DISCOVERY (R36). -/
  | sfdpDiscovery (dt : Nat) (sfdp : Sfdp)
  /-- LOADER_CHECK (R332): the loader region as a reel. -/
  | loaderCheck (dt : Nat) (reel : Reel)
  /-- DRAM_ZERO_FILL (R38): the self-test code of the DRAM (R368). -/
  | dramZeroFill (dt : Nat) (code : BitVec 2)
  /-- BANK_LOAD (R332): what reading each bank gives, and the outcome of the verify of PRA_BANK's write (R53). -/
  | bankLoad (dt : Nat) (bank0 bank1 : Reel) (verifyOk : Bool)
  /-- FIRMWARE_START (R38): results of the self-tests of R368 run at start, and the words whose write fails its verify
  (R53). -/
  | firmwareStart (dt : Nat) (tests : List SelfTest) (faults : List Nat)
  /-- CONFIG_IMAGE_CHECK (R47): the octets read (none = read error), and the skeins whose KEYWRAP fails the KW
  integrity check (R307). -/
  | configImageCheck (dt : Nat) (image : Option (List Byte)) (kwBad : List Nat)
  /-- CONFIG_APPLY (R47): the words whose write fails its verify (R53), and how many writes of the settings reset are made
  before the step is cut short, all where none (R62). -/
  | configApply (dt : Nat) (faults : List Nat) (upto : Option Nat)
  /-- START_HOLD (R38): outcomes of the verify of the writes of PRA_BOOT and of PRA_BANK (R53). -/
  | startHold (dt : Nat) (bootOk bankOk : Bool)
  -- persistent register array
  /-- PRA_WRITE_BEGIN (R51). -/
  | praWriteBegin (dt : Nat)
  /-- PRA_WRITE_COMPLETE (R51): whether the internal verify passes (R53). -/
  | praWriteComplete (dt : Nat) (verifyOk : Bool)
  /-- PRA_TOKEN_REFILL (R54). -/
  | praTokenRefill (dt : Nat)
  /-- PRA_LIFE_UPDATE (R55): outcome of the verify (R53), where the write is made at once. -/
  | praLifeUpdate (dt : Nat) (verifyOk : Bool)
  /-- LEARNED_OFFSET_WRITE (R91): outcome of the verify, where the write is made at once. -/
  | learnedOffsetWrite (dt : Nat) (verifyOk : Bool)
  /-- TUNER_CODES_WRITE (R123): outcome of the verify, where the write is made at once. -/
  | tunerCodesWrite (dt : Nat) (n : Fin 4) (verifyOk : Bool)
  -- clock monitor and bobbins
  /-- CLOCK_MONITOR_WINDOW (R20): counted deviation of BHREF, TCXO, POSC and TOSC, each in 0.001 ppm of its nominal;
  of each SPNn from its ratio to TCXO; of BH0RX, BH1RX and PLKRX from BHREF. -/
  | clockMonitorWindow (dt : Nat) (indep : Four Int) (spn : Four Int) (rx0 rx1 rxp : Int)
  /-- PLL_LOSS_OF_LOCK (R20). -/
  | pllLossOfLock (dt : Nat) (n : Fin 4)
  /-- BOBBIN_WORD_WRITE (R28): the 72 bits of R24 as the writer sets them, and how many of the places freed and not yet
  shown to the writer its synchroniser shows now (R25). -/
  | bobbinWordWrite (dt : Nat) (b : Fin 26) (w : BitVec 72) (seen : Nat)
  /-- BOBBIN_WORD_READ (R30): bits that the crossing inverts, and how many of the words written and not yet shown to the
  reader its synchroniser shows now (R25). -/
  | bobbinWordRead (dt : Nat) (b : Fin 26) (flip : BitVec 72) (seen : Nat)
  /-- BOBBIN_FLUSH_WRITE (R32): a write of BOB_CTRL with FLUSH = 1. -/
  | bobbinFlushWrite (dt : Nat) (b : Fin 26) (v : Word)
  /-- BOBBIN_FLUSH_COMPLETE (R32). -/
  | bobbinFlushComplete (dt : Nat) (b : Fin 26)
  /-- BOB_ERR_CLEAR (R35). -/
  | bobErrClear (dt : Nat) (b : Fin 26) (v : Word)
  /-- BOB_HWM_CLR (R35). -/
  | bobHwmClr (dt : Nat) (b : Fin 26) (v : Word)
  -- thermal, supply, watchdog
  /-- TEMPERATURE_SAMPLE (R355): control, radio, power, DRAM, in 0.1 °C, and agreement of the paired sensors (R368). -/
  | temperatureSample (dt : Nat) (t : Four Int) (paired : Bool)
  /-- SUPPLY_MEASURE (R357): VHOLD in mV, input power in 10 mW, the seven rails of R19 in mV. -/
  | supplyMeasure (dt : Nat) (vhold pin : Nat) (rails : List Nat)
  /-- WATCHDOG_EXPIRE (R346). -/
  | watchdogExpire (dt : Nat)
  -- the tick
  /-- TICK_STROBE (R79): the TCXO's rate against device time in 0.0001 ppm (R66), and whether every firmware task has
  checked in (R285). -/
  | tickStrobe (dt : Nat) (tcxo : Int) (beacon : Bool)
  /-- DRAIN_COMPLETE (R82). -/
  | drainComplete (dt : Nat)
  /-- SCHEDULE_COMPUTATION (R163). -/
  | scheduleComputation (dt : Nat)
  /-- PHASE_DEADLINE_MISS (R84). -/
  | phaseDeadlineMiss (dt : Nat) (ph : TickPhase)
  /-- TRANSMIT_LATCH (R83): the spindle, and whether its frame lies whole in the chain. -/
  | transmitLatch (dt : Nat) (n : Fin 4) (whole : Bool)
  -- whorl
  /-- WHL_LATCH (R65): the value written. -/
  | whlLatch (dt : Nat) (v : Word)
  /-- WHL_CTRL_WRITE (R70). -/
  | whlCtrlWrite (dt : Nat) (v : Word)
  /-- WHL_TOD_ARM (R68). -/
  | whlTodArm (dt : Nat)
  /-- WHL_TICK_PERIOD_WRITE (R81). -/
  | whlTickPeriodWrite (dt : Nat) (v : Word)
  /-- WHL_EPOCH_WRITE (R81): the HI register or the LO register. -/
  | whlEpochWrite (dt : Nat) (hi : Bool) (v : Word)
  /-- WHL_OVR_CLR (R90). -/
  | whlOvrClr (dt : Nat) (v : Word)
  /-- PTP_SYNC (R67): the backhaul port (false BH0, true BH1). -/
  | ptpSync (dt : Nat) (port : Bool) (m : PtpSync)
  /-- PTP_ANNOUNCE (R67). -/
  | ptpAnnounce (dt : Nat) (port : Bool) (m : PtpAnnounce)
  /-- PTP_DELAY_REQ_SEND (R71). -/
  | ptpDelayReqSend (dt : Nat) (port : Bool)
  /-- PTP_DELAY_RESP (R72). -/
  | ptpDelayResp (dt : Nat) (port : Bool) (m : PtpDelayResp)
  /-- PTP_ANNOUNCE_TIMEOUT (R70). -/
  | ptpAnnounceTimeout (dt : Nat) (port : Bool)
  /-- PPS_IN_EDGE (R73): rising or falling, and the ns since the previous active edge measured against REF10M_IN. -/
  | ppsInEdge (dt : Nat) (rising : Bool) (interval : Nat)
  /-- PPS_TIMEOUT (R70). -/
  | ppsTimeout (dt : Nat)
  /-- REF10M_LOSS (R70). -/
  | ref10mLoss (dt : Nat)
  /-- PTP_PREFERENCE_TIMER (R69). -/
  | ptpPreferenceTimer (dt : Nat)
  /-- PPS_OUT_SECOND (R74). -/
  | ppsOutSecond (dt : Nat)
  /-- LAUNCH_RELEASE (R88). -/
  | launchRelease (dt : Nat)
  -- spindles
  /-- SPN_TARGET_WRITE (R94): the value written to SPN_CTRL. -/
  | spnTargetWrite (dt : Nat) (n : Fin 4) (v : Word)
  /-- SPINDLE_STATE_REACHED (R96): the calibration pairs of a passage to SYNTH, in order. -/
  | spindleStateReached (dt : Nat) (n : Fin 4) (pairs : List CalPair)
  /-- SPN_WINDOW_WRITE (R99). -/
  | spnWindowWrite (dt : Nat) (n : Fin 4) (v : Word)
  /-- SPN_BIND_WRITE (R129). -/
  | spnBindWrite (dt : Nat) (n : Fin 4) (d : Fin 16) (v : Word)
  /-- CAL_START (R113). -/
  | calStart (dt : Nat) (n : Fin 4)
  /-- INH_CLR (R118). -/
  | inhClr (dt : Nat) (n : Fin 4)
  /-- SPN_TUNE_WRITE (R117). -/
  | spnTuneWrite (dt : Nat) (n : Fin 4) (v : Word)
  /-- SPN_TRIM_WRITE (R149). -/
  | spnTrimWrite (dt : Nat) (n : Fin 4) (v : Word)
  /-- CAL_PAIR_END (R111): what the pair measured. -/
  | calPairEnd (dt : Nat) (n : Fin 4) (pairs : List CalPair)
  /-- CAL_BLANK_END (R111). -/
  | calBlankEnd (dt : Nat) (n : Fin 4)
  /-- TXSYN_CAL_PAIR (R104). -/
  | txsynCalPair (dt : Nat) (n : Fin 4) (pair : CalPair)
  /-- CX_REQUEST (R108). -/
  | cxRequest (dt : Nat) (n : Fin 4)
  /-- CX_GRANT_SAMPLE (R108): the synchronised level of the pair's CX_GRANT. -/
  | cxGrantSample (dt : Nat) (n : Fin 4) (grant : Bool)
  /-- CX_GRANT_FALL (R108): the pair whose grant has been low for more than 2 µs. -/
  | cxGrantFall (dt : Nat) (pair : Bool)
  /-- TX_SEQUENCE_STEP (R105). -/
  | txSequenceStep (dt : Nat) (n : Fin 4) (st : TxStep)
  /-- TX_START (R105). -/
  | txStart (dt : Nat) (n : Fin 4)
  /-- TX_END (R106): return loss over the transmission, 0.1 dB. -/
  | txEnd (dt : Nat) (n : Fin 4) (rl : Nat)
  /-- TX_RELEASE_STEP (R106). -/
  | txReleaseStep (dt : Nat) (n : Fin 4) (st : TxRelease)
  /-- REFLECTION_CHECK (R118): return loss over the first 20 µs after ramp end, 0.1 dB. -/
  | reflectionCheck (dt : Nat) (n : Fin 4) (rl : Nat)
  /-- INHIBIT_RETRY (R118). -/
  | inhibitRetry (dt : Nat) (n : Fin 4)
  /-- MASK_BLOCK_CHECK (R151): measured level at each point of the profile's mask, 0.1 dBc, in point order. -/
  | maskBlockCheck (dt : Nat) (n : Fin 4) (levels : List Int)
  /-- RECEIVE_IDLE (R117). -/
  | receiveIdle (dt : Nat) (n : Fin 4)
  /-- SPINDLE_HOLD (R119): the thread that holds the command. -/
  | spindleHold (dt : Nat) (th : Nat)
  /-- HOLD_END (R119). -/
  | holdEnd (dt : Nat) (n : Fin 4)
  -- reception
  /-- PREAMBLE_DETECT (R141): the RMARKER is now; correlation in 1/256, RSSI in 0.1 dBm, SNR in 0.25 dB, carrier offset
  in 0.001 ppm. -/
  | preambleDetect (dt : Nat) (n : Fin 4) (d : Fin 16) (corr : Nat) (rssi snr foff : Int) (coded : Bool)
  /-- HEADER_DECODE (R145). -/
  | headerDecode (dt : Nat) (n : Fin 4) (d : Fin 16) (hdr : RxHeader)
  /-- FRAME_END (R144): for the native waveforms the N' octets received (R137, R138), otherwise the PSDU, with the bit
  errors corrected by FEC and the outcome of the FCS check. -/
  | frameEnd (dt : Nat) (n : Fin 4) (d : Fin 16) (octets : List Byte) (corrected : Nat) (fcsOk : Bool)
  /-- FRAME_TOO_LONG (R139). -/
  | frameTooLong (dt : Nat) (n : Fin 4) (d : Fin 16)
  /-- RX_FRAME_PROCESS (R170): what the link layer of the frame at the head of the drained frames says. -/
  | rxFrameProcess (dt : Nat) (mac : MacInfo)
  /-- NODE_OFFSET_LAPSE (R148): the spindle and the node. -/
  | nodeOffsetLapse (dt : Nat) (node : Nat)
  /-- CORRECTION_FRAME_EXPIRE (R171). -/
  | correctionFrameExpire (dt : Nat) (node : Nat)
  -- warp
  /-- CELL_READ (R160): the value written to WRP_CCMD. -/
  | cellRead (dt : Nat) (v : Word)
  /-- CELL_WRITE (R160). -/
  | cellWrite (dt : Nat) (v : Word)
  /-- CELL_DELETE (R160). -/
  | cellDelete (dt : Nat) (v : Word)
  /-- SF_ARM (R161): a write of WRP_SF_ACT_LO. -/
  | sfArm (dt : Nat) (n : Fin 4) (h : Fin 8) (v : Word)
  /-- SF_DISARM (R161): a write of WRP_SF_ACT_HI with DISARM = 1. -/
  | sfDisarm (dt : Nat) (n : Fin 4) (h : Fin 8) (v : Word)
  /-- SF_SWITCH (R161). -/
  | sfSwitch (dt : Nat) (n : Fin 4) (h : Fin 8)
  /-- WRP_HOP_WRITE (R162): entry i of table t, or HLEN of table t when the entry is none. -/
  | wrpHopWrite (dt : Nat) (t : Fin 8) (i : Option (Fin 128)) (v : Word)
  /-- WRP_TIMING_WRITE (R156): WRP_TIMING, or WRP_ACKT. -/
  | wrpTimingWrite (dt : Nat) (ackt : Bool) (v : Word)
  /-- DIO_TRICKLE_TIMER (R169). -/
  | dioTrickleTimer (dt : Nat)
  /-- DIS_RECEIVE (R169). -/
  | disReceive (dt : Nat) (node : Nat)
  /-- DAO_RECEIVE (R169): EUI-64, addresses of the source route, Path Lifetime in s, the sub-GHz (false) or 2.4 GHz
  (true) band it joined through, the district of its key, and the DAOSequence. -/
  | daoReceive (dt : Nat) (eui : BitVec 64) (route : Nat) (lifetime : Nat) (band : Bool) (district : BitVec 16)
      (seq : BitVec 8)
  /-- DAO_PATH_LAPSE (R169). -/
  | daoPathLapse (dt : Nat) (node : Nat)
  /-- DORMANT_EXPIRE (R282). -/
  | dormantExpire (dt : Nat) (node : Nat)
  /-- THROW_CONFIRM_RECEIVE (R179): the sender and the CONFIRM's fields. -/
  | throwConfirmReceive (dt : Nat) (node : Nat) (throwId : Nat) (status : BitVec 8)
  -- CCP and threads
  /-- HANK_RECEIVE (R193): the port it came in by, and its fragment's place when it is one. -/
  | hankReceive (dt : Nat) (port : Port) (frag : Option Fragment) (p : CcpPacket)
  /-- REASSEMBLY_TIMEOUT (R188): source and identification of the datagram. -/
  | reassemblyTimeout (dt : Nat) (src : BitVec 128) (id : Nat)
  /-- HANK_ADMIT (R199). -/
  | hankAdmit (dt : Nat)
  /-- THREAD_TIMEOUT (R203). -/
  | threadTimeout (dt : Nat) (th : Nat)
  /-- THREAD_RETAIN_EXPIRE (R205). -/
  | threadRetainExpire (dt : Nat) (th : Nat)
  /-- COMPLETION_SEND (R205). -/
  | completionSend (dt : Nat)
  /-- REG_READ (R217). -/
  | regRead (dt : Nat) (th : Nat)
  /-- REG_WRITE (R217). -/
  | regWrite (dt : Nat) (th : Nat)
  /-- PRA_INFO (R59). -/
  | praInfo (dt : Nat) (th : Nat)
  /-- HEALTH_SUMMARY (R367). -/
  | healthSummary (dt : Nat) (th : Nat)
  /-- HEALTH_LOG (R366). -/
  | healthLog (dt : Nat) (th : Nat)
  /-- THREAD_QUERY (R217). -/
  | threadQuery (dt : Nat) (th : Nat)
  /-- COMPLETE_ACK (R205). -/
  | completeAck (dt : Nat) (th : Nat)
  /-- POWER_STATE (R343). -/
  | powerState (dt : Nat) (th : Nat)
  /-- POWER_OFF_RAILS (R342). -/
  | powerOffRails (dt : Nat)
  /-- WAKE_ELAPSED (R344). -/
  | wakeElapsed (dt : Nat)
  /-- RETURN (R363). -/
  | returnTest (dt : Nat) (th : Nat)
  /-- TEST (R364). -/
  | test (dt : Nat) (th : Nat)
  /-- SPINDLE_TEST_COMPLETE (R364). -/
  | spindleTestComplete (dt : Nat) (n : Fin 4) (r : TestResult)
  /-- BYPASS (R365). -/
  | bypass (dt : Nat) (th : Nat)
  /-- UNBYPASS (R365). -/
  | unbypass (dt : Nat) (th : Nat)
  /-- NODE_REQ (R219). -/
  | nodeReq (dt : Nat) (th : Nat)
  /-- NODE_REPLY_RECEIVE (R219): the node, the TAG and the data after it. -/
  | nodeReplyReceive (dt : Nat) (node : Nat) (tag : Nat) (data : List Byte)
  /-- THROW_GROUP_SET (R174). -/
  | throwGroupSet (dt : Nat) (th : Nat)
  /-- THROW (R175): admission of the THROW that is next in the hank being admitted. -/
  | throwCmd (dt : Nat)
  /-- OBJ_OPEN (R218). -/
  | objOpen (dt : Nat) (th : Nat)
  /-- OBJ_WRITE (R218). -/
  | objWrite (dt : Nat) (th : Nat)
  /-- OBJ_CLOSE (R218). -/
  | objClose (dt : Nat) (th : Nat)
  /-- OBJ_DELETE (R218). -/
  | objDelete (dt : Nat) (th : Nat)
  /-- OBJ_SEND (R218): errors corrected in its reads of the DRAM, and the blocks in which one is uncorrectable (R17). -/
  | objSend (dt : Nat) (th corrected : Nat) (poisoned : List Nat)
  /-- POLICY_WRITE (R212). -/
  | policyWrite (dt : Nat) (th : Nat)
  /-- POLICY_READ (R217). -/
  | policyRead (dt : Nat) (th : Nat)
  /-- KEY_LOAD (R310, R311): outcomes of the unwrap, of the read-back and of the commit word's verify, and how many of the three
  writing steps are done, 3 unless the supply is lost meanwhile. -/
  | keyLoad (dt : Nat) (th : Nat) (unwrapOk readBackOk verifyOk : Bool) (steps : Nat)
  /-- KEY_ATTR (R312). -/
  | keyAttr (dt : Nat) (th : Nat)
  /-- KEY_ERASE (R313): outcome of the commit word's verify. -/
  | keyErase (dt : Nat) (th : Nat) (verifyOk : Bool)
  /-- KEY_INFO (R308). -/
  | keyInfo (dt : Nat) (th : Nat)
  /-- LIFECYCLE_SET (R317): outcome of the word's verify, and the commit words whose write fails its verify (R53);
  `upto` erasures are made before the supply is lost, all where none is given. -/
  | lifecycleSet (dt : Nat) (th : Nat) (verifyOk : Bool) (faults : List Nat) (upto : Option Nat)
  /-- REEL_STAGE (R329): the card's answer, and the outcome of PRA_BANK's verify. -/
  | reelStage (dt : Nat) (th : Nat) (card : Card) (verifyOk : Bool)
  /-- REEL_STAGE_BLOCK (R329): whether the card still answers, the block's CRC and manifest entry match, it programs
  and reads back, and (at the last block) the whole bank verifies by signature and by blocks and PRA_BANK's write
  passes its verify. -/
  | reelStageBlock (dt : Nat) (cardOk blockOk flashOk bankSigOk bankBlocksOk verifyOk : Bool)
  /-- REEL_ACTIVATE (R330): admission of the REEL_ACTIVATE that is next in the hank being admitted. -/
  | reelActivate (dt : Nat)
  /-- REEL_ACTIVATE_EXECUTE (R331): outcome of PRA_BANK's verify. -/
  | reelActivateExecute (dt : Nat) (verifyOk : Bool)
  /-- ACTIVATE_RESET (R331). -/
  | activateReset (dt : Nat)
  /-- OWNER_LOCK (R328): outcome of the word's verify. -/
  | ownerLock (dt : Nat) (th : Nat) (verifyOk : Bool)
  /-- QUOTE_REQ (R319): the request as a CCP packet. -/
  | quoteReq (dt : Nat) (port : Port) (p : CcpPacket)
  -- shuttle and queues
  /-- PACKET_INGRESS (R225). -/
  | packetIngress (dt : Nat) (port : Port) (p : Packet)
  /-- PACKET_INGRESS_END (R228): the port and the FCS. -/
  | packetIngressEnd (dt : Nat) (port : Port) (fcsOk : Bool)
  /-- EGRESS_SELECT (R242). -/
  | egressSelect (dt : Nat) (port : Port)
  /-- PORT_LINK (R229): the new link state. -/
  | portLink (dt : Nat) (port : Port) (up : Bool)
  /-- TABLE_READ (R235): the value written to SHT_TCMD. -/
  | tableRead (dt : Nat) (v : Word)
  /-- TABLE_WRITE (R235). -/
  | tableWrite (dt : Nat) (v : Word)
  /-- TABLE_DELETE (R235). -/
  | tableDelete (dt : Nat) (v : Word)
  /-- TABLE_INSERT (R235). -/
  | tableInsert (dt : Nat) (v : Word)
  /-- TABLE_FIND (R235). -/
  | tableFind (dt : Nat) (v : Word)
  /-- TABLE_LOOKUP (R235). -/
  | tableLookup (dt : Nat) (v : Word)
  /-- BANK_SWAP (R234): the value written to SHT_BANK. -/
  | bankSwap (dt : Nat) (v : Word)
  /-- SHAPER_WRITE (R245): the address of a RATE or BURST register of QUE. -/
  | shaperWrite (dt : Nat) (addr : Nat) (v : Word)
  /-- POLICER_WRITE (R254): the address of a RATE or BURST register of CRD. -/
  | policerWrite (dt : Nat) (addr : Nat) (v : Word)
  /-- GATE_ARM (R249): BH0, BH1 or PLK, and the value written to QUE_GCTRL. -/
  | gateArm (dt : Nat) (p : Fin 3) (v : Word)
  /-- GATE_CANCEL (R249). -/
  | gateCancel (dt : Nat) (p : Fin 3) (v : Word)
  /-- GATE_SWITCH (R250). -/
  | gateSwitch (dt : Nat) (p : Fin 3)
  /-- GATE_ENTRY_CHANGE (R248). -/
  | gateEntryChange (dt : Nat) (p : Fin 3)
  /-- PAUSE_RECEIVE (R256): BH0 (false) or BH1 (true). -/
  | pauseReceive (dt : Nat) (port : Bool) (f : MacCtl)
  /-- PAUSE_EXPIRE (R256). -/
  | pauseExpire (dt : Nat) (port : Bool) (c : Fin 16)
  /-- PAUSE_LONG (R263). -/
  | pauseLong (dt : Nat) (port : Bool) (c : Fin 16)
  /-- PFC_REFRESH (R257). -/
  | pfcRefresh (dt : Nat) (port : Bool) (i : Fin 8)
  /-- FC_CONFIG_WRITE (R257): the address of QUE_PCFG or QUE_FC3 of a backhaul port. -/
  | fcConfigWrite (dt : Nat) (addr : Nat) (v : Word)
  -- ply and loom
  /-- HEARTBEAT_SEND (R271): whether the firmware has written the status block. -/
  | heartbeatSend (dt : Nat) (written : Bool)
  /-- HEARTBEAT_RECEIVE (R273). -/
  | heartbeatReceive (dt : Nat) (path : Path) (h : LinkHeader) (b : Heartbeat)
  /-- OFFER_RECEIVE (R276). -/
  | offerReceive (dt : Nat) (h : LinkHeader) (r : DownRec)
  /-- MERGE_WAIT_EXPIRE (R276): the record's hash. -/
  | mergeWaitExpire (dt : Nat) (hash : Nat)
  /-- ASSIGN_RECEIVE (R277): a record with its share ASN. -/
  | assignReceive (dt : Nat) (h : LinkHeader) (r : DownRec)
  /-- COUNTERS_RECEIVE (R277): destination, DSN and frame counter. -/
  | countersReceive (dt : Nat) (h : LinkHeader) (dest : Option Nat) (dsn fc : Nat)
  /-- DELTA_RECEIVE (R281): the mirror epoch and the change. -/
  | deltaReceive (dt : Nat) (h : LinkHeader) (epoch : BitVec 32) (d : Delta)
  /-- SNAP_REQ_RECEIVE (R283): one node index when a single node is asked for (R361). -/
  | snapReqReceive (dt : Nat) (h : LinkHeader) (node : Option Nat)
  /-- SNAP_RECEIVE (R283): the mirror epoch, the nodes of this part, the cells by spindle, the warp's registers by
  address, the policy entries, the policy epoch, and whether the part is the last. -/
  | snapReceive (dt : Nat) (h : LinkHeader) (epoch : BitVec 32) (nodes : List NodeSnap)
      (cells : List (Nat × Nat × Word × Word)) (regs : List (Nat × Word)) (policy : List (Nat × BitVec 128))
      (polEpoch : BitVec 16) (last : Bool)
  /-- TREADLE_TIMEOUT (R285). -/
  | treadleTimeout (dt : Nat)
  /-- TREADLE_RESET (R285). -/
  | treadleReset (dt : Nat)
  /-- TREADLE_STATUS_TIMEOUT (R286). -/
  | treadleStatusTimeout (dt : Nat)
  /-- TREADLE_LOST (R286). -/
  | treadleLost (dt : Nat)
  /-- LOOM_BEACON_SEND (R290). -/
  | loomBeaconSend (dt : Nat)
  /-- LOOM_BEACON_RECEIVE (R291): the ply number in the header. -/
  | loomBeaconReceive (dt : Nat) (h : LinkHeader) (ply : BitVec 8) (b : Beacon)
  /-- LOOM_ENTRY_LAPSE (R291). -/
  | loomEntryLapse (dt : Nat) (ply : BitVec 8) (side : Bool)
  /-- VISIT_Q_RECEIVE (R292). -/
  | visitQReceive (dt : Nat) (h : LinkHeader) (ply : BitVec 8) (eui : BitVec 64)
  /-- VISIT_A_RECEIVE (R292). -/
  | visitAReceive (dt : Nat) (h : LinkHeader) (ply : BitVec 8) (eui : BitVec 64) (handle : BitVec 32)
  /-- VISIT_TIMEOUT (R292). -/
  | visitTimeout (dt : Nat) (eui : BitVec 64)
  /-- WHERE_RECEIVE (R292): handle and serving ply, 0 = left. -/
  | whereReceive (dt : Nat) (h : LinkHeader) (ply : BitVec 8) (handle : BitVec 32) (serving : BitVec 8)
  /-- WHERE_REFRESH (R292). -/
  | whereRefresh (dt : Nat) (node : Nat)
  /-- HOME_LEASE_EXPIRE (R292). -/
  | homeLeaseExpire (dt : Nat) (node : Nat)
  /-- FWD_RECEIVE (R293): the inner hank. -/
  | fwdReceive (dt : Nat) (h : LinkHeader) (ply : BitVec 8) (p : CcpPacket)
  /-- RELAY_RECEIVE (R293): node handle, destination port, TAG, NOREPLY, data. -/
  | relayReceive (dt : Nat) (h : LinkHeader) (ply : BitVec 8) (handle : BitVec 32) (dport : BitVec 16) (tag : Nat)
      (noReply : Bool) (data : List Byte)
  /-- RELAY_RES_RECEIVE (R293): node handle, TAG, status and data. -/
  | relayResReceive (dt : Nat) (h : LinkHeader) (ply : BitVec 8) (handle : BitVec 32) (tag : Nat) (status : BitVec 8)
      (data : List Byte)
  /-- NODE_REFETCH_TIMEOUT (R361). -/
  | nodeRefetchTimeout (dt : Nat) (node : Nat)
  -- distaff background
  /-- KEY_REMASK (R302). -/
  | keyRemask (dt : Nat)
  /-- RNG_HEALTH_WINDOW (R303): whether the window passed. -/
  | rngHealthWindow (dt : Nat) (pass : Bool)
  -- service port and ROM recovery
  /-- HELLO (R335): SEQ of the request. -/
  | hello (dt : Nat) (seq : BitVec 8)
  /-- SET_BAUD (R335). -/
  | setBaud (dt : Nat) (seq : BitVec 8) (rate : Nat)
  /-- SET_BAUD_REVERT (R335). -/
  | setBaudRevert (dt : Nat)
  /-- SVC_REG_READ (R335). -/
  | svcRegRead (dt : Nat) (seq : BitVec 8) (addr count : Nat)
  /-- SVC_REG_WRITE (R335). -/
  | svcRegWrite (dt : Nat) (seq : BitVec 8) (addr : Nat) (v : Word)
  /-- QUOTE (R335). -/
  | quote (dt : Nat) (seq : BitVec 8) (nonce : BitVec 256)
  /-- SERVICE_FRAME_GAP (R335). -/
  | serviceFrameGap (dt : Nat)
  /-- IMG_BEGIN (R336). -/
  | imgBegin (dt : Nat) (seq : BitVec 8) (size : Nat)
  /-- IMG_DATA (R336): offset, octets of data, what the head says once it is whole, and whether each block that
  completes here matches, programs and reads back. -/
  | imgData (dt : Nat) (seq : BitVec 8) (offset count : Nat) (head : Reel) (blockOk flashOk verifyOk : Bool)
  /-- IMG_END (R336): outcomes of the whole image's verification and of the persistent writes' verify. -/
  | imgEnd (dt : Nat) (seq : BitVec 8) (sigOk blocksOk verifyOk : Bool)
  /-- RECOVERY_RESET (R336): level of RECOVERY_N low. -/
  | recoveryReset (dt : Nat) (recoveryLow : Bool)
  /-- RECOVERY_CARD_READ (R334): the card's answer, and the outcome of the persistent writes' verify. -/
  | recoveryCardRead (dt : Nat) (card : Card) (verifyOk : Bool)
  -- events and picker
  /-- EVT_STICKY_CLEAR (R347): the address of EVT_STICKYw or EVT_SRCe. -/
  | evtStickyClear (dt : Nat) (addr : Nat) (v : Word)
  /-- NOTICE_SEND (R352). -/
  | noticeSend (dt : Nat)
  /-- PICKER_SCAN (R358): the memory, what the word read holds, its byte address, the outcome, and whether it ends the
  memory's pass. -/
  | pickerScan (dt : Nat) (mem : ScrubMemory) (tgt : ScrubTarget) (addr : BitVec 32) (r : ScrubResult) (passEnd : Bool)
  /-- THR_HWM_CLR (R223). -/
  | thrHwmClr (dt : Nat) (v : Word)
  -- hold-up check and late rows
  /-- HOLDUP_CHECK_START (R379): V1 in mV. -/
  | holdupCheckStart (dt : Nat) (v1 : Nat)
  /-- HOLDUP_CHECK_END (R379): V2 in mV and the mean power P in mW. -/
  | holdupCheckEnd (dt : Nat) (v2 p : Nat)
  /-- LOGIC_RAIL_FALL (R376). -/
  | logicRailFall (dt : Nat)
  /-- REF10M_QUALIFY (R67): the edge interval in ns and the rate against BHREF in 0.001 ppm. -/
  | ref10mQualify (dt : Nat) (edge : Nat) (rate : Int)
  /-- PLL_RELOCK (R22). -/
  | pllRelock (dt : Nat) (n : Fin 4)
  /-- TREADLE_STATUS_RESUME (R286). -/
  | treadleStatusResume (dt : Nat)
  /-- RECEIVE_WINDOW_START (R164). -/
  | receiveWindowStart (dt : Nat) (n : Fin 4)
  deriving DecidableEq, Repr

end Sys2Proof
end

