-- ==== Sys2Proof/Decode.lean ====
section
/-! DEFINITION. The commands that words spell. spec/opcode_table.json gives no row any bits: the FD4800 takes its
commands at its balls, its ports and its protocols, none of them as an instruction word. So no word spells a command. -/

namespace Sys2Proof

/-- The command that the `nbits` bits `w` spell by the table: none, as no row of the table gives bits. -/
def decodeTableWord (nbits w : Nat) : Option Instr :=
  match nbits, w with
  | _, _ => none

end Sys2Proof
end

