-- ==== Sys2Proof/Config.lean ====
section
/-! DEFINITION. What the manual leaves to an implementation, and the functions it names only by citing a
standard. Each is a constant with no body: no proof can see a value of it, and a claim holds whatever it is. -/

namespace Sys2Proof

/-- FREE VALUE. Random and undefined values (BOOT[7:0] of R192, the masks of R302, the Delay_Req spread of
R71): the counter `free` of the state is the argument, and each use advances it (log 5). -/
opaque Config.freeBits : Nat → BitVec 256

/-- FREE VALUE. The CSMA-CA backoff draw of R277, seeded with the ASN and the node index; the manual gives no
generator (log 6). -/
opaque Config.backoff : Nat → Nat → Nat

/-- FREE VALUE. The radio copy of device time (R64): its distance in ns from the master counter, of which the model takes no
more than the 10 ns the manual bounds it to, and its value before the first load; by the counter `free` and device time
(log 102). -/
opaque Config.radioCopy : Nat → Nat → Int

/-- FREE VALUE. The step in 2^-32 ns per shuttle cycle to which the servo sets the master counter at a tick (R64, R69, R75):
the manual gives no servo law. By the counter `free` and device time (log 102). -/
opaque Config.servoStep : Nat → Nat → Nat

/-- SHA-384, cited by R218, R276, R318 and R324 (log 7). -/
opaque Config.sha384 : List Byte → BitVec 384

/-- The key octets that AES key wrap yields from a wrapped key under a wrapping key (R304, R307, R310; log 7).
Whether the integrity check passes is carried by the command. -/
opaque Config.unwrapKey : List Byte → List Byte → List Byte

/-- The first 8 octets of AES-CMAC under a key over 16 zero octets (R308; log 7). -/
opaque Config.kcv : List Byte → BitVec 64

/-- The public point of a P-384 private key (R308; log 7). -/
opaque Config.publicPoint : List Byte → BitVec 768

/-- The 128-bit node key that the KDF of R314 derives from a key and its 27-octet input (log 7). -/
opaque Config.kdf : List Byte → List Byte → BitVec 128

/-- The ECDSA P-384 signature of R319 by skein 1's key over the quote's octets (log 7). -/
opaque Config.sign : List Byte → List Byte → BitVec 768

/-- The link-layer address of a port with a line, by its number (R265; log 111). -/
opaque Config.portMac : Nat → BitVec 48

/-- The 6LoWPAN form of an IPv6 packet's octets, as RFC 6282 compresses it (R167, log 7). -/
opaque Config.lowpan : List Byte → List Byte

/-- What AES-128-CCM* with a 4-octet MIC makes of a frame (R315, log 7): the key, none for frames to no one node, whose key the
manual does not name; the source's EUI-64; ASN; frame counter, where one is sent; the octets before; the text. -/
opaque Config.ccm : Option (BitVec 128) → BitVec 64 → Nat → Option Nat → List Byte → List Byte → List Byte

/-- What AES-256-GCM makes of a key, a 96-bit IV, additional data and a text: the ciphertext and the 16-octet tag (R191, R269,
R290; log 7). -/
opaque Config.gcm : List Byte → List Byte → List Byte → List Byte → List Byte

/-- FREE VALUE. The body octets of the ply-link and loom messages whose layout the manual does not give, by the message's kind
and SEQ (R269, R290; log 8). -/
opaque Config.linkBody : Nat → Nat → List Byte

/-- FREE VALUE. The RPL DODAG version and the DTSN (R169 gives none; log 8). -/
opaque Config.rplVersion : Nat

/-- FREE VALUE. The draw of t in a Trickle interval (R169), by the instant in ns of device time at which the interval began:
the manual gives no generator (log 8). -/
opaque Config.trickle : Nat → Nat

/-- The FCS of IEEE 802.15.4 over the octets before it, 2 octets long or, for false, 4 (R131 to R133; log 7). -/
opaque Config.fcs : Bool → List Byte → List Byte

/-- The FEC of SUN FSK with its interleaver over PHR and PSDU, NRNSC or, for true, RSC, and the data whitening of its PSDU
(R131; log 7). -/
opaque Config.sunFec : Bool → List Byte → List Byte
opaque Config.sunWhiten : List Byte → List Byte

/-- FREE VALUE. The 64 coefficients of the built-in pulse filter of a waveform, and for 0 of the fixed Gaussian of FD3200 ramp
mode: R150 names their shapes and no coefficients (log 110). -/
opaque Config.pulse : Nat → List Int

end Sys2Proof
end

