-- ==== Sys2Proof/Machine/State.lean ====
section
/-! DEFINITION. The state of the FD4800 as plain data: every register, table, queue, counter, mode and pin that
the manual names, by block; the queue of waiting commands; the reasons a step could stop; the state after reset.
Each structure's field defaults are the values after release of RESET_N (R10). -/

namespace Sys2Proof.Machine

/-- Why a step would end in a fault. The manual gives every command an effect, a refusal with a status, or a
counted drop (R4), so no meaning raises one. -/
inductive Fault
  /-- Raised by nothing; safe. -/
  | none
  deriving DecidableEq, Repr

/-- Why a step would be refused by the model. -/
inductive Refusal
  /-- Raised by an arm of `exec` for a row whose meaning is not written; safe. -/
  | notModelled (mnemonic : String)
  deriving DecidableEq, Repr

/-! ## Statuses and outputs -/

/-- The status encoding of R201, with the values its chapters assign (R119, R239, R308, R328, R360). -/
inductive Status
  | ok | partialOk | busy | denied | range | state | time | lead | throwFull | empty | depth | duplicate | conflict
  | noToken | writeFault | timeout | revoked | predFail | unknownOp | format | noNode | noObject | noSpace
  | nodeFail | locked | supply | partner | digest | attr | unwrap | verify | rng | noMedia | noFile | reelFormat
  | reelSig | reelBlock | rollback | flash | lostState | miss | cancelled
  deriving DecidableEq, Repr

/-- The number of a status (R201). -/
def Status.num : Status → Nat
  | .ok => 0x00 | .partialOk => 0x01 | .busy => 0x02 | .denied => 0x03 | .range => 0x04 | .state => 0x05
  | .time => 0x06 | .lead => 0x07 | .throwFull => 0x08 | .empty => 0x09 | .depth => 0x0A | .duplicate => 0x0B
  | .conflict => 0x0C | .noToken => 0x0D | .writeFault => 0x0E | .timeout => 0x0F | .revoked => 0x10
  | .predFail => 0x11 | .unknownOp => 0x12 | .format => 0x13 | .noNode => 0x14 | .noObject => 0x15
  | .noSpace => 0x16 | .nodeFail => 0x17 | .locked => 0x18 | .supply => 0x19 | .partner => 0x1A
  | .digest => 0x1B | .attr => 0x1C | .unwrap => 0x1D | .verify => 0x1E | .rng => 0x1F | .noMedia => 0x20
  | .noFile => 0x21 | .reelFormat => 0x22 | .reelSig => 0x23 | .reelBlock => 0x24 | .rollback => 0x25
  | .flash => 0x26 | .lostState => 0x27 | .miss => 0x28 | .cancelled => 0x29

/-- Every status (R201). -/
def Status.all : List Status :=
  [.ok, .partialOk, .busy, .denied, .range, .state, .time, .lead, .throwFull, .empty, .depth, .duplicate, .conflict, .noToken,
   .writeFault, .timeout, .revoked, .predFail, .unknownOp, .format, .noNode, .noObject, .noSpace, .nodeFail, .locked, .supply,
   .partner, .digest, .attr, .unwrap, .verify, .rng, .noMedia, .noFile, .reelFormat, .reelSig, .reelBlock, .rollback, .flash,
   .lostState, .miss, .cancelled]

/-- The status of a number (R201). -/
def statusOf (n : Nat) : Option Status := Status.all.find? (fun s => s.num == n)

/-- The carrier of a frame on air: what was sent (R83, R167). -/
inductive AirKind
  | beacon
  /-- acknowledgement of the frame with this capture timestamp, with its time correction in µs where one is sent -/
  | ack (ts : Nat) (tc : Option Int)
  | record (r : DownRec)
  deriving DecidableEq, Repr

/-- What modulates a transmission (R131 to R133, R150): the octets from preamble to PSDU, the frequency levels of their symbols
in the native waveforms, the taps of the pulse filter, and the ramp time r. -/
structure AirWave where
  octets : List Byte := []
  levels : List Int := []
  taps : List Int := []
  rampNs : Nat := 0
  deriving DecidableEq, Repr

/-- Whom an acknowledgement answers (R315): the sender, the DSN where the frame had one, and the frame's district, Key Index and
generation. -/
structure AckTo where
  eui : Option (BitVec 64)
  dsn : Option Nat
  district : BitVec 16
  gen : Nat
  deriving DecidableEq, Repr

/-- A log entry (R351); `slot` is the slot its first report fell in (R350). -/
structure LogEntry where
  index : Nat
  time : Nat
  src : Nat
  deferred : Bool
  /-- 1 PULSE, 2 RISE, 3 FALL -/
  kind : Nat
  count : Nat
  reps : Nat
  level : Nat
  spn : Nat
  payload : List Byte
  slot : Int
  deriving DecidableEq, Repr

/-- Where octets leave: PLK's MAC, a UDP datagram from a port of an own address (R188, R268, R290), or the service port (R335). -/
inductive Via
  | plk
  | serial
  | udp (src dst : BitVec 128) (sport dport : Nat)
  deriving DecidableEq, Repr

/-- What the device sends or answers in the latest command. -/
inductive Output
  /-- the status returned to the sender of a register write (R4) -/
  | status (st : Status)
  /-- the octets of a frame's or datagram's payload, sealed where the manual has them sealed; the decoded message follows it -/
  | sealed (via : Via) (octs : List Byte)
  /-- HANK_ACK to an address and port, or through the loom (R198) -/
  | hankAck (dst : BitVec 128) (port : BitVec 16) (ident seq hseq hstatus : Nat) (epoch : Nat) (entries : List (Nat × Nat))
  /-- COMPLETION to an identity's hank source: threads and their records' octets (R204, R205) -/
  | completion (dst : BitVec 128) (port : BitVec 16) (ident seq : Nat) (records : List (List Byte))
  /-- NOTICE (R352) -/
  | notice (dst : BitVec 128) (port : BitVec 16) (ident seq first lost : Nat) (entries : List LogEntry)
  /-- QUOTE_RESP body (R319) -/
  | quoteResp (dst : BitVec 128) (port : BitVec 16) (body : List Byte) (sig : BitVec 768)
  /-- heartbeat k on a path (R271) -/
  | heartbeat (path : Path) (seq : Nat) (b : Heartbeat)
  | offer (r : DownRec)
  | assign (r : DownRec)
  | delta (epoch : Nat) (d : Delta)
  | snapReq (node : Option Nat)
  | snap (epoch : Nat) (nodes : List NodeSnap) (cells : List (Nat × Nat × Word × Word))
      (regs : List (Nat × Word)) (policy : List (Nat × BitVec 128)) (polEpoch : Nat) (last : Bool)
  | counters (dest : Option Nat) (dsn fc : Nat)
  /-- loom messages (R290) -/
  | beacon (b : Beacon)
  | visitQ (eui : BitVec 64)
  | visitA (ply : Nat) (eui : BitVec 64) (handle : BitVec 32)
  | whereMsg (ply : Nat) (handle : BitVec 32) (serving : Nat)
  | fwd (ply side : Nat) (p : CcpPacket)
  | relay (ply : Nat) (handle : BitVec 32) (dport : BitVec 16) (tag : Nat) (noReply : Bool) (data : List Byte)
  | relayRes (ply : Nat) (handle : BitVec 32) (tag status : Nat) (data : List Byte)
  /-- a transmission leaves the ball (R105): channel, level, f_set in steps of 40 MHz / 2^24, and what modulates it -/
  | air (spn : Nat) (k : AirKind) (profile chan level : Nat) (fset : Int) (wave : AirWave)
  /-- the reader of a bobbin delivers a word to its consumer (R30) -/
  | word (b : Nat) (w : BitVec 72)
  /-- a packet leaves an egress queue (R242) -/
  | egress (port : Port) (cls : Nat) (p : Packet)
  /-- a cut-through frame is ended with an inverted FCS (R228) -/
  | stomp (port : Port)
  /-- a PAUSE or PFC frame leaves a backhaul port (R257), with its octets from the Ethertype on -/
  | macCtl (port : Bool) (f : MacCtl) (octs : List Byte)
  /-- a Neighbor Advertisement leaves a port (R265) -/
  | advert (port : Port) (octs : List Byte)
  /-- PPS_OUT pulses for a time in µs (R74) -/
  | ppsOut (us : Nat)
  /-- service-port response: TYPE, SEQ, status, payload (R335) -/
  | svc (type : Nat) (seq : BitVec 8) (st : Status) (payload : List Byte)
  /-- an uplink packet handed to the shuttle (R279) -/
  | uplink (p : Packet)
  deriving DecidableEq, Repr

/-! ## Power die, global control, start -/

/-- Where the device stands between no power and operation (R38, R39, R41, R332, R334). -/
inductive Phase
  /-- VHOLD below the logic-rail threshold -/
  | unpowered
  /-- logic rail and treadle only -/
  | off
  /-- the first `k` of the five steps of the rail sequence are within tolerance -/
  | rails (k : Nat)
  /-- a rail missed its maximum offset -/
  | railFailed
  /-- rails up, control die held in reset -/
  | inReset
  | romBooted | sfdpDone | loaderDone | dramDone | bankLoaded | fwStarted | imageChecked | applied
  /-- START_HOLD reached -/
  | up
  | recovery
  deriving DecidableEq, Repr

/-- Power die (R345, R346, R355, R357, R372, R376, R379, R385). -/
structure Pwr where
  /-- ns since the model's reset: the power die's own count of time -/
  wall : Nat := 0
  cause : Nat := 0x01
  rail : Nat := 0
  /-- the logic rail has risen from unpowered and no start has begun since -/
  powerOn : Bool := false
  /-- the reference instant t0 of the start (R38) -/
  t0 : Nat := 0
  /-- VHOLD in mV as last measured -/
  vhold : Nat := 0
  pin : Nat := 0
  temps : Four Int := ⟨0, 0, 0, 0⟩
  /-- RESET_N held low for 125 samples -/
  resetLow : Bool := false
  /-- the input stands above the undervoltage lockout (33 V falling, 35 V rising) -/
  inputOk : Bool := true
  /-- PWRFAIL_N asserted -/
  pwrfail : Bool := false
  /-- FAILSAFE_N asserted for a rail failure (R39) -/
  failsafeRail : Bool := false
  /-- the treadle has not updated its status for 1 ms (R286) -/
  treadleLapse : Bool := false
  /-- since when VIN has been at or below 35.5 V -/
  lowSince : Option Nat := none
  /-- the input trip of this unbroken low period has occurred -/
  tripDone : Bool := false
  /-- WAKE of the OFF in force, in seconds, and the instant it counts from -/
  wake : Nat := 0
  offAt : Option Nat := none
  /-- when the rails go off after POWER_STATE OFF (R342) -/
  offDue : Option Nat := none
  /-- a hold-up check in progress: V1 in mV and its start -/
  holdupV1 : Option Nat := none
  holdupFrom : Nat := 0
  /-- when the next hold-up check falls due, none before START_HOLD -/
  holdupDue : Option Nat := none
  /-- the latest completed hold-up check since the start passed (R379) -/
  holdupPassed : Bool := false
  /-- straps as last sampled (R386) -/
  straps : BitVec 5 := 0
  /-- RECOVERY_N as last sampled, true = low -/
  recoveryLow : Bool := false
  /-- VSD33 is on (R383) -/
  vsd33 : Bool := false
  deriving DecidableEq, Repr

/-- Global control (R340, R360 to R362, R367, R368, R371). -/
structure Glb where
  ctrlStep : BitVec 4 := 0
  radioStep : BitVec 4 := 0
  powerStep : BitVec 4 := 0
  eui : BitVec 64 := 0
  /-- ns since control die reset release -/
  upNs : Nat := 0
  /-- 0 OFF, 1 HOLD, 2 LISTEN, 3 RUN -/
  power : Nat := 1
  tripped : Bool := false
  tripInput : Bool := false
  tripThermal : Bool := false
  /-- blocks with a code other than "not run" -/
  selftest : KMap (BitVec 2) := []
  sramPass : Nat := 0
  dramPass : Nat := 0
  corr : Nat := 0
  uncorr : Nat := 0
  retired : Nat := 0
  spareThread : Nat := 256
  spareNode : Nat := 256
  /-- corrected errors of the pass in progress and of the last completed pass, per memory of R358 -/
  passCorr : Four Nat := ⟨0, 0, 0, 0⟩
  lastCorr : Four Nat := ⟨0, 0, 0, 0⟩
  /-- free locations that have had a first error in this run: kind and location (R362) -/
  firstErr : List (Nat × Nat) := []
  /-- buffer cells retired -/
  retiredCells : Nat := 0
  /-- 4 KiB pages retired from the bulk region -/
  retiredPages : Nat := 0
  /-- retired locations: kind (0 buffer cell, 1 page, 2 thread record, 3 node record) and location -/
  retiredAt : List (Nat × Nat) := []
  /-- the firmware will reset the control die at the next tick strobe (R360) -/
  faultReset : Bool := false
  ptpDiscard : Nat := 0
  rplDeep : Nat := 0
  deriving DecidableEq, Repr

/-- A KEYWRAP record of an accepted image (R307). -/
structure KeyWrap where
  skein : Nat
  district : BitVec 16
  attr : Word
  gen : Nat
  wrapped : List Byte
  deriving DecidableEq, Repr

/-- A record of the configuration image as the walk of R47 finds it. -/
structure ImgRecord where
  type : Nat
  version : Nat
  payload : List Byte
  deriving DecidableEq, Repr

/-- Start-up (R38, R42 to R50, R62). -/
structure Start where
  /-- records of the accepted image, END left out -/
  records : List ImgRecord := []
  serial : Nat := 0
  /-- R49: code, record index, field offset -/
  cfgCode : Nat := 0
  cfgRecord : Nat := 0xFFFF
  cfgOffset : Nat := 0xFFFFFFFF
  configured : Bool := false
  /-- skipped records: index, TYPE, VERSION (R47) -/
  skipped : List (Nat × Nat × Nat) := []
  /-- bank the running firmware was loaded from, and both banks' reels as read -/
  bank : Nat := 0
  reels : Option (Reel × Reel) := none
  /-- the writes of a settings reset still to be made, and its GROUPS (R62) -/
  resetLeft : Option (List (Nat × Word) × Nat) := none
  /-- events raised by the ROM and the loader, oldest first: source and payload (R354) -/
  deferred : List (Nat × List Byte) := []
  deriving DecidableEq, Repr

/-! ## Persistent register array (R51 to R62) -/

/-- Who issued a persistent write. -/
inductive PraWriter
  | reg | svc (seq : BitVec 8) | thread (th : Nat) | firmware
  deriving DecidableEq, Repr

/-- A persistent write that has reached the array. -/
structure PraReq where
  word : Nat
  value : Word
  writer : PraWriter
  deriving DecidableEq, Repr

/-- The array: words (0 where not listed), wear counters (0 where not listed), and each bucket's tokens spent
(4,096 less its level, 0 where not listed). -/
structure Pra where
  words : KMap Word := [(0x0000, 1), (0x0001, 1), (0x0020, 0x40000001), (0x0021, 0x40000001)]
  wear : KMap Nat := []
  spent : KMap Nat := []
  queue : List PraReq := []
  busy : Option PraReq := none
  /-- up-time in ns of the next refill instant (R54) -/
  refillAt : Nat := 8000000000
  /-- up-time in ns up to which PRA_LIFE counts, and when its next update falls due (R55) -/
  lifeAt : Nat := 0
  lifeDue : Nat := 3600000000000
  /-- up-time of the last write of word 0x0400 and the value written (R91) -/
  learnedAt : Nat := 0
  /-- up-time of the last write of words 0x0440 + n (R123), 0 before the first -/
  tunerAt : Four Nat := ⟨0, 0, 0, 0⟩
  deriving DecidableEq, Repr

/-! ## Events (R347 to R354) -/

/-- One event source: R347, R348, R349, R373. -/
structure SrcSt where
  sticky : Bool := false
  /-- instances that are live -/
  live : List Nat := []
  count : Nat := 0
  noticeEn : Bool := true
  evtnEn : Bool := false
  /-- instances whose condition to change has held, with the instant it began to hold -/
  dwell : KMap Nat := []
  /-- when STICKY was last set, by the power die's count of time (R8, R369) -/
  setAt : Option Nat := none
  deriving DecidableEq, Repr

/-- The event system. -/
structure Evt where
  srcs : KMap SrcSt := []
  /-- newest first, at most 4,096 -/
  log : List LogEntry := []
  head : Nat := 0
  noticeLost : Nat := 0
  /-- log index up to which notices have been sent -/
  noticed : Nat := 0
  deriving DecidableEq, Repr

/-! ## Whorl (R64 to R92) -/

/-- State of the whorl (R69). -/
inductive WhlState
  | freerun | acquire | locked | holdover
  deriving DecidableEq, Repr

/-- Active source, as SRC of WHL_STATUS encodes it (R90). -/
inductive Source
  | none | ptp0 | ptp1 | pps | holdTcxo | holdRef | holdBhref
  deriving DecidableEq, Repr

/-- A throw held in the launch table (R87, R175 to R181). -/
structure Launch where
  at_ : Nat
  throwId : Nat
  group : Nat
  action : List Byte
  th : Nat
  /-- members at admission, and those of them not present (R175) -/
  members : List Nat
  absent : List Nat
  armed : List Nat
  refused : List Nat
  /-- senders of the CONFIRMs counted as EXTRA -/
  extra : List Nat
  /-- copies sent on each spindle and the start of the latest (R177) -/
  copies : Four Nat
  lastCopy : Four (Option Nat)
  /-- LEAD_HOP at admission, in ms (R177, R185) -/
  leadHop : Nat
  admitted : Nat
  deriving DecidableEq, Repr

/-- A revoked throw whose CANCEL copies are still to be sent (R181). -/
structure CancelRec where
  throwId : Nat
  group : Nat
  at_ : Nat
  copies : Four Nat
  lastCopy : Four (Option Nat)
  leadHop : Nat
  deriving DecidableEq, Repr

/-- What the device knows of the PTP source on one backhaul port (R67, R70, R71). -/
structure PtpPort where
  /-- the parent the BMCA has selected here, with its dataset -/
  parent : Option PtpAnnounce := none
  lastAnnounce : Nat := 0
  lastSync : Nat := 0
  syncInterval : Int := 0
  /-- the last Sync measurements, newest first: device time and offset -/
  syncs : List (Nat × Int) := []
  qual : Bool := false
  qualSince : Nat := 0
  /-- mean path delay, ns -/
  delay : Int := 0
  /-- latest Sync: t1 and t2, for the path delay -/
  lastT1T2 : Option (Nat × Nat) := none
  delayReqAt : Option Nat := none
  /-- sequenceId of the next Delay_Req -/
  delayReqSeq : Nat := 0
  delayReqLog : Int := 0
  /-- when the next Delay_Req falls due -/
  delayReqDue : Nat := 0
  deriving DecidableEq, Repr

/-- The phases of one tick, kept where they run past the next strobe (R77, R82, R84). -/
structure TickWork where
  /-- the tick, and the device time its deadlines count from -/
  tick : Int
  at_ : Nat
  drained : Bool
  drainedAt : Nat
  scheduled : Bool
  drainMissed : Bool
  schedMissed : Bool
  txMissed : Bool
  /-- the cells as its schedule computation began with them (R161) -/
  live : Four (KMap (Word × Word))
  deriving DecidableEq, Repr

/-- The whorl. -/
structure Whl where
  /-- device time: the master counter -/
  time : Nat := 0
  /-- the radio copy as last loaded (R64), none before the first strobe -/
  radio : Option Nat := none
  /-- step of the master counter per 625 MHz cycle and of the radio copy per 240 MHz cycle, in 2^-32 ns (R64): nominally
  1.6 ns and 4.1667 ns -/
  masterStep : Nat := 6871947674
  radioStep : Nat := 17895697067
  /-- step of the master counter as learned (R75) -/
  learnedStep : Option Nat := none
  state : WhlState := .freerun
  src : Source := .none
  ptp0 : PtpPort := {}
  ptp1 : PtpPort := {}
  ppsQual : Bool := false
  refQual : Bool := false
  todValid : Bool := false
  stepPend : Bool := false
  learned : Bool := false
  todArm : Bool := false
  enPps : Bool := false
  enPtp1 : Bool := true
  enPtp0 : Bool := true
  enRef : Bool := false
  latchTime : Nat := 0
  latchAsn : Nat := 0
  latchPos : Nat := 0
  latchNext : Nat := 0xFFFFFFFFFFFFFFFF
  epoch : Nat := 0
  /-- P in units of 10 µs -/
  period : Nat := 1000
  offset : Int := 0
  freqCorr : Int := 0
  holdEst : Nat := 0
  holdLimit : Nat := 20000
  domain : Nat := 0
  annTmo : Nat := 3
  transport : Bool := false
  scope : Bool := false
  outMode : Nat := 0
  inEdge : Bool := false
  todSec : Nat := 0
  ovrDrain : Nat := 0
  ovrSched : Nat := 0
  ovrTxprep : Nat := 0
  skipped : Nat := 0
  /-- the launch table, in order of admission (R87) -/
  launches : List Launch := []
  cancels : List CancelRec := []
  plkOffset : Option Int := none
  /-- an offset has been measured over PLK since the last strobe (R90) -/
  plkNew : Bool := false
  /-- device time since which the whorl has been LOCKED without a break -/
  lockedSince : Option Nat := none
  /-- longest unbroken stretch in LOCKED of this run, ns -/
  longestLock : Nat := 0
  /-- consecutive measurements within ±100 ns in ACQUIRE -/
  goodRun : Nat := 0
  /-- last PPS_IN edge and consecutive edges in order -/
  ppsLast : Option Nat := none
  ppsRun : Nat := 0
  /-- TAI second of the last PPS_IN edge, counted from WHL_TOD_SEC as applied (R68) -/
  ppsSec : Option Nat := none
  /-- HOLDOVER: entry instant and |offset at entry| -/
  holdFrom : Nat := 0
  holdOff : Nat := 0
  /-- the offset of the latest slew, signed ns, and the device time it began at (R77) -/
  slew : Int := 0
  slewFrom : Nat := 0
  /-- step due at the next tick -/
  step : Option Int := none
  /-- TCXO offset as learned, 0.0001 ppm -/
  learnedTcxo : Int := 0
  /-- number of the last tick strobe, and its instant -/
  tickK : Int := -1
  tickAt : Nat := 0
  /-- phases of the present tick: drain done and when, schedule done, deadlines missed, and whether the next slot's
  transmit cells are skipped (R82, R84) -/
  drained : Bool := true
  drainedAt : Nat := 0
  scheduled : Bool := true
  drainMissed : Bool := false
  schedMissed : Bool := false
  prepMissed : Bool := false
  txMissed : Bool := false
  /-- phases of earlier ticks that had not ended when the next strobe came, the oldest first (R77, R84) -/
  before : List TickWork := []
  deriving DecidableEq, Repr

/-! ## Spindles (R93 to R155) -/

/-- STATE of SPN_STATE (R93). -/
inductive SpnMode
  | sleep | standby | synth | rx | tx
  deriving DecidableEq, Repr

/-- A hold in force: its thread, effect instant and end (none = until released) (R119). -/
structure Hold where
  from_ : Nat
  until_ : Option Nat
  deriving DecidableEq, Repr

/-- A calibration kind's value: the one held before the latest correction and the newer one (R115). -/
structure CalVal where
  kind : CalKind
  old : CalMeas
  new : CalMeas
  deriving DecidableEq, Repr

/-- A cell entry chosen for service in a slot. -/
structure CellRef where
  /-- the first slot it occupies -/
  slot : Int
  index : Nat
  sf : Nat
  span : Nat
  profile : Nat
  chan : Nat
  node : Option Nat
  /-- TYPE of R159 -/
  type : Nat
  deriving DecidableEq, Repr

/-- Why a due cell is dropped at schedule computation (R163, R164): rules 1 to 3, rule 5, or, of a transmit cell, that it holds no
frame and counts only where orders 1 to 3 of R164 keep the spindle from its cells. -/
inductive DropWhy
  | conflict | unbound | idle
  deriving DecidableEq, Repr

/-- A dropped cell; `atLatch`: it would have begun to be served at its transmit latch (R164). -/
structure Drop where
  cell : CellRef
  why : DropWhy
  atLatch : Bool
  deriving DecidableEq, Repr

/-- A transmission from its latch, or an acknowledgement from the received frame's end, to its release (R104 to
R106). -/
structure TxRun where
  kind : AirKind
  cell : Option CellRef
  profile : Nat
  chan : Nat
  /-- transmit start t_s, device time -/
  ts : Nat
  /-- of an acknowledgement: whom it answers -/
  ackTo : Option AckTo := none
  /-- priority wire: acknowledgement, ADVERTISE or throw (R108) -/
  pri : Bool
  /-- df_node in synthesiser steps (R148) -/
  df : Int
  /-- f_set as loaded, in steps of 40 MHz / 2^24 (R101) -/
  word : Int := 0
  /-- the channel change is running or done, and its pairs so far (R104) -/
  chanDone : Bool := false
  pairs : Nat := 0
  requested : Bool := false
  granted : Bool := false
  step : Nat := 0
  started : Bool := false
  ended : Option Nat := none
  aborted : Bool := false
  retry : Bool := false
  level : Nat := 0
  /-- the return loss of its first 20 µs has been judged (R118) -/
  checked : Bool := false
  /-- smallest mask margin so far, 0.5 dB, blocks measured, and points breached in the latest of them (R151) -/
  margin : Nat := 0xFF
  blocks : Nat := 0
  breach : List Nat := []
  released : Nat := 0
  deriving DecidableEq, Repr

/-- A frame a demodulator is receiving (R141 to R145). -/
structure RxRun where
  ts : Nat
  rssi : Int
  snr : Int
  foff : Int
  profile : Nat
  chan : Nat
  /-- the coded SFD of the set was found (R131) -/
  coded : Bool := false
  /-- NCO offset of the fine stage with which it started, in µHz (R149) -/
  nco : Int := 0
  /-- PSDU length once the header is decoded -/
  len : Option Nat := none
  /-- octets corrected in the native header -/
  fixed : Nat := 0
  /-- frame-store octets reserved -/
  room : Nat := 0
  /-- slot the start was detected in (R82), and the receive-capable cells then served (R165) -/
  slot : Int
  cells : List CellRef := []
  /-- store was full: no descriptor is made -/
  dropped : Bool := false
  deriving DecidableEq, Repr

/-- A late collision a lost frame was part of (R173): the slot of the window, and timestamp, RSSI and node of both
frames, the late one first. -/
structure LateInfo where
  slot : Int
  frames : List (Nat × Int × Option Nat)
  deriving DecidableEq, Repr

/-- A receive descriptor with its payload (R144), with the cells of its slot for R165. -/
structure Descriptor where
  ts : Nat
  profile : Nat
  chan : Nat
  bind : Nat
  status : Nat
  rssi : Int
  snr : Int
  foff : Int
  corr : Nat
  payload : List Byte
  tsEnd : Nat
  slot : Int
  cells : List CellRef := []
  late : Option LateInfo := none
  /-- the tick whose drain carries the frame, where it ended before that strobe; none for one that ended later (R82) -/
  due : Option Int := none
  deriving DecidableEq, Repr

/-- A binding: enabled, profile, channel (R129). -/
structure Bind where
  en : Bool := false
  profile : Nat := 0
  chan : Nat := 0
  deriving DecidableEq, Repr

/-- What keeps a spindle out of service by command (R363 to R365). -/
inductive OutOfService
  | none | test | bypass
  deriving DecidableEq, Repr

/-- One spindle. -/
structure Spn where
  mode : SpnMode := .sleep
  /-- state transition under way: next state and when it is due (R96) -/
  trans : Option (SpnMode × Nat) := none
  resync : Bool := false
  /-- t1 of R22: the clock has returned to range -/
  resyncT1 : Option Nat := none
  fitted : Bool := false
  target : Nat := 0
  /-- effective target acted on (R341) -/
  eff : Nat := 0
  autocal : Bool := false
  tuneEn : Bool := false
  inhRetry : Bool := false
  cxEn : Bool := false
  cxAbort : Bool := false
  lnaForceByp : Bool := false
  calStart : Bool := false
  /-- CENTRE as last written, and as in effect -/
  window : Nat := 0
  windowEff : Nat := 0
  txMax : Nat := 0
  txLevel : Nat := 0
  pacfg : BitVec 6 := 0
  reqLead : Nat := 0
  cs : Nat := 0
  cp : Nat := 0
  calDt : Nat := 15
  hold : Option Hold := none
  /-- a pending hold: its thread and DURATION -/
  holdPend : Option (Nat × Nat) := none
  oos : OutOfService := .none
  /-- TEST or BYPASS awaiting the end of the cell in progress, with its thread -/
  oosPend : Option (OutOfService × Nat) := none
  /-- thread of the running self-test -/
  testTh : Option Nat := none
  /-- bypassed for R230 until it first serves cells after UNBYPASS (R365) -/
  pinBypass : Bool := false
  inhibit : Bool := false
  retryAt : Option Nat := none
  /-- the retry of R118 has fallen due: the next transmission is sent as the retry -/
  retryOpen : Bool := false
  grant : Bool := false
  /-- the wires of R107 and R108, as levels before polarity: PA enable, PA bias, T/R to transmit, LNA bypass, request,
  priority -/
  paEn : Bool := false
  paBias : Bool := false
  trsw : Bool := false
  lnaByp : Bool := true
  cxReq : Bool := false
  cxPri : Bool := false
  /-- calibration (R109 to R115) -/
  calPend : Bool := false
  blank : Bool := false
  blankFrom : Nat := 0
  calStep : Nat := 8
  calLast : Nat := 0
  calRepeats : Nat := 0
  calCause : Nat := 0
  calFail : BitVec 5 := 0
  failTxsyn : Bool := false
  calTemp : Int := 0
  calTempSet : Bool := false
  /-- kinds still to agree in the blank in progress, and pairs ended -/
  calOpen : List CalKind := []
  calPairs : Nat := 0
  calVals : List CalVal := []
  /-- new values of the blank in progress -/
  calNew : List (CalKind × CalMeas) := []
  /-- end of the blank that the steps of the latest correction follow (R115) -/
  calStepFrom : Nat := 0
  /-- the correction takes force at once (R115) -/
  calAtOnce : Bool := false
  moved : Bool := false
  /-- cells are lost until the blank ends: after a window move or a passage from SLEEP (R97, R99) -/
  calWait : Bool := false
  /-- a blank has ended in this slot: cells are lost until the next tick strobe (R111) -/
  calEnd : Bool := false
  /-- the blank in progress follows a window move -/
  blankMoved : Bool := false
  /-- the spindle served a cell in the slot before the blank -/
  servedBefore : Bool := false
  /-- the last good TXSYN calibration of each channel, as profile and number, since the passage to SYNTH (R104) -/
  chanGood : List ((Nat × Nat) × CalMeas) := []
  lastChan : Option (Nat × Nat) := none
  lostCal : Nat := 0
  lostHold : Nat := 0
  lostCx : Nat := 0
  lostInhibit : Nat := 0
  lostTxsyn : Nat := 0
  txAbort : Nat := 0
  /-- return loss of the latest transmissions, newest first, 0.1 dB (R116) -/
  rls : List Nat := []
  rlLast : Nat := 0xFFFF
  /-- tuner: next direction 0..3, change on trial with the sum of the eight before it, transmissions since, a revert
  due, a write of the codes that waits for receive idle (R117) -/
  tuneDir : Nat := 0
  tuneTrial : Option (Nat × Nat × Nat) := none
  tuneWait : Nat := 8
  tuneRevert : Option (Nat × Nat) := none
  tuneWrite : Option (Nat × Nat) := none
  tx : Option TxRun := none
  binds : KMap Bind := []
  bindsEff : KMap Bind := []
  /-- when the fine stage of a rebound binding has settled (R147) -/
  bindFrom : KMap Nat := []
  /-- binding changes that wait for the frame in progress on their demodulator (R129) -/
  bindDue : KMap Bind := []
  demods : KMap RxRun := []
  trimEn : Bool := true
  trim : Int := 0
  foffs : List Int := []
  maskLast : Nat := 0xFF
  masks : List Nat := []
  rxOk : Nat := 0
  rxHdr : Nat := 0
  rxRs : Nat := 0
  rxFcs : Nat := 0
  rxTrunc : Nat := 0
  rxColl : Nat := 0
  rxStore : Nat := 0
  rxLong : Nat := 0
  rxUnsup : Nat := 0
  /-- of the last 256 detected frames, newest first: true for HDR_FAIL, RS_FAIL, FCS_FAIL (R155) -/
  errs : List Bool := []
  /-- descriptors waiting in the frame store, oldest first (R145) -/
  store : List Descriptor := []
  /-- descriptors whose packets are crossing BB00 + n, oldest first (R144, R145) -/
  crossing : List Descriptor := []
  /-- device time of the first unflagged sample (R146, R147) -/
  validFrom : Nat := 0
  /-- start of preamble last heard, for receive idle (R117) -/
  lastPreamble : Option Nat := none
  /-- carrier correction in force, and the receive LO's word in steps of 40 MHz / 2^24 (R101) -/
  corr : Int := 0
  rxWord : Int := 0
  /-- last slot that the transmission placed last runs into (R163) -/
  txSpan : Int := -1
  /-- slot in which an expired hold ended after the slot had begun (R119) -/
  holdTail : Int := -1
  /-- the present slot: served receive cells (open spans among them), whether a transmit cell is served, that cell until
  its latch, and the drops still to be counted -/
  nowRx : List CellRef := []
  /-- receive cells of the present slot whose window started in a hold (R120) -/
  heldRx : List CellRef := []
  nowTx : Bool := false
  nowPlan : Option (CellRef × AirKind) := none
  nowDrops : List Drop := []
  /-- the transmit cell has no enabled binding (R163, rule 5); the slot was held when its preparation began (R120) -/
  nowUnbound : Bool := false
  nowHeld : Bool := false
  /-- the same, planned for slot `planSlot` -/
  planSlot : Int := -1
  planRx : List CellRef := []
  planTx : Option (CellRef × AirKind) := none
  planDrops : List Drop := []
  planUnbound : Bool := false
  planHeld : Bool := false
  deriving DecidableEq, Repr

/-- A waveform profile of the REGION record (R153). -/
structure Profile where
  wave : Nat
  opts : BitVec 8
  pre : Nat
  mask : Nat
  f0 : Nat
  spacing : Nat
  nchan : Nat
  ramp : Nat
  captureDb : Nat
  thresh : Nat
  coef : List Int
  deriving DecidableEq, Repr

/-- The REGION record's profiles and mask tables: points of offset in kHz and limit in 0.1 dBc (R153). -/
structure Region where
  profiles : List Profile := []
  masks : List (List (Int × Int)) := []
  deriving DecidableEq, Repr

/-! ## Warp (R156 to R187) -/

/-- The slotframe registers of one spindle and slotframe (R186). -/
structure SfReg where
  cfg : Word := 0
  new : Word := 0
  actHi : BitVec 8 := 0
  actLo : Word := 0
  armed : Bool := false
  /-- ACT_ASN as armed -/
  act : Nat := 0
  deriving DecidableEq, Repr

/-- A node record (R148, R169 to R174, R280, R282, R292). -/
structure Node where
  eui : BitVec 64
  handle : BitVec 32
  /-- home ply -/
  home : Nat
  /-- hop depth: addresses in the source route -/
  depth : Nat := 0
  /-- when the DAO path lapses; none = no path. This and the other durations of a node count up-time in ns, which a
  step does not move; a correction frame's instant is device time -/
  path : Option Nat := none
  band : Bool := false
  district : BitVec 16 := 0
  groups : List Nat := []
  /-- present by the master's word, with no path of its own on this side (R282) -/
  mirrored : Bool := false
  drift : Nat := 0
  drifter : Bool := false
  /-- class of the last frame: 0 INNER, 1 EDGE, 2 OUTSIDE -/
  cls : Nat := 0
  /-- node offset in 0.001 ppm and when it was last updated -/
  offset : Option (Int × Nat) := none
  fcIn : Nat := 0
  dsn : Nat := 0
  fcOut : Nat := 0
  /-- a pending correction frame: TC in µs and the instant it expires -/
  corr : Option (Int × Nat) := none
  hintAt : Option Nat := none
  dormantSince : Option Nat := none
  /-- unsynced on this side; on the master, COUNTERS are owed to the other side (R277) -/
  unsynced : Bool := false
  /-- context lost at this instant, awaiting a refetch or a rejoin (R361) -/
  lost : Option Nat := none
  /-- a visitor: served here, home elsewhere; next WHERE due -/
  visitor : Bool := false
  whereAt : Nat := 0
  /-- away: serving ply named by WHERE, and the instant of the latest WHERE -/
  away : Option (Nat × Nat) := none
  deriving DecidableEq, Repr

/-- Counters of R186 for one spindle. -/
structure WrpCnt where
  resync : Nat := 0
  conflict : Nat := 0
  unbound : Nat := 0
  edge : Nat := 0
  outside : Nat := 0
  late : Nat := 0
  nofit : Nat := 0
  corrDrop : Nat := 0
  deriving DecidableEq, Repr

/-- A received frame handed to the firmware: the spindle and the descriptor. -/
structure RxItem where
  spn : Fin 4
  d : Descriptor
  deriving DecidableEq, Repr

/-- What a DAO says (R169): route, lifetime in s, band, district, DAOSequence. -/
structure DaoPath where
  route : Nat
  lifetime : Nat
  band : Bool
  district : BitVec 16
  seq : BitVec 8
  deriving DecidableEq, Repr

/-- A join that waits for a VISIT_A since an instant (R292). -/
structure Visit where
  eui : BitVec 64
  path : DaoPath
  since : Nat
  deriving DecidableEq, Repr

/-- The warp. -/
structure Wrp where
  ebEn : Bool := true
  rplEn : Bool := true
  outsideAccept : Bool := false
  corrFrameEn : Bool := true
  txoff : Nat := 2120
  sel : Nat := 1100
  txAckDelay : Nat := 1000
  ackWait : Nat := 400
  cstg0 : Word := 0
  cstg1 : Word := 0
  ccStatus : Nat := 0
  ccSpn : Nat := 0
  ccCell : Nat := 0
  cells : Four (KMap (Word × Word)) := ⟨[], [], [], []⟩
  /-- the cells as they stood when the schedule computation in progress began (R161) -/
  live : Four (KMap (Word × Word)) := ⟨[], [], [], []⟩
  /-- keyed 8 × spindle + slotframe -/
  sfs : KMap SfReg := []
  /-- keyed 128 × table + entry; 0 where not listed -/
  hops : KMap Nat := []
  /-- HLEN; 1 where not listed -/
  hlens : KMap Nat := []
  nodes : KMap Node := []
  cnt : Four WrpCnt := ⟨{}, {}, {}, {}⟩
  /-- frames drained to the firmware and not yet processed, oldest first -/
  rxq : List RxItem := []
  /-- of the last 1,024 STATUS OK frames, newest first: true for EDGE or OUTSIDE (R187) -/
  edges : List Bool := []
  /-- Trickle: interval in ms, 0 before the first; device time at which it began; that of the next firing; the instants of the
  consistent DIOs heard since the last one (R169) -/
  trickleI : Nat := 0
  trickleFrom : Nat := 0
  trickleAt : Nat := 0
  trickleHeard : List Nat := []
  /-- spindles that still owe the DIO of the latest firing -/
  dioPend : Four Bool := ⟨false, false, false, false⟩
  /-- DSN and frame counter of broadcast frames (R277) -/
  bcastDsn : Nat := 0
  bcastFc : Nat := 0
  /-- nodes whose incoming frame counter has risen since the last batch (R280) -/
  fcNew : List Nat := []
  /-- shared cells still to be let pass before a retry, by node index, 131,072 for broadcast (R166, R277) -/
  backoff : KMap Nat := []
  /-- failures in shared cells since the last success, by the same key (R166) -/
  shFails : KMap Nat := []
  /-- joins waiting for a VISIT_A (R292) -/
  visits : List Visit := []
  deriving DecidableEq, Repr

/-! ## CCP and threads (R188 to R224) -/

/-- A policy entry (R210). -/
structure Policy where
  valid : Bool
  dev : Bool
  ply : Nat
  idmask : BitVec 16
  lo : Nat
  hi : Nat
  classes : BitVec 16
  deriving DecidableEq, Repr

/-- A CCP command's parameters (R216, R217, R218, R308, R328, R343, R363, R366). -/
inductive Cmd
  | regRead (addr count : Nat)
  | regWrite (pairs : List (Nat × Word))
  | praInfo (first count : Nat)
  | healthSummary
  | healthLog (count first : Nat)
  | threadQuery (th : Nat)
  | completeAck (ths : List Nat)
  | powerState (state wake : Nat)
  | spindleHold (spn dur : Nat)
  | spindleTest (spn op : Nat)
  | nodeReq (dport : BitVec 16) (noReply : Bool) (data : List Byte)
  | throwGroupSet (group : Nat) (add : Bool)
  | throw (group throwId launch : Nat) (action : List Byte)
  | objOpen (obj size : Nat) (digest : BitVec 384)
  | objWrite (obj offset : Nat) (data : List Byte)
  | objClose (obj : Nat)
  | objDelete (obj : Nat)
  | objSend (obj : Nat) (dport : BitVec 16) (blk : Nat)
  /-- the entry's 16 octets -/
  | policyWrite (index : Nat) (hard : Bool) (entry : List Byte)
  | policyRead (first count : Nat)
  | keyLoad (skein wrapSkein : Nat) (district : BitVec 16) (attr : Word) (gen : Nat) (wrapped : List Byte)
  | keyAttr (skein : Nat) (attr : Word)
  | keyErase (skein : Nat)
  | keyInfo (skein : Nat)
  | lifecycleSet (state : Nat)
  | reelStage
  | reelActivate (bank : Nat) (alone : Bool)
  | ownerLock (set : Bool)
  deriving DecidableEq, Repr

/-- A command of a hank: its header (R197) and parameters; none where they are malformed. -/
structure CmdMsg where
  opcode : Nat
  fence : BitVec 8
  tmo : Nat
  tag : Nat
  node : BitVec 32
  cmd : Option Cmd
  deriving DecidableEq, Repr

/-- State of a thread in use (R202). -/
inductive ThrState
  | fenced | ready | running | done
  deriving DecidableEq, Repr

/-- A thread in use (R202 to R205). -/
structure Thread where
  st : ThrState
  msg : CmdMsg
  cmd : Cmd
  ident : Nat
  hseq : Nat
  idx : Nat
  epoch : Nat
  adm : Nat
  admAt : Nat
  /-- up-time at which it times out; none for THROW -/
  tmoAt : Option Nat
  fence : List Nat := []
  /-- a member of the fence set ended with a status other than OK -/
  fenceFail : Bool := false
  started : Bool := false
  status : Status := .ok
  degraded : Bool := false
  result : List Byte := []
  tDone : Nat := 0
  /-- RETAIN at DONE, in s (R205, R222) -/
  retain : Nat := 0
  /-- up-time of DONE, from which RETAIN counts (R205) -/
  doneUp : Nat := 0
  sent : Bool := false
  /-- source of the hank -/
  src : BitVec 128
  sport : BitVec 16
  /-- pairs of a REG_WRITE still to be written and those written (R217) -/
  pairsLeft : List (Nat × Word) := []
  pairsDone : Nat := 0
  /-- hashes of the records of an OBJ_SEND that still await link acknowledgement (R218) -/
  owes : List Nat := []
  /-- relayed to the serving ply (R293) -/
  relayed : Bool := false
  /-- came through the loom: the ply that forwarded it (R293) -/
  via : Option Nat := none
  deriving DecidableEq, Repr

/-- A hank waiting for admission, with what has been admitted of it so far (R199, R220). -/
structure WaitHank where
  ident : Nat
  hseq : Nat
  src : BitVec 128
  sport : BitVec 16
  cmds : List CmdMsg
  next : Nat := 0
  entries : List (Nat × Nat) := []
  ths : List Nat := []
  via : Option Nat := none
  deriving DecidableEq, Repr

/-- An operator identity (R196). -/
structure Identity where
  skein : Nat
  notice : Bool
  addr : BitVec 128
  port : BitVec 16
  deriving DecidableEq, Repr

/-- The replay window and kept acknowledgements of an identity, and its packet count (R194, R195). -/
structure IdentRun where
  high : Option Nat := none
  seen : List Nat := []
  /-- newest first, at most 64: SEQ of the hank, status, epoch, entries -/
  acks : List (Nat × Nat × Nat × List (Nat × Nat)) := []
  sent : Nat := 0
  deriving DecidableEq, Repr

/-- A bulk object (R218); `data` is the octets written, 0x00 where not listed. -/
structure Obj where
  size : Nat
  digest : BitVec 384
  data : KMap Byte := []
  closed : Bool := false
  deriving DecidableEq, Repr

/-- The CCP engine and the thread table. -/
structure Ccp where
  boot : Word := 0
  epoch : Nat := 0
  idents : KMap Identity := []
  runs : KMap IdentRun := []
  waiting : List WaitHank := []
  /-- datagrams being reassembled: source, identification, first fragment's time (R188) -/
  reass : List (BitVec 128 × Nat × Nat) := []
  policy : KMap Policy := []
  lastPolicy : Option Nat := none
  threads : KMap Thread := []
  /-- DONE threads whose record is not yet sent, in order of DONE -/
  doneQ : List Nat := []
  nextAdm : Nat := 0
  hwm : Nat := 0
  busy : Nat := 0
  timeouts : Nat := 0
  revoked : Nat := 0
  rxOk : Nat := 0
  authFail : Nat := 0
  replay : Nat := 0
  overflow : Nat := 0
  format : Nat := 0
  objs : KMap Obj := []
  deriving DecidableEq, Repr

/-! ## Shuttle, queues, policers (R225 to R263) -/

/-- A table entry of the MAM or the hash level (R231, R232): prefix, length, result word, VALID, and which of the two parity bits
fails: that over the key, and that over the result and VALID. -/
structure TEntry where
  pre : BitVec 128 := 0
  len : Nat := 0
  result : Word := 0
  valid : Bool := false
  badKey : Bool := false
  badRes : Bool := false
  deriving DecidableEq, Repr

/-- One bank of tables (R234), an entry not listed being free and all zeros (log 119); a BH selection entry not listed names BH0 for even and BH1 for odd entries (R237);
listed: 0 BH0, 1 BH1, 2 bad parity. -/
structure Bank where
  mam : KMap TEntry := []
  hash : KMap TEntry := []
  bhsel : KMap Nat := []
  deriving DecidableEq, Repr

/-- A packet in an egress queue (R226, R242): the packet, its ingress port and step-1 class, the cells drawn from the
queue's minimum, the shared pool and headroom, and the node of a MESH result. -/
structure QPkt where
  p : Packet
  inPort : Port
  inClass : Nat
  minCells : Nat
  shared : Nat
  head : Nat
  node : Option Nat
  /-- the ingress frame has ended with a good FCS -/
  whole : Bool
  /-- the packet may start egress before its ingress frame ends (R228) -/
  cut : Bool := false
  deriving DecidableEq, Repr

/-- A packet whose ingress has not ended (R228): the port it is queued for, and its class. -/
structure Ingress where
  port : Port
  cls : Nat
  deriving DecidableEq, Repr

/-- The shuttle. -/
structure Sht where
  ecnEn : Bool := false
  missAct : Nat := 0
  /-- physical number of the active bank -/
  active : Bool := false
  bank : Bank := {}
  shadow : Bank := {}
  perrValid : Bool := false
  perrBank : Bool := false
  perrTable : Nat := 0
  perrIndex : Nat := 0
  /-- when SHT_PERR was latched, by the power die's count of time (R8) -/
  perrAt : Option Nat := none
  tcStatus : Nat := 0
  tcTable : Nat := 0
  tcBank : Bool := false
  tcIndex : Nat := 0
  stgPre : BitVec 128 := 0
  stgValid : Bool := false
  stgPerr : Bool := false
  stgLen : Nat := 0
  stgResult : Word := 0
  stgHit : Bool := false
  stgLevel : Nat := 0
  stgIndex : Nat := 0
  link0 : Bool := false
  link1 : Bool := false
  linkp : Bool := false
  /-- MTU of BH0, BH1, PLK; 1,500 where not listed -/
  mtu : KMap Nat := []
  ct : KMap (BitVec 16) := []
  /-- queue configuration keyed 16 × port + class: ECN_MARK, ALPHA, MIN; 0, 4, 64 where not listed -/
  qcfg : KMap (Nat × Nat × Nat) := []
  dscp : KMap Word := []
  /-- queues keyed 16 × port + class, oldest packet first -/
  queues : KMap (List QPkt) := []
  ingress : KMap Ingress := []
  /-- packets from CPU egress that wait for the firmware (R242) -/
  cpuWaiting : Nat := 0
  dropBuf : Nat := 0
  dropMiss : Nat := 0
  dropNonip : Nat := 0
  dropHop : Nat := 0
  dropMtu : Nat := 0
  dropNoport : Nat := 0
  dropNonode : Nat := 0
  ctStomp : Nat := 0
  ecnMarked : Nat := 0
  parity : Nat := 0
  deriving DecidableEq, Repr

/-- A token bucket (R244, R253): enabled, RATE, BURST, tokens in 10^-6 octet, and when they were last counted (log 120). -/
structure Bucket where
  en : Bool := false
  rate : Nat := 1250000
  burst : Nat := 65536
  tok : Int := 65536 * 1000000
  last : Nat := 0
  deriving DecidableEq, Repr

/-- A gate control list (R248). -/
structure GateList where
  en : Bool := false
  len : Nat := 1
  base : Nat := 0
  cycle : Nat := 1000000
  /-- GATES and INTERVAL; 0xFFFF and 1,000,000 where not listed -/
  entries : KMap (BitVec 16 × Nat) := []
  deriving DecidableEq, Repr

/-- The gates of one port (R249, R250, R261). -/
structure Gates where
  admin : GateList := {}
  oper : GateList := { len := 0 }
  pending : Bool := false
  cct : Nat := 0
  entry : Nat := 0
  opened : BitVec 16 := 0xFFFF
  deriving DecidableEq, Repr

/-- A generated MAC Control frame (R255, R257): PFC or PAUSE, and the time of each priority it names. -/
structure FcFrame where
  pfc : Bool
  times : KMap Nat
  deriving DecidableEq, Repr

/-- One egress port's service (R242, R246, R255 to R258, R261). -/
structure QPort where
  shaper : Bucket := {}
  ovh : Nat := 24
  fcMode : Nat := 0
  vtime : Nat := 0
  /-- queue shapers, weights and tags by class; defaults where not listed -/
  shapers : KMap Bucket := []
  weights : KMap Nat := []
  tags : KMap Nat := []
  /-- paused queues: class, end of the interval, and since when without a break -/
  pauses : KMap (Nat × Nat) := []
  /-- priorities in XOFF, with the instant the next refresh falls due; none while a frame for the priority waits -/
  xoff : KMap (Option Nat) := []
  /-- generated frames that wait for the end of the frame in progress, oldest first (R257) -/
  fcq : List FcFrame := []
  xoffMark : Nat := 1024
  xonMark : Nat := 512
  quantaTx : Nat := 0xFFFF
  refreshQ : Nat := 0x4000
  headroom : Nat := 0
  pfcEn : BitVec 8 := 0
  dropGate : Nat := 0
  pauseRx : Nat := 0
  pauseTx : Nat := 0
  fcIgnored : Nat := 0
  hdrmOvf : Nat := 0
  gates : Gates := {}
  /-- the frame in progress or last sent, its class, and when it ends -/
  sending : Option (Nat × QPkt) := none
  freeAt : Nat := 0
  deriving DecidableEq, Repr

/-- Queues, shapers, gates. -/
structure Que where
  p0 : QPort := {}
  p1 : QPort := {}
  p2 : QPort := {}
  p3 : QPort := { ovh := 0 }
  p4 : QPort := { ovh := 0 }
  /-- PRIMAP; floor(c / 2) where not listed -/
  primap : KMap Nat := []
  deriving DecidableEq, Repr

/-- Policers (R252 to R254, R262). -/
structure Crd where
  /-- keyed 16 × port + class: EN, SPREAD, BASE -/
  sel : KMap (Bool × Nat × Nat) := []
  pol : KMap Bucket := []
  drop : KMap Nat := []
  deriving DecidableEq, Repr

/-! ## Ply and loom (R264 to R297) -/

/-- Role of a side (R266). -/
inductive Role
  | hold | spare | paired | sender | silent | solo
  deriving DecidableEq, Repr

/-- One entry of the loom table (R291). -/
structure LoomEntry where
  ply : Nat
  side : Bool
  b : Beacon
  at_ : Nat
  deriving DecidableEq, Repr

/-- Ply-link or loom replay window of one sender BOOT (R269). -/
structure LinkReplay where
  side : Nat
  boot : Word
  high : Nat
  seen : List Nat
  deriving DecidableEq, Repr

/-- A record placed and awaiting acknowledgement (R157, R278): when its ack window ends, when this side's frame ended,
whether that frame was lost (R84, R112), whether the cell was a shared one, and whether either side has had the
acknowledgement. -/
structure Await where
  r : DownRec
  until_ : Int
  ended : Option Nat
  lost : Bool
  shared : Bool
  acked : Bool
  deriving DecidableEq, Repr

/-- The ply. -/
structure Ply where
  ply : Nat := 0
  side : Bool := false
  pathBEn : Bool := false
  partnered : Bool := false
  partnerEui : BitVec 64 := 0
  partnerMac : BitVec 48 := 0
  devAddr : BitVec 128 := 0
  meshPrefix : BitVec 64 := 0
  plySkein : Nat := 0
  loomSkein : Nat := 0
  loomGroup : BitVec 128 := 0
  role : Role := .hold
  prole : Option Role := none
  master : Bool := false
  pfail : Bool := false
  ready : Bool := false
  force : Nat := 0
  missA : Nat := 0
  missB : Nat := 0
  /-- a valid heartbeat arrived on each path since the last strobe -/
  heardA : Bool := false
  heardB : Bool := false
  /-- partner's last heartbeat -/
  last : Option Heartbeat := none
  lastTick : Bool := false
  /-- T1 of the partner's last heartbeat on PLK and when it arrived (R271, R273) -/
  echo : Option (Nat × Nat) := none
  /-- tick whose heartbeat has been sent or omitted -/
  hbTick : Option Int := none
  mepoch : Nat := 0
  pmepoch : Nat := 0
  /-- aligned (R273), ticks in or out of limits, and whether alignment is lost -/
  aligned : Bool := false
  good : Nat := 0
  bad : Nat := 0
  alignLost : Bool := false
  rate : Int := 0
  /-- the last 128 offsets, newest first: time and value -/
  offsets : List (Nat × Int) := []
  /-- ticks for which MDIGEST has differed -/
  diverge : Nat := 0
  /-- spindles that the partner reported as not serving before the schedule computation of this slot began, whose ack-side
  nodes this side acknowledges too, and the same for the next slot (R275) -/
  cover : BitVec 4 := 0
  coverNext : BitVec 4 := 0
  /-- the partner's PDIGEST has differed for this many slots, and the destinations placed in them -/
  pdiverge : Nat := 0
  pdests : List Nat := []
  pdigest : Word := 0
  /-- records placed in the slot computed last: node index, 131,072 for broadcast, and frame counter (R277) -/
  placed : List (Nat × Nat) := []
  /-- the first tick whose ply boundary an election, a pairing announced by the partner, or this side's own pairing may
  take effect at (R267, R274, R283) -/
  electAt : Option Int := none
  joinAt : Option Int := none
  /-- ticks both sides have been SPARE -/
  bothSpare : Nat := 0
  /-- tick at which READY was set -/
  readyTick : Option Int := none
  omitted : Nat := 0
  quiet : Bool := false
  /-- treadle: health beacon time, fault wire since which tick count (R285) -/
  beaconAt : Nat := 0
  faultTicks : Option Nat := none
  treadleLost : Bool := false
  seqOut : Nat := 0
  loomSeq : Nat := 0
  replays : List LinkReplay := []
  /-- assigned records, in order of share ASN and hash (R276) -/
  recs : List DownRec := []
  /-- records not yet assigned: known here, with the instant MERGE_WAIT ends for a command's record -/
  waiting : List (DownRec × Option Nat) := []
  /-- records placed and awaiting acknowledgement -/
  awaiting : List Await := []
  /-- acknowledgements received here and not yet told in a heartbeat: hash and end of the ack window (R271) -/
  ackSeen : List (Nat × Int) := []
  /-- the broadcast destination's mark, as `Node.unsynced` -/
  unsyncB : Bool := false
  loom : List LoomEntry := []
  loomNext : Nat := 0
  dlLate : Nat := 0
  divergeCnt : Nat := 0
  reject : Nat := 0
  relayCnt : Nat := 0
  /-- a SPARE has sent SNAP_REQ; its snapshot is complete (R283) -/
  snapping : Bool := false
  snapped : Bool := false
  /-- SNAP frames taken since SNAP_REQ -/
  snapParts : Nat := 0
  /-- NODE_REQs relayed here that await their node: ply, node, TAG, NOREPLY (R293) -/
  relays : List (Nat × Nat × Nat × Bool) := []
  deriving DecidableEq, Repr

/-! ## Distaff (R298 to R322) -/

/-- A half record of the key store (R304): it outlives every reset. -/
structure Half where
  skein : Nat
  gen : Nat
  attr : Word
  district : BitVec 16
  key : List Byte
  intact : Bool := true
  deriving DecidableEq, Repr

/-- A skein in working use (R299, R302, R321): its two shares. -/
structure Skein where
  attr : Word
  gen : Nat
  district : BitVec 16
  s0 : List Byte
  s1 : List Byte
  disabled : Bool := false
  deriving DecidableEq, Repr

/-- A cached derived key (R316), two shares. -/
structure Derived where
  skein : Nat
  eui : BitVec 64
  gen : Nat
  s0 : BitVec 128
  s1 : BitVec 128
  deriving DecidableEq, Repr

/-- The distaff. `halfA`, `halfB` and `root` are non-volatile. -/
structure Dst where
  halfA : KMap Half := []
  halfB : KMap Half := []
  /-- keys of skeins 0 and 1, installed at manufacture (R298) -/
  root : KMap (List Byte × List Byte) :=
    [(0, (List.replicate 32 0, List.replicate 32 0)), (1, (List.replicate 48 0, List.replicate 48 0))]
  skeins : KMap Skein := []
  /-- disabled skeins that hold no key -/
  dead : List Nat := []
  cache : List Derived := []
  rngOk : Bool := false
  rngPass : Nat := 0
  md : List (BitVec 384) := [0, 0, 0, 0, 0, 0, 0, 0]
  mdLocked : Bool := false
  derive_ : Nat := 0
  cacheMiss : Nat := 0
  attrRefuse : Nat := 0
  quoteDrop : Nat := 0
  /-- of the last 4,096 derivation requests, newest first: true for a miss (R322) -/
  misses : List Bool := []
  /-- up-time of the last KEY_REFUSED report per skein (R301) -/
  refusedAt : KMap Nat := []
  /-- instants of the quotes of the last second (R319) -/
  quotes : List Nat := []
  /-- quote requests waiting for START_HOLD: by CCP (address, port) or by the service port (SEQ) -/
  quoteWait : List (Option (BitVec 128 × BitVec 16) × BitVec 8 × BitVec 256) := []
  /-- time of the last re-mask -/
  remaskAt : Nat := 0
  deriving DecidableEq, Repr

/-! ## Images, recovery, service port (R323 to R339) -/

/-- A stage in progress (R329). -/
structure Stage where
  th : Nat
  bank : Nat
  reel : Reel
  done : Nat
  deriving DecidableEq, Repr

/-- An image transfer in ROM recovery mode (R336). -/
structure Transfer where
  size : Nat
  got : Nat
  reel : Option Reel
  deriving DecidableEq, Repr

/-- IMG block and service port. -/
structure Img where
  media : Bool := false
  blocks : Nat := 0
  last : Nat := 0
  running : Nat := 0
  /-- INFO and VERSION of each bank (R338) -/
  info0 : Word := 0
  info1 : Word := 0
  ver0 : Word := 0
  ver1 : Word := 0
  stage : Option Stage := none
  /-- admitted activations, in order of admission: thread, bank, ALONE -/
  act : List (Nat × Nat × Bool) := []
  /-- instant of the ACTIVATE reset -/
  actReset : Option Nat := none
  xfer : Option Transfer := none
  /-- instant of the RECOVERY reset -/
  recReset : Option Nat := none
  /-- baud rate, a rate to take after the response with the deadline of 2 s -/
  baud : Nat := 115200
  baudUntil : Option Nat := none
  /-- previous request's TYPE and SEQ, and its response -/
  prev : Option (Nat × BitVec 8 × Status × List Byte) := none
  deriving DecidableEq, Repr

/-! ## Bobbins and the clock monitor (R18 to R35) -/

/-- One bobbin (R24 to R33). Words not yet read, oldest first; `wrote` and `took` count words since reset, `sawW` and
`sawR` what the other side's synchronisers show of them; packet counts alike. Instants are the power die's count of
time. -/
structure Bobbin where
  words : List (BitVec 72) := []
  wrote : Nat := 0
  took : Nat := 0
  sawW : Nat := 0
  sawR : Nat := 0
  /-- instants at which the words were written that the read side does not see yet, oldest first (R25) -/
  newW : List Nat := []
  /-- instants at which the words were read whose places the write side does not see free yet, oldest first (R25) -/
  newR : List Nat := []
  /-- words that the writer holds in its own source while FULL is set, oldest first (R28) -/
  waiting : List (BitVec 72) := []
  /-- word counts at which the packets not yet read end -/
  ends : List Nat := []
  /-- AFULL_MARK as written; D × 3/4 where none -/
  mark : Option Nat := none
  flush : Bool := false
  /-- the writer is inside a packet -/
  inPkt : Bool := false
  /-- the rest of the packet being written is discarded -/
  discard : Bool := false
  /-- words of the packet being read, as delivered, oldest first (R30) -/
  taken : List (BitVec 72) := []
  par : Bool := false
  sideband : Bool := false
  overflow : Bool := false
  /-- when PAR, SIDEBAND and OVERFLOW were last set (R8) -/
  parAt : Option Nat := none
  sideAt : Option Nat := none
  overAt : Option Nat := none
  parCount : Nat := 0
  dropped : Nat := 0
  /-- poisoned packets that the consumer has dropped (R31) -/
  poisoned : Nat := 0
  hwm : Nat := 0
  deriving DecidableEq, Repr

/-- Bobbins and the clock monitor. -/
structure Bob where
  bobs : KMap Bobbin := []
  /-- out-of-range bits of BOB_CLKMON -/
  clk : BitVec 11 := 0
  /-- consecutive windows out of, or back in, range, by bit of BOB_CLKMON -/
  outRun : KMap Nat := []
  inRun : KMap Nat := []
  /-- spindles whose PLL has lost lock and not relocked -/
  unlocked : BitVec 4 := 0
  /-- when each PLL last relocked, and when the window in progress began (R22), by the power die's count of time -/
  relockAt : Four Nat := ⟨0, 0, 0, 0⟩
  windowFrom : Nat := 0
  deriving DecidableEq, Repr

/-! ## The machine -/

/-- The device: everything but the queue. -/
structure Dev where
  phase : Phase := .rails 0
  /-- uses of free values so far (the model's own field, log 5) -/
  free : Nat := 0
  /-- outputs of the latest command (the model's own field, log 2) -/
  out : List Output := []
  pwr : Pwr := {}
  glb : Glb := {}
  start : Start := {}
  pra : Pra := {}
  evt : Evt := {}
  whl : Whl := {}
  spn : Four Spn := ⟨{}, {}, {}, {}⟩
  region : Region := {}
  wrp : Wrp := {}
  ccp : Ccp := {}
  sht : Sht := {}
  que : Que := {}
  crd : Crd := {}
  ply : Ply := {}
  dst : Dst := {}
  img : Img := {}
  bob : Bob := {}
  deriving DecidableEq, Repr

/-- The state: the device and the commands that wait, first in, first out. -/
structure State where
  dev : Dev
  pending : List Instr
  deriving DecidableEq, Repr

/-- The machine at the release of RESET_N (R10), the logic rail being up: every field at its default, no command
waiting. -/
def State.reset : State := { dev := {}, pending := [] }

end Sys2Proof.Machine
end

