-- ==== Sys2Proof/Machine/Base.lean ====
section
/-! DEFINITION. Sparse tables in canonical form, register fields, octets most significant first (R6), signed fields,
and the CRC-32C of R45: the plain helpers the operations and meanings are written with. -/

namespace Sys2Proof.Machine

/-! ## Sparse tables -/

/-- The value at key `k`. -/
def kfind {α : Type} (m : KMap α) (k : Nat) : Option α :=
  match m with
  | [] => none
  | (j, v) :: r => if j = k then some v else kfind r k

/-- The value at key `k`, or `d` where the key is not listed. -/
def kgetD {α : Type} (m : KMap α) (k : Nat) (d : α) : α := (kfind m k).getD d

/-- Sets key `k`, keeping the keys rising. -/
def kput {α : Type} (m : KMap α) (k : Nat) (v : α) : KMap α :=
  match m with
  | [] => [(k, v)]
  | (j, w) :: r => if k < j then (k, v) :: (j, w) :: r else if j = k then (k, v) :: r else (j, w) :: kput r k v

/-- Removes key `k`. -/
def kdel {α : Type} (m : KMap α) (k : Nat) : KMap α := m.filter (fun p => p.1 != k)

/-- Sets key `k`, an entry equal to the default `d` being left out (the canonical form). -/
def ksetD {α : Type} [DecidableEq α] (m : KMap α) (k : Nat) (v d : α) : KMap α :=
  if v = d then kdel m k else kput m k v

/-- Changes the value at `k`, taken as `d` where it is not listed. -/
def kmod {α : Type} (m : KMap α) (k : Nat) (d : α) (f : α → α) : KMap α := kput m k (f (kgetD m k d))

/-- Changes the value at `k` where it is listed. -/
def kadj {α : Type} (m : KMap α) (k : Nat) (f : α → α) : KMap α :=
  match kfind m k with
  | some v => kput m k (f v)
  | none => m

/-- Maps every value. -/
def kmap {α : Type} (m : KMap α) (f : Nat → α → α) : KMap α := m.map (fun p => (p.1, f p.1 p.2))

/-- Every key is at least `lo` and keys strictly rise. -/
def ksortedFrom {α : Type} (lo : Nat) : KMap α → Bool
  | [] => true
  | (j, _) :: r => decide (lo ≤ j) && ksortedFrom (j + 1) r

/-- The canonical form of a sparse table: keys strictly rising. -/
def ksorted {α : Type} (m : KMap α) : Bool := ksortedFrom 0 m

/-! ## Fields of words -/

/-- Bits [hi:lo] of a register. -/
def fld (w : Word) (hi lo : Nat) : Nat := (w.toNat >>> lo) % 2 ^ (hi + 1 - lo)

/-- Bit `i` of a register. -/
def bit (w : Word) (i : Nat) : Bool := w.getLsbD i

/-- A flag as a number. -/
def b2n (b : Bool) : Nat := if b then 1 else 0

/-- A register built from fields: pairs of the low bit and the value. -/
def pack (l : List (Nat × Nat)) : Word := BitVec.ofNat 32 (l.foldl (fun a p => a + p.2 * 2 ^ p.1) 0)

/-- A number that sticks at `top`. -/
def sat (top n : Nat) : Nat := min top n

/-- One more, sticking at 0xFFFF_FFFF. -/
def inc32 (n : Nat) : Nat := sat 0xFFFFFFFF (n + 1)

/-- `k` more, sticking at 0xFFFF_FFFF. -/
def add32 (n k : Nat) : Nat := sat 0xFFFFFFFF (n + k)

/-- An integer in two's complement of `n` bits. -/
def toTwos (n : Nat) (i : Int) : Nat := (i % (2 ^ n : Nat)).toNat

/-- The integer a two's complement field of `n` bits holds. -/
def ofTwos (n : Nat) (v : Nat) : Int := if v < 2 ^ (n - 1) then (v : Int) else (v : Int) - (2 ^ n : Nat)

/-- An integer held within ±`m`. -/
def clampInt (m : Int) (i : Int) : Int := max (-m) (min m i)

/-! ## Octets -/

/-- `n` octets of a number, most significant first (R6). -/
def octets (n v : Nat) : List Byte :=
  match n with
  | 0 => []
  | k + 1 => BitVec.ofNat 8 (v >>> (8 * k)) :: octets k v

/-- The number that octets hold, most significant first (R6). -/
def natOf (l : List Byte) : Nat := l.foldl (fun a b => a * 256 + b.toNat) 0

/-- `n` octets at offset `off`. -/
def slice (l : List Byte) (off n : Nat) : List Byte := (l.drop off).take n

/-- The number in `n` octets at offset `off`. -/
def natAt (l : List Byte) (off n : Nat) : Nat := natOf (slice l off n)

/-- Octets padded with zeros or cut to `n`. -/
def fitTo (n : Nat) (l : List Byte) : List Byte := (l ++ List.replicate (n - l.length) 0).take n

/-- One bit step of the reflected CRC-32C. -/
def crcBit (c : BitVec 32) : BitVec 32 :=
  if c.getLsbD 0 then (c >>> 1) ^^^ 0x82F63B78 else c >>> 1

/-- One octet step of CRC-32C. -/
def crcOctet (c : BitVec 32) (b : Byte) : BitVec 32 :=
  let x := c ^^^ b.setWidth 32
  crcBit (crcBit (crcBit (crcBit (crcBit (crcBit (crcBit (crcBit x)))))))

/-- CRC-32C (R45): the Castagnoli polynomial, bits reflected, all ones before and after. -/
def crc32c (l : List Byte) : BitVec 32 := l.foldl crcOctet 0xFFFFFFFF ^^^ 0xFFFFFFFF

/-- Whether a list holds no value twice. -/
def noRepeats {α : Type} [DecidableEq α] : List α → Bool
  | [] => true
  | x :: r => !(r.contains x) && noRepeats r

end Sys2Proof.Machine
end

