-- ==== Sys2Proof/Machine/Flags.lean ====
section
/-! DEFINITION. The event flags (R13, R347 to R353): numbers, kinds and levels of the sources, the report of a pulse
source, the rise and fall of a watermark source, the log ring and EVT_N. -/

namespace Sys2Proof.Machine

/-! ## Sources -/

def evPowerChange : Nat := 0
def evThermalWarn : Nat := 1
def evThermalThrottle : Nat := 2
def evThermalTrip : Nat := 3
def evCfgReject : Nat := 4
def evCfgSkip : Nat := 5
def evStartHold : Nat := 6
def evInputTrip : Nat := 7
def evAddrUnmapped : Nat := 8
def evPwrfail : Nat := 9
def evRestart : Nat := 10
def evSelftestFail : Nat := 11
def evSpnTest : Nat := 12
def evNoticeLost : Nat := 13
def evBobParity : Nat := 16
def evBobSideband : Nat := 17
def evBobOverflow : Nat := 18
def evClkRange : Nat := 19
def evDieTempSpread : Nat := 20
def evRailRange : Nat := 21
def evSrcChange : Nat := 64
def evPtpLoss : Nat := 65
def evPpsLoss : Nat := 66
def evRef10mLoss : Nat := 67
def evHoldoverLimit : Nat := 68
def evTimeStep : Nat := 69
def evStepDeferred : Nat := 70
def evPeriodChange : Nat := 71
def evTickOverrun : Nat := 72
/-- A spindle source: offset `k` in the range of spindle `n` (R13). -/
def evSpn (n : Fin 4) (k : Nat) : Nat := 128 + 32 * n.val + k
def evDrifter : Nat := 256
def evLateCollide : Nat := 257
def evTcRange : Nat := 258
def evCellUnbound : Nat := 259
def evSfSwitch : Nat := 260
def evThrowPartial : Nat := 261
def evNodeTableFull : Nat := 262
def evEdgeHigh : Nat := 263
def evTableParity : Nat := 320
def evBufLow : Nat := 321
def evCtStomp : Nat := 322
def evBankSwap : Nat := 323
def evPortLink : Nat := 324
def evGateSwitch : Nat := 325
def evGateOversize : Nat := 326
def evPoliceDrop : Nat := 327
def evPauseLong : Nat := 328
def evXoffTx : Nat := 329
def evHeadroomOvf : Nat := 330
def evFcIgnored : Nat := 331
def evHankAuthFail : Nat := 384
def evHankReplay : Nat := 385
def evHankOverflow : Nat := 386
def evHankStaleBoot : Nat := 387
def evThreadsHigh : Nat := 388
def evPolicyChange : Nat := 389
def evRevoke : Nat := 390
def evObjSpaceLow : Nat := 391
def evPartnerFailed : Nat := 416
def evPathLoss : Nat := 417
def evRoleChange : Nat := 418
def evAlignLoss : Nat := 419
def evMirrorDiverge : Nat := 420
def evDestUnsync : Nat := 421
def evPartnerFault : Nat := 422
def evTreadleLost : Nat := 423
def evSplit : Nat := 424
def evNodeStaleGen : Nat := 425
def evPlyConflict : Nat := 426
def evLoomMismatch : Nat := 427
def evLoomJoin : Nat := 428
def evVisitor : Nat := 429
def evPlinkAuth : Nat := 430
def evKeyCommit : Nat := 448
def evKeyHalfDiscard : Nat := 449
def evSkeinDisabled : Nat := 450
def evKeyRefused : Nat := 451
def evRngFail : Nat := 452
def evLifecycleChange : Nat := 453
def evKeyCfgSkip : Nat := 454
def evQuoteLimit : Nat := 455
def evCacheHigh : Nat := 456
def evKeyVerifyFail : Nat := 457
def evPraNoToken : Nat := 480
def evPraTokensLow : Nat := 481
def evSettingsReset : Nat := 482
def evPraWriteFault : Nat := 483
def evLifecycleInvalid : Nat := 484
def evReelStaged : Nat := 485
def evReelStageFail : Nat := 486
def evReelActivate : Nat := 487
def evReelCommit : Nat := 488
def evBankFallback : Nat := 489
def evBankCheckFail : Nat := 490
def evRecoveryDone : Nat := 491
def evOwnerLock : Nat := 492
def evScrubUncorr : Nat := 493
def evScrubFree : Nat := 494
def evMemRetire : Nat := 495
def evNodeLost : Nat := 496
def evScrubCorrHigh : Nat := 497
def evSparesLow : Nat := 498

/-- Reserved sources (R92, R125, R155, R187, R224, R263, R297, R322, R374). -/
def evReserved (e : Nat) : Bool :=
  e == 14 || e == 15 || (22 ≤ e && e ≤ 63) || (73 ≤ e && e ≤ 127)
  || (128 ≤ e && e ≤ 255 &&
      ((11 ≤ (e - 128) % 32 && (e - 128) % 32 ≤ 15) || (22 ≤ (e - 128) % 32 && (e - 128) % 32 ≤ 29)
        || (e - 128) % 32 == 31))
  || (264 ≤ e && e ≤ 319) || (332 ≤ e && e ≤ 383) || (392 ≤ e && e ≤ 415) || (431 ≤ e && e ≤ 447)
  || (458 ≤ e && e ≤ 479) || (499 ≤ e && e ≤ 511)

/-- Watermark sources (R347; each chapter's list of events). -/
def evWatermark (e : Nat) : Bool :=
  [1, 2, 3, 9, 19, 20, 21, 68, 263, 321, 328, 329, 388, 391, 417, 419, 456, 481, 497, 498].contains e
  || (128 ≤ e && e ≤ 255 && [3, 17, 18, 19, 30].contains ((e - 128) % 32))

/-- Level of a source (R2, R13, R187, R224, R297). -/
def evLevel (e : Nat) : Nat :=
  if 128 ≤ e && e ≤ 255 then 3
  else if e == 257 || e == 259 then 1
  else if e == 260 then 2
  else if e == 389 || e == 390 || (416 ≤ e && e ≤ 422) || e == 424 then 5
  else if 426 ≤ e && e ≤ 429 then 6
  else 4

/-- Spindle number of a spindle source, 0xFF otherwise (R351). -/
def evSpindle (e : Nat) : Nat := if 128 ≤ e && e ≤ 255 then (e - 128) / 32 else 0xFF

/-! ## The slot number -/

/-- P in ns (R79, R90). -/
def Whl.periodNs (w : Whl) : Nat := w.period * 10000

/-- Slot that contains device time `t` (R79), negative before E. -/
def Whl.slotAt (w : Whl) (t : Nat) : Int := ((t : Int) - (w.epoch : Int)) / (w.periodNs : Int)

/-- Slot that contains the present device time. -/
def Whl.slot (w : Whl) : Int := w.slotAt w.time

/-- The ASN at device time `t` (R79). -/
def Whl.asnAt (w : Whl) (t : Nat) : Nat := (w.slotAt t % (2 ^ 40 : Nat)).toNat

/-- The ASN now. -/
def Whl.asn (w : Whl) : Nat := w.asnAt w.time

/-- slot_pos at device time `t`, in ns (R79). -/
def Whl.slotPosAt (w : Whl) (t : Nat) : Nat := (((t : Int) - (w.epoch : Int)) % (w.periodNs : Int)).toNat

/-- An ASN exists once T has reached E (R79). -/
def Whl.hasAsn (w : Whl) : Bool := decide (w.epoch ≤ w.time)

/-! ## Sources' registers and the log -/

/-- State of source `e`. -/
def Evt.src (v : Evt) (e : Nat) : SrcSt := kgetD v.srcs e {}

/-- Changes source `e`. -/
def Evt.modSrc (v : Evt) (e : Nat) (f : SrcSt → SrcSt) : Evt := { v with srcs := ksetD v.srcs e (f (v.src e)) {} }

/-- STICKY of source `e`. -/
def Evt.sticky (v : Evt) (e : Nat) : Bool := (v.src e).sticky

/-- LIVE of source `e`: the OR of its instances (R349). -/
def Evt.live (v : Evt) (e : Nat) : Bool := !(v.src e).live.isEmpty

/-- Instance `i` of source `e` is live. -/
def Evt.liveAt (v : Evt) (e i : Nat) : Bool := (v.src e).live.contains i

/-- Sources with STICKY = 1. -/
def Evt.stickyN (v : Evt) : Nat := (v.srcs.filter (fun p => p.2.sticky)).length

/-- Sources with LIVE = 1. -/
def Evt.liveN (v : Evt) : Nat := (v.srcs.filter (fun p => !p.2.live.isEmpty)).length

/-- EVT_N is driven low (R353). -/
def Evt.evtn (v : Evt) : Bool := v.srcs.any (fun p => p.2.sticky && p.2.evtnEn)

/-- A new entry at the head of the ring of 4,096 (R350). -/
def Evt.push (v : Evt) (l : LogEntry) : Evt :=
  { v with log := ({ l with index := v.head } :: v.log).take 4096, head := v.head + 1 }

/-- An entry with the values of R351. -/
def logEntry (time : Nat) (e : Nat) (deferred : Bool) (kind count : Nat) (slot : Int) (payload : List Byte) : LogEntry :=
  { index := 0, time := time, src := e, deferred := deferred, kind := kind, count := count, reps := 0,
    level := evLevel e, spn := evSpindle e, payload := fitTo 12 payload, slot := slot }

/-- A report of pulse source `e` merges into the entry of the same source and slot (R350). -/
def mergeReport (e : Nat) (slot : Int) : List LogEntry → Option (List LogEntry)
  | [] => none
  | l :: r =>
    if l.src = e ∧ l.kind = 1 ∧ l.deferred = false ∧ l.slot = slot then
      some ({ l with reps := sat 65535 (l.reps + 1) } :: r)
    else (mergeReport e slot r).map (fun r' => l :: r')

/-- The control die is out of reset. -/
def Phase.ctrlRuns : Phase → Bool
  | .unpowered | .off | .rails _ | .railFailed | .inReset => false
  | .romBooted | .sfdpDone | .loaderDone | .dramDone | .bankLoaded | .fwStarted | .imageChecked | .applied | .up
  | .recovery => true

/-- The ROM or the loader is in charge, so that events are deferred (R354). -/
def Phase.deferring : Phase → Bool
  | .romBooted | .sfdpDone | .loaderDone | .dramDone | .bankLoaded | .recovery => true
  | .unpowered | .off | .rails _ | .railFailed | .inReset | .fwStarted | .imageChecked | .applied | .up => false

/-- The firmware runs. -/
def Phase.fwRuns : Phase → Bool
  | .fwStarted | .imageChecked | .applied | .up => true
  | .unpowered | .off | .rails _ | .railFailed | .inReset | .romBooted | .sfdpDone | .loaderDone | .dramDone
  | .bankLoaded | .recovery => false

/-- Logs a pulse report now: STICKY is set, and the entry is made or merged (R347, R350). -/
def reportNow (d : Dev) (e : Nat) (payload : List Byte) : Dev :=
  let v := d.evt.modSrc e (fun s => { s with sticky := true, setAt := some d.pwr.wall })
  let slot := d.whl.slot
  match mergeReport e slot v.log with
  | some l => { d with evt := { v with log := l } }
  | none => { d with evt := v.push (logEntry d.whl.time e false 1 0 slot payload) }

/-- Report of pulse source `e` (R4, R347): deferred while the ROM or the loader runs (R354); nothing is reported
while the control die is in reset. -/
def report (d : Dev) (e : Nat) (payload : List Byte) : Dev :=
  if d.phase.deferring then { d with start := { d.start with deferred := d.start.deferred ++ [(e, payload)] } }
  else if d.phase.ctrlRuns then reportNow d e payload
  else d

/-- A deferred entry, logged at START_HOLD with DEFERRED set and TIME 0 (R354). -/
def reportDeferred (d : Dev) (e : Nat) (payload : List Byte) : Dev :=
  let v := d.evt.modSrc e (fun s => { s with sticky := true, setAt := some d.pwr.wall })
  { d with evt := v.push (logEntry 0 e true 1 0 d.whl.slot payload) }

/-- Instance `i` of watermark source `e` rises (R348, R349). -/
def rise (d : Dev) (e i : Nat) (payload : List Byte) : Dev :=
  let v := d.evt.modSrc e
    (fun s => { s with live := i :: s.live, count := sat 255 (s.count + 1), sticky := true, setAt := some d.pwr.wall,
                       dwell := kdel s.dwell i })
  { d with evt := v.push (logEntry d.whl.time e false 2 (v.src e).count d.whl.slot payload) }

/-- Instance `i` of watermark source `e` falls (R348). -/
def fall (d : Dev) (e i : Nat) (payload : List Byte) : Dev :=
  let v := d.evt.modSrc e (fun s => { s with live := s.live.filter (· != i), dwell := kdel s.dwell i })
  { d with evt := v.push (logEntry d.whl.time e false 3 (v.src e).count d.whl.slot payload) }

/-- An evaluation of instance `i` of watermark source `e` without dwell (R348). -/
def watch (d : Dev) (e i : Nat) (set clear : Bool) (payload : List Byte) : Dev :=
  if d.phase.fwRuns then
    if d.evt.liveAt e i then (if clear then fall d e i payload else d)
    else (if set then rise d e i payload else d)
  else d

/-- An evaluation of a source of one instance whose clear condition is the negation of its set condition. -/
def watchIf (d : Dev) (e : Nat) (on : Bool) : Dev := watch d e 0 on (!on) []

/-- An evaluation at instant `now` of instance `i` with a dwell (R348): the condition to change must have held at
every evaluation for the dwell, and an evaluation that fails it restarts the dwell. -/
def watchDwell (d : Dev) (e i : Nat) (set clear : Bool) (dwellSet dwellClear now : Nat) (payload : List Byte) : Dev :=
  if d.phase.fwRuns then
    let live := d.evt.liveAt e i
    let want := if live then clear else set
    let need := if live then dwellClear else dwellSet
    if want then
      let since := kgetD (d.evt.src e).dwell i now
      if since + need ≤ now then (if live then fall d e i payload else rise d e i payload)
      else { d with evt := d.evt.modSrc e (fun s => { s with dwell := kput s.dwell i since }) }
    else { d with evt := d.evt.modSrc e (fun s => { s with dwell := kdel s.dwell i }) }
  else d

/-- A write of 1 to STICKY of source `e` at instant `now`: STICKY and COUNT are cleared (R347); where the hardware set STICKY
in this very instant it ends at 1, and so does the COUNT of a watermark source (R8, R369). -/
def Evt.clearSticky (v : Evt) (now e : Nat) : Evt :=
  v.modSrc e (fun s =>
    let again := s.sticky && s.setAt == some now
    { s with sticky := again, count := b2n (again && decide (0 < s.count)) })

end Sys2Proof.Machine
end

