-- ==== Sys2Proof/Machine/Ops.lean ====
section
/-! DEFINITION. The shared operations: running a meaning after its `dt` of time, outputs, free values, the persistent
register array (R51 to R58), and the resets. -/

namespace Sys2Proof.Machine

/-! ## Time, outputs, free values -/

/-- `ns` of time pass: the power die counts always, device time (R64) and up-time (R371) while the control die runs. -/
def Dev.pass (d : Dev) (ns : Nat) : Dev :=
  let d := { d with pwr := { d.pwr with wall := d.pwr.wall + ns } }
  if d.phase.ctrlRuns then
    { d with whl := { d.whl with time := d.whl.time + ns }, glb := { d.glb with upNs := d.glb.upNs + ns } }
  else d

/-- The start of a command: `dt` passes, and the outputs of the command before are gone (log 2). -/
def Dev.elapse (d : Dev) (dt : Nat) : Dev := { d.pass dt with out := [] }

/-- A meaning: `dt` passes, then the device changes; the queue is untouched. -/
def run (dt : Nat) (f : Dev → Dev) (s : State) : Host.Outcome State Fault Refusal :=
  .next { s with dev := f (s.dev.elapse dt) }

/-- The device sends or answers. -/
def Dev.emit (d : Dev) (o : Output) : Dev := { d with out := d.out ++ [o] }

/-- A register write (R1, R4): registers are reached only while the firmware runs, and the status goes to the sender. -/
def regRow (f : Dev → Dev × Status) (d : Dev) : Dev :=
  if d.phase.fwRuns then (match f d with | (d, st) => d.emit (.status st)) else d

/-- The next free value and the device after its use (log 5). -/
def Dev.draw (d : Dev) : BitVec 256 × Dev := (Config.freeBits d.free, { d with free := d.free + 1 })

/-- Device time as the radio copy shows it (R64): loaded at a strobe, and within 10 ns of the master counter until the next;
free before the first load (log 102). -/
def Dev.radioNow (d : Dev) : Nat :=
  let free := Config.radioCopy d.free d.whl.time
  match d.whl.radio with
  | some t => if t = d.whl.time then t else ((d.whl.time : Int) + clampInt 10 free).toNat
  | none => free.toNat

/-- Changes spindle `n`. -/
def Dev.modSpn (d : Dev) (n : Fin 4) (f : Spn → Spn) : Dev := { d with spn := d.spn.set n (f (d.spn.get n)) }

/-- Changes the whorl. -/
def Dev.modWhl (d : Dev) (f : Whl → Whl) : Dev := { d with whl := f d.whl }

/-- Changes the warp. -/
def Dev.modWrp (d : Dev) (f : Wrp → Wrp) : Dev := { d with wrp := f d.wrp }

/-- Changes the CCP engine and thread table. -/
def Dev.modCcp (d : Dev) (f : Ccp → Ccp) : Dev := { d with ccp := f d.ccp }

/-- Changes the ply. -/
def Dev.modPly (d : Dev) (f : Ply → Ply) : Dev := { d with ply := f d.ply }

/-- Changes the shuttle. -/
def Dev.modSht (d : Dev) (f : Sht → Sht) : Dev := { d with sht := f d.sht }

/-- The firmware takes one of the packets that wait for it (R242; log 118). -/
def takeCpu (d : Dev) : Dev := d.modSht (fun s => { s with cpuWaiting := s.cpuWaiting - 1 })

/-- A meaning on a packet that came to the firmware by the CPU port. -/
def runCpu (dt : Nat) (f : Dev → Dev) (s : State) : Host.Outcome State Fault Refusal := run dt (fun d => f (takeCpu d)) s

/-- Changes the distaff. -/
def Dev.modDst (d : Dev) (f : Dst → Dst) : Dev := { d with dst := f d.dst }

/-- Changes global control. -/
def Dev.modGlb (d : Dev) (f : Glb → Glb) : Dev := { d with glb := f d.glb }

/-- Changes the power die. -/
def Dev.modPwr (d : Dev) (f : Pwr → Pwr) : Dev := { d with pwr := f d.pwr }

/-- Changes the image block. -/
def Dev.modImg (d : Dev) (f : Img → Img) : Dev := { d with img := f d.img }

/-- Changes the array. -/
def Dev.modPra (d : Dev) (f : Pra → Pra) : Dev := { d with pra := f d.pra }

/-- Folds an action over a list of things. -/
def each {α : Type} (l : List α) (f : Dev → α → Dev) (d : Dev) : Dev := l.foldl f d

/-- The four spindles. -/
def spindles : List (Fin 4) := [0, 1, 2, 3]

/-- The spindle numbered `n`, where there is one. -/
def spindle? (n : Nat) : Option (Fin 4) := if h : n < 4 then some ⟨n, h⟩ else none

/-! ## The persistent register array -/

/-- The value of persistent word `n`. -/
def Pra.word (p : Pra) (n : Nat) : Word := kgetD p.words n 0

/-- Completed writes of word `n` (R59). -/
def Pra.wearOf (p : Pra) (n : Nat) : Nat := kgetD p.wear n 0

/-- The bucket of word `n`, 0 to 4,096 (R54). -/
def Pra.tokens (p : Pra) (n : Nat) : Nat := 4096 - kgetD p.spent n 0

/-- Some bucket is below 256 (R57). -/
def Pra.low (p : Pra) : Bool := p.spent.any (fun q => decide (3840 < q.2))

/-- The token of word `n` is taken and its wear counted (R51, R53). -/
def Pra.charge (p : Pra) (n : Nat) : Pra :=
  { p with wear := ksetD p.wear n (inc32 (p.wearOf n)) 0, spent := kput p.spent n (min 4096 (kgetD p.spent n 0 + 1)) }

/-- Word `n` takes a value, with the charge, in one step (R51). -/
def Pra.commit (p : Pra) (n : Nat) (v : Word) : Pra := { p.charge n with words := ksetD p.words n v 0 }

/-- Refill instants that have come by up-time `up` and are not yet taken (R54). -/
def Pra.refillsDue (p : Pra) (up : Nat) : Nat :=
  if p.refillAt ≤ up then (up - p.refillAt) / 8000000000 + 1 else 0

/-- `k` refills: at each, one token for every bucket that is not full (R54). -/
def Pra.refill (p : Pra) (k : Nat) : Pra :=
  { p with spent := (p.spent.map (fun q => (q.1, q.2 - k))).filter (fun q => q.2 != 0),
           refillAt := p.refillAt + k * 8000000000 }

/-- PRA_TOKENS_LOW follows the buckets (R57). -/
def praLow (d : Dev) : Dev := watchIf d evPraTokensLow d.pra.low

/-- The refills that have fallen due are taken before anything else (R54). -/
def praDue (d : Dev) : Dev :=
  let k := d.pra.refillsDue d.glb.upNs
  if k = 0 then d else praLow (d.modPra (·.refill k))

/-- A write that finds its bucket empty (R54). -/
def praRefuse (d : Dev) (n : Nat) : Dev := report d evPraNoToken (octets 2 n)

/-- The end of a write of word `n` that found a token: the verify decides (R51, R53). -/
def praFinish (d : Dev) (n : Nat) (v : Word) (verifyOk : Bool) : Dev × Status :=
  if verifyOk then (praLow (d.modPra (·.commit n v)), .ok)
  else (praLow (report (d.modPra (·.charge n)) evPraWriteFault (octets 2 n)), .writeFault)

/-- No write is in progress and none waits: a write that reaches the array now begins now (R51). -/
def Pra.idle (p : Pra) : Bool := p.busy.isNone && p.queue.isEmpty

/-- One of the device's own writes, made whole within a step (R56). -/
def praOwn (d : Dev) (n : Nat) (v : Word) (verifyOk : Bool) : Dev × Status :=
  let d := praDue d
  if d.pra.tokens n = 0 then (praRefuse d n, .noToken) else praFinish d n v verifyOk

/-- A write by the ROM or by the firmware during start: on an empty bucket it waits for the next refill (R56). -/
def praWait (d : Dev) (n : Nat) (v : Word) (verifyOk : Bool) : Dev × Status :=
  let d := praDue d
  let d := if d.pra.tokens n = 0 then praDue (d.pass (d.pra.refillAt - d.glb.upNs)) else d
  praFinish d n v verifyOk

/-- Such writes in order, those of the words in `faults` failing their verify (R53). -/
def praWaits (faults : List Nat) (l : List (Nat × Word)) (d : Dev) : Dev :=
  each l (fun d p => (praWait d p.1 p.2 (!faults.contains p.1)).1) d

/-- A write that the firmware skips when the bucket is empty (R55, R56, R91, R123): it reads the level first, and issues
no write where it finds no token. A write that is issued while others are in progress follows them (R51, R58). -/
def praSkip (d : Dev) (n : Nat) (v : Word) (verifyOk : Bool) : Dev :=
  let d := praDue d
  if d.pra.tokens n = 0 then d
  else if d.pra.idle then (praFinish d n v verifyOk).1
  else d.modPra (fun p => { p with queue := p.queue ++ [{ word := n, value := v, writer := .firmware }] })

/-- The buckets as the ROM sets them at each start (R55). -/
def Pra.initBuckets (p : Pra) : Pra :=
  let allowance := 4096 + (p.word 5).toNat / 8
  { p with spent := (p.wear.map (fun q => (q.1, 4096 - min 4096 (allowance - q.2)))).filter (fun q => q.2 != 0) }

/-- Life-cycle states (R60); any other value is RETURNED. -/
def Pra.lifecycle (p : Pra) : Nat :=
  let s := fld (p.word 1) 3 0
  if 1 ≤ s ∧ s ≤ 4 then s else 4

/-- RWL fields may change by register writes (R8). -/
def Dev.rwlOpen (d : Dev) : Bool := d.pra.lifecycle == 1 || d.pra.lifecycle == 2

/-! ## Resets -/

/-- What every reset leaves: persistent words and their wear, the key store's halves and roots, what is as built; all
else is as after release of RESET_N. -/
def Dev.fresh (d : Dev) (ph : Phase) (pwr : Pwr) : Dev :=
  { phase := ph, free := d.free, out := d.out, pwr := pwr,
    glb := { ctrlStep := d.glb.ctrlStep, radioStep := d.glb.radioStep, powerStep := d.glb.powerStep, eui := d.glb.eui },
    pra := { words := d.pra.words, wear := d.pra.wear },
    dst := { halfA := d.dst.halfA, halfB := d.dst.halfB, root := d.dst.root } }

/-- The power die after a reset of the control die or a change of the rails: measurements and the record of R346
stay, what the control die had asked for does not. -/
def Pwr.settle (p : Pwr) : Pwr :=
  { p with treadleLapse := false, lowSince := none, tripDone := false, offDue := none, holdupV1 := none,
           holdupDue := none, holdupPassed := false }

/-- The control die is reset with the rails up, for a cause of R346. -/
def controlReset (d : Dev) (cause : Nat) : Dev := d.fresh .inReset { d.pwr.settle with cause := cause, rail := 0 }

/-- All rails but the 3.30 V logic rail go off. -/
def railsOff (d : Dev) (ph : Phase) : Dev := d.fresh ph { d.pwr.settle with vsd33 := false }

end Sys2Proof.Machine
end

