-- ==== Sys2Proof/Machine/Operands.lean ====
section
/-! DEFINITION. The forms operands take: the blocks of the address map (R11, R12), and the fields of the settings
words with their defaults (R61, R91, R123, R185, R222, R238, R260, R295, R370). -/

namespace Sys2Proof.Machine

/-! ## The address map -/

/-- The blocks of R11. -/
inductive Block
  | glb | whl | spn (n : Fin 4) | wrp | sht | que | crd | thr | ccp | ply | dst | pra | evt | pwr | img | bob
  deriving DecidableEq, Repr

/-- The block whose window holds byte address `a`, and the offset of `a` in the window (R11); none outside every
window, or where `a` is no multiple of 4. -/
def block? (a : Nat) : Option (Block × Nat) :=
  if a % 4 ≠ 0 then none
  else if a ≤ 0xFFFF then some (.glb, a)
  else if a ≤ 0x1FFFF then some (.whl, a - 0x10000)
  else if 0x100000 ≤ a ∧ a ≤ 0x10FFFF then some (.spn 0, a - 0x100000)
  else if 0x110000 ≤ a ∧ a ≤ 0x11FFFF then some (.spn 1, a - 0x110000)
  else if 0x120000 ≤ a ∧ a ≤ 0x12FFFF then some (.spn 2, a - 0x120000)
  else if 0x130000 ≤ a ∧ a ≤ 0x13FFFF then some (.spn 3, a - 0x130000)
  else if 0x180000 ≤ a ∧ a ≤ 0x1FFFFF then some (.wrp, a - 0x180000)
  else if 0x200000 ≤ a ∧ a ≤ 0x2FFFFF then some (.sht, a - 0x200000)
  else if 0x300000 ≤ a ∧ a ≤ 0x33FFFF then some (.que, a - 0x300000)
  else if 0x340000 ≤ a ∧ a ≤ 0x34FFFF then some (.crd, a - 0x340000)
  else if 0x400000 ≤ a ∧ a ≤ 0x43FFFF then some (.thr, a - 0x400000)
  else if 0x440000 ≤ a ∧ a ≤ 0x44FFFF then some (.ccp, a - 0x440000)
  else if 0x500000 ≤ a ∧ a ≤ 0x50FFFF then some (.ply, a - 0x500000)
  else if 0x600000 ≤ a ∧ a ≤ 0x60FFFF then some (.dst, a - 0x600000)
  else if 0x700000 ≤ a ∧ a ≤ 0x707FFF then some (.pra, a - 0x700000)
  else if 0x800000 ≤ a ∧ a ≤ 0x80FFFF then some (.evt, a - 0x800000)
  else if 0x900000 ≤ a ∧ a ≤ 0x90FFFF then some (.pwr, a - 0x900000)
  else if 0xA00000 ≤ a ∧ a ≤ 0xA0FFFF then some (.img, a - 0xA00000)
  else if 0xB00000 ≤ a ∧ a ≤ 0xB0FFFF then some (.bob, a - 0xB00000)
  else none

/-- Index of a register in an array of `count` registers `stride` octets apart from offset `base`. -/
def index? (off base stride count : Nat) : Option Nat :=
  if base ≤ off ∧ (off - base) % stride = 0 ∧ (off - base) / stride < count then some ((off - base) / stride) else none

/-! ## Slotframes and cells (R159, R161, R186) -/

/-- EN, HOP and LEN of a slotframe's configuration word (R186). -/
def sfEn (w : Word) : Bool := bit w 31
def sfHop (w : Word) : Nat := fld w 26 24
def sfLen (w : Word) : Nat := fld w 15 0

/-- The slotframe registers of spindle `n`, slotframe `h`. -/
def Wrp.sf (w : Wrp) (n : Fin 4) (h : Nat) : SfReg := kgetD w.sfs (8 * n.val + h) {}

/-- The configuration of a slotframe in force for ASN `asn` (R161). -/
def Wrp.sfAt (w : Wrp) (n : Fin 4) (h asn : Nat) : Word :=
  let r := w.sf n h
  if r.armed ∧ r.act ≤ asn then r.new else r.cfg

/-- HLEN of table `t` (R186). -/
def Wrp.hlen (w : Wrp) (t : Nat) : Nat := kgetD w.hlens t 1

/-- Entry `i` of hopping table `t`. -/
def Wrp.hop (w : Wrp) (t i : Nat) : Nat := kgetD w.hops (128 * t + i) 0

/-- Fields of a cell entry's two words (R159). -/
def cellSf (c : Word × Word) : Nat := fld c.1 30 28
def cellType (c : Word × Word) : Nat := fld c.1 27 26
def cellSpan (c : Word × Word) : Nat := fld c.1 25 19
def cellProfile (c : Word × Word) : Nat := fld c.1 18 16
def cellSlot (c : Word × Word) : Nat := fld c.1 15 0
def cellBcast (c : Word × Word) : Bool := bit c.2 31
def cellChoff (c : Word × Word) : Nat := fld c.2 30 24
def cellNode (c : Word × Word) : Nat := fld c.2 16 0

/-! ## Settings words -/

/-- Layout version of settings group `g` as this firmware has it; the reserved groups have none (log 9). -/
def settingVersion (g : Nat) : Nat := if g < 8 then 1 else 0

/-- Default of settings word `n`. -/
def settingDefault (n : Nat) : Word :=
  if n = 0x400 then 0x80000000
  else if n = 0x480 then 0x00010100
  else if n = 0x481 then 0x0C080A00
  else if n = 0x482 then 0x01070301
  else if n = 0x483 then 0x019000FA
  else if n = 0x484 then 0x03000000
  else if n = 0x540 then 0x00320314
  else if n = 0x541 then 0x03E80500
  else if n = 0x542 then 0x0007001E
  else if n = 0x543 then 0x00C80000
  else if n = 0x580 then 0x0C000000
  else if n = 0x5C0 then 0x001E0BB8
  else 0

/-- A settings field with a range: its word, its bits, its least and greatest value. -/
structure SetField where
  word : Nat
  hi : Nat
  lo : Nat
  least : Nat
  most : Nat

/-- The value of a settings field: its default where it lies outside its range. -/
def SetField.get (f : SetField) (p : Pra) : Nat :=
  let v := fld (p.word f.word) f.hi f.lo
  if f.least ≤ v ∧ v ≤ f.most then v else fld (settingDefault f.word) f.hi f.lo

/-- The field holds a value outside its range. -/
def SetField.bad (f : SetField) (p : Pra) : Bool :=
  let v := fld (p.word f.word) f.hi f.lo
  !(decide (f.least ≤ v) && decide (v ≤ f.most))

def fRplInstance : SetField := ⟨0x480, 31, 24, 0, 127⟩
def fOcp : SetField := ⟨0x480, 23, 16, 0, 1⟩
def fMinHopRank : SetField := ⟨0x480, 15, 0, 0, 65535⟩
def fMinBe : SetField := ⟨0x482, 31, 24, 0, 7⟩
def fMaxRetries : SetField := ⟨0x482, 15, 8, 0, 7⟩
def fEbDiv : SetField := ⟨0x482, 7, 0, 1, 255⟩
def fLeadHop : SetField := ⟨0x483, 15, 0, 1, 65535⟩
def fLeadFixed : SetField := ⟨0x483, 31, 16, 0, 65535⟩
def fRepeats : SetField := ⟨0x484, 31, 24, 1, 8⟩
def fDioMin : SetField := ⟨0x481, 31, 24, 0, 255⟩
def fDioDoublings : SetField := ⟨0x481, 23, 16, 0, 255⟩
def fDioRedundancy : SetField := ⟨0x481, 15, 8, 0, 255⟩
def fTreadleTmo : SetField := ⟨0x540, 31, 16, 20, 1000⟩
def fFaultHold : SetField := ⟨0x540, 15, 8, 1, 16⟩
def fMergeWait : SetField := ⟨0x540, 7, 0, 1, 100⟩
def fLoomPeriod : SetField := ⟨0x541, 31, 16, 100, 10000⟩
def fLoomLapse : SetField := ⟨0x541, 15, 8, 3, 20⟩
def fDormant : SetField := ⟨0x542, 31, 16, 1, 365⟩
def fHomeLease : SetField := ⟨0x542, 15, 0, 1, 3650⟩
def fDivergeGrace : SetField := ⟨0x543, 31, 16, 2, 1000⟩
def fThrottleCodes : SetField := ⟨0x580, 31, 24, 0, 96⟩
def fRetain : SetField := ⟨0x5C0, 31, 16, 5, 600⟩
def fDefaultTmo : SetField := ⟨0x5C0, 15, 0, 1, 60000⟩

/-- macMaxBe, from macMinBe to 7 (R185). -/
def fMaxBe (p : Pra) : SetField := ⟨0x482, 23, 16, fMinBe.get p, 7⟩

/-- SETTINGS_BAD (R367): bit g when group g holds a field used at its default. -/
def settingsBad (p : Pra) : Nat :=
  let g2 := fRplInstance.bad p || fOcp.bad p || fMinBe.bad p || (fMaxBe p).bad p || fMaxRetries.bad p || fEbDiv.bad p
    || fLeadHop.bad p || fRepeats.bad p
  let g5 := fTreadleTmo.bad p || fFaultHold.bad p || fMergeWait.bad p || fLoomPeriod.bad p || fLoomLapse.bad p
    || fDormant.bad p || fHomeLease.bad p || fDivergeGrace.bad p
  let g6 := fThrottleCodes.bad p
  let g7 := fRetain.bad p || fDefaultTmo.bad p
  4 * b2n g2 + 32 * b2n g5 + 64 * b2n g6 + 128 * b2n g7

/-- Signed value of a settings word. -/
def settingInt (p : Pra) (n : Nat) : Int := (p.word n).toInt

end Sys2Proof.Machine
end

