-- ==== Sys2Proof/Machine/ThreadOps.lean ====
section
/-! DEFINITION. The thread table: its counts, a thread's end, the release of fences (R202, R203, R208, R209), the
completion record (R204), and how a meaning runs a READY thread. -/

namespace Sys2Proof.Machine

/-- Threads in use (R202). -/
def Ccp.inUse (c : Ccp) : Nat := c.threads.length

/-- Threads in FENCED. -/
def Ccp.fenced (c : Ccp) : Nat := (c.threads.filter (fun p => p.2.st == .fenced)).length

/-- THREADS_HIGH follows IN_USE (R224). -/
def threadsWatch (d : Dev) : Dev :=
  let n := d.ccp.inUse
  watch d evThreadsHigh 0 (decide (122880 < n)) (decide (n ≤ 114688)) []

/-- The lowest number at or after `n` that no rising key holds. -/
def firstFree {α : Type} (n : Nat) : KMap α → Nat
  | [] => n
  | (j, _) :: r => if j = n then firstFree (n + 1) r else n

/-- Inserts by a key into a list in rising order. -/
def insertBy {α : Type} (key : α → Nat) (x : α) : List α → List α
  | [] => [x]
  | y :: r => if key x < key y then x :: y :: r else y :: insertBy key x r

/-- A list in rising order of a key, equal keys in their old order. -/
def sortBy {α : Type} (key : α → Nat) (l : List α) : List α := l.foldl (fun a x => insertBy key x a) []

/-- Thread `th`, where it is in use. -/
def Dev.thread? (d : Dev) (th : Nat) : Option Thread := kfind d.ccp.threads th

/-- Changes thread `th`. -/
def Dev.modThread (d : Dev) (th : Nat) (f : Thread → Thread) : Dev :=
  d.modCcp (fun c => { c with threads := kadj c.threads th f })

/-- Thread `th` enters DONE with a status and a result (R202, R203): its instant is recorded, its completion waits to
be sent, the threads fenced on it have one member fewer, an activation it stood for is pending no longer (R330), and
TIMEOUT and REVOKED are counted. A thread already DONE
keeps its status (R221). -/
def markDone (d : Dev) (th : Nat) (st : Status) (res : List Byte) : Dev :=
  match d.thread? th with
  | none => d
  | some t =>
    if t.st = .done then d
    else
      let t' := { t with st := .done, status := st, result := res, tDone := d.whl.time, doneUp := d.glb.upNs,
                         retain := fRetain.get d.pra }
      let drop (u : Thread) : Thread :=
        if u.st = .fenced ∧ th ∈ u.fence then
          { u with fence := u.fence.filter (· != th), fenceFail := u.fenceFail || st != .ok }
        else u
      let idle (a : Nat × Nat × Bool) : Bool := a.1 == th
      let d := d.modImg (fun i => { i with act := i.act.filter (fun a => !idle a) })
      d.modCcp (fun c =>
        { c with threads := kmap (kput c.threads th t') (fun _ u => drop u),
                 doneQ := c.doneQ ++ [th],
                 timeouts := if st = .timeout then inc32 c.timeouts else c.timeouts,
                 revoked := if st = .revoked then inc32 c.revoked else c.revoked })

/-- A record carries the throw `id` (R176). -/
def isThrow (id : Nat) (k : RecKind) : Bool := match k with | .throwMsg i => i == id | _ => false

/-- A launch leaves the launch table without release (R87), and the records that share it go with it. -/
def dropLaunch (d : Dev) (l : Launch) : Dev :=
  (d.modWhl (fun w => { w with launches := w.launches.filter (fun x => x.throwId != l.throwId) })).modPly (fun p =>
    { p with recs := p.recs.filter (fun r => !isThrow l.throwId r.kind),
             waiting := p.waiting.filter (fun q => !isThrow l.throwId q.1.kind) })

/-- The launch that thread `th` holds. -/
def Dev.launchOf (d : Dev) (th : Nat) : Option Launch := d.whl.launches.find? (fun l => l.th == th)

/-- ABORT_ON_FAIL of a command's FENCE field (R197). -/
def CmdMsg.abortOnFail (m : CmdMsg) : Bool := m.fence.getLsbD 4

/-- A FENCED thread whose set has emptied becomes READY, or DONE with PRED_FAIL (R209). A throw waits for its instant only,
and is RUNNING; one that ends with PRED_FAIL gives its launch instant up (log 59). -/
def settleFence (d : Dev) (th : Nat) : Dev :=
  match d.thread? th with
  | none => d
  | some t =>
    if t.st = .fenced ∧ t.fence = [] then
      if t.msg.abortOnFail ∧ t.fenceFail then
        let d := match d.launchOf th with | some l => dropLaunch d l | none => d
        markDone d th .predFail []
      else
        let held : Bool := match t.cmd with | .throw _ _ _ _ => true | _ => false
        d.modThread th (fun u => if held then { u with st := .running, started := true } else { u with st := .ready })
    else d

/-- FENCED threads in order of admission. A fence set holds earlier threads only, so one pass in this order settles
every one. -/
def Ccp.fencedInOrder (c : Ccp) : List Nat :=
  (sortBy (fun p => p.2.adm) (c.threads.filter (fun p => p.2.st == .fenced))).map (·.1)

/-- Fences whose sets have emptied are released (R209). -/
def settleFences (d : Dev) : Dev := each d.ccp.fencedInOrder settleFence d

/-- Thread `th` ends (R202). -/
def finish (d : Dev) (th : Nat) (st : Status) (res : List Byte) : Dev := settleFences (markDone d th st res)

/-- What a reference to a thread becomes once the thread is freed: no thread has this number. -/
def noThread : Nat := 131072

/-- A spindle forgets thread `th`. -/
def Spn.forget (s : Spn) (th : Nat) : Spn :=
  let f (x : Nat) : Nat := if x = th then noThread else x
  { s with holdPend := s.holdPend.map (fun p => (f p.1, p.2)), oosPend := s.oosPend.map (fun p => (p.1, f p.2)),
           testTh := s.testTh.map f }

/-- A persistent write forgets thread `th`. -/
def PraReq.forget (q : PraReq) (th : Nat) : PraReq :=
  if q.writer = .thread th then { q with writer := .thread noThread } else q

/-- What goes on after thread `th` has been freed refers to it no more. -/
def forgetThread (d : Dev) (th : Nat) : Dev :=
  let f (x : Nat) : Nat := if x = th then noThread else x
  let d := { d with spn := d.spn.mapIdx (fun _ s => s.forget th) }
  let d := d.modPra (fun p => { p with queue := p.queue.map (·.forget th), busy := p.busy.map (·.forget th) })
  let d := d.modWhl (fun w => { w with launches := w.launches.map (fun l => { l with th := f l.th }) })
  d.modImg (fun i => { i with stage := i.stage.map (fun g => { g with th := f g.th }) })

/-- Thread `th` is freed. -/
def freeThread (d : Dev) (th : Nat) : Dev :=
  threadsWatch ((forgetThread d th).modCcp (fun c =>
    { c with threads := kdel c.threads th, doneQ := c.doneQ.filter (· != th) }))

/-- The completion record of a thread (R204). -/
def completionRecord (th : Nat) (t : Thread) : List Byte :=
  let pad := (4 - t.result.length % 4) % 4
  octets 4 th ++ octets 4 t.msg.tag ++ octets 8 t.hseq ++ octets 2 t.msg.opcode ++ octets 1 t.idx
    ++ octets 1 t.status.num ++ octets 2 t.epoch ++ octets 1 (2 * b2n t.degraded + b2n t.started) ++ octets 1 0
    ++ octets 4 t.result.length ++ octets 8 t.tDone ++ t.result ++ List.replicate pad 0

/-- The engine starts READY thread `th`, whose command `pick` recognises: it is RUNNING with STARTED set, and the
command's execution follows (R202). Where there is no such thread, nothing happens. -/
def runThread {α : Type} (d : Dev) (th : Nat) (pick : Cmd → Option α) (f : Dev → Thread → α → Dev) : Dev :=
  match d.thread? th with
  | none => d
  | some t =>
    if t.st = .ready ∧ d.phase = .up then
      match pick t.cmd with
      | some a =>
        let t' := { t with st := .running, started := true }
        f (d.modThread th (fun _ => t')) t' a
      | none => d
    else d

/-- Threads of a kind run in order of admission: no thread of the kind that was admitted before `th` is still to run. -/
def inTurn (d : Dev) (th : Nat) (mine : Nat → Bool) : Bool :=
  let adm : Nat := match d.thread? th with | some t => t.adm | none => 0
  d.ccp.threads.all (fun p => p.2.st == .done || !mine p.2.msg.opcode || decide (adm ≤ p.2.adm))

/-- The key commands, which run one at a time in order of admission (R308). -/
def isKeyCommand (op : Nat) : Bool := op == 0x50 || op == 0x51 || op == 0x52 || op == 0x53

/-- A key command is executing: it was admitted and has not ended (R321). -/
def keyBusy (d : Dev) : Bool := d.ccp.threads.any (fun p => p.2.st == .running && isKeyCommand p.2.msg.opcode)

end Sys2Proof.Machine
end

