-- ==== Sys2Proof/Machine/Bobbin.lean ====
section
/-! DEFINITION. The bobbins (R24 to R35): word format and parity, depth, kind and latency, write, read, flush, the receive
descriptors that cross BB00 + n as packets (R144, R145), and the registers of the BOB block with their write rows. -/

namespace Sys2Proof.Machine

/-! ## Words (R24)

What crosses BB00 to BB03 has a layout (R144); of the other bobbins the manual gives none (log 131). -/

/-- EOP and POISON of a bobbin word. -/
def wordEop (w : BitVec 72) : Bool := w.getLsbD 70
def wordPoison (w : BitVec 72) : Bool := w.getLsbD 71

/-- Whether bits `hi` down to `lo` of a word hold an odd number of ones. -/
def oddOnes (w : BitVec 72) (hi lo : Nat) : Bool :=
  ((List.range (hi + 1 - lo)).filter (fun i => w.getLsbD (lo + i))).length % 2 == 1

/-- The three parity groups, each with its own parity bit. -/
def psbOk (w : BitVec 72) : Bool := oddOnes w 71 66
def phiOk (w : BitVec 72) : Bool := xor (oddOnes w 63 32) (w.getLsbD 65)
def ploOk (w : BitVec 72) : Bool := xor (oddOnes w 31 0) (w.getLsbD 64)

/-- The word with its parity bits as the writer sets them: POISON, EOP, VBYTES and DATA. -/
def mkWord (poison eop : Bool) (vbytes data : Nat) : BitVec 72 :=
  let w := BitVec.ofNat 72 (b2n poison * 2 ^ 71 + b2n eop * 2 ^ 70 + vbytes % 8 * 2 ^ 67 + data % 2 ^ 64)
  w ||| BitVec.ofNat 72 (b2n (!oddOnes w 71 67) * 2 ^ 66 + b2n (!oddOnes w 63 32) * 2 ^ 65 + b2n (!oddOnes w 31 0) * 2 ^ 64)

/-- A word with POISON set, and with EOP as well, its PSB following (R30). -/
def poisonWord (eop : Bool) (w : BitVec 72) : BitVec 72 :=
  mkWord true (wordEop w || eop) (w.toNat / 2 ^ 67 % 8) w.toNat

/-- A packet of octets as `n` words, most significant octet first, the last with EOP and VBYTES (R24, R144). -/
def packWords : Nat → List Byte → List (BitVec 72)
  | 0, _ => []
  | n + 1, l =>
    if l.length ≤ 8 then [mkWord false true l.length (natOf (fitTo 8 l))]
    else mkWord false false 0 (natAt l 0 8) :: packWords n (l.drop 8)

/-- A packet of octets as words. -/
def wordsOf (l : List Byte) : List (BitVec 72) := packWords (l.length / 8 + 1) l

/-- The valid octets of a word. -/
def wordOctets (w : BitVec 72) : List Byte :=
  let v := w.toNat / 2 ^ 67 % 8
  (octets 8 (w.toNat % 2 ^ 64)).take (if wordEop w ∧ v ≠ 0 then v else 8)

/-! ## Depth, kind, latency -/

/-- Depth of bobbin `b` in words (R34). -/
def bobDepth (b : Nat) : Nat :=
  if b < 4 then 4096 else if b < 8 then 2048 else if b < 16 then 256 else if b < 22 then 512 else if b < 24 then 64
  else 16

/-- Free-running bobbins (R34). -/
def bobFree (b : Nat) : Bool := b == 16 || b == 18 || b == 20 || b == 22 || b == 24

/-- Nominal clock period in ps of the region that a spindle's bobbins meet (R18). -/
def spnPeriod (n : Nat) : Nat := if n < 2 then 25000 else 8333

/-- Nominal clock periods in ps of the writer's and the reader's region (R18, R34). -/
def bobPeriods (b : Nat) : Nat × Nat :=
  if b < 4 ∨ (12 ≤ b ∧ b < 16) then (spnPeriod (b % 4), 6400)
  else if b < 12 then (6400, spnPeriod (b % 4))
  else if b < 22 then (6400, 6400)
  else if b = 22 ∨ b = 24 then (40000, 6400)
  else (6400, 40000)

/-- Greatest latency in ns until a word written is visible, and until a freed place is (R25). -/
def latencyW (b : Nat) : Nat := ((bobPeriods b).1 + 3 * (bobPeriods b).2 + 999) / 1000
def latencyR (b : Nat) : Nat := ((bobPeriods b).2 + 3 * (bobPeriods b).1 + 999) / 1000

/-! ## Views, flags -/

/-- Bobbin `b`. -/
def Bob.get (x : Bob) (b : Nat) : Bobbin := kgetD x.bobs b {}

/-- Changes bobbin `b`. -/
def Dev.modBob (d : Dev) (b : Nat) (f : Bobbin → Bobbin) : Dev :=
  { d with bob := { d.bob with bobs := ksetD d.bob.bobs b (f (d.bob.get b)) {} } }

/-- Read-side view of occupancy (R25, R35). -/
def Bobbin.fill (x : Bobbin) : Nat := x.sawW - x.took

/-- Write-side view of occupancy. -/
def Bobbin.occupied (x : Bobbin) : Nat := x.wrote - x.sawR

/-- The flags of R26 and PKTS of R27. -/
def Bobbin.empty (x : Bobbin) : Bool := x.sawW == x.took
def Bobbin.full (x : Bobbin) (b : Nat) : Bool := decide (bobDepth b ≤ x.occupied)
def Bobbin.markOf (x : Bobbin) (b : Nat) : Nat := x.mark.getD (bobDepth b * 3 / 4)
def Bobbin.afull (x : Bobbin) (b : Nat) : Bool := decide (x.markOf b ≤ x.occupied)
def Bobbin.pkts (x : Bobbin) : Nat := (x.ends.filter (fun e => decide (e ≤ x.sawW))).length

/-- HWM follows FILL (R35). -/
def Bobbin.high (x : Bobbin) : Bobbin := { x with hwm := max x.hwm x.fill }

/-- The read side's synchroniser shows `k` more words (R25). -/
def Bobbin.showW (x : Bobbin) (k : Nat) : Bobbin :=
  { x with sawW := min x.wrote (x.sawW + k), newW := x.newW.drop k }.high

/-- The write side's synchroniser shows `k` more places free (R25). -/
def Bobbin.showR (x : Bobbin) (k : Nat) : Bobbin := { x with sawR := min x.took (x.sawR + k), newR := x.newR.drop k }

/-- Both views at instant `now`: what the latencies of R25 have made visible. A place that falls free in the cycle the
writer looks is seen a cycle later (R33). -/
def Bobbin.settle (x : Bobbin) (b now : Nat) : Bobbin :=
  (x.showW (x.newW.takeWhile (fun t => decide (t + latencyW b ≤ now))).length).showR
    (x.newR.takeWhile (fun t => decide (t + latencyR b < now))).length

/-! ## Writing -/

/-- A word reaches the bobbin at `now` (R28, R32): discarded in a flush or within a packet being discarded; on FULL a
flow-controlled writer holds it in its own source, behind what it holds already, and a free-running one discards the
packet. -/
def Bobbin.put (b now : Nat) (x : Bobbin) (w : BitVec 72) : Bobbin :=
  let eop := wordEop w
  if x.discard then { x with discard := !eop, inPkt := !eop }
  else if x.flush then { x with discard := !eop, inPkt := !eop, dropped := add32 x.dropped 1 }
  else if bobFree b then
    if x.full b then
      { x with discard := !eop, inPkt := !eop, dropped := add32 x.dropped 1, overflow := true, overAt := some now }
    else
      { x with words := x.words ++ [w], wrote := x.wrote + 1, newW := x.newW ++ [now], inPkt := !eop,
               ends := if eop then x.ends ++ [x.wrote + 1] else x.ends }
  else if x.full b ∨ x.waiting ≠ [] then { x with waiting := x.waiting ++ [w] }
  else
    { x with words := x.words ++ [w], wrote := x.wrote + 1, newW := x.newW ++ [now], inPkt := !eop,
             ends := if eop then x.ends ++ [x.wrote + 1] else x.ends }

/-- What the writer holds goes on into the bobbin as far as there is room (R28). -/
def Bobbin.pump (b now : Nat) (x : Bobbin) : Bobbin := x.waiting.foldl (Bobbin.put b now) { x with waiting := [] }

/-- The bobbin as it stands at `now`. -/
def Bobbin.at_ (x : Bobbin) (b now : Nat) : Bobbin := (x.settle b now).pump b now

/-! ## Flush -/

/-- What a flush does to the words (R32). A packet of which the reader has been shown a part is discarded whole (log 101); whole
packets not yet shown stay; the packet that the writer is inside is discarded to its end. Every packet with an end in the
bobbin counts, one whose head the reader has taken among them, and so does the packet being written (log 101). A flush
that runs already is the one flush (R33). -/
def Bobbin.flushStart (x : Bobbin) : Bobbin :=
  if x.flush then x
  else
    let before := x.ends.filter (fun e => decide (e ≤ x.sawW))
    let after := x.ends.filter (fun e => decide (x.sawW < e))
    let shown := decide (before.getLast?.getD x.took < x.sawW)
    let cut := if shown then after.head?.getD x.sawW else x.sawW
    let stop := x.ends.getLast?.getD cut
    let part := x.inPkt && !x.discard
    let whole := (x.ends.filter (fun e => decide (e ≤ cut))).length
    let last := if part then max cut stop else x.wrote
    { x with
      words := (x.words.take (last - x.took)).drop (cut - x.took), took := cut, sawW := cut, wrote := last,
      newW := (x.newW.drop (cut - x.sawW)).take (last - cut),
      ends := x.ends.filter (fun e => decide (cut < e)), flush := true, taken := [],
      discard := x.discard || x.inPkt, dropped := add32 x.dropped (whole + b2n part) }

/-! ## Receive descriptors (R144, R145) -/

/-- A descriptor with its payload as octets (R144). -/
def Descriptor.packet (e : Descriptor) : List Byte :=
  octets 8 e.ts ++ octets 2 (e.profile % 8 * 8192 + e.chan % 1024) ++ octets 1 (e.bind % 16) ++ octets 1 e.status
    ++ octets 2 (toTwos 16 e.rssi) ++ octets 2 (toTwos 16 e.snr) ++ octets 4 (toTwos 32 e.foff) ++ octets 2 e.corr
    ++ octets 2 e.payload.length ++ octets 8 e.tsEnd ++ e.payload

/-- The descriptor that octets hold, for a frame of slot `slot` (R144). -/
def descriptorOf (slot : Int) (l : List Byte) : Descriptor :=
  { ts := natAt l 0 8, profile := natAt l 8 2 / 8192, chan := natAt l 8 2 % 1024, bind := natAt l 10 1 % 16,
    status := natAt l 11 1, rssi := ofTwos 16 (natAt l 12 2), snr := ofTwos 16 (natAt l 14 2),
    foff := ofTwos 32 (natAt l 16 4), corr := natAt l 20 2, payload := slice l 32 (natAt l 22 2),
    tsEnd := natAt l 24 8, slot := slot }

/-- Octets of the frame store that a descriptor holds (R145). -/
def Descriptor.room (e : Descriptor) : Nat := 32 + e.payload.length

/-- Octets of the frame store in use: descriptors that wait or cross, and the room reserved for frames in progress
(R145). -/
def Spn.storeUsed (s : Spn) : Nat :=
  (s.store.map Descriptor.room).sum + (s.crossing.map Descriptor.room).sum + (s.demods.map (fun p => p.2.room)).sum

/-- Descriptors at the head of the frame store of spindle `n` set out across BB00 + n (R82, R144): `k` of them from place
`i` on, taken by the drain of tick `due`. -/
def crossStore (d : Dev) (n : Fin 4) (due : Option Int) (i k : Nat) : Dev :=
  let l := (((d.spn.get n).store.drop i).take k).map (fun e => { e with due := due })
  let now := d.pwr.wall
  let d := d.modSpn n (fun s => { s with store := s.store.take i ++ s.store.drop (i + k), crossing := s.crossing ++ l })
  d.modBob n.val (fun x => (l.map (fun e => wordsOf e.packet)).flatten.foldl (Bobbin.put n.val now) (x.at_ n.val now))

/-- A packet read whole and good out of BB00 + n is a received frame for the firmware (R31, R144); the frame store's room is
free. What the firmware knows of its slot goes with it. -/
def frameIn (d : Dev) (n : Fin 4) (words : List (BitVec 72)) (poison : Bool) : Dev :=
  let l := (words.map wordOctets).flatten
  let e := descriptorOf (d.whl.slotAt (natAt l 0 8)) l
  let same (c : Descriptor) : Bool := c.ts == e.ts && c.bind == e.bind && c.status == e.status
  let e := ((d.spn.get n).crossing.find? same).getD e
  let d := d.modSpn n (fun s => { s with crossing := s.crossing.eraseP same })
  if poison then d else d.modWrp (fun w => { w with rxq := w.rxq ++ [{ spn := n, d := e }] })

/-- After a flush of BB00 + n only those descriptors still cross whose packets stand whole in the bobbin or wait to enter
it. -/
def keepCrossing (d : Dev) (b : Nat) : Dev :=
  match spindle? b with
  | none => d
  | some n =>
    let x := d.bob.get b
    let left := x.words ++ x.waiting
    d.modSpn n (fun s => { s with crossing := s.crossing.filter (fun e => (wordsOf e.packet).take 2 |>.all left.contains) })

/-- Bobbin `b` is flushed. -/
def flushBobbin (d : Dev) (b : Nat) : Dev :=
  let now := d.pwr.wall
  keepCrossing (d.modBob b (fun x => (x.at_ b now).flushStart)) b

/-! ## Rows -/

/-- BOBBIN_WORD_WRITE (R25, R28, R32): `seen` of the places freed and not yet shown to the writer are shown now. -/
def doBobbinWordWrite (b : Fin 26) (w : BitVec 72) (seen : Nat) (d : Dev) : Dev :=
  let now := d.pwr.wall
  let x := (((d.bob.get b).at_ b now).showR seen).pump b now
  let full := bobFree b && x.full b && !x.flush && !x.discard
  let d := d.modBob b (fun _ => x.put b now w)
  if full then report d evBobOverflow [] else d

def execBobbinWordWrite (dt : Nat) (b : Fin 26) (w : BitVec 72) (seen : Nat) (s : State) :
    Host.Outcome State Fault Refusal := run dt (doBobbinWordWrite b w seen) s

/-- A packet ends at the reader (R31): one that holds a word with POISON set is dropped, and its consumer counts it; what
BB00 + n carries goes to the firmware. -/
def packetOut (d : Dev) (b : Nat) (words : List (BitVec 72)) : Dev :=
  let poison := words.any wordPoison
  let d := if poison then d.modBob b (fun x => { x with poisoned := inc32 x.poisoned }) else d
  match spindle? b with
  | some n => frameIn d n words poison
  | none => d

/-- The reader takes the word at the head of bobbin `b`, the crossing having inverted the bits of `flip`, and checks it
(R30): the word as delivered, and the device after it. Nothing is taken from an empty bobbin or in a flush. -/
def takeWord (b : Nat) (flip : BitVec 72) (d : Dev) : Option (BitVec 72) × Dev :=
  let now := d.pwr.wall
  let x := d.bob.get b
  match x.words with
  | [] => (none, d)
  | w :: rest =>
    if x.flush || x.empty then (none, d)
    else
      let v := w ^^^ flip
      let x := { x with words := rest, took := x.took + 1, newR := x.newR ++ [now],
                        ends := x.ends.filter (fun e => decide (x.took + 1 < e)) }
      if psbOk v then
        let bad := !(phiOk v && ploOk v)
        let v := if bad then poisonWord false v else v
        let all := x.taken ++ [v]
        let x := { x with taken := if wordEop v then [] else all }
        let x := if bad then { x with par := true, parAt := some now, parCount := sat 0xFFFF (x.parCount + 1) } else x
        let d := d.modBob b (fun _ => x)
        let d := if bad then report d evBobParity [] else d
        (some v, if wordEop v then packetOut d b all else d)
      else
        let v := poisonWord true v
        let d := packetOut (d.modBob b (fun _ => { x with sideband := true, sideAt := some now, taken := [] })) b (x.taken ++ [v])
        (some v, flushBobbin (report d evBobSideband []) b)

/-- BOBBIN_WORD_READ (R25, R30): `seen` of the words written and not yet shown to the reader are shown now; the word taken is
delivered to the consumer. -/
def doBobbinWordRead (b : Fin 26) (flip : BitVec 72) (seen : Nat) (d : Dev) : Dev :=
  let now := d.pwr.wall
  match takeWord b flip (d.modBob b (fun x => (x.at_ b now).showW seen)) with
  | (none, d) => d
  | (some v, d) => d.emit (.word b v)

def execBobbinWordRead (dt : Nat) (b : Fin 26) (flip : BitVec 72) (seen : Nat) (s : State) :
    Host.Outcome State Fault Refusal := run dt (doBobbinWordRead b flip seen) s

/-- The firmware reads bobbin `b` until it is empty, waiting out the latency of R25: at most `fuel` words. -/
def drainWords (b : Nat) : Nat → Dev → Dev
  | 0, d => d
  | fuel + 1, d =>
    let now := d.pwr.wall
    let come (x : Bobbin) : Bobbin := let x := (x.showR x.newR.length).pump b now; x.showW x.newW.length
    match takeWord b 0 (d.modBob b come) with
    | (none, d) => d
    | (some _, d) => drainWords b fuel d

/-- The firmware takes the frames that are crossing BB00 + n (R82). -/
def drainBobbin (d : Dev) (n : Fin 4) : Dev :=
  let x := d.bob.get n.val
  drainWords n.val (x.words.length + x.waiting.length) d

/-- A write of BOB_CTRL of bobbin `b` (R32, R35). -/
def writeBobCtrl (d : Dev) (b : Nat) (v : Word) : Dev × Status :=
  let m := fld v 12 0
  if m = 0 ∨ bobDepth b < m then (d, .range)
  else
    let d := d.modBob b (fun x => { x with mark := if m = bobDepth b * 3 / 4 then none else some m })
    (if bit v 31 then flushBobbin d b else d, .ok)

/-- BOBBIN_FLUSH_WRITE (R32). -/
def doBobbinFlushWrite (b : Fin 26) (v : Word) (d : Dev) : Dev := regRow (fun d => writeBobCtrl d b v) d

def execBobbinFlushWrite (dt : Nat) (b : Fin 26) (v : Word) (s : State) : Host.Outcome State Fault Refusal :=
  run dt (doBobbinFlushWrite b v) s

/-- BOBBIN_FLUSH_COMPLETE (R32). -/
def doBobbinFlushComplete (b : Fin 26) (d : Dev) : Dev :=
  d.modBob b (fun x => if x.flush then ({ x with flush := false }.showW x.newW.length).showR (x.took - x.sawR) else x)

def execBobbinFlushComplete (dt : Nat) (b : Fin 26) (s : State) : Host.Outcome State Fault Refusal :=
  run dt (doBobbinFlushComplete b) s

/-- A bit that a write of 1 clears (R8): one that the hardware set at this very instant stays 1. -/
def w1c (now : Nat) (was one : Bool) (setAt : Option Nat) : Bool := was && (!one || setAt == some now)

/-- A write of BOB_ERR of bobbin `b` (R8, R33, R35). -/
def writeBobErr (d : Dev) (b : Nat) (v : Word) : Dev × Status :=
  let now := d.pwr.wall
  (d.modBob b (fun x =>
    let par := w1c now x.par (bit v 31) x.parAt
    { x with par := par, sideband := w1c now x.sideband (bit v 30) x.sideAt,
             overflow := w1c now x.overflow (bit v 29) x.overAt,
             parCount := if bit v 31 then b2n par else x.parCount }), .ok)

/-- BOB_ERR_CLEAR (R35). -/
def doBobErrClear (b : Fin 26) (v : Word) (d : Dev) : Dev := regRow (fun d => writeBobErr d b v) d

def execBobErrClear (dt : Nat) (b : Fin 26) (v : Word) (s : State) : Host.Outcome State Fault Refusal :=
  run dt (doBobErrClear b v) s

/-- A write of BOB_HWM of bobbin `b` (R35). -/
def writeBobHwm (d : Dev) (b : Nat) (v : Word) : Dev × Status :=
  let now := d.pwr.wall
  (if bit v 31 then d.modBob b (fun x => let x := x.at_ b now; { x with hwm := x.fill }) else d, .ok)

/-- BOB_HWM_CLR (R35). -/
def doBobHwmClr (b : Fin 26) (v : Word) (d : Dev) : Dev := regRow (fun d => writeBobHwm d b v) d

def execBobHwmClr (dt : Nat) (b : Fin 26) (v : Word) (s : State) : Host.Outcome State Fault Refusal :=
  run dt (doBobHwmClr b v) s

/-- BOB_STAT of bobbin `b` (R35). -/
def bobStat (x : Bobbin) (b : Nat) : Word :=
  pack [(31, b2n x.empty), (30, b2n (x.full b)), (29, b2n (x.afull b)), (13, min x.fill 0x1FFF), (0, min x.pkts 0x1FFF)]

/-- BOB_ERR of a bobbin (R35). -/
def bobErr (x : Bobbin) : Word :=
  pack [(31, b2n x.par), (30, b2n x.sideband), (29, b2n x.overflow), (0, x.parCount)]

/-- BOB_SUMMARY (R35). -/
def bobSummary (x : Bob) : Word :=
  pack ((List.range 26).map (fun b => let y := x.get b; (b, b2n (y.par || y.sideband || y.overflow))))

end Sys2Proof.Machine
end

