-- ==== Sys2Proof/Machine/SpindleOps.lean ====
section
/-! DEFINITION. The spindles' shared operations: effective targets and state transitions (R94 to R97, R341), the wires
of R107 and R108, aborts (R106), calibration triggers and abandonment (R113, R121), holds (R119), what keeps a cell
from being served (R164), waveforms and airtimes (R130, R139, R166), usable channels (R128), descriptors (R144,
R145) and resynchronisation (R22). -/

namespace Sys2Proof.Machine

/-! ## Targets and transitions -/

/-- Spindles 2 and 3 serve the 2.4 GHz band (R14). -/
def is24 (n : Fin 4) : Bool := decide (2 ≤ n.val)

/-- The other spindle of the band pair. -/
def bandMate (n : Fin 4) : Fin 4 :=
  match n with
  | 0 => 1
  | 1 => 0
  | 2 => 3
  | 3 => 2

/-- The cap that a power state sets on targets: 0 SLEEP, 2 ACTIVE (R340). -/
def powerCap (power : Nat) : Nat := if power = 2 ∨ power = 3 then 2 else 0

/-- The effective target of R341, no higher than STANDBY while the ply engine keeps the spindles there (R271, R285). -/
def effTarget (d : Dev) (n : Fin 4) : Nat :=
  let s := d.spn.get n
  let t := if s.oos = .bypass ∨ s.fitted = false then 0 else min s.target (powerCap d.glb.power)
  if d.ply.quiet then min t 1 else t

/-- Why a cell is lost, in the order of R164. -/
inductive Lost
  | resync | cal | hold | inhibit | cx | conflict | unbound | txsyn | uncounted
  deriving DecidableEq, Repr

/-- The spindle is held (R119). -/
def Spn.held (s : Spn) : Bool := s.hold.isSome

/-- The first cause of orders 1 to 3 of R164 that holds on a spindle now. -/
def Spn.blocked (s : Spn) : Option Lost :=
  if s.resync then some .resync
  else if s.oos = .bypass then some .hold
  else if s.blank || s.calWait || s.calEnd then some .cal
  else if s.held || s.oos = .test then some .hold
  else none

/-- The spindle serves a cell in the present slot: receive, transmit or an acknowledgement owed (R95). -/
def Spn.servesNow (s : Spn) : Bool :=
  (s.eff == 2 && s.blocked.isNone && (!s.nowRx.isEmpty || s.nowTx))
    || (match s.tx with | some t => t.ended.isNone | none => false)

/-- f_set for a channel of `fch` kHz at carrier correction `corr`, in steps of 40 MHz / 2^24 (R101): f_ch × (1 − CORR) to the
nearest step, and `df` steps. -/
def fset (corr : Int) (fch : Nat) (df : Int) : Int :=
  let den : Int := 400000000000000000000
  (2 * ((fch * 1000000 : Nat) : Int) * (10000000000 - corr) * 16777216 + den) / (2 * den) + df

/-- Nominal frequency of the receive LO of spindle `n` in kHz (R98): C, or 2441.75 MHz. -/
def Spn.loKhz (s : Spn) (n : Fin 4) : Nat := if is24 n then 2441750 else s.windowEff * 50

/-- The receive LO is set for the window and CORR in force (R101). -/
def Spn.tuneLo (s : Spn) (n : Fin 4) : Spn := { s with rxWord := fset s.corr (s.loKhz n) 0 }

/-- A transition of R96 with its greatest time in ns. -/
def Spn.goTo (s : Spn) (now : Nat) (m : SpnMode) (t : Nat) : Spn := { s with trans := some (m, now + t) }

/-- A blank, a hold, TEST or BYPASS keeps the spindle in SYNTH. -/
def Spn.keptInSynth (s : Spn) : Bool := s.blank || s.held || s.oos != .none || s.resync

/-- The transition that follows from the state and the target acted on (R96). -/
def Spn.settle (s : Spn) (now : Nat) : Spn :=
  if s.trans.isSome then s
  else
    match s.mode with
    | .sleep => if 0 < s.eff then { s.goTo now .standby 1200000 with
        calPend := true, calCause := 2, calWait := true } else s
    | .standby =>
      if s.eff = 0 then s.goTo now .sleep 10000
      else if s.eff = 2 ∧ (s.resync = false ∨ s.resyncT1.isSome) then s.goTo now .synth 150000
      else s
    | .synth =>
      if s.eff < 2 then s.goTo now .standby 10000
      else if s.keptInSynth ∨ s.tx.isSome then s
      else s.goTo now .rx 20000
    | .rx => if s.eff < 2 then s.goTo now .standby 10000 else s
    | .tx => s

/-- LNAn_BYP outside the sequences of R105 and R106: that of the state (R107). -/
def Spn.bypIdle (s : Spn) : Bool := s.mode != .rx || s.lnaForceByp || s.keptInSynth

/-- The wires as the state and the step of the sequence give them (R105 to R108): PA bias from its step to its release, T/R
likewise, LNA bypass within the sequences, request and priority from the request to the release. -/
def Spn.syncWires (s : Spn) : Spn :=
  let s := { s with paEn := s.mode != SpnMode.sleep }
  match s.tx with
  | none => { s with paBias := false, trsw := false, lnaByp := s.bypIdle, cxReq := false, cxPri := false }
  | some t =>
    let asks := s.cxEn && t.requested && decide (t.released < 2)
    { s with
      paBias := decide (3 ≤ t.step) && decide (t.released < 2)
      trsw := decide (4 ≤ t.step) && decide (t.released < 1)
      lnaByp := if 2 ≤ t.released then s.lnaForceByp || s.keptInSynth
        else if t.step = 0 ∧ t.ended = none then s.bypIdle else true
      cxReq := asks
      cxPri := asks && t.pri }

/-- PAn_EN, PAn_BIAS, TRSWn and LNAn_BYP as levels at the balls (R107, R124): off where the part is not fitted, at the
configured polarity. -/
def Spn.balls (s : Spn) : Bool × Bool × Bool × Bool :=
  (xor (s.paEn && s.pacfg.getLsbD 4) (s.pacfg.getLsbD 3), xor (s.paBias && s.pacfg.getLsbD 4) (s.pacfg.getLsbD 2),
   xor s.trsw (s.pacfg.getLsbD 1), xor (s.lnaByp && s.pacfg.getLsbD 5) (s.pacfg.getLsbD 0))

/-- The spindle serves cells (R97, R164): its receive path is not kept from them and its clock is good. -/
def Spn.serves (s : Spn) : Bool :=
  s.eff == 2 && (s.mode == .rx || s.mode == .tx || s.mode == .synth) && !s.keptInSynth && !s.calWait && !s.calEnd

/-! ## Frame store and descriptors -/

/-- One frame or descriptor dropped for lack of room (R145). -/
def storeFull (d : Dev) (n : Fin 4) : Dev :=
  report (d.modSpn n (fun s => { s with rxStore := inc32 s.rxStore })) (evSpn n 21) []

/-- The counter of a descriptor's status (R144). -/
def Spn.countRx (s : Spn) (status : Nat) : Spn :=
  match status with
  | 0 => { s with rxOk := inc32 s.rxOk }
  | 1 => { s with rxHdr := inc32 s.rxHdr }
  | 2 => { s with rxRs := inc32 s.rxRs }
  | 3 | 4 => { s with rxColl := inc32 s.rxColl }
  | 5 => { s with rxTrunc := inc32 s.rxTrunc }
  | 6 => { s with rxLong := inc32 s.rxLong }
  | 7 => { s with rxFcs := inc32 s.rxFcs }
  | _ => { s with rxUnsup := inc32 s.rxUnsup }

/-- RX_ERR_HIGH follows the last 256 detected frames (R155). -/
def errWatch (d : Dev) (n : Fin 4) : Dev :=
  let k := ((d.spn.get n).errs.filter id).length
  watch d (evSpn n 18) 0 (decide (25 < k)) (decide (k ≤ 12)) []

/-- A descriptor is made (R144, R145): where the frame store has room for it, it is counted under its status and waits there;
that of a frame that was still arriving at the strobe which ended its slot crosses BB00 + n at once (R82). The room that its
frame had reserved is given back by the caller, who ends the frame. -/
def deliver (d : Dev) (n : Fin 4) (e : Descriptor) : Dev :=
  let s := d.spn.get n
  if s.storeUsed + e.room ≤ 65536 then
    let d := errWatch (d.modSpn n (fun s =>
      let s := s.countRx e.status
      { s with store := s.store ++ [e], errs := ((e.status == 1 || e.status == 2 || e.status == 7) :: s.errs).take 256 })) n
    if e.slot < d.whl.slot then crossStore d n none s.store.length 1 else d
  else storeFull d n

/-- Settling time of a rebound fine stage in ns (R147). -/
def fineNs (n : Fin 4) : Nat := if is24 n then 4267 else 25600

/-- The frame in progress in demodulator `b` ends; a binding change that waited for it is made, and its fine stage settles
(R129, R147). -/
def Dev.endRun (d : Dev) (n : Fin 4) (b : Nat) : Dev :=
  d.modSpn n (fun s =>
    let s := { s with demods := kdel s.demods b }
    match kfind s.bindDue b with
    | some v =>
      { s with bindsEff := ksetD s.bindsEff b v {}, bindFrom := kput s.bindFrom b (d.whl.time + fineNs n),
               bindDue := kdel s.bindDue b }
    | none => s)

/-- The descriptor without payload of a frame in progress, ended now. -/
def RxRun.stub (r : RxRun) (b status now : Nat) : Descriptor :=
  { ts := r.ts, profile := r.profile, chan := r.chan, bind := b, status := status, rssi := r.rssi, snr := r.snr,
    foff := r.foff, corr := 0, payload := [], tsEnd := now, slot := r.slot, cells := r.cells }

/-- Frames in progress are cut and delivered as TRUNCATED (R144, R146, R152). -/
def truncateAll (d : Dev) (n : Fin 4) : Dev :=
  each (d.spn.get n).demods (fun d p =>
    let d := d.endRun n p.1
    if p.2.dropped then d else deliver d n (p.2.stub p.1 5 d.radioNow)) d

/-- Delay of the first unflagged sample after a synchronising reset, in ns (R147). -/
def settleNs (n : Fin 4) : Nat := if is24 n then 6800 else 39600

/-- The receive path delivers again: the samples blanked until now are flagged, and every later stage flags what its filter
window holds of them (R146; log 108). -/
def Spn.unblank (s : Spn) (n : Fin 4) (now : Nat) : Spn := { s with validFrom := max s.validFrom (now + settleNs n) }

/-- A synchronising reset of the receive path (R146). -/
def syncReset (d : Dev) (n : Fin 4) : Dev :=
  (truncateAll d n).modSpn n (fun s => { s with validFrom := d.whl.time + settleNs n })

/-! ## Calibration -/

/-- A full calibration becomes pending with a cause (R113). -/
def Spn.pendCal (s : Spn) (cause : Nat) : Spn := { s with calPend := true, calCause := cause }

/-- A blank in progress is abandoned: every kind keeps its old value (R121). -/
def Spn.abandonBlank (s : Spn) (pend : Bool) : Spn :=
  if s.blank then
    { s with blank := false, calOpen := [], calNew := [], calPend := s.calPend || pend || s.calWait, calPairs := 0,
             moved := s.moved || (pend && s.blankMoved) }
  else s

/-! ## Lost cells -/

/-- Changes the warp's counters of spindle `n` (R186). -/
def Dev.modCnt (d : Dev) (n : Fin 4) (f : WrpCnt → WrpCnt) : Dev :=
  d.modWrp (fun w => { w with cnt := w.cnt.set n (f (w.cnt.get n)) })

/-- `k` cells are counted as lost (R164, R121). -/
def countLost (d : Dev) (n : Fin 4) (c : Lost) (k : Nat) : Dev :=
  match c with
  | .resync => d.modCnt n (fun c => { c with resync := add32 c.resync k })
  | .conflict => d.modCnt n (fun c => { c with conflict := add32 c.conflict k })
  | .unbound => d.modCnt n (fun c => { c with unbound := add32 c.unbound k })
  | .cal => d.modSpn n (fun s => { s with lostCal := add32 s.lostCal k })
  | .hold => d.modSpn n (fun s => { s with lostHold := add32 s.lostHold k })
  | .inhibit => d.modSpn n (fun s => { s with lostInhibit := add32 s.lostInhibit k })
  | .cx => d.modSpn n (fun s => { s with lostCx := add32 s.lostCx k })
  | .txsyn => d.modSpn n (fun s => { s with lostTxsyn := add32 s.lostTxsyn k })
  | .uncounted => d

/-! ## Ending transmissions -/

/-- The record a transmission carried will not be sent again on this side (R84, R106, R112). -/
def loseRecord (d : Dev) (k : AirKind) : Dev :=
  match k with
  | .record r =>
    let f (a : Await) : Await := if a.r.hash = r.hash then { a with lost := true } else a
    d.modPly (fun p => { p with awaiting := p.awaiting.map f })
  | .beacon | .ack _ _ => d

/-- A transmission is dropped before it starts (R112), its cell being counted under `c`. -/
def dropTx (d : Dev) (n : Fin 4) (c : Lost) : Dev :=
  match (d.spn.get n).tx with
  | none => d
  | some t =>
    let d := loseRecord d t.kind
    let d := countLost d n c 1
    d.modSpn n (fun s =>
      ({ s with tx := none, nowTx := s.nowTx && t.cell.isNone }.syncWires).settle d.whl.time)

/-- MASK_MARGIN follows WORST of SPN_MASK, in 0.5 dB (R151). -/
def maskWatch (d : Dev) (n : Fin 4) : Dev :=
  let s := d.spn.get n
  let worst := if s.masks.length < 8 then 0xFF else s.masks.foldl min 0xFF
  watch d (evSpn n 17) 0 (decide (worst < 6)) (decide (8 ≤ worst)) []

/-- A mask margin joins the last eight (R151, R154). -/
def Spn.pushMask (s : Spn) (m : Nat) : Spn := { s with maskLast := m, masks := (m :: s.masks).take 8 }

/-- The last eight of a list of values add up to this, none before there are eight (R116). -/
def sumEight (l : List Nat) : Option Nat := if l.length < 8 then none else some ((l.take 8).foldl (· + ·) 0)

/-- A return loss joins the last eight, and VSWR_WARN follows their mean (R116, R118). -/
def pushRl (d : Dev) (n : Fin 4) (rl : Nat) : Dev :=
  let d := d.modSpn n (fun s => { s with rlLast := rl, rls := (rl :: s.rls).take 8 })
  match sumEight (d.spn.get n).rls with
  | some k => watch d (evSpn n 3) 0 (decide (k < 760)) (decide (872 ≤ k)) []
  | none => d

/-- One transmission more for the tuner: after eight, the change on trial is kept or returned (R117). -/
def Spn.tuneCount (s : Spn) : Spn :=
  let s := { s with tuneWait := min 8 (s.tuneWait + 1) }
  match s.tuneTrial, sumEight s.rls with
  | some (cs, cp, before), some k =>
    if s.tuneWait = 8 then
      (if before + 16 ≤ k then { s with tuneTrial := none } else { s with tuneTrial := none, tuneRevert := some (cs, cp) })
    else s
  | _, _ => s

/-- The return loss of a transmission that ends now is measured (R116): `rl`, or a free value (log 109). -/
def measureRl (d : Dev) (n : Fin 4) (rl : Option Nat) : Dev :=
  match rl with
  | some k => (pushRl d n k).modSpn n Spn.tuneCount
  | none => let (v, d) := d.draw; (pushRl d n (v.toNat % 65535)).modSpn n Spn.tuneCount

/-- A transmission that has passed its grant sample point is aborted: the reverse sequence of R106 begins now and the
abort is counted once; where it had started, its return loss up to now is measured (R116), `rl` or, where the command
carries none, a free value (log 109). One that has not is dropped under `c`; one that has ended is left. -/
def abortTx (d : Dev) (n : Fin 4) (c : Lost) (rl : Option Nat) : Dev :=
  match (d.spn.get n).tx with
  | none => d
  | some t =>
    if t.ended.isSome then d
    else if t.granted then
      let d := loseRecord d t.kind
      let d := d.modSpn n (fun s =>
        ({ s with tx := some { t with ended := some d.whl.time, aborted := true },
                  txAbort := inc32 s.txAbort }.pushMask 0).syncWires)
      maskWatch (if t.started then measureRl d n rl else d) n
    else dropTx d n c

/-! ## Targets acted on -/

/-- The effective target is acted on now (R95, R96, R121). -/
def actTarget (d : Dev) (n : Fin 4) : Dev :=
  let t := effTarget d n
  let s := d.spn.get n
  if t = s.eff then d.modSpn n (fun s => s.settle d.whl.time)
  else
    let d := if t < 2 then abortTx d n .uncounted none else d
    let d := if t < 2 then truncateAll d n else d
    d.modSpn n (fun s =>
      let s := { s with eff := t }
      let s := if t < 2 then s.abandonBlank (t == 1) else s
      let s := match s.trans with
        | some (.rx, _) | some (.synth, _) => if t < 2 then { s with trans := none } else s
        | some (.sleep, _) => if 0 < t then { s with trans := none } else s
        | some (.standby, _) | some (.tx, _) | none => s
      (s.settle d.whl.time).syncWires)

/-- A change of effective target takes effect at once where no cell is served in the present slot, and otherwise waits
for the next tick strobe (R95). -/
def retarget (d : Dev) (n : Fin 4) : Dev := if (d.spn.get n).servesNow then d else actTarget d n

/-- Every spindle is brought to STANDBY at once, transmissions being aborted (R271, R285). -/
def allToStandby (d : Dev) : Dev :=
  let d := d.modPly (fun p => { p with quiet := true })
  each spindles (fun d n => (actTarget d n).modSpn n (fun s =>
    { s with nowRx := [], heldRx := [], nowTx := false, nowPlan := none, planRx := [], planTx := none })) d

/-! ## Holds -/

/-- A hold takes effect now and its thread is done (R119). -/
def holdOn (d : Dev) (n : Fin 4) (th dur : Nat) : Dev :=
  let now := d.whl.time
  let until_ := if dur = 0xFFFF then none else some (now + dur * d.whl.periodNs)
  let d := truncateAll d n
  let d := d.modSpn n (fun s =>
    let s := { s with hold := some ⟨now, until_⟩, holdPend := none }
    let s := if s.mode = .rx then { s with mode := .synth } else s
    (match s.trans with | some (.rx, _) => { s with trans := none } | _ => s).syncWires)
  finish (report d (evSpn n 7) []) th .ok (octets 8 now)

/-- A hold in force ends (R119, R120): HOLD_OFF, the spindle is free for RX, and receive cells of the slot whose window
started in the hold are served. -/
def holdOff (d : Dev) (n : Fin 4) : Dev :=
  let d := d.modSpn n (fun s =>
    ({ s with hold := none, nowRx := s.nowRx ++ (if s.holdTail = d.whl.tickK then [] else s.heldRx), heldRx := [] }.settle
      d.whl.time).syncWires)
  report d (evSpn n 8) []

/-- A pending hold never takes effect: its command is done with CANCELLED (R119). -/
def cancelHold (d : Dev) (n : Fin 4) : Dev :=
  match (d.spn.get n).holdPend with
  | none => d
  | some (th, _) =>
    let d := d.modSpn n (fun s => { s with holdPend := none })
    finish (d.modThread th (fun t => if t.st = .done then t else { t with started := false })) th .cancelled (octets 8 d.whl.time)

/-! ## Waveforms -/

/-- Occupied bandwidth in kHz (R130). -/
def waveB (w : Nat) : Nat :=
  match w with
  | 1 => 100 | 2 => 200 | 3 => 225 | 4 => 3000 | 5 => 32 | 6 => 375
  | _ => 0

/-- A waveform of R130. -/
def waveOk (w : Nat) : Bool := decide (1 ≤ w) && decide (w ≤ 6)

/-- Largest PSDU of a waveform, in octets (R130). -/
def wavePsdu (w : Nat) : Nat := if w = 4 then 127 else if w = 5 ∨ w = 6 then 1280 else 2047

/-- The waveform suits the band of the spindle (R130). -/
def waveSuits (n : Fin 4) (w : Nat) : Bool := if is24 n then w == 4 else waveOk w && w != 4

/-- Profile `j` of the REGION record. -/
def Region.profile? (r : Region) (j : Nat) : Option Profile := r.profiles[j]?

/-- FEC, RSC, 2-octet FCS and FD3200 options of a profile (R153). -/
def Profile.fec (p : Profile) : Bool := p.opts.getLsbD 7
def Profile.rsc (p : Profile) : Bool := p.opts.getLsbD 6
def Profile.fcs2 (p : Profile) : Bool := p.opts.getLsbD 5
def Profile.fd3200 (p : Profile) : Bool := p.opts.getLsbD 2

/-- FCS octets of a frame under a profile (R131 to R133). -/
def Profile.fcsLen (p : Profile) : Nat := if p.wave = 4 ∨ p.fcs2 then 2 else 4

/-- Ramp time r in ns (R105, R150). -/
def Profile.rampNs (p : Profile) : Nat := if p.fd3200 then p.ramp * 1000 else 15000

/-- Nominal centre of channel `c` in kHz (R127). -/
def Profile.fch (p : Profile) (c : Nat) : Nat := p.f0 + c * p.spacing

/-- Parity octets per payload codeword and the largest K of a native waveform (R135). -/
def nativeParity (w : Nat) : Nat := if w = 5 then 32 else 16
def nativeKmax (w : Nat) : Nat := if w = 5 then 223 else 239

/-- Coded payload octets N' of a native PSDU of `l` octets (R136). -/
def nativeLen (w l : Nat) : Nat :=
  let nb := (l + nativeKmax w - 1) / nativeKmax w
  8 * ((l + nativeParity w * nb + 7) / 8)

/-- Symbol or bit time of a waveform in thirds of a ns (R130): two bits a symbol in the native waveforms, four in
O-QPSK. -/
def bitThirds (w : Nat) : Nat :=
  match w with
  | 1 => 60000 | 2 => 30000 | 3 => 20000 | 4 => 12000 | 5 => 120000 | _ => 10000

/-- SUN FSK bits on air of PHR and PSDU: with FEC, rate 1/2 over both with the tail and the padding to whole
interleaver blocks (R131, R166; log 10). -/
def fskBits (fec : Bool) (l : Nat) : Nat :=
  let b := 16 + 8 * l
  if fec then let u := b + 3; 2 * (16 * ((u + 15) / 16)) else b

/-- Airtime in ns of a frame with a PSDU of `l` octets (R139, R166). -/
def Profile.airNs (p : Profile) (l : Nat) : Nat :=
  let bits :=
    if p.wave = 5 ∨ p.wave = 6 then (p.pre + 4 + 12 + nativeLen p.wave l) * 8
    else if p.wave = 4 then (4 + 1 + 1 + l) * 8
    else p.pre * 8 + 16 + fskBits p.fec l
  (bits * bitThirds p.wave + 2) / 3

/-- Nominal duration in ns of the preamble and the sync word or SFD (R141). -/
def Profile.syncNs (p : Profile) : Nat :=
  let bits := if p.wave = 5 ∨ p.wave = 6 then (p.pre + 4) * 8 else if p.wave = 4 then 40 else p.pre * 8 + 16
  (bits * bitThirds p.wave + 2) / 3

/-- Channel `c` of profile `p` is usable on spindle `n` whose window is centred on `window` × 50 kHz (R128). -/
def usable (n : Fin 4) (window : Nat) (p : Profile) (c : Nat) : Bool :=
  let f := 2 * (p.fch c : Int)
  let b : Int := waveB p.wave
  let centre := 2 * ((window * 50 : Nat) : Int)
  waveSuits n p.wave &&
    if is24 n then decide (4800000 + b ≤ f) && decide (f ≤ 4967000 - b)
    else decide (Int.ofNat (f - centre).natAbs + b ≤ 30000)

/-- The checks of R129 on a set of bindings under a window. -/
def bindsOk (n : Fin 4) (r : Region) (window : Nat) (binds : KMap Bind) : Bool :=
  let on := binds.filter (fun p => p.2.en)
  on.all (fun q =>
    match r.profile? q.2.profile with
    | none => false
    | some p => decide (q.2.chan < p.nchan) && usable n window p q.2.chan)
  && noRepeats (on.map (fun q => (q.2.profile, q.2.chan)))

/-! ## Resynchronisation -/

/-- The bobbins of spindle `n` that R22 flushes are emptied; see `flushBobbin`. -/
def resyncBobbins (n : Fin 4) : List Nat := [n.val, 4 + n.val, 12 + n.val]

end Sys2Proof.Machine
end

