-- ==== Sys2Proof/Machine/DistaffOps.lean ====
section
/-! DEFINITION. The distaff's shared operations: attribute words and their consistency (R299, R300), the check of an
invocation (R301), the halves and the commit words (R304 to R306), erasure (R313), shares (R302), derivation and its
cache (R314 to R316), measurement (R318), and the quote (R319). -/

namespace Sys2Proof.Machine

/-! ## Attribute words -/

/-- Attribute words of skeins 0 and 1, as created at manufacture (R298). -/
def attrRoot (s : Nat) : Word := if s = 0 then 0x97E00200 else 0x97D00300

/-- The attribute word of skein `s` as DST_ATTRs shows it (R299). -/
def skeinAttr (d : Dev) (s : Nat) : Word :=
  if s < 2 then attrRoot s else match kfind d.dst.skeins s with | some k => k.attr | none => 0

/-- TYPE of an attribute word. -/
def attrType (a : Word) : Nat := fld a 11 8

/-- USE bits of an attribute word: WRAP 21, SIGN 20, MAC 19, DECRYPT 18, ENCRYPT 17, DERIVE 16 (R299). -/
def useWrap : Nat := 21
def useSign : Nat := 20
def useDecrypt : Nat := 18
def useEncrypt : Nat := 17
def useDerive : Nat := 16

/-- MASTER bits: recovery ROM 31, loom crypto 30, link crypto 29, CCP engine 28 (R299). -/
def masterRom : Nat := 31
def masterLoom : Nat := 30
def masterLink : Nat := 29
def masterCcp : Nat := 28

/-- Consistency of an attribute word (R300): EXPORT 0; TYPE known; SIGN alone with TYPE 0x3 and with it only; WRAP
only with TYPE 0x2; DERIVE, ENCRYPT, DECRYPT and MAC only with TYPE 0x1 or 0x2. -/
def attrConsistent (a : Word) : Bool :=
  let t := attrType a
  let aes := t == 1 || t == 2
  !bit a 15 && decide (t ≤ 3)
    && (if t = 3 then decide (fld a 21 16 = 0b010000) else !bit a useSign)
    && (t == 2 || !bit a useWrap)
    && (aes || (!bit a 16 && !bit a 17 && !bit a 18 && !bit a 19))

/-- The bit of LIFECYCLE for life-cycle state `l` (R299). -/
def lifeBit (l : Nat) : Nat := 21 + l

/-- The word lets a caller of R299 invoke the skein for every one of `uses` in the present life-cycle state. -/
def attrAllows (a : Word) (master : Nat) (uses : List Nat) (life : Nat) : Bool :=
  bit a master && uses.all (fun u => bit a u) && bit a (lifeBit life)

/-- DISABLED of skein `s`. -/
def skeinDisabled (d : Dev) (s : Nat) : Bool :=
  d.dst.dead.contains s || (match kfind d.dst.skeins s with | some k => k.disabled | none => false)

/-- A refused invocation: counted, and reported at most once per skein per second (R301). -/
def refuseKey (d : Dev) (s : Nat) : Dev :=
  let d := d.modDst (fun x => { x with attrRefuse := inc32 x.attrRefuse })
  let recent := match kfind d.dst.refusedAt s with | some t => decide (d.glb.upNs < t + 1000000000) | none => false
  if recent then d
  else report (d.modDst (fun x => { x with refusedAt := kput x.refusedAt s d.glb.upNs })) evKeyRefused []

/-- The check of R301 on an invocation of skein `s`: the answer, and the device after a refusal. Every caller modelled
makes secure requests, so WORLD refuses none. -/
def invoke (d : Dev) (s master use : Nat) : Bool × Dev :=
  let ok := attrAllows (skeinAttr d s) master [use] d.pra.lifecycle && !skeinDisabled d s
  if ok then (true, d) else (false, refuseKey d s)

/-! ## Commit words and halves -/

/-- The word of skein `s`'s commit (R60, R305). -/
def commitWord (s : Nat) : Nat := 0x20 + s

/-- HALF and GEN of a commit word. -/
def commitHalf (w : Word) : Nat := fld w 31 30
def commitGen (w : Word) : Nat := fld w 23 0

/-- The half that a HALF code names, and the other. -/
def Dst.halfOf (x : Dst) (code s : Nat) : Option Half := kfind (if code = 1 then x.halfA else x.halfB) s
def Dst.otherOf (x : Dst) (code s : Nat) : Option Half := kfind (if code = 1 then x.halfB else x.halfA) s

/-- The half that a HALF code names takes a record. -/
def Dst.putHalf (x : Dst) (code s : Nat) (h : Half) : Dst :=
  if code = 1 then { x with halfA := kput x.halfA s h } else { x with halfB := kput x.halfB s h }

/-- The half that a HALF code names is emptied. -/
def Dst.dropHalf (x : Dst) (code s : Nat) : Dst :=
  if code = 1 then { x with halfA := kdel x.halfA s } else { x with halfB := kdel x.halfB s }

/-- PREV of DST_SKs: the other half is intact and holds GEN − 1 (R315, R321). -/
def skeinPrev (d : Dev) (s : Nat) : Bool :=
  let c := d.pra.word (commitWord s)
  decide (2 ≤ s) && (commitHalf c == 1 || commitHalf c == 2) &&
    match d.dst.otherOf (commitHalf c) s with
    | some h => h.intact && h.gen + 1 == commitGen c
    | none => false

/-- A skein is disabled for a cause (R306, R313, R360). -/
def disableSkein (d : Dev) (s cause : Nat) : Dev :=
  let d := d.modDst (fun x =>
    match kfind x.skeins s with
    | some k => { x with skeins := kput x.skeins s { k with disabled := true } }
    | none => if x.dead.contains s then x else { x with dead := s :: x.dead })
  report d evSkeinDisabled (octets 1 s ++ octets 1 cause)

/-- A key as two shares under the next mask (R302). -/
def splitKey (d : Dev) (key : List Byte) : List Byte × List Byte × Dev :=
  let (m, d) := d.draw
  let (m', d) := d.draw
  let mask := fitTo key.length (octets 32 m.toNat ++ octets 32 m'.toNat)
  (List.zipWith (· ^^^ ·) key mask, mask, d)

/-- The key that two shares hold (R302). -/
def joinShares (a b : List Byte) : List Byte := List.zipWith (· ^^^ ·) a b

/-- The key of skein `s`. -/
def skeinKey (d : Dev) (s : Nat) : List Byte :=
  if s < 2 then (let k := kgetD d.dst.root s ([], []); joinShares k.1 k.2) else match kfind d.dst.skeins s with | some k => joinShares k.s0 k.s1 | none => []

/-- A half is loaded into working use as two shares (R306, R310). -/
def loadHalf (d : Dev) (s : Nat) (h : Half) : Dev :=
  let (s0, s1, d) := splitKey d h.key
  let k : Skein := { attr := h.attr, gen := h.gen, district := h.district, s0 := s0, s1 := s1 }
  d.modDst (fun x => { x with skeins := kput x.skeins s k, dead := x.dead.filter (· != s) })

/-- One skein at a start (R306). A half never written is empty, and nothing is discarded for it (log 122). -/
def loadSkein (d : Dev) (s : Nat) : Dev :=
  let c := d.pra.word (commitWord s)
  let code := commitHalf c
  if code = 0 then d
  else if code = 3 then disableSkein d s 1
  else
    let d := match d.dst.halfOf code s with
      | some h =>
        if h.intact ∧ h.skein = s ∧ h.gen = commitGen c then loadHalf d s h else disableSkein d s 2
      | none => disableSkein d s 2
    match d.dst.otherOf code s with
    | some o =>
      if o.intact = false ∨ commitGen c < o.gen then
        report (d.modDst (fun x => x.dropHalf (3 - code) s)) evKeyHalfDiscard []
      else d
    | none => d

/-- Cached keys of a skein are removed (R310, R312, R316). -/
def dropCache (d : Dev) (s : Nat) : Dev :=
  d.modDst (fun x => { x with cache := x.cache.filter (fun e => e.skein != s) })

/-- Erasure of a skein (R313): both halves zeroed, then the commit word, unless its bucket is empty; then the skein
reads DISABLED. -/
def eraseSkein (d : Dev) (s : Nat) (verifyOk : Bool) : Dev × Status :=
  let d := d.modDst (fun x => { (x.dropHalf 1 s).dropHalf 2 s with
    skeins := kdel x.skeins s, dead := x.dead.filter (· != s) })
  let d := praDue (dropCache d s)
  let w := commitWord s
  let (d, st) := if d.pra.tokens w = 0 then (d, Status.ok) else praFinish d w 0 verifyOk
  let d := if d.pra.word w = 0 then d
    else d.modDst (fun x => { x with dead := s :: x.dead })
  (report d evSkeinDisabled (octets 1 s ++ octets 1 3), st)

/-- The operator skeins. -/
def operatorSkeins : List Nat := (List.range 254).map (· + 2)

/-! ## Derivation -/

/-- CACHE_HIGH follows the last 4,096 derivation requests (R322). -/
def cacheWatch (d : Dev) : Dev :=
  let k := (d.dst.misses.filter id).length
  watch d evCacheHigh 0 (decide (512 < k)) (decide (k ≤ 256)) []

/-- The 27-octet input of the KDF (R314). -/
def kdfInput (district : BitVec 16) (eui : BitVec 64) (gen : Nat) : List Byte :=
  octets 4 1 ++ octets 4 0x4C494E4B ++ octets 1 0 ++ octets 2 district.toNat ++ octets 8 eui.toNat ++ octets 4 gen
    ++ octets 4 0x80

/-- The key of a generation of a skein that R315 accepts: the one in force, or the previous one in the other half. -/
def genKey (d : Dev) (s gen : Nat) : List Byte :=
  match kfind d.dst.skeins s with
  | some k => if k.gen = gen then joinShares k.s0 k.s1
    else match d.dst.otherOf (commitHalf (d.pra.word (commitWord s))) s with | some h => h.key | none => []
  | none => []

/-- A derivation request (R314, R316): a hit moves the entry to the front; a miss derives the key and puts it in front,
the least recently used entry leaving a full cache. -/
def deriveKey (d : Dev) (s : Nat) (eui : BitVec 64) (gen : Nat) : Dev :=
  let same (e : Derived) : Bool := e.skein == s && e.eui == eui && e.gen == gen
  let d := d.modDst (fun x => { x with derive_ := inc32 x.derive_ })
  match d.dst.cache.find? same with
  | some e =>
    let rest := d.dst.cache.filter (fun x => !same x)
    cacheWatch (d.modDst (fun x => { x with cache := e :: rest, misses := (false :: x.misses).take 4096 }))
  | none =>
    let district := match kfind d.dst.skeins s with | some k => k.district | none => 0
    let key := Config.kdf (genKey d s gen) (kdfInput district eui gen)
    let (m, d) := d.draw
    let mask := m.setWidth 128
    let e : Derived := { skein := s, eui := eui, gen := gen, s0 := key ^^^ mask, s1 := mask }
    cacheWatch (d.modDst (fun x =>
      { x with cache := (e :: x.cache).take 4096, cacheMiss := inc32 x.cacheMiss,
               misses := (true :: x.misses).take 4096 }))

/-- A district skein may derive for link crypto (R314). -/
def Skein.isDistrict (k : Skein) : Bool := bit k.attr useDerive && bit k.attr masterLink

/-- The district skein of district `D`: the lowest operator skein of that DISTRICT (R314, R315). -/
def districtSkein? (d : Dev) (district : BitVec 16) : Option Nat :=
  ((d.dst.skeins.filter (fun p => p.2.district == district && p.2.isDistrict)).map (·.1)).head?

/-- Key Index of a generation (R315). -/
def keyIndex (gen : Nat) : Nat := gen % 255 + 1

/-! ## Measurement and quotes -/

/-- Digest `i` is extended by an item whose SHA-384 is given (R318), unless the digests are locked. -/
def extendMd (d : Dev) (i : Nat) (item : BitVec 384) : Dev :=
  if d.dst.mdLocked then d
  else d.modDst (fun x =>
    { x with md := x.md.set i (Config.sha384 (octets 48 (x.md.getD i 0).toNat ++ octets 48 item.toNat)) })

/-- Digest `i` is extended by octets (R318). -/
def extendMdBy (d : Dev) (i : Nat) (l : List Byte) : Dev := extendMd d i (Config.sha384 l)

/-- The QUOTE_RESP body without its signature (R319). -/
def quoteBody (d : Dev) (nonce : BitVec 256) : List Byte :=
  octets 1 1 ++ octets 1 (b2n (!d.start.configured)) ++ octets 2 0 ++ octets 8 d.glb.eui.toNat
    ++ octets 4 (d.pra.word 1).toNat ++ octets 4 (d.pra.word 2).toNat ++ octets 4 d.ccp.boot.toNat
    ++ octets 32 nonce.toNat ++ (d.dst.md.map (fun m => octets 48 m.toNat)).flatten

/-- The signature by skein 1 (R319; log 7). -/
def quoteSig (d : Dev) (body : List Byte) : BitVec 768 := Config.sign (skeinKey d 1) body

/-- Fewer than 20 quotes have been signed in the last second (R319). -/
def quoteRoom (d : Dev) : Bool :=
  decide ((d.dst.quotes.filter (fun t => decide (d.glb.upNs < t + 1000000000))).length < 20)

/-- A quote is signed now: its instant is kept. -/
def quoteStamp (d : Dev) : Dev := d.modDst (fun x => { x with quotes := (d.glb.upNs :: x.quotes).take 20 })

/-- A quote request beyond the limit (R319). -/
def quoteDrop (d : Dev) : Dev :=
  report (d.modDst (fun x => { x with quoteDrop := inc32 x.quoteDrop })) evQuoteLimit []

/-- The KCV of a key of a TYPE (R308). -/
def keyKcv (type : Nat) (key : List Byte) : List Byte :=
  if type = 3 then (octets 48 (Config.sha384 (octets 96 (Config.publicPoint key).toNat)).toNat).take 8
  else octets 8 (Config.kcv key).toNat

end Sys2Proof.Machine
end

