-- ==== Sys2Proof/Machine/Wire.lean ====
section
/-! DEFINITION. Octets of what the device sends and receives: IPv6 datagrams (R176, R188, R218, R219), RPL messages (R169),
THROW and CANCEL messages (R176), enhanced beacons (R168) and MAC frames (R167, R171, R315). Where a cited standard gives a
layout and the manual only its fields, the layout is the standard's (log 111). -/

namespace Sys2Proof.Machine

/-- `n` octets of a number, least significant first, as IEEE 802.15.4 orders its fields (R6). -/
def octetsLe (n v : Nat) : List Byte := (octets n v).reverse

/-! ## IPv6 -/

/-- The Internet checksum of octets. -/
def checksum : List Byte → Nat → Nat
  | a :: b :: l, s => checksum l (s + a.toNat * 256 + b.toNat)
  | [a], s => checksum [] (s + a.toNat * 256)
  | [], s => 65535 - ((s % 65536 + s / 65536) % 65536 + (s % 65536 + s / 65536) / 65536) % 65536

/-- The checksum over the pseudo-header and the octets of an upper-layer message. -/
def upperSum (src dst : BitVec 128) (next : Nat) (l : List Byte) : Nat :=
  checksum (octets 16 src.toNat ++ octets 16 dst.toNat ++ octets 4 l.length ++ octets 4 next ++ l) 0

/-- An IPv6 packet: traffic class, flow label, next header, hop limit, addresses, and what it carries. -/
def ipv6 (tc flow next hop : Nat) (src dst : BitVec 128) (body : List Byte) : List Byte :=
  octets 4 (6 * 2 ^ 28 + tc % 256 * 2 ^ 20 + flow % 2 ^ 20) ++ octets 2 body.length ++ octets 1 next ++ octets 1 hop
    ++ octets 16 src.toNat ++ octets 16 dst.toNat ++ body

/-- A UDP datagram with its checksum. -/
def udp (src dst : BitVec 128) (sport dport : Nat) (data : List Byte) : List Byte :=
  let head := octets 2 sport ++ octets 2 dport ++ octets 2 (8 + data.length)
  let sum := upperSum src dst 17 (head ++ [0, 0] ++ data)
  head ++ octets 2 (if sum = 0 then 65535 else sum) ++ data

/-- An IPv6 packet that holds a UDP datagram. -/
def udpPacket (src dst : BitVec 128) (sport dport hop : Nat) (data : List Byte) : List Byte :=
  ipv6 0 0 17 hop src dst (udp src dst sport dport data)

/-- An IPv6 packet that holds an ICMPv6 message of a type and code. -/
def icmpPacket (src dst : BitVec 128) (hop type code : Nat) (body : List Byte) : List Byte :=
  let sum := upperSum src dst 58 (octets 1 type ++ octets 1 code ++ [0, 0] ++ body)
  ipv6 0 0 58 hop src dst (octets 1 type ++ octets 1 code ++ octets 2 sum ++ body)

/-- The octets of a packet of the shuttle: its header, its ports where it is UDP, and its data. -/
def packetOctets (p : Packet) : List Byte :=
  let body := if p.nextHdr = 17 ∧ p.frag = false then udp p.src p.dst p.sport.toNat p.dport.toNat p.data else p.data
  ipv6 (p.dscp.toNat * 4 + p.ecn.toNat) p.flow.toNat p.nextHdr.toNat p.hop p.src p.dst body

/-! ## Addresses (R265) -/

/-- The interface identifier formed from an EUI-64, universal/local bit inverted (R265). -/
def ifaceId (eui : BitVec 64) : BitVec 64 := eui ^^^ 0x0200000000000000

/-- The address of a node (R265). -/
def nodeAddr (d : Dev) (eui : BitVec 64) : BitVec 128 := d.ply.meshPrefix ++ ifaceId eui

/-- The link-local address formed from an EUI-64, the device's own one, and the mesh address (R265). -/
def linkLocalOf (iface : BitVec 64) : BitVec 128 := (0xFE80000000000000 : BitVec 64) ++ iface
def linkLocal (d : Dev) : BitVec 128 := linkLocalOf (ifaceId d.glb.eui)
def meshAddr (d : Dev) : BitVec 128 := d.ply.meshPrefix ++ (1 : BitVec 64)

/-- The EUI-64 under which both sides of a ply send to the mesh: that of the mesh address's interface identifier, so that
their frames are alike (R150, R265; log 112). -/
def meshEui : BitVec 64 := ifaceId 1

/-! ## Throws (R176) -/

/-- The payload of a THROW, and of a CANCEL, which is its first eight octets. -/
def throwHead (type id group : Nat) : List Byte := octets 1 type ++ octets 1 1 ++ octets 2 id ++ octets 2 group ++ octets 2 0
def throwMessage (d : Dev) (id group at_ : Nat) (action : List Byte) : List Byte :=
  let asn := (d.whl.slotAt at_ % (2 ^ 40 : Nat)).toNat
  throwHead 1 id group ++ octets 5 asn ++ octets 3 0 ++ octets 4 (d.whl.slotPosAt at_) ++ octets 2 action.length
    ++ octets 2 0 ++ action
def cancelMessage (id group : Nat) : List Byte := throwHead 3 id group

/-- FF03::1, to which throws go. -/
def throwGroup : BitVec 128 := 0xFF030000000000000000000000000001

/-- The packet of a THROW or CANCEL (R176). -/
def throwPacket (d : Dev) (data : List Byte) : List Byte := udpPacket (meshAddr d) throwGroup 47601 47601 8 data

/-! ## RPL (R169) -/

/-- Fields of settings word 0x0480 (R185). -/
def rplInstance (d : Dev) : Nat := fRplInstance.get d.pra
def rplOcp (d : Dev) : Nat := fOcp.get d.pra
def minHopRank (d : Dev) : Nat := fMinHopRank.get d.pra

/-- The DIO message (R169): instance, root rank, MOP 1, DODAGID, and the DODAG configuration. -/
def dioBody (d : Dev) : List Byte :=
  let rank := minHopRank d
  octets 1 (rplInstance d) ++ octets 1 Config.rplVersion ++ octets 2 rank ++ octets 1 (1 * 8) ++ octets 1 0 ++ octets 2 0
    ++ octets 16 (meshAddr d).toNat
    ++ octets 1 4 ++ octets 1 14 ++ octets 1 0 ++ octets 1 (fDioDoublings.get d.pra) ++ octets 1 (fDioMin.get d.pra)
    ++ octets 1 (fDioRedundancy.get d.pra) ++ octets 2 0 ++ octets 2 rank ++ octets 2 (rplOcp d) ++ octets 1 0 ++ octets 1 0
    ++ octets 2 0

/-- The packet of a DIO to the mesh's RPL nodes or to one node, and of a DAO-ACK (R169). -/
def dioPacket (d : Dev) (eui : Option (BitVec 64)) : List Byte :=
  let dst := match eui with | some u => linkLocalOf (ifaceId u) | none => 0xFF02000000000000000000000000001A
  icmpPacket (linkLocalOf 1) dst 255 155 1 (dioBody d)
def daoAckPacket (d : Dev) (eui : BitVec 64) (seq : BitVec 8) : List Byte :=
  icmpPacket (meshAddr d) (nodeAddr d eui) 64 155 3 (octets 1 (rplInstance d) ++ octets 1 0 ++ octets 1 seq.toNat ++ octets 1 0)

/-! ## Enhanced beacons (R168) -/

/-- A short and a long nested IE of the MLME payload IE. -/
def shortIe (id : Nat) (l : List Byte) : List Byte := octetsLe 2 (l.length + id * 256) ++ l
def longIe (id : Nat) (l : List Byte) : List Byte := octetsLe 2 (l.length + id * 2048 + 32768) ++ l

/-- Link options of a cell TYPE (R159, R167): Tx, Rx, Shared, and Timekeeping, which every cell has. -/
def linkOptions (type : Nat) : Nat :=
  match type with
  | 0 => 0b1001
  | 1 => 0b1010
  | _ => 0b1111

/-- The IEs of a beacon of spindle `n` in slot `asn` under slotframe `h` (R168). -/
def beaconIes (d : Dev) (n : Fin 4) (h asn : Nat) : List Byte :=
  let w := d.wrp
  let us (v : Nat) : List Byte := octetsLe 2 v
  let t := sfHop (w.sfAt n h asn)
  let hop := (List.range (w.hlen t)).map (w.hop t)
  let links := ((w.cells.get n).map (·.2)).filter (fun c =>
    cellSf c == h && (cellType c == 3 || (cellType c == 2 && cellBcast c)))
  let sync := shortIe 0x1A (octetsLe 5 asn ++ [0])
  let slot := shortIe 0x1C ([1] ++ us (w.txoff - 320) ++ us 128 ++ us w.txoff ++ us (w.txoff - w.sel)
    ++ us (w.txAckDelay - w.ackWait / 2) ++ us w.txAckDelay ++ us (2 * w.sel) ++ us w.ackWait ++ us 120 ++ us 2400
    ++ us (d.whl.period * 10 - w.txoff - 500) ++ us (d.whl.period * 10))
  let hopping := longIe 0x9 ([BitVec.ofNat 8 t] ++ us hop.length ++ (hop.map us).flatten)
  let frame := shortIe 0x1B ([1, BitVec.ofNat 8 h] ++ us (sfLen (w.sfAt n h asn)) ++ octets 1 links.length
    ++ (links.map (fun c => us (cellSlot c) ++ us (cellChoff c) ++ octets 1 (linkOptions (cellType c)))).flatten)
  let nested := sync ++ slot ++ hopping ++ frame
  octetsLe 2 (nested.length + 1 * 2048 + 32768) ++ nested

/-! ## MAC frames (R167, R315) -/

/-- The frame control field: type, security, acknowledgement request, sequence number suppressed, IEs present, frame version
0b10, extended source address, and the destination's addressing mode. -/
def frameControl (type : Nat) (ack seqOff ies : Bool) (dstMode : Nat) : List Byte :=
  octetsLe 2 (type + 8 + b2n ack * 32 + 64 + b2n seqOff * 256 + b2n ies * 512 + dstMode * 1024 + 2 * 4096 + 3 * 16384)

/-- The auxiliary security header that the device sends (R315): level 5, Key Identifier Mode 2, D and the Key Index; a frame
without a frame counter takes the ASN in its place. -/
def auxHeader (fc : Option Nat) (district index : Nat) : List Byte :=
  (match fc with
    | some k => octets 1 (5 + 2 * 8) ++ octetsLe 4 k
    | none => octets 1 (5 + 2 * 8 + 32 + 64))
    ++ octets 2 district ++ octets 2 0 ++ octets 1 index

/-- The ACK/NACK Time Correction IE, a header IE with a signed 12-bit number of µs (R171). -/
def timeCorrIe (tc : Int) : List Byte := octetsLe 2 (2 + 0x1E * 128) ++ octetsLe 2 (toTwos 12 tc)

/-- What a MAC frame that the device sends says; one to no single node has no key that the manual names (log 129). -/
structure MacFrame where
  /-- 0 beacon, 1 data, 2 acknowledgement -/
  type : Nat
  ack : Bool := false
  /-- the destination's EUI-64; none for a beacon or a broadcast -/
  dst : Option (BitVec 64)
  dsn : Option Nat := none
  fc : Option Nat := none
  district : Nat := 0
  gen : Nat := 0
  key : Option (BitVec 128) := none
  headerIes : List Byte := []
  payloadIes : List Byte := []
  payload : List Byte := []

/-- The octets of a frame before its protected text: frame control with version 0b10 and PAN ID compression, DSN, addresses (the
broadcast ones follow the broadcast PAN ID), auxiliary security header, header IEs. -/
def MacFrame.head_ (m : MacFrame) : List Byte :=
  let ies := !m.headerIes.isEmpty || !m.payloadIes.isEmpty
  let dst := match m.dst with
    | some u => octetsLe 8 u.toNat
    | none => if m.type = 0 then [] else List.replicate 4 0xFF
  let mode := if m.dst.isSome then 3 else if m.type = 0 then 0 else 2
  frameControl m.type m.ack m.dsn.isNone ies mode
    ++ (match m.dsn with | some k => octets 1 k | none => []) ++ dst ++ octetsLe 8 meshEui.toNat
    ++ auxHeader m.fc m.district (keyIndex m.gen) ++ m.headerIes
    ++ (if m.payloadIes.isEmpty then [] else octetsLe 2 (0x7E * 128))

/-- The text of a frame: payload IEs and their terminator, then the payload. -/
def MacFrame.text (m : MacFrame) : List Byte :=
  (if m.payloadIes.isEmpty then [] else m.payloadIes ++ (if m.payload.isEmpty then [] else octetsLe 2 (15 * 2048 + 32768))) ++ m.payload

/-- PSDU octets of a frame without its FCS: ENC-MIC-32 adds four octets to head and text (R315). -/
def MacFrame.size (m : MacFrame) : Nat := m.head_.length + m.text.length + 4

/-- A MAC frame sent in slot `asn`, without its FCS, protected by CCM* (R315; log 7). -/
def MacFrame.octets_ (m : MacFrame) (asn : Nat) : List Byte :=
  m.head_ ++ fitTo (m.text.length + 4) (Config.ccm m.key meshEui asn m.fc m.head_ m.text)

/-- The link key of a node under a generation of its district's skein, which enters CCM* (R314). -/
def linkKeyOf (d : Dev) (eui : BitVec 64) (district : BitVec 16) (gen : Nat) : Option (BitVec 128) :=
  (districtSkein? d district).map (fun s => Config.kdf (genKey d s gen) (kdfInput district eui gen))

/-- GEN of the skein of a district (R315). -/
def districtGen (d : Dev) (district : BitVec 16) : Nat :=
  match districtSkein? d district with
  | some s => (match kfind d.dst.skeins s with | some k => k.gen | none => 0)
  | none => 0

/-- The frame of a record (R171, R277, R315): a correction frame carries its IE and no payload. -/
def recFrame (d : Dev) (r : DownRec) : MacFrame :=
  let corr : Bool := match r.kind with | .correction _ => true | _ => false
  let base : MacFrame :=
    { type := 1, ack := r.ackReq, dst := none, dsn := some r.dsn, fc := some r.fc,
      headerIes := if corr then r.payload else [], payload := if corr then [] else r.payload }
  match r.dest with
  | none => base
  | some i =>
    match kfind d.wrp.nodes i with
    | none => { base with dst := some 0 }
    | some x =>
      let gen := r.gen.getD (districtGen d x.district)
      { base with dst := some x.eui, district := x.district.toNat, gen := gen, key := linkKeyOf d x.eui x.district gen }

/-- PSDU octets of a record's frame without its FCS (R166). -/
def recSize (d : Dev) (r : DownRec) : Nat := (recFrame d r).size

/-- An enhanced acknowledgement (R167, R171): its time correction, where the IE can carry it. -/
def ackFrame (d : Dev) (x : AckTo) (tc : Option Int) : MacFrame :=
  { type := 2, dst := x.eui, dsn := x.dsn, district := x.district.toNat, gen := x.gen,
    key := x.eui.bind (fun u => linkKeyOf d u x.district x.gen),
    headerIes := match tc with | some t => timeCorrIe t | none => [] }

/-- The enhanced beacon of spindle `n` in slot `asn` under slotframe `h` (R168). -/
def beaconFrame (d : Dev) (n : Fin 4) (h asn : Nat) : MacFrame := { type := 0, dst := none, payloadIes := beaconIes d n h asn }

/-! ## Sealed packets (R191, R269, R290) -/

/-- A header, then a body encrypted under AES-256-GCM with the header as additional data, then the tag. -/
def sealUp (key iv head body : List Byte) : List Byte := head ++ fitTo (body.length + 16) (Config.gcm key iv head body)

/-- The 16-octet header of a ply-link frame (R269) or, with the ply's number in place of SIDE and SIDE in place of 0x00, of a loom
message (R290). -/
def linkHead (d : Dev) (kind seq len : Nat) (loom : Bool) : List Byte :=
  octets 1 1 ++ octets 1 kind ++ (if loom then octets 1 d.ply.ply ++ octets 1 (b2n d.ply.side) else octets 1 (b2n d.ply.side) ++ [0])
    ++ octets 4 d.ccp.boot.toNat ++ octets 6 seq ++ octets 2 len

/-- A ply-link frame of KIND `kind` after its Ethertype (R269), and a loom message of TYPE `kind` (R290): IV is bytes 0x02 to
0x0D of the header. -/
def plinkFrame (d : Dev) (kind : Nat) (body : List Byte) : List Byte :=
  let head := linkHead d kind d.ply.seqOut body.length false
  sealUp (skeinKey d d.ply.plySkein) (slice head 2 12) head body
def loomFrame (d : Dev) (kind : Nat) (body : List Byte) : List Byte :=
  let head := linkHead d kind d.ply.loomSeq body.length true
  sealUp (skeinKey d d.ply.loomSkein) (slice head 2 12) head body

/-! ## CCP packets (R189, R191, R198, R352) -/

/-- The 20-octet header of a CCP packet that the device sends (R189), with its own ply and side. -/
def ccpHead (d : Dev) (type ident len : Nat) (boot : BitVec 32) (seq : Nat) : List Byte :=
  octets 1 1 ++ octets 1 type ++ octets 1 ident ++ octets 1 0 ++ octets 2 len ++ octets 1 d.ply.ply ++ octets 1 (b2n d.ply.side)
    ++ octets 4 boot.toNat ++ octets 8 seq

/-- The body of a HANK_ACK (R198). -/
def ackOctets (hseq hstatus epoch : Nat) (entries : List (Nat × Nat)) : List Byte :=
  octets 8 hseq ++ octets 1 hstatus ++ octets 1 0 ++ octets 2 entries.length ++ octets 2 epoch ++ octets 2 0
    ++ (entries.map (fun e => octets 4 (e.1 * 2 ^ 24 + e.2))).flatten

/-- A log entry as 32 octets (R351). -/
def LogEntry.octets_ (l : LogEntry) : List Byte :=
  octets 4 l.index ++ octets 8 l.time ++ octets 2 l.src ++ octets 1 (128 * b2n l.deferred + l.kind) ++ octets 1 l.count
    ++ octets 2 l.reps ++ octets 1 l.level ++ octets 1 l.spn ++ l.payload

/-- The body of a NOTICE (R352). -/
def noticeOctets (first lost : Nat) (entries : List LogEntry) : List Byte :=
  octets 4 first ++ octets 2 entries.length ++ octets 2 lost ++ (entries.map LogEntry.octets_).flatten

/-- TYPE and body of an authenticated CCP packet (R190); 0 for what is none. -/
def Output.ccp (o : Output) : Nat × List Byte :=
  match o with
  | .hankAck _ _ _ _ hseq hstatus epoch entries => (2, ackOctets hseq hstatus epoch entries)
  | .completion _ _ _ _ records => (3, records.flatten)
  | .notice _ _ _ _ first lost entries => (4, noticeOctets first lost entries)
  | _ => (0, [])

/-- A whole authenticated CCP packet (R191): the IV is header octets 0x08 to 0x13. -/
def ccpPacket (d : Dev) (skein type ident seq : Nat) (body : List Byte) : List Byte :=
  let head := ccpHead d type ident (36 + body.length) d.ccp.boot seq
  sealUp (skeinKey d skein) (slice head 8 12) head body

/-- An own address from which `dst` is answered: the link-local address towards one, and where there is no DEV_ADDR (R48, R265;
log 117). -/
def ownSource (d : Dev) (dst : BitVec 128) : BitVec 128 :=
  if d.start.configured = false ∨ dst.extractLsb' 118 10 = 0x3FA then linkLocal d else d.ply.devAddr

/-- CCP's UDP port (R188). -/
def ccpPort : Nat := 47600

/-- A CCP packet leaves as a datagram to an address and port (R188). -/
def ccpEmit (d : Dev) (dst : BitVec 128) (port : BitVec 16) (octs : List Byte) : Dev :=
  d.emit (.sealed (.udp (ownSource d dst) dst ccpPort port.toNat) octs)

/-- The body of a heartbeat (R271). -/
def heartbeatOctets (b : Heartbeat) : List Byte :=
  octets 5 b.asn ++ octets 1 (b.role.toNat * 16 + b2n b.master * 8 + b2n b.fault * 4 + b2n b.ready * 2) ++ octets 1 b.power.toNat
    ++ octets 1 b.whorl.toNat ++ octets 4 b.mepoch.toNat ++ octets 4 b.mdigest.toNat ++ octets 4 b.pdigest.toNat
    ++ octets 4 b.spn.toNat ++ octets 8 b.parent ++ octets 8 b.t1 ++ octets 8 b.t3echo ++ octets 8 b.t4rx
    ++ octets 2 b.acks.length ++ octets 2 0 ++ (b.acks.map (octets 8)).flatten

/-- The body of a loom BEACON (R291). -/
def beaconOctets (b : Beacon) : List Byte :=
  octets 8 b.eui.toNat ++ octets 16 b.devAddr.toNat ++ octets 8 b.meshPrefix.toNat ++ octets 8 b.epoch ++ octets 4 b.period
    ++ octets 1 b.role.toNat ++ octets 1 b.prole.toNat ++ octets 2 0 ++ octets 4 b.nodes ++ octets 4 b.free

/-- KIND of a ply-link frame (R270) or TYPE of a loom message (R290), and its body; 0 for what is neither. -/
def Output.link (o : Output) (seq : Nat) : Nat × List Byte :=
  match o with
  | .heartbeat _ _ b => (1, heartbeatOctets b)
  | .offer _ => (2, Config.linkBody 2 seq)
  | .assign _ => (3, Config.linkBody 3 seq)
  | .delta _ _ => (4, Config.linkBody 4 seq)
  | .snapReq _ => (5, Config.linkBody 5 seq)
  | .snap _ _ _ _ _ _ _ => (6, Config.linkBody 6 seq)
  | .counters _ _ _ => (7, Config.linkBody 7 seq)
  | .beacon b => (1, beaconOctets b)
  | .visitQ eui => (2, octets 8 eui.toNat)
  | .visitA _ eui h => (3, octets 8 eui.toNat ++ octets 4 h.toNat)
  | .whereMsg _ h k => (4, octets 4 h.toNat ++ octets 1 k)
  | .fwd _ _ _ => (5, Config.linkBody 0x105 seq)
  | .relay _ _ _ _ _ _ => (6, Config.linkBody 0x106 seq)
  | .relayRes _ _ _ _ _ => (7, Config.linkBody 0x107 seq)
  | _ => (0, [])

end Sys2Proof.Machine
end

