-- ==== Sys2Proof/Machine/PlyOps.lean ====
section
/-! DEFINITION. Shared operations of the ply: roles (R266), nodes, addresses and handles (R265, R169, R230), the ack side
(R275), downlink records and their assignment (R276), and the mirror's DELTAs (R281). -/

namespace Sys2Proof.Machine

/-! ## Roles -/

/-- The number of a role (R266). -/
def Role.num : Role → Nat
  | .hold => 0
  | .spare => 1
  | .paired => 2
  | .sender => 3
  | .silent => 4
  | .solo => 5

/-- Roles that transmit to the mesh (R266). -/
def Role.sends : Role → Bool
  | .paired | .sender | .solo => true
  | .hold | .spare | .silent => false

/-- The partner's role from its number; none for an unknown one. -/
def roleOf (n : Nat) : Option Role :=
  match n with
  | 0 => some .hold
  | 1 => some .spare
  | 2 => some .paired
  | 3 => some .sender
  | 4 => some .silent
  | 5 => some .solo
  | _ => none

/-! ## Frames to the partner and to the loom -/

/-- A frame that the device originates joins Q0 of a backhaul port (R247): L counts from the destination MAC address (R226), and
it holds no cells of the buffer (log 114). -/
def sendOwn (d : Dev) (port : Port) (ptp : Bool) (data : List Byte) : Dev :=
  let p : Packet :=
    { ipv6 := false, ptp := ptp, plink := !ptp, src := 0, dst := 0, dscp := 0, ecn := 0, flow := 0, nextHdr := 0, sport := 0,
      dport := 0, frag := false, hop := 0, ipLen := data.length, len := 6 + data.length, poison := false, data := data }
  let q : QPkt := { p := p, inPort := .cpu, inClass := 0, minCells := 0, shared := 0, head := 0, node := none, whole := true }
  d.modSht (fun s => { s with queues := kmod s.queues (16 * port.num) [] (fun l => l ++ [q]) })

/-- Destination MAC address, then the local experimental Ethertype 0x88B5, before a ply-link frame (R268). -/
def plinkEther (d : Dev) : List Byte := octets 6 d.ply.partnerMac.toNat ++ octets 2 0x88B5

/-- The backhaul ports on which path B runs now: enabled, with their links up (R268). -/
def pathB (d : Dev) : List Port :=
  if d.ply.pathBEn then (if d.sht.link0 then [.bh0] else []) ++ (if d.sht.link1 then [.bh1] else []) else []

/-- A path to the partner is up (R268). -/
def plyReach (d : Dev) : Bool := d.sht.linkp || !(pathB d).isEmpty

/-- A ply-link frame leaves by PLK, or on path B (R268 to R270). -/
def plyOut (d : Dev) (o : Output) (b : Bool) : Dev :=
  let (kind, body) := o.link d.ply.seqOut
  let frame := plinkFrame d kind body
  let d := if b then each (pathB d) (fun d p => sendOwn d p false (plinkEther d ++ frame)) d
    else d.emit (.sealed .plk (plinkEther d ++ frame))
  (d.emit o).modPly (fun p => { p with seqOut := p.seqOut + 1 })

/-- A ply-link frame leaves for the partner, secured under PLY_SKEIN (R268, R269, R301): on path B only while PLK is down. -/
def plySend (d : Dev) (o : Output) : Dev :=
  if d.ply.partnered ∧ plyReach d then
    let (ok, d) := invoke d d.ply.plySkein masterLoom useEncrypt
    if ok then plyOut d o (!d.sht.linkp) else d
  else d

/-- To whom a loom message goes (R290): the group, or the sides of a ply that the loom table holds, one of them or both. -/
inductive LoomTo
  | group
  | side (ply : Nat) (b : Bool)
  | ply (ply : Nat)
  deriving DecidableEq, Repr

/-- The addresses of a loom message. -/
def LoomTo.addrs (x : LoomTo) (d : Dev) : List (BitVec 128) :=
  match x with
  | .group => [d.ply.loomGroup]
  | .side k b => (d.ply.loom.filter (fun e => e.ply == k && e.side == b)).map (fun e => e.b.devAddr)
  | .ply k => (d.ply.loom.filter (fun e => e.ply == k)).map (fun e => e.b.devAddr)

/-- A loom message leaves as UDP datagrams on port 47,603, secured under LOOM_SKEIN (R290, R301). -/
def loomSend (d : Dev) (x : LoomTo) (o : Output) : Dev :=
  let (ok, d) := invoke d d.ply.loomSkein masterLoom useEncrypt
  if ok then
    let (kind, body) := o.link d.ply.loomSeq
    let frame := loomFrame d kind body
    let d := each (x.addrs d) (fun d a => d.emit (.sealed (.udp d.ply.devAddr a 47603 47603) frame)) d
    (d.emit o).modPly (fun p => { p with loomSeq := p.loomSeq + 1 })
  else d

/-! ## Nodes -/

/-- Node `i`, where the table holds it. -/
def Dev.node? (d : Dev) (i : Nat) : Option Node := kfind d.wrp.nodes i

/-- Changes node `i`. -/
def Dev.modNode (d : Dev) (i : Nat) (f : Node → Node) : Dev :=
  d.modWrp (fun w => { w with nodes := kadj w.nodes i f })

/-- A node is present: it holds an unexpired path, or stands so by the master's word, and is not dormant (R169, R186, R282;
log 113). -/
def Node.present (x : Node) (now : Nat) : Bool :=
  (x.mirrored || (match x.path with | some t => decide (now < t) | none => false)) && x.dormantSince.isNone && x.away.isNone

/-- Node `i` is present. -/
def Dev.present (d : Dev) (i : Nat) : Bool :=
  match d.node? i with | some x => x.present d.glb.upNs | none => false

/-- Present nodes (R186). -/
def Dev.presentCount (d : Dev) : Nat := (d.wrp.nodes.filter (fun p => p.2.present d.glb.upNs)).length

/-- The entry of the node table with an EUI-64. -/
def Dev.nodeByEui (d : Dev) (eui : BitVec 64) : Option (Nat × Node) := d.wrp.nodes.find? (fun p => p.2.eui == eui)

/-- The entry of the node table with a node handle. -/
def Dev.nodeByHandle (d : Dev) (h : BitVec 32) : Option (Nat × Node) := d.wrp.nodes.find? (fun p => p.2.handle == h)

/-- CRC-32C over an EUI-64 (R230, R275). -/
def euiCrc (eui : BitVec 64) : BitVec 32 := crc32c (octets 8 eui.toNat)

/-- The partner's heartbeat shows BYPASS for spindle `n` while the ply is PAIRED (R271, R365). -/
def partnerBypass (d : Dev) (n : Fin 4) : Bool :=
  d.ply.role == .paired && (match d.ply.last with | some h => h.spn.getLsbD (8 * (3 - n.val) + 4) | none => false)

/-- The pin moves off spindle `n` (R230). -/
def unpinned (d : Dev) (n : Fin 4) : Bool :=
  let s := d.spn.get n
  s.target != 2 || !s.fitted || s.oos == .bypass || s.pinBypass || partnerBypass d n

/-- The spindle a node is pinned to (R230). -/
def pinned (d : Dev) (x : Node) : Fin 4 :=
  let b := (euiCrc x.eui).getLsbD 0
  let own : Fin 4 := if x.band then (if b then 3 else 2) else (if b then 1 else 0)
  if unpinned d own ∧ unpinned d (bandMate own) = false then bandMate own else own

/-- This side is the ack side of a node (R275): the transmitting side, and in PAIRED the side that bit 1 of the CRC names. -/
def ackSide (d : Dev) (x : Node) : Bool :=
  if d.ply.role = .paired then (euiCrc x.eui).getLsbD 1 == d.ply.side else d.ply.role.sends

/-- This side acknowledges a node's frames (R275): as its ack side, or for the partner whose pinned spindle does not serve. -/
def acksNode (d : Dev) (x : Node) : Bool :=
  ackSide d x || (d.ply.role == .paired && d.ply.cover.getLsbD (pinned d x).val)

/-- The spindles that the partner's heartbeat reports as not serving cells (R271, R275). -/
def coverNow (d : Dev) : BitVec 4 :=
  match d.ply.last with
  | some h => BitVec.ofNat 4 (spindles.foldl (fun a n => a + b2n (!h.spn.getLsbD (8 * (3 - n.val) + 7)) * 2 ^ n.val) 0)
  | none => 0

/-! ## Downlink records -/

/-- The record of a command (R276), which waits for its twin. -/
def RecKind.byCommand : RecKind → Bool
  | .throwMsg _ | .cancel _ | .nodeReq _ | .objBlock _ _ => true
  | .packet | .correction _ | .hint _ | .dioUnicast | .daoAck | .dio => false

/-- Frames that only one side sends (R275, R276). -/
def RecKind.oneSided : RecKind → Bool
  | .correction _ | .hint _ => true
  | .packet | .throwMsg _ | .cancel _ | .nodeReq _ | .objBlock _ _ | .dioUnicast | .daoAck | .dio => false

/-- The handle of a destination; a broadcast has none, for which all ones stands. -/
def destHandle (d : Dev) (dest : Option Nat) : Nat :=
  match dest with
  | none => 0xFFFFFFFF
  | some i => match d.node? i with | some x => x.handle.toNat | none => i

/-- The hash of a record (R276): the first 8 octets of SHA-384 over the destination handle, the one-side flag and the
unsecured MAC payload. -/
def recHash (d : Dev) (k : RecKind) (dest : Option Nat) (payload : List Byte) : Nat :=
  ((Config.sha384 (octets 4 (destHandle d dest) ++ octets 1 (b2n (RecKind.oneSided k)) ++ payload)).toNat) >>> 320

/-- A new record: its kind, destination, whether it asks for an acknowledgement, and its payload. -/
def newRec (d : Dev) (k : RecKind) (dest : Option Nat) (ack : Bool) (payload : List Byte) : DownRec :=
  { kind := k, dest := dest, hash := recHash d k dest payload, oneSide := RecKind.oneSided k, payload := payload, ackReq := ack,
    share := none, retries := 0 }

/-- A new record that carries an IPv6 packet, compressed (R167). -/
def packetRec (d : Dev) (k : RecKind) (dest : Option Nat) (packet : List Byte) : DownRec :=
  newRec d k dest dest.isSome (Config.lowpan packet)

/-- `a` comes before `b` in the order of (S, hash) (R276). -/
def recBefore (a b : DownRec) : Bool :=
  let s (r : DownRec) : Nat := r.share.getD 0
  decide (s a < s b) || (s a == s b && decide (a.hash < b.hash))

/-- A record joins a list in the order of (S, hash). -/
def insertRec (r : DownRec) : List DownRec → List DownRec
  | [] => [r]
  | x :: rest => if recBefore r x then r :: x :: rest else x :: insertRec r rest

/-- The master assigns a record (R276): S is the ASN of the current tick + 2, and an ASSIGN goes to the partner. -/
def assignRec (d : Dev) (r : DownRec) : Dev :=
  let r := { r with share := some (d.whl.asn + 2) }
  let d := d.modPly (fun p => { p with recs := insertRec r p.recs, waiting := p.waiting.filter (fun q => q.1.hash != r.hash) })
  plySend d (.assign r)

/-- The master takes a record, its own or from an OFFER (R276): one of equal hash that waits is its twin; a command's
record waits MERGE_WAIT ticks for it. -/
def masterTake (d : Dev) (r : DownRec) : Dev :=
  if d.ply.recs.any (fun x => x.hash == r.hash) then d
  else
    match d.ply.waiting.find? (fun q => q.1.hash == r.hash) with
    | some (x, _) => assignRec d x
    | none =>
      if RecKind.byCommand r.kind then
        let due := d.glb.upNs + fMergeWait.get d.pra * d.whl.periodNs
        d.modPly (fun p => { p with waiting := p.waiting ++ [(r, some due)] })
      else assignRec d r

/-- A new record of this side (R276): the master takes it; a side that is not master offers it and keeps it until it is
assigned. -/
def submitRec (d : Dev) (r : DownRec) : Dev :=
  if d.ply.master then masterTake d r
  else
    let d := d.modPly (fun p => { p with waiting := p.waiting ++ [(r, none)] })
    plySend d (.offer r)

/-- A side that becomes master takes what waited for the other (R276), no destination is unsynced any more, and the paths it has
heard itself count from now on (log 113). -/
def adoptWaiting (d : Dev) : Dev :=
  let l := (d.ply.waiting.filter (fun q => q.2.isNone)).map (·.1)
  let d := d.modPly (fun p => { p with waiting := p.waiting.filter (fun q => q.2.isSome), unsyncB := false })
  let d := d.modWrp (fun w => { w with nodes := kmap w.nodes (fun _ x =>
    { x with unsynced := false, mirrored := x.mirrored && x.path.isNone }) })
  each l masterTake d

/-- A SPARE discards its node table and its downlink lists (R283). -/
def discardNodes (d : Dev) : Dev :=
  (d.modPly (fun p => { p with recs := [], waiting := [], awaiting := [], ackSeen := [], placed := [], unsyncB := false,
                               snapping := false, snapped := false })).modWrp
    (fun w => { w with nodes := [], backoff := [], shFails := [], visits := [], fcNew := [] })

/-- A Trickle interval of `i` ms begins at an instant of device time (R169): its firing lies in its second half. -/
def armTrickle (d : Dev) (from_ i : Nat) : Dev :=
  let half := i * 1000000 / 2
  d.modWrp (fun w => { w with trickleI := i, trickleFrom := from_, trickleAt := from_ + half + Config.trickle from_ % max 1 half,
                              trickleHeard := [] })

/-- The least Trickle interval in ms (R185). -/
def trickleMin (d : Dev) : Nat := 2 ^ fDioMin.get d.pra

/-- The side takes a role (R267); `m` says whether it is mirror master afterwards. A change of role is reported.
Trickle starts again on both sides at the boundary that pairs them, so that their DIOs go out in simulcast (R169; log 115). -/
def setRole (d : Dev) (r : Role) (m : Bool) : Dev :=
  let old := d.ply.role
  let was := d.ply.master
  let d := d.modPly (fun p => { p with role := r, master := m, electAt := none, joinAt := none, readyTick := none,
                                       bothSpare := 0, ready := p.ready && r == .spare })
  let d := if old = r then d else
    report d evRoleChange (octets 1 (Role.num old) ++ octets 1 (Role.num r) ++ octets 1 (b2n m))
  let d := if r = .spare ∧ old ≠ .spare then discardNodes d else d
  let d := if r = .paired ∧ old ≠ .paired then
      armTrickle d (d.whl.epoch + d.whl.asn * d.whl.periodNs) (trickleMin d)
    else d
  if m ∧ was = false then adoptWaiting d else d

/-! ## Mirror -/

/-- The master streams a change at the next mirror epoch; a change on the other side goes to the master first (R281). -/
def streamDelta (d : Dev) (x : Delta) : Dev :=
  if d.ply.master then
    let d := d.modPly (fun p => { p with mepoch := (p.mepoch + 1) % 2 ^ 32 })
    plySend d (.delta d.ply.mepoch x)
  else plySend d (.delta d.ply.mepoch x)

/-- The master owes the counters of a destination (R277, R278). -/
def oweCounters (d : Dev) (dest : Option Nat) : Dev :=
  match dest with
  | none => d.modPly (fun p => { p with unsyncB := true })
  | some i => d.modNode i (fun x => { x with unsynced := true })

/-- A destination is unsynced (R277). -/
def unsync (d : Dev) (dest : Option Nat) : Dev :=
  let was := match dest with
    | none => d.ply.unsyncB
    | some i => match d.node? i with | some x => x.unsynced | none => true
  if was then d
  else
    let d := match dest with
      | none => d.modPly (fun p => { p with unsyncB := true })
      | some i => d.modNode i (fun x => { x with unsynced := true })
    report d evDestUnsync []

/-- The present members of a throw group, by index, and the other members (R174, R175). -/
def groupMembers (d : Dev) (g : Nat) : List Nat := (d.wrp.nodes.filter (fun p => p.2.groups.contains g)).map (·.1)

end Sys2Proof.Machine
end

