-- ==== Sys2Proof/Machine/Coding.lean ====
section
/-! DEFINITION. The code of the native waveforms (R133 to R138): GF(256), the Reed-Solomon encoder and decoder, the split
into codewords, the interleaver, the PN9 whitener, and whole frames. -/

namespace Sys2Proof.Machine

/-! ## GF(256) with the field polynomial 0x11D (R135) -/

/-- Multiplication by the primitive element. -/
def gfDouble (a : Byte) : Byte := if a.getLsbD 7 then (a <<< 1) ^^^ 0x1D else a <<< 1

/-- The sum of the multiples of `a` by the `k` low bits of `b`. -/
def gfMulN (a b : Byte) : Nat → Byte
  | 0 => 0
  | k + 1 => gfDouble (gfMulN a b k) ^^^ (if b.getLsbD (7 - k) then a else 0)

/-- The product. -/
def gfMul (a b : Byte) : Byte := gfMulN a b 8

/-- The power `n` of the primitive element. -/
def gfExp : Nat → Byte
  | 0 => 1
  | n + 1 => gfDouble (gfExp n)

/-- The inverse, as the 254th power. -/
def gfInv (a : Byte) : Byte :=
  let a2 := gfMul a a
  let a4 := gfMul a2 a2
  let a8 := gfMul a4 a4
  let a16 := gfMul a8 a8
  let a32 := gfMul a16 a16
  let a64 := gfMul a32 a32
  let a128 := gfMul a64 a64
  gfMul a2 (gfMul a4 (gfMul a8 (gfMul a16 (gfMul a32 (gfMul a64 a128)))))

/-- The value at `x` of a polynomial, highest coefficient first. -/
def gfEval (p : List Byte) (x : Byte) : Byte := p.foldl (fun a c => gfMul a x ^^^ c) 0

/-- Sum of two polynomials, lowest coefficient first. -/
def gfAdd : List Byte → List Byte → List Byte
  | [], q => q
  | p, [] => p
  | a :: p, b :: q => (a ^^^ b) :: gfAdd p q

/-! ## Reed-Solomon (R135) -/

/-- g(x) without its leading coefficient, highest first, for `t2` parity octets. -/
def rsGen : Nat → List Byte
  | 0 => []
  | k + 1 =>
    let g : List Byte := 1 :: rsGen k
    ((List.zipWith (· ^^^ ·) (g ++ [0]) (0 :: g.map (gfMul (gfExp k))))).drop 1

/-- The parity octets of a codeword's data, the coefficient of the highest power first. -/
def rsParity (t2 : Nat) (data : List Byte) : List Byte :=
  let g := rsGen t2
  data.foldl (fun r m =>
    let f := m ^^^ r.headD 0
    List.zipWith (fun x y => x ^^^ gfMul f y) (r.drop 1 ++ [0]) g) (List.replicate t2 0)

/-- The codeword of data octets. -/
def rsEncode (t2 : Nat) (data : List Byte) : List Byte := data ++ rsParity t2 data

/-- The syndromes of a received word: its values at the roots of g(x). -/
def rsSyndromes (t2 : Nat) (w : List Byte) : List Byte := (List.range t2).map (fun i => gfEval w (gfExp i))

/-- State of the search for the error locator, coefficients lowest first: C, B, L, m, b. -/
structure Locator where
  c : List Byte
  b : List Byte
  l : Nat
  m : Nat
  d : Byte

/-- One step of the search, at syndrome `n`. -/
def locatorStep (syn : List Byte) (x : Locator) (n : Nat) : Locator :=
  let delta := (List.range (x.l + 1)).foldl (fun a i => a ^^^ gfMul (x.c.getD i 0) (syn.getD (n - i) 0)) 0
  if delta = 0 then { x with m := x.m + 1 }
  else
    let k := gfMul delta (gfInv x.d)
    let c := gfAdd x.c (List.replicate x.m 0 ++ x.b.map (gfMul k))
    if 2 * x.l ≤ n then { c := c, b := x.c, l := n + 1 - x.l, m := 1, d := delta }
    else { x with c := c, m := x.m + 1 }

/-- The error value at locator `x`, from the syndromes and the error locator polynomial, lowest coefficients first. -/
def errorValue (t2 : Nat) (syn c : List Byte) (x : Byte) : Byte :=
  let xi := gfInv x
  let omega := (List.range t2).map (fun n =>
    (List.range (n + 1)).foldl (fun a i => a ^^^ gfMul (c.getD i 0) (syn.getD (n - i) 0)) 0)
  let deriv := (List.range (c.length - 1)).map (fun i => if i % 2 = 0 then c.getD (i + 1) 0 else 0)
  gfMul x (gfMul (gfEval omega.reverse xi) (gfInv (gfEval deriv.reverse xi)))

/-- The codeword within t octet errors of a received word, with the number of octets corrected (R135); none where the
word is uncorrectable. What is found is checked: it is a codeword and differs in at most t octets. -/
def rsDecode (t2 : Nat) (w : List Byte) : Option (List Byte × Nat) :=
  let syn := rsSyndromes t2 w
  if syn.all (· == 0) then some (w, 0)
  else
    let x := (List.range t2).foldl (locatorStep syn) { c := [1], b := [1], l := 0, m := 1, d := 1 }
    let fixed := (List.range w.length).map (fun i =>
      let v := w.getD i 0
      let loc := gfExp (w.length - 1 - i)
      if gfEval x.c.reverse (gfInv loc) = 0 then v ^^^ errorValue t2 syn x.c loc else v)
    let n := ((List.zipWith (fun a b => a != b) w fixed).filter id).length
    if (rsSyndromes t2 fixed).all (· == 0) ∧ 2 * n ≤ t2 then some (fixed, n) else none

/-! ## Payloads (R136 to R138) -/

/-- Number of codewords of a PSDU of `l` octets, and the data octets of codeword `i` (R136). -/
def codewords (w l : Nat) : Nat := (l + nativeKmax w - 1) / nativeKmax w
def codewordData (w l i : Nat) : Nat := l / codewords w l + (if i < l % codewords w l then 1 else 0)

/-- A list cut into pieces of given lengths. -/
def cutAt : List Nat → List Byte → List (List Byte)
  | [], _ => []
  | n :: r, l => l.take n :: cutAt r (l.drop n)

/-- The lengths of the data of every codeword. -/
def dataLens (w l : Nat) : List Nat := (List.range (codewords w l)).map (codewordData w l)

/-- The interleaver and its inverse (R137): rows of N'/8 octets written, columns of 8 read. -/
def interleave (l : List Byte) : List Byte :=
  let c := l.length / 8
  (List.range l.length).map (fun k => l.getD (k % 8 * c + k / 8) 0)
def deinterleave (l : List Byte) : List Byte :=
  let c := l.length / 8
  (List.range l.length).map (fun k => l.getD (k % c * 8 + k / c) 0)

/-- One clock of the PN9 generator: the register's nine bits, newest in bit 0; the new bit is the output (R138;
log 13). -/
def pn9Step (r : BitVec 9) : BitVec 9 := (r <<< 1) ||| (if xor (r.getLsbD 3) (r.getLsbD 8) then 1 else 0)

/-- Eight clocks: the next whitening octet, first bit in bit 7, and the register after it. -/
def pn9Octet (r : BitVec 9) : Byte × BitVec 9 :=
  let r := pn9Step (pn9Step (pn9Step (pn9Step (pn9Step (pn9Step (pn9Step (pn9Step r)))))))
  (r.setWidth 8, r)

/-- Octets XORed with the generator's output. -/
def whitenFrom (r : BitVec 9) : List Byte → List Byte
  | [] => []
  | b :: l => (b ^^^ (pn9Octet r).1) :: whitenFrom (pn9Octet r).2 l

/-- Whitening, which is its own inverse (R138). -/
def whiten (l : List Byte) : List Byte := whitenFrom 0x1FF l

/-- The coded payload of a PSDU (R135 to R138). -/
def encodePayload (w : Nat) (psdu : List Byte) : List Byte :=
  let coded := ((cutAt (dataLens w psdu.length) psdu).map (rsEncode (nativeParity w))).flatten
  whiten (interleave (fitTo (nativeLen w psdu.length) coded))

/-- The PSDU of `len` octets in a received payload, with the octets corrected; none where a codeword is
uncorrectable. -/
def decodePayload (w len : Nat) (rx : List Byte) : Option (List Byte × Nat) :=
  let p := nativeParity w
  let coded := deinterleave (whiten (fitTo (nativeLen w len) rx))
  let words := cutAt ((dataLens w len).map (· + p)) coded
  words.foldl (fun a c =>
    match a, rsDecode p c with
    | some (l, n), some (v, k) => some (l ++ v.take (v.length - p), n + k)
    | _, _ => none) (some ([], 0))

/-- The four header octets (R134). -/
def headerOctets (w len : Nat) : List Byte := octets 2 (len * 32) ++ octets 1 w ++ [0]

/-- A native frame (R133): preamble, sync word, header, payload. -/
def nativeFrame (w pre : Nat) (psdu : List Byte) : List Byte :=
  List.replicate pre 0xDD ++ octets 4 (if w = 5 then 0x5A3C96E1 else 0x4B1ED872)
    ++ rsEncode 8 (headerOctets w psdu.length) ++ encodePayload w psdu

/-- The frequency level of a dibit of the 4-FSK waveforms (R133). -/
def dibitLevel (v : Nat) : Int :=
  match v with
  | 0 => -1
  | 1 => -3
  | 2 => 1
  | _ => 3

/-- The symbols of an octet: four dibits, the most significant first (R133). -/
def octetLevels (b : Byte) : List Int := [6, 4, 2, 0].map (fun i => dibitLevel (b.toNat / 2 ^ i % 4))

/-- The frequency levels of a native frame's octets. -/
def symbolLevels (l : List Byte) : List Int := l.flatMap octetLevels

/-! ## IEEE 802.15.4 frames (R131, R132) -/

/-- The SFD of SUN FSK by set and coding (R131): values of the cited standard (log 111). -/
def sunSfd (set coded : Bool) : Nat :=
  if set then (if coded then 0x632D else 0x7A0E) else if coded then 0x6F4E else 0x904E

/-- The two-octet SUN FSK PHR, its first bit sent in bit 15: mode switch 0, FCS type, data whitening, PSDU length (R131;
log 111). -/
def sunPhr (fcs2 whiten : Bool) (len : Nat) : List Byte := octets 2 (b2n fcs2 * 4096 + b2n whiten * 2048 + len % 2048)

/-- A SUN FSK frame (R131): preamble, SFD of the set for coded or uncoded, then PHR and PSDU, whitened and coded as the
profile says. -/
def sunFrame (p : Profile) (psdu : List Byte) : List Byte :=
  let white := p.opts.getLsbD 4
  let body := sunPhr p.fcs2 white psdu.length ++ (if white then Config.sunWhiten psdu else psdu)
  List.replicate p.pre 0x55 ++ octets 2 (sunSfd (p.opts.getLsbD 3) p.fec) ++ (if p.fec then Config.sunFec p.rsc body else body)

/-- An O-QPSK frame (R132): a preamble of 4 octets, SFD, PHR with a 7-bit length, PSDU (log 111). -/
def oqpskFrame (psdu : List Byte) : List Byte :=
  List.replicate 4 0 ++ [0xA7] ++ octets 1 (psdu.length % 128) ++ psdu

/-- The pulse filter of a profile (R150): the fixed Gaussian in FD3200 ramp mode, the built-in filter where every coefficient
is zero, and otherwise h[0] to h[31] with h[63 - i] = h[i]. -/
def Profile.taps (p : Profile) : List Int :=
  if p.fd3200 then Config.pulse 0
  else if p.coef.all (· == 0) then Config.pulse p.wave
  else p.coef ++ p.coef.reverse

/-- What modulates a transmission of a PSDU (R131 to R133, R150). -/
def airWave (p : Profile) (psdu : List Byte) : AirWave :=
  let native := p.wave == 5 || p.wave == 6
  let octs :=
    if native then nativeFrame p.wave p.pre psdu else if p.wave = 4 then oqpskFrame psdu else sunFrame p psdu
  { octets := octs, levels := if native then symbolLevels octs else [], taps := p.taps, rampNs := p.rampNs }

/-- The PSDU length in a received native header and the octets corrected; none where R134 rejects it. -/
def decodeHeader (w : Nat) (rx : List Byte) : Option (Nat × Nat) :=
  match rsDecode 8 rx with
  | none => none
  | some (v, k) =>
    let h := natAt v 0 2
    let len := h / 32
    if 1 ≤ len ∧ len ≤ 1280 ∧ h % 32 = 0 ∧ natAt v 2 1 = w ∧ natAt v 3 1 = 0 then some (len, k) else none

end Sys2Proof.Machine
end

