-- ==== Sys2Proof/Machine/Queues.lean ====
section
/-! DEFINITION. Queues, shapers, time gates, policers, PAUSE and PFC (R226, R241 to R263): the shared buffer's accounting,
eligibility and selection, the gate lists, the registers of QUE and CRD, and their rows. -/

namespace Sys2Proof.Machine

/-! ## Ports and queues -/

def ports : List Port := [.bh0, .bh1, .plk, .mesh, .cpu]

/-- A port from its number. -/
def portOf (n : Nat) : Option Port := ports[n]?

/-- A backhaul port: BH0 (false) or BH1 (true). -/
def bhPort (b : Bool) : Port := if b then .bh1 else .bh0

/-- BH0, BH1 and PLK have a line. -/
def hasLine (p : Port) : Bool := p != .mesh && p != .cpu
def isBh (p : Port) : Bool := p == .bh0 || p == .bh1

/-- Key of queue (p, c). -/
def qkey (p : Port) (c : Nat) : Nat := 16 * p.num + c

/-- Queue (p, c), oldest packet first. -/
def Dev.queue (d : Dev) (p : Port) (c : Nat) : List QPkt := kgetD d.sht.queues (qkey p c) []

/-- Replaces queue (p, c). -/
def Dev.setQueue (d : Dev) (p : Port) (c : Nat) (l : List QPkt) : Dev :=
  d.modSht (fun s => { s with queues := ksetD s.queues (qkey p c) l [] })

/-- Service of port `p`. -/
def Dev.qport (d : Dev) (p : Port) : QPort :=
  match p with
  | .bh0 => d.que.p0
  | .bh1 => d.que.p1
  | .plk => d.que.p2
  | .mesh => d.que.p3
  | .cpu => d.que.p4

/-- Changes the service of port `p`. -/
def Dev.modQport (d : Dev) (p : Port) (f : QPort → QPort) : Dev :=
  match p with
  | .bh0 => { d with que := { d.que with p0 := f d.que.p0 } }
  | .bh1 => { d with que := { d.que with p1 := f d.que.p1 } }
  | .plk => { d with que := { d.que with p2 := f d.que.p2 } }
  | .mesh => { d with que := { d.que with p3 := f d.que.p3 } }
  | .cpu => { d with que := { d.que with p4 := f d.que.p4 } }

/-- Link of a port; MESH and CPU are always up (R239). -/
def Dev.linkUp (d : Dev) (p : Port) : Bool :=
  match p with
  | .bh0 => d.sht.link0
  | .bh1 => d.sht.link1
  | .plk => d.sht.linkp
  | .mesh | .cpu => true

/-- The port runs at 1 Gb/s (R247, R386). -/
def Dev.slow (d : Dev) (p : Port) : Bool :=
  match p with
  | .bh0 => d.pwr.straps.getLsbD 4
  | .bh1 => d.pwr.straps.getLsbD 2
  | .plk | .mesh | .cpu => false

/-- Time of `o` octets on the line of port `p`, in ns rounded up (R247; log 105). -/
def Dev.lineNs (d : Dev) (p : Port) (o : Nat) : Nat := if d.slow p then 8 * o else (8 * o + 9) / 10

/-- `q` quanta of 512 bit times on a backhaul port, in ns rounded up (R255; log 105). -/
def Dev.quantaNs (d : Dev) (p : Port) (q : Nat) : Nat := d.lineNs p (64 * q)

/-- Cells that a packet holds (R226). -/
def QPkt.cells (q : QPkt) : Nat := q.minCells + q.shared + q.head

/-- ECN_MARK, ALPHA and MIN of queue (p, c) (R239). -/
def Dev.qcfg (d : Dev) (p : Port) (c : Nat) : Nat × Nat × Nat := kgetD d.sht.qcfg (qkey p c) (0, 4, 64)

/-- The sum of MIN over all 80 queues. -/
def Sht.minSum (s : Sht) : Nat := (s.qcfg.map (fun q => q.2.2.2)).sum + 64 * (80 - s.qcfg.length)

/-- Packets in the buffer: queued, and in progress at a port until the end of the frame (R226). -/
def Dev.buffered (d : Dev) : List QPkt :=
  (d.sht.queues.map (·.2)).flatten ++
    ports.filterMap (fun p =>
      let q := d.qport p
      match q.sending with
      | some (_, k) => if d.whl.time < q.freeAt then some k else none
      | none => none)

/-- Packets of queue (p, c), the one in progress included. -/
def Dev.heldBy (d : Dev) (p : Port) (c : Nat) : List QPkt :=
  d.queue p c ++
    match (d.qport p).sending with
    | some (cc, k) => if cc = c ∧ d.whl.time < (d.qport p).freeAt then [k] else []
    | none => []

/-- Priorities of a port that can generate flow control (R257, R258): bit 0 in PAUSE mode. -/
def QPort.fcPrios (q : QPort) : List Nat :=
  if q.fcMode = 1 then (if q.pfcEn.getLsbD 0 then [0] else [])
  else if q.fcMode = 2 then (List.range 8).filter (fun i => q.pfcEn.getLsbD i)
  else []

/-- k of R258: bits set in PFC_EN in PFC mode, 1 in PAUSE mode, 0 in OFF. -/
def QPort.fcCount (q : QPort) : Nat :=
  if q.fcMode = 1 then 1 else if q.fcMode = 2 then ((List.range 8).filter (fun i => q.pfcEn.getLsbD i)).length else 0

/-- Headroom taken from the shared pool (R258). -/
def Dev.headSum (d : Dev) : Nat := d.que.p0.headroom * d.que.p0.fcCount + d.que.p1.headroom * d.que.p1.fcCount

/-- F: free cells of the shared pool, never below 0 (R226, R258, R362). -/
def Dev.freeCells (d : Dev) : Nat :=
  49152 - d.sht.minSum - d.headSum - d.glb.retiredCells - (d.buffered.map (·.shared)).sum

/-- BUF_LOW follows F (R240). -/
def bufWatch (d : Dev) : Dev :=
  let f := d.freeCells
  watch d evBufLow 0 (decide (f < 4096)) (decide (8192 ≤ f)) []

/-- Cells queued for port `p` (R239). -/
def Dev.occ (d : Dev) (p : Port) : Nat := ((List.range 16).map (fun c => ((d.heldBy p c).map QPkt.cells).sum)).sum

/-- Priority of class `c` (R255, R261). -/
def Que.prio (q : Que) (c : Nat) : Nat := kgetD q.primap c (c / 2)

/-- I(p, i) of R257. -/
def Dev.ingressCells (d : Dev) (p : Port) (i : Nat) : Nat :=
  ((d.buffered.filter (fun k => k.inPort == p && ((d.qport p).fcMode == 1 || d.que.prio k.inClass == i))).map
    QPkt.cells).sum

/-- Headroom cells of (p, i) in use (R258). -/
def Dev.headUsed (d : Dev) (p : Port) (i : Nat) : Nat :=
  ((d.buffered.filter (fun k => k.inPort == p && ((d.qport p).fcMode == 1 || d.que.prio k.inClass == i))).map
    (·.head)).sum

/-! ## Generated flow control -/

/-- XOFF_TX follows the priorities in XOFF (R263). -/
def xoffWatch (d : Dev) : Dev := watchIf d evXoffTx (!d.que.p0.xoff.isEmpty || !d.que.p1.xoff.isEmpty)

/-- Bits of a list of priorities. -/
def prioBits (l : List Nat) : BitVec 8 := BitVec.ofNat 8 (l.foldl (fun a i => a + 2 ^ i) 0)

/-- What a generated frame says (R255). -/
def FcFrame.ctl (f : FcFrame) : MacCtl :=
  if f.pfc then .pfc (prioBits (f.times.map (·.1))) ((List.range 8).map (fun i => kgetD f.times i 0))
  else .pause (kgetD f.times 0 0)

/-- A generated frame from its Ethertype on: opcode, then time or class-enable vector and times (R255). -/
def FcFrame.octets_ (f : FcFrame) : List Byte :=
  octets 2 0x8808 ++
    match f.ctl with
    | .pfc en times => octets 2 0x0101 ++ octets 2 en.toNat ++ (times.map (octets 2)).flatten
    | .pause t => octets 2 0x0001 ++ octets 2 t
    | .other => []

/-- Octets of a MAC Control frame on the line: a minimum frame, preamble and gap included (log 111). -/
def fcLine : Nat := 84

/-- A generated frame leaves port `p` now (R257): the refresh of each priority it pauses counts from its end. -/
def fcLeave (d : Dev) (p : Port) (f : FcFrame) : Dev :=
  let end_ := d.whl.time + d.lineNs p fcLine
  let again (q : QPort) (i : Nat) (due : Option Nat) : Option Nat :=
    if kgetD f.times i 0 = 0 then due else some (end_ + d.quantaNs p q.refreshQ)
  (d.modQport p (fun q =>
    { q with pauseTx := inc32 q.pauseTx, sending := none, freeAt := end_, xoff := kmap q.xoff (again q) })).emit
    (.macCtl (p == .bh1) f.ctl f.octets_)

/-- A PAUSE or PFC frame for the priorities and times listed, if there are any, leaves port `p` ahead of every queue at the end of
the frame in progress (R257, R259). -/
def sendFc (d : Dev) (p : Port) (times : KMap Nat) : Dev :=
  let q := d.qport p
  let f : FcFrame := { pfc := q.fcMode == 2, times := times }
  if times.isEmpty then d
  else if q.freeAt ≤ d.whl.time ∧ q.fcq.isEmpty then fcLeave d p f
  else d.modQport p (fun q => { q with fcq := q.fcq ++ [f] })

/-- XOFF is entered and left by the present I (R257). -/
def fcEvalPort (d : Dev) (p : Port) : Dev :=
  let q := d.qport p
  if d.linkUp p then
    let on := q.fcPrios.filter (fun i => (kfind q.xoff i).isNone && decide (q.xoffMark ≤ d.ingressCells p i))
    let off := (q.xoff.map (·.1)).filter (fun i => decide (d.ingressCells p i ≤ q.xonMark))
    let d := d.modQport p (fun q =>
      { q with xoff := (on.foldl (fun m i => kput m i none) (q.xoff.filter (fun x => !off.contains x.1))) })
    sendFc d p (off.foldl (fun m i => kput m i 0) (on.map (fun i => (i, q.quantaTx))))
  else d

/-- What follows from a change of the buffer's content or of its limits. -/
def bufEval (d : Dev) : Dev := xoffWatch (fcEvalPort (fcEvalPort (bufWatch d) .bh0) .bh1)

/-- Every XOFF of port `p` ends: a frame with time 0 goes out in the mode of now where the link is up, and no frame waits where it is
not (R257). -/
def endXoff (d : Dev) (p : Port) : Dev :=
  let l : KMap Nat := (d.qport p).xoff.map (fun x => (x.1, 0))
  let d := d.modQport p (fun q => { q with xoff := [] })
  if d.linkUp p then sendFc d p l else d.modQport p (fun q => { q with fcq := [] })

/-! ## Received pauses -/

/-- PAUSE_LONG: some queue of BH0 or BH1 has been paused without a break for 100 ms (R263). -/
def pauseWatch (d : Dev) : Dev :=
  let now := d.whl.time
  let long (q : QPort) : Bool := q.pauses.any (fun x => decide (now < x.2.1) && decide (x.2.2 + 100000000 ≤ now))
  watchIf d evPauseLong (long d.que.p0 || long d.que.p1)

/-- A pause time for queue `c` (R256): 0 releases; another replaces the interval in force. -/
def QPort.pauseFor (q : QPort) (c now ns : Nat) : QPort :=
  if ns = 0 then { q with pauses := kdel q.pauses c }
  else
    let since := match kfind q.pauses c with | some (e, s) => if now ≤ e then s else now | none => now
    { q with pauses := kput q.pauses c (now + ns, since) }

/-- PAUSE_RECEIVE (R255, R256). -/
def doPauseReceive (port : Bool) (f : MacCtl) (d : Dev) : Dev :=
  let p := bhPort port
  let now := d.whl.time
  let ignored := report (d.modQport p (fun q => { q with fcIgnored := inc32 q.fcIgnored })) evFcIgnored []
  match f, (d.qport p).fcMode with
  | .pause t, 1 =>
    let ns := d.quantaNs p t
    pauseWatch (d.modQport p (fun q =>
      { (List.range 16).foldl (fun q c => q.pauseFor c now ns) q with pauseRx := inc32 q.pauseRx }))
  | .pfc en times, 2 =>
    let one (q : QPort) (c : Nat) : QPort :=
      let i := d.que.prio c
      if en.getLsbD i then q.pauseFor c now (d.quantaNs p (times.getD i 0)) else q
    pauseWatch (d.modQport p (fun q => { (List.range 16).foldl one q with pauseRx := inc32 q.pauseRx }))
  | .pause _, _ => ignored
  | .pfc _ _, _ => ignored
  | .other, _ => ignored

def execPauseReceive (dt : Nat) (port : Bool) (f : MacCtl) (s : State) : Host.Outcome State Fault Refusal :=
  run dt (doPauseReceive port f) s

/-- PAUSE_EXPIRE (R256). -/
def doPauseExpire (port : Bool) (c : Fin 16) (d : Dev) : Dev :=
  pauseWatch (d.modQport (bhPort port) (fun q =>
    match kfind q.pauses c.val with
    | some (e, _) => if e ≤ d.whl.time then { q with pauses := kdel q.pauses c.val } else q
    | none => q))

def execPauseExpire (dt : Nat) (port : Bool) (c : Fin 16) (s : State) : Host.Outcome State Fault Refusal :=
  run dt (doPauseExpire port c) s

/-- PAUSE_LONG (R263): queue `c` of a backhaul port has been paused for 100 ms without a break. -/
def doPauseLong (port : Bool) (c : Fin 16) (d : Dev) : Dev :=
  match kfind (d.qport (bhPort port)).pauses c.val with
  | some _ => pauseWatch d
  | none => d

def execPauseLong (dt : Nat) (port : Bool) (c : Fin 16) (s : State) : Host.Outcome State Fault Refusal :=
  run dt (doPauseLong port c) s

/-- PFC_REFRESH (R257): the frame of every priority in XOFF whose refresh is due goes out again in one frame. -/
def doPfcRefresh (port : Bool) (i : Fin 8) (d : Dev) : Dev :=
  let p := bhPort port
  let q := d.qport p
  let due (t : Option Nat) : Bool := match t with | some t => decide (t ≤ d.whl.time) | none => false
  match kfind q.xoff i.val with
  | none => d
  | some t =>
    if due t then
      sendFc (d.modQport p (fun q => { q with xoff := kmap q.xoff (fun _ t => if due t then none else t) })) p
        ((q.xoff.filter (fun x => due x.2)).map (fun x => (x.1, q.quantaTx)))
    else d

def execPfcRefresh (dt : Nat) (port : Bool) (i : Fin 8) (s : State) : Host.Outcome State Fault Refusal :=
  run dt (doPfcRefresh port i) s

/-! ## Token buckets -/

/-- Octets in the unit of a bucket's tokens. -/
def tokens_ (o : Nat) : Int := ((o * 1000000 : Nat) : Int)

/-- BURST as tokens. -/
def Bucket.top (b : Bucket) : Int := tokens_ b.burst

/-- Tokens accrued to `now` at RATE × 1,000 octets a second, held at BURST (R244, R253). -/
def Bucket.accrue (b : Bucket) (now : Nat) : Bucket :=
  { b with tok := min b.top (b.tok + ((b.rate * (now - b.last) : Nat) : Int)), last := now }

/-- A shaper at `now`: a disabled one holds BURST. -/
def Bucket.shaper (b : Bucket) (now : Nat) : Bucket :=
  if b.en then b.accrue now else { b with tok := b.top, last := now }

/-- An enabled shaper is charged `o` octets (R242). -/
def Bucket.charge (b : Bucket) (now o : Nat) : Bucket :=
  let b := b.shaper now
  if b.en then { b with tok := b.tok - tokens_ o } else b

/-- A disabled shaper, or one that holds at least 0 tokens (R241). -/
def Bucket.allows (b : Bucket) (now : Nat) : Bool := !b.en || decide (0 ≤ (b.shaper now).tok)

/-- Present whole tokens. -/
def Bucket.whole (b : Bucket) : Int := b.tok / 1000000

/-- The shaper of queue `c`. -/
def QPort.shaperOf (q : QPort) (c : Nat) : Bucket := kgetD q.shapers c {}

/-! ## Time gates -/

/-- Entry `i` of a list (R248). -/
def GateList.entry (g : GateList) (i : Nat) : BitVec 16 × Nat := kgetD g.entries i (0xFFFF, 1000000)

/-- The entries in force over one cycle, `left` ns of it remaining: a short list's last entry stays, a long list is cut
(R248). -/
def cycleOf (g : GateList) : List Nat → Nat → List (BitVec 16 × Nat)
  | [], _ => []
  | [i], left => [((g.entry i).1, left)]
  | i :: r, left =>
    let (b, t) := g.entry i
    if left ≤ t then [(b, left)] else (b, t) :: cycleOf g r (left - t)

/-- The segments of a list's cycle. -/
def GateList.segs (g : GateList) : List (BitVec 16 × Nat) := cycleOf g (List.range g.len) g.cycle

/-- Gate `c` in a word of gate bits; gate 0 is always open (R247). -/
def gateBit (b : BitVec 16) (c : Nat) : Bool := c == 0 || b.getLsbD c

/-- Length of the open run at the head of a list of segments. -/
def openRun (c : Nat) : List (BitVec 16 × Nat) → Nat
  | [] => 0
  | (b, t) :: r => if gateBit b c then t + openRun c r else 0

/-- The segments from position `pos` on. -/
def dropTime : Nat → List (BitVec 16 × Nat) → List (BitVec 16 × Nat)
  | _, [] => []
  | pos, (b, t) :: r => if pos < t then (b, t - pos) :: r else dropTime (pos - t) r

/-- Time from cycle position `pos` until gate `c` next closes; none if it never does. -/
def untilClose (c : Nat) (segs : List (BitVec 16 × Nat)) (pos : Nat) : Option Nat :=
  if segs.all (fun x => gateBit x.1 c) then none else some (openRun c (dropTime pos segs ++ segs))

/-- The longest open run of gate `c`, joined across the cycle boundary (R247); none for a gate that never closes. -/
def longestRun (c : Nat) (segs : List (BitVec 16 × Nat)) : Option Nat :=
  if segs.all (fun x => gateBit x.1 c) then none
  else some (((List.range segs.length).map (fun i => openRun c (segs.drop i ++ segs))).foldl max 0)

/-- Cycle position of device time `t` under the operative list (R248); before BASE, to which only a step back leads, the cycle runs
back in time (log 121). -/
def Gates.pos (g : Gates) (t : Nat) : Nat := (((t : Int) - (g.oper.base : Int)) % (g.oper.cycle : Int)).toNat

/-- The operative list drives the gates (R248, R250). -/
def Gates.drives (g : Gates) : Bool := g.oper.en

/-- Index of the entry in force at cycle position `pos`. -/
def entryAt : List (BitVec 16 × Nat) → Nat → Nat
  | [], _ => 0
  | [_], _ => 0
  | (_, t) :: r, pos => if pos < t then 0 else 1 + entryAt r (pos - t)

/-- The gates' present states and the entry in force follow device time (R248). -/
def Gates.refresh (g : Gates) (t : Nat) : Gates :=
  if g.drives then
    let i := entryAt g.oper.segs (g.pos t)
    { g with entry := i, opened := (g.oper.entry i).1 ||| 1 }
  else { g with entry := 0, opened := 0xFFFF }

/-- A head packet of `ns` may start at `t` on gate `c` (R247). -/
def Gates.fits (g : Gates) (c t ns : Nat) : Bool :=
  (!g.pending || decide (t + ns ≤ g.cct)) &&
    (!g.drives ||
      match untilClose c g.oper.segs (g.pos t) with
      | none => true
      | some r => decide (ns ≤ r) && decide (0 < r))

/-- A head packet of `ns` on gate `c` can never start (R247). -/
def Gates.oversize (g : Gates) (c ns : Nat) : Bool :=
  g.oper.en && match longestRun c g.oper.segs with | none => false | some r => decide (r < ns)

/-- The admin list becomes operative (R250). -/
def gateSwitchNow (d : Dev) (p : Port) : Dev :=
  let now := d.whl.time
  let d := d.modQport p (fun q =>
    let g := { q.gates with oper := q.gates.admin, pending := false }
    { q with gates := g.refresh now })
  report d evGateSwitch []

/-- A pending change whose time has come is made (R250). -/
def gateDue (d : Dev) (p : Port) : Dev :=
  let g := (d.qport p).gates
  if g.pending ∧ g.cct ≤ d.whl.time then gateSwitchNow d p else d

/-- The line port numbered `n`. -/
def linePort (n : Fin 3) : Port :=
  match n with
  | 0 => .bh0
  | 1 => .bh1
  | 2 => .plk

/-- GATE_SWITCH (R250). -/
def doGateSwitch (p : Fin 3) (d : Dev) : Dev := gateDue d (linePort p)

def execGateSwitch (dt : Nat) (p : Fin 3) (s : State) : Host.Outcome State Fault Refusal := run dt (doGateSwitch p) s

/-- GATE_ENTRY_CHANGE (R248). -/
def doGateEntryChange (p : Fin 3) (d : Dev) : Dev :=
  d.modQport (linePort p) (fun q => { q with gates := q.gates.refresh d.whl.time })

def execGateEntryChange (dt : Nat) (p : Fin 3) (s : State) : Host.Outcome State Fault Refusal :=
  run dt (doGateEntryChange p) s

/-- The configuration change time (R249). -/
def changeTime (now base cycle : Nat) : Nat :=
  if now + 1000000 ≤ base then base else base + max 1 ((now + 1000000 - base + cycle - 1) / cycle) * cycle

/-- The admin list is within R248. -/
def GateList.ok (g : GateList) : Bool :=
  decide (1 ≤ g.len) && decide (g.len ≤ 64) && decide (1000 ≤ g.cycle) && decide (g.cycle ≤ 1000000000)
    && (List.range g.len).all (fun i =>
      let t := (g.entry i).2
      decide (100 ≤ t) && decide (t ≤ 1000000000))

/-- A write of QUE_GCTRL (R249, R261). -/
def writeGctrl (d : Dev) (p : Port) (v : Word) : Dev × Status :=
  let g := (d.qport p).gates
  let admin := { g.admin with en := bit v 27, len := fld v 6 0 }
  let put (f : Gates → Gates) : Dev := d.modQport p (fun q => { q with gates := f { q.gates with admin := admin } })
  if bit v 31 then
    if g.pending then (d, .state)
    else if d.whl.todValid = false then (d, .time)
    else if admin.ok = false then (d, .range)
    else (put (fun g => { g with pending := true, cct := changeTime d.whl.time admin.base admin.cycle }), .ok)
  else if bit v 30 then (put (fun g => { g with pending := false }), .ok)
  else if g.pending then (d, .state)
  else (put id, .ok)

/-- GATE_ARM (R249). -/
def doGateArm (p : Fin 3) (v : Word) (d : Dev) : Dev := regRow (fun d => writeGctrl d (linePort p) v) d

def execGateArm (dt : Nat) (p : Fin 3) (v : Word) (s : State) : Host.Outcome State Fault Refusal :=
  run dt (doGateArm p v) s

/-- GATE_CANCEL (R249). -/
def doGateCancel (p : Fin 3) (v : Word) (d : Dev) : Dev := regRow (fun d => writeGctrl d (linePort p) v) d

def execGateCancel (dt : Nat) (p : Fin 3) (v : Word) (s : State) : Host.Outcome State Fault Refusal :=
  run dt (doGateCancel p v) s

/-! ## Registers of QUE -/

/-- A RATE or BURST write of a bucket: the tokens accrued so far are kept, clamped to the new BURST (R245, R254); a
shaper that becomes enabled starts full (R244). -/
def writeRate (b : Bucket) (now : Nat) (shaper : Bool) (v : Word) : Option Bucket :=
  let r := fld v 20 0
  if 1 ≤ r ∧ r ≤ 1250000 then
    let b := if shaper then b.shaper now else b.accrue now
    some { b with rate := r, en := shaper && bit v 31 }
  else none

def writeBurst (b : Bucket) (now : Nat) (shaper : Bool) (v : Word) : Option Bucket :=
  let n := fld v 20 0
  if n ≤ 1048576 then
    let b := if shaper then b.shaper now else b.accrue now
    let b' := { b with burst := n }
    let full : Bool := shaper && !b.en
    some (if full then { b' with tok := b'.top } else { b' with tok := min b'.top b'.tok })
  else none

/-- A write of QUE_PCFG or QUE_FC3 gives a port new settings (R257, R258). -/
def changeFc (d : Dev) (p : Port) (f : QPort → QPort) : Dev × Status :=
  let d' := d.modQport p f
  if d.headSum < d'.headSum ∧ 16384 < d'.headSum then (d, .range)
  else
    let q := d.qport p
    let q' := d'.qport p
    let d := if q.fcMode = q'.fcMode ∧ q.pfcEn = q'.pfcEn then d else endXoff d p
    (bufEval (d.modQport p f), .ok)

/-- A write of a register of port `p` at offset `o` below 0x400 (R261); none where no register lies. -/
def writePortReg (d : Dev) (p : Port) (o : Nat) (v : Word) : Option (Dev × Status) :=
  let q := d.qport p
  let now := d.whl.time
  let take (r : Option Bucket) (f : Bucket → QPort → QPort) : Dev × Status :=
    match r with
    | some b => (d.modQport p (f b), .ok)
    | none => (d, .range)
  if o < 0x100 then
    let c := o / 16
    if o % 16 = 0 then
      some (take (writeRate (q.shaperOf c) now true v) (fun b q => { q with shapers := ksetD q.shapers c b {} }))
    else if o % 16 = 4 then
      some (take (writeBurst (q.shaperOf c) now true v) (fun b q => { q with shapers := ksetD q.shapers c b {} }))
    else if o % 16 = 8 then some (d, .ok)
    else if o % 16 = 12 then
      let w := fld v 7 0
      some (if w = 0 then (d, .range)
        else (d.modQport p (fun q => { q with weights := ksetD q.weights c w 16 }), .ok))
    else none
  else if o = 0x100 then some (take (writeRate q.shaper now true v) (fun b q => { q with shaper := b }))
  else if o = 0x104 then some (take (writeBurst q.shaper now true v) (fun b q => { q with shaper := b }))
  else if o = 0x108 ∨ o = 0x110 then some (d, .ok)
  else if o = 0x10C then
    if hasLine p = false then some (d, .ok)
    else if isBh p = false then some (d.modQport p (fun q => { q with ovh := fld v 5 0 }), .ok)
    else if fld v 9 8 = 3 then some (d, .range)
    else some (changeFc d p (fun q => { q with fcMode := fld v 9 8, ovh := fld v 5 0 }))
  else if o = 0x114 then
    if isBh p = false then some (d, .ok)
    else if fld v 31 16 ≤ fld v 15 0 then some (d, .range)
    else some (bufEval (d.modQport p (fun q => { q with xoffMark := fld v 31 16, xonMark := fld v 15 0 })), .ok)
  else if o = 0x118 then
    if fld v 31 16 = 0 ∨ fld v 31 16 < 2 * fld v 15 0 then some (d, .range)
    else some (d.modQport p (fun q => { q with quantaTx := fld v 31 16, refreshQ := fld v 15 0 }), .ok)
  else if o = 0x11C then
    if 4096 < fld v 28 16 then some (d, .range)
    else some (changeFc d p (fun q => { q with headroom := fld v 28 16, pfcEn := BitVec.ofNat 8 (fld v 7 0) }))
  else if (index? o 0x180 4 5).isSome then some (d, .ok)
  else none

/-- A write of a gate register of port `p` at offset `o` (R261). -/
def writeGateReg (d : Dev) (p : Port) (o : Nat) (v : Word) : Option (Dev × Status) :=
  let g := (d.qport p).gates
  let put (f : GateList → GateList) : Option (Dev × Status) :=
    some (if g.pending then (d, .state)
      else (d.modQport p (fun q => { q with gates := { q.gates with admin := f q.gates.admin } }), .ok))
  if o = 0 then some (writeGctrl d p v)
  else if o = 4 then put (fun a => { a with base := a.base % 2 ^ 32 + v.toNat * 2 ^ 32 })
  else if o = 8 then put (fun a => { a with base := a.base / 2 ^ 32 * 2 ^ 32 + v.toNat })
  else if o = 0xC then put (fun a => { a with cycle := v.toNat })
  else if (index? o 0x10 4 6).isSome then some (d, .ok)
  else if 0x100 ≤ o ∧ o < 0x300 then
    let i := (o - 0x100) / 8
    if o % 8 = 0 then
      put (fun a =>
        { a with entries := ksetD a.entries i (BitVec.ofNat 16 (fld v 15 0), (a.entry i).2) (0xFFFF, 1000000) })
    else if o % 8 = 4 then
      put (fun a => { a with entries := ksetD a.entries i ((a.entry i).1, v.toNat) (0xFFFF, 1000000) })
    else none
  else if 0x400 ≤ o ∧ o < 0x600 then some (d, .ok)
  else none

/-- A write of QUE_PRIMAPm (R261). -/
def writePrimap (d : Dev) (m : Nat) (v : Word) : Dev × Status :=
  let put (x : KMap Nat) (j : Nat) : KMap Nat :=
    let c := 8 * m + j
    ksetD x c (fld v (4 * j + 2) (4 * j)) (c / 2)
  (bufEval { d with que := { d.que with primap := (List.range 8).foldl put d.que.primap } }, .ok)

/-- A write of the register of QUE at offset `o` of its window; none where no register lies (R261). -/
def writeQue (d : Dev) (o : Nat) (v : Word) : Option (Dev × Status) :=
  if o < 0x1400 then (match portOf (o / 0x400) with | some p => writePortReg d p (o % 0x400) v | none => none)
  else if o = 0x2000 then some (writePrimap d 0 v)
  else if o = 0x2004 then some (writePrimap d 1 v)
  else if 0x10000 ≤ o ∧ o < 0x13000 then
    (match portOf ((o - 0x10000) / 0x1000) with | some p => writeGateReg d p ((o - 0x10000) % 0x1000) v | none => none)
  else none

/-- A read of a register of port `p` (R261). -/
def readPortReg (d : Dev) (p : Port) (o : Nat) : Option Word :=
  let q := d.qport p
  let now := d.whl.time
  let rate (b : Bucket) : Word := pack [(31, b2n b.en), (0, b.rate)]
  let tok (b : Bucket) : Word := BitVec.ofNat 32 (toTwos 32 (b.shaper now).whole)
  let num (n : Nat) : Option Word := some (BitVec.ofNat 32 n)
  if o < 0x100 then
    let b := q.shaperOf (o / 16)
    if o % 16 = 0 then some (rate b)
    else if o % 16 = 4 then num b.burst
    else if o % 16 = 8 then some (tok b)
    else if o % 16 = 12 then num (kgetD q.weights (o / 16) 16)
    else none
  else if o = 0x100 then some (rate q.shaper)
  else if o = 0x104 then num q.shaper.burst
  else if o = 0x108 then some (tok q.shaper)
  else if o = 0x10C then some (pack [(8, q.fcMode), (0, q.ovh)])
  else if o = 0x110 then
    let paused := (List.range 16).filter (fun c =>
      match kfind q.pauses c with | some (e, _) => decide (now < e) | none => false)
    some (pack ((q.xoff.map (fun x => (16 + x.1, 1))) ++ paused.map (fun c => (c, 1))))
  else if o = 0x114 then (if isBh p then some (pack [(16, q.xoffMark), (0, q.xonMark)]) else num 0)
  else if o = 0x118 then some (pack [(16, q.quantaTx), (0, q.refreshQ)])
  else if o = 0x11C then some (pack [(16, q.headroom), (0, q.pfcEn.toNat)])
  else if o = 0x180 then num q.dropGate
  else if o = 0x184 then num q.pauseRx
  else if o = 0x188 then num q.pauseTx
  else if o = 0x18C then num q.fcIgnored
  else if o = 0x190 then num q.hdrmOvf
  else none

/-- A read of a gate register (R261). -/
def readGateReg (d : Dev) (p : Port) (o : Nat) : Option Word :=
  let g := (d.qport p).gates.refresh d.whl.time
  let num (n : Nat) : Option Word := some (BitVec.ofNat 32 n)
  let hi (n : Nat) : Option Word := some (BitVec.ofNat 32 (n >>> 32))
  let ent (l : GateList) (k : Nat) : Option Word :=
    if k % 8 = 0 then num (l.entry (k / 8)).1.toNat else if k % 8 = 4 then num (l.entry (k / 8)).2 else none
  if o = 0 then some (pack [(29, b2n g.pending), (28, b2n g.oper.en), (27, b2n g.admin.en), (0, g.admin.len)])
  else if o = 4 then hi g.admin.base
  else if o = 8 then num g.admin.base
  else if o = 0xC then num g.admin.cycle
  else if o = 0x10 then hi g.cct
  else if o = 0x14 then num g.cct
  else if o = 0x18 then some (pack [(16, g.opened.toNat), (8, g.entry), (0, g.oper.len)])
  else if o = 0x1C then num g.oper.cycle
  else if o = 0x20 then hi g.oper.base
  else if o = 0x24 then num g.oper.base
  else if 0x100 ≤ o ∧ o < 0x300 then ent g.admin (o - 0x100)
  else if 0x400 ≤ o ∧ o < 0x600 then ent g.oper (o - 0x400)
  else none

/-- A read of the register of QUE at offset `o` of its window (R261). -/
def readQue (d : Dev) (o : Nat) : Option Word :=
  if o < 0x1400 then (match portOf (o / 0x400) with | some p => readPortReg d p (o % 0x400) | none => none)
  else if o = 0x2000 then some (pack ((List.range 8).map (fun j => (4 * j, d.que.prio j))))
  else if o = 0x2004 then some (pack ((List.range 8).map (fun j => (4 * j, d.que.prio (8 + j)))))
  else if 0x10000 ≤ o ∧ o < 0x13000 then
    (match portOf ((o - 0x10000) / 0x1000) with | some p => readGateReg d p ((o - 0x10000) % 0x1000) | none => none)
  else none

/-- A write that a row of the table restricts to certain registers of QUE: elsewhere it has no effect. -/
def queRow (d : Dev) (addr : Nat) (v : Word) (mine : Nat → Bool) : Dev :=
  match block? addr with
  | some (.que, o) => if mine o then (match writeQue d o v with | some r => regRow (fun _ => r) d | none => d) else d
  | _ => d

/-- SHAPER_WRITE (R245): QUE_QRATE, QUE_QBURST, QUE_PRATE, QUE_PBURST. -/
def doShaperWrite (addr : Nat) (v : Word) (d : Dev) : Dev :=
  queRow d addr v (fun o =>
    decide (o < 0x1400) &&
      (if o % 0x400 < 0x100 then o % 16 == 0 || o % 16 == 4 else o % 0x400 == 0x100 || o % 0x400 == 0x104))

def execShaperWrite (dt : Nat) (addr : Nat) (v : Word) (s : State) : Host.Outcome State Fault Refusal :=
  run dt (doShaperWrite addr v) s

/-- FC_CONFIG_WRITE (R257): QUE_PCFG and QUE_FC3 of BH0 and BH1. -/
def doFcConfigWrite (addr : Nat) (v : Word) (d : Dev) : Dev :=
  queRow d addr v (fun o => decide (o < 0x800) && (o % 0x400 == 0x10C || o % 0x400 == 0x11C))

def execFcConfigWrite (dt : Nat) (addr : Nat) (v : Word) (s : State) : Host.Outcome State Fault Refusal :=
  run dt (doFcConfigWrite addr v) s

/-! ## Policers -/

/-- Policer `i`. -/
def Crd.get (x : Crd) (i : Nat) : Bucket := kgetD x.pol i {}

/-- Selector of (p, c): EN, SPREAD, BASE (R262). -/
def Crd.selOf (x : Crd) (k : Nat) : Bool × Nat × Nat := kgetD x.sel k (false, 0, 0)

/-- A write of the register of CRD at offset `o` of its window (R262). -/
def writeCrd (d : Dev) (o : Nat) (v : Word) : Option (Dev × Status) :=
  let now := d.whl.time
  if o < 0x140 then
    if o % 4 ≠ 0 then none
    else if fld v 11 9 = 7 ∨ 512 < fld v 8 0 + 2 ^ fld v 11 9 then some (d, .range)
    else some ({ d with crd := { d.crd with
      sel := ksetD d.crd.sel (o / 4) (bit v 31, fld v 11 9, fld v 8 0) (false, 0, 0) } }, .ok)
  else if 0x1000 ≤ o ∧ o < 0x3000 then
    let i := (o - 0x1000) / 16
    let take (r : Option Bucket) : Dev × Status :=
      match r with
      | some b => ({ d with crd := { d.crd with pol := ksetD d.crd.pol i b {} } }, .ok)
      | none => (d, .range)
    if o % 16 = 0 then some (take (writeRate (d.crd.get i) now false v))
    else if o % 16 = 4 then some (take (writeBurst (d.crd.get i) now false v))
    else if o % 16 = 8 ∨ o % 16 = 12 then some (d, .ok)
    else none
  else none

/-- A read of the register of CRD at offset `o` (R262). -/
def readCrd (d : Dev) (o : Nat) : Option Word :=
  let num (n : Nat) : Option Word := some (BitVec.ofNat 32 n)
  if o < 0x140 then
    if o % 4 ≠ 0 then none
    else
      let (en, k, base) := d.crd.selOf (o / 4)
      some (pack [(31, b2n en), (9, k), (0, base)])
  else if 0x1000 ≤ o ∧ o < 0x3000 then
    let i := (o - 0x1000) / 16
    let b := d.crd.get i
    if o % 16 = 0 then num b.rate
    else if o % 16 = 4 then num b.burst
    else if o % 16 = 8 then num (b.accrue d.whl.time).whole.toNat
    else if o % 16 = 12 then num (kgetD d.crd.drop i 0)
    else none
  else none

/-- POLICER_WRITE (R254): CRD_RATEi and CRD_BURSTi. -/
def doPolicerWrite (addr : Nat) (v : Word) (d : Dev) : Dev :=
  match block? addr with
  | some (.crd, o) =>
    if 0x1000 ≤ o ∧ (o % 16 = 0 ∨ o % 16 = 4) then (match writeCrd d o v with | some r => regRow (fun _ => r) d | none => d) else d
  | _ => d

def execPolicerWrite (dt : Nat) (addr : Nat) (v : Word) (s : State) : Host.Outcome State Fault Refusal :=
  run dt (doPolicerWrite addr v) s

/-- The policer's judgement of a packet of `l` octets (R253). -/
def police (d : Dev) (i l : Nat) : Bool × Dev :=
  let b := (d.crd.get i).accrue d.whl.time
  let need := tokens_ l
  let put (b : Bucket) : Dev := { d with crd := { d.crd with pol := kput d.crd.pol i b } }
  if need ≤ b.tok then (true, put { b with tok := b.tok - need })
  else
    let d := put b
    (false, report { d with crd := { d.crd with drop := kmod d.crd.drop i 0 inc32 } } evPoliceDrop [])

/-! ## Selection -/

/-- Head packet of queue (p, c) may start (R228): its ingress has ended well, or it cuts through. -/
def QPkt.ready (q : QPkt) : Bool := q.whole || q.cut

/-- Shaped length Ls (R242). -/
def shapedLen (q : QPort) (k : QPkt) : Nat := k.p.len + q.ovh

/-- Queue `c` is paused by the far end. -/
def QPort.paused (q : QPort) (c now : Nat) : Bool :=
  match kfind q.pauses c with | some (e, _) => decide (now < e) | none => false

/-- Eligibility of queue (p, c) (R241). -/
def eligible (d : Dev) (p : Port) (c : Nat) : Bool :=
  let q := d.qport p
  let now := d.whl.time
  match d.queue p c with
  | [] => false
  | k :: _ =>
    k.ready && (q.shaperOf c).allows now
      && (!hasLine p || q.gates.fits c now (d.lineNs p (shapedLen q k)))
      && (!isBh p || !q.paused c now)

/-- S(a) is before S(b), modulo 2^48 (R242). -/
def tagBefore (a b : Nat) : Bool :=
  let x := (b + 2 ^ 48 - a % 2 ^ 48) % 2 ^ 48
  decide (1 ≤ x) && decide (x ≤ 2 ^ 47 - 1)

/-- select(p) of R242. -/
def selectQueue (d : Dev) (p : Port) : Option Nat :=
  let q := d.qport p
  if q.shaper.allows d.whl.time then
    match [0, 1, 2, 3].find? (eligible d p) with
    | some c => some c
    | none =>
      let better (best : Option Nat) (c : Nat) : Option Nat :=
        if eligible d p c then
          match best with
          | none => some c
          | some b => if tagBefore (kgetD q.tags c 0) (kgetD q.tags b 0) then some c else some b
        else best
      ((List.range 12).map (· + 4)).foldl better none
  else none

/-- start(p, c, Ls) of R242: tags and tokens. -/
def startQueue (q : QPort) (c ls now : Nat) : QPort :=
  let q :=
    if 4 ≤ c then
      let s := kgetD q.tags c 0
      { q with vtime := s, tags := kput q.tags c ((s + ls * 4096 / kgetD q.weights c 16) % 2 ^ 48) }
    else q
  let b := (q.shaperOf c).charge now ls
  { q with shapers := ksetD q.shapers c b {}, shaper := q.shaper.charge now ls }

end Sys2Proof.Machine
end

