-- ==== Sys2Proof/Machine/Shuttle.lean ====
section
/-! DEFINITION. The shuttle (R225 to R239): the two-level longest-prefix match, the path of a packet from ingress to
egress, links, table operations, banks, and the registers of SHT. -/

namespace Sys2Proof.Machine

/-! ## Longest-prefix match -/

/-- An address masked to its first `l` bits. -/
def maskTo (a : BitVec 128) (l : Nat) : BitVec 128 := (a >>> (128 - l)) <<< (128 - l)

/-- Bucket of a prefix (R231). -/
def bucketOf (pre : BitVec 128) (len : Nat) : Nat :=
  ((crc32c (octets 16 pre.toNat ++ octets 1 len)).setWidth 16).toNat

/-- A parity bit of an entry fails (R232). -/
def TEntry.bad (e : TEntry) : Bool := e.badKey || e.badRes

/-- Entry `i` of the MAM (level 1) or of the hash level (level 2). -/
def Bank.entry (b : Bank) (level i : Nat) : TEntry := kgetD (if level = 1 then b.mam else b.hash) i {}

/-- Entry `i` of a level becomes `e`. -/
def Bank.put (b : Bank) (level i : Nat) (e : TEntry) : Bank :=
  if level = 1 then { b with mam := ksetD b.mam i e {} } else { b with hash := ksetD b.hash i e {} }

/-- Entry `i` of a level loses its VALID, and only that (R232, R235; log 119). -/
def Bank.drop (b : Bank) (level i : Nat) : Bank := b.put level i { b.entry level i with valid := false }

/-- Lengths of valid hash entries, longest first, without repeats: filter bits 64 to 127 (R231). -/
def Bank.lengths (b : Bank) : List Nat :=
  ((List.range 64).map (fun i => 128 - i)).filter (fun l => b.hash.any (fun e => e.2.valid && e.2.len == l))

/-- What a lookup found: level (1 MAM, 2 hash), index and entry. -/
structure Hit where
  level : Nat
  index : Nat
  e : TEntry
  deriving DecidableEq, Repr

/-- A place that a lookup visits: level and index of an entry, and the length it is looked up with, which a MAM entry brings
itself. -/
structure Probe where
  level : Nat
  index : Nat
  len : Option Nat
  deriving DecidableEq, Repr

/-- The places that a lookup of `dst` visits, in the order of R231: every way of the buckets probed, then the MAM. -/
def Bank.probes (b : Bank) (dst : BitVec 128) : List Probe :=
  let ways (l : Nat) : List Probe :=
    let k := 4 * bucketOf (maskTo dst l) l
    [k, k + 1, k + 2, k + 3].map (fun i => ⟨2, i, some l⟩)
  (b.lengths.map ways).flatten ++ b.mam.map (fun x => ⟨1, x.1, none⟩)

/-- The entry of a place matches `dst` (R231). -/
def Probe.fits (p : Probe) (e : TEntry) (dst : BitVec 128) : Bool :=
  match p.len with
  | some l => e.len == l && e.pre == maskTo dst l
  | none => e.pre == maskTo dst e.len

/-- The bank that BANK names: 0 active, 1 shadow (R234). -/
def Sht.bankAt (s : Sht) (shadow : Bool) : Bank := if shadow then s.shadow else s.bank
def Sht.putBank (s : Sht) (shadow : Bool) (b : Bank) : Sht := if shadow then { s with shadow := b } else { s with bank := b }

/-- A parity failure (R232): the first since VALID was cleared is latched; each is counted and reported. -/
def parityAt (d : Dev) (shadow : Bool) (table index : Nat) : Dev :=
  let d := d.modSht (fun s =>
    let s := { s with parity := inc32 s.parity, perrAt := some d.pwr.wall }
    if s.perrValid then s
    else { s with perrValid := true, perrBank := shadow, perrTable := table, perrIndex := index })
  report d evTableParity []

/-- A lookup goes on over the places left (R231): an entry of bad parity is invalidated and reported where it is met (R232). -/
def lookupAt (shadow : Bool) (dst : BitVec 128) : Dev → List Probe → Dev × Option Hit
  | d, [] => (d, none)
  | d, p :: r =>
    let e := (d.sht.bankAt shadow).entry p.level p.index
    if e.valid = false then lookupAt shadow dst d r
    else if e.bad then
      let d := d.modSht (fun s => s.putBank shadow ((s.bankAt shadow).drop p.level p.index))
      lookupAt shadow dst (parityAt d shadow (p.level - 1) p.index) r
    else if p.fits e dst then (d, some ⟨p.level, p.index, e⟩)
    else lookupAt shadow dst d r

/-- A lookup in a bank (R231). -/
def lookup (d : Dev) (shadow : Bool) (dst : BitVec 128) : Dev × Option Hit :=
  lookupAt shadow dst d ((d.sht.bankAt shadow).probes dst)

/-! ## The path of a packet -/

/-- The flow hash (R229). -/
def flowHash (p : Packet) : BitVec 32 :=
  let l4 := (p.nextHdr == 17 || p.nextHdr == 6) && !p.frag
  crc32c (octets 16 p.src.toNat ++ octets 16 p.dst.toNat ++ octets 3 p.flow.toNat ++ octets 1 p.nextHdr.toNat
    ++ octets 2 (if l4 then p.sport.toNat else 0) ++ octets 2 (if l4 then p.dport.toNat else 0))

/-- The solicited-node group of an address. -/
def solicited (a : BitVec 128) : BitVec 128 := (0xFF0200000000000000000001FF : BitVec 104) ++ a.setWidth 24

/-- The device's own addresses and groups as seen from ingress port `p` (R225 step 2, R265, R71). -/
def ownAddr (d : Dev) (p : Port) (a : BitVec 128) : Bool :=
  a == d.ply.devAddr || (hasLine p && a == linkLocal d) || a == meshAddr d
    || a == d.ply.loomGroup || a == 0xFF020000000000000000000000000001
    || a == solicited d.ply.devAddr || a == solicited (linkLocal d) || a == solicited (meshAddr d)
    || a == 0xFF020000000000000000000000000181 || a == 0xFF0E0000000000000000000000000181
    || (p == .mesh && a == 0xFF02000000000000000000000000001A)

/-- Class of a DSCP (R225, R239). -/
def dscpClass (d : Dev) (v : BitVec 6) : Nat :=
  let i := v.toNat / 8
  let j := v.toNat % 8
  fld (kgetD d.sht.dscp i 0) (4 * j + 3) (4 * j)

/-- The port that the BH selection table names for a flow, and the device after a parity failure there (R229, R232). -/
def bhEntry (d : Dev) (p : Packet) : Port × Dev :=
  let i := ((flowHash p).setWidth 8).toNat
  match kgetD d.sht.bank.bhsel i (i % 2) with
  | 0 => (.bh0, d)
  | 1 => (.bh1, d)
  | _ => (.bh0, parityAt d false 2 i)

/-- While a port's link is down its flows take the other backhaul port (R229). -/
def bhPath (d : Dev) (p : Port) : Port :=
  let o : Port := if p = .bh0 then .bh1 else .bh0
  if d.linkUp p = false ∧ d.linkUp o then o else p

/-- MTU of a port (R239). -/
def mtuOf (d : Dev) (p : Port) : Nat := if hasLine p then kgetD d.sht.mtu p.num 1500 else 1280

/-- The node that a MESH result names (R230). -/
def meshNode (d : Dev) (result : Word) (dst : BitVec 128) : Option Nat :=
  let n := fld result 16 0
  if n = 0x1FFFF then
    ((d.wrp.nodes.find? (fun x => ifaceId x.2.eui == dst.setWidth 64))).map (·.1)
  else some n

/-- Adds one to a drop counter. -/
def Dev.shtCount (d : Dev) (f : Sht → Sht) : Dev := d.modSht f

def dropBuf (d : Dev) : Dev := d.shtCount (fun s => { s with dropBuf := inc32 s.dropBuf })
def dropMiss (d : Dev) : Dev := d.shtCount (fun s => { s with dropMiss := inc32 s.dropMiss })
def dropNonip (d : Dev) : Dev := d.shtCount (fun s => { s with dropNonip := inc32 s.dropNonip })
def dropHop (d : Dev) : Dev := d.shtCount (fun s => { s with dropHop := inc32 s.dropHop })
def dropMtu (d : Dev) : Dev := d.shtCount (fun s => { s with dropMtu := inc32 s.dropMtu })
def dropNoport (d : Dev) : Dev := d.shtCount (fun s => { s with dropNoport := inc32 s.dropNoport })
def dropNonode (d : Dev) : Dev := d.shtCount (fun s => { s with dropNonode := inc32 s.dropNonode })

/-- How admission draws the cells of a packet of `n` cells (R226, R258): from the unused minimum, the shared pool, or
the headroom of its ingress priority; none where it is dropped, with whether the headroom was too little. -/
def drawCells (d : Dev) (p : Port) (c n : Nat) (inPort : Port) (inClass : Nat) : Option (Nat × Nat × Nat) × Bool :=
  let held := d.heldBy p c
  let (_, alpha, least) := d.qcfg p c
  let m := min n (least - (held.map (·.minCells)).sum)
  let r := n - m
  let f := d.freeCells
  if r = 0 ∨ (r ≤ f ∧ 16 * (held.map (·.shared)).sum < 2 ^ alpha * f) then (some (m, r, 0), false)
  else
    let q := d.qport inPort
    let i := if q.fcMode = 1 then 0 else d.que.prio inClass
    if isBh inPort ∧ (kfind q.xoff i).isSome then
      if d.headUsed inPort i + n ≤ q.headroom then (some (0, 0, n), false) else (none, true)
    else (none, false)

/-- Steps 7 and 8 of R225: admission, marking, waking and queueing. -/
def enterQueue (d : Dev) (inPort : Port) (inClass : Nat) (p : Port) (c : Nat) (k : Packet) (node : Option Nat) : Dev :=
  let n := (k.len + 255) / 256
  match drawCells d p c n inPort inClass with
  | (none, hdrm) =>
    let d := dropBuf d
    if hdrm then report (d.modQport inPort (fun q => { q with hdrmOvf := inc32 q.hdrmOvf })) evHeadroomOvf [] else d
  | (some (m, s, h), _) =>
    let (mark, _, _) := d.qcfg p c
    let depth := ((d.heldBy p c).map QPkt.cells).sum
    let ce := d.sht.ecnEn && k.ipv6 && p != .cpu && mark != 0 && decide (mark ≤ depth) && (k.ecn == 1 || k.ecn == 2)
    let old := d.queue p c
    let whole := !hasLine inPort
    let cut := hasLine inPort && hasLine p && (kgetD d.sht.ct inPort.num 0).getLsbD c && (kgetD d.sht.ct p.num 0).getLsbD c
      && old.isEmpty && !(isBh p && (d.qport p).paused c d.whl.time) && (d.slow p || !d.slow inPort)
    let k' := if ce then { k with ecn := 3 } else k
    let pkt : QPkt :=
      { p := k', inPort := inPort, inClass := inClass, minCells := m, shared := s, head := h, node := node,
        whole := whole, cut := cut }
    let d := if ce then d.modSht (fun s => { s with ecnMarked := inc32 s.ecnMarked }) else d
    let d := if old.isEmpty ∧ 4 ≤ c then d.modQport p (fun q => { q with tags := kput q.tags c q.vtime }) else d
    let d := d.setQueue p c (old ++ [pkt])
    let d := if whole then d else d.modSht (fun s => { s with ingress := kput s.ingress inPort.num ⟨p, c⟩ })
    bufEval d

/-- Steps 6 to 8 for a packet that fits its egress port; MESH names a node. -/
def forwardFit (d : Dev) (inPort : Port) (inClass : Nat) (p : Port) (c : Nat) (node : Option Nat) (k : Packet) : Dev :=
  match p with
  | .mesh =>
    (match node with
    | none => dropNonode d
    | some n =>
      if d.present n then
        if 16 < (match d.node? n with | some x => x.depth | none => 0) then
          d.modGlb (fun g => { g with rplDeep := inc32 g.rplDeep })
        else enterQueue d inPort inClass p c k node
      else dropNonode d)
  | .bh0 | .bh1 | .plk | .cpu => enterQueue d inPort inClass p c k none

/-- The fragments of an IPv6 packet for an MTU, under an identification (R188; log 111). -/
def fragments (k : Packet) (mtu id : Nat) : List Packet :=
  let body := (packetOctets k).drop 40
  let m := (mtu - 48) / 8 * 8
  (List.range ((body.length + m - 1) / m)).map (fun j =>
    let part := slice body (j * m) (min m (body.length - j * m))
    let more := b2n (decide ((j + 1) * m < body.length))
    let data := octets 1 k.nextHdr.toNat ++ octets 1 0 ++ octets 2 (j * m + more) ++ octets 4 id ++ part
    { k with nextHdr := 44, frag := true, data := data, ipLen := 40 + data.length, len := 40 + data.length })

/-- A datagram of the device's own, which travels as fragments where it is longer than the MTU (R188). -/
def splits (inPort : Port) (k : Packet) : Bool := inPort == .cpu && k.nextHdr == 17 && !k.frag

/-- Steps 4 to 8 for a packet whose egress port is known; MESH names a node. -/
def forward (d : Dev) (inPort : Port) (inClass : Nat) (p : Port) (c : Nat) (k : Packet) (node : Option Nat) : Dev :=
  let moves := inPort != p && p != .cpu
  let k' := if moves then { k with hop := k.hop - 1 } else k
  if moves ∧ k.hop ≤ 1 then dropHop d
  else if mtuOf d p < k.ipLen then
    if splits inPort k then
      let (r, d) := d.draw
      each (fragments k' (mtuOf d p) (r.setWidth 32).toNat) (fun d k => forwardFit d inPort inClass p c node k) d
    else dropMtu d
  else forwardFit d inPort inClass p c node k'

/-- A BH result (R229). -/
def forwardBh (d : Dev) (inPort : Port) (inClass c : Nat) (k : Packet) : Dev :=
  let (e, d) := bhEntry d k
  let p := bhPath d e
  if d.linkUp p then forward d inPort inClass p c k none
  else if (inPort != p && decide (k.hop ≤ 1)) then dropHop d
  else if mtuOf d p < k.ipLen ∧ splits inPort k = false then dropMtu d
  else dropNoport d

/-- Steps 2 to 8 of R225 for an IPv6 packet of class `c`. -/
def routePacket (d : Dev) (inPort : Port) (c : Nat) (k : Packet) : Dev :=
  if ownAddr d inPort k.dst then forward d inPort c .cpu c k none
  else
    match lookup d false k.dst with
    | (d, none) =>
      if d.sht.missAct = 1 then forward d inPort c .cpu c k none
      else if d.sht.missAct = 2 then forwardBh d inPort c c k
      else dropMiss d
    | (d, some h) =>
      let r := h.e.result
      let c' := if bit r 28 then fld r 27 24 else c
      match fld r 31 29 with
      | 0 => forwardBh d inPort c c' k
      | 1 => forward d inPort c .bh0 c' k none
      | 2 => forward d inPort c .bh1 c' k none
      | 3 => forward d inPort c .plk c' k none
      | 4 => forward d inPort c .mesh c' k (meshNode d r k.dst)
      | 5 => forward d inPort c .cpu c' k none
      | _ => dropMiss d

/-- The shuttle carries packets: the ports are enabled (R38) and the ingress link is up. -/
def shuttleRuns (d : Dev) (p : Port) : Bool := (d.phase == .applied || d.phase == .up) && d.linkUp p

/-- A packet enters the shuttle (R225): classification, policing (R252), then the path. -/
def ingressPacket (d : Dev) (port : Port) (k : Packet) : Dev :=
  if k.ipv6 then
    let c := dscpClass d k.dscp
    let (en, spread, base) := d.crd.selOf (qkey port c)
    if en then
      let i := base + (flowHash k).toNat % 2 ^ spread
      let (pass, d) := police d i k.len
      if pass then routePacket d port c k else d
    else routePacket d port c k
  else if isBh port ∧ (k.ptp ∨ k.plink) then enterQueue d port 1 .cpu 1 k none
  else dropNonip d

/-- PACKET_INGRESS (R225). -/
def doPacketIngress (port : Port) (k : Packet) (d : Dev) : Dev :=
  if shuttleRuns d port then ingressPacket d port k else d

def execPacketIngress (dt : Nat) (port : Port) (p : Packet) (s : State) : Host.Outcome State Fault Refusal :=
  run dt (doPacketIngress port p) s

/-- A packet of ingress port `port` whose ingress frame has not ended. -/
def QPkt.arriving (k : QPkt) (port : Port) : Bool := k.inPort == port && !k.whole

/-- A packet's ingress frame has ended with a good FCS. -/
def QPkt.ended (k : QPkt) (port : Port) : QPkt := if k.arriving port then { k with whole := true } else k

/-- The frame that leaves port `p` now is the one that still arrives at `port` (R228). -/
def cutsNow (d : Dev) (p port : Port) : Bool :=
  match (d.qport p).sending with
  | some (_, k) => k.arriving port && decide (d.whl.time < (d.qport p).freeAt)
  | none => false

/-- The end of an ingress frame (R228): a good one may leave; a bad one is dropped from its queue, or ended at once with an inverted
FCS where it is leaving. One that was dropped before counts nowhere. -/
def endIngress (d : Dev) (port : Port) (fcsOk : Bool) : Dev :=
  match kfind d.sht.ingress port.num with
  | none => d
  | some g =>
    let d := d.modSht (fun s => { s with ingress := kdel s.ingress port.num })
    let l := d.queue g.port g.cls
    if fcsOk then
      (d.setQueue g.port g.cls (l.map (·.ended port))).modQport g.port (fun q =>
        { q with sending := q.sending.map (fun x => (x.1, x.2.ended port)) })
    else
      let cut := cutsNow d g.port port
      let d := d.setQueue g.port g.cls (l.filter (fun k => !k.arriving port))
      let d := if cut then d.modQport g.port (fun q => { q with sending := none, freeAt := d.whl.time }) else d
      bufEval (if cut then
        report ((d.modSht (fun s => { s with ctStomp := inc32 s.ctStomp })).emit (.stomp g.port)) evCtStomp [] else d)

/-- PACKET_INGRESS_END (R228). -/
def doPacketIngressEnd (port : Port) (fcsOk : Bool) (d : Dev) : Dev := endIngress d port fcsOk

def execPacketIngressEnd (dt : Nat) (port : Port) (fcsOk : Bool) (s : State) : Host.Outcome State Fault Refusal :=
  run dt (doPacketIngressEnd port fcsOk) s

/-! ## Egress -/

/-- Heads that can never start for their gates are dropped (R247). -/
def dropOversize (d : Dev) (p : Port) (c : Nat) : Dev :=
  let q := d.qport p
  let rec go : List QPkt → Nat × List QPkt
    | [] => (0, [])
    | k :: r =>
      if k.ready ∧ q.gates.oversize c (d.lineNs p (shapedLen q k)) then ((go r).1 + 1, (go r).2) else (0, k :: r)
  let (n, rest) := go (d.queue p c)
  if n = 0 then d
  else
    let d := (d.setQueue p c rest).modQport p (fun q => { q with dropGate := add32 q.dropGate n })
    bufEval (each (List.range n) (fun d _ => report d evGateOversize []) d)

/-- Why a selected packet is dropped at dequeue, as the counter's change (R31, R229, R236). -/
def dequeueDrop (d : Dev) (p : Port) (k : QPkt) : Option (Dev → Dev) :=
  if k.p.poison then some dropBuf
  else if d.linkUp p = false then some dropNoport
  else match k.node with
    | some n => if d.present n then none else some dropNonode
    | none => none

/-- A packet for the mesh becomes a downlink record (R276). -/
def meshRecord (d : Dev) (k : QPkt) : Dev :=
  match k.node with
  | none => d
  | some n => submitRec d (packetRec d .packet (some n) (packetOctets k.p))

/-- Packets from MESH egress that wait for placement (R242). -/
def meshWaiting (d : Dev) : Nat :=
  (d.ply.recs.filter (fun r => r.kind == .packet)).length
    + (d.ply.waiting.filter (fun q => q.1.kind == .packet)).length

/-! ## The CPU port -/

/-- A Neighbor Solicitation for an own address that came in at a port with a line is answered there (R265; log 111). -/
def solicits (d : Dev) (k : QPkt) : Option (BitVec 128) :=
  let target := BitVec.ofNat 128 (natOf (slice k.p.data 8 16))
  let own := target == linkLocal d || target == meshAddr d || (d.start.configured && target == d.ply.devAddr)
  if hasLine k.inPort ∧ k.p.ipv6 ∧ k.p.nextHdr = 58 ∧ k.p.hop = 255 ∧ 24 ≤ k.p.data.length ∧ slice k.p.data 0 2 = [135, 0] ∧ own then
    some target
  else none

/-- The Neighbor Advertisement for an own address (R265): solicited, unless the request came from the unspecified address, with the
override flag and the port's link-layer address. -/
def advertise (d : Dev) (k : QPkt) (target : BitVec 128) : Dev :=
  let anon : Bool := k.p.src == 0
  let dst : BitVec 128 := if anon then 0xFF020000000000000000000000000001 else k.p.src
  let body := octets 4 (if anon then 0x20000000 else 0x60000000) ++ octets 16 target.toNat ++ [2, 1]
    ++ octets 6 (Config.portMac k.inPort.num).toNat
  d.emit (.advert k.inPort (icmpPacket target dst 255 136 0 body))

/-- The firmware takes a packet to work on (R71, R176, R188, R218, R265, R268, R290); any other it drops at once (log 118). -/
def fwTakes (k : Packet) : Bool :=
  k.ptp || k.plink || k.frag || (k.nextHdr == 58 && k.data.head? == some 155)
    || (k.nextHdr == 17 && [319, 320, 47600, 47601, 47602, 47603].contains k.dport.toNat)

/-- A packet from CPU egress goes to the firmware, or is a solicitation that it answers (R242, R265). -/
def toFirmware (d : Dev) (k : QPkt) : Dev :=
  match solicits d k with
  | some target => advertise d k target
  | none => if fwTakes k.p then d.modSht (fun s => { s with cpuWaiting := s.cpuWaiting + 1 }) else d

/-- A Delay_Req of the device that starts to leave gives its t3 (R71). -/
def stampDelayReq (d : Dev) (p : Port) (k : QPkt) : Dev :=
  if k.inPort = .cpu ∧ k.p.ptp then
    let stamp (x : PtpPort) : PtpPort := { x with delayReqAt := some d.whl.time }
    d.modWhl (fun w => if p = .bh0 then { w with ptp0 := stamp w.ptp0 } else { w with ptp1 := stamp w.ptp1 })
  else d

/-- The port's transmitter is free (R242), and the bobbin to it takes words: on FULL the shuttle keeps its packets (R28). -/
def txFree (d : Dev) (p : Port) : Bool :=
  match p with
  | .mesh => decide (meshWaiting d < 4096)
  | .cpu => decide (d.sht.cpuWaiting < 1024)
  | .bh0 => decide ((d.qport p).freeAt ≤ d.whl.time) && !(d.bob.get 17).full 17
  | .bh1 => decide ((d.qport p).freeAt ≤ d.whl.time) && !(d.bob.get 19).full 19
  | .plk => decide ((d.qport p).freeAt ≤ d.whl.time) && !(d.bob.get 21).full 21

/-- A selection, repeated while the packet selected is dropped at dequeue (R242). -/
def selectLoop : Nat → Dev → Port → Dev
  | 0, d, _ => d
  | fuel + 1, d, p =>
    match selectQueue d p with
    | none => d
    | some c =>
      match d.queue p c with
      | [] => d
      | k :: rest =>
        match dequeueDrop d p k with
        | some f => selectLoop fuel (bufEval (f (d.setQueue p c rest))) p
        | none =>
          let now := d.whl.time
          let ls := shapedLen (d.qport p) k
          let d := (d.setQueue p c rest).modQport p (fun q => startQueue q c ls now)
          let d := d.emit (.egress p c k.p)
          let d :=
            if hasLine p then
              let t := d.lineNs p ls
              stampDelayReq (d.modQport p (fun q => { q with sending := some (c, k), freeAt := now + t })) p k
            else if p = .mesh then meshRecord d k
            else toFirmware d k
          bufEval d

/-- The generated frame that waits longest leaves (R257). -/
def fcNext (d : Dev) (p : Port) : Dev :=
  match (d.qport p).fcq with
  | f :: r => if (d.qport p).freeAt ≤ d.whl.time then fcLeave (d.modQport p (fun q => { q with fcq := r })) p f else d
  | [] => d

/-- A selection over the queues of a port (R242, R247). -/
def selectPort (d : Dev) (p : Port) : Dev :=
  let d := if hasLine p then each (List.range 16) (fun d c => dropOversize d p c) d else d
  let n := ((List.range 16).map (fun c => (d.queue p c).length)).sum
  selectLoop (n + 1) d p

/-- EGRESS_SELECT (R242): where the port's transmitter is free, a generated frame that waits goes ahead of every queue (R257). -/
def doEgressSelect (p : Port) (d : Dev) : Dev :=
  if d.phase.fwRuns ∧ txFree d p then
    let d := if hasLine p then fcNext (bufEval (d.modQport p (fun q => { q with sending := none }))) p else d
    if txFree d p then selectPort d p else d
  else d

def execEgressSelect (dt : Nat) (port : Port) (s : State) : Host.Outcome State Fault Refusal :=
  run dt (doEgressSelect port) s

/-! ## Links -/

/-- A port whose recovered clock is out of range is held down (R21). -/
def heldDown (d : Dev) (p : Port) : Bool :=
  match p with
  | .bh0 => d.bob.clk.getLsbD 8
  | .bh1 => d.bob.clk.getLsbD 9
  | .plk => d.bob.clk.getLsbD 10
  | .mesh | .cpu => false

/-- The link of a port takes a state (R229, R228, R236, R256, R257). -/
def setLink (d : Dev) (p : Port) (up : Bool) : Dev :=
  if d.linkUp p = up ∨ hasLine p = false then d
  else
    let d := d.modSht (fun s =>
      match p with
      | .bh0 => { s with link0 := up }
      | .bh1 => { s with link1 := up }
      | .plk => { s with linkp := up }
      | .mesh | .cpu => s)
    let d := report d evPortLink []
    if up then bufEval d
    else
      let q := d.qport p
      let d := if q.sending.isSome ∧ d.whl.time < q.freeAt then
          dropNoport (d.modQport p (fun q => { q with sending := none, freeAt := d.whl.time }))
        else d
      let d := endXoff (d.modQport p (fun q => { q with pauses := [] })) p
      bufEval (pauseWatch (endIngress d p false))

/-- PORT_LINK (R229, R387): a link comes up only once the ports are enabled and its receive clock is in range. -/
def doPortLink (p : Port) (up : Bool) (d : Dev) : Dev :=
  if up ∧ ((d.phase ≠ .applied ∧ d.phase ≠ .up) ∨ heldDown d p) then d else setLink d p up

def execPortLink (dt : Nat) (port : Port) (up : Bool) (s : State) : Host.Outcome State Fault Refusal :=
  run dt (doPortLink port up) s

/-! ## Tables -/

/-- An entry's key is of a length from `lo` to `hi`, with no bit beyond it, and ACT is not 0b111 (R235). -/
def stagedOk (s : Sht) (lo hi : Nat) : Bool :=
  decide (lo ≤ s.stgLen) && decide (s.stgLen ≤ hi) && s.stgPre == maskTo s.stgPre s.stgLen && fld s.stgResult 31 29 != 7

/-- The staged entry. -/
def Sht.staged (s : Sht) : TEntry := { pre := s.stgPre, len := s.stgLen, result := s.stgResult, valid := s.stgValid }

/-- With a valid entry of length `len` at `i`, LEN never increases with index among valid entries (R231). -/
def mamOrder (m : KMap TEntry) (i len : Nat) : Bool :=
  m.all (fun x => x.1 == i || !x.2.valid || (if x.1 < i then decide (len ≤ x.2.len) else decide (x.2.len ≤ len)))

/-- STATUS of SHT_TCMD (R239). -/
def tcOk : Nat := 0
def tcRange : Nat := 1
def tcConflict : Nat := 2
def tcNoSpace : Nat := 3
def tcDuplicate : Nat := 4
def tcMiss : Nat := 5

/-- READ (R235): an entry into staging. What a BH selection entry of bad parity holds is a free value (log 5). -/
def tableReadOp (d : Dev) : Dev × Nat :=
  let s := d.sht
  let b := s.bankAt s.tcBank
  let put (e : TEntry) : Dev :=
    d.modSht (fun s => { s with stgPre := e.pre, stgLen := e.len, stgResult := e.result, stgValid := e.valid, stgPerr := e.bad })
  match s.tcTable with
  | 0 => if s.tcIndex < 4096 then (put (b.entry 1 s.tcIndex), tcOk) else (d, tcRange)
  | 1 => (put (b.entry 2 s.tcIndex), tcOk)
  | 2 =>
    if s.tcIndex < 256 then
      let v := kgetD b.bhsel s.tcIndex (s.tcIndex % 2)
      let (r, d) := if v = 2 then d.draw else (BitVec.ofNat 256 v, d)
      (d.modSht (fun s => { s with stgResult := r.setWidth 32 &&& 1, stgValid := true, stgPerr := v == 2 }), tcOk)
    else (d, tcRange)
  | _ => (d, tcRange)

/-- WRITE (R235). -/
def tableWriteOp (d : Dev) : Dev × Nat :=
  let s := d.sht
  let b := s.bankAt s.tcBank
  let i := s.tcIndex
  let put (b : Bank) : Dev := d.modSht (fun s => s.putBank s.tcBank b)
  match s.tcTable with
  | 0 =>
    if i < 4096 ∧ stagedOk s 0 64 then
      if s.stgValid ∧ mamOrder b.mam i s.stgLen = false then (d, tcConflict) else (put (b.put 1 i s.staged), tcOk)
    else (d, tcRange)
  | 1 =>
    if fld s.stgResult 31 29 = 7 then (d, tcRange)
    else
      let e := b.entry 2 i
      if e.valid ∧ e.pre = s.stgPre ∧ e.len = s.stgLen then
        (put (b.put 2 i { e with result := s.stgResult, badRes := false }), tcOk)
      else (d, tcConflict)
  | 2 =>
    if i < 256 then (put { b with bhsel := ksetD b.bhsel i (b2n (bit s.stgResult 0)) (i % 2) }, tcOk) else (d, tcRange)
  | _ => (d, tcRange)

/-- DELETE (R235). -/
def tableDeleteOp (d : Dev) : Dev × Nat :=
  let s := d.sht
  let b := s.bankAt s.tcBank
  let put (b : Bank) : Dev := d.modSht (fun s => s.putBank s.tcBank b)
  match s.tcTable with
  | 0 => if s.tcIndex < 4096 then (put (b.drop 1 s.tcIndex), tcOk) else (d, tcRange)
  | 1 => (put (b.drop 2 s.tcIndex), tcOk)
  | _ => (d, tcRange)

/-- The entry of a bank with a key. -/
def hashFind (b : Bank) (pre : BitVec 128) (len : Nat) : Option Nat :=
  let k := 4 * bucketOf pre len
  [k, k + 1, k + 2, k + 3].find? (fun i =>
    let e := b.entry 2 i
    e.valid && e.pre == pre && e.len == len)

/-- Places an entry in the lowest free way of its bucket (R235). -/
def hashInsert (b : Bank) (e : TEntry) : (Nat × Bank) ⊕ Nat :=
  let ok := decide (65 ≤ e.len) && decide (e.len ≤ 128) && e.pre == maskTo e.pre e.len && fld e.result 31 29 != 7
  let lens := b.lengths
  if ok = false ∨ (lens.contains e.len = false ∧ 16 ≤ lens.length) then .inr tcRange
  else if (hashFind b e.pre e.len).isSome then .inr tcDuplicate
  else
    let k := 4 * bucketOf e.pre e.len
    match [k, k + 1, k + 2, k + 3].find? (fun i => !(b.entry 2 i).valid) with
    | some i => .inl (i, b.put 2 i { e with valid := true })
    | none => .inr tcNoSpace

/-- INSERT (R235). -/
def tableInsertOp (d : Dev) : Dev × Nat :=
  let s := d.sht
  if s.tcTable = 1 then
    match hashInsert (s.bankAt s.tcBank) s.staged with
    | .inl (i, b) => (d.modSht (fun s => { s.putBank s.tcBank b with tcIndex := i }), tcOk)
    | .inr st => (d, st)
  else (d, tcRange)

/-- FIND (R235). -/
def tableFindOp (d : Dev) : Dev × Nat :=
  let s := d.sht
  if s.tcTable = 1 then
    match hashFind (s.bankAt s.tcBank) s.stgPre s.stgLen with
    | some i => (d.modSht (fun s => { s with tcIndex := i }), tcOk)
    | none => (d, tcMiss)
  else (d, tcRange)

/-- LOOKUP (R235): on a miss LEN and RESULT in staging are free values (log 5). -/
def tableLookupOp (d : Dev) : Dev × Nat :=
  let (d, m) := lookup d d.sht.tcBank d.sht.stgPre
  match m with
  | some h =>
    (d.modSht (fun s => { s with stgValid := true, stgPerr := false, stgLen := h.e.len, stgResult := h.e.result,
                                 stgHit := true, stgLevel := h.level, stgIndex := h.index }), tcOk)
  | none =>
    let (r, d) := d.draw
    (d.modSht (fun s => { s with stgValid := false, stgPerr := false, stgLen := (r.setWidth 8).toNat,
                                 stgResult := (r >>> 8).setWidth 32, stgHit := false, stgLevel := 0, stgIndex := 0 }), tcOk)

/-- A write of SHT_TCMD (R235, R239): the fields, then the operation that a non-zero OP starts. -/
def writeTcmd (d : Dev) (v : Word) : Dev × Status :=
  let op := fld v 27 25
  if op = 7 then (d, .range)
  else
    let d := d.modSht (fun s => { s with tcTable := fld v 24 23, tcBank := bit v 22, tcIndex := fld v 17 0 })
    let done (r : Dev × Nat) : Dev × Status := (r.1.modSht (fun s => { s with tcStatus := r.2 }), .ok)
    match op with
    | 1 => done (tableReadOp d)
    | 2 => done (tableWriteOp d)
    | 3 => done (tableDeleteOp d)
    | 4 => done (tableInsertOp d)
    | 5 => done (tableFindOp d)
    | 6 => done (tableLookupOp d)
    | _ => (d, .ok)

/-- A write of SHT_TCMD whose OP is the row's. -/
def tcmdRow (op : Nat) (v : Word) (d : Dev) : Dev := if fld v 27 25 = op then regRow (fun d => writeTcmd d v) d else d

/-- TABLE_READ (R235). -/
def doTableRead (v : Word) (d : Dev) : Dev := tcmdRow 1 v d
def execTableRead (dt : Nat) (v : Word) (s : State) : Host.Outcome State Fault Refusal := run dt (doTableRead v) s

/-- TABLE_WRITE (R235). -/
def doTableWrite (v : Word) (d : Dev) : Dev := tcmdRow 2 v d
def execTableWrite (dt : Nat) (v : Word) (s : State) : Host.Outcome State Fault Refusal := run dt (doTableWrite v) s

/-- TABLE_DELETE (R235). -/
def doTableDelete (v : Word) (d : Dev) : Dev := tcmdRow 3 v d
def execTableDelete (dt : Nat) (v : Word) (s : State) : Host.Outcome State Fault Refusal := run dt (doTableDelete v) s

/-- TABLE_INSERT (R235). -/
def doTableInsert (v : Word) (d : Dev) : Dev := tcmdRow 4 v d
def execTableInsert (dt : Nat) (v : Word) (s : State) : Host.Outcome State Fault Refusal := run dt (doTableInsert v) s

/-- TABLE_FIND (R235). -/
def doTableFind (v : Word) (d : Dev) : Dev := tcmdRow 5 v d
def execTableFind (dt : Nat) (v : Word) (s : State) : Host.Outcome State Fault Refusal := run dt (doTableFind v) s

/-- TABLE_LOOKUP (R235). -/
def doTableLookup (v : Word) (d : Dev) : Dev := tcmdRow 6 v d
def execTableLookup (dt : Nat) (v : Word) (s : State) : Host.Outcome State Fault Refusal := run dt (doTableLookup v) s

/-- A write of SHT_BANK (R234): SWAP exchanges the banks and copies nothing. -/
def writeShtBank (d : Dev) (v : Word) : Dev × Status :=
  if bit v 31 then
    (report (d.modSht (fun s => { s with active := !s.active, bank := s.shadow, shadow := s.bank })) evBankSwap [], .ok)
  else (d, .ok)

/-- BANK_SWAP (R234). -/
def doBankSwap (v : Word) (d : Dev) : Dev := regRow (fun d => writeShtBank d v) d

def execBankSwap (dt : Nat) (v : Word) (s : State) : Host.Outcome State Fault Refusal := run dt (doBankSwap v) s

/-! ## Registers of SHT -/

/-- MIN of a queue is lowered: cells above it count as shared from now (R236). -/
def lowerMin (least : Nat) : Nat → List QPkt → List QPkt
  | _, [] => []
  | used, k :: r =>
    let keep := min k.minCells (least - used)
    { k with minCells := keep, shared := k.shared + (k.minCells - keep) } :: lowerMin least (used + keep) r

/-- The packets that queue (p, c) holds, the one in progress first, count anew against a MIN (R236). -/
def recount (d : Dev) (p : Port) (c least : Nat) : Dev :=
  let now := d.whl.time
  match (d.qport p).sending with
  | some (cc, k) =>
    if cc = c ∧ now < (d.qport p).freeAt then
      let k' := { k with minCells := min k.minCells least, shared := k.shared + (k.minCells - least) }
      (d.modQport p (fun q => { q with sending := some (cc, k') })).setQueue p c (lowerMin least k'.minCells (d.queue p c))
    else d.setQueue p c (lowerMin least 0 (d.queue p c))
  | none => d.setQueue p c (lowerMin least 0 (d.queue p c))

/-- A write of SHT_QCFGp_c (R236, R239). -/
def writeQcfg (d : Dev) (p : Port) (c : Nat) (v : Word) : Dev × Status :=
  let alpha := fld v 15 12
  let least := fld v 11 0
  let d' := d.modSht (fun s => { s with qcfg := ksetD s.qcfg (qkey p c) (fld v 31 16, alpha, least) (0, 4, 64) })
  if 8 ≤ alpha ∨ (d.sht.minSum < d'.sht.minSum ∧ 16384 < d'.sht.minSum) then (d, .range)
  else (bufEval (recount d' p c least), .ok)

/-- A write of the register of SHT at offset `o` of its window (R239). -/
def writeSht (d : Dev) (o : Nat) (v : Word) : Option (Dev × Status) :=
  if o = 0 then
    some (if fld v 1 0 = 3 then (d, .range)
      else (d.modSht (fun s => { s with ecnEn := bit v 2, missAct := fld v 1 0 }), .ok))
  else if o = 4 then some (d, .ok)
  else if o = 8 then some (writeShtBank d v)
  else if o = 0xC then some (d.modSht (fun s => { s with perrValid := w1c d.pwr.wall s.perrValid (bit v 31) s.perrAt }), .ok)
  else if o = 0x10 then some (writeTcmd d v)
  else match index? o 0x20 4 4 with
  | some i =>
    let sh := 96 - 32 * i
    some (d.modSht (fun s =>
      { s with stgPre := (s.stgPre &&& ~~~((0xFFFFFFFF : BitVec 128) <<< sh)) ||| (v.setWidth 128 <<< sh) }), .ok)
  | none =>
    if o = 0x30 then some (d.modSht (fun s => { s with stgValid := bit v 31, stgLen := fld v 7 0 }), .ok)
    else if o = 0x34 then some (d.modSht (fun s => { s with stgResult := v &&& 0xFF01FFFF }), .ok)
    else if o = 0x38 then some (d, .ok)
    else if (index? o 0x40 4 8).isSome then some (d, .ok)
    else match index? o 0x100 4 5 with
    | some i =>
      (match portOf i with
      | none => none
      | some p =>
        if hasLine p then
          let m := fld v 29 16
          some (if m < 1280 ∨ 9000 < m then (d, .range)
            else (d.modSht (fun s => { s with mtu := ksetD s.mtu i m 1500, ct := ksetD s.ct i (BitVec.ofNat 16 (fld v 15 0)) 0 }),
              .ok))
        else some (d, .ok))
    | none =>
      if 0x200 ≤ o ∧ o < 0x340 ∧ o % 4 = 0 then
        (match portOf ((o - 0x200) / 0x40) with
        | some p => some (writeQcfg d p ((o - 0x200) % 0x40 / 4) v)
        | none => none)
      else match index? o 0x400 4 8 with
      | some i => some (d.modSht (fun s => { s with dscp := ksetD s.dscp i v 0 }), .ok)
      | none =>
        if (index? o 0x500 4 5).isSome ∨ (index? o 0x600 4 10).isSome then some (d, .ok) else none

/-- Filter bits of a bank (R231). -/
def Bank.filter (b : Bank) (w : Nat) : Word :=
  pack ((List.range 32).map (fun i =>
    let l := 32 * w + i + 1
    (i, b2n (b.hash.any (fun e => e.2.valid && e.2.len == l) || b.mam.any (fun e => e.2.valid && e.2.len == l)))))

/-- The counters of SHT in order (R239). -/
def Sht.counters (s : Sht) : List Nat :=
  [s.dropBuf, s.dropMiss, s.dropNonip, s.dropHop, s.dropMtu, s.dropNoport, s.dropNonode, s.ctStomp, s.ecnMarked, s.parity]

/-- A read of the register of SHT at offset `o` (R239). Before the firmware runs, F reads its reset value. -/
def readSht (d : Dev) (o : Nat) : Option Word :=
  let s := d.sht
  let num (n : Nat) : Option Word := some (BitVec.ofNat 32 n)
  if o = 0 then some (pack [(2, b2n s.ecnEn), (0, s.missAct)])
  else if o = 4 then num (if d.phase.fwRuns then d.freeCells else 0)
  else if o = 8 then num (b2n s.active)
  else if o = 0xC then
    some (if s.perrValid then pack [(31, 1), (30, b2n s.perrBank), (28, s.perrTable), (0, s.perrIndex)]
      else pack [(30, b2n s.perrBank), (28, s.perrTable), (0, s.perrIndex)])
  else if o = 0x10 then some (pack [(28, s.tcStatus), (23, s.tcTable), (22, b2n s.tcBank), (0, s.tcIndex)])
  else match index? o 0x20 4 4 with
  | some i => some ((s.stgPre >>> (96 - 32 * i)).setWidth 32)
  | none =>
    if o = 0x30 then some (pack [(31, b2n s.stgValid), (30, b2n s.stgPerr), (0, s.stgLen)])
    else if o = 0x34 then some s.stgResult
    else if o = 0x38 then some (pack [(31, b2n s.stgHit), (29, s.stgLevel), (0, s.stgIndex)])
    else match index? o 0x40 4 8 with
    | some i => some ((s.bankAt (decide (4 ≤ i))).filter (i % 4))
    | none =>
      match index? o 0x100 4 5 with
      | some i =>
        (match portOf i with
        | none => none
        | some p => some (pack [(31, b2n (d.linkUp p)), (16, mtuOf d p), (0, (kgetD s.ct i 0).toNat)]))
      | none =>
        if 0x200 ≤ o ∧ o < 0x340 ∧ o % 4 = 0 then
          (match portOf ((o - 0x200) / 0x40) with
          | some p =>
            let (mark, alpha, least) := d.qcfg p ((o - 0x200) % 0x40 / 4)
            some (pack [(16, mark), (12, alpha), (0, least)])
          | none => none)
        else match index? o 0x400 4 8 with
        | some i => some (kgetD s.dscp i 0)
        | none =>
          match index? o 0x500 4 5 with
          | some i => (match portOf i with | some p => num (d.occ p) | none => none)
          | none =>
            match index? o 0x600 4 10 with
            | some i => num (s.counters.getD i 0)
            | none => none

end Sys2Proof.Machine
end

