-- ==== Sys2Proof/Machine/Whorl.lean ====
section
/-! DEFINITION. The whorl (R64 to R78, R81, R86 to R91): time sources, state, step and slew, holdover, PPS, launch
release, and the registers of WHL with their write rows. -/

namespace Sys2Proof.Machine

/-! ## Sources -/

/-- The number of a whorl state and of a source (R90). -/
def WhlState.num : WhlState → Nat
  | .freerun => 0
  | .acquire => 1
  | .locked => 2
  | .holdover => 3
def Source.num : Source → Nat
  | .none => 0
  | .ptp0 => 1
  | .ptp1 => 2
  | .pps => 3
  | .holdTcxo => 4
  | .holdRef => 5
  | .holdBhref => 6

/-- What is known of PTP on a backhaul port. -/
def Whl.ptp (w : Whl) (port : Bool) : PtpPort := if port then w.ptp1 else w.ptp0
def Whl.setPtp (w : Whl) (port : Bool) (p : PtpPort) : Whl := if port then { w with ptp1 := p } else { w with ptp0 := p }
def Whl.enPtp (w : Whl) (port : Bool) : Bool := if port then w.enPtp1 else w.enPtp0

/-- The source that a backhaul port's PTP is. -/
def ptpSource (port : Bool) : Source := if port then .ptp1 else .ptp0

/-- Dataset `a` is at least as good as `b` (the default BMCA's order; log 12). -/
def datasetLe (a b : PtpAnnounce) : Bool :=
  let key (x : PtpAnnounce) : List Nat :=
    [x.priority1, x.clockClass, x.accuracy, x.variance, x.priority2, x.clockId, x.stepsRemoved]
  let rec le : List Nat → List Nat → Bool
    | x :: xs, y :: ys => decide (x < y) || (x == y && le xs ys)
    | _, _ => true
  le (key a) (key b)

/-- PTP on a port may be selected (R67). -/
def Whl.ptpReady (w : Whl) (port : Bool) : Bool := w.enPtp port && (w.ptp port).qual

/-- PPS_IN with REF10M_IN may be selected (R67). -/
def Whl.ppsReady (w : Whl) : Bool := w.enPps && w.enRef && w.ppsQual && w.refQual && w.todValid

/-- The best qualified source of priority 1 or 2 (R67). -/
def Whl.best (w : Whl) : Option Source :=
  match w.ptpReady false, w.ptpReady true with
  | true, true =>
    (match w.ptp0.parent, w.ptp1.parent with
    | some a, some b => if datasetLe a b then some .ptp0 else some .ptp1
    | _, _ => some .ptp0)
  | true, false => some .ptp0
  | false, true => some .ptp1
  | false, false => if w.ppsReady then some .pps else none

/-- The TCXO is out of range (R20). -/
def tcxoOut (d : Dev) : Bool := d.bob.clk.getLsbD 5

/-- The present stretch in LOCKED has lasted `ns` at least (R75). -/
def Whl.lockedFor (w : Whl) (ns : Nat) : Bool := match w.lockedSince with | some t => decide (t + ns ≤ w.time) | none => false

/-- The frequency has been learned (R75). -/
def learnedFreq (d : Dev) : Bool :=
  d.whl.learned || d.whl.lockedFor 60000000000 || d.pra.word 0x400 != 0x80000000

/-- The phases of the present tick (R82). -/
def Dev.work (d : Dev) : TickWork :=
  { tick := d.whl.tickK, at_ := d.whl.tickAt, drained := d.whl.drained, drainedAt := d.whl.drainedAt,
    scheduled := d.whl.scheduled, drainMissed := d.whl.drainMissed, schedMissed := d.whl.schedMissed,
    txMissed := d.whl.txMissed, live := d.wrp.live }

/-- The whorl takes in its sources (R38): from the application of the records on. -/
def sourcesRun (d : Dev) : Bool := d.phase == .applied || d.phase == .up

/-- The holdover reference (R67, R76). -/
def holdSource (d : Dev) : Source :=
  if d.whl.refQual && d.whl.enRef then .holdRef else if tcxoOut d then .holdBhref else .holdTcxo

/-- HOLDOVER_LIMIT follows the estimate (R76). -/
def holdWatch (d : Dev) : Dev := watchIf d evHoldoverLimit (decide (d.whl.holdLimit < d.whl.holdEst))

/-- What leaving or entering a state does besides the change itself. -/
def Whl.enter (w : Whl) (st : WhlState) (src : Source) (now : Nat) : Whl :=
  let w := match w.lockedSince with
    | some t =>
      if st = WhlState.locked then w
      else
        { w with longestLock := max w.longestLock (now - t), lockedSince := none,
                 learned := w.learned || decide (t + 60000000000 ≤ now),
                 learnedStep := if t + 60000000000 ≤ now then some w.masterStep else w.learnedStep }
    | none => w
  match st with
  | .freerun => { w with state := st, src := src, holdEst := 0 }
  | .acquire => { w with state := st, src := src, holdEst := 0, goodRun := 0 }
  | .locked =>
    { w with state := st, src := src, holdEst := 0, lockedSince := some now,
             todValid := w.todValid || src == Source.ptp0 || src == Source.ptp1 }
  | .holdover =>
    if w.state = .holdover then { w with src := src }
    else { w with state := st, src := src, holdFrom := now, holdOff := w.offset.natAbs, holdEst := w.offset.natAbs }

/-- The whorl takes a state and a source; a change is reported (R69). -/
def setSource (d : Dev) (st : WhlState) (src : Source) : Dev :=
  if d.whl.state = st ∧ d.whl.src = src then d
  else holdWatch (report (d.modWhl (fun w => w.enter st src d.whl.time)) evSrcChange [])

/-- A source has qualified: FREERUN and HOLDOVER go to ACQUIRE on the best one (R69). -/
def seek (d : Dev) : Dev :=
  match d.whl.state, d.whl.best with
  | .freerun, some s => setSource d .acquire s
  | .holdover, some s => setSource d .acquire s
  | _, _ => d

/-- The active source is lost (R69). -/
def activeLost (d : Dev) : Dev :=
  match d.whl.best with
  | some s => setSource d .acquire s
  | none => if learnedFreq d then setSource d .holdover (holdSource d) else setSource d .freerun .none

/-- The active source is `s`. -/
def Whl.isActive (w : Whl) (s : Source) : Bool := (w.state == .acquire || w.state == .locked) && w.src == s

/-- In HOLDOVER the reference follows what is qualified and in range (R67, R76). -/
def holdReference (d : Dev) : Dev := if d.whl.state = .holdover then setSource d .holdover (holdSource d) else d

/-- PTP on a port is lost (R70). -/
def losePtp (d : Dev) (port : Bool) : Dev :=
  let act := d.whl.isActive (ptpSource port)
  let d := report (d.modWhl (fun w => w.setPtp port {})) evPtpLoss []
  if act then activeLost d else d

/-- PPS_IN is lost (R70). -/
def losePps (d : Dev) : Dev :=
  let act := d.whl.isActive .pps
  let d := report (d.modWhl (fun w => { w with ppsQual := false, ppsLast := none, ppsRun := 0, ppsSec := none }))
    evPpsLoss []
  if act then activeLost d else d

/-- REF10M_IN is lost, and with it PPS_IN's qualification (R67, R70). -/
def loseRef (d : Dev) : Dev :=
  let act := d.whl.isActive .pps
  let d := report (d.modWhl (fun w => { w with refQual := false, ppsQual := false, ppsRun := 0 })) evRef10mLoss []
  holdReference (if act then activeLost d else d)

/-! ## Step and slew -/

/-- What is left of the latest slew at device time `t`, at 10 ppm (R77). -/
def Whl.slewLeft (w : Whl) (t : Nat) : Int :=
  let done : Int := ((t - w.slewFrom) / 100000 : Nat)
  if 0 ≤ w.slew then max 0 (w.slew - done) else min 0 (w.slew + done)

/-- The action on a measured offset (R77), the count of measurements within ±100 ns (R69), and WHL_OFFSET (R90). Only the
active source is measured so: WHL_OFFSET stays as it was while none is active, the manual naming no source for it
(log 100). -/
def measured (d : Dev) (off : Int) : Dev :=
  let big := 500000 < off.natAbs
  let d := d.modWhl (fun w =>
    { w with offset := clampInt (2 ^ 31 - 1) off, goodRun := if off.natAbs ≤ 100 then w.goodRun + 1 else 0 })
  let slewIt (d : Dev) : Dev := d.modWhl (fun w => { w with slew := off, slewFrom := w.time, step := none })
  let d :=
    if off.natAbs ≤ 50 then d.modWhl (fun w => { w with slew := 0, step := none })
    else if d.whl.launches.isEmpty then
      if d.glb.power = 3 ∧ big = false then slewIt d
      else d.modWhl (fun w => { w with slew := 0, step := some off })
    else
      let d := slewIt d
      if big then report (d.modWhl (fun w => { w with stepPend := true })) evStepDeferred [] else d
  if d.whl.state = .acquire ∧ 16 ≤ d.whl.goodRun then setSource d .locked d.whl.src else d

/-! ## PTP -/

/-- A log interval in ns. -/
def logNs (l : Int) : Nat := if 0 ≤ l then 1000000000 * 2 ^ l.toNat else 1000000000 / 2 ^ (-l).toNat

/-- PTP messages are taken in: ports enabled and the port's link up (R38). -/
def ptpRuns (d : Dev) (port : Bool) : Bool :=
  sourcesRun d && (if port then d.sht.link1 else d.sht.link0)

/-- Domain and transport as WHL_PTP_CFG sets them (R71, R90). -/
def ptpOurs (d : Dev) (domain : Nat) (via : PtpVia) (extra : PtpExtra) : Bool :=
  domain == d.whl.domain && extra == .none
    && (match via with
      | .udp6 g => !d.whl.transport && g == d.whl.scope
      | .ieee8023 => d.whl.transport
      | .udp4 => false)

/-- A message outside the limits of R71 is discarded and counted. -/
def ptpDrop (d : Dev) : Dev := d.modGlb (fun g => { g with ptpDiscard := inc32 g.ptpDiscard })

/-- Sync measurements agree (R67): `l` is newest first. -/
def syncsAgree (l : List (Nat × Int)) : Bool :=
  match l.reverse, l with
  | (t0, o0) :: _, (t7, o7) :: _ =>
    let span : Int := (t7 : Int) - (t0 : Int)
    decide (l.length = 8) &&
      l.all (fun x =>
        let dev := (x.2 - o0) * span - (o7 - o0) * ((x.1 : Int) - (t0 : Int))
        decide (dev.natAbs ≤ 1000 * span.natAbs))
  | _, _ => false

/-- PTP_SYNC (R67, R72): a measurement of the parent of the port. -/
def doPtpSync (port : Bool) (m : PtpSync) (d : Dev) : Dev :=
  if ptpRuns d port = false then d
  else if ptpOurs d m.domain m.via m.extra = false ∨ m.logInterval < -4 ∨ 1 < m.logInterval then ptpDrop d
  else
    let p := d.whl.ptp port
    match p.parent with
    | none => d
    | some a =>
      if a.clockId ≠ m.clockId ∨ m.usable = false then d
      else
        let now := d.whl.time
        let off := (m.t1 : Int) + p.delay + settingInt d.pra 0x402 - (now : Int)
        let l := ((now, off) :: p.syncs).take 8
        let q := p.qual || (d.whl.enPtp port && a.ptpTimescale && syncsAgree l)
        let p' := { p with syncs := l, lastSync := now, syncInterval := m.logInterval, lastT1T2 := some (m.t1, now),
                           qual := q, qualSince := if p.qual then p.qualSince else now }
        let d := d.modWhl (fun w => w.setPtp port p')
        let d := if q then seek d else d
        if d.whl.isActive (ptpSource port) then measured d off else d

def execPtpSync (dt : Nat) (port : Bool) (m : PtpSync) (s : State) : Host.Outcome State Fault Refusal :=
  runCpu dt (doPtpSync port m) s

/-- PTP_ANNOUNCE (R67, R71; log 12): the parent's own Announce renews it, and a better dataset becomes the parent. The port is
qualified no longer when its parent changes, since 8 Sync measurements of the new one must agree first, nor when the
parent's Announce stops showing the PTP timescale; an active source is not lost by either, R70 naming neither (log 103). -/
def doPtpAnnounce (port : Bool) (m : PtpAnnounce) (d : Dev) : Dev :=
  if ptpRuns d port = false then d
  else if ptpOurs d m.domain m.via m.extra = false ∨ m.logInterval < 0 ∨ 3 < m.logInterval then ptpDrop d
  else
    let p := d.whl.ptp port
    let now := d.whl.time
    let adopt := d.modWhl (fun w => w.setPtp port
      { p with parent := some m, lastAnnounce := now, lastSync := now, syncs := [], delay := 0, lastT1T2 := none,
               delayReqAt := none, qual := false })
    match p.parent with
    | none => adopt
    | some a =>
      if a.clockId = m.clockId then
        d.modWhl (fun w => w.setPtp port { p with parent := some m, lastAnnounce := now, qual := p.qual && m.ptpTimescale })
      else if datasetLe m a then adopt
      else d

def execPtpAnnounce (dt : Nat) (port : Bool) (m : PtpAnnounce) (s : State) : Host.Outcome State Fault Refusal :=
  runCpu dt (doPtpAnnounce port m) s

/-- A Delay_Req (R71), of this device's clock identity and port (log 111). -/
def delayReqOctets (d : Dev) (port : Bool) (seq : Nat) : List Byte :=
  octets 1 1 ++ octets 1 2 ++ octets 2 44 ++ octets 1 d.whl.domain ++ octets 1 0 ++ octets 2 0 ++ octets 8 0 ++ octets 4 0
    ++ octets 8 d.glb.eui.toNat ++ octets 2 (1 + b2n port) ++ octets 2 seq ++ octets 1 1 ++ octets 1 0x7F ++ octets 10 0

/-- A Delay_Req joins Q0 of its port (R247), over the transport of its parent (R71). -/
def sendDelayReq (d : Dev) (port : Bool) (via : PtpVia) (seq : Nat) : Dev :=
  let body := delayReqOctets d port seq
  match via with
  | .udp6 g =>
    let dst : BitVec 128 := if g then 0xFF0E0000000000000000000000000181 else 0xFF020000000000000000000000000181
    sendOwn d (bhPort port) true (octets 6 0x333300000181 ++ octets 2 0x86DD ++ udpPacket (linkLocal d) dst 319 319 1 body)
  | .ieee8023 => sendOwn d (bhPort port) true (octets 6 0x011B19000000 ++ octets 2 0x88F7 ++ body)
  | .udp4 => d

/-- PTP_DELAY_REQ_SEND (R71): at the interval of Delay_Resp, with a random spread of ±30 %; its t3 is taken as it leaves. -/
def doPtpDelayReqSend (port : Bool) (d : Dev) : Dev :=
  let p := d.whl.ptp port
  match p.parent with
  | none => d
  | some a =>
    if ptpRuns d port ∧ p.delayReqDue ≤ d.whl.time then
      let (r, d) := d.draw
      let next := d.whl.time + logNs p.delayReqLog * (70 + (r.setWidth 8).toNat % 61) / 100
      let x : PtpPort :=
        { p with delayReqAt := none, delayReqDue := next, delayReqSeq := (p.delayReqSeq + 1) % 65536 }
      sendDelayReq (d.modWhl (fun w => w.setPtp port x)) port a.via p.delayReqSeq
    else d

def execPtpDelayReqSend (dt : Nat) (port : Bool) (s : State) : Host.Outcome State Fault Refusal :=
  run dt (doPtpDelayReqSend port) s

/-- PTP_DELAY_RESP (R71, R72): the mean path delay from the latest Sync and this exchange. -/
def doPtpDelayResp (port : Bool) (m : PtpDelayResp) (d : Dev) : Dev :=
  let p := d.whl.ptp port
  if ptpRuns d port = false then d
  else if ptpOurs d m.domain m.via m.extra = false then ptpDrop d
  else
    match p.parent, p.delayReqAt, p.lastT1T2 with
    | some a, some t3, some (t1, t2) =>
      if a.clockId = m.clockId then
        let delay := (((t2 : Int) - (t1 : Int)) + ((m.t4 : Int) - (t3 : Int))) / 2
        d.modWhl (fun w => w.setPtp port
          { p with delay := delay, delayReqAt := none, delayReqLog := m.logMinDelayReq })
      else d
    | _, _, _ => d

def execPtpDelayResp (dt : Nat) (port : Bool) (m : PtpDelayResp) (s : State) : Host.Outcome State Fault Refusal :=
  runCpu dt (doPtpDelayResp port m) s

/-- PTP_ANNOUNCE_TIMEOUT (R70). -/
def doPtpAnnounceTimeout (port : Bool) (d : Dev) : Dev :=
  let p := d.whl.ptp port
  match p.parent with
  | none => d
  | some a =>
    let now := d.whl.time
    if p.lastAnnounce + d.whl.annTmo * logNs a.logInterval ≤ now ∨ p.lastSync + 16 * logNs p.syncInterval ≤ now then
      losePtp d port
    else d

def execPtpAnnounceTimeout (dt : Nat) (port : Bool) (s : State) : Host.Outcome State Fault Refusal :=
  run dt (doPtpAnnounceTimeout port) s

/-- PTP_PREFERENCE_TIMER (R69): a PTP source has stayed qualified for 60 s while LOCKED on priority 2. -/
def doPtpPreferenceTimer (d : Dev) : Dev :=
  let w := d.whl
  let long (port : Bool) : Bool := w.ptpReady port && decide ((w.ptp port).qualSince + 60000000000 ≤ w.time)
  if w.state = .locked ∧ w.src = .pps ∧ (long false ∨ long true) then
    let s := match w.best with
      | some .ptp1 => if long true then Source.ptp1 else .ptp0
      | _ => if long false then Source.ptp0 else .ptp1
    setSource d .acquire s
  else d

def execPtpPreferenceTimer (dt : Nat) (s : State) : Host.Outcome State Fault Refusal := run dt doPtpPreferenceTimer s

/-! ## PPS and REF10M -/

/-- PPS_IN_EDGE (R67, R68, R70, R73, R392): only the active edge counts. Device time expects a second at an instant only
while it follows a source, in LOCKED or HOLDOVER; there an edge more than 1 µs off it loses a PPS_IN that is qualified or
active (log 51). -/
def doPpsInEdge (rising : Bool) (interval : Nat) (d : Dev) : Dev :=
  if sourcesRun d = false ∨ rising = d.whl.inEdge then d
  else
    let now := d.whl.time
    let t : Int := (now : Int) - settingInt d.pra 0x401
    let sec := if d.whl.todArm then some d.whl.todSec else d.whl.ppsSec.map (· + 1)
    let inStep := ((interval : Int) - 1000000000).natAbs ≤ 1000
    let d := d.modWhl (fun w =>
      { w with ppsLast := some now, ppsRun := if w.ppsLast.isSome ∧ inStep then w.ppsRun + 1 else 1, ppsSec := sec,
               todArm := false, todValid := w.todValid || w.todArm })
    let src : Int := match sec with
      | some s => (s : Int) * 1000000000
      | none => (t + 500000000) / 1000000000 * 1000000000
    let off := src - t
    let away := if d.whl.src = .pps then off else (t + 500000000) / 1000000000 * 1000000000 - t
    if (d.whl.state = .locked ∨ d.whl.state = .holdover) ∧ (d.whl.ppsQual ∨ d.whl.isActive .pps) ∧ 1000 < away.natAbs then
      losePps d
    else
      let q := d.whl.enPps && d.whl.refQual && d.whl.todValid && decide (4 ≤ d.whl.ppsRun)
      let d := d.modWhl (fun w => { w with ppsQual := w.ppsQual || q })
      let d := if d.whl.ppsQual then seek d else d
      if d.whl.isActive .pps then measured d off else d

def execPpsInEdge (dt : Nat) (rising : Bool) (interval : Nat) (s : State) : Host.Outcome State Fault Refusal :=
  run dt (doPpsInEdge rising interval) s

/-- PPS_TIMEOUT (R70): no edge for 2 s. -/
def doPpsTimeout (d : Dev) : Dev :=
  match d.whl.ppsLast with
  | some t => if t + 2000000000 ≤ d.whl.time then losePps d else d
  | none => d

def execPpsTimeout (dt : Nat) (s : State) : Host.Outcome State Fault Refusal := run dt doPpsTimeout s

/-- REF10M_LOSS (R70): REF10M_IN leaves qualification. -/
def doRef10mLoss (d : Dev) : Dev := if d.whl.refQual then loseRef d else d

def execRef10mLoss (dt : Nat) (s : State) : Host.Outcome State Fault Refusal := run dt doRef10mLoss s

/-- REF10M_QUALIFY (R67): an edge every 100 ns ± 50 ns and within ±110 ppm. -/
def doRef10mQualify (edge : Nat) (rate : Int) (d : Dev) : Dev :=
  let ok := decide (50 ≤ edge) && decide (edge ≤ 150) && decide (rate.natAbs ≤ 110000)
  if sourcesRun d ∧ d.whl.enRef then
    if ok then holdReference (d.modWhl (fun w => { w with refQual := true })) else doRef10mLoss d
  else d

def execRef10mQualify (dt : Nat) (edge : Nat) (rate : Int) (s : State) : Host.Outcome State Fault Refusal :=
  run dt (doRef10mQualify edge rate) s

/-- PPS_OUT is driven only in LOCKED and HOLDOVER (R74). -/
def pulse (d : Dev) (mode us : Nat) : Dev :=
  if d.whl.outMode = mode ∧ (d.whl.state = .locked ∨ d.whl.state = .holdover) then d.emit (.ppsOut us) else d

/-- PPS_OUT_SECOND (R74): at a whole TAI second of device time. -/
def doPpsOutSecond (d : Dev) : Dev := if d.phase.ctrlRuns ∧ d.whl.time % 1000000000 = 0 then pulse d 1 1000 else d

def execPpsOutSecond (dt : Nat) (s : State) : Host.Outcome State Fault Refusal := run dt doPpsOutSecond s

/-! ## Launch release -/

/-- Members neither absent, armed nor refused (R180). -/
def Launch.missing (l : Launch) : List Nat :=
  l.members.filter (fun i => !l.absent.contains i && !l.armed.contains i && !l.refused.contains i)

/-- Result of a THROW's completion (R180, R217). -/
def Launch.result (l : Launch) : List Byte :=
  let miss := l.missing.take 512
  let ref := l.refused.take 512
  octets 4 l.members.length ++ octets 4 l.absent.length ++ octets 4 l.armed.length ++ octets 4 l.refused.length
    ++ octets 4 l.missing.length ++ octets 4 l.extra.length ++ octets 2 miss.length ++ octets 2 ref.length
    ++ (miss.map (octets 4)).flatten ++ (ref.map (octets 4)).flatten

/-- The warp closes a throw and completes its thread (R180). -/
def closeThrow (d : Dev) (l : Launch) : Dev :=
  let good := d.whl.state == .locked || (d.whl.state == .holdover && !d.evt.live evHoldoverLimit)
  let partly := !l.missing.isEmpty || !l.refused.isEmpty
  let d := (dropLaunch d l).modThread l.th (fun t => { t with degraded := !good })
  let d := finish d l.th (if partly then .partialOk else .ok) l.result
  if partly then
    report d evThrowPartial
      (octets 2 l.throwId ++ octets 2 l.group ++ octets 4 l.missing.length ++ octets 4 l.refused.length)
  else d

/-- LAUNCH_RELEASE (R88): every entry whose instant has come, in order of admission. -/
def doLaunchRelease (d : Dev) : Dev :=
  let due := d.whl.launches.filter (fun l => decide (l.at_ ≤ d.whl.time))
  if due.isEmpty ∨ d.phase ≠ .up then d
  else
    let d := d.modWhl (fun w => { w with launches := w.launches.filter (fun l => !decide (l.at_ ≤ w.time)) })
    each due closeThrow (pulse d 3 10)

def execLaunchRelease (dt : Nat) (s : State) : Host.Outcome State Fault Refusal := run dt doLaunchRelease s

/-- LEARNED_OFFSET_WRITE (R91). -/
def doLearnedOffsetWrite (verifyOk : Bool) (d : Dev) : Dev :=
  let w := d.whl
  let old := d.pra.word 0x400
  let moved := old == 0x80000000 || decide (100 ≤ (w.learnedTcxo - old.toInt).natAbs)
  if d.phase = .up ∧ w.lockedFor 3600000000000 ∧ moved ∧ d.pra.learnedAt + 3600000000000 ≤ d.glb.upNs then
    praSkip (d.modPra (fun p => { p with learnedAt := d.glb.upNs })) 0x400 (BitVec.ofNat 32 (toTwos 32 w.learnedTcxo))
      verifyOk
  else d

def execLearnedOffsetWrite (dt : Nat) (verifyOk : Bool) (s : State) : Host.Outcome State Fault Refusal :=
  run dt (doLearnedOffsetWrite verifyOk) s

/-! ## Registers of WHL -/

/-- The smallest held launch instant (R87); all ones when none is held. -/
def Whl.nextLaunch (w : Whl) : Nat := w.launches.foldl (fun m l => min m l.at_) 0xFFFFFFFFFFFFFFFF

/-- A write of WHL_LATCH (R65). -/
def writeLatch (d : Dev) (v : Word) : Dev × Status :=
  if bit v 0 then
    (d.modWhl (fun w =>
      { w with latchTime := w.time, latchAsn := w.asn, latchPos := w.slotPosAt w.time, latchNext := w.nextLaunch }), .ok)
  else (d, .ok)

/-- WHL_LATCH (R65). -/
def doWhlLatch (v : Word) (d : Dev) : Dev := regRow (fun d => writeLatch d v) d

def execWhlLatch (dt : Nat) (v : Word) (s : State) : Host.Outcome State Fault Refusal := run dt (doWhlLatch v) s

/-- A write of WHL_CTRL (R68, R70, R90): an enable bit that is cleared loses its source, with the event of R70 when it
was qualified or active. -/
def writeWhlCtrl (d : Dev) (v : Word) : Dev × Status :=
  let w := d.whl
  let off0 := w.enPtp0 && !bit v 1
  let off1 := w.enPtp1 && !bit v 2
  let offP := w.enPps && !bit v 3
  let offR := w.enRef && !bit v 0
  let d := d.modWhl (fun w => { w with todArm := w.todArm || bit v 8, enPps := bit v 3, enPtp1 := bit v 2,
                                       enPtp0 := bit v 1, enRef := bit v 0 })
  let ptpOff (d : Dev) (off port : Bool) : Dev :=
    if off then
      (if (d.whl.ptp port).qual || d.whl.isActive (ptpSource port) then losePtp d port
        else d.modWhl (fun w => w.setPtp port {}))
    else d
  let d := ptpOff (ptpOff d off0 false) off1 true
  let d :=
    if offP then
      (if d.whl.ppsQual || d.whl.isActive .pps then losePps d
        else d.modWhl (fun w => { w with ppsQual := false, ppsLast := none, ppsRun := 0, ppsSec := none }))
    else d
  (if offR ∧ d.whl.refQual then loseRef d else d, .ok)

/-- WHL_CTRL_WRITE (R70). -/
def doWhlCtrlWrite (v : Word) (d : Dev) : Dev := regRow (fun d => writeWhlCtrl d v) d

def execWhlCtrlWrite (dt : Nat) (v : Word) (s : State) : Host.Outcome State Fault Refusal := run dt (doWhlCtrlWrite v) s

/-- The RW fields of WHL_CTRL as they read. -/
def Whl.ctrl (w : Whl) : Word :=
  pack [(8, b2n w.todArm), (3, b2n w.enPps), (2, b2n w.enPtp1), (1, b2n w.enPtp0), (0, b2n w.enRef)]

/-- WHL_TOD_ARM (R68): a write of WHL_CTRL that sets TOD_ARM and leaves the other fields as they are. -/
def doWhlTodArm (d : Dev) : Dev := regRow (fun d => writeWhlCtrl d (d.whl.ctrl ||| 0x100)) d

def execWhlTodArm (dt : Nat) (s : State) : Host.Outcome State Fault Refusal := run dt doWhlTodArm s

/-- P and E may change (R81): power state HOLD and no launch instant held. -/
def periodOpen (d : Dev) : Bool := d.glb.power == 1 && d.whl.launches.isEmpty

/-- A write of WHL_TICK_PERIOD (R81). -/
def writePeriod (d : Dev) (v : Word) : Dev × Status :=
  let p := fld v 11 0
  if periodOpen d = false then (d, .state)
  else if p < 400 ∨ 4000 < p then (d, .range)
  else (report (d.modWhl (fun w => { w with period := p })) evPeriodChange [], .ok)

/-- WHL_TICK_PERIOD_WRITE (R81). -/
def doWhlTickPeriodWrite (v : Word) (d : Dev) : Dev := regRow (fun d => writePeriod d v) d

def execWhlTickPeriodWrite (dt : Nat) (v : Word) (s : State) : Host.Outcome State Fault Refusal :=
  run dt (doWhlTickPeriodWrite v) s

/-- A write of WHL_EPOCH_HI or WHL_EPOCH_LO (R81). -/
def writeEpoch (d : Dev) (hi : Bool) (v : Word) : Dev × Status :=
  if periodOpen d = false then (d, .state)
  else
    (report (d.modWhl (fun w =>
      { w with epoch := if hi then v.toNat * 2 ^ 32 + w.epoch % 2 ^ 32 else w.epoch / 2 ^ 32 * 2 ^ 32 + v.toNat }))
      evPeriodChange [], .ok)

/-- WHL_EPOCH_WRITE (R81). -/
def doWhlEpochWrite (hi : Bool) (v : Word) (d : Dev) : Dev := regRow (fun d => writeEpoch d hi v) d

def execWhlEpochWrite (dt : Nat) (hi : Bool) (v : Word) (s : State) : Host.Outcome State Fault Refusal :=
  run dt (doWhlEpochWrite hi v) s

/-- A write of WHL_OVR (R90). -/
def writeOvr (d : Dev) (v : Word) : Dev × Status :=
  (if bit v 31 then d.modWhl (fun w => { w with ovrDrain := 0, ovrSched := 0, ovrTxprep := 0 }) else d, .ok)

/-- WHL_OVR_CLR (R90). -/
def doWhlOvrClr (v : Word) (d : Dev) : Dev := regRow (fun d => writeOvr d v) d

def execWhlOvrClr (dt : Nat) (v : Word) (s : State) : Host.Outcome State Fault Refusal := run dt (doWhlOvrClr v) s

/-- A write of the register of WHL at offset `o` (R90). The manual refuses an out-of-range WHL_HOLD_LIMIT or WHL_PTP_CFG and
names no status: RANGE is the model's choice (log 104). -/
def writeWhl (d : Dev) (o : Nat) (v : Word) : Option (Dev × Status) :=
  if o = 4 then some (writeWhlCtrl d v)
  else if o = 8 then some (writeLatch d v)
  else if o = 0x20 then some (writeEpoch d true v)
  else if o = 0x24 then some (writeEpoch d false v)
  else if o = 0x28 then some (writePeriod d v)
  else if o = 0x38 then
    some (if v.toNat < 1000 ∨ 1000000 < v.toNat then (d, .range)
      else (holdWatch (d.modWhl (fun w => { w with holdLimit := v.toNat })), .ok))
  else if o = 0x3C then
    some (if 127 < fld v 23 16 ∨ fld v 15 12 < 2 ∨ 10 < fld v 15 12 then (d, .range)
      else (d.modWhl (fun w => { w with domain := fld v 23 16, annTmo := fld v 15 12, transport := bit v 11,
                                        scope := bit v 10 }), .ok))
  else if o = 0x40 then some (d.modWhl (fun w => { w with outMode := fld v 3 2, inEdge := bit v 1 }), .ok)
  else if o = 0x44 then some (d.modWhl (fun w => { w with todSec := v.toNat }), .ok)
  else if o = 0x48 then some (writeOvr d v)
  else if (index? o 0 4 24).isSome then some (d, .ok)
  else none

/-- A read of the register of WHL at offset `o` (R90). -/
def readWhl (d : Dev) (o : Nat) : Option Word :=
  let w := d.whl
  let num (n : Nat) : Option Word := some (BitVec.ofNat 32 n)
  let int (i : Int) : Option Word := some (BitVec.ofNat 32 (toTwos 32 i))
  if o = 0 then
    some (pack [(24, w.state.num), (20, w.src.num), (19, b2n w.refQual), (18, b2n w.ppsQual), (17, b2n w.ptp1.qual),
      (16, b2n w.ptp0.qual), (15, b2n w.todValid), (14, b2n (d.evt.live evHoldoverLimit)), (13, b2n w.stepPend),
      (12, b2n (learnedFreq d && d.phase.fwRuns))])
  else if o = 4 then some w.ctrl
  else if o = 8 then num 0
  else if o = 0xC then num (w.latchTime >>> 32)
  else if o = 0x10 then num w.latchTime
  else if o = 0x14 then num (w.latchAsn >>> 32)
  else if o = 0x18 then num w.latchAsn
  else if o = 0x1C then num w.latchPos
  else if o = 0x20 then num (w.epoch >>> 32)
  else if o = 0x24 then num w.epoch
  else if o = 0x28 then num w.period
  else if o = 0x2C then int w.offset
  else if o = 0x30 then int w.freqCorr
  else if o = 0x34 then num (sat 0xFFFFFFFF w.holdEst)
  else if o = 0x38 then num w.holdLimit
  else if o = 0x3C then some (pack [(16, w.domain), (12, w.annTmo), (11, b2n w.transport), (10, b2n w.scope)])
  else if o = 0x40 then some (pack [(2, w.outMode), (1, b2n w.inEdge)])
  else if o = 0x44 then num w.todSec
  else if o = 0x48 then some (pack [(20, w.ovrDrain), (10, w.ovrSched), (0, w.ovrTxprep)])
  else if o = 0x4C then num w.skipped
  else if o = 0x50 then num w.launches.length
  else if o = 0x54 then num (w.latchNext >>> 32)
  else if o = 0x58 then num w.latchNext
  else if o = 0x5C then (match w.plkOffset with | some i => int i | none => num 0x80000000)
  else none

end Sys2Proof.Machine
end

