-- ==== Sys2Proof/Machine/Clock.lean ====
section
/-! DEFINITION. The clock monitor (R18 to R22): windows, entries and returns, PLL loss of lock and relock, and the
resynchronisation of a spindle. -/

namespace Sys2Proof.Machine

/-- Bits of BOB_CLKMON (R35): SPN0 to SPN3 are 0 to 3. -/
def clkTcxo : Nat := 5
def clkBh0 : Nat := 8
def clkBh1 : Nat := 9
def clkPlk : Nat := 10

/-- A spindle that passes from STANDBY to SYNTH (R93, R104, R124): nothing calibrated or measured before counts. -/
def Spn.toSynth (s : Spn) : Spn :=
  { s with mode := .synth, lastChan := none, chanGood := [], rls := [], masks := [], calLast := 0 }

/-- t0 of R22: transmission aborted, frames no longer delivered, bobbins flushed, a blank abandoned, STANDBY with
RESYNC set. A spindle that resynchronises already starts again from this t0. Frames in progress stay until the
synchronising reset at t1 cuts them (R146). -/
def resyncStart (d : Dev) (n : Fin 4) : Dev :=
  let down (s : Spn) : Spn :=
    let s := { s with resyncT1 := none }
    if s.mode = .sleep then s else { s with mode := .standby, trans := none }
  let d := abortTx d n .resync none
  let d := each (resyncBobbins n) flushBobbin d
  d.modSpn n (fun s => (down { s.abandonBlank true with resync := true }).syncWires)

/-- t1 of R22: every clock the spindle needs is back in range; its receive path is reset, and it passes to SYNTH, both
synthesisers being calibrated on the passage (R96, R100). -/
def resyncT1 (d : Dev) (n : Fin 4) : Dev :=
  let s := d.spn.get n
  if s.resync ∧ s.resyncT1 = none ∧ d.bob.clk.getLsbD n.val = false ∧ tcxoOut d = false then
    let d := syncReset d n
    d.modSpn n (fun s =>
      ({ s with resyncT1 := some d.whl.time }.settle d.whl.time).syncWires)
  else d

/-- A port whose receive clock has left its range: link down, receive bobbin flushed (R21). -/
def rxClockOut (d : Dev) (p : Port) (b : Nat) : Dev := flushBobbin (setLink d p false) b

/-- The action of R21 when source `k` leaves its range. -/
def clockLeaves (d : Dev) (k : Nat) : Dev :=
  match spindle? k with
  | some n => resyncStart d n
  | none =>
    if k = clkTcxo then holdReference (each spindles resyncStart d)
    else if k = clkBh0 then rxClockOut d .bh0 16
    else if k = clkBh1 then rxClockOut d .bh1 18
    else if k = clkPlk then rxClockOut d .plk 20
    else d

/-- What follows when source `k` returns to its range. -/
def clockReturns (d : Dev) (k : Nat) : Dev :=
  match spindle? k with
  | some n => resyncT1 d n
  | none => if k = clkTcxo then holdReference (each spindles resyncT1 d) else d

/-- CLK_RANGE of source `k`, and SPN_CLK_RANGE of a spindle clock, follow the source's bit (R20, R349). While the control die
runs without the firmware only the bit is kept; the sources rise at the first window after the firmware runs (log 98). -/
def clockWatch (d : Dev) (k : Nat) : Dev :=
  let out := d.bob.clk.getLsbD k
  let d := watch d evClkRange k out (!out) (octets 1 k)
  match spindle? k with
  | some n => watch d (evSpn n 30) 0 out (!out) []
  | none => d

/-- Source `k` is set out of, or back in, its range. -/
def setClock (d : Dev) (k : Nat) (out : Bool) : Dev :=
  let b := if out then 1#11 <<< k else 0
  { d with bob := { d.bob with clk := (d.bob.clk &&& ~~~(1#11 <<< k)) ||| b } }

/-- One window's verdict on source `k` (R20): two windows in a row outside the limit take it out, two within it bring
it back. -/
def judgeClock (d : Dev) (k : Nat) (bad : Bool) : Dev :=
  let o := if bad then min 2 (kgetD d.bob.outRun k 0 + 1) else 0
  let i := if bad then 0 else min 2 (kgetD d.bob.inRun k 0 + 1)
  let d := { d with bob := { d.bob with outRun := ksetD d.bob.outRun k o 0, inRun := ksetD d.bob.inRun k i 0 } }
  let was := d.bob.clk.getLsbD k
  if was then (if i = 2 then clockReturns (clockWatch (setClock d k false) k) k else clockWatch d k)
  else if o = 2 then clockLeaves (clockWatch (setClock d k true) k) k
  else clockWatch d k

/-- An independent source differs by more than 200 ppm from at least two of the other three (R20). -/
def indepBad (x : Four Int) (n : Fin 4) : Bool :=
  let v := x.get n
  decide (2 ≤ (x.list.filter (fun y => decide (200000 < (v - y).natAbs))).length)

/-- The verdict on SPNn: more than 10 ppm, a PLL without lock, or a window begun before the PLL relocked (R20, R22). -/
def spnBad (b : Bob) (spn : Four Int) (n : Fin 4) : Bool :=
  decide (10000 < (spn.get n).natAbs) || b.unlocked.getLsbD n.val || decide (b.windowFrom < b.relockAt.get n)

/-- CLOCK_MONITOR_WINDOW (R20). -/
def doClockMonitorWindow (indep spn : Four Int) (rx0 rx1 rxp : Int) (d : Dev) : Dev :=
  if d.phase.ctrlRuns then
    let far (x : Int) : Bool := decide (200000 < x.natAbs)
    let b := d.bob
    let d := each spindles (fun d n => judgeClock d (4 + n.val) (indepBad indep n)) d
    let d := each spindles (fun d n => judgeClock d n.val (spnBad b spn n)) d
    let d := judgeClock d clkBh0 (far rx0)
    let d := judgeClock d clkBh1 (far rx1)
    let d := judgeClock d clkPlk (far rxp)
    { d with bob := { d.bob with windowFrom := d.pwr.wall } }
  else d

def execClockMonitorWindow (dt : Nat) (indep spn : Four Int) (rx0 rx1 rxp : Int) (s : State) :
    Host.Outcome State Fault Refusal := run dt (doClockMonitorWindow indep spn rx0 rx1 rxp) s

/-- PLL_LOSS_OF_LOCK (R20): acted on at once. -/
def doPllLossOfLock (n : Fin 4) (d : Dev) : Dev :=
  if d.phase.ctrlRuns then
    let d := { d with bob := { d.bob with unlocked := d.bob.unlocked ||| (1#4 <<< n.val), inRun := kdel d.bob.inRun n.val } }
    if d.bob.clk.getLsbD n.val then d else clockLeaves (clockWatch (setClock d n.val true) n.val) n.val
  else d

def execPllLossOfLock (dt : Nat) (n : Fin 4) (s : State) : Host.Outcome State Fault Refusal :=
  run dt (doPllLossOfLock n) s

/-- PLL_RELOCK (R22). -/
def doPllRelock (n : Fin 4) (d : Dev) : Dev :=
  if d.bob.unlocked.getLsbD n.val then
    { d with bob := { d.bob with unlocked := d.bob.unlocked &&& ~~~(1#4 <<< n.val),
                                 relockAt := d.bob.relockAt.set n d.pwr.wall } }
  else d

def execPllRelock (dt : Nat) (n : Fin 4) (s : State) : Host.Outcome State Fault Refusal := run dt (doPllRelock n) s

end Sys2Proof.Machine
end

