-- ==== Sys2Proof/Machine/Power.lean ====
section
/-! DEFINITION. Supply, reset and start: the logic rail and the input (R38 to R40, R376, R385), the rail sequence
(R38, R39), the release of control die reset with the ROM's boot count (R41, R55), the loader and the banks (R36, R332),
firmware start (R306, R368), START_HOLD (R38, R333, R346, R354), and the core watchdog (R346). -/

namespace Sys2Proof.Machine

/-! ## Supply and rails -/

/-- A start may begin: the logic rail is up and the rails are off (R38, R39, R344). -/
def Phase.canStart : Phase → Bool
  | .off | .railFailed => true
  | .unpowered | .rails _ | .inReset | .romBooted | .sfdpDone | .loaderDone | .dramDone | .bankLoaded | .fwStarted
  | .imageChecked | .applied | .up | .recovery => false

/-- The reference instant t0 of R38, where RESET_N is released and the input is above the lockout: the rail sequence
begins, with a cause of R346 (POWER_ON after a rise of the logic rail). -/
def beginStart (d : Dev) (cause : Nat) : Dev :=
  if d.phase.canStart ∧ d.pwr.resetLow = false ∧ d.pwr.inputOk = true then
    let c := if d.pwr.powerOn then 1 else cause
    { d.fresh (.rails 0) { d.pwr with cause := c, rail := 0, powerOn := false, failsafeRail := false, t0 := d.pwr.wall,
                                      vhold := 0, pin := 0, temps := ⟨0, 0, 0, 0⟩, wake := 0, offAt := none } with
      out := d.out }
  else d

/-- LOGIC_RAIL_RISE (R376): the logic rail and the treadle are powered, and the record of R346 starts afresh. -/
def doLogicRailRise (d : Dev) : Dev :=
  if d.phase = .unpowered then
    { d with phase := .off,
             pwr := { wall := d.pwr.wall, cause := 1, powerOn := true, inputOk := false, pwrfail := true } }
  else d

def execLogicRailRise (dt : Nat) (s : State) : Host.Outcome State Fault Refusal := run dt doLogicRailRise s

/-- RESET_N_RELEASE (R38, R344): after an assertion, a start begins once the input stands. -/
def doResetNRelease (d : Dev) : Dev :=
  if d.pwr.resetLow ∧ d.phase ≠ .unpowered then beginStart (d.modPwr (fun p => { p with resetLow := false })) 2 else d

def execResetNRelease (dt : Nat) (s : State) : Host.Outcome State Fault Refusal := run dt doResetNRelease s

/-- INPUT_RISE_35V (R38, R376): PWRFAIL_N is released and the lockout ends. -/
def doInputRise35V (d : Dev) : Dev :=
  if d.phase = .unpowered then d
  else
    let rose := !d.pwr.inputOk
    let d := watchIf (d.modPwr (fun p => { p with inputOk := true, pwrfail := false })) evPwrfail false
    if rose then beginStart d 3 else d

def execInputRise35V (dt : Nat) (s : State) : Host.Outcome State Fault Refusal := run dt doInputRise35V s

/-- Rails off in reverse order, where they are on (R40, R342). -/
def dropRails (d : Dev) : Dev :=
  match d.phase with
  | .unpowered | .off | .railFailed => d
  | .rails _ | .inReset | .romBooted | .sfdpDone | .loaderDone | .dramDone | .bankLoaded | .fwStarted | .imageChecked
  | .applied | .up | .recovery => railsOff d .off

/-- RESET_N_ASSERT (R40, R385). -/
def doResetNAssert (d : Dev) : Dev :=
  if d.phase = .unpowered then d else dropRails (d.modPwr (fun p => { p with resetLow := true }))

def execResetNAssert (dt : Nat) (s : State) : Host.Outcome State Fault Refusal := run dt doResetNAssert s

/-- INPUT_FALL_33V (R40, R376). -/
def doInputFall33V (d : Dev) : Dev :=
  if d.phase = .unpowered then d else dropRails (d.modPwr (fun p => { p with inputOk := false, pwrfail := true }))

def execInputFall33V (dt : Nat) (s : State) : Host.Outcome State Fault Refusal := run dt doInputFall33V s

/-- LOGIC_RAIL_FALL (R376): every supply is gone; persistent words, the key store and what is as built stay. -/
def doLogicRailFall (d : Dev) : Dev :=
  d.fresh .unpowered { wall := d.pwr.wall, inputOk := false, pwrfail := false }

def execLogicRailFall (dt : Nat) (s : State) : Host.Outcome State Fault Refusal := run dt doLogicRailFall s

/-- The step in progress of the rail sequence is still within its maximum offset from t0: k + 1 ms for step k (R38, R39). -/
def railInTime (d : Dev) (k : Nat) : Bool := decide (d.pwr.wall ≤ d.pwr.t0 + (k + 1) * 1000000)

/-- RAIL_IN_TOLERANCE (R38, R39): the next of the five steps of the sequence is within tolerance; past its maximum offset
the rail has missed it, and RAIL_TIMEOUT is what follows. -/
def doRailInTolerance (d : Dev) : Dev :=
  match d.phase with
  | .rails k => if k < 5 ∧ railInTime d k then { d with phase := .rails (k + 1) } else d
  | .unpowered | .off | .railFailed | .inReset | .romBooted | .sfdpDone | .loaderDone | .dramDone | .bankLoaded
  | .fwStarted | .imageChecked | .applied | .up | .recovery => d

def execRailInTolerance (dt : Nat) (s : State) : Host.Outcome State Fault Refusal := run dt doRailInTolerance s

/-- The rail of step `k` of the sequence in R19 order; at the first step, inter-die I/O or board I/O (R38, R372). -/
def railOfStep (k : Nat) (board : Bool) : Nat :=
  match k with
  | 0 => if board then 7 else 4
  | 1 => 1
  | 2 => 5
  | 3 => 2
  | _ => 3

/-- RAIL_TIMEOUT (R39): the rail of the step in progress has missed its maximum offset from t0; rails already raised
go off, FAILSAFE_N is asserted and the record keeps RAIL_FAIL and the rail. -/
def doRailTimeout (board : Bool) (d : Dev) : Dev :=
  match d.phase with
  | .rails k =>
    if k < 5 ∧ d.pwr.t0 + (k + 1) * 1000000 ≤ d.pwr.wall then
      railsOff (d.modPwr (fun p => { p with cause := 4, rail := railOfStep k board, failsafeRail := true })) .railFailed
    else d
  | .unpowered | .off | .railFailed | .inReset | .romBooted | .sfdpDone | .loaderDone | .dramDone | .bankLoaded
  | .fwStarted | .imageChecked | .applied | .up | .recovery => d

def execRailTimeout (dt : Nat) (board : Bool) (s : State) : Host.Outcome State Fault Refusal :=
  run dt (doRailTimeout board) s

/-- FAILSAFE_N is asserted (R39, R286). -/
def Pwr.failsafe (p : Pwr) : Bool := p.failsafeRail || p.treadleLapse

/-! ## The ROM -/

/-- PRA_BOOT from its fields (R60). -/
def bootWord (starts : Nat) (pend : Bool) (fails : Nat) : Word := pack [(8, starts % 2 ^ 24), (7, b2n pend), (0, fails)]

/-- Entry into ROM recovery mode (R318, R334): the digests are locked and the card is powered to be read. -/
def enterRecovery (d : Dev) : Dev :=
  { d with phase := .recovery, pwr := { d.pwr with vsd33 := true }, dst := { d.dst with mdLocked := true } }

/-- The ROM's boot count (R41), with the outcome of the verify of its write (R53). -/
def romBoot (d : Dev) (recoveryLow verifyOk : Bool) : Dev :=
  if recoveryLow then enterRecovery d
  else
    let b := d.pra.word 2
    let failed := bit b 7 && [5, 6, 7].contains d.pwr.cause
    let fails := if failed then min (fld b 3 0 + 1) 15 else fld b 3 0
    if 2 ≤ fails then enterRecovery d
    else (praWait d 2 (bootWord (fld b 31 8 + 1) true fails) verifyOk).1

/-- CONTROL_DIE_RESET_RELEASE (R38, R41, R55, R64, R386, R388): the straps are sampled, device time and up-time start
from 0, the buckets are set, and the ROM counts the start. A missing BHREF leaves the control die without a clock. -/
def doControlDieResetRelease (recoveryLow : Bool) (straps : BitVec 5) (bhref verifyOk : Bool) (d : Dev) : Dev :=
  if d.phase = .rails 5 ∨ d.phase = .inReset then
    let d := d.modPwr (fun p => { p with straps := straps, recoveryLow := recoveryLow, treadleLapse := false })
    if bhref then
      let d := { d with phase := .romBooted, pra := d.pra.initBuckets }
      romBoot d recoveryLow verifyOk
    else { d with phase := .inReset }
  else d

def execControlDieResetRelease (dt : Nat) (recoveryLow : Bool) (straps : BitVec 5) (bhref verifyOk : Bool) (s : State) :
    Host.Outcome State Fault Refusal := run dt (doControlDieResetRelease recoveryLow straps bhref verifyOk) s

/-- What R36 requires of the flash. -/
def Sfdp.ok (f : Sfdp) : Bool :=
  f.present && f.revB && (f.fast114 || f.fast144) && f.fourByte && (f.sizeMiB == 32 || f.sizeMiB == 64)

/-- SFDP_DISCOVERY (R36). -/
def doSfdpDiscovery (f : Sfdp) (d : Dev) : Dev :=
  if d.phase = .romBooted then (if Sfdp.ok f then { d with phase := .sfdpDone } else enterRecovery d) else d

def execSfdpDiscovery (dt : Nat) (sfdp : Sfdp) (s : State) : Host.Outcome State Fault Refusal :=
  run dt (doSfdpDiscovery sfdp) s

/-! ## Reels -/

/-- FLOOR of PRA_BANK (R326). -/
def Pra.floor (p : Pra) : Nat := fld (p.word 3) 15 0

/-- VALID of bank `n`, ACTIVE and TRIAL of PRA_BANK (R326). -/
def Pra.bankValid (p : Pra) (n : Nat) : Bool := bit (p.word 3) (29 + n)
def Pra.activeBank (p : Pra) : Nat := fld (p.word 3) 24 24
def Pra.trial (p : Pra) : Bool := bit (p.word 3) 31

/-- PRA_BANK from its fields (R326). -/
def bankWord (trial v1 v0 : Bool) (active floor : Nat) : Word :=
  pack [(31, b2n trial), (30, b2n v1), (29, b2n v0), (24, active), (0, floor)]

/-- The header's ranges and the zero octets of R325, for FIRMWARE (1) or LOADER (2). -/
def Reel.headOk (r : Reel) (kind : Nat) : Bool :=
  r.magic == 0x5245454C && r.format == 1 && r.kind.toNat == kind && decide (r.keyid.toNat ≤ 3) && r.target == 0x4800
    && decide (1 ≤ r.nblk) && decide (r.nblk ≤ (if kind = 1 then 127 else 3))
    && decide ((r.nblk - 1) * 65532 < r.size) && decide (r.size ≤ r.nblk * 65532)
    && r.zeros && r.hcrcOk && r.headZeros

/-- A good reel (R325). -/
def Reel.good (r : Reel) (kind floor : Nat) : Bool :=
  Reel.headOk r kind && r.sigOk && r.blocksOk && decide (floor ≤ r.svn)

/-- LOADER_CHECK (R332): the loader region must be a good LOADER reel; MD0 is extended by it (R318). -/
def doLoaderCheck (r : Reel) (d : Dev) : Dev :=
  if d.phase = .sfdpDone then
    if Reel.good r 2 d.pra.floor then { extendMd d 0 r.digest with phase := .loaderDone } else enterRecovery d
  else d

def execLoaderCheck (dt : Nat) (reel : Reel) (s : State) : Host.Outcome State Fault Refusal :=
  run dt (doLoaderCheck reel) s

/-- A self-test result (R368): the code of block `b` is kept, and a fail is reported with `b`. -/
def selfTest (d : Dev) (b : Nat) (code : BitVec 2) : Dev :=
  let d := d.modGlb (fun g => { g with selftest := ksetD g.selftest b code 0 })
  if code = 2 then report d evSelftestFail (octets 1 b) else d

/-- DRAM_ZERO_FILL (R38, R368): with the self-test result of the DRAM. -/
def doDramZeroFill (code : BitVec 2) (d : Dev) : Dev :=
  if d.phase = .loaderDone then { selfTest d 3 code with phase := .dramDone } else d

def execDramZeroFill (dt : Nat) (code : BitVec 2) (s : State) : Host.Outcome State Fault Refusal :=
  run dt (doDramZeroFill code) s

/-- The bank that is loaded: digest MD1, the bank's number and both reels are kept. -/
def loadBank (d : Dev) (bank : Nat) (r0 r1 : Reel) : Dev :=
  let r := if bank = 0 then r0 else r1
  { extendMd d 1 r.digest with
    phase := .bankLoaded, start := { d.start with bank := bank, reels := some (r0, r1) } }

/-- The active bank is not good (R332): the other, if it is VALID and good, takes its place; the write is left out when
the bucket is empty. -/
def bankFallback (d : Dev) (bank : Nat) (r0 r1 : Reel) (verifyOk : Bool) : Dev :=
  let other := 1 - bank
  let ro := if other = 0 then r0 else r1
  if d.pra.bankValid other ∧ Reel.good ro 1 d.pra.floor then
    let w := bankWord false (d.pra.bankValid 1 && bank != 1) (d.pra.bankValid 0 && bank != 0) other d.pra.floor
    let d := praSkip d 3 w verifyOk
    loadBank (report d evBankCheckFail (octets 1 bank)) other r0 r1
  else enterRecovery d

/-- BANK_LOAD (R332). -/
def doBankLoad (r0 r1 : Reel) (verifyOk : Bool) (d : Dev) : Dev :=
  if d.phase = .dramDone then
    let a := d.pra.activeBank
    let back := decide (d.pra.trial ∧ 1 ≤ fld (d.pra.word 2) 3 0 ∧ d.pra.bankValid (1 - a))
    let d :=
      if back then
        let w := bankWord false (d.pra.bankValid 1) (d.pra.bankValid 0) (1 - a) d.pra.floor
        report (praWait d 3 w verifyOk).1 evBankFallback []
      else d
    let bank := if back then 1 - a else a
    if Reel.good (if bank = 0 then r0 else r1) 1 d.pra.floor then loadBank d bank r0 r1
    else bankFallback d bank r0 r1 verifyOk
  else d

def execBankLoad (dt : Nat) (bank0 bank1 : Reel) (verifyOk : Bool) (s : State) : Host.Outcome State Fault Refusal :=
  run dt (doBankLoad bank0 bank1 verifyOk) s

/-! ## Firmware start and START_HOLD -/

/-- In RETURNED, every operator skein whose commit word is not 0 is erased at the start (R317); the writes of the words in
`faults` fail their verify (R53). -/
def eraseReturned (faults : List Nat) (d : Dev) : Dev :=
  each operatorSkeins (fun d s =>
    if d.pra.word (commitWord s) = 0 then d else (eraseSkein d s (!faults.contains (commitWord s))).1) d

/-- FIRMWARE_START (R38, R57, R192, R306, R317, R368): the skeins are loaded, BOOT is set, the self-tests of the start are
recorded, the first health beacon leaves, and the buckets are judged. -/
def doFirmwareStart (tests : List SelfTest) (faults : List Nat) (d : Dev) : Dev :=
  if d.phase = .bankLoaded then
    let d := { d with phase := .fwStarted }
    let d := if fld (d.pra.word 1) 3 0 = d.pra.lifecycle then d else report d evLifecycleInvalid []
    let d := if d.pra.lifecycle = 4 then eraseReturned faults d else d
    let d := each operatorSkeins loadSkein d
    let d := each tests (fun d t => selfTest d t.block t.code) d
    let (r, d) := d.draw
    let boot := pack [(8, fld (d.pra.word 2) 31 8), (0, (r.setWidth 8).toNat)]
    praLow { d with ccp := { d.ccp with boot := boot }, ply := { d.ply with beaconAt := d.glb.upNs },
                    img := { d.img with running := d.start.bank } }
  else d

def execFirmwareStart (dt : Nat) (tests : List SelfTest) (faults : List Nat) (s : State) :
    Host.Outcome State Fault Refusal := run dt (doFirmwareStart tests faults) s

/-- IMG_BANKn_INFO and IMG_BANKn_VER of a bank (R338). -/
def bankInfo (valid : Bool) (r : Reel) : Word :=
  pack [(31, b2n valid), (24, r.nblk % 128), (16, r.keyid.toNat % 4), (0, r.svn % 65536)]
def bankVer (valid : Bool) (r : Reel) : Word := if valid then BitVec.ofNat 32 r.version else 0

/-- Both banks' registers from PRA_BANK and the headers (R338). -/
def refreshBanks (d : Dev) : Dev :=
  match d.start.reels with
  | none => d
  | some (r0, r1) =>
    d.modImg (fun i =>
      { i with info0 := bankInfo (d.pra.bankValid 0) r0, ver0 := bankVer (d.pra.bankValid 0) r0,
               info1 := bankInfo (d.pra.bankValid 1) r1, ver1 := bankVer (d.pra.bankValid 1) r1 })

/-- The end of a trial (R333), reported whatever the verify of its word says (log 127). -/
def reelCommit (d : Dev) (verifyOk : Bool) : Dev :=
  if d.pra.trial then
    match d.start.reels with
    | none => d
    | some (r0, r1) =>
      let a := d.pra.activeBank
      let r := if a = 0 then r0 else r1
      let o := if a = 0 then r1 else r0
      let floor := max d.pra.floor r.svn
      let keep := decide (floor ≤ o.svn)
      let w := bankWord false (d.pra.bankValid 1 && (a == 1 || keep)) (d.pra.bankValid 0 && (a == 0 || keep)) a floor
      report (praWait d 3 w verifyOk).1 evReelCommit []
  else d

/-- The events that the ROM and the loader raised are logged, then RESTART with the cause, then RECOVERY_DONE after a
recovery (R336, R346, R354). -/
def logDeferred (d : Dev) : Dev :=
  let l := d.start.deferred
  let d := { d with start := { d.start with deferred := [] } }
  let d := each l (fun d p => reportDeferred d p.1 p.2) d
  let d := reportDeferred d evRestart (octets 1 d.pwr.cause)
  if d.pwr.cause = 9 then reportDeferred d evRecoveryDone [] else d

/-- The octets of a service-port response (R335): SYNC, TYPE, SEQ, LEN, STATUS and payload, and CRC over TYPE through PAYLOAD. -/
def svcFrame (type : Nat) (seq : BitVec 8) (st : Status) (payload : List Byte) : List Byte :=
  let body := octets 1 (type + 0x80) ++ octets 1 seq.toNat ++ octets 2 (1 + payload.length) ++ octets 1 st.num ++ payload
  octets 2 0xA55A ++ body ++ octets 4 (crc32c body).toNat

/-- A response leaves the service port. -/
def svcSend (d : Dev) (type : Nat) (seq : BitVec 8) (st : Status) (payload : List Byte) : Dev :=
  (d.emit (.sealed .serial (svcFrame type seq st payload))).emit (.svc (type + 0x80) seq st payload)

/-- The service port's response to a request of a TYPE and SEQ, kept for a repeat of the request (R335). -/
def svcReply (d : Dev) (type : Nat) (seq : BitVec 8) (st : Status) (payload : List Byte) : Dev :=
  (svcSend d type seq st payload).modImg (fun i => { i with prev := some (type, seq, st, payload) })

/-- A quote is answered to where it was asked (R319, R335): refused while the noise source has failed (R303) or where skein
1 may not sign (R301), which a requester by CCP is not told; within the limit. -/
def answerQuote (master : Nat) (d : Dev) (q : Option (BitVec 128 × BitVec 16) × BitVec 8 × BitVec 256) : Dev :=
  let refuse (d : Dev) (st : Status) : Dev := if q.1.isSome then d else svcReply d 5 q.2.1 st []
  if d.dst.rngOk = false then refuse d .rng
  else if quoteRoom d then
    match invoke d 1 master useSign with
    | (false, d) => refuse d .denied
    | (true, d) =>
      let d := quoteStamp d
      let body := quoteBody d q.2.2
      let sig := quoteSig d body
      (match q.1 with
      | some (a, p) =>
        let head := ccpHead d 6 0xFF (20 + body.length + 96) 0 0
        (ccpEmit d a p (head ++ body ++ octets 96 sig.toNat)).emit (.quoteResp a p body sig)
      | none => svcReply d 5 q.2.1 .ok (body ++ octets 96 sig.toNat))
  else quoteDrop d

/-- A passage from OFF to HOLD through a start of the rails reports POWER_CHANGE; the manual names no cause code for
it, so that octet is a free value (R342; log 11). -/
def reportStartChange (d : Dev) : Dev :=
  if [1, 2, 3, 10].contains d.pwr.cause then
    let (r, d) := d.draw
    report d evPowerChange (octets 1 0 ++ octets 1 1 ++ octets 1 (r.setWidth 8).toNat)
  else d

/-- START_HOLD (R38): PRA_BOOT is written with PEND and FAILS clear, a trial ends (R333), the digests are locked (R318),
the deferred events and START_HOLD are reported, HOLD is entered, quotes that waited are answered, and the first
hold-up check falls due (R379). The write waits for those that reached the array before it (R51): while one does, this step
has not come. -/
def doStartHold (bootOk bankOk : Bool) (d : Dev) : Dev :=
  if d.phase = .applied ∧ d.pra.idle then
    let d := (praWait d 2 (bootWord (fld (d.pra.word 2) 31 8) false 0) bootOk).1
    let d := reelCommit d bankOk
    let d := refreshBanks d
    let d := { d with phase := .up, dst := { d.dst with mdLocked := true }, glb := { d.glb with power := 1 },
                      pwr := { d.pwr with holdupDue := some d.pwr.wall } }
    let d := logDeferred d
    let d := reportStartChange d
    let d := report d evStartHold []
    let q := d.dst.quoteWait
    each q (answerQuote masterCcp) (d.modDst (fun x => { x with quoteWait := [] }))
  else d

def execStartHold (dt : Nat) (bootOk bankOk : Bool) (s : State) : Host.Outcome State Fault Refusal :=
  run dt (doStartHold bootOk bankOk) s

/-- WATCHDOG_EXPIRE (R346): the core watchdog resets the control die. -/
def doWatchdogExpire (d : Dev) : Dev := if d.phase.ctrlRuns then controlReset d 7 else d

def execWatchdogExpire (dt : Nat) (s : State) : Host.Outcome State Fault Refusal := run dt doWatchdogExpire s

end Sys2Proof.Machine
end

