-- ==== Sys2Proof/Machine/Spindle.lean ====
section
/-! DEFINITION. A spindle's registers (R124, R154), state transitions (R96), window moves and bindings (R99, R129),
calibration (R109 to R115), holds (R119), tuner and receive trim settings (R117, R149), and their rows. -/

namespace Sys2Proof.Machine

/-! ## Values of the registers -/

/-- The number of a state (R93). -/
def SpnMode.num : SpnMode → Nat
  | .sleep => 0
  | .standby => 1
  | .synth => 2
  | .rx => 3
  | .tx => 4

/-- WORST of SPN_MASK (R154). -/
def Spn.worst (s : Spn) : Nat := if s.masks.length < 8 then 0xFF else s.masks.foldl min 0xFF

/-- Ticks of hold left, rounded up (R124). -/
def Spn.remain (s : Spn) (now period : Nat) : Nat :=
  match s.hold with
  | some ⟨_, some t⟩ => min 0xFFFE ((t - now + period - 1) / period)
  | some ⟨_, none⟩ => 0xFFFF
  | none => 0

/-- SPN_CTRL as it reads (R124). -/
def Spn.ctrl (s : Spn) : Word :=
  pack [(30, s.target), (29, b2n s.calStart), (7, b2n s.autocal), (6, b2n s.tuneEn), (5, b2n s.inhRetry), (4, b2n s.cxEn),
    (3, b2n s.cxAbort), (2, b2n s.lnaForceByp)]

/-- The tuner codes as last written or set (R117). -/
def Spn.codes (s : Spn) : Nat × Nat := s.tuneWrite.getD (s.cs, s.cp)

/-- The counters from offset 0x30 (R124), and those from 0x150 (R154). -/
def Spn.lostCounters (s : Spn) : List Nat := [s.lostCal, s.lostHold, s.lostCx, s.lostInhibit, s.lostTxsyn, s.txAbort]
def Spn.rxCounters (s : Spn) : List Nat :=
  [s.rxOk, s.rxHdr, s.rxRs, s.rxFcs, s.rxTrunc, s.rxColl, s.rxStore, s.rxLong, s.rxUnsup]

/-- A binding as its register holds it (R154). -/
def Bind.word (b : Bind) : Word := pack [(31, b2n b.en), (12, b.profile), (0, b.chan)]

/-- A read of the register of spindle `n` at offset `o` (R124, R154). -/
def readSpn (d : Dev) (n : Fin 4) (o : Nat) : Option Word :=
  let s := d.spn.get n
  let num (k : Nat) : Option Word := some (BitVec.ofNat 32 k)
  if o = 0 then
    some (pack [(28, s.mode.num), (11, b2n s.resync), (10, b2n s.held), (9, b2n s.holdPend.isSome), (8, b2n s.blank),
      (7, b2n s.inhibit), (6, b2n (d.evt.live (evSpn n 3))), (5, b2n (s.oos == .test)), (4, b2n (s.oos == .bypass)),
      (3, b2n s.grant), (2, b2n (s.paBias && s.pacfg.getLsbD 4))])
  else if o = 4 then some s.ctrl
  else if o = 8 then num s.window
  else if o = 0xC then some (pack [(8, s.txMax), (0, s.txLevel)])
  else if o = 0x10 then num s.pacfg.toNat
  else if o = 0x14 then some (pack [(16, s.reqLead)])
  else if o = 0x18 then some (pack [(8, s.codes.1), (0, s.codes.2)])
  else if o = 0x1C then
    some (pack [(16, match sumEight s.rls with | some k => k / 8 | none => 0xFFFF), (0, s.rlLast)])
  else if o = 0x20 then
    some (pack [(31, b2n s.calPend), (30, b2n s.blank), (26, s.calStep), (24, s.calLast), (22, s.calRepeats),
      (18, s.calCause), (13, s.calFail.toNat), (12, b2n s.failTxsyn), (0, toTwos 8 s.calTemp)])
  else if o = 0x24 then
    some (pack [(31, b2n s.held), (30, b2n s.holdPend.isSome), (0, s.remain d.whl.time d.whl.periodNs)])
  else
    match index? o 0x30 4 6, index? o 0x100 4 16, index? o 0x150 4 9 with
    | some i, _, _ => num (s.lostCounters.getD i 0)
    | _, some i, _ => some (kgetD s.binds i {}).word
    | _, _, some i => num (s.rxCounters.getD i 0)
    | none, none, none =>
      if o = 0x140 then some (pack [(31, b2n s.trimEn), (0, toTwos 24 s.trim)])
      else if o = 0x144 then some (pack [(8, s.worst), (0, s.maskLast)])
      else none

/-! ## Window, bindings and what waits for the end of the cell in progress -/

/-- The binding last written of demodulator `i` takes effect, and its fine stage settles; under a frame in progress the change
waits for the frame's end (R129, R146). -/
def Spn.takeBind (n : Fin 4) (now : Nat) (s : Spn) (i : Nat) : Spn :=
  let b := kgetD s.binds i {}
  if b = kgetD s.bindsEff i {} then { s with bindDue := kdel s.bindDue i }
  else if (kfind s.demods i).isSome then { s with bindDue := kput s.bindDue i b }
  else { s with bindsEff := ksetD s.bindsEff i b {}, bindFrom := kput s.bindFrom i (now + fineNs n) }

/-- The bindings last written take effect (R129). -/
def Spn.takeBinds (s : Spn) (n : Fin 4) (now : Nat) : Spn := (List.range 16).foldl (Spn.takeBind n now) s

/-- The window last written takes effect: a full calibration becomes pending, and cells are lost until it ends (R99). -/
def Spn.takeWindow (s : Spn) (n : Fin 4) : Spn :=
  if s.window = s.windowEff then s
  else { s.pendCal 1 with windowEff := s.window, moved := true, calWait := true }.tuneLo n

/-- What TEST and BYPASS do when they take effect (R364, R365). -/
def takeOos (d : Dev) (n : Fin 4) : Dev :=
  match (d.spn.get n).oosPend with
  | none => d
  | some (o, th) =>
    let d := d.modSpn n (fun s => { s with oos := o, oosPend := none })
    match o with
    | .none => d
    | .test =>
      let d := report (truncateAll d n) evSpnTest (octets 1 n.val ++ octets 1 1)
      d.modSpn n (fun s =>
        let s := { s with testTh := some th }
        let s := if s.mode = .rx then { s with mode := .synth } else s
        (match s.trans with | some (.rx, _) => { s with trans := none } | _ => s).syncWires)
    | .bypass =>
      let d := report (d.modSpn n (fun s => { s with pinBypass := true })) evSpnTest (octets 1 n.val ++ octets 1 2)
      finish (actTarget d n) th .ok []

/-- The end of the cell in progress on spindle `n` (R95): target, window, bindings, TEST and BYPASS, and a pending hold
take effect, in this order. -/
def endOfCell (d : Dev) (n : Fin 4) : Dev :=
  let d := actTarget d n
  let d := d.modSpn n (fun s => (s.takeWindow n).takeBinds n d.whl.time)
  let d := takeOos d n
  match (d.spn.get n).holdPend with
  | some (th, dur) => holdOn d n th dur
  | none => d

/-- What has been asked of spindle `n` takes effect at once where it serves no cell in the present slot (R95). -/
def atEndOfCell (d : Dev) (n : Fin 4) : Dev := if (d.spn.get n).servesNow then d else endOfCell d n

/-! ## Writes -/

/-- A write of SPN_CTRL (R94, R113, R118, R122, R124). On an unfitted spindle only a TARGET that differs from the one held is
refused: R122 refuses writes of TARGET, and the manual does not say whether one that leaves it as it is is such a write
(log 106). -/
def writeSpnCtrl (d : Dev) (n : Fin 4) (v : Word) : Dev × Status :=
  let s := d.spn.get n
  let t := fld v 31 30
  if t = 3 then (d, .range)
  else if s.fitted = false ∧ t ≠ s.target then (d, .state)
  else
    let d := d.modSpn n (fun s =>
      let s := { s with target := t, autocal := bit v 7, tuneEn := bit v 6, inhRetry := bit v 5, cxEn := bit v 4,
                        cxAbort := bit v 3, lnaForceByp := bit v 2 }
      let s := if bit v 29 then { s.pendCal 4 with calStart := true } else s
      let s := if bit v 28 then { s with inhibit := false, retryAt := none, retryOpen := false } else s
      s.syncWires)
    (atEndOfCell d n, .ok)

/-- SPN_TARGET_WRITE (R94): the value written to SPN_CTRL. -/
def doSpnTargetWrite (n : Fin 4) (v : Word) (d : Dev) : Dev := regRow (fun d => writeSpnCtrl d n v) d

def execSpnTargetWrite (dt : Nat) (n : Fin 4) (v : Word) (s : State) : Host.Outcome State Fault Refusal :=
  run dt (doSpnTargetWrite n v) s

/-- CAL_START (R113): a write of SPN_CTRL with CAL_START set and the other fields as they read. -/
def doCalStart (n : Fin 4) (d : Dev) : Dev := regRow (fun d => writeSpnCtrl d n ((d.spn.get n).ctrl ||| 0x20000000)) d

def execCalStart (dt : Nat) (n : Fin 4) (s : State) : Host.Outcome State Fault Refusal := run dt (doCalStart n) s

/-- INH_CLR (R118): a write of SPN_CTRL with INH_CLR set, CAL_START clear and the other fields as they read. -/
def doInhClr (n : Fin 4) (d : Dev) : Dev :=
  regRow (fun d => writeSpnCtrl d n (((d.spn.get n).ctrl &&& 0xDFFFFFFF) ||| 0x10000000)) d

def execInhClr (dt : Nat) (n : Fin 4) (s : State) : Host.Outcome State Fault Refusal := run dt (doInhClr n) s

/-- A write of SPN_WINDOW (R98, R99, R129). -/
def writeSpnWindow (d : Dev) (n : Fin 4) (v : Word) : Dev × Status :=
  let c := fld v 15 0
  if is24 n then (d, .ok)
  else if c < 15900 ∨ 18880 < c then (d, .range)
  else if bindsOk n d.region c (d.spn.get n).binds = false then (d, .range)
  else (atEndOfCell (d.modSpn n (fun s => { s with window := c })) n, .ok)

/-- SPN_WINDOW_WRITE (R99). -/
def doSpnWindowWrite (n : Fin 4) (v : Word) (d : Dev) : Dev := regRow (fun d => writeSpnWindow d n v) d

def execSpnWindowWrite (dt : Nat) (n : Fin 4) (v : Word) (s : State) : Host.Outcome State Fault Refusal :=
  run dt (doSpnWindowWrite n v) s

/-- A write of SPN_BINDd (R129): its profile must be defined and its CHAN lie below NCHAN, and the enabled bindings must
be usable and distinct. -/
def writeSpnBind (d : Dev) (n : Fin 4) (i : Nat) (v : Word) : Dev × Status :=
  let s := d.spn.get n
  let b : Bind := { en := bit v 31, profile := fld v 14 12, chan := fld v 9 0 }
  let binds := ksetD s.binds i b {}
  let named : Bool := match d.region.profile? b.profile with | some p => decide (b.chan < p.nchan) | none => false
  if named = false ∨ bindsOk n d.region s.window binds = false then (d, .range)
  else (atEndOfCell (d.modSpn n (fun s => { s with binds := binds })) n, .ok)

/-- SPN_BIND_WRITE (R129). -/
def doSpnBindWrite (n : Fin 4) (i : Fin 16) (v : Word) (d : Dev) : Dev := regRow (fun d => writeSpnBind d n i.val v) d

def execSpnBindWrite (dt : Nat) (n : Fin 4) (d : Fin 16) (v : Word) (s : State) : Host.Outcome State Fault Refusal :=
  run dt (doSpnBindWrite n d v) s

/-- A write of SPN_TUNE (R117, R124). -/
def writeSpnTune (d : Dev) (n : Fin 4) (v : Word) : Dev × Status :=
  if (d.spn.get n).tuneEn then (d, .state)
  else (d.modSpn n (fun s => { s with tuneWrite := some (fld v 13 8, fld v 5 0) }), .ok)

/-- SPN_TUNE_WRITE (R117). -/
def doSpnTuneWrite (n : Fin 4) (v : Word) (d : Dev) : Dev := regRow (fun d => writeSpnTune d n v) d

def execSpnTuneWrite (dt : Nat) (n : Fin 4) (v : Word) (s : State) : Host.Outcome State Fault Refusal :=
  run dt (doSpnTuneWrite n v) s

/-- A write of SPN_TRIM (R149): TRIM_EN going from 0 to 1 restarts the mean. -/
def writeSpnTrim (d : Dev) (n : Fin 4) (v : Word) : Dev × Status :=
  (d.modSpn n (fun s => { s with trimEn := bit v 31, foffs := if bit v 31 && !s.trimEn then [] else s.foffs }), .ok)

/-- SPN_TRIM_WRITE (R149). -/
def doSpnTrimWrite (n : Fin 4) (v : Word) (d : Dev) : Dev := regRow (fun d => writeSpnTrim d n v) d

def execSpnTrimWrite (dt : Nat) (n : Fin 4) (v : Word) (s : State) : Host.Outcome State Fault Refusal :=
  run dt (doSpnTrimWrite n v) s

/-- A write of the register of spindle `n` at offset `o` (R124, R154). -/
def writeSpn (d : Dev) (n : Fin 4) (o : Nat) (v : Word) : Option (Dev × Status) :=
  let s := d.spn.get n
  if o = 4 then some (writeSpnCtrl d n v)
  else if o = 8 then some (writeSpnWindow d n v)
  else if o = 0xC then
    some (if s.txMax < fld v 6 0 then (d, .range) else (d.modSpn n (fun s => { s with txLevel := fld v 6 0 }), .ok))
  else if o = 0x10 then some (d.modSpn n (fun s => { s with pacfg := v.setWidth 6 }), .ok)
  else if o = 0x14 then
    some (if fld v 25 16 < 140 ∨ 1000 < fld v 25 16 then (d, .range)
      else (d.modSpn n (fun s => { s with reqLead := fld v 25 16 }), .ok))
  else if o = 0x18 then some (writeSpnTune d n v)
  else if o = 0x140 then some (writeSpnTrim d n v)
  else
    match index? o 0x100 4 16 with
    | some i => some (writeSpnBind d n i v)
    | none => if (readSpn d n o).isSome then some (d, .ok) else none

/-! ## Calibration pairs -/

/-- The two results of a pair agree within the tolerance of R110. -/
def CalPair.agrees (p : CalPair) : Bool :=
  let a := p.first
  let b := p.second
  let near (x y : Int) (t : Nat) : Bool := decide ((x - y).natAbs ≤ t)
  match p.kind with
  | .txsyn => a.band == b.band && decide (100 * (a.v1 - b.v1).natAbs ≤ 3 * max a.v1.natAbs b.v1.natAbs)
  | .rxlo => a.band == b.band && near a.v1 b.v1 50
  | .rxdc => near a.v1 b.v1 10 && near a.v2 b.v2 10
  | .rxiq => near a.v1 b.v1 30 && near a.v2 b.v2 50
  | .rxgain => a.steps.length == b.steps.length && (List.zipWith (fun x y => near x y 100) a.steps b.steps).all id
  | .txiq => near a.v1 b.v1 30 && near a.v2 b.v2 50 && near a.v3 b.v3 2000

/-- The mean of the pair (R109), rounded toward minus infinity in the measurement's unit (log 105). -/
def CalPair.mean (p : CalPair) : CalMeas :=
  let mid (x y : Int) : Int := (x + y) / 2
  { band := p.first.band, v1 := mid p.first.v1 p.second.v1, v2 := mid p.first.v2 p.second.v2,
    v3 := mid p.first.v3 p.second.v3, steps := List.zipWith mid p.first.steps p.second.steps }

/-- A kind's bit in FAIL of SPN_CAL (R124). -/
def CalKind.failBit : CalKind → BitVec 5
  | .rxlo => 0b10000
  | .rxdc => 0b01000
  | .rxiq => 0b00100
  | .rxgain => 0b00010
  | .txiq => 0b00001
  | .txsyn => 0

/-- The first agreeing pair of a kind among its first four, with the repeats it took. -/
def firstAgreeing (k : CalKind) (pairs : List CalPair) : Option (Nat × CalMeas) :=
  let l := (pairs.filter (fun p => p.kind == k)).take 4
  match l.findIdx? CalPair.agrees with
  | some i => (l[i]?).map (fun p => (i, CalPair.mean p))
  | none => none

/-- The value in force of a kind at step `j` of its correction (R115), rounded toward minus infinity (log 105). -/
def CalVal.inForce (v : CalVal) (j : Nat) : CalMeas :=
  let mix (a b : Int) : Int := a + (b - a) * (j : Int) / 8
  if 8 ≤ j then v.new
  else
    { band := v.new.band, v1 := mix v.old.v1 v.new.v1, v2 := mix v.old.v2 v.new.v2, v3 := mix v.old.v3 v.new.v3,
      steps := if v.old.steps.length = v.new.steps.length then List.zipWith mix v.old.steps v.new.steps else v.new.steps }

/-- A value that takes force at once (R115). -/
def Spn.setCal (s : Spn) (k : CalKind) (m : CalMeas) : Spn :=
  { s with calVals := s.calVals.filter (fun v => v.kind != k) ++ [{ kind := k, old := m, new := m }] }

/-- New values of a blank come into force (R115): at once, or in eight steps from what is in force now. -/
def Spn.takeCal (s : Spn) (atOnce : Bool) (now : Nat) : Spn :=
  if s.calNew.isEmpty then s
  else
    let j := s.calStep
    let base := s.calVals.map (fun v => { v with old := v.inForce j })
    let put (l : List CalVal) (p : CalKind × CalMeas) : List CalVal :=
      match l.find? (fun v => v.kind == p.1) with
      | some v =>
        let old := if p.1 = CalKind.rxlo then p.2 else v.old
        l.filter (fun v => v.kind != p.1) ++ [{ kind := p.1, old := old, new := p.2 }]
      | none => l ++ [{ kind := p.1, old := p.2, new := p.2 }]
    let vals := s.calNew.foldl put base
    if atOnce then { s with calVals := vals.map (fun v => { v with old := v.new }), calStep := 8 }
    else { s with calVals := vals, calStep := 0, calStepFrom := now }

/-- Each failed kind is reported, or the repeats where none failed (R109). -/
def reportCal (d : Dev) (n : Fin 4) (fails : List CalKind) (repeats : Nat) : Dev :=
  if fails.isEmpty then (if repeats = 0 then d else report d (evSpn n 1) [])
  else each fails (fun d _ => report d (evSpn n 0) []) d

/-! ## State transitions -/

/-- A passage from STANDBY to SYNTH (R96, R100, R109, R146, R368): the pairs of both synthesisers, then the synchronising
reset. -/
def reachSynth (d : Dev) (n : Fin 4) (pairs : List CalPair) : Dev :=
  let kinds := [CalKind.txsyn, CalKind.rxlo]
  let fails := kinds.filter (fun k => (firstAgreeing k pairs).isNone)
  let repeats := kinds.foldl (fun m k => match firstAgreeing k pairs with | some (i, _) => max m i | none => max m 3) 0
  let d := d.modSpn n (fun s =>
    let s := { (s.toSynth).tuneLo n with
      trans := none, failTxsyn := fails.contains .txsyn, calFail := if fails.contains .rxlo then CalKind.failBit .rxlo else 0 }
    kinds.foldl (fun s k => match firstAgreeing k pairs with | some (_, m) => s.setCal k m | none => s) s)
  syncReset (selfTest (reportCal (maskWatch d n) n fails repeats) (8 + n.val) (if fails.isEmpty then 1 else 2)) n

/-- SPINDLE_STATE_REACHED (R96): the transition under way completes. -/
def doSpindleStateReached (n : Fin 4) (pairs : List CalPair) (d : Dev) : Dev :=
  match (d.spn.get n).trans with
  | none => d
  | some (m, _) =>
    let d := match m with
      | .synth => reachSynth d n pairs
      | .rx => d.modSpn n (fun s => ({ s with mode := m, trans := none }.unblank n d.whl.time))
      | .sleep | .standby | .tx => d.modSpn n (fun s => { s with mode := m, trans := none })
    d.modSpn n (fun s => (s.settle d.whl.time).syncWires)

def execSpindleStateReached (dt : Nat) (n : Fin 4) (pairs : List CalPair) (s : State) :
    Host.Outcome State Fault Refusal := run dt (doSpindleStateReached n pairs) s

/-! ## Blanks -/

/-- A blank starts at a tick strobe (R111, R114); `served` says that the spindle served a cell in the slot before. -/
def startBlank (d : Dev) (n : Fin 4) (served : Bool) : Dev :=
  let d := abortTx (truncateAll d n) n .cal none
  d.modSpn n (fun s =>
    let kinds := [CalKind.rxdc, .rxiq, .rxgain, .txiq]
    let atOnce := s.moved || !served || s.calCause == 2 || s.calCause == 5
    let s := { s with blank := true, blankFrom := d.whl.time, calPend := false, calOpen := if s.moved then .rxlo :: kinds else kinds,
                      calPairs := 0, calNew := [], calRepeats := 0, calAtOnce := atOnce, blankMoved := s.moved,
                      moved := false, servedBefore := served }
    let s := if s.mode = .rx then { s with mode := .synth } else s
    (match s.trans with | some (.rx, _) => { s with trans := none } | _ => s).syncWires)

/-- CAL_PAIR_END (R111): each kind still open agrees, or repeats in the next pair; RXLO runs its pairs before the first
of these. -/
def doCalPairEnd (n : Fin 4) (pairs : List CalPair) (d : Dev) : Dev :=
  let s := d.spn.get n
  if s.blank = false ∨ 4 ≤ s.calPairs ∨ d.whl.time < s.blankFrom + (10 + 6 * s.calPairs) * 1000000 then d
  else
    let step (s : Spn) (k : CalKind) : Spn :=
      let l := pairs.filter (fun p => p.kind == k)
      let found : Option (Nat × CalMeas) :=
        match k with
        | .rxlo => if s.calPairs = 0 then firstAgreeing k pairs else none
        | .txsyn => none
        | .rxdc | .rxiq | .rxgain | .txiq => (firstAgreeing k (l.take 1)).map (fun p => (s.calPairs, p.2))
      match found with
      | some (i, m) =>
        { s with calOpen := s.calOpen.filter (· != k), calNew := s.calNew ++ [(k, m)], calRepeats := max s.calRepeats i }
      | none => s
    let d := d.modSpn n (fun s => { s.calOpen.foldl step s with calPairs := s.calPairs + 1 })
    if (d.spn.get n).calPairs = 4 then syncReset d n else d

def execCalPairEnd (dt : Nat) (n : Fin 4) (pairs : List CalPair) (s : State) : Host.Outcome State Fault Refusal :=
  run dt (doCalPairEnd n pairs) s

/-- CAL_BLANK_END (R111, R109, R115): SPN_CAL is updated and the corrections come into force. TEMP is the radio die's
temperature rounded toward minus infinity to whole degrees (log 105). -/
def doCalBlankEnd (n : Fin 4) (d : Dev) : Dev :=
  let s := d.spn.get n
  if s.blank = false ∨ d.whl.time < s.blankFrom + 30000000 then d
  else
    let fails := s.calOpen
    let repeats := if fails.isEmpty then s.calRepeats else 3
    let good := fails.isEmpty
    let d := d.modSpn n (fun s =>
      let s := s.takeCal s.calAtOnce d.whl.time
      let s := { s with blank := false, calOpen := [], calNew := [], calStart := false, calWait := s.moved, calEnd := true,
                        calRepeats := repeats, calFail := fails.foldl (fun b k => b ||| CalKind.failBit k) 0,
                        calLast := if good then (if repeats = 0 then 1 else 2) else 3,
                        calTemp := if good then d.pwr.temps.b / 10 else s.calTemp, calTempSet := s.calTempSet || good,
                        validFrom := max s.validFrom (s.blankFrom + 28000000 + settleNs n) }
      (s.settle d.whl.time).syncWires)
    reportCal d n fails repeats

def execCalBlankEnd (dt : Nat) (n : Fin 4) (s : State) : Host.Outcome State Fault Refusal := run dt (doCalBlankEnd n) s

/-! ## Holds -/

/-- SPINDLE_HOLD (R119, R217). -/
def doSpindleHold (th : Nat) (d : Dev) : Dev :=
  runThread d th (fun c => match c with | .spindleHold spn dur => some (spn, dur) | _ => none) fun d _ a =>
    match spindle? a.1 with
    | none => finish d th .range []
    | some n =>
      let d := cancelHold d n
      if a.2 = 0 then
        let d := if (d.spn.get n).held then holdOff d n else d
        finish d th .ok (octets 8 d.whl.time)
      else if (d.spn.get n).servesNow ∧ (d.spn.get n).held = false then
        d.modSpn n (fun s => { s with holdPend := some (th, a.2) })
      else holdOn d n th a.2

def execSpindleHold (dt : Nat) (th : Nat) (s : State) : Host.Outcome State Fault Refusal := run dt (doSpindleHold th) s

/-- HOLD_END (R119): a slot that had begun before the end stays held. -/
def doHoldEnd (n : Fin 4) (d : Dev) : Dev :=
  match (d.spn.get n).hold with
  | some ⟨_, some t⟩ =>
    if t ≤ d.whl.time then
      holdOff (if d.whl.slotPosAt t = 0 then d else d.modSpn n (fun s => { s with holdTail := d.whl.slotAt t })) n
    else d
  | some ⟨_, none⟩ | none => d

def execHoldEnd (dt : Nat) (n : Fin 4) (s : State) : Host.Outcome State Fault Refusal := run dt (doHoldEnd n) s

/-! ## Tuner codes kept across resets -/

/-- The settings word of a pair of tuner codes (R123). -/
def tunerWord (cs cp : Nat) : Word := pack [(31, 1), (8, cs), (0, cp)]

/-- TUNER_CODES_WRITE (R123): at most once in 24 h of running, and only when a bank has moved by two codes or more. -/
def doTunerCodesWrite (n : Fin 4) (verifyOk : Bool) (d : Dev) : Dev :=
  let s := d.spn.get n
  let w := d.pra.word (0x440 + n.val)
  let far (a b : Nat) : Bool := decide (b + 2 ≤ a) || decide (a + 2 ≤ b)
  let moved := far s.cs (fld w 13 8) || far s.cp (fld w 5 0)
  if d.phase = .up ∧ moved ∧
      (d.pra.tunerAt.get n = 0 ∨ d.pra.tunerAt.get n + 86400000000000 ≤ d.glb.upNs) then
    praSkip (d.modPra (fun p => { p with tunerAt := p.tunerAt.set n d.glb.upNs })) (0x440 + n.val) (tunerWord s.cs s.cp)
      verifyOk
  else d

def execTunerCodesWrite (dt : Nat) (n : Fin 4) (verifyOk : Bool) (s : State) : Host.Outcome State Fault Refusal :=
  run dt (doTunerCodesWrite n verifyOk) s

end Sys2Proof.Machine
end

