-- ==== Sys2Proof/Machine/Transmit.lean ====
section
/-! DEFINITION. A transmission (R101 to R108, R112, R116 to R118, R148, R150, R151): its beginning at the latch or at the
end of an acknowledged frame, the channel change, coexistence, the start and release sequences, the reflection detector
with inhibit and tuner, and the spectral-mask monitor. -/

namespace Sys2Proof.Machine

/-! ## Points of the sequence -/

/-- r of a profile in ns (R105, R150); that of native shaping where the profile is not defined. -/
def Region.ramp (r : Region) (profile : Nat) : Nat := match r.profile? profile with | some p => p.rampNs | none => 15000

/-- r of a transmission (R105). -/
def TxRun.rampNs (t : TxRun) (d : Dev) : Nat := d.region.ramp t.profile

/-- The grant sample point (R105): from SYNTH the sequence is shorter. -/
def samplePoint (d : Dev) (s : Spn) (t : TxRun) : Nat :=
  t.ts - ((if s.mode = .synth then 55000 else 115000) + t.rampNs d)

/-- L_REQ in ns (R105). -/
def reqLeadNs (d : Dev) (s : Spn) (t : TxRun) : Nat := max (s.reqLead * 1000) (125000 + t.rampNs d)

/-- Spindle `n` begins a transmission (R104): a change of channel runs unless the channel is the last one sent on. A channel is
its profile and number: the same frequency under another profile counts as another channel (log 107). -/
def beginTx (d : Dev) (n : Fin 4) (t : TxRun) : Dev :=
  d.modSpn n (fun s => { s with tx := some { t with chanDone := s.lastChan == some (t.profile, t.chan),
                                                    retry := s.inhibit } })

/-- An inhibited spindle drops every transmission but a retry that has fallen due (R118). -/
def Spn.inhibited (s : Spn) : Bool := s.inhibit && !s.retryOpen

/-! ## Channel change (R104) -/

/-- The change has failed: the last good calibration of the channel serves, or the transmission is dropped. -/
def txsynFail (d : Dev) (n : Fin 4) (t : TxRun) : Dev :=
  let d := report (d.modSpn n (fun s => { s with failTxsyn := true })) (evSpn n 2) []
  match (d.spn.get n).chanGood.find? (fun g => g.1 == (t.profile, t.chan)) with
  | some g =>
    d.modSpn n (fun s =>
      { s.setCal .txsyn g.2 with lastChan := some g.1, tx := s.tx.map (fun t => { t with chanDone := true }) })
  | none => dropTx d n .txsyn

/-- TXSYN_CAL_PAIR (R104, R109). -/
def doTxsynCalPair (n : Fin 4) (pair : CalPair) (d : Dev) : Dev :=
  let s := d.spn.get n
  match s.tx with
  | none => d
  | some t =>
    if t.chanDone ∨ t.granted ∨ t.ended.isSome ∨ pair.kind ≠ .txsyn then d
    else if CalPair.agrees pair then
      let d := d.modSpn n (fun s =>
        { s.setCal .txsyn (CalPair.mean pair) with
          failTxsyn := false, lastChan := some (t.profile, t.chan),
          chanGood := ((t.profile, t.chan), CalPair.mean pair) :: s.chanGood.filter (fun g => g.1 != (t.profile, t.chan)),
          tx := some { t with chanDone := true, pairs := t.pairs + 1 } })
      if t.pairs = 0 then d else report d (evSpn n 1) []
    else
      let t := { t with pairs := t.pairs + 1 }
      let d := d.modSpn n (fun s => { s with tx := some t })
      if t.pairs = 4 ∨ samplePoint d s t ≤ d.whl.time + 20000 then txsynFail d n t else d

def execTxsynCalPair (dt : Nat) (n : Fin 4) (pair : CalPair) (s : State) : Host.Outcome State Fault Refusal :=
  run dt (doTxsynCalPair n pair) s

/-! ## Coexistence (R108) -/

/-- CX_REQUEST (R108): the request and the priority are raised, L_REQ before the start. -/
def doCxRequest (n : Fin 4) (d : Dev) : Dev :=
  let s := d.spn.get n
  match s.tx with
  | none => d
  | some t =>
    if t.requested ∨ t.ended.isSome ∨ d.whl.time + reqLeadNs d s t < t.ts then d
    else d.modSpn n (fun s => { s with tx := some { t with requested := true } }.syncWires)

def execCxRequest (dt : Nat) (n : Fin 4) (s : State) : Host.Outcome State Fault Refusal := run dt (doCxRequest n) s

/-- CX_REQ and CX_PRI of a pair: the OR over its two spindles (R108). -/
def Dev.cxWires (d : Dev) (pair : Bool) : Bool × Bool :=
  let a := d.spn.get (if pair then 2 else 0)
  let b := d.spn.get (if pair then 3 else 1)
  (a.cxReq || b.cxReq, a.cxPri || b.cxPri)

/-- CX_GRANT_SAMPLE (R105, R108): the pair's level is shown, and a transmission at its sample point is granted or
dropped. -/
def doCxGrantSample (n : Fin 4) (grant : Bool) (d : Dev) : Dev :=
  let d := (d.modSpn n (fun s => { s with grant := grant })).modSpn (bandMate n) (fun s => { s with grant := grant })
  let s := d.spn.get n
  match s.tx with
  | none => d
  | some t =>
    if t.granted ∨ t.ended.isSome ∨ d.whl.time < samplePoint d s t then d
    else if s.cxEn ∧ grant = false then report (dropTx d n .cx) (evSpn n 5) []
    else
      let d := if t.chanDone then d else txsynFail d n t
      d.modSpn n (fun s => { s with tx := s.tx.map (fun t => { t with granted := true }) })

def execCxGrantSample (dt : Nat) (n : Fin 4) (grant : Bool) (s : State) : Host.Outcome State Fault Refusal :=
  run dt (doCxGrantSample n grant) s

/-- CX_GRANT_FALL (R108): the pair's grant has been low for more than 2 µs. -/
def doCxGrantFall (pair : Bool) (d : Dev) : Dev :=
  each (if pair then [2, 3] else [0, 1]) (fun d n =>
    let d := d.modSpn n (fun s => { s with grant := false })
    let s := d.spn.get n
    match s.tx with
    | some t =>
      if t.granted ∧ t.ended = none ∧ s.cxEn ∧ s.cxAbort then report (abortTx d n .uncounted none) (evSpn n 6) [] else d
    | none => d) d

def execCxGrantFall (dt : Nat) (pair : Bool) (s : State) : Host.Outcome State Fault Refusal := run dt (doCxGrantFall pair) s

/-! ## Frequency (R101, R148) -/

/-- An offset in 0.001 ppm of `fch` kHz, in steps of 40 MHz / 2^24, to the nearest (R148). -/
def dfSteps (off : Int) (fch : Nat) : Int := (2 * off * (fch * 2 ^ 24 : Nat) + 40000000000000) / (2 * 40000000000000)

/-- A node offset in force: set, and not lapsed (R148). -/
def Node.offsetNow (x : Node) (now : Nat) : Int :=
  match x.offset with | some (o, t) => if now < t + 600000000000 then o else 0 | none => 0

/-- df_node of a transmission, in steps (R148): an acknowledgement's was taken from the frame it answers. -/
def dfNode (d : Dev) (t : TxRun) (fch : Nat) : Int :=
  match t.kind with
  | .ack _ _ => t.df
  | .beacon => 0
  | .record r =>
    match r.dest with
    | none => 0
    | some i =>
      if d.ply.role = .paired ∧ r.oneSide = false then 0
      else match d.node? i with | some x => dfSteps (x.offsetNow d.glb.upNs) fch | none => 0

/-! ## The start sequence (R105) -/

/-- The place of a step in the sequence, and its lead before t_s in ns. -/
def TxStep.num : TxStep → Nat
  | .blank => 0
  | .powerUp => 1
  | .bias => 2
  | .trsw => 3
  | .ramp => 4
def TxStep.lead (st : TxStep) (r : Nat) : Nat :=
  match st with
  | .blank => 105000 + r
  | .powerUp => 45000 + r
  | .bias => 15000 + r
  | .trsw => 5000 + r
  | .ramp => r

/-- The synthesiser is loaded with its pre-corrected word. -/
def loadWord (d : Dev) (s : Spn) (t : TxRun) : TxRun :=
  match d.region.profile? t.profile with
  | some p => let df := dfNode d t (p.fch t.chan); { t with df := df, word := fset s.corr (p.fch t.chan) df }
  | none => t

/-- TX_SEQUENCE_STEP (R105, R107): from SYNTH the first step is the power-up. -/
def doTxSequenceStep (n : Fin 4) (st : TxStep) (d : Dev) : Dev :=
  let s := d.spn.get n
  match s.tx with
  | none => d
  | some t =>
    let next := t.step = TxStep.num st ∨ (t.step = 0 ∧ st = .powerUp ∧ s.mode = .synth)
    if t.granted = false ∨ t.ended.isSome ∨ ¬ next ∨ d.whl.time + TxStep.lead st (t.rampNs d) < t.ts then d
    else
      let t' := { t with step := TxStep.num st + 1 }
      match st with
      | .blank =>
        let d := truncateAll d n
        let t' := loadWord d s t'
        d.modSpn n (fun s =>
          { s with tx := some t', mode := .synth, trans := match s.trans with | some (.rx, _) => none | x => x }.syncWires)
      | .powerUp =>
        let d := truncateAll d n
        let t' := if t.step = 0 then loadWord d s t' else t'
        d.modSpn n (fun s => { s with tx := some t', mode := .tx, trans := none }.syncWires)
      | .bias | .trsw | .ramp => d.modSpn n (fun s => { s with tx := some t' }.syncWires)

def execTxSequenceStep (dt : Nat) (n : Fin 4) (st : TxStep) (s : State) : Host.Outcome State Fault Refusal :=
  run dt (doTxSequenceStep n st) s

/-- The level of a transmission that starts now (R103, R118, R356). -/
def txLevelNow (d : Dev) (s : Spn) (t : TxRun) : Nat :=
  s.txLevel - (if d.evt.live evThermalThrottle then fThrottleCodes.get d.pra else 0) - (if t.retry then 40 else 0)

/-- The MAC frame of a transmission of spindle `n` (R167, R168, R171). -/
def airFrame (d : Dev) (n : Fin 4) (t : TxRun) : MacFrame :=
  match t.kind with
  | .beacon => beaconFrame d n (match t.cell with | some c => c.sf | none => 0) d.whl.asn
  | .ack _ tc => ackFrame d (t.ackTo.getD { eui := none, dsn := none, district := 0, gen := 0 }) tc
  | .record r => recFrame d r

/-- The PSDU of a transmission: its MAC frame and the FCS of its profile (R131 to R133; log 7). -/
def airPsdu (d : Dev) (n : Fin 4) (p : Profile) (t : TxRun) : List Byte :=
  let l := (airFrame d n t).octets_ d.whl.asn
  l ++ fitTo p.fcsLen (Config.fcs (p.fcsLen == 2) l)

/-- TX_START (R105, R131 to R133, R150): the frame leaves the ball. -/
def doTxStart (n : Fin 4) (d : Dev) : Dev :=
  let s := d.spn.get n
  match s.tx with
  | none => d
  | some t =>
    if t.step ≠ 5 ∨ t.started ∨ t.ended.isSome ∨ d.radioNow < t.ts then d
    else
      let level := txLevelNow d s t
      let wave := match d.region.profile? t.profile with
        | some p => airWave p (airPsdu d n p t)
        | none => {}
      (d.modSpn n (fun s => { s with tx := some { t with started := true, level := level } })).emit
        (.air n.val t.kind t.profile t.chan level t.word wave)

def execTxStart (dt : Nat) (n : Fin 4) (s : State) : Host.Outcome State Fault Refusal := run dt (doTxStart n) s

/-! ## Reflection and tuner (R116 to R118) -/

/-- The tuner's next step: a bank and its new code (R117). -/
def Spn.tuneNext (s : Spn) : Option (Nat × Nat) :=
  match s.tuneDir with
  | 0 => if s.cs < 63 then some (s.cs + 1, s.cp) else none
  | 1 => if 0 < s.cs then some (s.cs - 1, s.cp) else none
  | 2 => if s.cp < 63 then some (s.cs, s.cp + 1) else none
  | _ => if 0 < s.cp then some (s.cs, s.cp - 1) else none

/-- Receive idle (R117): RX, no preamble for 200 µs, no transmission due within 500 µs. -/
def receiveIdle (d : Dev) (s : Spn) : Bool :=
  let now := d.whl.time
  let quiet := match s.lastPreamble with | some t => decide (t + 200000 ≤ now) | none => true
  let due := match s.tx with | some t => decide (t.ts < now + 500000) | none => false
  let planned := s.planTx.isSome &&
    decide (((d.whl.epoch : Int) + s.planSlot * (d.whl.periodNs : Int) + (d.wrp.txoff * 1000 : Nat) - (now : Int)) < 500000)
  let present := s.nowPlan.isSome && decide ((d.whl.epoch : Int) + d.whl.tickK * (d.whl.periodNs : Int)
    + (d.wrp.txoff * 1000 : Nat) - (now : Int) < 500000)
  s.mode == .rx && s.trans.isNone && quiet && !due && !planned && !present

/-- RECEIVE_IDLE (R117): written codes take effect, a change is returned, or the tuner takes its next step. -/
def doReceiveIdle (n : Fin 4) (d : Dev) : Dev :=
  let s := d.spn.get n
  if receiveIdle d s = false then d
  else
    match s.tuneWrite, s.tuneRevert with
    | some (cs, cp), _ =>
      d.modSpn n (fun s => { s with cs := cs, cp := cp, tuneWrite := none, tuneRevert := none, tuneTrial := none })
    | none, some (cs, cp) =>
      if s.tuneEn then d.modSpn n (fun s => { s with cs := cs, cp := cp, tuneRevert := none, tuneWait := 0 }) else d
    | none, none =>
      match s.tuneTrial, sumEight s.rls with
      | none, some k =>
        if s.tuneEn ∧ s.tuneWait = 8 then
          match s.tuneNext with
          | some (cs, cp) =>
            d.modSpn n (fun s => { s with cs := cs, cp := cp, tuneTrial := some (s.cs, s.cp, k), tuneWait := 0,
                                          tuneDir := (s.tuneDir + 1) % 4 })
          | none => report (d.modSpn n (fun s => { s with tuneDir := (s.tuneDir + 1) % 4 })) (evSpn n 10) []
        else d
      | _, _ => d

def execReceiveIdle (dt : Nat) (n : Fin 4) (s : State) : Host.Outcome State Fault Refusal := run dt (doReceiveIdle n) s

/-- A check of a transmission in progress, or of one that another cause has aborted at this instant: both events are then
reported (R121). -/
def TxRun.judged (t : TxRun) (now : Nat) : Bool :=
  t.started && (match t.ended with | none => true | some te => t.aborted && te == now)

/-- REFLECTION_CHECK (R118, R121): return loss over the first 20 µs, in 0.1 dB, judged once. -/
def doReflectionCheck (n : Fin 4) (rl : Nat) (d : Dev) : Dev :=
  match (d.spn.get n).tx with
  | none => d
  | some t =>
    if t.judged d.whl.time = false ∨ t.checked ∨ d.whl.time < t.ts + 20000 then d
    else
      let d := d.modSpn n (fun s => { s with tx := some { t with checked := true } })
      if t.retry ∧ 95 ≤ rl then
        d.modSpn n (fun s => { s with inhibit := false, retryAt := none, retryOpen := false })
      else if rl < 60 ∨ t.retry then
        let d := (abortTx d n .uncounted (some rl)).modSpn n (fun s =>
          { s with inhibit := true, retryAt := some (d.whl.time + 60000000000), retryOpen := false })
        if rl < 60 then report d (evSpn n 4) [] else d
      else d

def execReflectionCheck (dt : Nat) (n : Fin 4) (rl : Nat) (s : State) : Host.Outcome State Fault Refusal :=
  run dt (doReflectionCheck n rl) s

/-- INHIBIT_RETRY (R118): 60 s after the abort the next transmission due is sent as the retry. -/
def doInhibitRetry (n : Fin 4) (d : Dev) : Dev :=
  let s := d.spn.get n
  match s.retryAt with
  | some t =>
    if s.inhibit ∧ s.inhRetry ∧ t ≤ d.whl.time then d.modSpn n (fun s => { s with retryAt := none, retryOpen := true }) else d
  | none => d

def execInhibitRetry (dt : Nat) (n : Fin 4) (s : State) : Host.Outcome State Fault Refusal := run dt (doInhibitRetry n) s

/-! ## Spectral mask (R151) -/

/-- The used points of the mask of a profile: offset and limit. -/
def maskPoints (d : Dev) (profile : Nat) : List (Int × Int) :=
  match d.region.profile? profile with
  | some p => ((d.region.masks.getD p.mask []).filter (fun q => q.1 != 0))
  | none => []

/-- MASK_BLOCK_CHECK (R121, R151): at the end of a block of 100 µs, counted from ramp end; a point beyond its limit in two
blocks in a row aborts the transmission. -/
def doMaskBlockCheck (n : Fin 4) (levels : List Int) (d : Dev) : Dev :=
  match (d.spn.get n).tx with
  | none => d
  | some t =>
    let block := (d.whl.time - t.ts) / 100000
    if t.judged d.whl.time = false ∨ block ≤ t.blocks then d
    else
      let margins := List.zipWith (fun (p : Int × Int) l => p.2 - l) (maskPoints d t.profile) levels
      let worst := margins.foldl (fun m x => min m (x.toNat / 5)) t.margin
      let breach := (List.range margins.length).filter (fun i => decide (margins.getD i 0 < 0))
      let again := block == t.blocks + 1 && breach.any (fun i => t.breach.contains i)
      let d := d.modSpn n (fun s => { s with tx := some { t with margin := worst, blocks := block, breach := breach } })
      if again then report (abortTx d n .uncounted none) (evSpn n 16) [] else d

def execMaskBlockCheck (dt : Nat) (n : Fin 4) (levels : List Int) (s : State) : Host.Outcome State Fault Refusal :=
  run dt (doMaskBlockCheck n levels) s

/-! ## End and release (R106) -/

/-- The end of a record's frame is kept for its acknowledgement (R157). -/
def endRecord (d : Dev) (k : AirKind) : Dev :=
  match k with
  | .record r =>
    d.modPly (fun p =>
      { p with awaiting := p.awaiting.map (fun a => if a.r.hash = r.hash then { a with ended := some d.whl.time } else a) })
  | .beacon | .ack _ _ => d

/-- TX_END (R106, R116, R151). -/
def doTxEnd (n : Fin 4) (rl : Nat) (d : Dev) : Dev :=
  match (d.spn.get n).tx with
  | none => d
  | some t =>
    if t.started = false ∨ t.ended.isSome then d
    else
      let d := d.modSpn n (fun s => { s with tx := some { t with ended := some d.whl.time } })
      let d := endRecord d t.kind
      let d := measureRl d n (some rl)
      maskWatch (d.modSpn n (fun s => s.pushMask t.margin)) n

def execTxEnd (dt : Nat) (n : Fin 4) (rl : Nat) (s : State) : Host.Outcome State Fault Refusal := run dt (doTxEnd n rl) s

/-- The place of a release step, and its delay after t_e in ns (R106). -/
def TxRelease.num : TxRelease → Nat
  | .trsw => 0
  | .bias => 1
  | .rx => 2
def TxRelease.delay (st : TxRelease) (r : Nat) : Nat :=
  match st with
  | .trsw => r + 5000
  | .bias => r + 15000
  | .rx => r + 105000

/-- The spindle returns to RX after a transmission (R106). -/
def Spn.mayReceive (s : Spn) : Bool := s.eff == 2 && !s.keptInSynth

/-- TX_RELEASE_STEP (R106, R107): where a blank or hold follows, the spindle stays in SYNTH. -/
def doTxReleaseStep (n : Fin 4) (st : TxRelease) (d : Dev) : Dev :=
  let s := d.spn.get n
  match s.tx with
  | none => d
  | some t =>
    match t.ended with
    | none => d
    | some te =>
      if t.released ≠ TxRelease.num st ∨ d.whl.time < te + TxRelease.delay st (t.rampNs d) then d
      else
        let t' := { t with released := t.released + 1 }
        match st with
        | .trsw => d.modSpn n (fun s => { s with tx := some t' }.syncWires)
        | .bias =>
          d.modSpn n (fun s =>
            let s := { s with mode := if s.mode = SpnMode.tx then SpnMode.synth else s.mode }
            if s.mayReceive then { s with tx := some t' }.syncWires
            else ({ s with tx := none }.settle d.whl.time).syncWires)
        | .rx =>
          d.modSpn n (fun s =>
            let rx := s.mode == SpnMode.synth && s.mayReceive
            let s := { s with tx := none, mode := if rx then SpnMode.rx else s.mode }
            let s := if rx then s.unblank n d.whl.time else s
            (s.settle d.whl.time).syncWires)

def execTxReleaseStep (dt : Nat) (n : Fin 4) (st : TxRelease) (s : State) : Host.Outcome State Fault Refusal :=
  run dt (doTxReleaseStep n st) s

end Sys2Proof.Machine
end

