-- ==== Sys2Proof/Machine/Receive.lean ====
section
/-! DEFINITION. Frame acquisition (R141 to R145, R173): detection, headers, frame ends, the class of a received frame
(R165, R170), its time correction (R171), and the acknowledgement the spindle returns (R83, R104, R157). -/

namespace Sys2Proof.Machine

/-! ## Class of a frame -/

/-- The served receive-capable cell a frame belongs to (R165): lowest slotframe, then lowest index. -/
def cellFor (cells : List CellRef) (profile chan : Nat) : Option CellRef :=
  let before (a b : CellRef) : Bool := decide (a.sf < b.sf) || (a.sf == b.sf && decide (a.index < b.index))
  (cells.filter (fun c => c.profile == profile && c.chan == chan)).foldl
    (fun m c => match m with | some x => if before c x then some c else some x | none => some c) none

/-- Device time of the start of slot `k`. -/
def Dev.slotStart (d : Dev) (k : Int) : Int := (d.whl.epoch : Int) + k * (d.whl.periodNs : Int)

/-- Frame start: RMARKER less the preamble and the sync word or SFD (R141). -/
def frameStart (d : Dev) (profile ts : Nat) : Int :=
  (ts : Int) - (match d.region.profile? profile with | some p => (p.syncNs : Int) | none => 0)

/-- e of R170 in ns: a frame without a cell takes its expected start from its own slot. -/
def frameError (d : Dev) (profile ts : Nat) (slot : Int) (cell : Option CellRef) : Int :=
  let k := match cell with | some c => c.slot | none => slot
  frameStart d profile ts - (d.slotStart k + (d.wrp.txoff * 1000 : Nat))

/-- The class of a frame (R170): 0 INNER, 1 EDGE, 2 OUTSIDE. -/
def frameClass (d : Dev) (e : Int) (hasCell : Bool) : Nat :=
  if hasCell = false ∨ d.wrp.sel * 1000 < e.natAbs then 2 else if d.wrp.sel * 900 < e.natAbs then 1 else 0

/-- TC in µs: −e to the nearest (R171). -/
def timeCorrection (e : Int) : Int := (-e + 500) / 1000

/-- A correction that the IE can carry (R171). -/
def tcFits (tc : Int) : Bool := decide (tc.natAbs ≤ 2047)

/-! ## The MAC header as the spindle reads it (log 14) -/

/-- The number in octets sent least significant first, as IEEE 802.15.4 orders its fields (R6). -/
def natLe (l : List Byte) : Nat := natOf l.reverse

/-- Octets of an address field by its addressing mode: 2 short, 3 extended. -/
def addrOctets (mode : Nat) : Nat := if mode = 2 then 2 else if mode = 3 then 8 else 0

/-- What the header of a received MAC frame says: frame version, acknowledgement requested, the sender's EUI-64 and the DSN where
the frame carries them, and district and Key Index where its Key Identifier Mode is 0x02 (R167, R315). -/
structure MacHead where
  version : Nat
  ackReq : Bool
  eui : Option (BitVec 64)
  dsn : Option Nat
  key : Option (BitVec 16 × BitVec 8)

/-- The header of a received MAC frame. -/
def macHeader (p : List Byte) : MacHead :=
  let fcf := natLe (slice p 0 2)
  let f (lo n : Nat) : Nat := (fcf >>> lo) % 2 ^ n
  let comp := f 6 1
  let dst := f 10 2
  let src := f 14 2
  let seq := if f 8 1 = 1 then 0 else 1
  let dstPan :=
    if dst = 0 ∧ src = 0 then comp == 1
    else if src = 0 then comp == 0
    else if dst = 0 then false
    else if dst = 3 ∧ src = 3 then comp == 0
    else true
  let srcPan :=
    if src = 0 then false
    else if dst = 0 then comp == 0
    else if dst = 3 ∧ src = 3 then false
    else comp == 0
  let at_ := 2 + seq + (if dstPan then 2 else 0) + addrOctets dst + (if srcPan then 2 else 0)
  let aux := at_ + addrOctets src
  let control := natAt p aux 1
  let key := aux + 1 + (if control / 32 % 2 = 1 then 0 else 4)
  { version := f 12 2, ackReq := f 5 1 == 1,
    eui := if src = 3 then some (BitVec.ofNat 64 (natLe (slice p at_ 8))) else none,
    dsn := if seq = 1 then some (natAt p 2 1) else none,
    key := if f 3 1 = 1 ∧ control / 8 % 4 = 2 then some (BitVec.ofNat 16 (natAt p key 2), BitVec.ofNat 8 (natAt p (key + 4) 1))
      else none }

/-- The generation that a Key Index means for skein `s` (R315): GEN, or GEN − 1 while the other half holds it; none where neither
is meant. -/
def keyGen? (d : Dev) (s : Nat) (index : BitVec 8) : Option Nat :=
  let gen := match kfind d.dst.skeins s with | some k => k.gen | none => 0
  if index.toNat = keyIndex gen then some gen
  else if skeinPrev d s ∧ index.toNat = keyIndex (gen - 1) then some (gen - 1)
  else none

/-- This side returns a frame's acknowledgement (R275): by the sender's node record, or by its EUI-64 alone. -/
def acksSender (d : Dev) (n : Fin 4) (eui : BitVec 64) : Bool :=
  match d.nodeByEui eui with
  | some (_, x) => acksNode d x
  | none => acksNode d { eui := eui, handle := 0, home := 0, band := is24 n }

/-- Whom an acknowledgement of a frame answers; none for a frame under a generation that is not accepted, which is not
acknowledged (R284, R315). -/
def ackTo? (d : Dev) (m : MacHead) : Option AckTo :=
  match m.key with
  | none => some { eui := m.eui, dsn := m.dsn, district := 0, gen := 0 }
  | some (district, index) =>
    match districtSkein? d district with
    | none => some { eui := m.eui, dsn := m.dsn, district := district, gen := 0 }
    | some s => (keyGen? d s index).map (fun g => { eui := m.eui, dsn := m.dsn, district := district, gen := g })

/-- The spindle begins the acknowledgement of a frame that ends now (R83, R104, R118, R157, R167, R284): of a frame of version
0b10, asked for, classed INNER or EDGE, under a generation that is accepted, in RUN, and this side's to send. -/
def beginAck (d : Dev) (n : Fin 4) (x : Descriptor) : Dev :=
  let m := macHeader x.payload
  let cell := cellFor x.cells x.profile x.chan
  let e := frameError d x.profile x.ts x.slot cell
  let mine : Bool := match m.eui with | some v => acksSender d n v | none => d.ply.role.sends
  let to_ := ackTo? d m
  if m.ackReq ∧ m.version = 2 ∧ to_.isSome ∧ frameClass d e cell.isSome < 2 ∧ mine ∧ d.glb.power = 3
      ∧ (d.spn.get n).tx = none then
    if (d.spn.get n).inhibited then countLost d n .inhibit 1
    else
      let foff := clampInt 40000 x.foff
      let df := match d.region.profile? x.profile with | some p => dfSteps foff (p.fch x.chan) | none => 0
      let tc := timeCorrection e
      beginTx d n { kind := .ack x.ts (if tcFits tc then some tc else none), cell := none, profile := x.profile,
                    chan := x.chan, ts := x.tsEnd + d.wrp.txAckDelay * 1000, ackTo := to_, pri := true, df := df }
  else d

/-! ## Detection -/

/-- The correlation length in ns: the last 8 preamble symbols and the sync word or SFD (R141). -/
def Profile.corrNs (p : Profile) : Nat :=
  let bits := if p.wave = 5 ∨ p.wave = 6 then 16 + 32 else if p.wave = 4 then 32 + 8 else 8 + 16
  (bits * bitThirds p.wave + 2) / 3

/-- The demodulator is done with the frame in progress, whose descriptor is made (R143 to R145). -/
def endRun (d : Dev) (n : Fin 4) (b : Nat) (r : RxRun) (x : Descriptor) : Dev :=
  let d := d.endRun n b
  if r.dropped then d else deliver d n x

/-- Airtime in ns of a frame being received (R139): coded or not as the SFD that was found says (R131). -/
def RxRun.airNs (r : RxRun) (p : Profile) (len : Nat) : Nat :=
  { p with opts := if r.coded then p.opts ||| 0x80 else p.opts &&& 0x7F }.airNs len

/-- The airtime of a frame being received would exceed 500 ms (R139). -/
def RxRun.tooLong (r : RxRun) (region : Region) : Bool :=
  match r.len, region.profile? r.profile with
  | some len, some p => decide (500000000 < r.airNs p len)
  | _, _ => false

/-- The NCO offset of a binding's fine stage in µHz: TRIM × f_ch (R149). -/
def Spn.nco (s : Spn) (p : Profile) (chan : Nat) : Int := s.trim * (p.fch chan : Int)

/-- The spindle delivers no frames: from t0 to t1 of a resynchronisation (R22). -/
def Spn.silenced (s : Spn) : Bool := s.resync && s.resyncT1.isNone

/-- A late collision (R173): the frame in progress runs past its own cell into the window, open now, of a later slot's
cell on its channel and profile. -/
def lateCell (d : Dev) (n : Fin 4) (r : RxRun) : Option CellRef :=
  let own := cellFor r.cells r.profile r.chan
  let last := match own with | some c => c.slot + (c.span : Int) | none => r.slot
  match cellFor (d.spn.get n).nowRx r.profile r.chan with
  | none => none
  | some c =>
    let off := (d.whl.time : Int) - (d.slotStart c.slot + (d.wrp.txoff * 1000 : Nat))
    if last < c.slot ∧ off.natAbs ≤ d.wrp.sel * 1000 then some c else none

/-- PREAMBLE_DETECT (R141 to R143, R146, R173): a frame is declared in RX on an enabled binding, at or above THRESH, with
a whole correlation of unflagged samples; on a busy demodulator the stronger wins. `coded` says which SFD of the set a
SUN FSK frame showed (R131). -/
def doPreambleDetect (n : Fin 4) (b : Fin 16) (corr : Nat) (rssi snr foff : Int) (coded : Bool) (d : Dev) : Dev :=
  let s := d.spn.get n
  let now := d.whl.time
  let bind := kgetD s.bindsEff b.val {}
  let busy := kfind s.demods b.val
  let (profile, chan) := match busy with | some r => (r.profile, r.chan) | none => (bind.profile, bind.chan)
  match d.region.profile? profile with
  | none => d
  | some p =>
    let tuned := busy.isSome || (bind.en && decide (kgetD s.bindFrom b.val 0 + p.corrNs ≤ now))
    if s.mode ≠ .rx ∨ tuned = false ∨ corr < p.thresh ∨ 60000 < foff.natAbs ∨ now < s.validFrom + p.corrNs then d
    else
      let d := d.modSpn n (fun s => { s with lastPreamble := some now })
      let ts := d.radioNow
      let new : RxRun := { ts := ts, rssi := rssi, snr := snr, foff := foff, profile := profile, chan := chan,
                           coded := coded && decide (p.wave ≤ 3), nco := s.nco p chan, slot := d.whl.slot,
                           cells := s.nowRx }
      let start (d : Dev) : Dev := d.modSpn n (fun s => { s with demods := kput s.demods b.val new })
      match busy with
      | none => start d
      | some r =>
        let node (c : Option CellRef) : Option Nat := match c with | some c => c.node | none => none
        let late : Option LateInfo := (lateCell d n r).map (fun c =>
          { slot := c.slot, frames := [(r.ts, r.rssi, node (cellFor r.cells profile chan)), (ts, rssi, c.node)] })
        if r.rssi + (10 * p.captureDb : Nat) ≤ rssi then
          let d := start d
          if r.dropped then d else deliver d n { r.stub b.val 3 ts with late := late }
        else deliver d n { new.stub b.val 4 ts with late := late }

def execPreambleDetect (dt : Nat) (n : Fin 4) (d : Fin 16) (corr : Nat) (rssi snr foff : Int) (coded : Bool) (s : State) :
    Host.Outcome State Fault Refusal := run dt (doPreambleDetect n d corr rssi snr foff coded) s

/-! ## Header and end -/

/-- What a header says (R131, R134, R144): the PSDU length and octets corrected, or the status that ends the frame. -/
def readHeader (wave : Nat) (hdr : RxHeader) : (Nat × Nat) ⊕ Nat :=
  match hdr with
  | .sunFsk ms fcs2 len =>
    if wave = 0 ∨ 3 < wave then .inr 1
    else if ms then .inr 8
    else if len < (if fcs2 then 2 else 4) ∨ wavePsdu wave < len then .inr 1
    else .inl (len, 0)
  | .oqpsk len => if wave ≠ 4 ∨ len < 2 ∨ 127 < len then .inr 1 else .inl (len, 0)
  | .native octs =>
    if wave = 5 ∨ wave = 6 then (match decodeHeader wave octs with | some r => .inl r | none => .inr 1) else .inr 1

/-- HEADER_DECODE (R131, R134, R145). -/
def doHeaderDecode (n : Fin 4) (b : Fin 16) (hdr : RxHeader) (d : Dev) : Dev :=
  let s := d.spn.get n
  match kfind s.demods b.val with
  | none => d
  | some r =>
    let wave := match d.region.profile? r.profile with | some p => p.wave | none => 0
    if r.len.isSome ∨ s.silenced then d
    else
      match readHeader wave hdr with
      | .inr st => endRun d n b.val r (r.stub b.val st d.radioNow)
      | .inl (len, fixed) =>
        let r' := { r with len := some len, fixed := fixed }
        if 65536 < s.storeUsed + 32 + len then
          storeFull (d.modSpn n (fun s => { s with demods := kput s.demods b.val { r' with dropped := true } })) n
        else
          d.modSpn n (fun s => { s with demods := kput s.demods b.val { r' with room := 32 + len } })

def execHeaderDecode (dt : Nat) (n : Fin 4) (d : Fin 16) (hdr : RxHeader) (s : State) :
    Host.Outcome State Fault Refusal := run dt (doHeaderDecode n d hdr) s

/-- The outcome of a frame of waveform `wave`: its status, corrected count and PSDU (R135, R144). -/
def frameOutcome (wave len : Nat) (octs : List Byte) (corrected : Nat) (fcsOk : Bool) : Nat × Nat × List Byte :=
  if wave = 5 ∨ wave = 6 then
    match decodePayload wave len octs with
    | some (p, k) => (if fcsOk then 0 else 7, k, p)
    | none => (2, 0, [])
  else (if fcsOk then 0 else 7, corrected, octs.take len)

/-- FRAME_END (R139, R144, R145, R149): a frame of more than 500 ms is abandoned as TOO_LONG, and bit errors are corrected only
where the frame was coded. -/
def doFrameEnd (n : Fin 4) (b : Fin 16) (octs : List Byte) (corrected : Nat) (fcsOk : Bool) (d : Dev) : Dev :=
  match kfind (d.spn.get n).demods b.val with
  | none => d
  | some r =>
    match r.len with
    | none => d
    | some len =>
      let wave := match d.region.profile? r.profile with | some p => p.wave | none => 0
      let (st, k, psdu) := if r.tooLong d.region then (6, 0, [])
        else frameOutcome wave len octs (if r.coded then corrected else 0) fcsOk
      let x := { r.stub b.val st d.radioNow with corr := if st = 6 then 0 else r.fixed + k, payload := if st = 0 then psdu else [] }
      if (d.spn.get n).silenced then d
      else
        let d := endRun d n b.val r x
        if r.dropped then d
        else if st = 0 then
          beginAck (d.modSpn n (fun s => { s with foffs := if s.trimEn then (r.foff :: s.foffs).take 256 else s.foffs })) n x
        else d

def execFrameEnd (dt : Nat) (n : Fin 4) (d : Fin 16) (octets : List Byte) (corrected : Nat) (fcsOk : Bool) (s : State) :
    Host.Outcome State Fault Refusal := run dt (doFrameEnd n d octets corrected fcsOk) s

/-- FRAME_TOO_LONG (R139): the airtime of a frame whose header has been read would exceed 500 ms. -/
def doFrameTooLong (n : Fin 4) (b : Fin 16) (d : Dev) : Dev :=
  match kfind (d.spn.get n).demods b.val with
  | none => d
  | some r =>
    if r.tooLong d.region ∧ (d.spn.get n).silenced = false then endRun d n b.val r (r.stub b.val 6 d.radioNow) else d

def execFrameTooLong (dt : Nat) (n : Fin 4) (d : Fin 16) (s : State) : Host.Outcome State Fault Refusal :=
  run dt (doFrameTooLong n d) s

end Sys2Proof.Machine
end

