-- ==== Sys2Proof/Machine/Warp.lean ====
section
/-! DEFINITION. The warp's registers (R156, R158 to R162, R186): the timeslot template, cell entries, slotframe changes and
hopping tables, with their write rows. -/

namespace Sys2Proof.Machine

/-! ## Template -/

/-- The timeslot template keeps its bounds at the present P (R156). -/
def templateOk (d : Dev) : Bool :=
  decide (d.wrp.sel + 500 ≤ d.wrp.txoff) && decide (d.wrp.txoff + d.wrp.sel + 500 ≤ d.whl.period * 10)

/-- TXOFF and SEL lie within the table of R156 at P, in units of 10 µs. -/
def timingOk (period txoff sel : Nat) : Bool :=
  decide (200 ≤ sel) && decide (sel ≤ 5000) && sel % 10 == 0 && decide (sel + 500 ≤ txoff)
    && decide (txoff + sel + 500 ≤ period * 10)

/-- TXACKDELAY and ACKWAIT lie within the table of R156. -/
def acktOk (v : Word) : Bool :=
  decide (400 ≤ fld v 31 16) && decide (fld v 31 16 ≤ 2000) && decide (100 ≤ fld v 15 0) && decide (fld v 15 0 ≤ 1000)

/-- Addresses of the warp's registers that a DELTA names (R186, R281). -/
def addrWrpCtrl : Nat := 0x180000
def addrTiming : Nat := 0x180004
def addrAckt : Nat := 0x180008
def addrSfCfg (n : Fin 4) (h : Nat) : Nat := 0x181000 + 0x100 * n.val + 0x20 * h
def addrHop (t i : Nat) : Nat := 0x182000 + 0x200 * t + 4 * i
def addrHopLen (t : Nat) : Nat := 0x183000 + 4 * t

/-- WRP_TIMING and WRP_ACKT take a value. -/
def setTiming (d : Dev) (ackt : Bool) (v : Word) : Dev :=
  d.modWrp (fun w =>
    if ackt then { w with txAckDelay := fld v 31 16, ackWait := fld v 15 0 }
    else { w with txoff := fld v 31 16, sel := fld v 15 0 })

/-- WRP_CTRL as it reads, and as it takes a value (R186). -/
def wrpCtrl (w : Wrp) : Word :=
  pack [(3, b2n w.ebEn), (2, b2n w.rplEn), (1, b2n w.outsideAccept), (0, b2n w.corrFrameEn)]
def setWrpCtrl (d : Dev) (v : Word) : Dev :=
  d.modWrp (fun w => { w with ebEn := bit v 3, rplEn := bit v 2, outsideAccept := bit v 1, corrFrameEn := bit v 0 })

/-- A write of WRP_TIMING or WRP_ACKT (R156). -/
def writeTiming (d : Dev) (ackt : Bool) (v : Word) : Dev × Status :=
  let ok := if ackt then acktOk v else timingOk d.whl.period (fld v 31 16) (fld v 15 0)
  if d.glb.power ≠ 1 then (d, .state)
  else if ok = false then (d, .range)
  else (streamDelta (setTiming d ackt v) (.warpReg (if ackt then addrAckt else addrTiming) v), .ok)

/-- WRP_TIMING_WRITE (R156). -/
def doWrpTimingWrite (ackt : Bool) (v : Word) (d : Dev) : Dev := regRow (fun d => writeTiming d ackt v) d

def execWrpTimingWrite (dt : Nat) (ackt : Bool) (v : Word) (s : State) : Host.Outcome State Fault Refusal :=
  run dt (doWrpTimingWrite ackt v) s

/-! ## Slotframes and hopping tables -/

/-- Changes them. -/
def Wrp.modSf (w : Wrp) (n : Fin 4) (h : Nat) (f : SfReg → SfReg) : Wrp :=
  { w with sfs := ksetD w.sfs (8 * n.val + h) (f (w.sf n h)) {} }

/-- An enabled or armed slotframe names table `t` (R162). -/
def Wrp.hopBusy (w : Wrp) (t : Nat) : Bool :=
  w.sfs.any (fun p => (sfEn p.2.cfg && sfHop p.2.cfg == t) || (p.2.armed && sfHop p.2.new == t))

/-- Entry `i` of table `t`, or its HLEN, takes a value. -/
def setHop (d : Dev) (t : Nat) (i : Option Nat) (v : Word) : Dev :=
  d.modWrp (fun w =>
    match i with
    | some i => { w with hops := ksetD w.hops (128 * t + i) (fld v 9 0) 0 }
    | none => { w with hlens := ksetD w.hlens t (fld v 7 0) 1 })

/-- A write of WRP_HOPt_i, or of WRP_HOPLEN_t where there is no entry (R162). -/
def writeHop (d : Dev) (t : Nat) (i : Option Nat) (v : Word) : Dev × Status :=
  if d.wrp.hopBusy t then (d, .state)
  else if i = none ∧ (fld v 7 0 = 0 ∨ 128 < fld v 7 0) then (d, .range)
  else
    (streamDelta (setHop d t i v) (.warpReg (match i with | some i => addrHop t i | none => addrHopLen t) v), .ok)

/-- WRP_HOP_WRITE (R162). -/
def doWrpHopWrite (t : Fin 8) (i : Option (Fin 128)) (v : Word) (d : Dev) : Dev :=
  regRow (fun d => writeHop d t.val (i.map (·.val)) v) d

def execWrpHopWrite (dt : Nat) (t : Fin 8) (i : Option (Fin 128)) (v : Word) (s : State) :
    Host.Outcome State Fault Refusal := run dt (doWrpHopWrite t i v) s

/-- A write of WRP_SF_NEW (R161, R186). -/
def writeSfNew (d : Dev) (n : Fin 4) (h : Nat) (v : Word) : Dev × Status :=
  if (d.wrp.sf n h).armed then (d, .state)
  else if 1 ≤ sfLen v ∧ sfLen v ≤ 6 then (d, .range)
  else (d.modWrp (·.modSf n h (fun r => { r with new := v &&& 0x8700FFFF })), .ok)

/-- A write of WRP_SF_ACT_HI: DISARM cancels an armed change (R161). -/
def writeSfHi (d : Dev) (n : Fin 4) (h : Nat) (v : Word) : Dev × Status :=
  (d.modWrp (·.modSf n h (fun r => { r with actHi := v.setWidth 8, armed := r.armed && !bit v 30 })), .ok)

/-- A write of WRP_SF_ACT_LO arms the change (R161). -/
def writeSfLo (d : Dev) (n : Fin 4) (h : Nat) (v : Word) : Dev × Status :=
  let act := (d.wrp.sf n h).actHi.toNat * 2 ^ 32 + v.toNat
  if d.whl.hasAsn = false ∨ act ≤ d.whl.asn + 1 then (d, .time)
  else (d.modWrp (·.modSf n h (fun r => { r with actLo := v, armed := true, act := act })), .ok)

/-- SF_ARM (R161). -/
def doSfArm (n : Fin 4) (h : Fin 8) (v : Word) (d : Dev) : Dev := regRow (fun d => writeSfLo d n h.val v) d

def execSfArm (dt : Nat) (n : Fin 4) (h : Fin 8) (v : Word) (s : State) : Host.Outcome State Fault Refusal :=
  run dt (doSfArm n h v) s

/-- SF_DISARM (R161). -/
def doSfDisarm (n : Fin 4) (h : Fin 8) (v : Word) (d : Dev) : Dev := regRow (fun d => writeSfHi d n h.val (v ||| 0x40000000)) d

def execSfDisarm (dt : Nat) (n : Fin 4) (h : Fin 8) (v : Word) (s : State) : Host.Outcome State Fault Refusal :=
  run dt (doSfDisarm n h v) s

/-- SF_SWITCH (R161): from slot ACT_ASN onward. -/
def doSfSwitch (n : Fin 4) (h : Fin 8) (d : Dev) : Dev :=
  let r := d.wrp.sf n h.val
  if r.armed ∧ d.whl.hasAsn ∧ r.act ≤ d.whl.asn ∧ d.phase.fwRuns then
    let d := d.modWrp (·.modSf n h.val (fun r => { r with cfg := r.new, armed := false }))
    let d := streamDelta d (.warpReg (addrSfCfg n h.val) r.new)
    report d evSfSwitch (octets 1 n.val ++ octets 1 h.val ++ octets 5 r.act)
  else d

def execSfSwitch (dt : Nat) (n : Fin 4) (h : Fin 8) (s : State) : Host.Outcome State Fault Refusal :=
  run dt (doSfSwitch n h) s

/-! ## Cells -/

/-- Two cells of one slotframe share a slot (R160). -/
def cellsMeet (a b : Word × Word) : Bool :=
  decide (cellSlot a ≤ cellSlot b + cellSpan b) && decide (cellSlot b ≤ cellSlot a + cellSpan a)

/-- Why a WRITE of cell entry `i` is refused (R160): `suits` tells the profiles that are defined and suit the band,
`cfgs` the active and the armed configuration, `hlen` the tables' lengths, `others` the spindle's entries. -/
def cellRefused (suits : Nat → Bool) (cfgs : List Word) (hlen : Nat → Nat) (others : KMap (Word × Word)) (i : Nat)
    (c : Word × Word) : Option Status :=
  let range := !bit c.1 31
    || cfgs.any (fun w => sfLen w == 0 || decide (sfLen w < cellSlot c + cellSpan c + 1)
        || decide (hlen (sfHop w) ≤ cellChoff c))
    || !suits (cellProfile c)
    || (cellType c == 3 && !cellBcast c)
    || (cellBcast c && cellNode c != 0)
  let clash := others.any (fun p =>
    p.1 != i && cellSf p.2 == cellSf c && cellsMeet p.2 c && (cellSpan p.2 != 0 || cellSpan c != 0))
  if range then some .range else if clash then some .conflict else none

/-- A profile is defined and suits the band of spindle `n` (R130, R160). -/
def Region.suits (r : Region) (n : Fin 4) (j : Nat) : Bool :=
  match r.profile? j with | some p => waveSuits n p.wave | none => false

/-- The refusal of a WRITE of entry `i` of spindle `n` as things stand. -/
def cellRefusedNow (d : Dev) (n : Fin 4) (i : Nat) (c : Word × Word) : Option Status :=
  let r := d.wrp.sf n (cellSf c)
  cellRefused (d.region.suits n) (r.cfg :: if r.armed then [r.new] else []) d.wrp.hlen (d.wrp.cells.get n) i c

/-- Entry `i` of spindle `n` takes a value, or is freed. -/
def setCell (d : Dev) (n : Fin 4) (i : Nat) (c : Option (Word × Word)) : Dev :=
  d.modWrp (fun w =>
    let t := w.cells.get n
    { w with cells := w.cells.set n (match c with | some c => kput t i c | none => kdel t i) })

/-- The number of a WRP_CCMD status (R186). -/
def ccmdStatus (st : Option Status) : Nat :=
  match st with
  | none => 0
  | some .range => 1
  | some .conflict => 2
  | some _ => 3

/-- SPN and CELL of a value written to WRP_CCMD are kept. -/
def ccmdKeep (d : Dev) (v : Word) : Dev := d.modWrp (fun w => { w with ccSpn := fld v 25 24, ccCell := fld v 13 0 })

/-- The spindle a WRP_CCMD value names. -/
def ccmdSpn (v : Word) : Fin 4 := ⟨fld v 25 24 % 4, Nat.mod_lt _ (by decide)⟩

/-- READ (R159, R160): a free index reads 0. -/
def ccmdRead (d : Dev) (v : Word) : Dev :=
  let c := kgetD (d.wrp.cells.get (ccmdSpn v)) (fld v 13 0) (0, 0)
  (ccmdKeep d v).modWrp (fun w => { w with cstg0 := c.1, cstg1 := c.2, ccStatus := 0 })

/-- WRITE (R160). -/
def ccmdWrite (d : Dev) (v : Word) : Dev :=
  let n := ccmdSpn v
  let i := fld v 13 0
  let c := (d.wrp.cstg0, d.wrp.cstg1)
  let st := cellRefusedNow d n i c
  let d := (ccmdKeep d v).modWrp (fun w => { w with ccStatus := ccmdStatus st })
  if st.isSome then d else streamDelta (setCell d n i (some c)) (.cell n.val i c.1 c.2)

/-- DELETE (R160). -/
def ccmdDelete (d : Dev) (v : Word) : Dev :=
  let n := ccmdSpn v
  let i := fld v 13 0
  let held := (kfind (d.wrp.cells.get n) i).isSome
  let d := (ccmdKeep d v).modWrp (fun w => { w with ccStatus := 0 })
  if held then streamDelta (setCell d n i none) (.cellFree n.val i) else d

/-- CELL_READ (R160). -/
def doCellRead (v : Word) (d : Dev) : Dev := regRow (fun d => (ccmdRead d v, .ok)) d

def execCellRead (dt : Nat) (v : Word) (s : State) : Host.Outcome State Fault Refusal := run dt (doCellRead v) s

/-- CELL_WRITE (R160). -/
def doCellWrite (v : Word) (d : Dev) : Dev := regRow (fun d => (ccmdWrite d v, .ok)) d

def execCellWrite (dt : Nat) (v : Word) (s : State) : Host.Outcome State Fault Refusal := run dt (doCellWrite v) s

/-- CELL_DELETE (R160). -/
def doCellDelete (v : Word) (d : Dev) : Dev := regRow (fun d => (ccmdDelete d v, .ok)) d

def execCellDelete (dt : Nat) (v : Word) (s : State) : Host.Outcome State Fault Refusal := run dt (doCellDelete v) s

/-- A write of WRP_CCMD (R160, R186). -/
def writeCcmd (d : Dev) (v : Word) : Dev × Status :=
  (match fld v 27 26 with
    | 1 => ccmdRead d v
    | 2 => ccmdWrite d v
    | 3 => ccmdDelete d v
    | _ => ccmdKeep d v, .ok)

/-! ## Registers of WRP -/

/-- Spindle, slotframe and register of an offset among the slotframe registers. -/
def sfIndex? (o : Nat) : Option (Fin 4 × Nat × Nat) :=
  if 0x1000 ≤ o ∧ o < 0x1400 ∧ o % 0x20 < 0x10 then
    (spindle? ((o - 0x1000) / 0x100)).map (fun n => (n, (o - 0x1000) % 0x100 / 0x20, o % 0x20))
  else none

/-- Table and entry of an offset among the hopping tables; no entry for HLEN. -/
def hopIndex? (o : Nat) : Option (Nat × Option Nat) :=
  if 0x2000 ≤ o ∧ o < 0x3000 then some ((o - 0x2000) / 0x200, some ((o - 0x2000) % 0x200 / 4))
  else (index? o 0x3000 4 8).map (fun t => (t, none))

/-- A write of the register of WRP at offset `o` (R159, R186). -/
def writeWrp (d : Dev) (o : Nat) (v : Word) : Option (Dev × Status) :=
  if o = 0 then
    let d := setWrpCtrl d v
    some (streamDelta d (.warpReg addrWrpCtrl (wrpCtrl d.wrp)), .ok)
  else if o = 4 then some (writeTiming d false v)
  else if o = 8 then some (writeTiming d true v)
  else if o = 0x10 then some (writeCcmd d v)
  else if o = 0x14 then some (d.modWrp (fun w => { w with cstg0 := v }), .ok)
  else if o = 0x18 then some (d.modWrp (fun w => { w with cstg1 := v &&& 0xFF01FFFF }), .ok)
  else if o = 0x20 ∨ o = 0x24 ∨ (index? o 0x100 4 32).isSome then some (d, .ok)
  else
    match sfIndex? o, hopIndex? o with
    | some (n, h, r), _ =>
      some (match r with
        | 0 => (d, .ok)
        | 4 => writeSfNew d n h v
        | 8 => writeSfHi d n h v
        | _ => writeSfLo d n h v)
    | none, some (t, i) => some (writeHop d t i v)
    | none, none => none

/-- Counter `k` of R186. -/
def WrpCnt.nth (c : WrpCnt) (k : Nat) : Nat :=
  match k with
  | 0 => c.resync
  | 1 => c.conflict
  | 2 => c.unbound
  | 3 => c.edge
  | 4 => c.outside
  | 5 => c.late
  | 6 => c.nofit
  | _ => c.corrDrop

/-- Throws admitted and not yet closed (R186). -/
def throwsOpen (d : Dev) : Nat := d.whl.launches.length

/-- A read of the register of WRP at offset `o` (R159, R186). -/
def readWrp (d : Dev) (o : Nat) : Option Word :=
  let w := d.wrp
  if o = 0 then some (wrpCtrl w)
  else if o = 4 then some (pack [(16, w.txoff), (0, w.sel)])
  else if o = 8 then some (pack [(16, w.txAckDelay), (0, w.ackWait)])
  else if o = 0x10 then some (pack [(28, w.ccStatus), (24, w.ccSpn), (0, w.ccCell)])
  else if o = 0x14 then some w.cstg0
  else if o = 0x18 then some w.cstg1
  else if o = 0x20 then some (BitVec.ofNat 32 d.presentCount)
  else if o = 0x24 then some (BitVec.ofNat 32 (throwsOpen d))
  else
    match index? o 0x100 4 32, sfIndex? o, hopIndex? o with
    | some i, _, _ =>
      (spindle? (i / 8)).map (fun n => BitVec.ofNat 32 ((w.cnt.get n).nth (i % 8)))
    | none, some (n, h, r), _ =>
      let x := w.sf n h
      some (match r with
        | 0 => x.cfg
        | 4 => x.new
        | 8 => pack [(31, b2n x.armed), (0, x.actHi.toNat)]
        | _ => x.actLo)
    | none, none, some (t, some i) => some (BitVec.ofNat 32 (w.hop t i))
    | none, none, some (t, none) => some (BitVec.ofNat 32 (w.hlen t))
    | none, none, none => none

end Sys2Proof.Machine
end

