-- ==== Sys2Proof/Machine/Supply.lean ====
section
/-! DEFINITION. Power states (R340 to R344), protective trips (R345), temperatures (R355), supply (R23, R357, R376), the
hold-up self-check (R379), and the in-service tests of the spindles (R363 to R365), with their rows. -/

namespace Sys2Proof.Machine

/-! ## Power states -/

/-- The power state changes (R342): LISTEN starts no transmission and lets one that has its
grant run out (log 126), and targets and role follow (R95, R267, R341). -/
def changePower (d : Dev) (new cause : Nat) : Dev :=
  let old := d.glb.power
  if old = new then d
  else
    let d := d.modGlb (fun g => { g with power := new })
    let d := report d evPowerChange (octets 1 old ++ octets 1 new ++ octets 1 cause)
    let unstarted (d : Dev) (n : Fin 4) : Dev :=
      match (d.spn.get n).tx with
      | some t => if t.granted then d else dropTx d n .uncounted
      | none => d
    let d := if new = 2 then each spindles unstarted d else d
    let d := each spindles atEndOfCell d
    if new = 1 then setRole d .hold false
    else if d.ply.role = .hold then setRole d .spare false
    else d

/-- A protective trip (R345): `thermal`, or the input trip. -/
def protectiveTrip (d : Dev) (thermal : Bool) : Dev :=
  let d := d.modGlb (fun g => { g with tripped := true, tripThermal := g.tripThermal || thermal,
                                       tripInput := g.tripInput || !thermal })
  let d := if thermal then d else report d evInputTrip []
  if d.glb.power = 2 ∨ d.glb.power = 3 then changePower d 1 (if thermal then 2 else 3) else d

/-- The first check of R343 that fails. -/
def powerRefused (d : Dev) (state wake : Nat) : Option Status :=
  let up := state == 2 || state == 3
  if 3 < state ∨ (state ≠ 0 ∧ wake ≠ 0) ∨ 604800 < wake then some .range
  else if up ∧ (d.evt.live evThermalTrip ∨ d.pwr.vhold < 36000) then some .state
  else if up ∧ (templateOk d = false ∨ d.img.act.isEmpty = false) then some .state
  else if state = 3 ∧ d.whl.hasAsn = false then some .time
  else none

/-- POWER_STATE (R343). -/
def doPowerState (th : Nat) (d : Dev) : Dev :=
  runThread d th (fun c => match c with | .powerState s w => some (s, w) | _ => none) fun d _ a =>
    match powerRefused d a.1 a.2 with
    | some st => finish d th st []
    | none =>
      let d := d.modGlb (fun g => { g with tripped := false, tripInput := false, tripThermal := false })
      let now := d.whl.time
      if a.1 = 0 then
        finish (d.modPwr (fun p => { p with offDue := some (p.wall + 50000000), wake := a.2 })) th .ok (octets 8 (now + 50000000))
      else finish (changePower d a.1 1) th .ok (octets 8 now)

def execPowerState (dt : Nat) (th : Nat) (s : State) : Host.Outcome State Fault Refusal := run dt (doPowerState th) s

/-- POWER_OFF_RAILS (R342): 50 ms after the thread is done, all rails but the logic rail go off. -/
def doPowerOffRails (d : Dev) : Dev :=
  match d.pwr.offDue with
  | none => d
  | some t =>
    if d.phase.ctrlRuns ∧ t ≤ d.pwr.wall then (railsOff d .off).modPwr (fun p => { p with offAt := some p.wall }) else d

def execPowerOffRails (dt : Nat) (s : State) : Host.Outcome State Fault Refusal := run dt doPowerOffRails s

/-- WAKE_ELAPSED (R344). -/
def doWakeElapsed (d : Dev) : Dev :=
  match d.pwr.offAt with
  | none => d
  | some t =>
    if d.phase = .off ∧ 0 < d.pwr.wake ∧ t + d.pwr.wake * 1000000000 ≤ d.pwr.wall then beginStart d 10 else d

def execWakeElapsed (dt : Nat) (s : State) : Host.Outcome State Fault Refusal := run dt doWakeElapsed s

/-! ## Measurements -/

/-- A self-test that runs continuously (R368): fail until it passes again, each failure reported once. -/
def selfTestLive (d : Dev) (b : Nat) (ok : Bool) : Dev :=
  let was := kgetD d.glb.selftest b 0
  if ok then d.modGlb (fun g => { g with selftest := ksetD g.selftest b 1 0 })
  else if was = 2 then d
  else selfTest d b 2

/-- A dwell of 500 ms, in ns (R349, R355). -/
def halfSecond : Nat := 500000000

/-- One die against one threshold, in 0.1 °C (R355). -/
def thermalWatch (d : Dev) (e i : Nat) (t theta : Int) : Dev :=
  watchDwell d e i (decide (theta ≤ t)) (decide (t ≤ theta - 40)) halfSecond halfSecond d.pwr.wall (octets 1 i)

/-- TEMPERATURE_SAMPLE (R23, R345, R355, R368). -/
def doTemperatureSample (t : Four Int) (paired : Bool) (d : Dev) : Dev :=
  if d.phase.ctrlRuns then
    let d := d.modPwr (fun p => { p with temps := t })
    let d := each spindles (fun d i =>
      let x := t.get i
      let d := thermalWatch (thermalWatch d evThermalWarn i.val x 1100) evThermalThrottle i.val x 1200
      let was := d.evt.liveAt evThermalTrip i.val
      let d := thermalWatch d evThermalTrip i.val x 1250
      if d.evt.liveAt evThermalTrip i.val ∧ was = false then protectiveTrip d true else d) d
    let spread := t.list.foldl max t.a - t.list.foldl min t.a
    let d := watchDwell d evDieTempSpread 0 (decide (300 < spread)) (decide (spread ≤ 260)) halfSecond halfSecond
      d.pwr.wall (octets 1 0)
    if d.phase.fwRuns then selfTestLive d 13 paired else d
  else d

def execTemperatureSample (dt : Nat) (t : Four Int) (paired : Bool) (s : State) : Host.Outcome State Fault Refusal :=
  run dt (doTemperatureSample t paired) s

/-- The rails of R19 in order: nominal, least and greatest, in mV. -/
def railLimits : List (Nat × Nat × Nat) :=
  [(800, 776, 824), (1100, 1067, 1133), (1800, 1746, 1854), (1800, 1710, 1890), (1100, 1045, 1155), (3300, 3135, 3465),
   (3300, 3135, 3465)]

/-- One rail against its tolerance (R23, R349). -/
def railWatch (d : Dev) (i v : Nat) (lim : Nat × Nat × Nat) : Dev :=
  let (nom, lo, hi) := lim
  let out := decide (v < lo) || decide (hi < v)
  let within := decide (100 * lo + nom ≤ 100 * v) && decide (100 * v + nom ≤ 100 * hi)
  watchDwell d evRailRange i out within 100000 halfSecond d.pwr.wall (octets 1 i)

/-- The input trip's dwell (R345): 10 ms without a break at or below 35.5 V, once for each such period. -/
def inputTrip (d : Dev) (vhold : Nat) : Dev :=
  if 35500 < vhold then d.modPwr (fun p => { p with lowSince := none, tripDone := false })
  else
    let since := d.pwr.lowSince.getD d.pwr.wall
    let d := d.modPwr (fun p => { p with lowSince := some since })
    if d.pwr.tripDone = false ∧ since + 10000000 ≤ d.pwr.wall then
      protectiveTrip (d.modPwr (fun p => { p with tripDone := true })) false
    else d

/-- PWRFAIL_N and its source (R357, R376): asserted at 34 V falling, released at 35 V rising. -/
def pwrfailWatch (d : Dev) (vhold : Nat) : Dev :=
  let fail := if vhold ≤ 34000 then true else if 35000 ≤ vhold then false else d.pwr.pwrfail
  watchIf (d.modPwr (fun p => { p with pwrfail := fail })) evPwrfail fail

/-- A stage fails: what it had to write to PRA_BANK stays unwritten, so VALID stays 0 (R329, R338). -/
def stageFail (d : Dev) (st : Status) : Dev :=
  match d.img.stage with
  | none => d
  | some g =>
    let d := refreshBanks (d.modImg (fun i => { i with stage := none, blocks := 0, last := st.num }))
    finish (report d evReelStageFail (octets 1 st.num)) g.th st []

/-- SUPPLY_MEASURE (R23, R329, R345, R357, R376, R379). -/
def doSupplyMeasure (vhold pin : Nat) (rails : List Nat) (d : Dev) : Dev :=
  if d.phase.ctrlRuns then
    let d := d.modPwr (fun p => { p with vhold := vhold, pin := pin,
                                         holdupV1 := if vhold < 38000 then none else p.holdupV1 })
    let d := each ((List.range 7).zip (rails.zip railLimits)) (fun d x => railWatch d (x.1 + 1) x.2.1 x.2.2) d
    let d := if d.phase.fwRuns then selfTestLive d 12 (!d.evt.live evRailRange) else d
    let d := inputTrip (pwrfailWatch d vhold) vhold
    if vhold < 40000 then stageFail d .supply else d
  else d

def execSupplyMeasure (dt : Nat) (vhold pin : Nat) (rails : List Nat) (s : State) : Host.Outcome State Fault Refusal :=
  run dt (doSupplyMeasure vhold pin rails) s

/-! ## Hold-up self-check (R379) -/

/-- HOLDUP_CHECK_START (R379): when it is due, VHOLD is at 40.0 V or more and PWRFAIL is clear. -/
def doHoldupCheckStart (v1 : Nat) (d : Dev) : Dev :=
  match d.pwr.holdupDue with
  | none => d
  | some t =>
    if d.phase = .up ∧ t ≤ d.pwr.wall ∧ 40000 ≤ v1 ∧ d.pwr.pwrfail = false ∧ d.pwr.holdupV1 = none then
      d.modPwr (fun p => { p with holdupV1 := some v1, holdupFrom := p.wall, holdupDue := some (t + 3600000000000) })
    else d

def execHoldupCheckStart (dt : Nat) (v1 : Nat) (s : State) : Host.Outcome State Fault Refusal :=
  run dt (doHoldupCheckStart v1) s

/-- C_est is 3,000 µF or more (R379), with V in mV and P in mW; the formula gives no value where VHOLD has not fallen, and
the outcome is then a free value. -/
def holdupPass (d : Dev) (v1 v2 p : Nat) : Bool × Dev :=
  if v2 < v1 then (decide (3000 * (v1 * v1 - v2 * v2) ≤ 2000000 * p), d)
  else let (r, d) := d.draw; (r.getLsbD 0, d)

/-- HOLDUP_CHECK_END (R368, R379): below 38.0 V the check is abandoned and the earlier result stands. -/
def doHoldupCheckEnd (v2 p : Nat) (d : Dev) : Dev :=
  match d.pwr.holdupV1 with
  | none => d
  | some v1 =>
    if v2 < 38000 then d.modPwr (fun p => { p with holdupV1 := none })
    else if d.pwr.wall < d.pwr.holdupFrom + 1000000 then d
    else
      let (ok, d) := holdupPass d v1 v2 p
      selfTest (d.modPwr (fun p => { p with holdupV1 := none, holdupPassed := ok })) 16 (if ok then 1 else 2)

def execHoldupCheckEnd (dt : Nat) (v2 p : Nat) (s : State) : Host.Outcome State Fault Refusal :=
  run dt (doHoldupCheckEnd v2 p) s

/-! ## In-service tests (R363 to R365) -/

/-- The operation codes of SPINDLE_TEST (R363). -/
def opReturn : Nat := 0
def opTest : Nat := 1
def opBypass : Nat := 2
def opUnbypass : Nat := 3

/-- Runs the SPINDLE_TEST of a thread when it names operation `op`; a spindle above 3 is out of range. -/
def spindleTest (d : Dev) (th op : Nat) (f : Dev → Fin 4 → Dev) : Dev :=
  runThread d th (fun c => match c with | .spindleTest n o => if o = op then some n else none | _ => none) fun d _ n =>
    match spindle? n with
    | none => finish d th .range []
    | some n => f d n

/-- The spindle is out of service, or is to be. -/
def Spn.outOfService (s : Spn) : Bool := s.oos != .none || s.oosPend.isSome

/-- TEST or BYPASS is refused (R363). -/
def testRefused (d : Dev) (n : Fin 4) (test : Bool) : Option Status :=
  let pserve := match d.ply.last with | some h => h.spn.getLsbD (8 * (3 - n.val) + 7) | none => false
  if (d.spn.get n).fitted = false ∨ (d.spn.get (bandMate n)).outOfService ∨ (test ∧ d.glb.power = 1) then some .state
  else if d.ply.role = .paired ∧ pserve = false then some .partner
  else none

/-- TEST and BYPASS wait for the end of the cell in progress (R364). -/
def askOos (d : Dev) (th : Nat) (n : Fin 4) (o : OutOfService) : Dev :=
  match testRefused d n (o == .test) with
  | some st => finish d th st []
  | none => atEndOfCell (d.modSpn n (fun s => { s with oosPend := some (o, th) })) n

/-- TEST (R364). -/
def doTest (th : Nat) (d : Dev) : Dev := spindleTest d th opTest fun d n => askOos d th n .test

def execTest (dt : Nat) (th : Nat) (s : State) : Host.Outcome State Fault Refusal := run dt (doTest th) s

/-- BYPASS (R365). -/
def doBypass (th : Nat) (d : Dev) : Dev := spindleTest d th opBypass fun d n => askOos d th n .bypass

def execBypass (dt : Nat) (th : Nat) (s : State) : Host.Outcome State Fault Refusal := run dt (doBypass th) s

/-- RETURN (R363, R364): outside TEST nothing changes. -/
def doReturnTest (th : Nat) (d : Dev) : Dev :=
  spindleTest d th opReturn fun d n =>
    if (d.spn.get n).oos = .test then
      let d := d.modSpn n (fun s => (({ s with oos := .none }.pendCal 5).settle d.whl.time).syncWires)
      finish (report d evSpnTest (octets 1 n.val ++ octets 1 opReturn)) th .ok []
    else finish d th .ok []

def execReturnTest (dt : Nat) (th : Nat) (s : State) : Host.Outcome State Fault Refusal := run dt (doReturnTest th) s

/-- UNBYPASS (R363, R365): outside BYPASS nothing changes. -/
def doUnbypass (th : Nat) (d : Dev) : Dev :=
  spindleTest d th opUnbypass fun d n =>
    if (d.spn.get n).oos = .bypass then
      let d := atEndOfCell (d.modSpn n (fun s => { s with oos := .none })) n
      finish (report d evSpnTest (octets 1 n.val ++ octets 1 opUnbypass)) th .ok []
    else finish d th .ok []

def execUnbypass (dt : Nat) (th : Nat) (s : State) : Host.Outcome State Fault Refusal := run dt (doUnbypass th) s

/-- SPINDLE_TEST_COMPLETE (R364, R368). -/
def doSpindleTestComplete (n : Fin 4) (r : TestResult) (d : Dev) : Dev :=
  match (d.spn.get n).testTh with
  | none => d
  | some th =>
    let d := d.modSpn n (fun s => { s with testTh := none })
    let d := selfTest d (8 + n.val) (if r.fail = 0 then 1 else 2)
    finish d th .ok (octets 1 r.pass.toNat ++ octets 1 r.fail.toNat ++ octets 2 (toTwos 16 r.noise) ++ octets 2 r.evm
      ++ octets 2 0)

def execSpindleTestComplete (dt : Nat) (n : Fin 4) (r : TestResult) (s : State) : Host.Outcome State Fault Refusal :=
  run dt (doSpindleTestComplete n r) s

end Sys2Proof.Machine
end

