-- ==== Sys2Proof/Machine/NodeTime.lean ====
section
/-! DEFINITION. Frames the firmware takes in (R148, R157, R165, R170 to R173, R279, R284, R315), with node offsets,
correction frames and the CONFIRMs of throws (R179). -/

namespace Sys2Proof.Machine

/-! ## Correction frames -/

/-- A record is a correction frame for node `i`. -/
def isCorrection (i : Nat) (r : DownRec) : Bool :=
  match r.kind with | .correction _ => r.dest == some i | _ => false

/-- A pending correction frame of node `i` is taken away. -/
def dropCorrection (d : Dev) (i : Nat) : Dev :=
  let d := d.modPly (fun p => { p with recs := p.recs.filter (fun r => !isCorrection i r),
                                       waiting := p.waiting.filter (fun q => !isCorrection i q.1) })
  d.modNode i (fun x => { x with corr := none })

/-- A correction frame to node `i` for an error of `e` ns of a frame at `ts` (R171, R315), under the generation of that frame where
it is known: the newer trigger replaces a pending one, and the frame may be placed for 2 s. The IE it carries stands for its MAC
payload in the record hash (log 80). -/
def correctNode (d : Dev) (i : Nat) (e : Int) (ts : Nat) (gen : Option Nat) : Dev :=
  match d.node? i with
  | none => d
  | some x =>
    let tc := timeCorrection e
    if ackSide d x = false then d
    else if tcFits tc = false then report d evTcRange []
    else if d.wrp.corrFrameEn = false then d
    else
      let d := (dropCorrection d i).modNode i (fun x => { x with corr := some (tc, ts + 2000000000) })
      submitRec d { newRec d (.correction tc) (some i) false (timeCorrIe tc) with gen := gen }

/-- CORRECTION_FRAME_EXPIRE (R171): dropped and counted on the node's spindle. -/
def doCorrectionFrameExpire (i : Nat) (d : Dev) : Dev :=
  match d.node? i with
  | none => d
  | some x =>
    match x.corr with
    | some (_, t) =>
      if t ≤ d.whl.time then
        (dropCorrection d i).modCnt (pinned d x) (fun c => { c with corrDrop := inc32 c.corrDrop })
      else d
    | none => d

def execCorrectionFrameExpire (dt : Nat) (node : Nat) (s : State) : Host.Outcome State Fault Refusal :=
  run dt (doCorrectionFrameExpire node) s

/-! ## What a frame says of its sender -/

/-- The node offset takes a FOFF (R148). -/
def takeFoff (d : Dev) (n : Fin 4) (i : Nat) (foff : Int) : Dev :=
  let f := clampInt 40000 foff
  let now := d.glb.upNs
  let d := d.modNode i (fun x =>
    { x with offset := some (match x.offset with
        | some (o, t) => (if now < t + 600000000000 then o + (f - o) / 4 else f, now)
        | none => (f, now)) })
  if 40000 < foff.natAbs then report d (evSpn n 20) (octets 4 i ++ octets 4 (toTwos 32 foff)) else d

/-- NODE_OFFSET_LAPSE (R148): 600 s after the last frame that updated it. -/
def doNodeOffsetLapse (i : Nat) (d : Dev) : Dev :=
  d.modNode i (fun x =>
    match x.offset with
    | some (_, t) => if t + 600000000000 ≤ d.glb.upNs then { x with offset := none } else x
    | none => x)

def execNodeOffsetLapse (dt : Nat) (node : Nat) (s : State) : Host.Outcome State Fault Refusal :=
  run dt (doNodeOffsetLapse node) s

/-- The drift run of node `i` after a frame of class `cls` and error `e` (R172). -/
def driftRun (d : Dev) (i : Nat) (cls : Nat) (e : Int) : Dev :=
  match d.node? i with
  | none => d
  | some x =>
    if cls = 0 then d.modNode i (fun x => { x with cls := 0, drift := 0, drifter := false })
    else
      let d := d.modNode i (fun x => { x with cls := cls, drift := x.drift + 1, drifter := x.drifter || x.drift + 1 == 4 })
      if x.drift + 1 = 4 then report d evDrifter (octets 4 x.handle.toNat ++ octets 4 (toTwos 32 e)) else d

/-- The class of a STATUS OK frame is counted (R170, R186, R187). -/
def countClass (d : Dev) (n : Fin 4) (cls : Nat) : Dev :=
  let d :=
    if cls = 1 then d.modCnt n (fun c => { c with edge := inc32 c.edge })
    else if cls = 2 then d.modCnt n (fun c => { c with outside := inc32 c.outside })
    else d
  let d := d.modWrp (fun w => { w with edges := ((cls != 0) :: w.edges).take 1024 })
  let k := (d.wrp.edges.filter id).length
  watch d evEdgeHigh 0 (decide (64 < k)) (decide (k ≤ 32)) []

/-! ## Link security -/

/-- What the checks of R315 say of a frame: refused, a generation that is not accepted, or the generation used. -/
inductive LinkCheck
  | refused
  | stale (s gen : Nat)
  | accepted (s gen : Nat)
  deriving DecidableEq, Repr

/-- The checks of R315 on a frame of node record `x`. -/
def linkCheck (d : Dev) (x : Node) (m : MacInfo) : LinkCheck :=
  match districtSkein? d m.district with
  | none => .refused
  | some s =>
    if m.district ≠ x.district ∨ m.secLevel < 5 ∨ 7 < m.secLevel then .refused
    else
      match keyGen? d s m.keyIndex with
      | some gen => .accepted s gen
      | none => .stale s (match kfind d.dst.skeins s with | some k => k.gen | none => 0)

/-- The latest generation up to GEN that a Key Index may mean (R315). -/
def genOf (gen : Nat) (index : BitVec 8) : Nat := gen - (gen % 255 + 256 - index.toNat) % 255

/-- A generation hint to node `i`, from its ack side and at most once in 60 s (R284): a datagram from and to port 47,601, under the
generation `used` that the node's frame used. -/
def sendHint (d : Dev) (i gen used : Nat) : Dev :=
  match d.node? i with
  | none => d
  | some x =>
    let recent : Bool := match x.hintAt with | some t => decide (d.glb.upNs < t + 60000000000) | none => false
    if recent ∨ ackSide d x = false then d
    else
      let d := d.modNode i (fun x => { x with hintAt := some d.glb.upNs })
      let data := octets 1 0x10 ++ octets 1 1 ++ octets 2 0 ++ octets 4 gen
      let r := packetRec d (.hint gen) (some i) (udpPacket (meshAddr d) (nodeAddr d x.eui) 47601 47601 64 data)
      submitRec d { r with gen := some used }

/-- The link key of node record `x` under generation `gen` of skein `s` is asked for (R301, R314, R316); none where the
invocation is refused. -/
def linkKey (d : Dev) (x : Node) (s gen : Nat) : Bool × Dev :=
  let (ok, d) := invoke d s masterLink useDerive
  if ok then (true, deriveKey d s x.eui gen) else (false, d)

/-- Link security of a frame of node `i` (R284, R315): the generation under which it passes. -/
def linkSecure (d : Dev) (i : Nat) (x : Node) (m : MacInfo) : Option Nat × Dev :=
  match linkCheck d x m with
  | .refused => (none, d)
  | .stale _ gen => (none, report (sendHint d i gen (genOf gen m.keyIndex)) evNodeStaleGen [])
  | .accepted s gen =>
    let (ok, d) := linkKey d x s gen
    if ok ∧ m.micOk then
      let d := d.modNode i (fun x => { x with fcIn := max x.fcIn m.fc })
      (some gen, if x.fcIn < m.fc then d.modWrp (fun w =>
        { w with fcNew := if w.fcNew.contains i then w.fcNew else w.fcNew ++ [i] }) else d)
    else (none, d)

/-! ## RX_FRAME_PROCESS -/

/-- An acknowledgement from a node (R157, R271): it counts where its frame start lies within TXACKDELAY ± ACKWAIT / 2 of
the end of this side's frame, or of the window as placed where this side sent none. -/
def takeAck (d : Dev) (i hash : Nat) (start : Int) : Dev :=
  let w := d.wrp
  let near (a : Await) : Bool :=
    match a.ended with
    | some te => decide (2 * (start - (te : Int) - (w.txAckDelay * 1000 : Nat)).natAbs ≤ w.ackWait * 1000)
    | none => decide (a.until_ - (w.ackWait * 1000 : Nat) ≤ start) && decide (start ≤ a.until_)
  let mine (a : Await) : Bool := a.r.hash == hash && a.r.dest == some i && near a
  match d.ply.awaiting.find? mine with
  | none => d
  | some a =>
    d.modPly (fun p =>
      { p with awaiting := p.awaiting.map (fun b => if mine b then { b with acked := true } else b),
               ackSeen := p.ackSeen ++ [(hash, a.until_)] })

/-- A late collision is told and counted, and a node whose frame was lost is corrected (R173). -/
def takeLate (d : Dev) (n : Fin 4) (x : Descriptor) (l : LateInfo) : Dev :=
  let frame (f : Nat × Int × Option Nat) : List Byte :=
    octets 8 f.1 ++ octets 2 (toTwos 16 f.2.1) ++ octets 4 (f.2.2.getD 0)
  let asn := (l.slot % (2 ^ 40 : Nat)).toNat
  let d := report d evLateCollide (octets 5 asn ++ octets 2 x.chan ++ (l.frames.map frame).flatten)
  let d := d.modCnt n (fun c => { c with late := add32 c.late 2 })
  match cellFor x.cells x.profile x.chan with
  | none => d
  | some c =>
    let e := frameError d x.profile x.ts x.slot (some c)
    match c.node with
    | some i => if d.wrp.sel * 900 < e.natAbs then correctNode d i e x.ts none else d
    | none => d

/-- A data frame with STATUS OK (R148, R165, R170 to R172, R279, R315); a DIO counts for Trickle (R169). -/
def takeData (d : Dev) (n : Fin 4) (x : Descriptor) (m : MacInfo) : Dev :=
  let cell := cellFor x.cells x.profile x.chan
  let e := frameError d x.profile x.ts x.slot cell
  let cls := frameClass d e cell.isSome
  let d := countClass d n cls
  match d.nodeByEui m.eui with
  | none => d
  | some (i, v) =>
    let d := driftRun (takeFoff d n i x.foff) i cls e
    match linkSecure d i v m with
    | (none, d) => d
    | (some gen, d) =>
      let d :=
        if m.ackReq ∧ cls < 2 then (if tcFits (timeCorrection e) ∨ acksNode d v = false then d else report d evTcRange [])
        else if 0 < cls then correctNode d i e x.ts gen
        else d
      if cls = 2 ∧ d.wrp.outsideAccept = false then d
      else
        match m.kind with
        | .dio => d.modWrp (fun w => { w with trickleHeard := w.trickleHeard ++ [d.whl.time] })
        | .data | .ack _ => ingressPacket (d.emit (.uplink m.packet)) .mesh m.packet

/-- The frame at the head of those taken in (R144, R170): one whose status is not OK goes no further, but for the late collision
it may have been part of; nor does one that is not of frame version 0b10 (R167). -/
def takeFrame (m : MacInfo) (d : Dev) : Dev :=
  match d.wrp.rxq with
  | [] => d
  | f :: rest =>
    let d := d.modWrp (fun w => { w with rxq := rest })
    let x := f.d
    if x.status ≠ 0 then
      (match x.late with | some l => takeLate d f.spn x l | none => d)
    else if (macHeader x.payload).version ≠ 2 then d
    else
      match m.kind with
      | .data | .dio => takeData d f.spn x m
      | .ack hash =>
        (match d.nodeByEui m.eui with
        | none => d
        | some (i, v) =>
          match linkSecure (takeFoff d f.spn i x.foff) i v m with
          | (some _, d) => takeAck d i hash (frameStart d x.profile x.ts)
          | (none, d) => d)

/-- RX_FRAME_PROCESS (R82, R170): the oldest received frame is taken in, out of BB00 + n where none has been read yet. -/
def doRxFrameProcess (m : MacInfo) (d : Dev) : Dev :=
  if d.phase.fwRuns = false then d
  else takeFrame m (if d.wrp.rxq.isEmpty then each spindles drainBobbin d else d)

def execRxFrameProcess (dt : Nat) (mac : MacInfo) (s : State) : Host.Outcome State Fault Refusal :=
  run dt (doRxFrameProcess mac) s

/-! ## CONFIRMs -/

/-- A CONFIRM has counted for node `i`. -/
def Launch.heard (l : Launch) (i : Nat) : Bool := l.armed.contains i || l.refused.contains i || l.extra.contains i

/-- A launch entry takes a CONFIRM from node `i` (R175, R179): of a member that was addressed, by its status; of any
other node as EXTRA. -/
def Launch.confirm (l : Launch) (i : Nat) (status : BitVec 8) : Launch :=
  if l.heard i then l
  else if l.members.contains i && !l.absent.contains i then
    (if status = 0 then { l with armed := l.armed ++ [i] } else { l with refused := l.refused ++ [i] })
  else { l with extra := l.extra ++ [i] }

/-- THROW_CONFIRM_RECEIVE (R179): one taken in after the launch instant, or with an unknown status, is discarded. -/
def doThrowConfirmReceive (i id : Nat) (status : BitVec 8) (d : Dev) : Dev :=
  if 2 < status.toNat then d
  else
    d.modWhl (fun w =>
      { w with launches := w.launches.map (fun l =>
          if l.throwId = id ∧ w.time ≤ l.at_ then l.confirm i status else l) })

def execThrowConfirmReceive (dt : Nat) (node : Nat) (throwId : Nat) (status : BitVec 8) (s : State) :
    Host.Outcome State Fault Refusal := runCpu dt (doThrowConfirmReceive node throwId status) s

end Sys2Proof.Machine
end

