-- ==== Sys2Proof/Machine/Schedule.lean ====
section
/-! DEFINITION. Service of cells (R163, R164), placement of records (R166, R177, R276 to R278), beacons (R168), the phases
of a tick (R82, R84) and the transmit latch (R83, R112, R120). -/

namespace Sys2Proof.Machine

/-! ## Settlement (R166, R278) -/

/-- Destination key of backoff and counters: a node's index, 131,072 for broadcast. -/
def destKey (dest : Option Nat) : Nat := dest.getD 131072

/-- The running thread waits for the delivery of the record: a NODE_REQ by its node and TAG (R219), an OBJ_SEND by the records it
still owes (R218). -/
def Thread.awaits (t : Thread) (d : Dev) (r : DownRec) : Bool :=
  let there : Bool := match r.dest with
    | some i => (match d.node? i with | some x => x.handle == t.msg.node | none => false)
    | none => false
  let mine : Bool := match r.kind, t.cmd with
    | .nodeReq tag, .nodeReq _ _ _ => t.msg.tag == tag
    | .objBlock _ _, .objSend _ _ _ => t.owes.contains r.hash
    | _, _ => false
  t.st == .running && there && mine

/-- The threads that wait for a record. -/
def awaiters (d : Dev) (r : DownRec) : List Nat := (d.ccp.threads.filter (fun p => p.2.awaits d r)).map (·.1)

/-- The datagram of record `r` for thread `th` has been acknowledged (R218, R219). -/
def threadDelivered (r : DownRec) (d : Dev) (th : Nat) : Dev :=
  match d.thread? th with
  | none => d
  | some t =>
    match t.cmd with
    | .nodeReq _ noReply _ => if noReply then finish d th .ok [] else d
    | .objSend _ _ _ =>
      let owes := t.owes.filter (· != r.hash)
      if owes.isEmpty then finish d th .ok [] else d.modThread th (fun t => { t with owes := owes })
    | _ => d

/-- The node has its NODE_REQ: one that asked for no reply is answered to the ply it came from (R293). -/
def relayDelivered (d : Dev) (r : DownRec) (st : Status) : Dev :=
  match r.kind, r.dest with
  | .nodeReq tag, some i =>
    let mine (x : Nat × Nat × Nat × Bool) : Bool := x.2.1 == i && x.2.2.1 == tag && (x.2.2.2 || st != .ok)
    let l := d.ply.relays.filter mine
    let h : BitVec 32 := match d.node? i with | some x => x.handle | none => 0
    each l (fun d x => loomSend d (.ply x.1) (.relayRes x.1 h tag st.num []))
      (d.modPly (fun p => { p with relays := p.relays.filter (fun x => !mine x) }))
  | _, _ => d

/-- A record has been acknowledged: a command that waited for it goes on. -/
def recDelivered (d : Dev) (r : DownRec) : Dev := relayDelivered (each (awaiters d r) (threadDelivered r) d) r .ok

/-- A record will not be delivered: a command that waited for it ends with NODE_FAIL (R166, R201), and the records that only it
still owed go with it. -/
def recFailed (d : Dev) (r : DownRec) : Dev :=
  let l := awaiters d r
  let owed (f : Nat → Bool) : List Nat := (d.ccp.threads.filter (fun p => f p.1)).flatMap (fun p => p.2.owes)
  let gone (x : DownRec) : Bool := (owed l.contains).contains x.hash && !(owed (fun th => !l.contains th)).contains x.hash
  let d := d.modPly (fun p => { p with recs := p.recs.filter (fun x => !gone x), waiting := p.waiting.filter (fun q => !gone q.1) })
  relayDelivered (each l (fun d th => finish d th .nodeFail []) d) r .nodeFail

/-- The backoff after the failure numbered `fails` in a shared cell (R166, R277; log 6): the exponent starts at macMinBe and rises
with each failure in a shared cell, to macMaxBe. -/
def backoffAfter (d : Dev) (dest : Option Nat) (fails : Nat) : Nat :=
  let be := min ((fMaxBe d.pra).get d.pra) (fMinBe.get d.pra + fails)
  Config.backoff d.whl.asn (destKey dest) % 2 ^ be

/-- A failure in a shared cell (R166). -/
def shFail (d : Dev) (dest : Option Nat) : Dev :=
  let fails := kgetD d.wrp.shFails (destKey dest) 0
  d.modWrp (fun w => { w with shFails := kput w.shFails (destKey dest) (fails + 1),
                              backoff := ksetD w.backoff (destKey dest) (backoffAfter d dest fails) 0 })

/-- A success resets the backoff to a destination (R166): in a shared cell, or where nothing more waits for the destination. -/
def shReset (d : Dev) (dest : Option Nat) (shared : Bool) : Dev :=
  if shared || !d.ply.recs.any (fun r => r.dest == dest) then
    d.modWrp (fun w => { w with shFails := kdel w.shFails (destKey dest), backoff := kdel w.backoff (destKey dest) })
  else d

/-- The partner's heartbeat of the last tick is missing, though it has not failed (R278). -/
def heartbeatMissing (d : Dev) : Bool := d.ply.role != .solo && !d.ply.pfail && !d.ply.lastTick

/-- One record is settled (R278): acknowledged on either side; retried, where retries are left; or dropped. A frame that was lost
here (R84, R112) is never sent by this side again: a side alone drops its record, a side of a ply keeps placing it as the
partner does, without sending. Without the partner's heartbeat the master settles alone and the destination is unsynced on
the other side. -/
def settleOne (d : Dev) (a : Await) : Dev :=
  let d := if heartbeatMissing d ∧ d.ply.master then oweCounters d a.r.dest else d
  if a.acked then recDelivered (shReset d a.r.dest a.shared) a.r
  else if heartbeatMissing d ∧ d.ply.master = false then unsync d a.r.dest
  else if (a.lost ∧ d.ply.role = .solo) ∨ fMaxRetries.get d.pra ≤ a.r.retries then recFailed d a.r
  else
    let r := { a.r with retries := a.r.retries + 1, mute := a.r.mute || a.lost }
    let d := if a.shared then shFail d r.dest else d
    d.modPly (fun p => { p with recs := insertRec r p.recs })

/-- Records whose ack window ended at least one tick before this schedule computation began, at `start` (R278). -/
def settleAll (d : Dev) (start : Nat) : Dev :=
  let due (a : Await) : Bool := decide (a.until_ + (d.whl.periodNs : Int) ≤ (start : Int))
  let l := d.ply.awaiting.filter due
  each l settleOne (d.modPly (fun p => { p with awaiting := p.awaiting.filter (fun a => !due a) }))

/-! ## Cells due (R158) -/

/-- TYPE codes of R159. -/
def typeTx : Nat := 0
def typeRx : Nat := 1
def typeShared : Nat := 2
def typeAdvertise : Nat := 3

/-- The cells of spindle `n` due in slot `k`, by slotframe and then index (R158, R163). -/
def dueCells (d : Dev) (n : Fin 4) (k : Int) : List CellRef :=
  let asn := (k % (2 ^ 40 : Nat)).toNat
  let w := d.wrp
  (List.range 8).flatMap (fun h =>
    let cfg := w.sfAt n h asn
    if sfEn cfg ∧ 0 < sfLen cfg then
      let hlen := w.hlen (sfHop cfg)
      (w.live.get n).filterMap (fun p =>
        let c := p.2
        if cellSf c = h ∧ cellSlot c = asn % sfLen cfg then
          some { slot := k, index := p.1, sf := h, span := cellSpan c, profile := cellProfile c,
                 chan := w.hop (sfHop cfg) ((asn + cellChoff c) % hlen),
                 node := if cellBcast c then none else some (cellNode c), type := cellType c }
        else none)
    else [])

/-- A cell entry as an enabled slotframe may give it, for the fit test of R166. -/
def cellRefOf (i : Nat) (c : Word × Word) : CellRef :=
  { slot := 0, index := i, sf := cellSf c, span := cellSpan c, profile := cellProfile c, chan := 0,
    node := if cellBcast c then none else some (cellNode c), type := cellType c }

/-- Airtime in ns of a frame of `len` octets and its FCS under profile `j`; none where the profile is not defined. -/
def airOf (d : Dev) (j len : Nat) : Option Nat := (d.region.profile? j).map (fun p => p.airNs (len + p.fcsLen))

/-- A frame of `len` octets without its FCS fits a cell (R166): its airtime, and its PSDU's greatest length (R130). -/
def fits (d : Dev) (c : CellRef) (len : Nat) : Bool :=
  match d.region.profile? c.profile, airOf d c.profile len with
  | some p, some a =>
    decide (len + p.fcsLen ≤ wavePsdu p.wave) && decide (d.wrp.txoff * 1000 + a + 500000 ≤ (c.span + 1) * d.whl.periodNs)
  | _, _ => false

/-- A cell in which the device may send records (R159, R163): not an RX cell. -/
def CellRef.sends (c : CellRef) : Bool := c.type != typeRx

/-- A cell that acts as a shared one (R159). -/
def CellRef.shared (c : CellRef) : Bool := c.type == typeShared || c.type == typeAdvertise

/-- The cell takes frames to node `i` (R166). -/
def CellRef.reaches (c : CellRef) (i : Nat) : Bool := c.sends && (c.node == none || c.node == some i)

/-! ## Frames ready (R163, R166, R168, R177) -/

/-- Transmit start in slot `k` (R157). -/
def Dev.slotTx (d : Dev) (k : Int) : Int := d.slotStart k + (d.wrp.txoff * 1000 : Nat)

/-- A held launch instant lies within 2 s after `t` (R168). -/
def launchNear (d : Dev) (t : Int) : Bool :=
  d.whl.launches.any (fun l => decide (t < (l.at_ : Int)) && decide ((l.at_ : Int) ≤ t + 2000000000))

/-- A beacon is due in a cell of slot `k` (R168). -/
def beaconDue (d : Dev) (n : Fin 4) (c : CellRef) (k : Int) : Bool :=
  let asn := (k % (2 ^ 40 : Nat)).toNat
  let len := sfLen (d.wrp.sfAt n c.sf asn)
  c.type == typeAdvertise && d.wrp.ebEn && d.ply.role.sends
    && (asn / len % fEbDiv.get d.pra == 0 || launchNear d (d.slotTx k))

/-- PSDU octets of the beacon of a cell in slot `k`, without its FCS (R168). -/
def beaconSize (d : Dev) (n : Fin 4) (c : CellRef) (k : Int) : Nat := (beaconFrame d n c.sf (k % (2 ^ 40 : Nat)).toNat).size

/-- A share ASN has come for slot `k` (R277). -/
def shareOk (r : DownRec) (k : Int) : Bool := match r.share with | some s => decide ((s : Int) ≤ k) | none => false

/-- A copy of spindle `n` falls due in slot `k` (R177, R185): fewer than REPEATS sent, LEAD_HOP of its admission after the one
before. -/
def copyDue (d : Dev) (n : Fin 4) (k : Int) (leadHop : Nat) (copies : Four Nat) (last : Four (Option Nat)) : Bool :=
  decide (copies.get n < fRepeats.get d.pra)
    && (match last.get n with
      | some t => decide ((t : Int) + (leadHop * 1000000 : Nat) ≤ d.slotStart k)
      | none => true)

/-- Every member addressed has confirmed (R177). -/
def Launch.allHeard (l : Launch) : Bool :=
  l.members.all (fun i => l.absent.contains i || l.armed.contains i || l.refused.contains i)

/-- The record that shares a THROW or CANCEL stands assigned for slot `k`; in SOLO admission stands for it (R276). -/
def assigned (d : Dev) (kind : RecKind) (k : Int) : Bool :=
  d.ply.role == .solo || (d.ply.recs.any (fun r => r.kind == kind && shareOk r k) && (d.ply.master || !d.ply.unsyncB))

/-- The records of a THROW and of a CANCEL (R176). -/
def throwRec (d : Dev) (id group at_ : Nat) (action : List Byte) : DownRec :=
  packetRec d (.throwMsg id) none (throwPacket d (throwMessage d id group at_ action))
def cancelRec (d : Dev) (id group : Nat) : DownRec :=
  packetRec d (.cancel id) none (throwPacket d (cancelMessage id group))

/-- A thread is not yet DONE and no fence holds it (R202). -/
def Dev.runs (d : Dev) (th : Nat) : Bool := match d.thread? th with | some t => t.st == .running | none => false

/-- The copies that fall due on spindle `n` in slot `k`: cancels first (R181), then throws that no fence holds (R209), before their
instant and while a member has not confirmed (R177), in order of admission. -/
def copiesDue (d : Dev) (n : Fin 4) (k : Int) : List DownRec :=
  let cancel (x : CancelRec) : Option DownRec :=
    if copyDue d n k x.leadHop x.copies x.lastCopy ∧ assigned d (.cancel x.throwId) k then
      some (cancelRec d x.throwId x.group) else none
  let throw_ (l : Launch) : Option DownRec :=
    if copyDue d n k l.leadHop l.copies l.lastCopy ∧ d.slotStart k < (l.at_ : Int) ∧ l.allHeard = false
        ∧ d.runs l.th ∧ assigned d (.throwMsg l.throwId) k then
      some (throwRec d l.throwId l.group l.at_ l.action) else none
  d.whl.cancels.filterMap cancel ++ d.whl.launches.filterMap throw_

/-- The first copy that may go in a broadcast cell of slot `k`. -/
def copyFor (d : Dev) (n : Fin 4) (c : CellRef) (k : Int) : Option DownRec :=
  (copiesDue d n k).find? (fun r => fits d c (recSize d r))

/-- A record may go in a cell of slot `k` on spindle `n` (R163, R166, R230, R276, R277). -/
def recFits (d : Dev) (n : Fin 4) (c : CellRef) (k : Int) (r : DownRec) : Bool :=
  match r.dest with
  | none => false
  | some i =>
    match d.node? i with
    | none => false
    | some x =>
      let timely : Bool := match r.kind, x.corr with
        | .correction _, some (_, t) => decide (d.slotTx k ≤ (t : Int))
        | .correction _, none => false
        | _, _ => true
      shareOk r k && pinned d x == n && c.reaches i && (d.ply.master || !x.unsynced) && x.lost.isNone && timely
        && !(c.shared && decide (0 < kgetD d.wrp.backoff i 0)) && fits d c (recSize d r)

/-- The DIO of a firing of the Trickle timer (R169). -/
def dioRec (d : Dev) : DownRec := packetRec d .dio none (dioPacket d none)

/-- The frame that a due cell would carry in slot `k` (R163, rule 3): a beacon, a THROW or CANCEL copy, a DIO, then
records in list order. -/
def frameFor (d : Dev) (n : Fin 4) (k : Int) (c : CellRef) : Option AirKind :=
  if c.sends = false then none
  else if beaconDue d n c k ∧ fits d c (beaconSize d n c k) then some .beacon
  else
    let dio := if c.node = none ∧ d.wrp.dioPend.get n ∧ d.ply.role.sends ∧ fits d c (recSize d (dioRec d)) then
      some (dioRec d) else none
    let copy := if c.node = none then copyFor d n c k else none
    ((copy <|> dio) <|> d.ply.recs.find? (recFits d n c k)).map .record

/-! ## The plan of a spindle (R163) -/

/-- What the schedule computation decides for a spindle: receive cells, the transmit cell with its frame and whether it
has a binding, drops, and a record placed without being sent here. -/
structure Plan where
  rx : List CellRef := []
  tx : Option (CellRef × AirKind) := none
  unbound : Bool := false
  drops : List Drop := []
  shadow : Option (CellRef × DownRec) := none
  deriving DecidableEq, Repr

/-- An enabled binding of the spindle serves the cell (R163, rule 5). -/
def Spn.bound (s : Spn) (c : CellRef) : Bool :=
  s.bindsEff.any (fun p => p.2.en && p.2.profile == c.profile && p.2.chan == c.chan)

/-- Roles in which records are placed (R266, R277). -/
def Role.places : Role → Bool
  | .paired | .sender | .solo | .silent => true
  | .hold | .spare => false

/-- A frame that this side places but does not send: its role is SILENT, it is a one-side frame of the other side (R266, R275), or
this side has lost it once (R84, R112). -/
def shadowed (d : Dev) (k : AirKind) : Bool :=
  !d.ply.role.sends || (match k with
    | .record r => r.mute || (r.oneSide && (match r.dest with
        | some i => (match d.node? i with | some x => !ackSide d x | none => false)
        | none => false))
    | .beacon | .ack _ _ => false)

/-- Cells of a spindle that does not transmit, by rules 4 and 5: those received, and those dropped. -/
def receivePlan (s : Spn) (cells : List CellRef) : List CellRef × List Drop :=
  (cells.filter (fun c => c.type != typeTx && s.bound c),
   cells.filterMap (fun c =>
     if s.bound c = false then some ⟨c, .unbound, c.type == typeTx⟩
     else if c.type = typeTx then some ⟨c, .idle, true⟩ else none))

/-- The spindle is kept from cells by its target, and counts none (R164). -/
def Spn.asleep (s : Spn) : Bool := s.eff != 2 && s.oos == .none

/-- The rules of R163 for spindle `n` in slot `k`. No frame is placed on a spindle whose effective target is not ACTIVE. -/
def planSpindle (d : Dev) (n : Fin 4) (k : Int) : Plan :=
  let s := d.spn.get n
  if k < 0 ∨ templateOk d = false then {}
  else
    let cells := dueCells d n k
    let may := d.ply.role.places && decide (2 ≤ d.glb.power) && !s.asleep
    let ready := if may then cells.filterMap (fun c => (frameFor d n k c).map (fun f => (c, f))) else []
    let holds (c : CellRef) : Bool := ready.any (fun q => q.1 == c)
    let conflict (c : CellRef) : Drop := ⟨c, .conflict, c.type == typeTx || holds c⟩
    let recv := receivePlan s cells
    let sending : Bool := s.nowPlan.isSome || (match s.tx with | some t => t.ended.isNone | none => false)
    if sending ∧ k ≤ s.txSpan then { drops := cells.map conflict }
    else if s.nowRx.any (fun c => decide (k ≤ c.slot + (c.span : Int))) then
      let un := recv.2.filter (fun x => x.cell.type != typeTx)
      { rx := recv.1, drops := (cells.filter (fun c => c.type == typeTx)).map (fun c => ⟨c, .conflict, true⟩) ++ un }
    else
      match ready with
      | [] => { rx := recv.1, drops := recv.2 }
      | (c, f) :: _ =>
        if shadowed d f then
          { rx := recv.1, drops := recv.2,
            shadow := match f with | .record r => some (c, r) | .beacon | .ack _ _ => none }
        else { tx := some (c, f), unbound := !s.bound c, drops := (cells.filter (fun x => !holds x)).map conflict }

/-! ## Placement (R277) -/

/-- The counters of a destination advance (R277). -/
def advance (d : Dev) (dest : Option Nat) : Dev :=
  match dest with
  | none => d.modWrp (fun w => { w with bcastDsn := (w.bcastDsn + 1) % 256, bcastFc := (w.bcastFc + 1) % 2 ^ 32 })
  | some i => d.modNode i (fun x => { x with dsn := (x.dsn + 1) % 256, fcOut := (x.fcOut + 1) % 2 ^ 32 })

/-- Frame counter of a destination. -/
def frameCounter (d : Dev) (dest : Option Nat) : Nat :=
  match dest with
  | none => d.wrp.bcastFc
  | some i => match d.node? i with | some x => x.fcOut | none => 0

/-- A copy of a THROW or CANCEL has been placed on spindle `n` in slot `k`. -/
def countCopy (d : Dev) (n : Fin 4) (k : Int) (r : DownRec) : Dev :=
  let t := (d.slotStart k).toNat
  match r.kind with
  | .throwMsg id =>
    d.modWhl (fun w => { w with launches := w.launches.map (fun l =>
      if l.throwId = id then
        { l with copies := l.copies.set n (l.copies.get n + 1), lastCopy := l.lastCopy.set n (some t) } else l) })
  | .cancel id =>
    d.modWhl (fun w => { w with cancels := w.cancels.map (fun l =>
      if l.throwId = id then
        { l with copies := l.copies.set n (l.copies.get n + 1), lastCopy := l.lastCopy.set n (some t) } else l) })
  | .dio => d.modWrp (fun w => { w with dioPend := w.dioPend.set n false })
  | .packet | .nodeReq _ | .objBlock _ _ | .correction _ | .hint _ | .dioUnicast | .daoAck => d

/-- The end of the ack window of a frame of `len` octets without its FCS placed in slot `k` (R157). -/
def ackEnd (d : Dev) (c : CellRef) (k : Int) (len : Nat) : Int :=
  d.slotTx k + (((airOf d c.profile len).getD 0 + d.wrp.txAckDelay * 1000 + d.wrp.ackWait * 500 : Nat) : Int)

/-- The link key of a record's frame is asked for, under the record's generation or the skein's (R301, R315). -/
def recKey (d : Dev) (r : DownRec) : Bool × Dev :=
  match r.dest.bind d.node? with
  | none => (true, d)
  | some x =>
    match districtSkein? d x.district with
    | some s => linkKey d x s (r.gen.getD (districtGen d x.district))
    | none => (false, d)

/-- A record with the DSN and frame counter that its destination has after this placement (R277). -/
def numbered (d : Dev) (r : DownRec) : DownRec :=
  let dsn := match r.dest with
    | none => d.wrp.bcastDsn
    | some i => match d.node? i with | some x => x.dsn | none => 0
  { r with dsn := dsn, fc := frameCounter d r.dest }

/-- A record is placed in a cell of slot `k` (R276, R277): its key is asked for, the counters advance, PDIGEST takes it,
and it awaits its acknowledgement where it asks for one. The record as sent is answered too; where its key is refused, its frame
cannot be secured and is lost. -/
def placeRec (d : Dev) (n : Fin 4) (k : Int) (c : CellRef) (r : DownRec) : Dev × DownRec :=
  let (ok, d) := recKey d r
  let d := countCopy (advance d r.dest) n k r
  let r := numbered d { r with mute := r.mute || !ok }
  let d := match r.kind, r.dest with
    | .correction _, some i => d.modNode i (fun x => { x with corr := none })
    | _, _ => d
  let mine := if r.kind = .dio then [] else [(destKey r.dest, r.fc)]
  (d.modPly (fun p =>
    { p with recs := if r.dest.isSome then p.recs.filter (fun x => x.hash != r.hash) else p.recs,
             awaiting := if r.ackReq then
                 p.awaiting ++ [{ r := r, until_ := ackEnd d c k (recSize d r), ended := none, lost := !ok,
                                  shared := c.shared, acked := false }]
               else p.awaiting,
             placed := p.placed ++ mine,
             pdigest := crc32c (((p.placed ++ mine).map (fun q => octets 4 q.1 ++ octets 4 q.2)).flatten) }), r)

/-- The cells of spindle `n` in slotframes enabled for slot `k`, as entries. -/
def openCells (d : Dev) (n : Fin 4) (k : Int) : List CellRef :=
  let asn := (k % (2 ^ 40 : Nat)).toNat
  (d.wrp.live.get n).filterMap (fun q =>
    let cfg := d.wrp.sfAt n (cellSf q.2) asn
    if sfEn cfg ∧ 0 < sfLen cfg then some (cellRefOf q.1 q.2) else none)

/-- The broadcast cells of spindle `n` in which copies and DIOs may go (R166, R177). -/
def bcastCells (d : Dev) (n : Fin 4) (k : Int) : List CellRef := (openCells d n k).filter (fun c => c.sends && c.node == none)

/-- A record for one node that fits no cell of any enabled slotframe to its destination, with the spindle that counts it (R166). -/
def noFit (d : Dev) (k : Int) (r : DownRec) : Option (Fin 4) :=
  match r.dest, r.kind with
  | some _, .correction _ => none
  | some i, _ =>
    (match d.node? i with
    | none => some 0
    | some x =>
      let n := pinned d x
      if (openCells d n k).any (fun c => c.reaches i && fits d c (recSize d r)) then none else some n)
  | none, _ => none

/-- A broadcast frame that fits none of the broadcast cells of spindle `n` is dropped and counted there (R166): a copy that falls
due, and a DIO. -/
def dropBcast (k : Int) (d : Dev) (n : Fin 4) : Dev :=
  let cells := bcastCells d n k
  let stuck (r : DownRec) : Bool := !cells.isEmpty && !cells.any (fun c => fits d c (recSize d r))
  let dio := if d.wrp.dioPend.get n then [dioRec d] else []
  each ((copiesDue d n k ++ dio).filter stuck) (fun d r =>
    (countCopy d n k r).modCnt n (fun c => { c with nofit := inc32 c.nofit })) d

/-- Frames that fit nowhere are dropped and counted (R166). -/
def dropNoFit (d : Dev) (k : Int) : Dev :=
  let d := each (d.ply.recs.filter (fun r => shareOk r k)) (fun d r =>
    match noFit d k r with
    | some n =>
      let d := d.modPly (fun p => { p with recs := p.recs.filter (fun x => x.hash != r.hash) })
      recFailed (d.modCnt n (fun c => { c with nofit := inc32 c.nofit })) r
    | none => d) d
  each spindles (dropBcast k) d

/-- Shared cells let pass count down the backoffs they could have ended (R166). -/
def passShared (d : Dev) (n : Fin 4) (k : Int) : Dev :=
  each ((dueCells d n k).filter (·.shared)) (fun d c =>
    d.modWrp (fun w =>
      let hit (p : Nat × Nat) : Bool := c.reaches p.1 && (match d.node? p.1 with | some x => pinned d x == n | none => false)
      { w with backoff := (w.backoff.map (fun p => if hit p then (p.1, p.2 - 1) else p)).filter (fun p => p.2 != 0) })) d

/-- PSDU octets of a frame without its FCS. -/
def airSize (d : Dev) (n : Fin 4) (c : CellRef) (k : Int) (f : AirKind) : Nat :=
  match f with
  | .record r => recSize d r
  | .beacon => beaconSize d n c k
  | .ack _ _ => 0

/-- The frame that a plan places is placed; what this side then sends in its transmit cell, none where its frame was lost. -/
def placePlan (d : Dev) (n : Fin 4) (k : Int) (pl : Plan) : Dev × Option (CellRef × AirKind) :=
  match pl.tx, pl.shadow with
  | some (c, .record r), _ =>
    let (d, r) := placeRec d n k c r
    (d, if r.mute then none else some (c, .record r))
  | some x, _ => (d, some x)
  | none, some (c, r) => ((placeRec d n k c r).1, none)
  | none, none => (d, none)

/-- The schedule of spindle `n` for slot `k` takes effect; `skip` discards its transmit cell (R84). A skipped cell is
counted once, at its deadline's miss. -/
def applyPlan (d : Dev) (n : Fin 4) (k : Int) (skip : Bool) : Dev :=
  let pl := planSpindle d n k
  let (d, tx) := placePlan d n k pl
  let d := if d.ply.role.places then passShared d n k else d
  let d := match tx with | some (_, f) => if skip then loseRecord d f else d | none => d
  let tx := if skip then none else tx
  let held (s : Spn) : Bool := match s.hold with
    | some h => (match h.until_ with | some t => decide (d.slotStart k < (t : Int)) | none => true)
    | none => decide (s.holdTail = k)
  let span : Option Int := tx.map (fun (c, f) =>
    let air := (airOf d c.profile (airSize d n c k f)).getD 0
    k + (((d.wrp.txoff * 1000 + air - 1) / d.whl.periodNs : Nat) : Int))
  d.modSpn n (fun s =>
    let s := { s with planSlot := k, planRx := pl.rx, planTx := tx, planDrops := pl.drops, planUnbound := pl.unbound,
                      planHeld := held s, txSpan := span.getD s.txSpan }
    if k = d.whl.tickK then { s with nowRx := s.nowRx ++ pl.rx, nowDrops := s.nowDrops ++ pl.drops, planSlot := -1 } else s)

/-- The master tells the counters of destinations whose lists have emptied (R277). -/
def tellCounters (d : Dev) : Dev :=
  if d.ply.master = false ∨ d.ply.partnered = false then d
  else
    let empty (dest : Option Nat) : Bool :=
      !(d.ply.recs.any (fun r => r.dest == dest)) && !(d.ply.awaiting.any (fun a => a.r.dest == dest))
    let owed := (d.wrp.nodes.filter (fun p => p.2.unsynced && empty (some p.1))).map (fun p => some p.1)
      ++ (if d.ply.unsyncB ∧ empty none then [none] else [])
    each owed (fun d dest =>
      match dest with
      | some i =>
        (match d.node? i with
        | some x => plySend (d.modNode i (fun x => { x with unsynced := false })) (.counters (some i) x.dsn x.fcOut)
        | none => d)
      | none =>
        plySend (d.modPly (fun p => { p with unsyncB := false })) (.counters none d.wrp.bcastDsn d.wrp.bcastFc)) d

/-- CANCEL copies of an entry are still owed by a spindle that has a broadcast cell (R177, R181). -/
def cancelOwed (d : Dev) (k : Int) (c : CancelRec) : Bool :=
  spindles.any (fun n => decide (c.copies.get n < fRepeats.get d.pra) && !(bcastCells d n k).isEmpty)

/-- The computation for slot `k`, which began at `start`: settlement, drops for want of room, then each spindle. -/
def schedule (d : Dev) (k : Int) (skip : Bool) (start : Nat) : Dev :=
  let d := settleAll d start
  let d := if d.ply.role.places then dropNoFit d k else d
  let d := d.modPly (fun p => { p with placed := [], pdigest := 0 })
  let d := each spindles (fun d n => applyPlan d n k skip) d
  tellCounters (d.modWhl (fun w => { w with cancels := w.cancels.filter (cancelOwed d k) }))

/-- Frames that a drain of R82 carries and that the firmware has not yet taken in: the ticks they are due in. -/
def framesDue (d : Dev) : List Int :=
  (d.wrp.rxq.filterMap (fun f => f.d.due)) ++ spindles.flatMap (fun n => (d.spn.get n).crossing.filterMap (fun e => e.due))

/-- DRAIN_COMPLETE (R82): the frames that ended before the tick have been taken in; schedule computation begins with the
cells as they stand (R161), and with the spindles of the partner that its latest heartbeat shows as not serving (R275). A drain left over from an earlier tick ends first. -/
def doDrainComplete (d : Dev) : Dev :=
  let w := d.whl
  if d.phase.fwRuns = false then d
  else
    match w.before.find? (fun b => !b.drained) with
    | some b =>
      if (framesDue d).all (fun i => i == w.tickK) then
        d.modWhl (fun w => { w with before := w.before.map (fun x =>
          if x = b then { x with drained := true, drainedAt := w.time, live := d.wrp.cells } else x) })
      else d
    | none =>
      if w.drained = false ∧ framesDue d = [] then
        ((d.modWhl (fun w => { w with drained := true, drainedAt := w.time })).modWrp (fun w => { w with live := w.cells })).modPly
          (fun p => { p with coverNext := coverNow d })
      else d

def execDrainComplete (dt : Nat) (s : State) : Host.Outcome State Fault Refusal := run dt doDrainComplete s

/-- SCHEDULE_COMPUTATION (R82, R84, R163): a computation left over from an earlier tick ends first, with the cells that it
began with (R161) and its transmit cells discarded. -/
def doScheduleComputation (d : Dev) : Dev :=
  if d.phase.fwRuns = false then d
  else
    match d.whl.before with
    | b :: rest =>
      if b.drained then
        let live := d.wrp.live
        let d := schedule (d.modWrp (fun w => { w with live := b.live })) (b.tick + 1) true b.drainedAt
        (d.modWrp (fun w => { w with live := live })).modWhl (fun w => { w with before := rest })
      else d
    | [] =>
      if d.whl.drained ∧ d.whl.scheduled = false then
        (schedule d (d.whl.tickK + 1) d.whl.txMissed d.whl.drainedAt).modWhl (fun w => { w with scheduled := true })
      else d

def execScheduleComputation (dt : Nat) (s : State) : Host.Outcome State Fault Refusal := run dt doScheduleComputation s

/-! ## Deadlines (R84, R85) -/

/-- The octet of a phase in TICK_OVERRUN (R84). -/
def TickPhase.num : TickPhase → Nat
  | .drain => 0
  | .sched => 1
  | .txprep => 2

/-- TICK_OVERRUN is reported, for the slot `k`, and counted (R84). -/
def overrun (d : Dev) (ph : TickPhase) (k : Int) : Dev :=
  let d := report d evTickOverrun (octets 1 (TickPhase.num ph) ++ octets 5 (k % (2 ^ 40 : Nat)).toNat)
  d.modWhl (fun w =>
    match ph with
    | .drain => { w with ovrDrain := sat 1023 (w.ovrDrain + 1) }
    | .sched => { w with ovrSched := sat 1023 (w.ovrSched + 1) }
    | .txprep => { w with ovrTxprep := sat 1023 (w.ovrTxprep + 1), prepMissed := true })

/-- Transmit cells are counted as skipped (R84). -/
def countSkipped (d : Dev) (k : Nat) : Dev := d.modWhl (fun w => { w with skipped := add32 w.skipped k })

/-- Transmit cells that slot `k` has with the cells `live`. Only a cell for which a frame would be chosen counts as one that is
skipped: the manual does not say whether a due transmit cell without a frame does (log 99). -/
def transmitCells (d : Dev) (live : Four (KMap (Word × Word))) (k : Int) : Nat :=
  let d := d.modWrp (fun w => { w with live := live })
  (spindles.filter (fun n => (planSpindle d n k).tx.isSome)).length

/-- Every transmit cell of the slot that the phases `b` prepare is skipped, once (R84, R85): their schedule computation has
not ended. -/
def skipSlot (d : Dev) (b : TickWork) : Dev :=
  if b.txMissed then d else countSkipped d (transmitCells d (if b.drained then b.live else d.wrp.cells) (b.tick + 1))

/-- What a miss of drain or schedule computation leaves of the phases: both skip the slot's transmit cells. -/
def TickWork.miss (b : TickWork) (drain : Bool) : TickWork :=
  { b with drainMissed := b.drainMissed || drain, schedMissed := b.schedMissed || !drain, txMissed := true }

/-- Drain or schedule computation of the phases `b` is unfinished at its deadline, and this was not reported yet (R84). -/
def TickWork.late (b : TickWork) (drain : Bool) (now : Nat) : Bool :=
  if drain then !b.drained && !b.drainMissed && decide (b.at_ + 1500000 ≤ now)
  else !b.scheduled && !b.schedMissed && decide (b.at_ + 2500000 ≤ now)

/-- A miss of drain or schedule computation (R84): of an earlier tick's phases first (R77), else of the present ones. -/
def missPhase (d : Dev) (drain : Bool) : Dev :=
  let w := d.whl
  let ph := if drain then TickPhase.drain else .sched
  match w.before.find? (fun b => b.late drain w.time) with
  | some b =>
    let d := skipSlot (overrun d ph (b.tick + 1)) b
    d.modWhl (fun w => { w with before := w.before.map (fun x => if x = b then x.miss drain else x) })
  | none =>
    let b := d.work
    if b.late drain w.time then
      let d := skipSlot (overrun d ph (b.tick + 1)) b
      let m := b.miss drain
      d.modWhl (fun w => { w with drainMissed := m.drainMissed, schedMissed := m.schedMissed, txMissed := m.txMissed })
    else d

/-- The transmit latch of slot `k` (R82). -/
def latchAt (d : Dev) (k : Int) : Int := d.slotTx k - 250000

/-- PHASE_DEADLINE_MISS (R84): where the phase is unfinished at its deadline. -/
def doPhaseDeadlineMiss (ph : TickPhase) (d : Dev) : Dev :=
  let w := d.whl
  if d.phase.fwRuns = false then d
  else
    match ph with
    | .drain => missPhase d true
    | .sched => missPhase d false
    | .txprep =>
      if w.prepMissed = false ∧ latchAt d w.tickK ≤ (w.time : Int) ∧ spindles.any (fun n => (d.spn.get n).nowPlan.isSome) then
        overrun d .txprep w.tickK
      else d

def execPhaseDeadlineMiss (dt : Nat) (ph : TickPhase) (s : State) : Host.Outcome State Fault Refusal :=
  run dt (doPhaseDeadlineMiss ph) s

/-! ## Lost cells (R164) -/

/-- What keeps a cell of the present slot of spindle `n` from being served, by its target, or by orders 1 to 3 of R164. -/
def lostCause (d : Dev) (s : Spn) : Option Lost :=
  if s.asleep then some .uncounted
  else
    match s.blocked with
    | some c => some c
    | none => if s.holdTail = d.whl.tickK then some .hold else none

/-- A cell without an enabled binding is counted and told (R164). -/
def countUnbound (d : Dev) (n : Fin 4) (c : CellRef) : Dev :=
  report (countLost d n .unbound 1) evCellUnbound
    (octets 1 n.val ++ octets 1 c.profile ++ octets 2 c.index ++ octets 2 c.chan ++ octets 5 (c.slot % (2 ^ 40 : Nat)).toNat)

/-- A drop of R163 is counted, under an earlier cause of R164 where one holds. A transmit cell without a frame counts under
orders 1 to 3 alone. -/
def countDrop (n : Fin 4) (cause : Option Lost) (d : Dev) (x : Drop) : Dev :=
  match cause, x.why with
  | some .inhibit, .idle => d
  | some l, _ => countLost d n l 1
  | none, .unbound => countUnbound d n x.cell
  | none, .conflict => countLost d n .conflict 1
  | none, .idle => d

/-- RECEIVE_WINDOW_START (R120, R164, R183): the receive cells that begin in this slot are served from here, or lost: for a cause
of R164, or because their binding is enabled no more. Those whose window starts in a hold are counted, and served once the hold
is released within the slot. -/
def doReceiveWindowStart (n : Fin 4) (d : Dev) : Dev :=
  let k := d.whl.tickK
  if (d.whl.time : Int) < d.slotTx k - (d.wrp.sel * 1000 : Nat) then d
  else
    let s := d.spn.get n
    let cause := lostCause d s
    let drops := s.nowDrops.filter (fun x => !x.atLatch)
    let fresh := s.nowRx.filter (fun c => c.slot == k)
    let old := s.nowRx.filter (fun c => c.slot != k)
    let d := d.modSpn n (fun s => { s with nowDrops := s.nowDrops.filter (·.atLatch) })
    let d := match cause with
      | some l =>
        (countLost d n l fresh.length).modSpn n (fun s =>
          { s with nowRx := old, heldRx := if s.held ∧ l = .hold then s.heldRx ++ fresh.filter s.bound else s.heldRx })
      | none =>
        each (fresh.filter (fun c => !s.bound c)) (fun d c => countUnbound d n c)
          (d.modSpn n (fun s => { s with nowRx := old ++ fresh.filter s.bound }))
    each drops (countDrop n cause) d

def execReceiveWindowStart (dt : Nat) (n : Fin 4) (s : State) : Host.Outcome State Fault Refusal :=
  run dt (doReceiveWindowStart n) s

/-- The transmit cell of the present slot is let go. -/
def clearCell (d : Dev) (n : Fin 4) : Dev := d.modSpn n (fun s => { s with nowPlan := none, nowTx := false, txSpan := -1 })

/-- The transmit cell of the present slot is given up: its frame is lost (R112). -/
def giveUp (d : Dev) (n : Fin 4) (k : AirKind) : Dev := loseRecord (clearCell d n) k

/-- The priority wire is raised for a frame (R108). -/
def airPri (c : CellRef) (k : AirKind) : Bool :=
  c.type == typeAdvertise || (match k with
    | .ack _ _ => true
    | .beacon => true
    | .record r => (match r.kind with | .throwMsg _ => true | _ => false))

/-- What keeps the transmit cell of the present slot from its latch, by orders 1 to 4 of R164. -/
def latchCause (d : Dev) (s : Spn) : Option Lost :=
  (lostCause d s) <|> (if s.nowHeld then some Lost.hold else none) <|> (if s.inhibited then some Lost.inhibit else none)

/-- TRANSMIT_LATCH (R28, R82 to R84, R104, R112, R120, R164, R183, R266): the frame of the slot's transmit cell is taken over by the
spindle, or its cell is lost; a side whose role transmits nothing lets it go. A frame is not whole in the transmit chain while
the bobbin that carries it is full. -/
def doTransmitLatch (n : Fin 4) (whole : Bool) (d : Dev) : Dev :=
  let k := d.whl.tickK
  if (d.whl.time : Int) < latchAt d k then d
  else
    let s := d.spn.get n
    let cause := latchCause d s
    let d := each (s.nowDrops.filter (·.atLatch)) (countDrop n cause) d
    let d := d.modSpn n (fun s => { s with nowDrops := s.nowDrops.filter (fun x => !x.atLatch) })
    match s.nowPlan with
    | none => d
    | some (c, f) =>
      if d.ply.role.sends = false then clearCell d n
      else if whole = false ∨ (d.bob.get (4 + n.val)).full (4 + n.val) then
        let d := if d.whl.prepMissed then d else overrun d .txprep k
        countSkipped (giveUp d n f) 1
      else if d.glb.power ≠ 3 ∨ s.tx.isSome then giveUp d n f
      else
        match cause with
        | some l => countLost (giveUp d n f) n l 1
        | none =>
          if s.nowUnbound ∨ s.bound c = false then countUnbound (giveUp d n f) n c
          else
            beginTx (d.modSpn n (fun s => { s with nowPlan := none })) n
              { kind := f, cell := some c, profile := c.profile, chan := c.chan, ts := (d.slotTx k).toNat,
                pri := airPri c f, df := 0 }

def execTransmitLatch (dt : Nat) (n : Fin 4) (whole : Bool) (s : State) : Host.Outcome State Fault Refusal :=
  run dt (doTransmitLatch n whole) s

end Sys2Proof.Machine
end

