-- ==== Sys2Proof/Machine/Rpl.lean ====
section
/-! DEFINITION. The RPL root and the node table (R169, R265, R282, R292): DIO, DIS, DAO, joins, leaves and releases. -/

namespace Sys2Proof.Machine

/-- Node indices (R169). -/
def nodeIndices : Nat := 131072

/-- A mesh node's handle (R3). -/
def handleOf (ply index : Nat) : BitVec 32 := BitVec.ofNat 32 (ply * 2 ^ 18 + index)

/-- The home ply that a handle names (R3, R292). -/
def handlePly (h : BitVec 32) : Nat := fld h 25 18

/-- The RPL root runs: enabled, with nodes heard (R169, R266). -/
def rplRuns (d : Dev) : Bool := d.wrp.rplEn && d.phase == .up && d.ply.role != .hold

/-! ## DIO -/

/-- Fewer consistent DIOs than the redundancy constant have been heard in the Trickle interval; 0 sets no limit (R169, R185). -/
def dioWanted (d : Dev) : Bool :=
  let k := fDioRedundancy.get d.pra
  k == 0 || decide ((d.wrp.trickleHeard.filter (fun t => decide (d.wrp.trickleFrom ≤ t))).length < k)

/-- DIO_TRICKLE_TIMER (R169): Trickle per RFC 6206, in device time. At a firing every spindle owes a DIO in a broadcast cell, unless
enough have been heard; the next interval is twice as long, to the greatest. -/
def doDioTrickleTimer (d : Dev) : Dev :=
  let w := d.wrp
  if rplRuns d = false ∨ d.ply.role.sends = false then d
  else if w.trickleI = 0 then armTrickle d d.whl.time (trickleMin d)
  else if w.trickleAt ≤ d.whl.time then
    let d := if dioWanted d then d.modWrp (fun w => { w with dioPend := Four.all true }) else d
    armTrickle d (w.trickleFrom + w.trickleI * 1000000) (min (2 * w.trickleI) (trickleMin d * 2 ^ fDioDoublings.get d.pra))
  else d

def execDioTrickleTimer (dt : Nat) (s : State) : Host.Outcome State Fault Refusal := run dt doDioTrickleTimer s

/-- DIS_RECEIVE (R169): answered by a unicast DIO. -/
def doDisReceive (i : Nat) (d : Dev) : Dev :=
  match d.node? i with
  | some x => if rplRuns d then submitRec d (packetRec d .dioUnicast (some i) (dioPacket d (some x.eui))) else d
  | none => d

def execDisReceive (dt : Nat) (node : Nat) (s : State) : Host.Outcome State Fault Refusal := runCpu dt (doDisReceive node) s

/-! ## Leaves and releases -/

/-- The serving ply tells a visitor's home ply (R292), and VISITOR is reported. -/
def tellWhere (d : Dev) (x : Node) (serving : Nat) : Dev :=
  if x.visitor then loomSend d (.ply x.home) (.whereMsg x.home x.handle serving) else d

/-- An entry of the node table goes (R282): records to the node end with it. -/
def removeNode (d : Dev) (i : Nat) : Dev :=
  let l := d.ply.recs.filter (fun r => r.dest == some i)
  let d := each l recFailed d
  let d := d.modPly (fun p => { p with recs := p.recs.filter (fun r => r.dest != some i),
                                       awaiting := p.awaiting.filter (fun a => a.r.dest != some i) })
  d.modWrp (fun w => { w with nodes := kdel w.nodes i, backoff := kdel w.backoff i, shFails := kdel w.shFails i })

/-- The master releases an index (R282). -/
def releaseNode (d : Dev) (i : Nat) : Dev := streamDelta (removeNode d i) (.release i)

/-- A node is dormant from now (R282). -/
def sleepNode (d : Dev) (i : Nat) : Dev :=
  d.modNode i (fun x =>
    { x with path := none, mirrored := false, dormantSince := if x.dormantSince.isSome then x.dormantSince else some d.glb.upNs })

/-- Node `i` stops being present (R169, R282): its index is dormant, as the master streams. -/
def leaveNode (d : Dev) (i : Nat) : Dev :=
  match d.node? i with
  | none => d
  | some x =>
    if x.dormantSince.isSome then d
    else if d.ply.master then
      let d := streamDelta (sleepNode d i) (.leave i)
      if x.visitor then report (tellWhere d x 0) evVisitor [] else d
    else d.modNode i (fun x => { x with path := none })

/-- DAO_PATH_LAPSE (R169). -/
def doDaoPathLapse (i : Nat) (d : Dev) : Dev :=
  match d.node? i with
  | none => d
  | some x =>
    match x.path with
    | some t => if t ≤ d.glb.upNs then leaveNode d i else d
    | none => d

def execDaoPathLapse (dt : Nat) (node : Nat) (s : State) : Host.Outcome State Fault Refusal := run dt (doDaoPathLapse node) s

/-- DORMANT in ns (R295). -/
def dormantNs (d : Dev) : Nat := fDormant.get d.pra * 86400000000000

/-- DORMANT_EXPIRE (R282). -/
def doDormantExpire (i : Nat) (d : Dev) : Dev :=
  match d.node? i with
  | none => d
  | some x =>
    match x.dormantSince with
    | some t => if d.ply.master ∧ t + dormantNs d ≤ d.glb.upNs then releaseNode d i else d
    | none => d

def execDormantExpire (dt : Nat) (node : Nat) (s : State) : Host.Outcome State Fault Refusal := run dt (doDormantExpire node) s

/-! ## Joins -/

/-- Node `i` has a path of a DAO (R169); on the master it counts from now on in place of the earlier master's word. -/
def setPath (d : Dev) (i : Nat) (p : DaoPath) : Dev :=
  d.modNode i (fun x =>
    { x with depth := p.route, path := some (d.glb.upNs + p.lifetime * 1000000000), band := p.band, district := p.district,
             mirrored := x.mirrored && !d.ply.master })

/-- A DAO-ACK is always sent (R169): it carries the DAOSequence. -/
def sendDaoAck (d : Dev) (i : Nat) (seq : BitVec 8) : Dev :=
  match d.node? i with
  | some x => submitRec d (packetRec d .daoAck (some i) (daoAckPacket d x.eui seq))
  | none => d

/-- What the partner needs of a join. -/
def DaoPath.noderoute (p : DaoPath) : NodeRoute := { depth := p.route, band := p.band, district := p.district }
def Node.noderoute (x : Node) : NodeRoute := { depth := x.depth, band := x.band, district := x.district }

/-- The dormant index of the oldest leave (R282). -/
def oldestDormant (d : Dev) : Option Nat :=
  (d.wrp.nodes.foldl (fun (m : Option (Nat × Nat)) p =>
    match p.2.dormantSince, m with
    | none, m => m
    | some t, none => some (p.1, t)
    | some t, some (j, u) => if t < u then some (p.1, t) else some (j, u)) none).map (·.1)

/-- The index that a join takes: the lowest free one, or the dormant index of the oldest leave, which is released first
(R282); none where every index is taken. -/
def takeIndex (d : Dev) : Option Nat × Dev :=
  let i := firstFree 0 d.wrp.nodes
  if i < nodeIndices then (some i, d)
  else
    match oldestDormant d with
    | some j => (some j, releaseNode d j)
    | none => (none, d)

/-- The master admits a join (R169, R282, R292): under `h` and its home ply where the node is a visitor. -/
def joinNode (d : Dev) (eui : BitVec 64) (p : DaoPath) (visiting : Option (BitVec 32)) : Dev :=
  match takeIndex d with
  | (none, d) => report d evNodeTableFull (octets 8 eui.toNat)
  | (some i, d) =>
    let h := visiting.getD (handleOf d.ply.ply i)
    let home := if visiting.isSome then handlePly h else d.ply.ply
    let x : Node := { eui := eui, handle := h, home := home, visitor := visiting.isSome,
                      whereAt := d.glb.upNs + 600000000000 }
    let d := setPath (d.modWrp (fun w => { w with nodes := kput w.nodes i x })) i p
    let d := streamDelta d (.join i eui h home p.noderoute)
    let d := if x.visitor then report (tellWhere d x d.ply.ply) evVisitor [] else d
    sendDaoAck d i p.seq

/-- A DAO without lifetime of a node that the master does not know (R169): the node holds a path no longer than none, so that its
index is dormant at once, and its DAO-ACK is sent; not where every index is taken (log 112). -/
def ackLeaver (d : Dev) (eui : BitVec 64) (p : DaoPath) : Dev :=
  let i := firstFree 0 d.wrp.nodes
  if d.ply.master = false ∨ nodeIndices ≤ i then d
  else
    let h := handleOf d.ply.ply i
    let x : Node := { eui := eui, handle := h, home := d.ply.ply, depth := p.route, band := p.band, district := p.district }
    let d := streamDelta (d.modWrp (fun w => { w with nodes := kput w.nodes i x })) (.join i eui h d.ply.ply p.noderoute)
    sendDaoAck (streamDelta (sleepNode d i) (.leave i)) i p.seq

/-- A join that waits is taken off the list. -/
def dropVisit (d : Dev) (eui : BitVec 64) : Dev :=
  d.modWrp (fun w => { w with visits := w.visits.filter (fun v => v.eui != eui) })

/-- A DAO of a node in the table (R169, R282): a dormant node joins again under its old index; one that was away is back. -/
def renewNode (d : Dev) (i : Nat) (x : Node) (p : DaoPath) : Dev :=
  if p.lifetime = 0 then sendDaoAck (leaveNode d i) i p.seq
  else
    let d := setPath d i p
    let d :=
      if x.away.isSome then report (d.modNode i (fun x => { x with away := none })) evVisitor [] else d
    let d :=
      if x.dormantSince.isSome ∧ d.ply.master then
        let d := streamDelta (d.modNode i (fun x => { x with dormantSince := none })) (.join i x.eui x.handle x.home p.noderoute)
        if x.visitor then report (tellWhere d x d.ply.ply) evVisitor [] else d
      else d
    sendDaoAck d i p.seq

/-- DAO_RECEIVE (R169, R282, R292, R361): a node whose context is lost is not heard; a node that is new waits for the loom's answer
to VISIT_Q; on the side that is not master its path waits for the master's DELTA. -/
def doDaoReceive (eui : BitVec 64) (p : DaoPath) (d : Dev) : Dev :=
  if rplRuns d = false then d
  else
    match d.nodeByEui eui with
    | some (i, x) => if x.lost.isSome then d else renewNode d i x p
    | none =>
      if p.lifetime = 0 then ackLeaver d eui p
      else if d.ply.master ∧ nodeIndices ≤ firstFree 0 d.wrp.nodes ∧ (oldestDormant d).isNone then
        report d evNodeTableFull (octets 8 eui.toNat)
      else
        let known := d.wrp.visits.find? (fun v => v.eui == eui)
        let since := match known with | some v => v.since | none => d.glb.upNs
        let d := (dropVisit d eui).modWrp (fun w => { w with visits := w.visits ++ [{ eui := eui, path := p, since := since }] })
        if d.ply.master ∧ known.isNone then loomSend d .group (.visitQ eui) else d

def execDaoReceive (dt : Nat) (eui : BitVec 64) (route : Nat) (lifetime : Nat) (band : Bool) (district : BitVec 16)
    (seq : BitVec 8) (s : State) : Host.Outcome State Fault Refusal :=
  runCpu dt (doDaoReceive eui { route := route, lifetime := lifetime, band := band, district := district, seq := seq }) s

end Sys2Proof.Machine
end

