-- ==== Sys2Proof/Machine/PlyTick.lean ====
section
/-! DEFINITION. What the ply does at each tick strobe: heartbeat misses (R272), alignment (R273), the digest of checked items
(R281), READY (R283), and the changes of role (R267, R274). -/

namespace Sys2Proof.Machine

/-! ## Checked items -/

/-- A policy entry as R210 lays it out; an entry not listed reads 0. -/
def policyOctets (p : Policy) : List Byte :=
  octets 1 (128 * b2n p.valid + 64 * b2n p.dev) ++ octets 1 p.ply ++ octets 2 p.idmask.toNat ++ octets 4 p.lo ++ octets 4 p.hi
    ++ octets 2 p.classes.toNat ++ octets 2 0

/-- MDIGEST (R281): CRC-32C over the warp, the policy table, the policy epoch and the key generations, as in force for slot `asn`.
The manual names the items and no layout: each is its key and its value, in rising order. -/
def mdigest (d : Dev) (asn : Nat) : BitVec 32 :=
  let w := d.wrp
  let sfs := (List.range 32).filterMap (fun i =>
    match spindle? (i / 8) with
    | some n => some (octets 4 (w.sfAt n (i % 8) asn).toNat)
    | none => none)
  let cells := spindles.map (fun n =>
    ((w.live.get n).map (fun c => octets 1 n.val ++ octets 2 c.1 ++ octets 4 c.2.1.toNat ++ octets 4 c.2.2.toNat)).flatten)
  let policy := d.ccp.policy.map (fun p => octets 2 p.1 ++ policyOctets p.2)
  let gens := (d.dst.skeins.filter (·.2.isDistrict)).map (fun s => octets 1 s.1 ++ octets 4 s.2.gen)
  crc32c (octets 4 (wrpCtrl w).toNat ++ octets 2 w.txoff ++ octets 2 w.sel ++ octets 2 w.txAckDelay ++ octets 2 w.ackWait ++ sfs.flatten ++ cells.flatten
    ++ (w.hops.map (fun h => octets 2 h.1 ++ octets 2 h.2)).flatten
    ++ (w.hlens.map (fun h => octets 1 h.1 ++ octets 1 h.2)).flatten
    ++ policy.flatten ++ octets 2 d.ccp.epoch ++ gens.flatten)

/-- The ASN after another. -/
def nextAsn (asn : Nat) : Nat := (asn + 1) % 2 ^ 40

/-- The partner's MDIGEST, as last heard, is this side's for the same slot (R281). -/
def digestsEqual (d : Dev) : Bool := match d.ply.last with | some h => h.mdigest == mdigest d (nextAsn h.asn) | none => false

/-! ## Boundaries and the partner -/

/-- LEN_REF (R267). -/
def lenRef (d : Dev) (asn : Nat) : Nat := let l := sfLen (d.wrp.sfAt 0 0 asn); if l = 0 then 100 else l

/-- Tick `k` is a ply boundary (R267). -/
def plyBoundary (d : Dev) (k : Int) : Bool :=
  let asn := (k % (2 ^ 40 : Nat)).toNat
  asn % lenRef d asn == 0

/-- A boundary allowed from tick `from_` has come. -/
def boundaryDue (d : Dev) (from_ : Option Int) (k : Int) : Bool :=
  match from_ with | some f => decide (f ≤ k) && plyBoundary d k | none => false

/-- The partner is gone: declared failed, or its role is HOLD (R267). -/
def partnerGone (d : Dev) : Bool := d.ply.pfail || d.ply.prole == some Role.hold

/-- The partner's power state as its last heartbeat shows it, where it has not failed. -/
def partnerPower (d : Dev) : Option Nat :=
  if d.ply.pfail then none else d.ply.last.map (fun h => h.power.toNat)

/-! ## Misses (R272) -/

/-- The partner is declared failed (R272, R294): once. -/
def declareFailed (d : Dev) : Dev :=
  if d.ply.pfail then d
  else report (d.modPly (fun p => { p with pfail := true, joinAt := none })) evPartnerFailed []

/-- The miss counts at a strobe (R272); slots whose digests could not be compared are not consecutive (R277). -/
def countMisses (d : Dev) : Dev :=
  let d := d.modPly (fun p =>
    { p with missA := if p.heardA then 0 else sat 255 (p.missA + 1), missB := if p.heardB then 0 else sat 255 (p.missB + 1),
             lastTick := p.heardA || p.heardB, heardA := false, heardB := false,
             pdiverge := if p.heardA || p.heardB then p.pdiverge else 0, pdests := if p.heardA || p.heardB then p.pdests else [] })
  let a := decide (8 ≤ d.ply.missA)
  let b := decide (8 ≤ d.ply.missB)
  watchIf (if a && b then declareFailed d else d) evPathLoss (xor a b)

/-! ## Alignment (R273) -/

/-- The least-squares slope of offsets over time, in 0.001 ppm; 0 for fewer than two. -/
def slope (l : List (Nat × Int)) : Int :=
  match l with
  | [] => 0
  | (t0, _) :: _ =>
    let n : Int := l.length
    let x (p : Nat × Int) : Int := (p.1 : Int) - (t0 : Int)
    let sx := (l.map x).foldl (· + ·) 0
    let sy := (l.map (·.2)).foldl (· + ·) 0
    let sxy := (l.map (fun p => x p * p.2)).foldl (· + ·) 0
    let sxx := (l.map (fun p => x p * x p)).foldl (· + ·) 0
    let den := n * sxx - sx * sx
    if den = 0 then 0 else (n * sxy - sx * sy) * 1000000000 / den

/-- The PTP parent of the active source, 0 when not on PTP (R271). -/
def ptpParent (d : Dev) : Nat :=
  match d.whl.src with
  | .ptp0 => (match d.whl.ptp0.parent with | some a => a.clockId | none => 0)
  | .ptp1 => (match d.whl.ptp1.parent with | some a => a.clockId | none => 0)
  | .none | .pps | .holdTcxo | .holdRef | .holdBhref => 0

/-- This tick lies within the limits of R273. -/
def withinLimits (d : Dev) : Bool :=
  match d.ply.offsets with
  | (_, o) :: _ =>
    if d.ply.missA < 8 then decide (o.natAbs ≤ 800) && decide (d.ply.rate.natAbs ≤ 60)
    else false
  | [] =>
    match d.ply.last with
    | some h =>
      !d.ply.pfail && d.whl.state == .locked && ptpParent d != 0 && h.whorl.toNat / 16 == 2
        && (h.whorl.toNat % 16 == 1 || h.whorl.toNat % 16 == 2) && h.parent == ptpParent d
    | none => false

/-- Alignment at a strobe (R273): lost after two ticks out of limits, regained after 128 within. -/
def alignTick (d : Dev) : Dev :=
  let d := d.modPly (fun p => if 8 ≤ p.missA then { p with offsets := [] } else p)
  let d := d.modPly (fun p => { p with rate := if p.offsets.isEmpty then 0 else slope p.offsets })
  let ok := withinLimits d
  let d := d.modPly (fun p =>
    let p := { p with good := if ok then sat 65535 (p.good + 1) else 0, bad := if ok then 0 else sat 65535 (p.bad + 1) }
    if p.aligned = false ∧ 128 ≤ p.good then { p with aligned := true, alignLost := false }
    else if p.aligned ∧ 2 ≤ p.bad then { p with aligned := false, alignLost := true }
    else p)
  watchIf d evAlignLoss d.ply.alignLost

/-- MDIGEST has differed for DIVERGE_GRACE ticks (R281). -/
def divergeTick (d : Dev) : Dev :=
  if d.ply.lastTick = false then d
  else if digestsEqual d then d.modPly (fun p => { p with diverge := 0 })
  else
    let d := d.modPly (fun p => { p with diverge := p.diverge + 1, divergeCnt := inc32 p.divergeCnt })
    if d.ply.diverge = fDivergeGrace.get d.pra then report d evMirrorDiverge [] else d

/-! ## READY (R283) -/

/-- Roles of a master that a SPARE may join (R283). -/
def Role.joinable : Role → Bool
  | .solo | .sender | .paired | .silent => true
  | .hold | .spare => false

/-- The conditions of R283. -/
def readyNow (d : Dev) : Bool :=
  let p := d.ply
  p.role == .spare && p.partnered && !p.pfail && p.snapped && p.mepoch == p.pmepoch && digestsEqual d
    && spindles.all (fun n => let s := d.spn.get n; s.target != 2 || s.serves) && p.aligned && decide (128 ≤ p.good)
    && (match p.last, p.prole with | some h, some r => h.master && r.joinable | _, _ => false)

/-- READY at tick `k`, with the boundary it allows from: two ticks after. -/
def readyTick (d : Dev) (k : Int) : Dev :=
  let r := readyNow d
  d.modPly (fun p => { p with ready := r, readyTick := if r then (p.readyTick <|> some k) else none })

/-- A SPARE that hears a master asks for its snapshot once (R283). -/
def askSnapshot (d : Dev) : Dev :=
  let p := d.ply
  let heard : Bool := match p.last with | some h => h.master && !p.pfail | none => false
  if p.role = .spare ∧ p.partnered ∧ heard ∧ p.snapping = false ∧ p.snapped = false then
    plySend (d.modPly (fun p => { p with snapping := true, snapParts := 0 })) (.snapReq none)
  else d

/-! ## Election (R274) -/

/-- A single sender is called for. -/
def singleSender (d : Dev) : Bool :=
  d.ply.force != 0 || !d.ply.aligned || decide (fDivergeGrace.get d.pra ≤ d.ply.diverge)

/-- Rank of a whorl by its state's number and HOLD_LIMIT, lower first (log 43). -/
def whorlRank (state : Nat) (limit : Bool) : Nat :=
  match state with
  | 2 => 0
  | 3 => if limit then 2 else 1
  | 1 => 3
  | _ => 4

/-- HOLD_LIMIT of WHL_STATUS (R90). -/
def holdLimited (d : Dev) : Bool := d.evt.live evHoldoverLimit

/-- This side is the sender that R274 elects. -/
def elected (d : Dev) : Bool :=
  if d.ply.force = 1 then !d.ply.side
  else if d.ply.force = 2 then d.ply.side
  else
    let own := whorlRank d.whl.state.num (holdLimited d)
    let par := match d.ply.last with | some h => whorlRank (h.whorl.toNat / 16) h.limit | none => 4
    if own = par then d.ply.master else decide (own < par)

/-! ## Roles (R267) -/

/-- Changes of a SPARE at tick `k`. -/
def spareTick (d : Dev) (k : Int) : Dev :=
  let run := d.glb.power == 3
  let both := d.ply.partnered && !d.ply.pfail && d.ply.prole == some Role.spare
  let d := d.modPly (fun p => { p with bothSpare := if both then p.bothSpare + 1 else 0 })
  if d.ply.partnered = false ∨ partnerGone d ∨ (8 ≤ d.ply.bothSpare ∧ d.ply.side = false) then
    setRole d (if run then .solo else .silent) true
  else
    let d := readyTick (askSnapshot d) k
    if d.ply.ready ∧ boundaryDue d (d.ply.readyTick.map (· + 2)) k then
      let alone := d.ply.prole == some Role.silent && partnerPower d == some 2
      setRole d (if run then (if alone then .sender else .paired) else .silent) false
    else d

/-- Changes of a PAIRED side. -/
def pairedTick (d : Dev) (k : Int) : Dev :=
  if d.glb.power = 2 then setRole d .silent (d.ply.master || partnerGone d)
  else if partnerGone d then setRole d .solo true
  else if partnerPower d = some 2 then setRole d .sender d.ply.master
  else if singleSender d then
    let from_ := d.ply.electAt <|> some (if d.ply.force = 0 then k + 2 else k + 1)
    let d := d.modPly (fun p => { p with electAt := from_ })
    if boundaryDue d from_ k then setRole d (if elected d then .sender else .silent) d.ply.master else d
  else d.modPly (fun p => { p with electAt := none })

/-- Both sides may pair again (R267). -/
def mayPair (d : Dev) (k : Int) : Bool :=
  plyBoundary d k && !singleSender d && d.ply.diverge == 0 && d.glb.power == 3 && partnerPower d == some 3

/-- Changes of a SENDER. -/
def senderTick (d : Dev) (k : Int) : Dev :=
  if d.glb.power = 2 then setRole d .silent (d.ply.master || partnerGone d)
  else if partnerGone d then setRole d .solo true
  else if mayPair d k then setRole d .paired d.ply.master
  else d

/-- Changes of a SILENT side. -/
def silentTick (d : Dev) (k : Int) : Dev :=
  let alone := d.ply.partnered == false || partnerGone d
  if d.glb.power = 3 ∧ alone then setRole d .solo true
  else if d.glb.power = 2 ∧ d.ply.partnered ∧ partnerGone d ∧ d.ply.master = false then setRole d .silent true
  else if d.glb.power = 3 ∧ d.ply.prole = some Role.silent ∧ partnerPower d = some 2 ∧ plyBoundary d k then
    setRole d .sender d.ply.master
  else if d.ply.partnered ∧ mayPair d k then setRole d .paired d.ply.master
  else d

/-- Changes of a SOLO side. -/
def soloTick (d : Dev) (k : Int) : Dev :=
  if d.glb.power = 2 then setRole d .silent true
  else if d.ply.pfail = false ∧ boundaryDue d d.ply.joinAt k then
    setRole d (if partnerPower d = some 2 then .sender else .paired) true
  else d

/-- The role at tick `k`. -/
def roleTick (d : Dev) (k : Int) : Dev :=
  match d.ply.role with
  | .hold => d
  | .spare => spareTick d k
  | .paired => pairedTick d k
  | .sender => senderTick d k
  | .silent => silentTick d k
  | .solo => soloTick d k

/-- Incoming counters that have risen go out once per tick (R280). -/
def tellCountersIn (d : Dev) : Dev :=
  let l := d.wrp.fcNew
  each l (fun d i => match d.node? i with | some x => streamDelta d (.counterIn i x.fcIn) | none => d)
    (d.modWrp (fun w => { w with fcNew := [] }))

/-- The ply at the strobe of tick `k`. -/
def plyTick (d : Dev) (k : Int) : Dev :=
  let d := d.modPly (fun p => { p with cover := p.coverNext })
  let d := if d.ply.partnered then divergeTick (alignTick (countMisses d)) else d
  roleTick (tellCountersIn d) k

/-- The body of a heartbeat that carries FAULT and no other content (R285). -/
def faultBody (k : Int) : Heartbeat :=
  { asn := (k % (2 ^ 40 : Nat)).toNat, role := 0, master := false, fault := true, ready := false, power := 0, whorl := 0,
    mepoch := 0, mdigest := 0, pdigest := 0, spn := 0, parent := 0, t1 := 0, t3echo := 0, t4rx := 0, acks := [] }

/-- A heartbeat leaves on both paths (R268, R271): by PLK, and through Q0 of each backhaul port of path B. -/
def sendHeartbeat (d : Dev) (b : Heartbeat) : Dev :=
  if d.ply.partnered = false then d
  else
    let (ok, d) := invoke d d.ply.plySkein masterLoom useEncrypt
    if ok = false then d
    else
      let t1 := if b.fault then 0 else d.whl.time
      let d := if d.sht.linkp then plyOut d (.heartbeat .plk d.ply.seqOut { b with t1 := t1 }) false else d
      if (pathB d).isEmpty then d else plyOut d (.heartbeat .b d.ply.seqOut { b with t1 := 0 }) true

/-- The ply engine's heartbeats while the fault wire is asserted (R285): one at each strobe, FAULT_HOLD of them. -/
def faultTick (d : Dev) (k : Int) : Dev :=
  match d.ply.faultTicks with
  | some n =>
    if n < fFaultHold.get d.pra then
      (sendHeartbeat d (faultBody k)).modPly (fun p => { p with faultTicks := some (n + 1) })
    else d.modPly (fun p => { p with faultTicks := some (n + 1) })
  | none => d

end Sys2Proof.Machine
end

