-- ==== Sys2Proof/Machine/Tick.lean ====
section
/-! DEFINITION. The tick strobe (R79): capture close and drain (R82), the reload of the radio copy (R64), a step of device
time (R77), the holdover estimate (R75), and everything staged for a tick. -/

namespace Sys2Proof.Machine

/-! ## A step of device time (R77) -/

/-- A device-time stamp moved by a step. -/
def moveStamp (off : Int) (t : Nat) : Nat := ((t : Int) + off).toNat

/-- Instants that bound durations keep their distance from now over a step: those of a spindle. -/
def Spn.moved_ (s : Spn) (off : Int) : Spn :=
  let mv := moveStamp off
  { s with trans := s.trans.map (fun x => (x.1, mv x.2)), resyncT1 := s.resyncT1.map mv,
           hold := s.hold.map (fun h => { h with from_ := mv h.from_, until_ := h.until_.map mv }),
           retryAt := s.retryAt.map mv, blankFrom := mv s.blankFrom, calStepFrom := mv s.calStepFrom, validFrom := mv s.validFrom,
           bindFrom := kmap s.bindFrom (fun _ t => mv t), lastPreamble := s.lastPreamble.map mv,
           tx := s.tx.map (fun t => { t with ts := mv t.ts, ended := t.ended.map mv }) }

/-- The same for a PTP port; its Sync measurements stay as they were measured. -/
def PtpPort.moved (p : PtpPort) (off : Int) : PtpPort :=
  let mv := moveStamp off
  { p with lastAnnounce := mv p.lastAnnounce, lastSync := mv p.lastSync, qualSince := mv p.qualSince,
           delayReqDue := mv p.delayReqDue, delayReqAt := none, lastT1T2 := none }

/-- The same for a bucket and an egress port; gates follow device time through a step (R250). -/
def Bucket.moved (b : Bucket) (off : Int) : Bucket := { b with last := moveStamp off b.last }
def QPort.moved (q : QPort) (off : Int) : QPort :=
  let mv := moveStamp off
  { q with shaper := q.shaper.moved off, shapers := kmap q.shapers (fun _ b => b.moved off), freeAt := mv q.freeAt,
           pauses := kmap q.pauses (fun _ x => (mv x.1, mv x.2)), xoff := kmap q.xoff (fun _ t => t.map mv) }

/-- Device time takes the step: T becomes T′. -/
def applyStep (d : Dev) (off : Int) : Dev :=
  let mv := moveStamp off
  let d := d.modWhl (fun w =>
    { w with time := mv w.time, step := none, slew := 0, tickAt := mv w.tickAt,
             before := w.before.map (fun b => { b with at_ := mv b.at_ }), ptp0 := w.ptp0.moved off, ptp1 := w.ptp1.moved off,
             ppsLast := w.ppsLast.map mv, lockedSince := w.lockedSince.map mv, holdFrom := mv w.holdFrom })
  let d := { d with spn := d.spn.mapIdx (fun _ s => s.moved_ off) }
  let d := d.modWrp (fun w =>
    { w with nodes := kmap w.nodes (fun _ x => { x with corr := x.corr.map (fun c => (c.1, mv c.2)) }),
             trickleFrom := mv w.trickleFrom, trickleAt := mv w.trickleAt, trickleHeard := w.trickleHeard.map mv })
  let d := d.modPly (fun p =>
    { p with awaiting := p.awaiting.map (fun a => { a with until_ := a.until_ + off, ended := a.ended.map mv }),
             ackSeen := p.ackSeen.map (fun a => (a.1, a.2 + off)) })
  let q := d.que
  { d with que := { q with p0 := q.p0.moved off, p1 := q.p1.moved off, p2 := q.p2.moved off, p3 := q.p3.moved off,
                           p4 := q.p4.moved off },
           crd := { d.crd with pol := kmap d.crd.pol (fun _ b => b.moved off) } }

/-- A step that is due at this strobe (R77): none passes over a held launch instant, and a deferred one follows once no
instant is held, if more than 500 µs are left. -/
def dueStep (d : Dev) : Dev × Option Int :=
  let w := d.whl
  if w.launches.isEmpty then
    let left := w.slewLeft w.time
    let d := d.modWhl (fun w => { w with stepPend := false })
    match w.step with
    | some off => (d, some off)
    | none => (d, if w.stepPend ∧ 500000 < left.natAbs then some left else none)
  else
    match w.step with
    | none => (d, none)
    | some off =>
      let big : Bool := decide (500000 < off.natAbs)
      let d := d.modWhl (fun w => { w with step := none, slew := off, slewFrom := w.time, stepPend := w.stepPend || big })
      (if big then report d evStepDeferred [] else d, none)

/-- A step, where one is due, and whether it was made. -/
def stepTick (d : Dev) : Dev × Bool :=
  match dueStep d with
  | (d, none) => (d, false)
  | (d, some off) => (report (applyStep d off) evTimeStep (octets 8 (toTwos 64 off)), true)

/-! ## The whorl -/

/-- Estimated time error in HOLDOVER (R75). -/
def holdEstimate (d : Dev) : Nat :=
  let w := d.whl
  let t := w.time - w.holdFrom
  let u : Nat :=
    match w.src with
    | .holdRef => 1
    | .holdBhref => 100
    | .holdTcxo | .none | .ptp0 | .ptp1 | .pps => if 3600000000000 ≤ w.longestLock then 5 else 20
  w.holdOff + u * t / 100000000

/-- The step of the master counter in a tick (R64, R69, R75, R77): nominal in FREERUN, the servo's while a source is followed,
the learned one in HOLDOVER, and 10 ppm more or less while a slew runs. -/
def Whl.nextStep (w : Whl) (free : Nat) : Nat :=
  let base :=
    match w.state with
    | .freerun => 6871947674
    | .acquire | .locked => Config.servoStep free w.time
    | .holdover => w.learnedStep.getD (Config.servoStep free w.time)
  let left := w.slewLeft w.time
  if 0 < left then base + base / 100000 else if left < 0 then base - base / 100000 else base

/-- The step of the radio copy that follows device time at a TCXO rate of `corr`, in 0.0001 ppm (R64, R66). -/
def radioStepOf (corr : Int) : Nat := (17895697067 * (10000000000 - corr) / 10000000000).toNat

/-- Per-tick work of the whorl: TCXO rate (R66), what is learned (R75, R91), the estimate and its limit (R75, R76), the
radio copy and its step (R64), and that WHL_PLK_OFFSET has no measurement since the last strobe (R90; log 116). -/
def whorlTick (d : Dev) (tcxo : Int) : Dev :=
  let out := tcxoOut d
  let d := d.modWhl (fun w =>
    let long := w.lockedFor 60000000000
    let corr := if out then w.freqCorr else tcxo
    { w with freqCorr := corr, learnedTcxo := if w.state = .locked ∧ out = false then tcxo else w.learnedTcxo,
             learned := w.learned || long, learnedStep := if long then some w.masterStep else w.learnedStep,
             masterStep := w.nextStep d.free, radio := some w.time, radioStep := radioStepOf corr,
             plkOffset := if w.plkNew then w.plkOffset else none, plkNew := false })
  let d := if d.whl.state = .holdover then d.modWhl (fun w => { w with holdEst := sat 0xFFFFFFFF (holdEstimate d) }) else d
  holdWatch d

/-- The numbering of the tick and its phases (R79, R82): phases of earlier ticks that have not ended go on, with their own
deadlines. A tick before the firmware runs has no phases. -/
def numberTick (d : Dev) : Dev :=
  let work := d.work
  let idle := !d.phase.fwRuns
  d.modWhl (fun w =>
    { w with tickK := w.slot, tickAt := w.time, before := if w.scheduled then w.before else w.before ++ [work],
             drained := idle, scheduled := idle, drainMissed := false, schedMissed := false, prepMissed := false,
             txMissed := false })

/-! ## Spindles -/

/-- The trim moves toward the mean FOFF by at most 0.05 ppm (R149); the mean is rounded toward minus infinity to 0.001 ppm
(log 105). -/
def trimTick (d : Dev) (n : Fin 4) : Dev :=
  let s := d.spn.get n
  if s.trimEn = false ∨ s.foffs.isEmpty then d
  else
    let mean := (s.foffs.foldl (· + ·) 0) / (s.foffs.length : Int)
    let d := d.modSpn n (fun s => { s with trim := s.trim + clampInt 50 (clampInt 10000 mean - s.trim) })
    watchIf d (evSpn n 19) (decide (10000 < mean.natAbs))

/-- The temperature trigger of a full calibration (R113). -/
def calTempTick (d : Dev) (n : Fin 4) : Dev :=
  let s := d.spn.get n
  if s.autocal ∧ s.eff = 2 ∧ s.calPend = false ∧ s.blank = false ∧ s.calTempSet
      ∧ 10 * s.calDt ≤ (d.pwr.temps.b - 10 * s.calTemp).natAbs then
    report (d.modSpn n (fun s => s.pendCal 3)) (evSpn n 9) []
  else d

/-- The cells of slot `k` take their places: open spans stay, and what was planned for the slot joins them; none after a
step (R77, R163). -/
def Spn.enterSlot (s : Spn) (k : Int) (stepped : Bool) : Spn :=
  let open_ := if stepped then [] else s.nowRx.filter (fun c => decide (k ≤ c.slot + (c.span : Int)))
  if s.planSlot = k ∧ stepped = false then
    { s with nowRx := open_ ++ s.planRx, heldRx := [], nowTx := s.planTx.isSome, nowPlan := s.planTx, nowDrops := s.planDrops,
             nowUnbound := s.planUnbound, nowHeld := s.planHeld, planRx := [], planTx := none, planDrops := [], planSlot := -1 }
  else
    { s with nowRx := open_, heldRx := [], nowTx := false, nowPlan := none, nowDrops := [], nowUnbound := false, nowHeld := false,
             planRx := [], planTx := none, planDrops := [], planSlot := -1 }

/-- Resynchronisation ends at the first tick at or after t1 + 100 µs (R22). -/
def Spn.resyncTick (s : Spn) (now : Nat) : Spn :=
  match s.resyncT1 with
  | some t => if t + 100000 ≤ now then ({ s with resync := false, resyncT1 := none }.settle now).syncWires else s
  | none => s

/-- One step of a calibration correction (R115): at each strobe that follows the end of the blank it came from. -/
def Spn.calStepTick (s : Spn) (now : Nat) : Spn :=
  if s.calStep < 8 ∧ s.calStepFrom < now then { s with calStep := s.calStep + 1 } else s

/-- Spindle `n` at the strobe that begins slot `k`: drain, what waited for the strobe (R95), the slot's cells, and the staged
values. -/
def spindleTick (d : Dev) (k : Int) (stepped : Bool) (n : Fin 4) : Dev :=
  let now := d.whl.time
  let d := crossStore d n (some k) 0 (d.spn.get n).store.length
  let d := endOfCell d n
  let d := d.modSpn n (fun s =>
    let s := (s.enterSlot k stepped).calStepTick now
    let s := ({ s with calEnd := false, corr := d.whl.freqCorr }.tuneLo n).resyncTick now
    { s with pinBypass := s.pinBypass && !s.serves })
  trimTick (calTempTick d n) n

/-- A pending blank may start now on spindle `n` (R114): a transmission that has not ended gives way to it. -/
def blankMay (d : Dev) (n : Fin 4) : Bool :=
  let s := d.spn.get n
  let others := spindles.all (fun m => m == n || !(d.spn.get m).blank)
  let free : Bool := match d.ply.last with
    | some h => !d.ply.partnered || d.ply.pfail || !(h.spn.getLsbD (8 * (3 - n.val) + 6) || h.spn.getLsbD (8 * (3 - n.val) + 5))
    | none => true
  s.calPend && s.eff == 2 && (s.mode == .synth || s.mode == .rx) && !s.blank && others && (free || !(s.calCause == 2 || s.calCause == 3))

/-- Pending blanks start, the lowest spindle first (R114); `served` says which spindles served a cell in the slot before. -/
def blankTick (d : Dev) (served : Four Bool) : Dev :=
  each spindles (fun d n => if blankMay d n then startBlank d n (served.get n) else d) d

/-! ## The strobe -/

/-- Everything a strobe does while the control die runs. -/
def strobe (tcxo : Int) (beacon : Bool) (d : Dev) : Dev :=
  let served : Four Bool := d.spn.mapIdx (fun _ s => s.servesNow)
  let (d, stepped) := stepTick d
  let d := numberTick (whorlTick d tcxo)
  let k := d.whl.tickK
  let d := each spindles (fun d n => spindleTick d k stepped n) d
  let d := blankTick d served
  let d := if stepped ∧ d.glb.power = 3 then
      countSkipped (d.modWhl (fun w => { w with txMissed := true })) (transmitCells d d.wrp.cells (k + 1)) else d
  let d := if d.phase = .up then plyTick d k else d
  let d := faultTick d k
  let d := if beacon ∧ d.phase.fwRuns then d.modPly (fun p => { p with beaconAt := d.glb.upNs }) else d
  let d := pulse d 2 10
  each [Port.bh0, .bh1, .plk] gateDue d

/-- TICK_STROBE (R79, R360): at slot_pos 0, once; after an uncorrectable error in working memory the firmware resets the
control die here. -/
def doTickStrobe (tcxo : Int) (beacon : Bool) (d : Dev) : Dev :=
  let w := d.whl
  if d.phase.ctrlRuns = false ∨ w.slotPosAt w.time ≠ 0 ∨ (w.radio.isSome ∧ w.tickAt = w.time) then d
  else if d.glb.faultReset then controlReset d 6
  else strobe tcxo beacon d

def execTickStrobe (dt : Nat) (tcxo : Int) (beacon : Bool) (s : State) : Host.Outcome State Fault Refusal :=
  run dt (doTickStrobe tcxo beacon) s

end Sys2Proof.Machine
end

