-- ==== Sys2Proof/Machine/PlyLink.lean ====
section
/-! DEFINITION. The ply link: acceptance (R269), heartbeats (R271 to R274, R289), records (R276 to R278), the mirror (R280 to
R283), the treadle's supervision (R285, R286), and the registers of PLY (R296). -/

namespace Sys2Proof.Machine

/-! ## Acceptance (R269, R290) -/

/-- The replay windows after a frame of sender `key` with a BOOT and a SEQ; none where it is refused: only a SEQ above the
highest, or within the 64 below it and not yet seen, is taken. -/
def replayTake (l : List LinkReplay) (key : Nat) (boot : Word) (seq : Nat) : Option (List LinkReplay) :=
  match l with
  | [] => some [{ side := key, boot := boot, high := seq, seen := [seq] }]
  | r :: rest =>
    if r.side = key ∧ r.boot = boot then
      if r.high < seq then
        some ({ r with high := seq, seen := (seq :: r.seen).filter (fun q => decide (seq ≤ q + 64)) } :: rest)
      else if r.high ≤ seq + 64 ∧ r.seen.contains seq = false then some ({ r with seen := seq :: r.seen } :: rest)
      else none
    else (replayTake rest key boot seq).map (fun l => r :: l)

/-- One rejected ply-link or loom message (R296). -/
def plyReject (d : Dev) : Dev := d.modPly (fun p => { p with reject := inc32 p.reject })

/-- A frame is taken by its tag, made with skein `s`, and its SEQ, or counted as rejected. -/
def linkTake (d : Dev) (s key : Nat) (h : LinkHeader) : Bool × Dev :=
  let (ok, d) := invoke d s masterLoom useDecrypt
  if ok = false ∨ h.tagOk = false ∨ h.ver ≠ 1 then (false, plyReject d)
  else
    match replayTake d.ply.replays key h.boot h.seq with
    | some l => (true, d.modPly (fun p => { p with replays := l }))
    | none => (false, plyReject d)

/-- A ply-link frame is taken and acted on (R269); a ply of one side has no partner to hear. -/
def plinkIn (d : Dev) (h : LinkHeader) (f : Dev → Dev) : Dev :=
  if d.phase ≠ .up ∨ d.ply.partnered = false then d
  else
    match linkTake d d.ply.plySkein h.side.toNat h with
    | (true, d) => f d
    | (false, d) => report d evPlinkAuth []

/-- A loom message is taken and acted on (R290). -/
def loomIn (d : Dev) (h : LinkHeader) (ply : BitVec 8) (f : Dev → Dev) : Dev :=
  if d.phase ≠ .up then d
  else
    match linkTake d d.ply.loomSkein (256 * ply.toNat + h.side.toNat) h with
    | (true, d) => f d
    | (false, d) => d

/-- A meaning on a ply-link frame that is no heartbeat: it comes by PLK, and through the shuttle only while PLK is down (R268). -/
def runLink (dt : Nat) (f : Dev → Dev) (s : State) : Host.Outcome State Fault Refusal :=
  run dt (fun d => f (if d.sht.linkp then d else takeCpu d)) s

/-! ## HEARTBEAT_SEND (R271) -/

/-- Acknowledgements whose window ended before the tick (R271), at most 64. -/
def ackSeenDue (d : Dev) : List (Nat × Int) :=
  (d.ply.ackSeen.filter (fun a => decide (a.2 < (d.whl.tickAt : Int)))).take 64

/-- The octet of a spindle in SPN (R271). -/
def spnOctet (s : Spn) : Nat :=
  128 * b2n s.serves + 64 * b2n s.blank + 32 * b2n s.held + 16 * b2n (s.oos == .bypass) + 4 * s.target

/-- The body of heartbeat k (R271). -/
def heartbeatBody (d : Dev) : Heartbeat :=
  let p := d.ply
  { asn := (d.whl.tickK % (2 ^ 40 : Nat)).toNat, role := BitVec.ofNat 4 (Role.num p.role), master := p.master,
    fault := false, ready := p.ready, power := BitVec.ofNat 8 d.glb.power,
    whorl := BitVec.ofNat 8 (16 * d.whl.state.num + d.whl.src.num), mepoch := BitVec.ofNat 32 p.mepoch,
    mdigest := mdigest d (nextAsn (d.whl.tickK % (2 ^ 40 : Nat)).toNat), pdigest := p.pdigest,
    spn := pack [(24, spnOctet d.spn.a), (16, spnOctet d.spn.b), (8, spnOctet d.spn.c), (0, spnOctet d.spn.d)],
    parent := ptpParent d, t1 := d.whl.time, t3echo := (p.echo.map (·.1)).getD 0, t4rx := (p.echo.map (·.2)).getD 0,
    acks := (ackSeenDue d).map (·.1), limit := holdLimited d }

/-- HEARTBEAT_SEND (R271): 2,600 µs after the strobe; the eighth omission in a row silences the spindles. -/
def doHeartbeatSend (written : Bool) (d : Dev) : Dev :=
  let k := d.whl.tickK
  if d.phase ≠ .up ∨ d.ply.faultTicks.isSome ∨ d.ply.hbTick = some k ∨ d.whl.time < d.whl.tickAt + 2600000 then d
  else if written then
    let due := ackSeenDue d
    let d := sendHeartbeat d (heartbeatBody d)
    let quiet := d.ply.quiet
    let d := d.modPly (fun p =>
      { p with hbTick := some k, omitted := 0, quiet := false, ackSeen := p.ackSeen.filter (fun a => !due.contains a) })
    if quiet then each spindles atEndOfCell d else d
  else
    let d := d.modPly (fun p => { p with hbTick := some k, omitted := p.omitted + 1 })
    if d.ply.omitted = 8 then allToStandby d else d

def execHeartbeatSend (dt : Nat) (written : Bool) (s : State) : Host.Outcome State Fault Refusal :=
  run dt (doHeartbeatSend written) s

/-! ## HEARTBEAT_RECEIVE (R272 to R274, R277, R278, R289) -/

/-- The placement digests of one slot are compared (R277): two slots in a row that differ unsync what was placed in them on the
side that is not master, and the master then owes those counters. -/
def comparePlaced (d : Dev) (b : Heartbeat) : Dev :=
  if d.whl.scheduled = false ∨ d.ply.role.places = false then d
  else if b.pdigest = d.ply.pdigest then d.modPly (fun p => { p with pdiverge := 0, pdests := [] })
  else
    let dest (k : Nat) : Option Nat := if k = 131072 then none else some k
    let d := d.modPly (fun p =>
      { p with pdiverge := p.pdiverge + 1, pdests := p.pdests ++ p.placed.map (·.1), divergeCnt := inc32 p.divergeCnt })
    if d.ply.pdiverge < 2 then d
    else
      let mark (d : Dev) (k : Nat) : Dev := if d.ply.master then oweCounters d (dest k) else unsync d (dest k)
      each d.ply.pdests mark (d.modPly (fun p => { p with pdiverge := 0, pdests := [] }))

/-- The offset that a heartbeat on PLK gives (R273). -/
def takeOffset (d : Dev) (b : Heartbeat) : Dev :=
  let now := d.whl.time
  if b.t1 = 0 then d
  else
    let d := d.modPly (fun p => { p with echo := some (b.t1, now) })
    if b.t3echo = 0 ∨ b.t4rx = 0 then d
    else
      let off := (((b.t1 : Int) - (now : Int)) + ((b.t4rx : Int) - (b.t3echo : Int))) / 2
      let d := d.modWhl (fun w => { w with plkOffset := some (clampInt (2 ^ 31 - 1) off), plkNew := true })
      d.modPly (fun p => { p with offsets := ((d.glb.upNs, off) :: p.offsets).take 128 })

/-- A heartbeat without FAULT: a declaration of failure is withdrawn (R272), and where both sides were SOLO the ply was split
and side B enters SPARE (R289). -/
def partnerHeard (d : Dev) (b : Heartbeat) : Dev :=
  let was := d.ply.pfail
  let d := d.modPly (fun p =>
    { p with pfail := false, last := some b, prole := roleOf b.role.toNat, pmepoch := b.mepoch.toNat,
             joinAt := if b.ready then (p.joinAt <|> some ((b.asn : Int) + 2)) else none,
             awaiting := p.awaiting.map (fun a => if b.acks.contains a.r.hash then { a with acked := true } else a) })
  if was ∧ d.ply.role = .solo ∧ d.ply.prole = some Role.solo then
    let d := report d evSplit []
    if d.ply.side then setRole d .spare false else d
  else d

/-- A heartbeat with FAULT set. -/
def faultSeen (b : Heartbeat) : Heartbeat := { b with fault := true }

/-- HEARTBEAT_RECEIVE (R273): FAULT declares the partner failed, once for a run of such heartbeats (R272, R294). -/
def doHeartbeatReceive (path : Path) (h : LinkHeader) (b : Heartbeat) (d : Dev) : Dev :=
  plinkIn d h fun d =>
    let first := !d.ply.heardA && !d.ply.heardB
    let d := if (b.asn : Int) = d.whl.tickK % (2 ^ 40 : Nat) then
        d.modPly (fun p => match path with | .plk => { p with heardA := true } | .b => { p with heardB := true })
      else d
    if b.fault then
      let again : Bool := match d.ply.last with | some x => x.fault | none => false
      let d := declareFailed (d.modPly (fun p => { p with last := some (faultSeen (p.last.getD b)) }))
      if again then d else report d evPartnerFault []
    else
      let d := partnerHeard d b
      let d := match path with | .plk => takeOffset d b | .b => d
      if first ∧ (b.asn : Int) = d.whl.tickK % (2 ^ 40 : Nat) then comparePlaced d b else d

def execHeartbeatReceive (dt : Nat) (path : Path) (h : LinkHeader) (b : Heartbeat) (s : State) :
    Host.Outcome State Fault Refusal :=
  run dt (fun d => doHeartbeatReceive path h b (match path with | .plk => d | .b => takeCpu d)) s

/-! ## Records (R276, R277) -/

/-- OFFER_RECEIVE (R276): the master takes the record. -/
def doOfferReceive (h : LinkHeader) (r : DownRec) (d : Dev) : Dev :=
  plinkIn d h fun d => if d.ply.master then masterTake d { r with share := none, retries := 0 } else d

def execOfferReceive (dt : Nat) (h : LinkHeader) (r : DownRec) (s : State) : Host.Outcome State Fault Refusal :=
  runLink dt (doOfferReceive h r) s

/-- MERGE_WAIT_EXPIRE (R276): the record has had no twin, and is assigned. -/
def doMergeWaitExpire (hash : Nat) (d : Dev) : Dev :=
  let due (q : DownRec × Option Nat) : Bool :=
    q.1.hash == hash && (match q.2 with | some t => decide (t ≤ d.glb.upNs) | none => false)
  match d.ply.waiting.find? due with
  | some (r, _) => if d.ply.master then assignRec d r else d
  | none => d

def execMergeWaitExpire (dt : Nat) (hash : Nat) (s : State) : Host.Outcome State Fault Refusal :=
  run dt (doMergeWaitExpire hash) s

/-- Schedule computation for slot `s` has begun (R82). -/
def scheduleBegun (d : Dev) (s : Int) : Bool := decide (s ≤ d.whl.tickK) || (s == d.whl.tickK + 1 && d.whl.drained)

/-- ASSIGN_RECEIVE (R276, R277): the record is listed; one that comes late is kept, counted, and its destination is unsynced. A
correction replaces the one that is listed (R171). -/
def doAssignReceive (h : LinkHeader) (r : DownRec) (d : Dev) : Dev :=
  plinkIn d h fun d =>
    if d.ply.master ∨ d.ply.recs.any (fun x => x.hash == r.hash) then d
    else
      let d := match r.kind, r.dest with
        | .correction tc, some i =>
          (dropCorrection d i).modNode i (fun x => { x with corr := some (tc, d.whl.time + 2000000000) })
        | _, _ => d
      let d := d.modPly (fun p =>
        { p with recs := insertRec r p.recs, waiting := p.waiting.filter (fun q => q.1.hash != r.hash) })
      if scheduleBegun d (r.share.getD 0 : Nat) then unsync (d.modPly (fun p => { p with dlLate := inc32 p.dlLate })) r.dest
      else d

def execAssignReceive (dt : Nat) (h : LinkHeader) (r : DownRec) (s : State) : Host.Outcome State Fault Refusal :=
  runLink dt (doAssignReceive h r) s

/-- A destination's counters are adopted and it is synced again (R277). -/
def adoptCounters (d : Dev) (dest : Option Nat) (dsn fc : Nat) : Dev :=
  match dest with
  | none => (d.modPly (fun p => { p with unsyncB := false })).modWrp (fun w => { w with bcastDsn := dsn % 256, bcastFc := fc % 2 ^ 32 })
  | some i => d.modNode i (fun x => { x with unsynced := false, dsn := dsn % 256, fcOut := fc % 2 ^ 32 })

/-- COUNTERS_RECEIVE (R277). -/
def doCountersReceive (h : LinkHeader) (dest : Option Nat) (dsn fc : Nat) (d : Dev) : Dev :=
  plinkIn d h fun d => if d.ply.master then d else adoptCounters d dest dsn fc

def execCountersReceive (dt : Nat) (h : LinkHeader) (dest : Option Nat) (dsn fc : Nat) (s : State) :
    Host.Outcome State Fault Refusal := runLink dt (doCountersReceive h dest dsn fc) s

/-! ## The mirror (R280, R281) -/

/-- A warp register takes a mirrored value, by its address. -/
def mirrorReg (d : Dev) (addr : Nat) (v : Word) : Dev :=
  if addr = addrWrpCtrl then setWrpCtrl d v
  else if addr = addrTiming then setTiming d false v
  else if addr = addrAckt then setTiming d true v
  else
    match (List.range 32).find? (fun i => match spindle? (i / 8) with | some n => addrSfCfg n (i % 8) == addr | none => false) with
    | some i =>
      (match spindle? (i / 8) with
      | some n => d.modWrp (·.modSf n (i % 8) (fun r => { r with cfg := v }))
      | none => d)
    | none =>
      match hopIndex? (addr - 0x180000) with
      | some (t, i) => setHop d t i v
      | none => d

/-- A node joins, or joins again, by the master's word (R280, R282), and is present by it; a path heard here meanwhile is its own. -/
def mirrorJoin (d : Dev) (i : Nat) (eui : BitVec 64) (handle : BitVec 32) (home : Nat) (r : NodeRoute) : Dev :=
  let fresh : Node := { eui := eui, handle := handle, home := home, visitor := home != d.ply.ply, mirrored := true, depth := r.depth,
                        band := r.band, district := r.district }
  let put (d : Dev) : Dev := d.modWrp (fun w => { w with nodes := kput w.nodes i fresh })
  let d := match d.node? i with
    | some x =>
      if x.eui = eui then d.modNode i (fun x => { x with handle := handle, home := home, dormantSince := none, away := none,
                                                                 mirrored := true, depth := r.depth, band := r.band, district := r.district })
      else put (removeNode d i)
    | none => put d
  match d.wrp.visits.find? (fun v => v.eui == eui) with
  | some v => dropVisit (setPath d i v.path) eui
  | none => d

/-- A mirrored change is applied (R280, R281): a warp change that matches changes nothing, and one that differs is a write
of WRP_CCMD; key generations are for information. -/
def applyDelta (d : Dev) (x : Delta) : Dev :=
  match x with
  | .join i eui handle home r => mirrorJoin d i eui handle home r
  | .leave i => sleepNode d i
  | .release i => removeNode d i
  | .groups i gs => d.modNode i (fun x => { x with groups := gs })
  | .counterIn i fc => d.modNode i (fun x => { x with fcIn := max x.fcIn fc })
  | .keyGen _ _ => d
  | .cell n i w0 w1 =>
    (match spindle? n with
    | some n =>
      if kfind (d.wrp.cells.get n) i = some (w0, w1) ∨ (cellRefusedNow d n i (w0, w1)).isSome then d
      else setCell d n i (some (w0, w1))
    | none => d)
  | .cellFree n i => (match spindle? n with | some n => setCell d n i none | none => d)
  | .warpReg addr v => mirrorReg d addr v

/-- Mirror epoch `a` comes after `b` (R281). -/
def epochAfter (a b : Nat) : Bool := let k := (a + 2 ^ 32 - b % 2 ^ 32) % 2 ^ 32; decide (1 ≤ k) && decide (k < 2 ^ 31)

/-- DELTA_RECEIVE (R281, R283): the master numbers the other side's change and streams it; the other side applies changes in
epoch order, a SPARE only once its snapshot is complete. -/
def doDeltaReceive (h : LinkHeader) (epoch : BitVec 32) (x : Delta) (d : Dev) : Dev :=
  plinkIn d h fun d =>
    if d.ply.master then streamDelta (applyDelta d x) x
    else if d.ply.role = .spare ∧ d.ply.snapped = false then d
    else if epochAfter epoch.toNat d.ply.mepoch then (applyDelta d x).modPly (fun p => { p with mepoch := epoch.toNat })
    else d

def execDeltaReceive (dt : Nat) (h : LinkHeader) (epoch : BitVec 32) (d : Delta) (s : State) :
    Host.Outcome State Fault Refusal := runLink dt (doDeltaReceive h epoch d) s

/-! ## Snapshots (R283, R361) -/

/-- A node's mirrored items (R280). -/
def Node.snap (x : Node) (i : Nat) : NodeSnap :=
  { index := i, eui := x.eui, handle := x.handle, home := x.home, groups := x.groups, fcIn := x.fcIn, dsn := x.dsn,
    fcOut := x.fcOut, dormantSince := x.dormantSince, away := x.away.map (·.1), route := x.noderoute }

/-- The warp's mirrored registers, by address. -/
def warpRegs (d : Dev) : List (Nat × Word) :=
  let w := d.wrp
  let sf := (List.range 32).filterMap (fun i =>
    match spindle? (i / 8) with
    | some n => let v := (w.sf n (i % 8)).cfg; if v = 0 then none else some (addrSfCfg n (i % 8), v)
    | none => none)
  [(addrWrpCtrl, wrpCtrl w), (addrTiming, pack [(16, w.txoff), (0, w.sel)]), (addrAckt, pack [(16, w.txAckDelay), (0, w.ackWait)])]
    ++ w.hlens.map (fun p => (addrHopLen p.1, BitVec.ofNat 32 p.2))
    ++ w.hops.map (fun p => (addrHop (p.1 / 128) (p.1 % 128), BitVec.ofNat 32 p.2)) ++ sf

/-- The cells of every spindle. -/
def warpCells (d : Dev) : List (Nat × Nat × Word × Word) :=
  spindles.flatMap (fun n => (d.wrp.cells.get n).map (fun c => (n.val, c.1, c.2.1, c.2.2)))

/-- A policy entry as 16 octets in one number. -/
def policyBits (p : Policy) : BitVec 128 := BitVec.ofNat 128 (natOf (policyOctets p))

/-- SNAP_REQ_RECEIVE (R283, R361): the master answers with every mirrored item; a single node's items come from either side. -/
def doSnapReqReceive (h : LinkHeader) (node : Option Nat) (d : Dev) : Dev :=
  plinkIn d h fun d =>
    match node with
    | some i =>
      (match d.node? i with
      | some x => if x.lost.isSome then d else plySend d (.snap d.ply.mepoch [x.snap i] [] [] [] d.ccp.epoch true)
      | none => d)
    | none =>
      if d.ply.master = false then d
      else
        let nodes := d.wrp.nodes.map (fun p => p.2.snap p.1)
        let policy := d.ccp.policy.map (fun p => (p.1, policyBits p.2))
        plySend (plySend d (.snap d.ply.mepoch nodes (warpCells d) (warpRegs d) policy d.ccp.epoch true))
          (.counters none d.wrp.bcastDsn d.wrp.bcastFc)

def execSnapReqReceive (dt : Nat) (h : LinkHeader) (node : Option Nat) (s : State) : Host.Outcome State Fault Refusal :=
  runLink dt (doSnapReqReceive h node) s

/-- A policy entry from the octets of R210; none where all are zero. -/
def policyOf (l : List Byte) : Option Policy :=
  let f := natAt l 0 1
  if natOf l = 0 then none
  else
    some { valid := decide (128 ≤ f), dev := f / 64 % 2 == 1, ply := natAt l 1 1, idmask := BitVec.ofNat 16 (natAt l 2 2), lo := natAt l 4 4 % 2 ^ 17,
           hi := natAt l 8 4 % 2 ^ 17, classes := BitVec.ofNat 16 (natAt l 12 2) }

/-- Policy entry `i` takes 16 octets. -/
def putPolicy (d : Dev) (i : Nat) (l : List Byte) : Dev :=
  d.modCcp (fun c => { c with policy := match policyOf l with | some p => kput c.policy i p | none => kdel c.policy i })

/-- A node of a snapshot takes its place. -/
def snapNode (d : Dev) (x : NodeSnap) : Dev :=
  let n : Node :=
    { eui := x.eui, handle := x.handle, home := x.home, groups := x.groups, fcIn := x.fcIn, dsn := x.dsn % 256,
      fcOut := x.fcOut % 2 ^ 32, dormantSince := x.dormantSince.map (fun _ => d.glb.upNs), visitor := x.home != d.ply.ply,
      away := x.away.map (fun k => (k, d.glb.upNs)), mirrored := x.dormantSince.isNone, depth := x.route.depth,
      band := x.route.band, district := x.route.district }
  d.modWrp (fun w => { w with nodes := kput w.nodes x.index n })

/-- A lost node's mirrored items are back (R361): its other items take their initial values. -/
def refetched (d : Dev) (x : NodeSnap) : Dev :=
  match d.node? x.index with
  | some n => if n.lost.isSome then report (snapNode d x) evNodeLost (octets 4 x.index ++ octets 1 1) else d
  | none => d

/-- Before the first part of a snapshot the mirrored items of this side go. -/
def clearMirror (d : Dev) : Dev :=
  (d.modWrp (fun w => { w with cells := ⟨[], [], [], []⟩, sfs := w.sfs.map (fun p => (p.1, { p.2 with cfg := 0 })), hops := [],
                               hlens := [], nodes := [] })).modCcp (fun c => { c with policy := [] })

/-- A hank is part of the way through its admission (R200). -/
def halfAdmitted (d : Dev) : Bool := match d.ccp.waiting with | w :: _ => decide (0 < w.next) | [] => false

/-- SNAP_RECEIVE (R283, R361). A snapshot brings the policy table: while a hank is partly admitted it is not taken, and is asked for
again (R200). -/
def doSnapReceive (h : LinkHeader) (epoch : BitVec 32) (nodes : List NodeSnap) (cells : List (Nat × Nat × Word × Word))
    (regs : List (Nat × Word)) (policy : List (Nat × BitVec 128)) (polEpoch : BitVec 16) (last : Bool) (d : Dev) : Dev :=
  plinkIn d h fun d =>
    if d.ply.role = .spare ∧ d.ply.snapping ∧ d.ply.snapped = false ∧ halfAdmitted d then
      d.modPly (fun p => { p with snapping := false })
    else if d.ply.role = .spare ∧ d.ply.snapping ∧ d.ply.snapped = false then
      let d := if d.ply.snapParts = 0 then clearMirror d else d
      let d := each regs (fun d r => mirrorReg d r.1 r.2) d
      let d := each cells (fun d c =>
        match spindle? c.1 with | some n => setCell d n c.2.1 (some (c.2.2.1, c.2.2.2)) | none => d) d
      let d := each nodes snapNode d
      let d := each policy (fun d p => putPolicy d p.1 (octets 16 p.2.toNat)) d
      (d.modCcp (fun c => { c with epoch := polEpoch.toNat })).modPly (fun p =>
        { p with mepoch := epoch.toNat, snapParts := p.snapParts + 1, snapped := last })
    else each nodes refetched d

def execSnapReceive (dt : Nat) (h : LinkHeader) (epoch : BitVec 32) (nodes : List NodeSnap)
    (cells : List (Nat × Nat × Word × Word)) (regs : List (Nat × Word)) (policy : List (Nat × BitVec 128))
    (polEpoch : BitVec 16) (last : Bool) (s : State) : Host.Outcome State Fault Refusal :=
  runLink dt (doSnapReceive h epoch nodes cells regs policy polEpoch last) s

/-! ## The treadle (R285, R286) -/

/-- TREADLE_TIMEOUT (R285): no beacon for TREADLE_TMO, outside the first 2,000 ms and ROM recovery mode. -/
def doTreadleTimeout (d : Dev) : Dev :=
  if d.phase.ctrlRuns ∧ d.phase ≠ .recovery ∧ 2000000000 ≤ d.glb.upNs ∧ d.ply.faultTicks = none
      ∧ d.ply.beaconAt + fTreadleTmo.get d.pra * 1000000 ≤ d.glb.upNs then
    allToStandby (d.modPly (fun p => { p with faultTicks := some 0 }))
  else d

def execTreadleTimeout (dt : Nat) (s : State) : Host.Outcome State Fault Refusal := run dt doTreadleTimeout s

/-- TREADLE_RESET (R285): after FAULT_HOLD ticks. -/
def doTreadleReset (d : Dev) : Dev :=
  match d.ply.faultTicks with
  | some n => if fFaultHold.get d.pra ≤ n then controlReset d 5 else d
  | none => d

def execTreadleReset (dt : Nat) (s : State) : Host.Outcome State Fault Refusal := run dt doTreadleReset s

/-- Block of the treadle in GLB_SELFTEST (R368). -/
def blockTreadle : Nat := 14

/-- TREADLE_STATUS_TIMEOUT (R286, R368): the power die asserts FAILSAFE_N. -/
def doTreadleStatusTimeout (d : Dev) : Dev :=
  let d := d.modPwr (fun p => { p with treadleLapse := true })
  if d.phase.ctrlRuns then selfTestLive d blockTreadle false else d

def execTreadleStatusTimeout (dt : Nat) (s : State) : Host.Outcome State Fault Refusal := run dt doTreadleStatusTimeout s

/-- TREADLE_STATUS_RESUME (R286): FAILSAFE_N is asserted no longer for the treadle. -/
def doTreadleStatusResume (d : Dev) : Dev :=
  let d := d.modPwr (fun p => { p with treadleLapse := false })
  if d.phase.ctrlRuns then selfTestLive (d.modPly (fun p => { p with treadleLost := false })) blockTreadle true else d

def execTreadleStatusResume (dt : Nat) (s : State) : Host.Outcome State Fault Refusal := run dt doTreadleStatusResume s

/-- TREADLE_LOST (R286): BB24 has carried nothing for 10 ms. -/
def doTreadleLost (d : Dev) : Dev :=
  if d.ply.treadleLost ∨ d.phase.ctrlRuns = false then d
  else report (d.modPly (fun p => { p with treadleLost := true })) evTreadleLost []

def execTreadleLost (dt : Nat) (s : State) : Host.Outcome State Fault Refusal := run dt doTreadleLost s

/-! ## Registers of PLY (R296) -/

/-- A destination is unsynced on this side; the master's own marks are debts, not this. -/
def unsyncedHere (d : Dev) : Bool := !d.ply.master && (d.ply.unsyncB || d.wrp.nodes.any (fun p => p.2.unsynced))

/-- A read of the register of PLY at offset `o`. -/
def readPly (d : Dev) (o : Nat) : Option Word :=
  let p := d.ply
  let num (n : Nat) : Option Word := some (BitVec.ofNat 32 n)
  if o = 0 then
    some (pack [(28, Role.num p.role), (24, match p.prole with | some r => Role.num r | none => 15), (16, p.ply),
      (15, b2n p.side), (14, b2n p.master), (13, b2n (p.partnered && decide (p.missA < 8))),
      (12, b2n (p.partnered && decide (p.missB < 8))), (11, b2n p.pfail), (10, b2n p.aligned), (9, b2n (unsyncedHere d)),
      (8, b2n p.ready)])
  else if o = 4 then some (pack [(30, p.force)])
  else if o = 8 then some (pack [(24, p.missA), (16, p.missB)])
  else if o = 0xC then num p.mepoch
  else if o = 0x10 then num p.pmepoch
  else if o = 0x14 then some (pack [(16, p.good), (0, toTwos 16 (clampInt 32767 p.rate))])
  else if o = 0x18 then
    let plies := ((p.loom.map (·.ply)).filter (fun k => k != p.ply)).eraseDups
    some (pack [(8, (d.wrp.nodes.filter (fun x => x.2.visitor && x.2.present d.glb.upNs)).length), (0, sat 254 plies.length)])
  else if o = 0x100 then num p.dlLate
  else if o = 0x104 then num p.divergeCnt
  else if o = 0x108 then num p.reject
  else if o = 0x10C then num p.relayCnt
  else none

/-- A write of the register of PLY at offset `o`: FORCE takes effect at the next ply boundary (R294). -/
def writePly (d : Dev) (o : Nat) (v : Word) : Option (Dev × Status) :=
  if o = 4 then
    some (if fld v 31 30 = 3 then (d, .range) else (d.modPly (fun p => { p with force := fld v 31 30 }), .ok))
  else if (readPly d o).isSome then some (d, .ok)
  else none

end Sys2Proof.Machine
end

