-- ==== Sys2Proof/Machine/Commands.lean ====
section
/-! DEFINITION. CCP commands as octets: opcodes and classes (R216), parameters (R217, R218, R308, R328, R343, R363, R366), the
body of a hank (R197), and the policy table (R210, R211). -/

namespace Sys2Proof.Machine

/-! ## Opcodes -/

/-- A known opcode (R216, R308, R328). -/
def opKnown (op : Nat) : Bool :=
  [0x01, 0x02, 0x03, 0x04, 0x05, 0x06, 0x10, 0x11, 0x12, 0x20, 0x21, 0x22, 0x30, 0x31, 0x32, 0x33, 0x34, 0x40, 0x41,
    0x50, 0x51, 0x52, 0x53, 0x54, 0x60, 0x61, 0x62].contains op

/-- Class of an opcode; THREAD_QUERY and COMPLETE_ACK have none (R211, R216). -/
def opClass (op : Nat) : Option Nat :=
  match op with
  | 0x05 | 0x06 => none
  | 0x02 => some 3
  | 0x10 => some 1
  | 0x11 | 0x12 => some 2
  | 0x20 | 0x21 => some 4
  | 0x22 => some 5
  | 0x30 | 0x31 | 0x32 | 0x33 | 0x34 => some 6
  | 0x40 => some 7
  | 0x50 | 0x51 | 0x52 | 0x53 | 0x54 => some 8
  | 0x60 | 0x61 | 0x62 => some 9
  | _ => some 0

/-- Node-directed opcodes (R216). -/
def opNode (op : Nat) : Bool := op == 0x20 || op == 0x21 || op == 0x34

/-- A node handle is valid (R3). -/
def handleOk (h : BitVec 32) : Bool := decide (fld h 31 26 = 0) && decide (fld h 25 18 ≠ 0) && !bit h 17

/-- Index of a node handle (R3). -/
def handleIndex (h : BitVec 32) : Nat := fld h 16 0

/-! ## Parameters -/

/-- `c`, where the parameters are well formed. -/
def given (ok : Bool) (c : Cmd) : Option Cmd := if ok then some c else none

/-- The fields of a policy entry are in range (R210). -/
def policyEntryOk (l : List Byte) : Bool :=
  decide (l.length = 16) && decide (natAt l 0 1 % 64 = 0) && decide (natAt l 8 4 < 2 ^ 17)
    && decide (natAt l 4 4 ≤ natAt l 8 4) && decide (natAt l 14 2 = 0)

/-- The pairs of a REG_WRITE. -/
def regPairs : Nat → List Byte → List (Nat × Word)
  | 0, _ => []
  | n + 1, l => (natAt l 0 4, BitVec.ofNat 32 (natAt l 4 4)) :: regPairs n (l.drop 8)

/-- `n` words of 4 octets. -/
def words4 : Nat → List Byte → List Nat
  | 0, _ => []
  | n + 1, l => natAt l 0 4 :: words4 n (l.drop 4)

/-- A command from its opcode and parameter octets; none where they are malformed. Reserved octets are not looked at. -/
def parseCmd (op : Nat) (l : List Byte) : Option Cmd :=
  let n := l.length
  let u (o k : Nat) : Nat := natAt l o k
  let within (lo v hi : Nat) : Bool := decide (lo ≤ v) && decide (v ≤ hi)
  match op with
  | 0x01 => given (n == 8 && u 0 4 % 4 == 0 && within 1 (u 4 2) 256) (.regRead (u 0 4) (u 4 2))
  | 0x02 => given (within 1 (u 0 2) 64 && n == 4 + 8 * u 0 2) (.regWrite (regPairs (u 0 2) (l.drop 4)))
  | 0x03 => given (n == 4 && within 1 (u 2 2) 256 && u 0 2 + u 2 2 ≤ 8192) (.praInfo (u 0 2) (u 2 2))
  | 0x04 =>
    if u 0 1 = 0 then given (n == 8 && u 2 2 == 0 && u 4 4 == 0) .healthSummary
    else given (n == 8 && u 0 1 == 1 && within 1 (u 2 2) 250) (.healthLog (u 2 2) (u 4 4))
  | 0x05 => given (n == 4) (.threadQuery (u 0 4))
  | 0x06 => given (within 1 (u 0 2) 256 && n == 4 + 4 * u 0 2) (.completeAck (words4 (u 0 2) (l.drop 4)))
  | 0x10 => given (n == 8) (.powerState (u 0 1) (u 4 4))
  | 0x11 => given (n == 4 && u 0 1 ≤ 3) (.spindleHold (u 0 1) (u 2 2))
  | 0x12 => given (n == 4 && u 0 1 ≤ 3 && u 1 1 ≤ 3) (.spindleTest (u 0 1) (u 1 1))
  | 0x20 =>
    given (u 4 2 ≤ 1228 && n == 8 + u 4 2) (.nodeReq (BitVec.ofNat 16 (u 0 2)) (u 2 1 % 2 == 1) (l.drop 8))
  | 0x21 => given (n == 4 && 1 ≤ u 0 2 && u 2 1 ≤ 1) (.throwGroupSet (u 0 2) (u 2 1 == 1))
  | 0x22 =>
    given (u 12 2 ≤ 64 && n == 16 + u 12 2 && 1 ≤ u 0 2 && 1 ≤ u 2 2) (.throw (u 0 2) (u 2 2) (u 4 8) (l.drop 16))
  | 0x30 =>
    given (n == 56 && 1 ≤ u 0 4 && within 1 (u 4 4) 16777216) (.objOpen (u 0 4) (u 4 4) (BitVec.ofNat 384 (u 8 48)))
  | 0x31 => given (within 1 (u 8 2) 8112 && n == 12 + u 8 2 && 1 ≤ u 0 4) (.objWrite (u 0 4) (u 4 4) (l.drop 12))
  | 0x32 => given (n == 4 && 1 ≤ u 0 4) (.objClose (u 0 4))
  | 0x33 => given (n == 4 && 1 ≤ u 0 4) (.objDelete (u 0 4))
  | 0x34 =>
    given (n == 8 && 1 ≤ u 0 4 && within 64 (u 6 2) 1024) (.objSend (u 0 4) (BitVec.ofNat 16 (u 4 2)) (u 6 2))
  | 0x40 =>
    given (n == 20 && u 0 2 ≤ 1023 && policyEntryOk (l.drop 4)) (.policyWrite (u 0 2) (u 2 1 % 2 == 1) (l.drop 4))
  | 0x41 => given (n == 4 && within 1 (u 2 2) 64 && u 0 2 + u 2 2 ≤ 1024) (.policyRead (u 0 2) (u 2 2))
  | 0x50 =>
    given (n == 16 + u 12 2)
      (.keyLoad (u 0 1) (u 1 1) (BitVec.ofNat 16 (u 2 2)) (BitVec.ofNat 32 (u 4 4)) (u 8 4) (l.drop 16))
  | 0x51 => given (n == 8) (.keyAttr (u 0 1) (BitVec.ofNat 32 (u 4 4)))
  | 0x52 => given (n == 4) (.keyErase (u 0 1))
  | 0x53 => given (n == 4) (.keyInfo (u 0 1))
  | 0x54 => given (n == 4 && within 2 (u 0 1) 4) (.lifecycleSet (u 0 1))
  | 0x60 => given (n == 4) .reelStage
  | 0x61 => given (n == 4) (.reelActivate (u 0 1) (u 1 1 % 2 == 1))
  | 0x62 => given (n == 4 && u 0 1 ≤ 1) (.ownerLock (u 0 1 == 1))
  | _ => none

/-! ## Bodies -/

/-- The commands of a hank's body (R197), at most `fuel`; none where the body is malformed. -/
def parseBody : Nat → List Byte → Option (List CmdMsg)
  | 0, l => if l.isEmpty then some [] else none
  | fuel + 1, l =>
    if l.isEmpty then some []
    else
      let plen := natAt l 4 2
      let total := 16 + (plen + 3) / 4 * 4
      if l.length < 16 ∨ l.length < total ∨ 32 ≤ natAt l 2 1 ∨ natAt l 3 1 ≠ 0 ∨ 8140 < plen ∨ 60000 < natAt l 6 2 then none
      else
        let op := natAt l 0 2
        let m : CmdMsg :=
          { opcode := op, fence := BitVec.ofNat 8 (natAt l 2 1), tmo := natAt l 6 2, tag := natAt l 8 4,
            node := BitVec.ofNat 32 (natAt l 12 4), cmd := parseCmd op (slice l 16 plen) }
        (parseBody fuel (l.drop total)).map (fun r => m :: r)

/-! ## The policy table -/

/-- A policy entry matches a command of identity `ident`, class `cls` and NODE (R211). -/
def Policy.matches_ (p : Policy) (ident cls : Nat) (node : BitVec 32) : Bool :=
  p.valid && p.idmask.getLsbD ident && p.classes.getLsbD cls
    && (if node = 0 then p.dev
      else !p.dev && (p.ply == 0 || p.ply == handlePly node) && decide (p.lo ≤ handleIndex node)
        && decide (handleIndex node ≤ p.hi))

/-- The policy in force allows a command (R211). -/
def allowed (d : Dev) (ident op : Nat) (node : BitVec 32) : Bool :=
  match opClass op with
  | none => true
  | some cls => d.ccp.policy.any (fun p => p.2.matches_ ident cls node)

/-- Epoch `a` is older than `b`, as serial numbers (R212). -/
def epochOlder (a b : Nat) : Bool :=
  let k := (b + 65536 - a % 65536) % 65536
  decide (1 ≤ k) && decide (k ≤ 32767)

end Sys2Proof.Machine
end

