-- ==== Sys2Proof/Machine/LoomOps.lean ====
section
/-! DEFINITION. The loom table (R290, R291): beacons, entries in use, and the rows of BEACON. -/

namespace Sys2Proof.Machine

/-! ## The loom table -/

/-- A ply and side are this device's own, or its partner's, under another EUI-64. -/
def claimsOurs (d : Dev) (ply : Nat) (side : Bool) (eui : BitVec 64) : Bool :=
  ply == d.ply.ply && (if side == d.ply.side then eui != d.glb.eui else d.ply.partnered && eui != d.ply.partnerEui)

/-- The ply number is held by another EUI-64 (R291). -/
def plyConflict (d : Dev) (ply : Nat) (side : Bool) (eui : BitVec 64) : Bool :=
  claimsOurs d ply side eui || d.ply.loom.any (fun e => e.ply == ply && e.side == side && e.b.eui != eui)

/-- A beacon names the E and P in use here (R291). -/
def sameTime (d : Dev) (b : Beacon) : Bool := b.epoch == d.whl.epoch && b.period == d.whl.period

/-- An entry of the loom table is used (R291). -/
def loomUsable (d : Dev) (e : LoomEntry) : Bool := sameTime d e.b && !plyConflict d e.ply e.side e.b.eui

/-- A ply is in the loom table and used (R291, R293). -/
def inLoom (d : Dev) (ply : Nat) : Bool := d.ply.loom.any (fun e => e.ply == ply && loomUsable d e)

/-- LOOM_PERIOD in ns (R295). -/
def loomPeriodNs (d : Dev) : Nat := fLoomPeriod.get d.pra * 1000000

/-! ## Rows -/

/-- The body of this side's BEACON (R291). -/
def beaconBody (d : Dev) : Beacon :=
  let prole := match d.ply.prole with | some r => Role.num r | none => 15
  { eui := d.glb.eui, devAddr := d.ply.devAddr, meshPrefix := d.ply.meshPrefix, epoch := d.whl.epoch,
    period := d.whl.period, role := BitVec.ofNat 8 (Role.num d.ply.role), prole := BitVec.ofNat 8 prole,
    nodes := d.presentCount, free := 131072 - d.wrp.nodes.length }

/-- LOOM_BEACON_SEND (R290). -/
def doLoomBeaconSend (d : Dev) : Dev :=
  if d.phase = .up ∧ d.start.configured ∧ d.ply.loomNext ≤ d.glb.upNs then
    loomSend (d.modPly (fun p => { p with loomNext := d.glb.upNs + loomPeriodNs d })) .group (.beacon (beaconBody d))
  else d

def execLoomBeaconSend (dt : Nat) (s : State) : Host.Outcome State Fault Refusal := run dt doLoomBeaconSend s

/-- LOOM_BEACON_RECEIVE (R291): a conflict and a mismatch are reported, and leave the entry unused. -/
def doLoomBeaconReceive (h : LinkHeader) (ply : BitVec 8) (b : Beacon) (d : Dev) : Dev :=
  loomIn d h ply fun d =>
    let n := ply.toNat
    let side := h.side.getLsbD 0
    let d := if plyConflict d n side b.eui then report d evPlyConflict [] else d
    let d := if sameTime d b then d else report d evLoomMismatch []
    let same (e : LoomEntry) : Bool := e.ply == n && e.side == side && e.b.eui == b.eui
    let x : LoomEntry := { ply := n, side := side, b := b, at_ := d.glb.upNs }
    if d.ply.loom.any same then d.modPly (fun p => { p with loom := p.loom.map (fun e => if same e then x else e) })
    else report (d.modPly (fun p => { p with loom := p.loom ++ [x] })) evLoomJoin []

def execLoomBeaconReceive (dt : Nat) (h : LinkHeader) (ply : BitVec 8) (b : Beacon) (s : State) :
    Host.Outcome State Fault Refusal := runCpu dt (doLoomBeaconReceive h ply b) s

/-- LOOM_ENTRY_LAPSE (R291): entries of a ply and side without a beacon for LOOM_LAPSE periods. -/
def doLoomEntryLapse (ply : BitVec 8) (side : Bool) (d : Dev) : Dev :=
  let lapsed (e : LoomEntry) : Bool :=
    e.ply == ply.toNat && e.side == side && decide (e.at_ + fLoomLapse.get d.pra * loomPeriodNs d ≤ d.glb.upNs)
  let l := d.ply.loom.filter lapsed
  each l (fun d _ => report d evLoomJoin []) (d.modPly (fun p => { p with loom := p.loom.filter (fun e => !lapsed e) }))

def execLoomEntryLapse (dt : Nat) (ply : BitVec 8) (side : Bool) (s : State) : Host.Outcome State Fault Refusal :=
  run dt (doLoomEntryLapse ply side) s

end Sys2Proof.Machine
end

