-- ==== Sys2Proof/Machine/Ccp.lean ====
section
/-! DEFINITION. The CCP engine: packets (R188 to R195), admission (R199, R200, R208), the admission checks of NODE_REQ, THROW and
REEL_ACTIVATE (R86, R175, R216, R219, R330), timeouts and completions (R203, R205), and the registers of THR and CCP (R223). -/

namespace Sys2Proof.Machine

/-! ## What the device sends -/

/-- Changes an identity's run (R194, R195). -/
def Dev.modIdent (d : Dev) (i : Nat) (f : IdentRun → IdentRun) : Dev :=
  d.modCcp (fun c => { c with runs := kmod c.runs i {} f })

/-- An authenticated packet leaves for identity `i` to an address and port (R188, R191, R195, R301): `mk` builds it from its SEQ.
Nothing leaves where the identity's skein may not encrypt. -/
def ccpSend (d : Dev) (i : Nat) (dst : BitVec 128) (port : BitVec 16) (mk : Nat → Output) : Bool × Dev :=
  match kfind d.ccp.idents i with
  | none => (false, d)
  | some x =>
    let (ok, d) := invoke d x.skein masterCcp useEncrypt
    if ok then
      let seq := 2 ^ 63 + (kgetD d.ccp.runs i {}).sent
      let o := mk seq
      let d := ccpEmit d dst port (ccpPacket d x.skein o.ccp.1 i seq o.ccp.2)
      (true, (d.emit o).modIdent i (fun r => { r with sent := r.sent + 1 }))
    else (false, d)

/-- A HANK_ACK body leaves (R198), and is kept among the last 64 (R194). -/
def sendAck (d : Dev) (i : Nat) (src : BitVec 128) (sport : BitVec 16) (hseq hstatus epoch : Nat)
    (entries : List (Nat × Nat)) : Dev :=
  match ccpSend d i src sport (fun seq => .hankAck src sport i seq hseq hstatus epoch entries) with
  | (true, d) => d.modIdent i (fun r => { r with acks := ((hseq, hstatus, epoch, entries) :: r.acks).take 64 })
  | (false, d) => d

/-! ## Receipt -/

/-- A packet dropped for its format (R193). -/
def ccpFormat (d : Dev) : Dev := d.modCcp (fun c => { c with format := inc32 c.format })

/-- A packet of no identity, or with a bad tag (R193). -/
def ccpAuthFail (d : Dev) : Dev :=
  report (d.modCcp (fun c => { c with authFail := inc32 c.authFail })) evHankAuthFail []

/-- The packet passes the first check of R193. -/
def packetOk (p : CcpPacket) : Bool :=
  p.ver == 1 && decide (1 ≤ p.type.toNat) && decide (p.type.toNat ≤ 5) && p.length == p.datagram
    && decide (p.length ≤ 8192) && (p.type == 5 || decide (36 ≤ p.length))

/-- A SEQ is accepted by the replay window (R194). -/
def IdentRun.fresh (r : IdentRun) (seq : Nat) : Bool :=
  match r.high with
  | none => true
  | some h => decide (h < seq) || (decide (h < seq + 1024) && !r.seen.contains seq)

/-- The window once a SEQ has been accepted. -/
def IdentRun.take_ (r : IdentRun) (seq : Nat) : IdentRun :=
  let h := max seq (r.high.getD 0)
  { r with high := some h, seen := (seq :: r.seen).filter (fun q => decide (h < q + 1024)) }

/-- The kept acknowledgement of a duplicate (R194); that of a hank of another BOOT is none. -/
def IdentRun.kept (r : IdentRun) (seq : Nat) : Option (Nat × Nat × List (Nat × Nat)) :=
  (r.acks.find? (fun a => a.1 == seq && a.2.1 != 1)).map (·.2)


/-- A hank for another ply is forwarded, or rejected (R293). -/
def forwardHank (d : Dev) (p : CcpPacket) : Dev :=
  if inLoom d p.dply.toNat then loomSend d (.side p.dply.toNat (p.dside.getLsbD 0)) (.fwd p.dply.toNat p.dside.toNat p)
  else plyReject d

/-- A hank waits for admission (R220). -/
def queueHank (d : Dev) (p : CcpPacket) (cmds : List CmdMsg) (via : Option Nat) : Dev :=
  let w : WaitHank :=
    { ident := p.ident.toNat, hseq := p.seq, src := p.src, sport := p.sport, cmds := cmds, via := via }
  d.modCcp (fun c => { c with waiting := c.waiting ++ [w], rxOk := inc32 c.rxOk })

/-- The checks of R193 on a hank's side and body, once it is at its ply. -/
def arrive (d : Dev) (p : CcpPacket) (via : Option Nat) : Dev :=
  let ack (st : Nat) : Dev := sendAck d p.ident.toNat p.src p.sport p.seq st d.ccp.epoch []
  if p.dside.toNat ≠ b2n d.ply.side then ack 3
  else
    match parseBody 256 p.body with
    | none => ack 2
    | some cmds => queueHank d p cmds via

/-- A hank that finds no room among the 256 (R220). -/
def hankOverflow (d : Dev) : Dev :=
  report (d.modCcp (fun c => { c with overflow := inc32 c.overflow })) evHankOverflow []

/-- The checks of R193 from BOOT on. -/
def takeHank (d : Dev) (p : CcpPacket) : Dev :=
  let i := p.ident.toNat
  let run := kgetD d.ccp.runs i {}
  if p.boot ≠ d.ccp.boot then
    report (sendAck d i p.src p.sport p.seq 1 d.ccp.epoch []) evHankStaleBoot []
  else if run.fresh p.seq = false then
    match run.kept p.seq with
    | some (st, epoch, entries) =>
      (ccpSend d i p.src p.sport (fun seq => .hankAck p.src p.sport i seq p.seq st epoch entries)).2
    | none => report (d.modCcp (fun c => { c with replay := inc32 c.replay })) evHankReplay []
  else
    let d := d.modIdent i (·.take_ p.seq)
    if p.dply = 0 ∨ p.dply.toNat = d.ply.ply then arrive d p none else forwardHank d p

/-- A QUOTE_REQ (R319): one asked for before START_HOLD waits for it. -/
def takeQuoteReq (d : Dev) (p : CcpPacket) : Dev :=
  if p.length ≠ 52 then ccpFormat d
  else
    let q : Option (BitVec 128 × BitVec 16) × BitVec 8 × BitVec 256 :=
      (some (p.src, p.sport), 0, BitVec.ofNat 256 (natOf p.body))
    if d.phase = .up then answerQuote masterCcp d q else d.modDst (fun x => { x with quoteWait := x.quoteWait ++ [q] })

/-- A whole packet is checked in the order of R193. -/
def takePacket (d : Dev) (p : CcpPacket) : Dev :=
  if packetOk p = false then ccpFormat d
  else if p.type = 5 then takeQuoteReq d p
  else if p.type = 1 ∧ 256 ≤ d.ccp.waiting.length then hankOverflow d
  else
    match kfind d.ccp.idents p.ident.toNat with
    | none => ccpAuthFail d
    | some x =>
      let (ok, d) := invoke d x.skein masterCcp useDecrypt
      if ok = false ∨ p.tagOk = false then ccpAuthFail d
      else if p.type ≠ 1 ∨ 2 ^ 63 ≤ p.seq then ccpFormat d
      else takeHank d p

/-- CCP packets come in at the backhaul ports for DEV_ADDR or the link-local address while the firmware runs (R188, R265); without
a configuration there is the link-local address only (R48). -/
def ccpHears (d : Dev) (port : Port) (p : CcpPacket) : Bool :=
  isBh port && (d.phase == .applied || d.phase == .up)
    && (p.dst == linkLocal d || (d.start.configured && p.dst == d.ply.devAddr))

/-- A fragment arrives (R188): the device after it, and whether its datagram is whole now. -/
def takeFragment (d : Dev) (src : BitVec 128) (f : Fragment) : Dev × Bool :=
  let d := d.modCcp (fun c => { c with reass := c.reass.filter (fun r => decide (d.glb.upNs < r.2.2 + 1000000000)) })
  let same (r : BitVec 128 × Nat × Nat) : Bool := r.1 == src && r.2.1 == f.id
  if d.ccp.reass.any same then
    if f.whole then (d.modCcp (fun c => { c with reass := c.reass.filter (fun r => !same r) }), true) else (d, false)
  else if d.ccp.reass.length < 64 then (d.modCcp (fun c => { c with reass := c.reass ++ [(src, f.id, d.glb.upNs)] }), false)
  else (d, false)

/-- HANK_RECEIVE (R188, R193). Before START_HOLD nothing but a QUOTE_REQ is taken in. -/
def doHankReceive (port : Port) (frag : Option Fragment) (p : CcpPacket) (d : Dev) : Dev :=
  if ccpHears d port p = false ∨ (d.phase ≠ .up ∧ p.type ≠ 5) then d
  else
    match frag with
    | none => takePacket d p
    | some f =>
      match takeFragment d p.src f with
      | (d, true) => takePacket d p
      | (d, false) => d

def execHankReceive (dt : Nat) (port : Port) (frag : Option Fragment) (p : CcpPacket) (s : State) :
    Host.Outcome State Fault Refusal := runCpu dt (doHankReceive port frag p) s

/-- REASSEMBLY_TIMEOUT (R188). -/
def doReassemblyTimeout (src : BitVec 128) (id : Nat) (d : Dev) : Dev :=
  d.modCcp (fun c =>
    { c with reass := c.reass.filter (fun r => !(r.1 == src && r.2.1 == id && decide (r.2.2 + 1000000000 ≤ d.glb.upNs))) })

def execReassemblyTimeout (dt : Nat) (src : BitVec 128) (id : Nat) (s : State) : Host.Outcome State Fault Refusal :=
  run dt (doReassemblyTimeout src id) s

/-- QUOTE_REQ (R319). -/
def doQuoteReq (port : Port) (p : CcpPacket) (d : Dev) : Dev :=
  if ccpHears d port p then (if packetOk p = false ∨ p.type ≠ 5 then ccpFormat d else takeQuoteReq d p) else d

def execQuoteReq (dt : Nat) (port : Port) (p : CcpPacket) (s : State) : Host.Outcome State Fault Refusal :=
  runCpu dt (doQuoteReq port p) s

/-! ## Admission checks of opcodes -/

/-- A deadline of R86 on launch instant `l`, with a lead time in ns. -/
def instantRefused (d : Dev) (l lead : Nat) : Option Status :=
  let w := d.whl
  let timed := w.state == .locked || (w.state == .holdover && !d.evt.live evHoldoverLimit)
  if timed = false then some .time
  else if l < w.time + lead then some .lead
  else if w.time + 86400000000000 < l then some .range
  else if 256 ≤ w.launches.length then some .throwFull
  else none

/-- Present members of a group and their largest hop depth (R175). -/
def presentMembers (d : Dev) (g : Nat) : List Nat := (groupMembers d g).filter d.present
def deepest (d : Dev) (l : List Nat) : Nat := l.foldl (fun m i => max m (match d.node? i with | some x => x.depth | none => 0)) 0

/-- Lead time in ns for members of hop depth `h` (R175). -/
def leadNs (p : Pra) (h : Nat) : Nat := (fLeadFixed.get p + h * fLeadHop.get p) * 1000000

/-- The checks of R175, after that of a pending activation (R330). -/
def throwRefused (d : Dev) (g id l : Nat) : Option Status :=
  let m := presentMembers d g
  let h := deepest d m
  if d.img.act.isEmpty = false then some .state
  else if m.isEmpty then some .empty
  else if 8 < h then some .depth
  else if d.whl.launches.any (fun x => x.throwId == id) then some .duplicate
  else instantRefused d l (leadNs d.pra h)

/-- The partner's heartbeat of the last tick shows a role in service (R330). -/
def partnerServes (d : Dev) : Bool :=
  d.ply.lastTick && (match d.ply.last with
    | some h => (match roleOf h.role.toNat with
      | some .paired | some .sender | some .silent | some .solo => true
      | _ => false)
    | none => false)

/-- LOCKED of PRA_OWNER (R327). -/
def ownerLocked (d : Dev) : Bool := bit (d.pra.word 4) 31

/-- The SUPPLY check of R329. -/
def supplyOk (d : Dev) : Bool := decide (40000 ≤ d.pwr.vhold) && d.pwr.holdupPassed

/-- The checks of R330. -/
def activateRefused (d : Dev) (bank : Nat) (alone : Bool) : Option Status :=
  if ownerLocked d then some .locked
  else if d.img.stage.isSome ∨ bank ≠ 1 - d.pra.activeBank ∨ d.pra.bankValid bank = false then some .state
  else if supplyOk d = false then some .supply
  else if d.pra.tokens 3 < 512 then some .noToken
  else if d.whl.nextLaunch < d.whl.time + 60000000000 then some .time
  else if alone ∨ d.ply.partnered = false ∨ partnerServes d then none
  else some .partner

/-- A thread not yet DONE asks node `h` with this TAG (R219). -/
def nodeReqOpen (d : Dev) (h : BitVec 32) (tag : Nat) : Bool :=
  d.ccp.threads.any (fun p => p.2.st != .done && p.2.msg.opcode == 0x20 && p.2.msg.node == h && p.2.msg.tag == tag)

/-- A node-directed command for a node that is not served, or that is away (R216, R292, R293). -/
def nodeRefused (d : Dev) (m : CmdMsg) : Option Status :=
  match d.nodeByHandle m.node with
  | none => some .noNode
  | some (_, x) => if x.away.isSome ∧ m.opcode ≠ 0x20 then some .noNode else none

/-- The opcode's own admission checks (R199). -/
def ownRefused (d : Dev) (m : CmdMsg) (c : Cmd) : Option Status :=
  if (m.opcode = 0x20 ∨ m.opcode = 0x22 ∨ m.opcode = 0x34) ∧ d.glb.power ≠ 3 then some .state
  else if opNode m.opcode ∧ (nodeRefused d m).isSome then nodeRefused d m
  else
    match c with
    | .nodeReq _ _ _ => if nodeReqOpen d m.node m.tag then some .duplicate else none
    | .throw g id l _ => throwRefused d g id l
    | .reelActivate bank alone => activateRefused d bank alone
    | _ => none

/-! ## HANK_ADMIT -/

/-- The first check of R199 that refuses a command of identity `ident`, or the command. -/
def admission (d : Dev) (ident : Nat) (m : CmdMsg) : Status ⊕ Cmd :=
  if opKnown m.opcode = false then .inl .unknownOp
  else
    match m.cmd with
    | none => .inl .format
    | some c =>
      let suits := if opNode m.opcode then handleOk m.node else m.node == 0
      if suits = false then .inl .format
      else if allowed d ident m.opcode m.node = false then .inl .denied
      else if 131072 ≤ d.ccp.inUse then .inl .busy
      else
        match ownRefused d m c with
        | some st => .inl st
        | none => .inr c

/-- The fence set of a command (R208): threads not yet DONE. -/
def fenceSet (d : Dev) (w : WaitHank) (m : CmdMsg) : List Nat :=
  let in_ (th : Nat) (t : Thread) : Bool :=
    (m.fence.getLsbD 0 && w.ths.contains th)
      || (m.fence.getLsbD 1 && m.node != 0 && t.msg.node == m.node)
      || m.fence.getLsbD 2
      || (m.fence.getLsbD 3 && epochOlder t.epoch d.ccp.epoch)
  (d.ccp.threads.filter (fun p => p.2.st != .done && in_ p.1 p.2)).map (·.1)

/-- A throw is held (R87, R175, R177): its message is shared with the other side. -/
def holdThrow (d : Dev) (th g id l : Nat) (action : List Byte) : Dev :=
  let members := groupMembers d g
  let x : Launch :=
    { at_ := l, throwId := id, group := g, action := action, th := th, members := members,
      absent := members.filter (fun i => !d.present i), armed := [], refused := [], extra := [], copies := Four.all 0,
      lastCopy := Four.all none, leadHop := fLeadHop.get d.pra, admitted := d.whl.time }
  submitRec (d.modWhl (fun w => { w with launches := w.launches ++ [x] })) (throwRec d id g l action)

/-- A command takes the lowest free thread (R202, R203). A throw waits for nothing but its instant. -/
def takeThread (d : Dev) (w : WaitHank) (m : CmdMsg) (c : Cmd) : Dev × Nat :=
  let th := firstFree 0 d.ccp.threads
  let fence := fenceSet d w m
  let held : Bool := match c with | .throw _ _ _ _ => true | _ => false
  let tmo := if m.tmo = 0 then fDefaultTmo.get d.pra else m.tmo
  let t : Thread :=
    { st := if fence.isEmpty then (if held then .running else .ready) else .fenced, msg := m, cmd := c, ident := w.ident,
      hseq := w.hseq, idx := w.next, epoch := d.ccp.epoch, adm := d.ccp.nextAdm, admAt := d.whl.time,
      tmoAt := if held then none else some (d.glb.upNs + tmo * 10000000), fence := fence,
      started := fence.isEmpty && held, src := w.src, sport := w.sport, via := w.via }
  let d := d.modCcp (fun x =>
    { x with threads := kput x.threads th t, nextAdm := x.nextAdm + 1, hwm := max x.hwm (x.inUse + 1) })
  let d := threadsWatch d
  let d := match c with
    | .throw g id l action => holdThrow d th g id l action
    | .reelActivate bank alone => d.modImg (fun i => { i with act := i.act ++ [(th, bank, alone)] })
    | _ => d
  (d, th)

/-- The next command of a hank is admitted or refused (R199). -/
def admitNext (d : Dev) (w : WaitHank) (m : CmdMsg) : Dev × WaitHank :=
  match admission d w.ident m with
  | .inl st =>
    let d := if st = .busy then d.modCcp (fun c => { c with busy := inc32 c.busy }) else d
    (d, { w with next := w.next + 1, entries := w.entries ++ [(st.num, 0)] })
  | .inr c =>
    let (d, th) := takeThread d w m c
    (d, { w with next := w.next + 1, entries := w.entries ++ [(0, th)], ths := w.ths ++ [th] })

/-- The commands still to be admitted, in hank order (R199, R200). -/
def admitRest (d : Dev) (w : WaitHank) : Dev × WaitHank :=
  (w.cmds.drop w.next).foldl (fun x m => admitNext x.1 x.2 m) (d, w)

/-- HANK_ADMIT (R198, R199): what is left of the hank that waits longest is admitted, and the hank acknowledged. -/
def doHankAdmit (d : Dev) : Dev :=
  match d.ccp.waiting with
  | [] => d
  | w :: rest =>
    if d.phase = .up then
      let (d, w) := admitRest (d.modCcp (fun c => { c with waiting := rest })) w
      sendAck d w.ident w.src w.sport w.hseq 0 d.ccp.epoch w.entries
    else d

def execHankAdmit (dt : Nat) (s : State) : Host.Outcome State Fault Refusal := run dt doHankAdmit s

/-- The hank that waits longest has a command of opcode `op` next: it is admitted or refused. -/
def admitOne (op : Nat) (d : Dev) : Dev :=
  match d.ccp.waiting with
  | [] => d
  | w :: rest =>
    match w.cmds[w.next]? with
    | some m =>
      if m.opcode = op ∧ d.phase = .up then
        let (d, w) := admitNext d w m
        d.modCcp (fun c => { c with waiting := w :: rest })
      else d
    | none => d

/-- THROW (R86, R175). -/
def doThrowCmd (d : Dev) : Dev := admitOne 0x22 d

def execThrowCmd (dt : Nat) (s : State) : Host.Outcome State Fault Refusal := run dt doThrowCmd s

/-- REEL_ACTIVATE (R330). -/
def doReelActivate (d : Dev) : Dev := admitOne 0x61 d

def execReelActivate (dt : Nat) (s : State) : Host.Outcome State Fault Refusal := run dt doReelActivate s

/-! ## Threads in time -/

/-- THREAD_TIMEOUT (R203). -/
def doThreadTimeout (th : Nat) (d : Dev) : Dev :=
  match d.thread? th with
  | none => d
  | some t =>
    match t.tmoAt with
    | some x => if t.st ≠ .done ∧ x ≤ d.glb.upNs then finish d th .timeout [] else d
    | none => d

def execThreadTimeout (dt : Nat) (th : Nat) (s : State) : Host.Outcome State Fault Refusal := run dt (doThreadTimeout th) s

/-- THREAD_RETAIN_EXPIRE (R205, R222): by the RETAIN in force at DONE. -/
def doThreadRetainExpire (th : Nat) (d : Dev) : Dev :=
  match d.thread? th with
  | none => d
  | some t => if t.st = .done ∧ t.doneUp + t.retain * 1000000000 ≤ d.glb.upNs then freeThread d th else d

def execThreadRetainExpire (dt : Nat) (th : Nat) (s : State) : Host.Outcome State Fault Refusal :=
  run dt (doThreadRetainExpire th) s

/-- COMPLETE_ACK sends no record of its own (R205). -/
def Thread.silent (t : Thread) : Bool := t.msg.opcode == 0x06

/-- The first threads of a list that go to one destination and whose records fit in `room` octets (R188, R189). -/
def packRecords (d : Dev) (key : Nat × BitVec 128 × BitVec 16) : Nat → List Nat → List (Nat × List Byte)
  | _, [] => []
  | room, th :: rest =>
    match d.thread? th with
    | none => []
    | some t =>
      let r := completionRecord th t
      if (t.ident, t.src, t.sport) = key ∧ r.length ≤ room then (th, r) :: packRecords d key (room - r.length) rest else []

/-- COMPLETION_SEND (R205): one packet with the records that come first in the order of DONE; each is sent once. Threads of
COMPLETE_ACK are freed instead. -/
def doCompletionSend (d : Dev) : Dev :=
  let quiet := d.ccp.doneQ.filter (fun th => match d.thread? th with | some t => t.silent | none => true)
  let d := each quiet freeThread d
  match d.ccp.doneQ with
  | [] => d
  | th :: _ =>
    match d.thread? th with
    | none => d
    | some t =>
      let l := packRecords d (t.ident, t.src, t.sport) 8156 d.ccp.doneQ
      let d := (ccpSend d t.ident t.src t.sport (fun seq => .completion t.src t.sport t.ident seq (l.map (·.2)))).2
      let d := each (l.map (·.1)) (fun d th => d.modThread th (fun t => { t with sent := true })) d
      d.modCcp (fun c => { c with doneQ := c.doneQ.drop l.length })

def execCompletionSend (dt : Nat) (s : State) : Host.Outcome State Fault Refusal := run dt doCompletionSend s

/-! ## Registers of THR and CCP (R223) -/

/-- A read of the register of THR at offset `o`. -/
def readThr (d : Dev) (o : Nat) : Option Word :=
  let c := d.ccp
  let num (n : Nat) : Option Word := some (BitVec.ofNat 32 n)
  match o with
  | 0 => num c.inUse
  | 4 => num c.fenced
  | 8 => num c.hwm
  | 0x10 => num c.busy
  | 0x14 => num c.timeouts
  | 0x18 => num c.revoked
  | _ => none

/-- A write of THR_HWM (R223). -/
def writeThrHwm (d : Dev) (v : Word) : Dev × Status :=
  (if bit v 31 then d.modCcp (fun c => { c with hwm := c.inUse }) else d, .ok)

/-- A write of the register of THR at offset `o`. -/
def writeThr (d : Dev) (o : Nat) (v : Word) : Option (Dev × Status) :=
  if o = 8 then some (writeThrHwm d v) else if (readThr d o).isSome then some (d, .ok) else none

/-- THR_HWM_CLR (R223). -/
def doThrHwmClr (v : Word) (d : Dev) : Dev := regRow (fun d => writeThrHwm d v) d

def execThrHwmClr (dt : Nat) (v : Word) (s : State) : Host.Outcome State Fault Refusal := run dt (doThrHwmClr v) s

/-- A read of the register of CCP at offset `o`. -/
def readCcp (d : Dev) (o : Nat) : Option Word :=
  let c := d.ccp
  let num (n : Nat) : Option Word := some (BitVec.ofNat 32 n)
  match o with
  | 0 => some c.boot
  | 4 => num c.epoch
  | 0x10 => num c.rxOk
  | 0x14 => num c.authFail
  | 0x18 => num c.replay
  | 0x1C => num c.overflow
  | 0x20 => num c.format
  | _ =>
    match index? o 0x100 4 16 with
    | some i =>
      some (match kfind c.idents i with | some x => pack [(31, 1), (16, x.skein), (0, b2n x.notice)] | none => 0)
    | none => none

/-- A write of the register of CCP at offset `o`: each is read-only. -/
def writeCcp (d : Dev) (o : Nat) : Option (Dev × Status) := if (readCcp d o).isSome then some (d, .ok) else none

end Sys2Proof.Machine
end

