-- ==== Sys2Proof/Machine/Loom.lean ====
section
/-! DEFINITION. Visitors, forwarded hanks and relayed requests of the loom (R292, R293). -/

namespace Sys2Proof.Machine

/-! ## Visitors (R292) -/

/-- VISIT_Q_RECEIVE: the master of the node's home ply answers with its handle. -/
def doVisitQReceive (h : LinkHeader) (ply : BitVec 8) (eui : BitVec 64) (d : Dev) : Dev :=
  loomIn d h ply fun d =>
    match d.nodeByEui eui with
    | some (_, x) =>
      if d.ply.master ∧ x.visitor = false ∧ ply.toNat ≠ d.ply.ply then
        loomSend d (.side ply.toNat (h.side.getLsbD 0)) (.visitA ply.toNat eui x.handle)
      else d
    | none => d

def execVisitQReceive (dt : Nat) (h : LinkHeader) (ply : BitVec 8) (eui : BitVec 64) (s : State) :
    Host.Outcome State Fault Refusal := runCpu dt (doVisitQReceive h ply eui) s

/-- Two seconds, in ns. -/
def visitWait : Nat := 2000000000

/-- VISIT_A_RECEIVE (R292, R294): within 2 s the joining node becomes a visitor; a second answer from another ply is a
conflict. -/
def doVisitAReceive (h : LinkHeader) (ply : BitVec 8) (eui : BitVec 64) (handle : BitVec 32) (d : Dev) : Dev :=
  loomIn d h ply fun d =>
    if d.ply.master = false ∨ handleOk handle = false then d
    else
      match d.wrp.visits.find? (fun v => v.eui == eui) with
      | some v =>
        if d.glb.upNs ≤ v.since + visitWait then joinNode (dropVisit d eui) eui v.path (some handle) else d
      | none =>
        match d.nodeByEui eui with
        | some (_, x) => if x.visitor ∧ x.home ≠ handlePly handle then report d evPlyConflict [] else d
        | none => d

def execVisitAReceive (dt : Nat) (h : LinkHeader) (ply : BitVec 8) (eui : BitVec 64) (handle : BitVec 32) (s : State) :
    Host.Outcome State Fault Refusal := runCpu dt (doVisitAReceive h ply eui handle) s

/-- VISIT_TIMEOUT (R292): without an answer this ply becomes the node's home. -/
def doVisitTimeout (eui : BitVec 64) (d : Dev) : Dev :=
  match d.wrp.visits.find? (fun v => v.eui == eui) with
  | some v =>
    if d.ply.master ∧ v.since + visitWait ≤ d.glb.upNs then joinNode (dropVisit d eui) eui v.path none else d
  | none => d

def execVisitTimeout (dt : Nat) (eui : BitVec 64) (s : State) : Host.Outcome State Fault Refusal :=
  run dt (doVisitTimeout eui) s

/-- WHERE_RECEIVE (R292): the home ply notes the serving ply of a node of its own; 0 from that ply ends it, and the node's
index is dormant. VISITOR is reported at each change. -/
def doWhereReceive (h : LinkHeader) (ply : BitVec 8) (handle : BitVec 32) (serving : BitVec 8) (d : Dev) : Dev :=
  loomIn d h ply fun d =>
    match d.nodeByHandle handle with
    | none => d
    | some (i, x) =>
      if x.visitor then d
      else if serving = 0 then
        match x.away with
        | some (k, _) =>
          if k = ply.toNat then report (sleepNode (d.modNode i (fun x => { x with away := none })) i) evVisitor [] else d
        | none => d
      else
        let moved : Bool := match x.away with | some (k, _) => k != serving.toNat | none => true
        let d := d.modNode i (fun x => { x with away := some (serving.toNat, d.glb.upNs), path := none, dormantSince := none })
        if moved then report d evVisitor [] else d

def execWhereReceive (dt : Nat) (h : LinkHeader) (ply : BitVec 8) (handle : BitVec 32) (serving : BitVec 8) (s : State) :
    Host.Outcome State Fault Refusal := runCpu dt (doWhereReceive h ply handle serving) s

/-- WHERE_REFRESH (R292): every 600 s while the visitor is served. -/
def doWhereRefresh (i : Nat) (d : Dev) : Dev :=
  match d.node? i with
  | none => d
  | some x =>
    if d.ply.master ∧ x.visitor ∧ x.present d.glb.upNs ∧ x.whereAt ≤ d.glb.upNs then
      (tellWhere d x d.ply.ply).modNode i (fun x => { x with whereAt := d.glb.upNs + 600000000000 })
    else d

def execWhereRefresh (dt : Nat) (node : Nat) (s : State) : Host.Outcome State Fault Refusal := run dt (doWhereRefresh node) s

/-- HOME_LEASE_EXPIRE (R292): an index reserved for a node that WHERE has not named for HOME_LEASE days is released. -/
def doHomeLeaseExpire (i : Nat) (d : Dev) : Dev :=
  match d.node? i with
  | none => d
  | some x =>
    match x.away with
    | some (_, t) =>
      if d.ply.master ∧ t + fHomeLease.get d.pra * 86400000000000 ≤ d.glb.upNs then
        report (releaseNode d i) evVisitor []
      else d
    | none => d

def execHomeLeaseExpire (dt : Nat) (node : Nat) (s : State) : Host.Outcome State Fault Refusal :=
  run dt (doHomeLeaseExpire node) s

/-! ## Forwarded hanks and relays (R293) -/

/-- FWD_RECEIVE: the inner hank is admitted under this device's own policy for its identity; the loom tag stands for the
hank's own checks. -/
def doFwdReceive (h : LinkHeader) (ply : BitVec 8) (p : CcpPacket) (d : Dev) : Dev :=
  loomIn d h ply fun d =>
    if p.type ≠ 1 ∨ p.dply.toNat ≠ d.ply.ply then plyReject d
    else if 256 ≤ d.ccp.waiting.length then hankOverflow d
    else if (kfind d.ccp.idents p.ident.toNat).isNone then ccpAuthFail d
    else arrive d p (some ply.toNat)

def execFwdReceive (dt : Nat) (h : LinkHeader) (ply : BitVec 8) (p : CcpPacket) (s : State) :
    Host.Outcome State Fault Refusal := runCpu dt (doFwdReceive h ply p) s

/-- The record of a datagram from the DODAGID, port 47,602, to a node (R218, R219). -/
def nodeDatagram (d : Dev) (k : RecKind) (i : Nat) (dport : BitVec 16) (data : List Byte) : DownRec :=
  let eui : BitVec 64 := match d.node? i with | some x => x.eui | none => 0
  packetRec d k (some i) (udpPacket (meshAddr d) (nodeAddr d eui) 47602 dport.toNat 64 data)

/-- The record of a NODE_REQ (R219): TAG and DATA in one datagram. -/
def nodeReqRec (d : Dev) (i : Nat) (dport : BitVec 16) (tag : Nat) (data : List Byte) : DownRec :=
  nodeDatagram d (.nodeReq tag) i dport (octets 4 tag ++ data)

/-- RELAY_RECEIVE: a NODE_REQ of another ply for a node served here. -/
def doRelayReceive (h : LinkHeader) (ply : BitVec 8) (handle : BitVec 32) (dport : BitVec 16) (tag : Nat) (noReply : Bool)
    (data : List Byte) (d : Dev) : Dev :=
  loomIn d h ply fun d =>
    match d.nodeByHandle handle with
    | none => loomSend d (.ply ply.toNat) (.relayRes ply.toNat handle tag Status.noNode.num [])
    | some (i, _) =>
      let others (x : Nat × Nat × Nat × Bool) : Bool := !(x.1 == ply.toNat && x.2.1 == i && x.2.2.1 == tag)
      submitRec (d.modPly (fun p => { p with relays := p.relays.filter others ++ [(ply.toNat, i, tag, noReply)] }))
        (nodeReqRec d i dport tag data)

def execRelayReceive (dt : Nat) (h : LinkHeader) (ply : BitVec 8) (handle : BitVec 32) (dport : BitVec 16) (tag : Nat)
    (noReply : Bool) (data : List Byte) (s : State) : Host.Outcome State Fault Refusal :=
  runCpu dt (doRelayReceive h ply handle dport tag noReply data) s

/-- The running NODE_REQ threads to a node handle with a TAG. -/
def nodeReqThreads (d : Dev) (handle : BitVec 32) (tag : Nat) (pick : Thread → Bool) : List Nat :=
  (d.ccp.threads.filter (fun p =>
    p.2.st == .running && p.2.msg.opcode == 0x20 && p.2.msg.node == handle && p.2.msg.tag == tag && pick p.2)).map (·.1)

/-- RELAY_RES_RECEIVE: the thread completes with the result that comes first. A value that is no status is none of the device's
(R201), and the message is dropped. -/
def doRelayResReceive (h : LinkHeader) (ply : BitVec 8) (handle : BitVec 32) (tag : Nat) (status : BitVec 8)
    (data : List Byte) (d : Dev) : Dev :=
  loomIn d h ply fun d =>
    match statusOf status.toNat with
    | some st => each (nodeReqThreads d handle tag (·.relayed)) (fun d th => finish d th st data) d
    | none => plyReject d

def execRelayResReceive (dt : Nat) (h : LinkHeader) (ply : BitVec 8) (handle : BitVec 32) (tag : Nat) (status : BitVec 8)
    (data : List Byte) (s : State) : Host.Outcome State Fault Refusal :=
  runCpu dt (doRelayResReceive h ply handle tag status data) s

end Sys2Proof.Machine
end

