-- ==== Sys2Proof/Machine/Registers.lean ====
section
/-! DEFINITION. The registers of GLB, PWR, EVT, DST, IMG and PRA (R12, R299, R321, R338, R371 to R373), log entries as octets
(R351), and the row that clears STICKY (R347). -/

namespace Sys2Proof.Machine

/-! ## GLB and PWR -/

/-- GLB_SELFTEST (blocks 0 to 15) or GLB_SELFTEST_HI (16 and up) (R368). -/
def selftestWord (d : Dev) (hi : Bool) : Word :=
  pack ((d.glb.selftest.filter (fun p => decide (16 ≤ p.1) == hi && decide (p.1 < 32))).map
    (fun p => (2 * (p.1 % 16), p.2.toNat)))

/-- GLB_POWER (R371). -/
def powerWord (d : Dev) : Word :=
  let g := d.glb
  pack [(28, g.power), (27, b2n g.tripped), (26, b2n g.tripInput), (25, b2n g.tripThermal)]

/-- GLB_SPARES (R371). -/
def sparesWord (d : Dev) : Word := pack [(16, d.glb.spareThread), (0, d.glb.spareNode)]

/-- GLB_UPTIME in seconds (R371). -/
def uptime (d : Dev) : Nat := d.glb.upNs / 1000000000 % 2 ^ 32

/-- A read of the register of GLB at offset `o`. -/
def readGlb (d : Dev) (o : Nat) : Option Word :=
  let g := d.glb
  let num (n : Nat) : Option Word := some (BitVec.ofNat 32 n)
  match o with
  | 0 => some (pack [(16, 0x4800), (12, g.ctrlStep.toNat), (8, g.radioStep.toNat), (4, g.powerStep.toNat)])
  | 4 => num (g.eui.toNat / 2 ^ 32)
  | 8 => num g.eui.toNat
  | 0xC => num (uptime d)
  | 0x10 => some (powerWord d)
  | 0x14 => some (selftestWord d false)
  | 0x18 => some (selftestWord d true)
  | 0x100 => num g.sramPass
  | 0x104 => num g.dramPass
  | 0x108 => num g.corr
  | 0x10C => num g.uncorr
  | 0x110 => num g.retired
  | 0x114 => some (sparesWord d)
  | _ => none

/-- PWR_TEMPd (R372). -/
def tempWord (d : Dev) (i : Nat) : Word :=
  let t := match spindle? i with | some n => d.pwr.temps.get n | none => 0
  pack [(18, b2n (d.evt.liveAt evThermalTrip i)), (17, b2n (d.evt.liveAt evThermalThrottle i)),
    (16, b2n (d.evt.liveAt evThermalWarn i)), (0, toTwos 16 t)]

/-- A read of the register of PWR at offset `o`. -/
def readPwr (d : Dev) (o : Nat) : Option Word :=
  if o = 0 then some (pack [(24, d.pwr.cause), (20, d.pwr.rail)])
  else if o = 4 then some (BitVec.ofNat 32 (d.pwr.vhold / 10 % 65536))
  else if o = 8 then some (BitVec.ofNat 32 (d.pwr.pin % 65536))
  else (index? o 0x10 4 4).map (tempWord d)

/-! ## EVT -/

/-- EVT_SRCe; that of a reserved source reads 0 (R347, R373). -/
def srcWord (d : Dev) (e : Nat) : Word :=
  let s := d.evt.src e
  if evReserved e then 0
  else
    pack [(31, b2n s.sticky), (30, b2n !s.live.isEmpty), (29, b2n (evWatermark e)), (28, b2n s.noticeEn), (27, b2n s.evtnEn),
      (0, s.count)]

/-- A word with one bit for each of 32 sources. -/
def srcBits (w : Nat) (f : Nat → Bool) : Word := pack ((List.range 32).map (fun j => (j, b2n (f (32 * w + j)))))

/-- A read of the register of EVT at offset `o`. -/
def readEvt (d : Dev) (o : Nat) : Option Word :=
  let v := d.evt
  if o = 0 then some (pack [(31, b2n v.evtn), (0, v.stickyN)])
  else if o = 4 then some (BitVec.ofNat 32 v.head)
  else if o = 0x10 then some (BitVec.ofNat 32 v.noticeLost)
  else
    match index? o 0x100 4 16, index? o 0x200 4 16, index? o 0x1000 4 512 with
    | some w, _, _ => some (srcBits w v.sticky)
    | none, some w, _ => some (srcBits w v.live)
    | none, none, some e => some (srcWord d e)
    | none, none, none => none

/-- A write of EVT_SRCe (R347, R373). -/
def writeSrc (d : Dev) (e : Nat) (v : Word) : Dev :=
  if evReserved e then d
  else
    let x := if bit v 31 then d.evt.clearSticky d.pwr.wall e else d.evt
    { d with evt := x.modSrc e (fun s => { s with noticeEn := bit v 28, evtnEn := bit v 27 }) }

/-- A write of EVT_STICKYw (R373). -/
def writeSticky (d : Dev) (w : Nat) (v : Word) : Dev :=
  each (List.range 32) (fun d j => if bit v j then { d with evt := d.evt.clearSticky d.pwr.wall (32 * w + j) } else d) d

/-- A write of the register of EVT at offset `o`. -/
def writeEvt (d : Dev) (o : Nat) (v : Word) : Option (Dev × Status) :=
  match index? o 0x100 4 16, index? o 0x1000 4 512 with
  | some w, _ => some (writeSticky d w v, .ok)
  | none, some e => some (writeSrc d e v, .ok)
  | none, none => if (readEvt d o).isSome then some (d, .ok) else none

/-- EVT_STICKY_CLEAR (R347): a write of EVT_STICKYw or EVT_SRCe; any other address names neither. -/
def doEvtStickyClear (addr : Nat) (v : Word) (d : Dev) : Dev :=
  match block? addr with
  | some (.evt, o) =>
    if (index? o 0x100 4 16).isSome ∨ (index? o 0x1000 4 512).isSome then
      match writeEvt d o v with | some r => regRow (fun _ => r) d | none => d
    else d
  | _ => d

def execEvtStickyClear (dt : Nat) (addr : Nat) (v : Word) (s : State) : Host.Outcome State Fault Refusal :=
  run dt (doEvtStickyClear addr v) s

/-! ## DST -/

/-- DST_SKs (R321). -/
def skeinWord (d : Dev) (s : Nat) : Word :=
  let c := d.pra.word (commitWord s)
  pack [(30, commitHalf c), (29, b2n (skeinDisabled d s)), (28, b2n (skeinPrev d s)), (0, commitGen c)]

/-- DISTRICT of a skein; 0 where it holds no key. -/
def skeinDistrict (d : Dev) (s : Nat) : BitVec 16 := match kfind d.dst.skeins s with | some k => k.district | none => 0

/-- A read of the register of DST at offset `o`. -/
def readDst (d : Dev) (o : Nat) : Option Word :=
  let x := d.dst
  let num (n : Nat) : Option Word := some (BitVec.ofNat 32 n)
  match o with
  | 0 => some (pack [(31, b2n x.rngOk), (30, b2n (keyBusy d)), (29, b2n x.mdLocked), (0, x.cache.length)])
  | 0x10 => num x.derive_
  | 0x14 => num x.cacheMiss
  | 0x18 => num x.attrRefuse
  | 0x1C => num x.quoteDrop
  | _ =>
    match index? o 0x1000 4 256, index? o 0x2000 4 256, index? o 0x3000 4 256, index? o 0x4000 4 128 with
    | some s, _, _, _ => some (skeinAttr d s)
    | none, some s, _, _ => some (skeinWord d s)
    | none, none, some s, _ => some ((skeinDistrict d s).setWidth 32)
    | none, none, none, some k =>
      if k % 16 < 12 then num ((x.md.getD (k / 16) 0).toNat / 2 ^ (32 * (11 - k % 16))) else none
    | none, none, none, none => none

/-! ## IMG -/

/-- IMG_STATUS (R338). -/
def imgStatus (d : Dev) : Word :=
  let i := d.img
  let op := if i.stage.isSome then 1 else if i.act.isEmpty = false ∨ i.actReset.isSome then 2 else 0
  pack [(31, b2n (op != 0)), (29, op), (28, b2n i.media), (16, i.blocks % 256), (8, i.last), (0, i.running)]

/-- A read of the register of IMG at offset `o`. -/
def readImg (d : Dev) (o : Nat) : Option Word :=
  match o with
  | 0 => some (imgStatus d)
  | 0x10 => some d.img.info0
  | 0x14 => some d.img.ver0
  | 0x18 => some d.img.info1
  | 0x1C => some d.img.ver1
  | _ => none

/-! ## PRA -/

/-- The operator's words (R12), those that only the firmware writes of itself among them (log 130). -/
def operatorWord (n : Nat) : Bool := decide (0x400 ≤ n)

/-- A read of the word of PRA at offset `o` (R12). -/
def readPra (d : Dev) (o : Nat) : Option Word := (index? o 0 4 8192).map d.pra.word

end Sys2Proof.Machine
end

