-- ==== Sys2Proof/Machine/Requests.lean ====
section
/-! DEFINITION. CCP commands that run in the CCP engine and the firmware: queries (R59, R217, R366, R367), node requests (R219),
throw groups (R174), bulk objects (R218) and policy (R210 to R214). -/

namespace Sys2Proof.Machine

/-! ## Queries -/

/-- A wear record (R59). -/
def wearRecord (d : Dev) (n : Nat) : List Byte :=
  let p := d.pra
  octets 2 n ++ octets 2 (2 * b2n (decide (p.tokens n < 256)) + b2n !(operatorWord n)) ++ octets 4 (p.wearOf n)
    ++ octets 2 (p.tokens n) ++ octets 2 0 ++ octets 4 (min 7999 ((p.refillAt - d.glb.upNs) / 1000000))

/-- PRA_INFO (R54, R59, R217): refills that have fallen due are taken first. -/
def doPraInfo (th : Nat) (d : Dev) : Dev :=
  runThread d th (fun c => match c with | .praInfo f n => some (f, n) | _ => none) fun d _ a =>
    let d := praDue d
    finish d th .ok (((List.range a.2).map (fun i => wearRecord d (a.1 + i))).flatten)

def execPraInfo (dt : Nat) (th : Nat) (s : State) : Host.Outcome State Fault Refusal := run dt (doPraInfo th) s

/-- PFLAGS (R367). -/
def partnerFlags (d : Dev) : Nat :=
  let p := d.ply
  let fault : Bool := match p.last with | some h => h.fault | none => false
  16 * b2n p.aligned + 8 * b2n p.pfail + 4 * b2n fault + 2 * b2n (p.lastTick && p.missB == 0) + b2n (p.lastTick && p.missA == 0)

/-- The SUMMARY of the health report (R367). -/
def healthSummary (d : Dev) : List Byte :=
  let s := d.start
  let temp (n : Fin 4) : List Byte := octets 1 (toTwos 8 (d.pwr.temps.get n / 10))
  let last (f : Heartbeat → Nat) : Nat := match d.ply.last with | some h => f h | none => 0
  let prole := match d.ply.prole with | some r => Role.num r | none => 15
  octets 1 1 ++ octets 1 ((powerWord d).toNat >>> 24) ++ octets 1 (Role.num d.ply.role) ++ octets 1 d.pwr.cause
    ++ octets 4 (uptime d) ++ octets 8 (if s.configured then s.serial else 0) ++ octets 1 s.cfgCode ++ octets 1 0
    ++ octets 2 s.cfgRecord ++ octets 4 s.cfgOffset ++ octets 4 (selftestWord d false).toNat
    ++ (spindles.map temp).flatten ++ octets 2 (d.pwr.vhold / 10) ++ octets 2 d.pwr.pin ++ octets 2 (settingsBad d.pra)
    ++ octets 2 0 ++ octets 4 d.glb.ptpDiscard ++ octets 4 d.glb.rplDeep ++ octets 4 d.evt.head ++ octets 2 d.evt.stickyN
    ++ octets 2 d.evt.liveN ++ octets 1 prole ++ octets 1 (partnerFlags d) ++ octets 1 (last (·.power.toNat))
    ++ octets 1 (last (·.whorl.toNat)) ++ octets 4 (last (·.spn.toNat)) ++ octets 4 d.glb.sramPass ++ octets 4 d.glb.dramPass
    ++ octets 4 d.glb.corr ++ octets 4 d.glb.uncorr ++ octets 4 d.glb.retired ++ octets 4 (sparesWord d).toNat
    ++ octets 4 (selftestWord d true).toNat

/-- HEALTH_SUMMARY (R366, R367). -/
def doHealthSummary (th : Nat) (d : Dev) : Dev :=
  runThread d th (fun c => match c with | .healthSummary => some () | _ => none) fun d _ _ => finish d th .ok (healthSummary d)

def execHealthSummary (dt : Nat) (th : Nat) (s : State) : Host.Outcome State Fault Refusal := run dt (doHealthSummary th) s

/-- The result of HEALTH LOG (R366). -/
def healthLog (v : Evt) (count first : Nat) : List Byte :=
  let oldest := v.head - 4096
  let top := min (first + count) v.head
  let from_ := max first oldest
  let l := v.log.reverse.filter (fun e => decide (from_ ≤ e.index) && decide (e.index < top))
  octets 4 from_ ++ octets 2 l.length ++ octets 2 (min oldest top - first) ++ (l.map (·.octets_)).flatten

/-- HEALTH_LOG (R366). -/
def doHealthLog (th : Nat) (d : Dev) : Dev :=
  runThread d th (fun c => match c with | .healthLog n f => some (n, f) | _ => none) fun d _ a =>
    finish d th .ok (healthLog d.evt a.1 a.2)

def execHealthLog (dt : Nat) (th : Nat) (s : State) : Host.Outcome State Fault Refusal := run dt (doHealthLog th) s

/-- STATE of a thread in THREAD_QUERY (R217). -/
def ThrState.num : ThrState → Nat
  | .fenced => 1
  | .ready => 2
  | .running => 3
  | .done => 4

/-- THREAD_QUERY (R211, R217). -/
def doThreadQuery (th : Nat) (d : Dev) : Dev :=
  runThread d th (fun c => match c with | .threadQuery n => some n | _ => none) fun d t n =>
    match d.thread? n with
    | none => finish d th .ok (octets 4 0)
    | some x =>
      if x.ident ≠ t.ident then finish d th .denied []
      else finish d th .ok (octets 1 (ThrState.num x.st) ++ octets 3 0 ++ (if x.st = .done then completionRecord n x else []))

def execThreadQuery (dt : Nat) (th : Nat) (s : State) : Host.Outcome State Fault Refusal := run dt (doThreadQuery th) s

/-- COMPLETE_ACK (R205, R211): threads of another identity and threads not DONE are ignored; its own thread is freed. -/
def doCompleteAck (th : Nat) (d : Dev) : Dev :=
  runThread d th (fun c => match c with | .completeAck l => some l | _ => none) fun d t l =>
    let ack (d : Dev) (n : Nat) : Dev :=
      match d.thread? n with
      | some x => if x.st = .done ∧ x.ident = t.ident then freeThread d n else d
      | none => d
    freeThread (finish (each l ack d) th .ok []) th

def execCompleteAck (dt : Nat) (th : Nat) (s : State) : Host.Outcome State Fault Refusal := run dt (doCompleteAck th) s

/-! ## Node requests and throw groups -/

/-- NODE_REQ (R219, R293): a datagram to the node, or a RELAY to the ply that serves it. -/
def doNodeReq (th : Nat) (d : Dev) : Dev :=
  runThread d th (fun c => match c with | .nodeReq p nr l => some (p, nr, l) | _ => none) fun d t a =>
    match d.nodeByHandle t.msg.node with
    | none => finish d th .nodeFail []
    | some (i, x) =>
      match x.away with
      | none => submitRec d (nodeReqRec d i a.1 t.msg.tag a.2.2)
      | some (k, _) =>
        if inLoom d k then
          let d := d.modThread th (fun t => { t with relayed := true })
          loomSend (d.modPly (fun p => { p with relayCnt := inc32 p.relayCnt }))
            (.ply k) (.relay k t.msg.node a.1 t.msg.tag a.2.1 a.2.2)
        else plyReject d

def execNodeReq (dt : Nat) (th : Nat) (s : State) : Host.Outcome State Fault Refusal := run dt (doNodeReq th) s

/-- A thread's NODE_REQ asks for a reply. -/
def Thread.wantsReply (t : Thread) : Bool := match t.cmd with | .nodeReq _ noReply _ => !noReply | _ => false

/-- NODE_REPLY_RECEIVE (R219, R293): the thread, or the ply that relayed the request, has the reply; any other is
discarded. -/
def doNodeReplyReceive (i tag : Nat) (data : List Byte) (d : Dev) : Dev :=
  match d.node? i with
  | none => d
  | some x =>
    let mine (r : Nat × Nat × Nat × Bool) : Bool := r.2.1 == i && r.2.2.1 == tag && !r.2.2.2
    let l := d.ply.relays.filter mine
    let d := d.modPly (fun p => { p with relays := p.relays.filter (fun r => !mine r) })
    let d := each l (fun d r => loomSend d (.ply r.1) (.relayRes r.1 x.handle tag 0 data)) d
    each (nodeReqThreads d x.handle tag (fun t => t.wantsReply && !t.relayed)) (fun d th => finish d th .ok data) d

def execNodeReplyReceive (dt : Nat) (node tag : Nat) (data : List Byte) (s : State) : Host.Outcome State Fault Refusal :=
  runCpu dt (doNodeReplyReceive node tag data) s

/-- THROW_GROUP_SET (R174). -/
def doThrowGroupSet (th : Nat) (d : Dev) : Dev :=
  runThread d th (fun c => match c with | .throwGroupSet g a => some (g, a) | _ => none) fun d t a =>
    match d.nodeByHandle t.msg.node with
    | none => finish d th .noNode []
    | some (i, x) =>
      let (g, add) := a
      if x.groups.contains g = add then finish d th .ok []
      else if add ∧ 8 ≤ x.groups.length then finish d th .range []
      else
        let gs := if add then x.groups ++ [g] else x.groups.filter (· != g)
        finish (streamDelta (d.modNode i (fun x => { x with groups := gs })) (.groups i gs)) th .ok []

def execThrowGroupSet (dt : Nat) (th : Nat) (s : State) : Host.Outcome State Fault Refusal := run dt (doThrowGroupSet th) s

/-! ## Bulk objects (R218) -/

/-- The bulk region, in octets. -/
def bulkRegion : Nat := 134217728

/-- Free octets of the bulk region (R218, R362). -/
def bulkFree (d : Dev) : Nat := bulkRegion - (d.ccp.objs.map (·.2.size)).sum - 4096 * d.glb.retiredPages

/-- OBJ_SPACE_LOW follows the free space. -/
def objWatch (d : Dev) : Dev :=
  let f := bulkFree d
  watch d evObjSpaceLow 0 (decide (f < 16777216)) (decide (33554432 ≤ f)) []

/-- Changes object `o`. -/
def Dev.modObj (d : Dev) (o : Nat) (f : Obj → Obj) : Dev := d.modCcp (fun c => { c with objs := kadj c.objs o f })

/-- The octets of an object from an offset. -/
def Obj.octets_ (x : Obj) (off n : Nat) : List Byte := (List.range n).map (fun i => kgetD x.data (off + i) 0)

/-- Octets are written at an offset. -/
def Obj.write (x : Obj) (off : Nat) (l : List Byte) : Obj :=
  { x with data := (l.foldl (fun a b => (ksetD a.1 a.2 b 0, a.2 + 1)) (x.data, off)).1 }

/-- OBJ_OPEN. -/
def doObjOpen (th : Nat) (d : Dev) : Dev :=
  runThread d th (fun c => match c with | .objOpen o n h => some (o, n, h) | _ => none) fun d _ a =>
    let (o, n, h) := a
    if (kfind d.ccp.objs o).isSome then finish d th .duplicate []
    else if 64 ≤ d.ccp.objs.length ∨ bulkFree d < n then finish d th .noSpace []
    else finish (objWatch (d.modCcp (fun c => { c with objs := kput c.objs o { size := n, digest := h } }))) th .ok []

def execObjOpen (dt : Nat) (th : Nat) (s : State) : Host.Outcome State Fault Refusal := run dt (doObjOpen th) s

/-- OBJ_WRITE. -/
def doObjWrite (th : Nat) (d : Dev) : Dev :=
  runThread d th (fun c => match c with | .objWrite o off l => some (o, off, l) | _ => none) fun d _ a =>
    let (o, off, l) := a
    match kfind d.ccp.objs o with
    | none => finish d th .noObject []
    | some x =>
      if x.closed then finish d th .state []
      else if x.size < off + l.length then finish d th .range []
      else finish (d.modObj o (fun x => x.write off l)) th .ok []

def execObjWrite (dt : Nat) (th : Nat) (s : State) : Host.Outcome State Fault Refusal := run dt (doObjWrite th) s

/-- OBJ_CLOSE. -/
def doObjClose (th : Nat) (d : Dev) : Dev :=
  runThread d th (fun c => match c with | .objClose o => some o | _ => none) fun d _ o =>
    match kfind d.ccp.objs o with
    | none => finish d th .noObject []
    | some x =>
      if Config.sha384 (x.octets_ 0 x.size) = x.digest then finish (d.modObj o (fun x => { x with closed := true })) th .ok []
      else finish d th .digest []

def execObjClose (dt : Nat) (th : Nat) (s : State) : Host.Outcome State Fault Refusal := run dt (doObjClose th) s

/-- A running OBJ_SEND uses object `o`. -/
def Thread.uses (t : Thread) (o : Nat) : Bool := t.st == .running && (match t.cmd with | .objSend x _ _ => x == o | _ => false)

/-- OBJ_DELETE. -/
def doObjDelete (th : Nat) (d : Dev) : Dev :=
  runThread d th (fun c => match c with | .objDelete o => some o | _ => none) fun d _ o =>
    if d.ccp.threads.any (fun p => p.2.uses o) then finish d th .state []
    else finish (objWatch (d.modCcp (fun c => { c with objs := kdel c.objs o }))) th .ok []

def execObjDelete (dt : Nat) (th : Nat) (s : State) : Host.Outcome State Fault Refusal := run dt (doObjDelete th) s

/-- The record of the datagram of an object at an offset (R218). -/
def objRec (d : Dev) (i o off : Nat) (dport : BitVec 16) (data : List Byte) : DownRec :=
  nodeDatagram d (.objBlock o off) i dport (octets 4 o ++ octets 4 off ++ data)

/-- OBJ_SEND. Its reads of the DRAM find `corrected` errors that are corrected inline and counted (R17, R371), and an
uncorrectable one in each block of `poisoned`, whose datagram is poisoned and dropped by its consumer (R31): the thread
goes on owing it (log 125). -/
def doObjSend (th corrected : Nat) (poisoned : List Nat) (d : Dev) : Dev :=
  runThread d th (fun c => match c with | .objSend o p b => some (o, p, b) | _ => none) fun d t a =>
    let (o, dport, blk) := a
    match kfind d.ccp.objs o, d.nodeByHandle t.msg.node with
    | none, _ => finish d th .noObject []
    | some _, none => finish d th .nodeFail []
    | some x, some (i, _) =>
      if x.closed = false then finish d th .state []
      else
        let block (k : Nat) : DownRec :=
          objRec d i o (k * blk) dport (x.octets_ (k * blk) (min blk (x.size - k * blk)))
        let ks := List.range ((x.size + blk - 1) / blk)
        let d := d.modGlb (fun g => { g with corr := add32 g.corr corrected })
        let d := d.modThread th (fun t => { t with owes := ks.map (fun k => (block k).hash) })
        each (ks.filter (fun k => !poisoned.contains k)) (fun d k => submitRec d (block k)) d

def execObjSend (dt : Nat) (th corrected : Nat) (poisoned : List Nat) (s : State) : Host.Outcome State Fault Refusal :=
  run dt (doObjSend th corrected poisoned) s

/-! ## Policy (R210 to R214) -/

/-- POLICY_READ (R217). -/
def doPolicyRead (th : Nat) (d : Dev) : Dev :=
  runThread d th (fun c => match c with | .policyRead f n => some (f, n) | _ => none) fun d _ a =>
    let entry (i : Nat) : List Byte :=
      match kfind d.ccp.policy i with | some p => policyOctets p | none => List.replicate 16 0
    finish d th .ok (octets 2 d.ccp.epoch ++ octets 2 0 ++ ((List.range a.2).map (fun i => entry (a.1 + i))).flatten)

def execPolicyRead (dt : Nat) (th : Nat) (s : State) : Host.Outcome State Fault Refusal := run dt (doPolicyRead th) s

/-- A revoked throw leaves the launch table, and its CANCEL copies are to be sent (R87, R181). -/
def revokeThrow (d : Dev) (th : Nat) : Dev :=
  match d.launchOf th with
  | none => d
  | some l =>
    let x : CancelRec :=
      { throwId := l.throwId, group := l.group, at_ := l.at_, copies := Four.all 0, lastCopy := Four.all none,
        leadHop := l.leadHop }
    let d := (dropLaunch d l).modWhl (fun w => { w with cancels := w.cancels ++ [x] })
    submitRec d (cancelRec d l.throwId l.group)

/-- Threads that a hard revocation ends, in order of admission (R214). -/
def revokedThreads (d : Dev) : List Nat :=
  (sortBy (fun p => p.2.adm) (d.ccp.threads.filter (fun p =>
    p.2.st != .done && epochOlder p.2.epoch d.ccp.epoch && !allowed d p.2.ident p.2.msg.opcode p.2.msg.node))).map (·.1)

/-- POLICY_WRITE threads run in order of admission, 20 ms apart, and never within a hank's admission (R200, R212). -/
def policyTurn (d : Dev) (th : Nat) : Bool :=
  let spaced : Bool := match d.ccp.lastPolicy with | some t => decide (t + 20000000 ≤ d.glb.upNs) | none => true
  let between : Bool := match d.ccp.waiting with | w :: _ => w.next == 0 | [] => true
  inTurn d th (· == 0x40) && spaced && between

/-- POLICY_WRITE (R212, R214). -/
def doPolicyWrite (th : Nat) (d : Dev) : Dev :=
  if policyTurn d th = false then d
  else
    runThread d th (fun c => match c with | .policyWrite i h e => some (i, h, e) | _ => none) fun d _ a =>
      let (i, hard, e) := a
      let d := (putPolicy d i e).modCcp (fun c => { c with epoch := (c.epoch + 1) % 65536, lastPolicy := some d.glb.upNs })
      let d := report d evPolicyChange []
      let result (n : Nat) : List Byte := octets 2 d.ccp.epoch ++ octets 2 0 ++ octets 4 n
      if hard then
        let l := revokedThreads d
        let d := settleFences (each l (fun d t => markDone (revokeThrow d t) t .revoked []) d)
        finish (report d evRevoke (octets 4 l.length)) th .ok (result l.length)
      else finish d th .ok (result 0)

def execPolicyWrite (dt : Nat) (th : Nat) (s : State) : Host.Outcome State Fault Refusal := run dt (doPolicyWrite th) s

end Sys2Proof.Machine
end

