-- ==== Sys2Proof/Machine/Keys.lean ====
section
/-! DEFINITION. Key and life-cycle commands (R308 to R313, R317), the re-mask of working keys (R302) and the health windows of
the noise source (R303). -/

namespace Sys2Proof.Machine

/-! ## Key commands -/

/-- Octets of a wrapped key of a TYPE; none for TYPE 0 (R307, R309). -/
def wrapLen (type : Nat) : Nat := if type = 1 then 24 else if type = 2 then 40 else if type = 3 then 56 else 0

/-- `attr` sets a bit that `old` has clear. -/
def attrAdds (attr old : Word) : Bool := (attr &&& ~~~old) != 0

/-- The checks of R309 before that of WRAPSKEIN. -/
def keyLoadRefused (d : Dev) (s : Nat) (attr : Word) (gen : Nat) : Option Status :=
  let c := d.pra.word (commitWord s)
  let life := d.pra.lifecycle
  let adds : Bool := match kfind d.dst.skeins s with | some k => attrAdds attr k.attr | none => false
  if s < 2 then some .range
  else if d.pwr.pwrfail then some .supply
  else if d.dst.rngOk = false then some .rng
  else if life = 4 then some .state
  else if gen ≤ commitGen c ∨ 0xFFFFFF < gen then some .state
  else if attrConsistent attr = false ∨ bit attr (lifeBit life) = false then some .range
  else if 3 ≤ life ∧ commitHalf c ≠ 0 ∧ adds then some .attr
  else none

/-- A district skein's generation is streamed for information (R280). -/
def streamGen (d : Dev) (s gen : Nat) (district : Bool) : Dev := if district then streamDelta d (.keyGen s gen) else d

/-- Steps 1 to 3 of R310 and what follows: the inactive half takes the record, it is read back, and the commit word is
written. The supply is lost with `steps` of the three done (R311): before 1, the half is not whole; before 3, the commit word
is the old one, and the thread has not ended (log 123). -/
def commitKey (d : Dev) (th s : Nat) (h : Half) (steps : Nat) (readBackOk verifyOk : Bool) : Dev :=
  let code := if commitHalf (d.pra.word (commitWord s)) = 1 then 2 else 1
  let d := d.modDst (fun x => x.putHalf code s { h with intact := readBackOk && decide (0 < steps) })
  if steps < 2 then d
  else if readBackOk = false then finish (report d evKeyVerifyFail []) th .verify []
  else if steps < 3 then d
  else
    match praFinish d (commitWord s) (pack [(30, code), (0, h.gen)]) verifyOk with
    | (d, .ok) =>
      let d := report (dropCache (loadHalf d s h) s) evKeyCommit []
      let d := streamGen d s h.gen (bit h.attr useDerive && bit h.attr masterLink)
      finish d th .ok (keyKcv (attrType h.attr) h.key)
    | (d, st) => finish d th st []

/-- A command that writes the array within its step may run (R51): the writes that reached the array before its own are
done. While they are not, its step has not come (log 18). -/
def writeTurn (d : Dev) : Bool := d.pra.idle

/-- KEY_LOAD (R54, R309 to R311): `steps` of R310's three writing steps are done, 3 unless the supply is lost meanwhile. -/
def doKeyLoad (th : Nat) (unwrapOk readBackOk verifyOk : Bool) (steps : Nat) (d : Dev) : Dev :=
  if inTurn d th isKeyCommand = false ∨ writeTurn d = false then d
  else
    runThread (praDue d) th (fun c => match c with | .keyLoad s w x a g l => some (s, w, x, a, g, l) | _ => none) fun d _ p =>
      let (s, w, district, attr, gen, wrapped) := p
      match keyLoadRefused d s attr gen with
      | some st => finish d th st []
      | none =>
        let (ok, d) := if attrType (skeinAttr d w) = 2 then invoke d w masterCcp useWrap else (false, d)
        let n := wrapLen (attrType attr)
        if ok = false then finish d th .attr []
        else if d.pra.tokens (commitWord s) = 0 then finish d th .noToken []
        else if unwrapOk = false ∨ wrapped.length ≠ n ∨ n = 0 then finish d th .unwrap []
        else
          let key := fitTo (n - 8) (Config.unwrapKey (skeinKey d w) wrapped)
          commitKey d th s { skein := s, gen := gen, attr := attr, district := district, key := key }
            steps readBackOk verifyOk

def execKeyLoad (dt : Nat) (th : Nat) (unwrapOk readBackOk verifyOk : Bool) (steps : Nat) (s : State) :
    Host.Outcome State Fault Refusal := run dt (doKeyLoad th unwrapOk readBackOk verifyOk steps) s

/-- The half in force and the skein take an attribute word (R312). -/
def setAttr (d : Dev) (s : Nat) (attr : Word) : Dev :=
  let code := commitHalf (d.pra.word (commitWord s))
  d.modDst (fun x =>
    let x := match x.halfOf code s with | some h => x.putHalf code s { h with attr := attr } | none => x
    { x with skeins := kadj x.skeins s (fun k => { k with attr := attr }) })

/-- KEY_ATTR (R312). -/
def doKeyAttr (th : Nat) (d : Dev) : Dev :=
  if inTurn d th isKeyCommand = false then d
  else
    runThread d th (fun c => match c with | .keyAttr s a => some (s, a) | _ => none) fun d _ p =>
      let (s, attr) := p
      let old := skeinAttr d s
      if s < 2 ∨ attrConsistent attr = false ∨ attrType attr ≠ attrType old then finish d th .range []
      else if attrAdds attr old then finish d th .attr []
      else
        let d := setAttr d s attr
        finish (if bit attr useDerive ∧ bit attr masterLink then d else dropCache d s) th .ok []

def execKeyAttr (dt : Nat) (th : Nat) (s : State) : Host.Outcome State Fault Refusal := run dt (doKeyAttr th) s

/-- Skein `s` is erased as a command asks (R313), its generation being streamed (R280). -/
def eraseByCommand (d : Dev) (s : Nat) (verifyOk : Bool) : Dev × Status :=
  let district : Bool := match kfind d.dst.skeins s with | some k => k.isDistrict | none => false
  let (d, st) := eraseSkein d s verifyOk
  (streamGen d s 0 district, st)

/-- KEY_ERASE (R303, R313). -/
def doKeyErase (th : Nat) (verifyOk : Bool) (d : Dev) : Dev :=
  if inTurn d th isKeyCommand = false ∨ writeTurn d = false then d
  else
    runThread d th (fun c => match c with | .keyErase s => some s | _ => none) fun d _ s =>
      if s < 2 then finish d th .range []
      else if d.dst.rngOk = false then finish d th .rng []
      else
        let (d, st) := eraseByCommand d s verifyOk
        finish d th st []

def execKeyErase (dt : Nat) (th : Nat) (verifyOk : Bool) (s : State) : Host.Outcome State Fault Refusal :=
  run dt (doKeyErase th verifyOk) s

/-- KCV of the key that skein `s` holds (R308); where it holds none, the manual gives no value and the octets are free. -/
def heldKcv (d : Dev) (s : Nat) : List Byte × Dev :=
  if s < 2 ∨ (kfind d.dst.skeins s).isSome then (keyKcv (attrType (skeinAttr d s)) (skeinKey d s), d)
  else
    let (r, d) := d.draw
    (octets 8 (r.setWidth 64).toNat, d)

/-- KEY_INFO (R308). -/
def doKeyInfo (th : Nat) (d : Dev) : Dev :=
  if inTurn d th isKeyCommand = false then d
  else
    runThread d th (fun c => match c with | .keyInfo s => some s | _ => none) fun d _ s =>
      let attr := skeinAttr d s
      let (kcv, d) := heldKcv d s
      let point := if attrType attr = 3 then octets 96 (Config.publicPoint (skeinKey d s)).toNat else []
      finish d th .ok (octets 4 attr.toNat ++ octets 4 (skeinWord d s).toNat ++ octets 2 (skeinDistrict d s).toNat ++ octets 2 0
        ++ kcv ++ point)

def execKeyInfo (dt : Nat) (th : Nat) (s : State) : Host.Outcome State Fault Refusal := run dt (doKeyInfo th) s

/-! ## Life cycle -/

/-- A change of R317's table. -/
def lifecycleStep (old new : Nat) : Bool :=
  (old == 1 && new == 2) || (old == 2 && new == 3) || (decide (1 ≤ old) && decide (old ≤ 3) && new == 4)

/-- LIFECYCLE_SET (R317): the word is written first, and in RETURNED the operator skeins are erased after it, the commit words
in `faults` failing their verify (R53). Of the erasures the first `upto` are made where one is given: the supply is then lost,
and the next start finishes them. -/
def doLifecycleSet (th : Nat) (verifyOk : Bool) (faults : List Nat) (upto : Option Nat) (d : Dev) : Dev :=
  if writeTurn d = false then d
  else
    runThread d th (fun c => match c with | .lifecycleSet l => some l | _ => none) fun d _ l =>
      if lifecycleStep d.pra.lifecycle l = false then finish d th .state []
      else
        match praOwn d 1 (BitVec.ofNat 32 l) verifyOk with
        | (d, .ok) =>
          let d := report d evLifecycleChange []
          let erase (d : Dev) (s : Nat) : Dev := (eraseByCommand d s (!faults.contains (commitWord s))).1
          let n := upto.getD operatorSkeins.length
          let d := if l = 4 then each (operatorSkeins.take n) erase d else d
          if l = 4 ∧ n < operatorSkeins.length then d else finish d th .ok []
        | (d, st) => finish d th st []

def execLifecycleSet (dt : Nat) (th : Nat) (verifyOk : Bool) (faults : List Nat) (upto : Option Nat) (s : State) :
    Host.Outcome State Fault Refusal := run dt (doLifecycleSet th verifyOk faults upto) s

/-! ## Working shares and the noise source -/

/-- A fresh mask, as long as the longest key (R302). -/
def freshMask (d : Dev) : List Byte × Dev :=
  let (m, d) := d.draw
  let (m', d) := d.draw
  (octets 32 m.toNat ++ octets 32 m'.toNat, d)

/-- The two shares of skein `s` under a fresh mask (R302). -/
def remaskSkein (d : Dev) (s : Nat) : Dev :=
  match kfind d.dst.skeins s with
  | none => d
  | some k =>
    let (mask, d) := freshMask d
    d.modDst (fun x => { x with skeins := kput x.skeins s { k with s0 := joinShares k.s0 mask, s1 := joinShares k.s1 mask } })

/-- The two shares of skein 0 or 1 under a fresh mask (R302). -/
def remaskRoot (d : Dev) (s : Nat) : Dev :=
  let (mask, d) := freshMask d
  d.modDst (fun x => { x with root := kadj x.root s (fun k => (joinShares k.1 mask, joinShares k.2 mask)) })

/-- Cached keys under fresh masks, in their order (R302). -/
def remaskCache : List Derived → Dev → List Derived × Dev
  | [], d => ([], d)
  | e :: r, d =>
    let (m, d) := d.draw
    let mask : BitVec 128 := m.setWidth 128
    let (l, d) := remaskCache r d
    ({ e with s0 := e.s0 ^^^ mask, s1 := e.s1 ^^^ mask } :: l, d)

/-- KEY_REMASK (R302, R303): every key in working use, while the noise source is good. -/
def doKeyRemask (d : Dev) : Dev :=
  if d.dst.rngOk ∧ d.phase.ctrlRuns then
    let d := each (d.dst.skeins.map (·.1)) remaskSkein (each [0, 1] remaskRoot d)
    let (l, d) := remaskCache d.dst.cache d
    d.modDst (fun x => { x with cache := l, remaskAt := d.glb.upNs })
  else d

def execKeyRemask (dt : Nat) (s : State) : Host.Outcome State Fault Refusal := run dt doKeyRemask s

/-- RNG_HEALTH_WINDOW (R303, R368): 1,024 consecutive passing windows bring RNG_OK. -/
def doRngHealthWindow (pass : Bool) (d : Dev) : Dev :=
  if d.phase.ctrlRuns = false then d
  else if pass then
    let n := min 1024 (d.dst.rngPass + 1)
    let d := d.modDst (fun x => { x with rngPass := n, rngOk := x.rngOk || n == 1024 })
    if d.dst.rngOk ∧ d.phase.fwRuns then selfTestLive d 5 true else d
  else
    let d := report (d.modDst (fun x => { x with rngPass := 0, rngOk := false })) evRngFail []
    if d.phase.fwRuns then selfTestLive d 5 false else d

def execRngHealthWindow (dt : Nat) (pass : Bool) (s : State) : Host.Outcome State Fault Refusal :=
  run dt (doRngHealthWindow pass) s

end Sys2Proof.Machine
end

