-- ==== Sys2Proof/Machine/Image.lean ====
section
/-! DEFINITION. Image commands: staging a reel (R329), the activation (R331) and the owner lock (R328). -/

namespace Sys2Proof.Machine

/-- The image commands, which run one at a time in order of admission (R328). -/
def isImageCommand (op : Nat) : Bool := op == 0x60 || op == 0x61 || op == 0x62

/-- Image command `th` may run. -/
def imageTurn (d : Dev) (th : Nat) : Bool := inTurn d th isImageCommand && d.img.stage.isNone

/-- An image command ends: LAST keeps its status (R338). -/
def imgFinish (d : Dev) (th : Nat) (st : Status) (res : List Byte) : Dev :=
  finish (d.modImg (fun i => { i with last := st.num })) th st res

/-- PRA_BANK with VALID of bank `n` as given (R326). -/
def bankWithValid (p : Pra) (n : Nat) (v : Bool) : Word :=
  bankWord p.trial (if n = 1 then v else p.bankValid 1) (if n = 0 then v else p.bankValid 0) p.activeBank p.floor

/-- The reel whose head stands in bank `n`. -/
def setReel (d : Dev) (n : Nat) (r : Reel) : Dev :=
  { d with start := { d.start with
      reels := d.start.reels.map (fun p => if n = 0 then (r, p.2) else (p.1, r)) } }

/-! ## REEL_STAGE -/

/-- The checks of R329 before the card is read. -/
def stageRefused (d : Dev) : Option Status :=
  if ownerLocked d then some .locked
  else if d.img.act.isEmpty = false then some .state
  else if supplyOk d = false then some .supply
  else if d.pra.tokens 3 < 2 then some .noToken
  else none

/-- The checks of R329 on the card. -/
def cardRefused (floor : Nat) (c : Card) : Status ⊕ Reel :=
  match c with
  | .none => .inl .noMedia
  | .noFile => .inl .noFile
  | .file n r =>
    if n ≠ (1 + r.nblk) * 65536 then .inl .noFile
    else if Reel.headOk r 1 = false then .inl .reelFormat
    else if r.sigOk = false then .inl .reelSig
    else if r.svn < floor then .inl .rollback
    else .inr r

/-- The card answers. -/
def cardAnswers (c : Card) : Bool := match c with | .none => false | .noFile => true | .file _ _ => true

/-- The stage after step 1's write (R329): one that fails its verify ends the command, VALID keeping its value (R53); no step
after it has failed, so REEL_STAGE_FAIL is not reported (log 97). -/
def stageBegin (d : Dev) (th n : Nat) (r : Reel) (st : Status) : Dev :=
  let g : Stage := { th := th, bank := n, reel := r, done := 0 }
  if st = .ok then (setReel d n r).modImg (fun i => { i with blocks := 0, stage := some g })
  else imgFinish d th st []

/-- REEL_STAGE (R329): the checks, then steps 1 and 2. -/
def doReelStage (th : Nat) (card : Card) (verifyOk : Bool) (d : Dev) : Dev :=
  if imageTurn d th = false ∨ writeTurn d = false then d
  else
    runThread (praDue d) th (fun c => match c with | .reelStage => some () | _ => none) fun d _ _ =>
      match stageRefused d with
      | some st => imgFinish d th st []
      | none =>
        let d := d.modImg (fun i => { i with media := cardAnswers card })
        match cardRefused d.pra.floor card with
        | .inl st => imgFinish d th st []
        | .inr r =>
          let n := 1 - d.pra.activeBank
          let (d, st) := praOwn d 3 (bankWithValid d.pra n false) verifyOk
          stageBegin d th n r st

def execReelStage (dt : Nat) (th : Nat) (card : Card) (verifyOk : Bool) (s : State) : Host.Outcome State Fault Refusal :=
  run dt (doReelStage th card verifyOk) s

/-- Step 5 of R329. -/
def stageDone (d : Dev) (g : Stage) (verifyOk : Bool) : Dev :=
  match praOwn d 3 (bankWithValid d.pra g.bank true) verifyOk with
  | (d, .ok) =>
    let d := refreshBanks (d.modImg (fun i => { i with stage := none, blocks := 0 }))
    let r := g.reel
    imgFinish (report d evReelStaged []) g.th .ok (octets 4 r.version ++ octets 2 r.svn ++ octets 1 g.bank ++ octets 1 0
      ++ octets 8 r.build)
  | (d, st) => stageFail d st

/-- REEL_STAGE_BLOCK (R329): step 3 for one block, with steps 4 and 5 after the last. -/
def doReelStageBlock (cardOk blockOk flashOk bankSigOk bankBlocksOk verifyOk : Bool) (d : Dev) : Dev :=
  match d.img.stage with
  | none => d
  | some g =>
    if d.phase ≠ .up ∨ writeTurn d = false then d
    else
      let d := d.modImg (fun i => { i with media := cardOk })
      if cardOk = false then stageFail d .noMedia
      else if blockOk = false then stageFail d .reelBlock
      else if flashOk = false then stageFail d .flash
      else
        let k := g.done + 1
        let d := d.modImg (fun i => { i with blocks := k, stage := some { g with done := k } })
        if k < g.reel.nblk then d
        else if bankSigOk = false then stageFail d .reelSig
        else if bankBlocksOk = false then stageFail d .reelBlock
        else stageDone d g verifyOk

def execReelStageBlock (dt : Nat) (cardOk blockOk flashOk bankSigOk bankBlocksOk verifyOk : Bool) (s : State) :
    Host.Outcome State Fault Refusal :=
  run dt (doReelStageBlock cardOk blockOk flashOk bankSigOk bankBlocksOk verifyOk) s

/-! ## Activation -/

/-- The present tick is a T_x of R331 for a thread: of this side's parity, and after the admission. -/
def activateTick (d : Dev) (t : Thread) : Bool :=
  decide (0 ≤ d.whl.tickK) && decide (d.whl.tickK % 2 = b2n d.ply.side) && decide (t.admAt < d.whl.tickAt)

/-- The activation at T_x (R331): the partner check again, HOLD, PRA_BANK, and the reset 50 ms after T_x. -/
def activateNow (d : Dev) (th bank : Nat) (alone verifyOk : Bool) : Dev :=
  if alone = false ∧ d.ply.partnered ∧ partnerServes d = false then imgFinish d th .partner []
  else
    let d := d.modGlb (fun g => { g with tripped := false, tripInput := false, tripThermal := false })
    let d := changePower d 1 1
    match praOwn d 3 (bankWord true (d.pra.bankValid 1) (d.pra.bankValid 0) bank d.pra.floor) verifyOk with
    | (d, .ok) =>
      let due := d.glb.upNs + 50000000 - (d.whl.time - d.whl.tickAt)
      imgFinish (report (d.modImg (fun i => { i with actReset := some due })) evReelActivate []) th .ok []
    | (d, st) => imgFinish d th st []

/-- REEL_ACTIVATE_EXECUTE (R331): the activation admitted first. -/
def doReelActivateExecute (verifyOk : Bool) (d : Dev) : Dev :=
  match d.img.act with
  | [] => d
  | (th, bank, alone) :: _ =>
    match d.thread? th with
    | none => d
    | some t =>
      if activateTick d t ∧ imageTurn d th ∧ d.img.actReset = none ∧ writeTurn d then
        runThread d th (fun c => match c with | .reelActivate _ _ => some () | _ => none) fun d _ _ =>
          activateNow d th bank alone verifyOk
      else d

def execReelActivateExecute (dt : Nat) (verifyOk : Bool) (s : State) : Host.Outcome State Fault Refusal :=
  run dt (doReelActivateExecute verifyOk) s

/-- ACTIVATE_RESET (R331). -/
def doActivateReset (d : Dev) : Dev :=
  match d.img.actReset with
  | none => d
  | some t => if t ≤ d.glb.upNs then controlReset d 8 else d

def execActivateReset (dt : Nat) (s : State) : Host.Outcome State Fault Refusal := run dt doActivateReset s

/-! ## OWNER_LOCK -/

/-- PRA_OWNER from its fields (R327). -/
def ownerWord (locked : Bool) (ident : Nat) : Word := pack [(31, b2n locked), (0, ident)]

/-- OWNER_LOCK (R328), which waits for a running stage as every image command does (log 124). -/
def doOwnerLock (th : Nat) (verifyOk : Bool) (d : Dev) : Dev :=
  if imageTurn d th = false ∨ writeTurn d = false then d
  else
    runThread d th (fun c => match c with | .ownerLock s => some s | _ => none) fun d t set =>
      let old := d.pra.word 4
      let new := if set then ownerWord true t.ident else 0
      if set = false ∧ ownerLocked d ∧ fld old 3 0 ≠ t.ident then imgFinish d th .locked []
      else if new = old then imgFinish d th .ok []
      else
        match praOwn d 4 new verifyOk with
        | (d, .ok) => imgFinish (report d evOwnerLock []) th .ok []
        | (d, st) => imgFinish d th st []

def execOwnerLock (dt : Nat) (th : Nat) (verifyOk : Bool) (s : State) : Host.Outcome State Fault Refusal :=
  run dt (doOwnerLock th verifyOk) s

end Sys2Proof.Machine
end

