-- ==== Sys2Proof/Machine/RegMap.lean ====
section
/-! DEFINITION. The whole register map (R8, R11, R12, R35): a read and a write at any address, and the rows that use them:
REGISTER_WRITE, and the REG_READ and REG_WRITE of R217. -/

namespace Sys2Proof.Machine

/-! ## BOB -/

/-- A read of the register of BOB at offset `o` (R35). -/
def readBob (d : Dev) (o : Nat) : Option Word :=
  if o = 0 then some (bobSummary d.bob)
  else if o = 0x10 then some (d.bob.clk.setWidth 32)
  else
    let b := (o - 0x100) / 0x20
    if 0x100 ≤ o ∧ b < 26 then
      let x := (d.bob.get b).at_ b d.pwr.wall
      match (o - 0x100) % 0x20 with
      | 0 => some (bobStat x b)
      | 4 => some (pack [(31, b2n x.flush), (0, x.mark.getD (bobDepth b * 3 / 4))])
      | 8 => some (bobErr x)
      | 0xC => some (BitVec.ofNat 32 x.dropped)
      | 0x10 => some (BitVec.ofNat 32 (min x.hwm 0x1FFF))
      | _ => none
    else none

/-- A write of the register of BOB at offset `o` (R35). -/
def writeBob (d : Dev) (o : Nat) (v : Word) : Option (Dev × Status) :=
  let b := (o - 0x100) / 0x20
  if 0x100 ≤ o ∧ b < 26 then
    match (o - 0x100) % 0x20 with
    | 0 => some (d, .ok)
    | 4 => some (writeBobCtrl d b v)
    | 8 => some (writeBobErr d b v)
    | 0xC => some (d, .ok)
    | 0x10 => some (writeBobHwm d b v)
    | _ => none
  else if (readBob d o).isSome then some (d, .ok) else none

/-! ## Any address -/

/-- A write that would change an RWL field from DEPLOYED onward (R8): SPN_PACFG holds the only ones. -/
def rwlRefused (d : Dev) (n : Fin 4) (o : Nat) (v : Word) : Bool :=
  o == 0x10 && !d.rwlOpen && (d.spn.get n).pacfg != v.setWidth 6

/-- A read of a block's register; none where no register lies. -/
def readBlock (d : Dev) (b : Block) (o : Nat) : Option Word :=
  match b with
  | .glb => readGlb d o
  | .whl => readWhl d o
  | .spn n => readSpn d n o
  | .wrp => readWrp d o
  | .sht => readSht d o
  | .que => readQue d o
  | .crd => readCrd d o
  | .thr => readThr d o
  | .ccp => readCcp d o
  | .ply => readPly d o
  | .dst => readDst d o
  | .pra => readPra d o
  | .evt => readEvt d o
  | .pwr => readPwr d o
  | .img => readImg d o
  | .bob => readBob d o

/-- A write to a register that is read-only throughout (R8). -/
def writeRo (d : Dev) (r : Option Word) : Option (Dev × Status) := if r.isSome then some (d, .ok) else none

/-- A write of a block's register, with its status; none where no register lies. Words of the array that the operator may
write go to the array instead. -/
def writeBlock (d : Dev) (b : Block) (o : Nat) (v : Word) : Option (Dev × Status) :=
  match b with
  | .glb => writeRo d (readGlb d o)
  | .whl => writeWhl d o v
  | .spn n => if rwlRefused d n o v then some (d, .state) else writeSpn d n o v
  | .wrp => writeWrp d o v
  | .sht => writeSht d o v
  | .que => writeQue d o v
  | .crd => writeCrd d o v
  | .thr => writeThr d o v
  | .ccp => writeCcp d o
  | .ply => writePly d o v
  | .dst => writeRo d (readDst d o)
  | .pra => writeRo d (readPra d o)
  | .evt => writeEvt d o v
  | .pwr => writeRo d (readPwr d o)
  | .img => writeRo d (readImg d o)
  | .bob => writeBob d o v

/-- An access where no register lies (R11, R401): `access` 0 read, 1 write. -/
def unmapped (d : Dev) (a access : Nat) : Dev := report d evAddrUnmapped (octets 4 a ++ octets 1 access)

/-- A read of the register at byte address `a` (R7, R11). -/
def readAt (d : Dev) (a : Nat) : Word × Dev :=
  match block? a with
  | some (b, o) => (match readBlock d b o with | some v => (v, d) | none => (0, unmapped d a 0))
  | none => (0, unmapped d a 0)

/-- A write of the register at byte address `a`, with its status (R8, R11). The manual names no status for the writer of an
unmapped address; the answer is OK, so that a REG_WRITE counts the pair and goes on (log 96). -/
def writeAt (d : Dev) (a : Nat) (v : Word) : Dev × Status :=
  match block? a with
  | some (b, o) => (match writeBlock d b o v with | some r => r | none => (unmapped d a 1, .ok))
  | none => (unmapped d a 1, .ok)

/-- The operator's persistent word at byte address `a` (R12). -/
def persistentWord? (a : Nat) : Option Nat :=
  match block? a with
  | some (.pra, o) => if operatorWord (o / 4) then some (o / 4) else none
  | _ => none

/-- A write of an operator's word reaches the array (R51). -/
def praAsk (d : Dev) (n : Nat) (v : Word) (w : PraWriter) : Dev :=
  d.modPra (fun p => { p with queue := p.queue ++ [{ word := n, value := v, writer := w }] })

/-! ## Rows -/

/-- REGISTER_WRITE (R7 to R9, R11): the status of a persistent write follows when the array has performed it. -/
def doRegisterWrite (a : Nat) (v : Word) (d : Dev) : Dev :=
  match persistentWord? a with
  | some n => if d.phase.fwRuns then praAsk d n v .reg else d
  | none => regRow (fun d => writeAt d a v) d

def execRegisterWrite (dt : Nat) (addr : Nat) (v : Word) (s : State) : Host.Outcome State Fault Refusal :=
  run dt (doRegisterWrite addr v) s

/-- `n` registers from byte address `a` as octets, each read as one register read (R217). -/
def readRun (d : Dev) (a n : Nat) : List Byte × Dev :=
  (List.range n).foldl (fun x i => let (v, d) := readAt x.2 (a + 4 * i); (x.1 ++ octets 4 v.toNat, d)) ([], d)

/-- REG_READ (R217). -/
def doRegRead (th : Nat) (d : Dev) : Dev :=
  runThread d th (fun c => match c with | .regRead a n => some (a, n) | _ => none) fun d _ p =>
    let (l, d) := readRun d p.1 p.2
    finish d th .ok l

def execRegRead (dt : Nat) (th : Nat) (s : State) : Host.Outcome State Fault Refusal := run dt (doRegRead th) s

/-- The result of a REG_WRITE that has written `n` pairs (R217). -/
def pairsResult (n : Nat) : List Byte := octets 2 n ++ octets 2 0

/-- The rest of a REG_WRITE after `n` pairs (R217): it goes on to the first refusal, and at a persistent word it waits for
the array. -/
def writePairs (th n : Nat) : List (Nat × Word) → Dev → Dev
  | [], d => finish d th .ok (pairsResult n)
  | (a, v) :: r, d =>
    match persistentWord? a with
    | some w => praAsk (d.modThread th (fun t => { t with pairsLeft := r, pairsDone := n })) w v (.thread th)
    | none =>
      match writeAt d a v with
      | (d, .ok) => writePairs th (n + 1) r d
      | (d, st) => finish d th st (pairsResult n)

/-- REG_WRITE (R217). -/
def doRegWrite (th : Nat) (d : Dev) : Dev :=
  runThread d th (fun c => match c with | .regWrite l => some l | _ => none) fun d _ l => writePairs th 0 l d

def execRegWrite (dt : Nat) (th : Nat) (s : State) : Host.Outcome State Fault Refusal := run dt (doRegWrite th) s

end Sys2Proof.Machine
end

