-- ==== Sys2Proof/Machine/ImageFields.lean ====
section
/-! DEFINITION. The records of the configuration image: their layouts, and every field against its range (R47 step 6, R50,
R122, R153, R184, R196, R210, R215, R237, R264, R307). A field's offset is counted from the first octet of the record's
TYPE, so that payload offset x is 8 + x (R49). -/

namespace Sys2Proof.Machine

/-- Type numbers of R46. -/
def tyRegion : Nat := 1
def tySlotframe : Nat := 2
def tyTable : Nat := 3
def tyPolicy : Nat := 4
def tyKeywrap : Nat := 5
def tyIdentity : Nat := 6
def tyPly : Nat := 7
def tyRegister : Nat := 8
def tyNote : Nat := 9

/-- TYPE[14:0] of a record. -/
def ImgRecord.kind (r : ImgRecord) : Nat := r.type % 2 ^ 15

/-- A field at payload offset `x`, and whether it is in range. -/
def fieldAt (x : Nat) (ok : Bool) : Nat × Bool := (8 + x, ok)

/-- The PLEN field against the length the layout gives. -/
def plenAt (ok : Bool) : Nat × Bool := (4, ok)

/-- The lowest offset among failing fields (R49). -/
def lowestFail (l : List (Nat × Bool)) : Option Nat := (sortBy id ((l.filter (fun c => !c.2)).map (·.1))).head?

/-- A number lies from `lo` to `hi`. -/
def within (lo hi n : Nat) : Bool := decide (lo ≤ n) && decide (n ≤ hi)

/-- A global unicast address (2000::/3; log 40). -/
def globalUnicast (a : Nat) : Bool := a / 2 ^ 125 == 1

/-! ## REGION -/

/-- NPROF and NMASK of a REGION payload (R153). -/
def nprof (l : List Byte) : Nat := natAt l 0x40 1
def nmask (l : List Byte) : Nat := natAt l 0x41 1

/-- Where the mask tables and the bindings begin (R153). -/
def maskBase (l : List Byte) : Nat := 0x44 + 96 * nprof l
def bindBase (l : List Byte) : Nat := maskBase l + 64 * nmask l

/-- Profile `j` (R153). -/
def profileAt (l : List Byte) (j : Nat) : Profile :=
  let o := 0x44 + 96 * j
  { wave := natAt l o 1, opts := BitVec.ofNat 8 (natAt l (o + 1) 1), pre := natAt l (o + 2) 1, mask := natAt l (o + 3) 1,
    f0 := natAt l (o + 4) 4, spacing := natAt l (o + 8) 2, nchan := natAt l (o + 10) 2, ramp := natAt l (o + 12) 1,
    captureDb := natAt l (o + 13) 1, thresh := natAt l (o + 14) 1,
    coef := (List.range 32).map (fun i => ofTwos 16 (natAt l (o + 0x10 + 2 * i) 2)) }

/-- Point `k` of mask table `m`: its payload offset, its offset from the carrier and its limit (R153). -/
def maskPoint (l : List Byte) (m k : Nat) : Nat × Int × Int :=
  let o := maskBase l + 64 * m + 4 * k
  (o, ofTwos 16 (natAt l o 2), ofTwos 16 (natAt l (o + 2) 2))

/-- The profiles and the used mask points of a REGION payload. -/
def regionOf (l : List Byte) : Region :=
  { profiles := (List.range (nprof l)).map (profileAt l),
    masks := (List.range (nmask l)).map (fun m =>
      ((List.range 16).map (fun k => (maskPoint l m k).2)).filter (fun p => p.1 != 0)) }

/-- Binding `i` of spindle `n` as its 2 octets hold it (R153). -/
def bindAt (l : List Byte) (n i : Nat) : Nat := natAt l (bindBase l + 32 * n + 2 * i) 2
def bindOf (w : Nat) : Bind := { en := decide (32768 ≤ w), profile := w / 4096 % 8, chan := w % 1024 }

/-- The fields of spindle `n` (R122). -/
def spnFields (l : List Byte) (n : Nat) : List (Nat × Bool) :=
  let b := 16 * n
  let u (o k : Nat) : Nat := natAt l (b + o) k
  [fieldAt b (if n < 2 then within 15900 18880 (u 0 2) else u 0 2 == 48835), fieldAt (b + 2) (within 0 96 (u 2 1)),
   fieldAt (b + 3) (within 0 (u 2 1) (u 3 1)), fieldAt (b + 4) (within 0 63 (u 4 1)), fieldAt (b + 5) (within 0 63 (u 5 1)),
   fieldAt (b + 6) (within 140 1000 (u 6 2)), fieldAt (b + 8) (within 0 63 (u 8 1)), fieldAt (b + 9) (within 0 63 (u 9 1)),
   fieldAt (b + 10) (within 5 40 (u 10 1)), fieldAt (b + 11) (u 11 5 == 0)]

/-- Every channel's occupied bandwidth lies within the band of R153. -/
def Profile.bandOk (p : Profile) : Bool :=
  let lo := if p.wave = 4 then 2400000 else 779000
  let hi := if p.wave = 4 then 2483500 else 960000
  p.nchan == 0 || (decide (2 * lo + waveB p.wave ≤ 2 * p.f0) && decide (2 * p.fch (p.nchan - 1) + waveB p.wave ≤ 2 * hi))

/-- The fields of profile `j` (R153). -/
def profileFields (l : List Byte) (j : Nat) : List (Nat × Bool) :=
  let o := 0x44 + 96 * j
  let p := profileAt l j
  let fsk := within 1 3 p.wave
  [fieldAt o (waveOk p.wave), fieldAt (o + 1) (p.opts &&& 3 == 0 && (fsk || p.opts == 0)),
   fieldAt (o + 2) (if p.wave = 4 then p.pre == 4 else within 4 64 p.pre), fieldAt (o + 3) (decide (p.mask < nmask l)),
   fieldAt (o + 4) p.bandOk, fieldAt (o + 8) (decide (waveB p.wave ≤ p.spacing)), fieldAt (o + 10) (within 1 1024 p.nchan),
   fieldAt (o + 12) (if p.fd3200 then within 8 64 p.ramp else p.ramp == 0), fieldAt (o + 13) (within 3 20 p.captureDb),
   fieldAt (o + 14) (within 96 240 p.thresh), fieldAt (o + 15) (natAt l (o + 15) 1 == 0),
   fieldAt (o + 0x50) (natAt l (o + 0x50) 16 == 0)]

/-- The used points of mask table `m` (R151, R153): distinct offsets, of at least SPACING / 2 and within the bound for
every profile that names the table. -/
def maskFields (l : List Byte) (m : Nat) : List (Nat × Bool) :=
  let users := (regionOf l).profiles.filter (fun p => p.mask == m)
  (List.range 16).map (fun k =>
    let (o, x, _) := maskPoint l m k
    let repeated := (List.range k).any (fun j => (maskPoint l m j).2.1 == x)
    let fits (p : Profile) : Bool :=
      decide (p.spacing ≤ 2 * x.natAbs) && decide (x.natAbs ≤ (if p.wave = 4 then 10000 else 2000))
    fieldAt o (x == 0 || (!repeated && users.all fits)))

/-- The bindings of spindle `n` (R128, R129, R153). -/
def bindFields (l : List Byte) (n : Fin 4) : List (Nat × Bool) :=
  let window := natAt l (16 * n.val) 2
  (List.range 16).map (fun i =>
    let w := bindAt l n.val i
    let b := bindOf w
    let repeated := (List.range i).any (fun j => bindOf (bindAt l n.val j) == b)
    let ok : Bool := match (regionOf l).profile? b.profile with
      | some p => decide (b.chan < p.nchan) && (!b.en || (usable n window p b.chan && !repeated))
      | none => false
    fieldAt (bindBase l + 32 * n.val + 2 * i) (w / 1024 % 4 == 0 && ok))

/-- A REGION record. -/
def regionFields (l : List Byte) : List (Nat × Bool) :=
  [plenAt (l.length == bindBase l + 128)] ++ ((List.range 4).map (spnFields l)).flatten
    ++ [fieldAt 0x40 (within 1 8 (nprof l)), fieldAt 0x41 (within 1 4 (nmask l)), fieldAt 0x42 (natAt l 0x42 2 == 0)]
    ++ ((List.range (nprof l)).map (profileFields l)).flatten ++ ((List.range (nmask l)).map (maskFields l)).flatten
    ++ (spindles.map (bindFields l)).flatten

/-! ## SLOTFRAME -/

/-- The slotframe that a payload defines (R184). -/
structure SfRec where
  spn : Nat
  sf : Nat
  len : Nat
  hop : Nat
  first : Nat
  chans : List Nat
  /-- payload offset of the cells, and the cells -/
  base : Nat
  cells : List (Word × Word)

/-- A SLOTFRAME payload read. -/
def sfRecOf (l : List Byte) : SfRec :=
  let h := natAt l 5 1
  let base := 12 + 2 * h + 2 * (h % 2)
  { spn := natAt l 0 1, sf := natAt l 1 1, len := natAt l 2 2, hop := natAt l 4 1, first := natAt l 6 2,
    chans := (List.range h).map (fun i => natAt l (12 + 2 * i) 2), base := base,
    cells := (List.range (natAt l 8 2)).map (fun i =>
      (BitVec.ofNat 32 (natAt l (base + 8 * i) 4), BitVec.ofNat 32 (natAt l (base + 8 * i + 4) 4))) }

/-- The cells of a SLOTFRAME record against what R160 asks of their two words and of the cells before them. -/
def cellFields (s : SfRec) : List (Nat × Bool) :=
  ((List.range s.cells.length).map (fun i =>
    let c := s.cells.getD i (0, 0)
    let clash := (s.cells.take i).any (fun b => cellsMeet b c && (cellSpan b != 0 || cellSpan c != 0))
    let w0 := bit c.1 31 && cellSf c == s.sf && decide (cellSlot c + cellSpan c + 1 ≤ s.len)
      && (cellType c != 3 || cellBcast c) && !clash
    let w1 := decide (cellChoff c < s.chans.length) && (!cellBcast c || cellNode c == 0)
    [fieldAt (s.base + 8 * i) w0, fieldAt (s.base + 8 * i + 4) w1])).flatten

/-- A SLOTFRAME record. -/
def slotframeFields (l : List Byte) : List (Nat × Bool) :=
  let s := sfRecOf l
  let h := s.chans.length
  [plenAt (l.length == s.base + 8 * s.cells.length), fieldAt 0 (within 0 3 s.spn), fieldAt 1 (within 0 7 s.sf),
   fieldAt 2 (within 7 65535 s.len), fieldAt 4 (within 0 7 s.hop), fieldAt 5 (within 1 128 h),
   fieldAt 8 (decide (s.first + s.cells.length ≤ 16384)), fieldAt 10 (natAt l 10 2 == 0)]
    ++ (List.range h).map (fun i => fieldAt (12 + 2 * i) (decide (s.chans.getD i 0 < 1024)))
    ++ [fieldAt (12 + 2 * h) (h % 2 == 0 || natAt l (12 + 2 * h) 2 == 0)] ++ cellFields s

/-! ## TABLE -/

/-- KIND, FIRST and COUNT of a TABLE payload (R237). -/
def tabKind (l : List Byte) : Nat := natAt l 0 1
def tabFirst (l : List Byte) : Nat := natAt l 2 2
def tabCount (l : List Byte) : Nat := natAt l 4 2

/-- Entry `i` of a MAM or HASH payload. -/
def tabEntry (l : List Byte) (i : Nat) : TEntry :=
  let o := 8 + 24 * i
  { pre := BitVec.ofNat 128 (natAt l o 16), len := natAt l (o + 16) 1, result := BitVec.ofNat 32 (natAt l (o + 20) 4) &&& 0xFF01FFFF,
    valid := true }

/-- A TABLE record. -/
def tableFields (l : List Byte) : List (Nat × Bool) :=
  let kind := tabKind l
  let first := tabFirst l
  let n := tabCount l
  let entry (lo hi i : Nat) : List (Nat × Bool) :=
    let e := tabEntry l i
    let o := 8 + 24 * i
    [fieldAt o (e.pre == maskTo e.pre e.len), fieldAt (o + 16) (within lo hi e.len), fieldAt (o + 17) (natAt l (o + 17) 3 == 0),
     fieldAt (o + 20) (fld e.result 31 29 != 7)]
  let plen := if kind = 3 then 8 + 256 else 8 + 24 * n
  [plenAt (!within 1 3 kind || l.length == plen), fieldAt 0 (within 1 3 kind), fieldAt 1 (natAt l 1 1 == 0),
   fieldAt 2 (if kind = 1 then within 0 4095 first else first == 0),
   fieldAt 4 (if kind = 1 then decide (1 ≤ n) && decide (first + n ≤ 4096) else if kind = 2 then within 1 16384 n else n == 256),
   fieldAt 6 (natAt l 6 2 == 0)]
    ++ (match kind with
      | 1 => ((List.range n).map (entry 0 64)).flatten
      | 2 => ((List.range n).map (entry 65 128)).flatten
      | _ => (List.range 256).map (fun i => fieldAt (8 + i) (within 0 1 (natAt l (8 + i) 1))))

/-! ## POLICY, KEYWRAP, IDENTITY, PLY -/

/-- FIRST and COUNT of a POLICY payload, and entry `i` (R215). -/
def polFirst (l : List Byte) : Nat := natAt l 0 2
def polCount (l : List Byte) : Nat := natAt l 2 2
def polEntry (l : List Byte) (i : Nat) : List Byte := slice l (4 + 16 * i) 16

/-- A POLICY record (R210, R215). -/
def policyFields (l : List Byte) : List (Nat × Bool) :=
  let n := polCount l
  [plenAt (l.length == 4 + 16 * n), fieldAt 0 (within 0 1023 (polFirst l)),
   fieldAt 2 (within 1 64 n && decide (polFirst l + n ≤ 1024))]
    ++ ((List.range n).map (fun i =>
      let e := polEntry l i
      let o := 4 + 16 * i
      [fieldAt o (natAt e 0 1 % 64 == 0), fieldAt (o + 4) (decide (natAt e 4 4 < 2 ^ 17)),
       fieldAt (o + 8) (decide (natAt e 8 4 < 2 ^ 17) && decide (natAt e 4 4 ≤ natAt e 8 4)),
       fieldAt (o + 14) (natAt e 14 2 == 0)])).flatten

/-- A KEYWRAP payload read (R307). -/
def keyWrapOf (l : List Byte) : KeyWrap :=
  { skein := natAt l 0 1, district := BitVec.ofNat 16 (natAt l 2 2), attr := BitVec.ofNat 32 (natAt l 4 4), gen := natAt l 8 4,
    wrapped := l.drop 16 }

/-- A KEYWRAP record; `kwBad` lists the skeins whose KW integrity check fails (R307). -/
def keywrapFields (kwBad : List Nat) (l : List Byte) : List (Nat × Bool) :=
  let k := keyWrapOf l
  let wlen := natAt l 12 2
  [plenAt (l.length == 16 + wlen), fieldAt 0 (within 2 255 k.skein), fieldAt 1 (natAt l 1 1 == 0),
   fieldAt 4 (attrConsistent k.attr && attrType k.attr != 0), fieldAt 8 (within 1 0xFFFFFF k.gen),
   fieldAt 12 (wlen == wrapLen (attrType k.attr)), fieldAt 14 (natAt l 14 2 == 0), fieldAt 16 (!kwBad.contains k.skein)]

/-- An IDENTITY payload read (R196). -/
def identityOf (l : List Byte) : Identity :=
  { skein := natAt l 1 1, notice := natAt l 2 1 % 2 == 1, addr := BitVec.ofNat 128 (natAt l 4 16),
    port := BitVec.ofNat 16 (natAt l 0x14 2) }

/-- An IDENTITY record (R196). -/
def identityFields (l : List Byte) : List (Nat × Bool) :=
  [plenAt (l.length == 24), fieldAt 0 (within 0 15 (natAt l 0 1)), fieldAt 2 (within 0 1 (natAt l 2 1)),
   fieldAt 3 (natAt l 3 1 == 0), fieldAt 4 (natAt l 2 1 % 2 == 0 || globalUnicast (natAt l 4 16)),
   fieldAt 0x14 (within 1 65535 (natAt l 0x14 2)), fieldAt 0x16 (natAt l 0x16 2 == 0)]

/-- A PLY record (R264). -/
def plyFields (l : List Byte) : List (Nat × Bool) :=
  let flags := natAt l 2 2
  [plenAt (l.length == 64), fieldAt 0 (within 1 255 (natAt l 0 1)), fieldAt 1 (within 0 1 (natAt l 1 1)),
   fieldAt 2 (within 0 3 flags), fieldAt 4 (flags % 2 == 1 || natAt l 4 8 == 0),
   fieldAt 0xC (flags / 2 % 2 == 1 || natAt l 0xC 6 == 0), fieldAt 0x12 (natAt l 0x12 2 == 0),
   fieldAt 0x14 (globalUnicast (natAt l 0x14 16)), fieldAt 0x2E (natAt l 0x2E 2 == 0),
   fieldAt 0x30 (natAt l 0x30 1 == 0xFF && within 5 14 (natAt l 0x31 1 % 16))]

/-! ## REGISTER -/

/-- Entries of a REGISTER payload: address and value (R50). -/
def regEntries (l : List Byte) : List (Nat × Word) :=
  (List.range (l.length / 8)).map (fun j => (natAt l (8 * j) 4, BitVec.ofNat 32 (natAt l (8 * j + 4) 4)))

/-- The register holds at least one field whose Reset entry is "cfg" (R50): R90, R124, R154, R186, R223, R239, R261, R262,
R296, R373. -/
def cfgAddr (a : Nat) : Bool :=
  match block? a with
  | some (.whl, o) => [4, 0x20, 0x24, 0x28, 0x38, 0x3C, 0x40].contains o
  | some (.spn _, o) => [4, 8, 0xC, 0x10, 0x14, 0x18].contains o || (index? o 0x100 4 16).isSome
  | some (.wrp, o) =>
    [0, 4, 8].contains o || (hopIndex? o).isSome || (match sfIndex? o with | some (_, _, r) => r == 0 | none => false)
  | some (.sht, o) =>
    o == 0 || (index? o 0x40 4 8).isSome || (index? o 0x100 4 5).isSome || (index? o 0x200 4 80).isSome
      || (index? o 0x400 4 8).isSome
  | some (.que, o) =>
    if o < 0x1400 then
      let k := o % 0x400
      if k < 0x100 then [0, 4, 12].contains (k % 16)
      else [0x100, 0x104, 0x10C].contains k || (decide (o < 0x800) && [0x114, 0x118, 0x11C].contains k)
    else o == 0x2000 || o == 0x2004
  | some (.crd, o) => decide (o < 0x140) || (within 0x1000 0x2FFF o && (o % 16 == 0 || o % 16 == 4))
  | some (.ccp, o) => (index? o 0x100 4 16).isSome
  | some (.ply, o) => o == 0
  | some (.evt, o) => (match index? o 0x1000 4 512 with | some e => !evReserved e | none => false)
  | some (.glb, _) | some (.thr, _) | some (.dst, _) | some (.pra, _) | some (.pwr, _) | some (.img, _) | some (.bob, _)
  | none => false

/-- The value of an entry without the bits of W1S and W1C fields, which it leaves as they are (R50). -/
def entryValue (b : Block) (o : Nat) (v : Word) : Word :=
  match b with
  | .whl => if o = 4 then v &&& 0xFFFFFEFF else v
  | .spn _ => if o = 4 then v &&& 0xCFFFFFFF else v
  | .evt => v &&& 0x7FFFFFFF
  | .glb | .wrp | .sht | .que | .crd | .thr | .ccp | .ply | .dst | .pra | .pwr | .img | .bob => v

/-- A write of WRP_TIMING by an entry: the bounds of R156 that do not depend on P (R50). -/
def entryTiming (d : Dev) (v : Word) : Dev × Status :=
  let sel := fld v 15 0
  if within 200 5000 sel && sel % 10 == 0 && decide (sel + 500 ≤ fld v 31 16) then (setTiming d false v, .ok) else (d, .range)

/-- An entry of a REGISTER record written (R50): RWL fields accept it in every life-cycle state. -/
def entryWrite (d : Dev) (a : Nat) (v : Word) : Dev × Status :=
  match block? a with
  | some (.spn n, o) => (writeSpn d n o (entryValue (.spn n) o v)).getD (d, .ok)
  | some (.wrp, o) => if o = 4 then entryTiming d v else (writeWrp d o v).getD (d, .ok)
  | some (b, o) => (writeBlock d b o (entryValue b o v)).getD (d, .ok)
  | none => (d, .ok)

/-- Entries in order from number `j`, on the device as the owners' records leave it (R50): the offset of the first that fails,
and the device after those before it. -/
def entriesFail (j : Nat) : List (Nat × Word) → Dev → Option Nat × Dev
  | [], d => (none, d)
  | (a, v) :: r, d =>
    if cfgAddr a = false then (some (8 + 8 * j), d)
    else
      match entryWrite d a v with
      | (d, .ok) => entriesFail (j + 1) r d
      | (d, _) => (some (8 + 8 * j + 4), d)

/-- The fields of a record of a supported type other than REGISTER. -/
def recordFields (kwBad : List Nat) (r : ImgRecord) : List (Nat × Bool) :=
  match r.kind with
  | 1 => regionFields r.payload
  | 2 => slotframeFields r.payload
  | 3 => tableFields r.payload
  | 4 => policyFields r.payload
  | 5 => keywrapFields kwBad r.payload
  | 6 => identityFields r.payload
  | 7 => plyFields r.payload
  | _ => []

end Sys2Proof.Machine
end

