-- ==== Sys2Proof/Machine/ConfigImage.lean ====
section
/-! DEFINITION. The configuration image (R42 to R50): its check, the application of its records, the reset of settings groups
(R62), and the rows CONFIG_IMAGE_CHECK and CONFIG_APPLY. -/

namespace Sys2Proof.Machine

/-- What a failed check reports: code, record index and field offset (R49). -/
structure CfgFail where
  code : Nat
  record : Nat
  offset : Nat
  deriving DecidableEq, Repr

/-- No record, and no field (R49). -/
def noRecord : Nat := 0xFFFF
def noOffset : Nat := 0xFFFFFFFF

/-! ## Steps 1 to 5 -/

/-- Step 1: the header (R43). -/
def headerFail (l : List Byte) : Option CfgFail :=
  let len := natAt l 8 4
  let bad (code off : Nat) : Option CfgFail := some ⟨code, noRecord, off⟩
  if natAt l 0 4 ≠ 0x4C525459 then bad 1 0
  else if natAt l 4 2 ≠ 1 then bad 1 4
  else if natAt l 6 2 ≠ 0 then bad 1 6
  else if natAt l 0xE 2 ≠ 0 then bad 1 0xE
  else if natAt l 0x18 4 ≠ 0x4800 then bad 1 0x18
  else if len < 48 ∨ 1048576 < len ∨ len % 4 ≠ 0 then bad 3 8
  else if natAt l 0xC 2 < 2 then bad 5 0xC
  else if natAt l 0x1C 4 ≠ (crc32c (l.take 0x1C)).toNat then bad 2 0x1C
  else none

/-- Step 2: the walk over what is left of the image from record `i` (R44): the records found, END left out. Each turn of
`fuel` takes a record. -/
def walk : Nat → Nat → List Byte → Except CfgFail (List ImgRecord)
  | 0, _, _ => .error ⟨5, noRecord, noOffset⟩
  | fuel + 1, i, l =>
    let left := l.length
    let type := natAt l 0 2
    let ver := natAt l 2 2
    let plen := natAt l 4 4
    let body := 8 + (plen + 3) / 4 * 4
    if left = 0 then .error ⟨5, noRecord, noOffset⟩
    else if left < 8 ∨ left < body + 4 then .error ⟨3, i, 4⟩
    else if natAt l body 4 ≠ (crc32c (l.take body)).toNat then .error ⟨4, i, body⟩
    else if type % 2 ^ 15 = 0x7FFF then
      if type ≠ 0xFFFF then .error ⟨5, i, 0⟩
      else if ver ≠ 1 then .error ⟨5, i, 2⟩
      else if plen ≠ 0 ∨ left ≠ 12 then .error ⟨5, i, 4⟩
      else .ok []
    else
      match walk fuel (i + 1) (l.drop (body + 4)) with
      | .error e => .error e
      | .ok rest => .ok ({ type := type, version := ver, payload := slice l 8 plen } :: rest)

/-- How often each type may occur (R46): type, least, most. -/
def occurrences : List (Nat × Nat × Nat) :=
  [(tyRegion, 1, 1), (tySlotframe, 0, 32), (tyTable, 0, 64), (tyPolicy, 1, 16), (tyKeywrap, 0, 256), (tyIdentity, 1, 16),
   (tyPly, 1, 1), (tyRegister, 0, 16)]

/-- Records with their index. -/
def withPlace (l : List ImgRecord) : List (Nat × ImgRecord) := (List.range l.length).zip l

/-- Step 4: occurrences. -/
def occurFail (l : List ImgRecord) : Option CfgFail :=
  (occurrences.filterMap (fun q =>
    let (ty, least, most) := q
    let mine := (withPlace l).filter (fun p => p.2.kind == ty)
    match mine.drop most with
    | (i, _) :: _ => some (CfgFail.mk 6 i 0)
    | [] => if mine.length < least then some (CfgFail.mk 6 noRecord noOffset) else none)).head?

/-- The record is of a type of R46, and of the supported version. -/
def ImgRecord.known (r : ImgRecord) : Bool := within 1 9 r.kind
def ImgRecord.supported (r : ImgRecord) : Bool := r.known && r.version == 1

/-- Step 5: versions. -/
def versionFail (l : List ImgRecord) : Option CfgFail :=
  ((withPlace l).filterMap (fun p =>
    let (i, r) := p
    if r.version = 0 then some (CfgFail.mk 8 i 2)
    else if r.supported = false ∧ 2 ^ 15 ≤ r.type then some (CfgFail.mk 7 i (if r.known then 2 else 0))
    else none)).head?

/-! ## Applying a record -/

/-- Bits of an octet of FLAGS. -/
def flagBit (l : List Byte) (off i : Nat) : Bool := natAt l off 1 / 2 ^ i % 2 == 1

/-- The tuner codes that the settings hold for spindle `n`, where group 1 is of this layout (R62, R123). -/
def heldCodes (p : Pra) (n : Nat) : Option (Nat × Nat) :=
  let w := p.word (0x440 + n)
  if bit w 31 ∧ fld (p.word 0x11) 15 0 = settingVersion 1 then some (fld w 13 8, fld w 5 0) else none

/-- A REGION record (R122, R153). -/
def applyRegion (d : Dev) (l : List Byte) : Dev :=
  let one (d : Dev) (n : Fin 4) : Dev :=
    let b := 16 * n.val
    let (cs, cp) := (heldCodes d.pra n.val).getD (natAt l (b + 8) 1, natAt l (b + 9) 1)
    let binds := (List.range 16).foldl (fun m i => ksetD m i (bindOf (bindAt l n.val i)) {}) []
    d.modSpn n (fun s =>
      { s with window := natAt l b 2, windowEff := natAt l b 2, txMax := natAt l (b + 2) 1, txLevel := natAt l (b + 3) 1,
               pacfg := BitVec.ofNat 6 (natAt l (b + 4) 1), fitted := flagBit l (b + 5) 5, cxAbort := flagBit l (b + 5) 4,
               cxEn := flagBit l (b + 5) 3, inhRetry := flagBit l (b + 5) 2, tuneEn := flagBit l (b + 5) 1,
               autocal := flagBit l (b + 5) 0, reqLead := natAt l (b + 6) 2, cs := cs, cp := cp,
               calDt := natAt l (b + 10) 1, binds := binds, bindsEff := binds })
  each spindles one { d with region := regionOf l }

/-- The configuration word of a slotframe that is enabled. -/
def sfWord (s : SfRec) : Word := pack [(31, 1), (24, s.hop), (0, s.len)]

/-- A SLOTFRAME record (R184). -/
def applySlotframe (d : Dev) (l : List Byte) : Dev :=
  let s := sfRecOf l
  match spindle? s.spn with
  | none => d
  | some n =>
    let d := d.modWrp (·.modSf n s.sf (fun r => { r with cfg := sfWord s }))
    let d := setHop d s.hop none (BitVec.ofNat 32 s.chans.length)
    let d := each (List.range s.chans.length) (fun d i => setHop d s.hop (some i) (BitVec.ofNat 32 (s.chans.getD i 0))) d
    each (List.range s.cells.length) (fun d i =>
      let c := s.cells.getD i (0, 0)
      setCell d n (s.first + i) (some (c.1, c.2 &&& 0xFF01FFFF))) d

/-- A TABLE record loads a bank; none where an entry is refused for the entries before it (R235, R237): the offset of its
field. -/
def loadTable (l : List Byte) (b : Bank) : Except Nat Bank :=
  let first := tabFirst l
  let mam (r : Except Nat Bank) (i : Nat) : Except Nat Bank :=
    match r with
    | .error e => .error e
    | .ok b =>
      let e := tabEntry l i
      if mamOrder b.mam (first + i) e.len then .ok (b.put 1 (first + i) e)
      else .error (8 + 8 + 24 * i + 16)
  let hash (r : Except Nat Bank) (i : Nat) : Except Nat Bank :=
    match r with
    | .error e => .error e
    | .ok b =>
      match hashInsert b (tabEntry l i) with
      | .inl (_, b) => .ok b
      | .inr st => .error (8 + 8 + 24 * i + (if st = tcRange then 16 else 0))
  match tabKind l with
  | 1 => (List.range (tabCount l)).foldl mam (.ok b)
  | 2 => (List.range (tabCount l)).foldl hash (.ok b)
  | _ => .ok { b with bhsel := (List.range 256).foldl (fun m i => ksetD m i (natAt l (8 + i) 1) (i % 2)) b.bhsel }

/-- A TABLE record applied to the active bank. -/
def applyTable (d : Dev) (l : List Byte) : Dev :=
  match loadTable l d.sht.bank with
  | .ok b => d.modSht (fun s => { s with bank := b })
  | .error _ => d

/-- A POLICY record (R215). -/
def applyPolicy (d : Dev) (l : List Byte) : Dev :=
  each (List.range (polCount l)) (fun d i => putPolicy d (polFirst l + i) (polEntry l i)) d

/-- An IDENTITY record (R196). -/
def applyIdentity (d : Dev) (l : List Byte) : Dev :=
  d.modCcp (fun c => { c with idents := kput c.idents (natAt l 0 1) (identityOf l) })

/-- A PLY record (R264). -/
def applyPly (d : Dev) (l : List Byte) : Dev :=
  d.modPly (fun p =>
    { p with ply := natAt l 0 1, side := natAt l 1 1 == 1, pathBEn := natAt l 2 2 / 2 % 2 == 1,
             partnered := natAt l 2 2 % 2 == 1, partnerEui := BitVec.ofNat 64 (natAt l 4 8),
             partnerMac := BitVec.ofNat 48 (natAt l 0xC 6), devAddr := BitVec.ofNat 128 (natAt l 0x14 16),
             meshPrefix := BitVec.ofNat 64 (natAt l 0x24 8), plySkein := natAt l 0x2C 1, loomSkein := natAt l 0x2D 1,
             loomGroup := BitVec.ofNat 128 (natAt l 0x30 16) })

/-- Skeins may be installed from the image (R307): in BLANK and PROVISIONED. -/
def mayInstall (d : Dev) : Bool := d.pra.lifecycle == 1 || d.pra.lifecycle == 2

/-- A KEYWRAP record (R307): for an empty skein, half A, then the commit word, then the key is in working use; where the commit
word's write fails its verify (R53), the skein stays empty. -/
def applyKeywrap (faults : List Nat) (d : Dev) (l : List Byte) : Dev :=
  let k := keyWrapOf l
  if commitHalf (d.pra.word (commitWord k.skein)) ≠ 0 then d
  else if mayInstall d = false then report d evKeyCfgSkip []
  else
    let key := fitTo (wrapLen (attrType k.attr) - 8) (Config.unwrapKey (skeinKey d 0) k.wrapped)
    let h : Half := { skein := k.skein, gen := k.gen, attr := k.attr, district := k.district, key := key }
    let d := d.modDst (fun x => x.putHalf 1 k.skein h)
    let w := commitWord k.skein
    match praWait d w (pack [(30, 1), (0, k.gen)]) (!faults.contains w) with
    | (d, .ok) => loadHalf d k.skein h
    | (d, _) => d

/-- A record of an owning block applied, KEYWRAP left out. -/
def applyOwner (d : Dev) (r : ImgRecord) : Dev :=
  match r.kind with
  | 1 => applyRegion d r.payload
  | 2 => applySlotframe d r.payload
  | 3 => applyTable d r.payload
  | 4 => applyPolicy d r.payload
  | 6 => applyIdentity d r.payload
  | 7 => applyPly d r.payload
  | _ => d

/-- A record applied; REGISTER records come after all others (R50). -/
def applyRecord (faults : List Nat) (d : Dev) (r : ImgRecord) : Dev :=
  if r.kind = tyKeywrap then applyKeywrap faults d r.payload else applyOwner d r

/-- The entries of every REGISTER record, in image order (R50). -/
def allEntries (l : List ImgRecord) : List (Nat × Word) :=
  ((l.filter (fun r => r.kind == tyRegister)).map (fun r => regEntries r.payload)).flatten

/-! ## Step 6 -/

/-- The first part of step 6: the first record with a failing field. `d` is the device as the owners' records leave it, on
which REGISTER entries are tried in order. -/
def fieldsFail (kwBad : List Nat) : List (Nat × ImgRecord) → Dev → Option CfgFail × Dev
  | [], d => (none, d)
  | (i, r) :: rest, d =>
    if r.kind = tyRegister then
      let n := r.payload.length
      if n % 8 ≠ 0 ∨ n = 0 ∨ 32768 < n then (some ⟨8, i, 4⟩, d)
      else
        match entriesFail 0 (regEntries r.payload) d with
        | (some o, d) => (some ⟨8, i, o⟩, d)
        | (none, d) => fieldsFail kwBad rest d
    else
      match lowestFail (recordFields kwBad r) with
      | some o => (some ⟨8, i, o⟩, d)
      | none => fieldsFail kwBad rest d

/-- The KEYWRAP record that installs skein `s` in this start (R307), with its index. -/
def wrapFor (d : Dev) (l : List (Nat × ImgRecord)) (s : Nat) : Option (Nat × ImgRecord) :=
  if 2 ≤ s ∧ commitHalf (d.pra.word (commitWord s)) = 0 ∧ mayInstall d then
    l.find? (fun p => p.2.kind == tyKeywrap && natAt p.2.payload 0 1 == s)
  else none

/-- The attribute word that skein `s` will have: installed earlier, or by a KEYWRAP record in this start (R307); 0 where it
will hold no key. -/
def imageAttr (d : Dev) (l : List (Nat × ImgRecord)) (s : Nat) : Word :=
  if s < 2 ∨ commitHalf (d.pra.word (commitWord s)) ≠ 0 then skeinAttr d s
  else match wrapFor d l s with
    | some (_, r) => (keyWrapOf r.payload).attr
    | none => 0

/-- The skein is AES-256 and its attributes let a master encrypt and decrypt (R196, R264). -/
def skeinSuits (d : Dev) (l : List (Nat × ImgRecord)) (master s : Nat) : Bool :=
  let a := imageAttr d l s
  attrType a == 2 && bit a master && bit a useEncrypt && bit a useDecrypt

/-- The skeins that a record names, each with the field's payload offset and the master that uses it (R196, R264). -/
def skeinsNamed (r : ImgRecord) : List (Nat × Nat × Nat) :=
  let l := r.payload
  match r.kind with
  | 6 => [(1, masterCcp, natAt l 1 1)]
  | 7 => [(0x2C, masterLoom, natAt l 0x2C 1), (0x2D, masterLoom, natAt l 0x2D 1)]
  | _ => []

/-- The conditions on the skeins that record `i` names: each is judged at the later of the two records concerned (R49), so one
that a later KEYWRAP installs is left to that record. -/
def namedHere (d : Dev) (all : List (Nat × ImgRecord)) (i : Nat) (r : ImgRecord) : List (Nat × Bool) :=
  (skeinsNamed r).map (fun q =>
    let later : Bool := match wrapFor d all q.2.2 with | some (j, _) => decide (i < j) | none => false
    fieldAt q.1 (later || skeinSuits d all q.2.1 q.2.2))

/-- The conditions of earlier records on the skein that KEYWRAP record `i` installs, at its ATTR (R49). -/
def namedBefore (d : Dev) (all : List (Nat × ImgRecord)) (i : Nat) (r : ImgRecord) : List (Nat × Bool) :=
  let s := natAt r.payload 0 1
  let mine : Bool := match wrapFor d all s with | some (j, _) => i == j | none => false
  let users := ((all.filter (fun p => decide (p.1 < i))).map (fun p => skeinsNamed p.2)).flatten.filter (fun q => q.2.2 == s)
  [fieldAt 4 (!mine || users.all (fun q => skeinSuits d all q.2.1 s))]

/-- The cells of a SLOTFRAME record: payload offset, spindle and profile of each. -/
def cellProfiles (r : ImgRecord) : List (Nat × Nat × Nat) :=
  let s := sfRecOf r.payload
  if r.kind = tySlotframe then
    (List.range s.cells.length).map (fun i => (s.base + 8 * i, s.spn, cellProfile (s.cells.getD i (0, 0))))
  else []

/-- The profile of a cell is defined and suits its spindle's band (R160). -/
def cellSuits (reg : Region) (spn profile : Nat) : Bool :=
  match spindle? spn with | some n => reg.suits n profile | none => false

/-- The conditions of the SLOTFRAME records before the REGION record `i` on its profiles (R49, R160), at NPROF for a profile
that is not defined and at the profile's WAVE for one that does not suit. -/
def cellsBefore (all : List (Nat × ImgRecord)) (reg : Region) (i : Nat) : List (Nat × Bool) :=
  ((all.filter (fun p => decide (p.1 < i))).map (fun p => cellProfiles p.2)).flatten.map (fun q =>
    fieldAt (if (reg.profile? q.2.2).isSome then 0x44 + 96 * q.2.2 else 0x40) (cellSuits reg q.2.1 q.2.2))

/-- The REGION record comes after record `i`. -/
def regionAfter (all : List (Nat × ImgRecord)) (i : Nat) : Bool := all.any (fun p => p.2.kind == tyRegion && decide (i < p.1))

/-- What the records before have taken: slotframes, index ranges and hopping tables, table runs and the bank, whether BHSEL was
met, policy runs, skeins and identities. -/
structure Taken where
  sfs : List (Nat × Nat) := []
  ranges : List (Nat × Nat × Nat) := []
  hops : List (Nat × List Nat) := []
  mams : List (Nat × Nat) := []
  bank : Bank := {}
  bhsel : Bool := false
  pols : List (Nat × Nat) := []
  skeins : List Nat := []
  idents : List Nat := []

/-- Runs (first, count) overlap. -/
def overlap (a b : Nat × Nat) : Bool := decide (0 < a.2) && decide (0 < b.2) && decide (a.1 < b.1 + b.2) && decide (b.1 < a.1 + a.2)

/-- The conditions across the image whose later record is `r`, of index `i` (R49, R184, R196, R215, R237, R264, R307), and what
it takes. -/
def crossFields (d : Dev) (all : List (Nat × ImgRecord)) (reg : Region) (t : Taken) (i : Nat) (r : ImgRecord) :
    List (Nat × Bool) × Taken :=
  let l := r.payload
  match r.kind with
  | 1 => (cellsBefore all reg i, t)
  | 2 =>
    let s := sfRecOf l
    let run := (s.first, s.cells.length)
    ([fieldAt 1 (!t.sfs.contains (s.spn, s.sf)),
      fieldAt 4 (t.hops.all (fun h => h.1 != s.hop || h.2 == s.chans)),
      fieldAt 6 (t.ranges.all (fun x => x.1 != s.spn || !overlap x.2 run))]
      ++ (cellProfiles r).map (fun q => fieldAt q.1 (regionAfter all i || cellSuits reg q.2.1 q.2.2)),
     { t with sfs := (s.spn, s.sf) :: t.sfs, ranges := (s.spn, run) :: t.ranges, hops := (s.hop, s.chans) :: t.hops })
  | 3 =>
    let run := (tabFirst l, tabCount l)
    let kind := tabKind l
    let (bad, b) := match loadTable l t.bank with | .ok b => ([], b) | .error o => ([(o, false)], t.bank)
    ([fieldAt 0 (kind != 3 || !t.bhsel), fieldAt 2 (kind != 1 || t.mams.all (fun x => !overlap x run))] ++ bad,
     { t with bank := b, bhsel := t.bhsel || kind == 3, mams := if kind = 1 then run :: t.mams else t.mams })
  | 4 =>
    let run := (polFirst l, polCount l)
    ([fieldAt 0 (t.pols.all (fun x => !overlap x run))], { t with pols := run :: t.pols })
  | 5 =>
    (fieldAt 0 (!t.skeins.contains (natAt l 0 1)) :: namedBefore d all i r, { t with skeins := natAt l 0 1 :: t.skeins })
  | 6 =>
    (fieldAt 0 (!t.idents.contains (natAt l 0 1)) :: namedHere d all i r, { t with idents := natAt l 0 1 :: t.idents })
  | 7 => (namedHere d all i r, t)
  | _ => ([], t)

/-- The last entry of the image that names WRP_TIMING or WHL_TICK_PERIOD: its record and its number (R184). -/
def lastTiming (l : List (Nat × ImgRecord)) : Option (Nat × Nat) :=
  let hits := (l.filter (fun p => p.2.kind == tyRegister)).map (fun p =>
    let e := regEntries p.2.payload
    ((List.range e.length).filter (fun j => [0x180004, 0x10028].contains (e.getD j (0, 0)).1)).map (fun j => (p.1, j)))
  hits.flatten.getLast?

/-- The second part of step 6: the first record that breaks a condition across the image. `tmpl` says that the template will
keep its bounds. -/
def crossFail (d : Dev) (all : List (Nat × ImgRecord)) (reg : Region) (tmpl : Bool) (last : Option (Nat × Nat)) :
    List (Nat × ImgRecord) → Taken → Option CfgFail
  | [], _ => none
  | (i, r) :: rest, t =>
    let (c, t) := crossFields d all reg t i r
    let c := match last with
      | some (k, j) => if k = i ∧ tmpl = false then c ++ [(8 + 8 * j + 4, false)] else c
      | none => c
    match lowestFail c with
    | some o => some ⟨8, i, o⟩
    | none => crossFail d all reg tmpl last rest t

/-- Step 6 on the records that are not skipped. -/
def step6Fail (d : Dev) (kwBad : List Nat) (l : List (Nat × ImgRecord)) : Option CfgFail :=
  let shadow := each (l.map (·.2)) applyOwner d
  match fieldsFail kwBad l shadow with
  | (some f, _) => some f
  | (none, shadow) => crossFail d l shadow.region (templateOk shadow) (lastTiming l) l {}

/-- The whole check (R47): the records to apply with their index, and those skipped. -/
def checkImage (d : Dev) (image : List Byte) (kwBad : List Nat) :
    Except CfgFail (List (Nat × ImgRecord) × List (Nat × Nat × Nat)) :=
  let len := natAt image 8 4
  if image.length < 32 then .error ⟨9, noRecord, noOffset⟩
  else
    match headerFail image with
    | some f => .error f
    | none =>
      if image.length < len then .error ⟨9, noRecord, noOffset⟩
      else
        match walk (len / 12 + 1) 0 ((image.take len).drop 32) with
        | .error f => .error f
        | .ok l =>
          if natAt image 0xC 2 ≠ l.length + 1 then .error ⟨5, noRecord, 0xC⟩
          else
            match occurFail l with
            | some f => .error f
            | none =>
              match versionFail l with
              | some f => .error f
              | none =>
                let keep := (withPlace l).filter (fun p => p.2.supported)
                let skip := ((withPlace l).filter (fun p => !p.2.supported)).map (fun p => (p.1, p.2.type, p.2.version))
                match step6Fail d kwBad keep with
                | some f => .error f
                | none => .ok (keep, skip)

/-- MD2 is extended by the image's LENGTH octets, where they were read (R318; log 41). -/
def measureImage (d : Dev) (image : List Byte) : Dev :=
  let len := natAt image 8 4
  if within 48 1048576 len ∧ len ≤ image.length then extendMdBy d 2 (image.take len) else d

/-- A rejected image (R48, R49): nothing is applied. -/
def rejectConfig (d : Dev) (f : CfgFail) : Dev :=
  let d := report d evCfgReject (octets 1 f.code ++ octets 2 f.record ++ octets 4 f.offset)
  { d with phase := .imageChecked,
           start := { d.start with cfgCode := f.code, cfgRecord := f.record, cfgOffset := f.offset, configured := false } }

/-- An accepted image: its records are kept for CONFIG_APPLY, and each skipped record is reported (R47). -/
def acceptConfig (d : Dev) (serial : Nat) (l : List ImgRecord) (skip : List (Nat × Nat × Nat)) : Dev :=
  let d := each skip (fun d x => report d evCfgSkip (octets 2 x.1 ++ octets 2 x.2.1 ++ octets 2 x.2.2)) d
  { d with phase := .imageChecked,
           start := { d.start with records := l, serial := serial, cfgCode := 0, cfgRecord := noRecord,
                                   cfgOffset := noOffset, configured := true, skipped := skip } }

/-- CONFIG_IMAGE_CHECK (R42, R47 to R49): the image read once, measured and checked; none is a read error. -/
def doConfigImageCheck (image : Option (List Byte)) (kwBad : List Nat) (d : Dev) : Dev :=
  if d.phase = .fwStarted then
    match image with
    | none => rejectConfig d ⟨9, noRecord, noOffset⟩
    | some l =>
      let d := measureImage d l
      match checkImage d l kwBad with
      | .error f => rejectConfig d f
      | .ok (keep, skip) => acceptConfig d (natAt l 0x10 8) (keep.map (·.2)) skip
  else d

def execConfigImageCheck (dt : Nat) (image : Option (List Byte)) (kwBad : List Nat) (s : State) :
    Host.Outcome State Fault Refusal := run dt (doConfigImageCheck image kwBad) s

/-! ## Settings -/

/-- Groups whose VERSION differs from the firmware's (R62). -/
def groupsToReset (p : Pra) : List Nat := (List.range 16).filter (fun g => fld (p.word (0x10 + g)) 15 0 != settingVersion g)

/-- PRA_SETRESET from its fields (R60). -/
def setresetWord (done : Bool) (start groups : Nat) : Word := pack [(31, b2n done), (16, start), (0, groups)]

/-- The writes that reset a group, its 64 words and then its version word (R62). -/
def groupWrites (g : Nat) : List (Nat × Word) :=
  (List.range 64).map (fun i => (0x400 + 64 * g + i, settingDefault (0x400 + 64 * g + i)))
    ++ [(0x10 + g, BitVec.ofNat 32 (settingVersion g))]

/-- The writes of the reset of settings groups at a start, in order, and the GROUPS it reports (R62); none where no group
differs and the record found is done. -/
def resetPlan (p : Pra) : Option (List (Nat × Word) × Nat) :=
  let found := p.word 6
  let start := fld (p.word 2) 22 8
  match groupsToReset p with
  | [] => if bit found 31 then none else some ([(6, setresetWord true start (fld found 15 0))], fld found 15 0)
  | l =>
    let new := (l.map (fun g => 2 ^ g)).sum
    let groups := if bit found 31 then new else new ||| fld found 15 0
    some ((6, setresetWord false start groups) :: (l.map groupWrites).flatten ++ [(6, setresetWord true start groups)], groups)

/-! ## CONFIG_APPLY -/

/-- Words of the array as octets (R318). -/
def praOctets (p : Pra) (l : List Nat) : List Byte := (l.map (fun n => octets 4 (p.word n).toNat)).flatten

/-- MD3, MD4 and MD5 are extended (R318). -/
def measureArray (d : Dev) : Dev :=
  let p := d.pra
  let d := extendMdBy d 3 (praOctets p (0 :: (List.range 16).map (· + 0x10)))
  let d := extendMdBy d 4 (praOctets p [1, 3, 4])
  extendMdBy d 5 (praOctets p (operatorSkeins.map commitWord))

/-- The records of an accepted image are applied, then its REGISTER entries are written (R47, R50). -/
def applyImage (faults : List Nat) (d : Dev) : Dev :=
  if d.start.configured then
    each (allEntries d.start.records) (fun d e => (entryWrite d e.1 e.2).1) (each d.start.records (applyRecord faults) d)
  else d

/-- The records are applied and the reset of the settings is planned, once in a start. -/
def applyAndPlan (faults : List Nat) (d : Dev) : Dev :=
  if d.start.resetLeft.isSome then d
  else
    let d := applyImage faults d
    let plan := (resetPlan d.pra).getD ([], 0)
    { d with start := { d.start with resetLeft := some plan } }

/-- What is left of the settings reset goes on by at most `upto` writes, by all where none is given; the last one reports the
groups (R62). -/
def resetOn (faults : List Nat) (upto : Option Nat) (d : Dev) : Dev :=
  match d.start.resetLeft with
  | none => d
  | some (l, groups) =>
    let k := upto.getD l.length
    let d := praWaits faults (l.take k) d
    let d := { d with start := { d.start with resetLeft := some (l.drop k, groups) } }
    if l ≠ [] ∧ l.length ≤ k then report d evSettingsReset (octets 2 groups) else d

/-- CONFIG_APPLY (R38, R47, R48, R62, R318): of a rejected image no record is applied, and the settings are reset all the
same. `upto` is how many of the reset's writes are made before the supply goes or the step is cut short otherwise: what
is left follows in the next CONFIG_APPLY of this start, or is found by the next start. The words in `faults` fail their verify
(R53). The step comes once the writes that reached the array before it are done (R51). -/
def doConfigApply (faults : List Nat) (upto : Option Nat) (d : Dev) : Dev :=
  if d.phase = .imageChecked ∧ d.pra.idle then
    let d := resetOn faults upto (applyAndPlan faults d)
    if d.start.resetLeft.all (fun p => p.1.isEmpty) then { measureArray d with phase := .applied } else d
  else d

def execConfigApply (dt : Nat) (faults : List Nat) (upto : Option Nat) (s : State) : Host.Outcome State Fault Refusal :=
  run dt (doConfigApply faults upto) s

end Sys2Proof.Machine
end

