-- ==== Sys2Proof/Machine/PraRows.lean ====
section
/-! DEFINITION. The rows of the persistent register array (R51 to R58). -/

namespace Sys2Proof.Machine

/-- The writer of a persistent write learns its status (R51, R53, R54): a REG_WRITE goes on with its next pair, unless its
thread has ended meanwhile. -/
def praAnswer (d : Dev) (w : PraWriter) (st : Status) : Dev :=
  match w with
  | .reg => d.emit (.status st)
  | .svc seq => svcReply d 4 seq st []
  | .firmware => d
  | .thread th =>
    match d.thread? th with
    | some t =>
      if t.st = .running then
        if st = .ok then writePairs th (t.pairsDone + 1) t.pairsLeft d else finish d th st (pairsResult t.pairsDone)
      else d
    | none => d

/-- PRA_WRITE_BEGIN (R51, R54): the oldest write that waits is begun, or refused where its bucket is empty; a refill that
falls due now is taken first. -/
def doPraWriteBegin (d : Dev) : Dev :=
  match d.pra.busy, d.pra.queue with
  | none, q :: rest =>
    if d.phase.ctrlRuns then
      let d := (praDue d).modPra (fun p => { p with queue := rest })
      if d.pra.tokens q.word = 0 then praAnswer (praRefuse d q.word) q.writer .noToken
      else d.modPra (fun p => { p with busy := some q })
    else d
  | _, _ => d

def execPraWriteBegin (dt : Nat) (s : State) : Host.Outcome State Fault Refusal := run dt doPraWriteBegin s

/-- PRA_WRITE_COMPLETE (R51, R53, R54): refills that fall due by now are taken first. -/
def doPraWriteComplete (verifyOk : Bool) (d : Dev) : Dev :=
  match d.pra.busy with
  | none => d
  | some q =>
    let (d, st) := praFinish ((praDue d).modPra (fun p => { p with busy := none })) q.word q.value verifyOk
    praAnswer d q.writer st

def execPraWriteComplete (dt : Nat) (verifyOk : Bool) (s : State) : Host.Outcome State Fault Refusal :=
  run dt (doPraWriteComplete verifyOk) s

/-- PRA_TOKEN_REFILL (R54). -/
def doPraTokenRefill (d : Dev) : Dev := if d.phase.ctrlRuns then praDue d else d

def execPraTokenRefill (dt : Nat) (s : State) : Host.Outcome State Fault Refusal := run dt doPraTokenRefill s

/-- PRA_LIFE_UPDATE (R55, R56): once every 3,600 s of running, the whole seconds since the last update are added; the write
is skipped where the bucket is empty, and the seconds are then added at a later one. -/
def doPraLifeUpdate (verifyOk : Bool) (d : Dev) : Dev :=
  if d.phase.fwRuns ∧ d.pra.lifeDue ≤ d.glb.upNs then
    let d := praDue (d.modPra (fun p => { p with lifeDue := p.lifeDue + 3600000000000 }))
    if d.pra.tokens 5 = 0 then d
    else
      let k := (d.glb.upNs - d.pra.lifeAt) / 1000000000
      let d := d.modPra (fun p => { p with lifeAt := p.lifeAt + k * 1000000000 })
      praSkip d 5 (d.pra.word 5 + BitVec.ofNat 32 k) verifyOk
  else d

def execPraLifeUpdate (dt : Nat) (verifyOk : Bool) (s : State) : Host.Outcome State Fault Refusal :=
  run dt (doPraLifeUpdate verifyOk) s

end Sys2Proof.Machine
end

