-- ==== Sys2Proof/Machine/Service.lean ====
section
/-! DEFINITION. The service port (R335) and ROM recovery mode (R334, R336). -/

namespace Sys2Proof.Machine

/-! ## Requests -/

/-- The service port serves: the firmware runs, or the ROM in recovery mode has read the card (R334, R335). -/
def svcServed (d : Dev) : Bool := d.phase.fwRuns || (d.phase == .recovery && !d.pwr.vsd33)

/-- Runs a request of a TYPE that the modes given serve (R335): one that repeats the TYPE and SEQ of the request before has
that one's response again; one that the present mode does not serve is refused. -/
def svcRequest (d : Dev) (type : Nat) (seq : BitVec 8) (rom firmware : Bool) (f : Dev → Dev) : Dev :=
  if svcServed d = false then d
  else
    let d := d.modImg (fun i => { i with baudUntil := none })
    let fresh (d : Dev) : Dev :=
      if (if d.phase = .recovery then rom else firmware) then f d else svcReply d type seq .unknownOp []
    match d.img.prev with
    | some (t, s, st, l) => if t = type ∧ s = seq then svcSend d type seq st l else fresh d
    | none => fresh d

/-- HELLO. -/
def doHello (seq : BitVec 8) (d : Dev) : Dev :=
  svcRequest d 1 seq true true fun d =>
    svcReply d 1 seq .ok (octets 1 (b2n (d.phase != .recovery)) ++ octets 8 d.glb.eui.toNat ++ octets 4 (d.pra.word 1).toNat
      ++ octets 4 (d.pra.word 2).toNat ++ octets 4 (d.pra.word 3).toNat)

def execHello (dt : Nat) (seq : BitVec 8) (s : State) : Host.Outcome State Fault Refusal := run dt (doHello seq) s

/-- The rates of SET_BAUD. -/
def baudRates : List Nat := [115200, 230400, 460800, 921600, 1500000, 3000000]

/-- SET_BAUD: the response goes at the old rate. -/
def doSetBaud (seq : BitVec 8) (rate : Nat) (d : Dev) : Dev :=
  svcRequest d 2 seq true true fun d =>
    if baudRates.contains rate then
      (svcReply d 2 seq .ok []).modImg (fun i => { i with baud := rate, baudUntil := some (d.glb.upNs + 2000000000) })
    else svcReply d 2 seq .range []

def execSetBaud (dt : Nat) (seq : BitVec 8) (rate : Nat) (s : State) : Host.Outcome State Fault Refusal :=
  run dt (doSetBaud seq rate) s

/-- SET_BAUD_REVERT: no valid frame has come within 2 s at the new rate. -/
def doSetBaudRevert (d : Dev) : Dev :=
  match d.img.baudUntil with
  | none => d
  | some t => if t ≤ d.glb.upNs then d.modImg (fun i => { i with baud := 115200, baudUntil := none }) else d

def execSetBaudRevert (dt : Nat) (s : State) : Host.Outcome State Fault Refusal := run dt doSetBaudRevert s

/-- SVC_REG_READ. -/
def doSvcRegRead (seq : BitVec 8) (addr count : Nat) (d : Dev) : Dev :=
  svcRequest d 3 seq false true fun d =>
    if count < 1 ∨ 256 < count then svcReply d 3 seq .range []
    else
      let (l, d) := readRun d addr count
      svcReply d 3 seq .ok l

def execSvcRegRead (dt : Nat) (seq : BitVec 8) (addr count : Nat) (s : State) : Host.Outcome State Fault Refusal :=
  run dt (doSvcRegRead seq addr count) s

/-- SVC_REG_WRITE: a persistent word is answered when the array has performed the write. -/
def doSvcRegWrite (seq : BitVec 8) (addr : Nat) (v : Word) (d : Dev) : Dev :=
  svcRequest d 4 seq false true fun d =>
    if 3 ≤ d.pra.lifecycle then svcReply d 4 seq .state []
    else
      match persistentWord? addr with
      | some n => praAsk d n v (.svc seq)
      | none =>
        let (d, st) := writeAt d addr v
        svcReply d 4 seq st []

def execSvcRegWrite (dt : Nat) (seq : BitVec 8) (addr : Nat) (v : Word) (s : State) :
    Host.Outcome State Fault Refusal := run dt (doSvcRegWrite seq addr v) s

/-- QUOTE (R319): in recovery mode by the ROM; one asked of the firmware before START_HOLD waits for it. -/
def doQuote (seq : BitVec 8) (nonce : BitVec 256) (d : Dev) : Dev :=
  svcRequest d 5 seq true true fun d =>
    if d.phase = .recovery then answerQuote masterRom d (none, seq, nonce)
    else if d.phase = .up then answerQuote masterCcp d (none, seq, nonce)
    else d.modDst (fun x => { x with quoteWait := x.quoteWait ++ [(none, seq, nonce)] })

def execQuote (dt : Nat) (seq : BitVec 8) (nonce : BitVec 256) (s : State) : Host.Outcome State Fault Refusal :=
  run dt (doQuote seq nonce) s

/-- SERVICE_FRAME_GAP (R335): the octets that came are discarded without an answer. A request reaches the device as a whole
frame, so nothing of this one was held. -/
def doServiceFrameGap (d : Dev) : Dev := d

def execServiceFrameGap (dt : Nat) (s : State) : Host.Outcome State Fault Refusal := run dt doServiceFrameGap s

/-! ## Images in recovery mode -/

/-- The input allows flash to be programmed (R334). -/
def flashSupply (d : Dev) : Bool := decide (40000 ≤ d.pwr.vhold)

/-- The checks of R325 on a head, for either KIND (R336). -/
def headRefused (floor : Nat) (r : Reel) : Option Status :=
  if Reel.headOk r 1 = false ∧ Reel.headOk r 2 = false then some .reelFormat
  else if r.sigOk = false then some .reelSig
  else if r.svn < floor then some .rollback
  else none

/-- VALID of the inactive bank is cleared for a FIRMWARE reel (R336). -/
def clearInactive (d : Dev) (r : Reel) (verifyOk : Bool) : Dev × Status :=
  if r.kind = 1 then praWait d 3 (bankWithValid d.pra (1 - d.pra.activeBank) false) verifyOk else (d, .ok)

/-- A transfer ends. -/
def endTransfer (d : Dev) : Dev := d.modImg (fun i => { i with xfer := none })

/-- A failed check ends the transfer with its status (R336). -/
def failTransfer (d : Dev) (type : Nat) (seq : BitVec 8) (st : Status) : Dev := svcReply (endTransfer d) type seq st []

/-- MD6 is extended by an image received in recovery mode (R318, R336), although the digests are locked then. -/
def extendMd6 (d : Dev) (item : BitVec 384) : Dev :=
  d.modDst (fun x =>
    { x with md := x.md.set 6 (Config.sha384 (octets 48 (x.md.getD 6 0).toNat ++ octets 48 item.toNat)) })

/-- The image is whole and verified in flash (R336): for FIRMWARE the bank is selected on trial and the boot counts are
cleared; the reset follows 100 ms later. -/
def acceptImage (d : Dev) (r : Reel) (verifyOk : Bool) : Dev × Status :=
  let d := extendMd6 d r.digest
  let due (d : Dev) : Dev := d.modImg (fun i => { i with recReset := some (d.glb.upNs + 100000000) })
  if r.kind = 1 then
    let n := 1 - d.pra.activeBank
    match praWait d 3 (bankWord true (n == 1 || d.pra.bankValid 1) (n == 0 || d.pra.bankValid 0) n d.pra.floor) verifyOk with
    | (d, .ok) =>
      (match praWait d 2 (bootWord (fld (d.pra.word 2) 31 8) false 0) verifyOk with
      | (d, .ok) => (due d, .ok)
      | r => r)
    | r => r
  else (due d, .ok)

/-- IMG_BEGIN (R336). -/
def doImgBegin (seq : BitVec 8) (size : Nat) (d : Dev) : Dev :=
  svcRequest d 0x10 seq true false fun d =>
    svcReply (d.modImg (fun i => { i with xfer := some { size := size, got := 0, reel := none } })) 0x10 seq .ok []

def execImgBegin (dt : Nat) (seq : BitVec 8) (size : Nat) (s : State) : Host.Outcome State Fault Refusal :=
  run dt (doImgBegin seq size) s

/-- The head is complete (R336). -/
def takeHead (d : Dev) (seq : BitVec 8) (x : Transfer) (r : Reel) (flashOk verifyOk : Bool) : Dev :=
  match headRefused d.pra.floor r with
  | some st => failTransfer d 0x11 seq st
  | none =>
    if x.size ≠ (1 + r.nblk) * 65536 then failTransfer d 0x11 seq .reelFormat
    else
      match clearInactive d r verifyOk with
      | (d, .ok) =>
        if flashOk then svcReply (d.modImg (fun i => { i with xfer := some { x with reel := some r } })) 0x11 seq .ok []
        else failTransfer d 0x11 seq .flash
      | (d, st) => failTransfer d 0x11 seq st

/-- IMG_DATA (R336): data that completes the head or a block waits for 40 V of input (R334). -/
def doImgData (seq : BitVec 8) (offset count : Nat) (head : Reel) (blockOk flashOk verifyOk : Bool) (d : Dev) : Dev :=
  svcRequest d 0x11 seq true false fun d =>
    match d.img.xfer with
    | none => svcReply d 0x11 seq .range []
    | some x =>
      let got := x.got + count
      if count < 1 ∨ 4092 < count ∨ offset ≠ x.got ∨ x.size < got then svcReply d 0x11 seq .range []
      else if got / 65536 = x.got / 65536 then
        svcReply (d.modImg (fun i => { i with xfer := some { x with got := got } })) 0x11 seq .ok []
      else if flashSupply d = false then d
      else if x.got < 65536 then takeHead d seq { x with got := got } head flashOk verifyOk
      else if blockOk = false then failTransfer d 0x11 seq .reelBlock
      else if flashOk = false then failTransfer d 0x11 seq .flash
      else svcReply (d.modImg (fun i => { i with xfer := some { x with got := got } })) 0x11 seq .ok []

def execImgData (dt : Nat) (seq : BitVec 8) (offset count : Nat) (head : Reel) (blockOk flashOk verifyOk : Bool)
    (s : State) : Host.Outcome State Fault Refusal :=
  run dt (doImgData seq offset count head blockOk flashOk verifyOk) s

/-- IMG_END (R336). -/
def doImgEnd (seq : BitVec 8) (sigOk blocksOk verifyOk : Bool) (d : Dev) : Dev :=
  svcRequest d 0x12 seq true false fun d =>
    match d.img.xfer with
    | some { size := n, got := k, reel := some r } =>
      if k ≠ n then svcReply d 0x12 seq .state []
      else if sigOk = false then failTransfer d 0x12 seq .reelSig
      else if blocksOk = false then failTransfer d 0x12 seq .reelBlock
      else
        let (d, st) := acceptImage (endTransfer d) r verifyOk
        svcReply d 0x12 seq st []
    | _ => svcReply d 0x12 seq .state []

def execImgEnd (dt : Nat) (seq : BitVec 8) (sigOk blocksOk verifyOk : Bool) (s : State) :
    Host.Outcome State Fault Refusal := run dt (doImgEnd seq sigOk blocksOk verifyOk) s

/-- RECOVERY_RESET (R336): unless RECOVERY_N is low. -/
def doRecoveryReset (recoveryLow : Bool) (d : Dev) : Dev :=
  match d.img.recReset with
  | none => d
  | some t =>
    if t ≤ d.glb.upNs then
      let d := d.modPwr (fun p => { p with recoveryLow := recoveryLow })
      if recoveryLow then d.modImg (fun i => { i with recReset := none }) else controlReset d 9
    else d

def execRecoveryReset (dt : Nat) (recoveryLow : Bool) (s : State) : Host.Outcome State Fault Refusal :=
  run dt (doRecoveryReset recoveryLow) s

/-- The reel on a card that recovery mode writes: a good one of either KIND, in a file of its length (R325, R334). -/
def cardReel (floor : Nat) (c : Card) : Option Reel :=
  match c with
  | .none | .noFile => none
  | .file n r =>
    if n = (1 + r.nblk) * 65536 ∧ (Reel.good r 1 floor ∨ Reel.good r 2 floor) then some r else none

/-- RECOVERY_CARD_READ (R334): the card is read once, before the service port is served; a good reel on it is written as an
image received (R336), when the input allows; a persistent write that fails its verify ends it (R53). -/
def doRecoveryCardRead (card : Card) (verifyOk : Bool) (d : Dev) : Dev :=
  if d.phase = .recovery ∧ d.pwr.vsd33 then
    let d := d.modImg (fun i => { i with media := cardAnswers card })
    let off (d : Dev) : Dev := d.modPwr (fun p => { p with vsd33 := false })
    match cardReel d.pra.floor card with
    | none => off d
    | some r =>
      if flashSupply d then
        match clearInactive d r verifyOk with
        | (d, .ok) => off (acceptImage d r verifyOk).1
        | (d, _) => off d
      else d
  else d

def execRecoveryCardRead (dt : Nat) (card : Card) (verifyOk : Bool) (s : State) : Host.Outcome State Fault Refusal :=
  run dt (doRecoveryCardRead card verifyOk) s

end Sys2Proof.Machine
end

