-- ==== Sys2Proof/Machine/Picker.lean ====
section
/-! DEFINITION. Notices (R352) and the picker (R358 to R362), with the lost node contexts of R361. -/

namespace Sys2Proof.Machine

/-! ## NOTICE_SEND -/

/-- Identities with NOTICE set (R196). -/
def noticeIdents (d : Dev) : List (Nat × Identity) := d.ccp.idents.filter (·.2.notice)

/-- Packet `j` of the entries of a slot goes to an identity (R352): LOST stands in the last of `n` packets. -/
def noticePacket (l : List LogEntry) (n lost : Nat) (x : Nat × Identity) (d : Dev) (j : Nat) : Dev :=
  let part := (l.drop (254 * j)).take 254
  let first := match part with | e :: _ => e.index | [] => 0
  (ccpSend d x.1 x.2.addr x.2.port (fun seq =>
    .notice x.2.addr x.2.port x.1 seq first (if j + 1 = n then lost else 0) part)).2

/-- NOTICE_SEND (R352): the entries of the oldest slot whose notices have not left, once the slot is over. -/
def doNoticeSend (d : Dev) : Dev :=
  let waiting := d.evt.log.reverse.filter (fun e => decide (d.evt.noticed ≤ e.index))
  match waiting with
  | [] => d
  | e :: _ =>
    if d.phase ≠ .up ∨ e.slot = d.whl.slot then d
    else
      let batch := waiting.takeWhile (fun x => x.slot == e.slot)
      let l := batch.filter (fun x => (d.evt.src x.src).noticeEn)
      let n := (min l.length 1016 + 253) / 254
      let lost := l.length - 1016
      let to_ := noticeIdents d
      let d := each to_ (fun d x => each (List.range n) (noticePacket (l.take 1016) n lost x) d) d
      let d := { d with evt := { d.evt with noticed := e.index + batch.length } }
      if 0 < lost ∧ to_.isEmpty = false then
        report { d with evt := { d.evt with noticeLost := add32 d.evt.noticeLost lost } } evNoticeLost (octets 2 lost)
      else d

def execNoticeSend (dt : Nat) (s : State) : Host.Outcome State Fault Refusal := run dt doNoticeSend s

/-! ## Lost node contexts (R361) -/

/-- A node is made to rejoin: its context is cleared and its index is dormant. -/
def rejoinNode (d : Dev) (i : Nat) : Dev :=
  let d := leaveNode d i
  let clear (x : Node) : Node :=
    { eui := x.eui, handle := x.handle, home := x.home, visitor := x.visitor,
      dormantSince := if x.dormantSince.isSome then x.dormantSince else some d.glb.upNs }
  report (d.modNode i clear) evNodeLost (octets 4 i ++ octets 1 2)

/-- The context of node `i` is lost: it is absent, and its mirrored items are asked of the partner where there is one. -/
def loseNode (d : Dev) (i : Nat) : Dev :=
  match d.node? i with
  | none => d
  | some _ =>
    let d := d.modNode i (fun x => { x with lost := some d.glb.upNs, path := none })
    if d.ply.partnered ∧ d.ply.lastTick then plySend d (.snapReq (some i)) else rejoinNode d i

/-- NODE_REFETCH_TIMEOUT: 8 ticks without an answer. -/
def doNodeRefetchTimeout (i : Nat) (d : Dev) : Dev :=
  match d.node? i with
  | none => d
  | some x =>
    match x.lost with
    | some t => if t + 8 * d.whl.periodNs ≤ d.glb.upNs then rejoinNode d i else d
    | none => d

def execNodeRefetchTimeout (dt : Nat) (node : Nat) (s : State) : Host.Outcome State Fault Refusal :=
  run dt (doNodeRefetchTimeout node) s

/-! ## Uncorrectable errors in data in use (R360) -/

/-- SCRUB_UNCORR (R360): memory, byte address and action. The manual codes neither the memory nor the action, so these two
octets are free values. -/
def scrubUncorr (d : Dev) (addr : BitVec 32) : Dev :=
  let (m, d) := d.draw
  let (a, d) := d.draw
  report d evScrubUncorr (octets 1 (m.setWidth 8).toNat ++ octets 4 addr.toNat ++ octets 1 (a.setWidth 8).toNat)

/-- A forwarding entry: 0 MAM, 1 hash, 2 BH selection (R232, R360). -/
def loseForwarding (d : Dev) (shadow : Bool) (table index : Nat) : Dev :=
  let change (b : Bank) : Bank :=
    if table = 2 then { b with bhsel := ksetD b.bhsel index 0 (index % 2) } else b.drop (table + 1) index
  parityAt (d.modSht (fun s => s.putBank shadow (change (s.bankAt shadow)))) shadow table index

/-- The half in force (R360). -/
def loseHalf (d : Dev) (s : Nat) : Dev :=
  let code := commitHalf (d.pra.word (commitWord s))
  if code = 1 ∨ code = 2 then
    disableSkein (d.modDst (fun x =>
      match x.halfOf code s with | some h => x.putHalf code s { h with intact := false } | none => x)) s 4
  else d

/-- The half not in force (R360). -/
def loseOtherHalf (d : Dev) (s : Nat) : Dev :=
  let code := commitHalf (d.pra.word (commitWord s))
  if (code = 1 ∨ code = 2) ∧ (d.dst.otherOf code s).isSome then
    report (d.modDst (fun x => x.dropHalf (3 - code) s)) evKeyHalfDiscard []
  else d

/-- A thread record (R360): which fields lay in the failing word is a free value. -/
def loseThread (d : Dev) (th : Nat) : Dev :=
  match d.thread? th with
  | none => d
  | some _ =>
    let (r, d) := (finish d th .lostState []).draw
    let z (i n : Nat) : Nat := if r.getLsbD i then 0 else n
    d.modThread th (fun t =>
      { t with status := .lostState, result := [], started := true, hseq := z 0 t.hseq, idx := z 1 t.idx, epoch := z 2 t.epoch,
               msg := { t.msg with tag := z 3 t.msg.tag, opcode := z 4 t.msg.opcode } })

/-- A bulk object (R360). -/
def loseObject (d : Dev) (o : Nat) : Dev :=
  let users := (d.ccp.threads.filter (fun p => p.2.uses o)).map (·.1)
  each users (fun d th => finish d th .lostState []) (d.modObj o (fun x => { x with closed := false }))

/-- A cell of the packet `pos` places behind the head of a queue (R360). -/
def poisonPacket (d : Dev) (p : Port) (c pos : Nat) : Dev :=
  let q := d.queue p c
  d.setQueue p c (q.take pos ++ match q.drop pos with | x :: r => { x with p := { x.p with poison := true } } :: r | [] => [])

/-! ## Free memory (R362) -/

/-- A page of the bulk region, pages being numbered through the regions of R17 in their order. -/
def bulkPage (p : Nat) : Bool := decide (24576 ≤ p) && decide (p < 57344)

/-- A location is retired. -/
def retire (d : Dev) (kind loc : Nat) : Dev :=
  let d := d.modGlb (fun g =>
    { g with retired := inc32 g.retired, retiredAt := (kind, loc) :: g.retiredAt,
             retiredCells := if kind = 0 then g.retiredCells + 1 else g.retiredCells,
             retiredPages := if kind = 1 ∧ bulkPage loc then g.retiredPages + 1 else g.retiredPages,
             spareThread := if kind = 2 then g.spareThread - 1 else g.spareThread,
             spareNode := if kind = 3 then g.spareNode - 1 else g.spareNode })
  let d := report d evMemRetire []
  watchIf d evSparesLow (decide (d.glb.spareThread < 16) || decide (d.glb.spareNode < 16))

/-- No spare record is left for a location of the kind. -/
def noSpare (g : Glb) (kind : Nat) : Bool := (kind == 2 && g.spareThread == 0) || (kind == 3 && g.spareNode == 0)

/-- An error at a free location: the first in a run, or the second, which retires it. Where no spare is left, a thread or node
record stays in use, and its errors are handled as `inUse` handles those of data in use. -/
def freeError (inUse : Dev → Dev) (d : Dev) (kind loc : Nat) : Dev :=
  if d.glb.retiredAt.contains (kind, loc) then d
  else if d.glb.firstErr.contains (kind, loc) then
    if noSpare d.glb kind then inUse d else bufEval (objWatch (retire d kind loc))
  else report (d.modGlb (fun g => { g with firstErr := (kind, loc) :: g.firstErr })) evScrubFree []

/-! ## PICKER_SCAN -/

/-- What an uncorrectable error leads to (R360). -/
def uncorrectable (d : Dev) (addr : BitVec 32) (t : ScrubTarget) : Dev :=
  match t with
  | .forwarding shadow table index => loseForwarding d shadow table index
  | .node i => loseNode d i
  | .skeinShare s => if s < 2 ∨ (kfind d.dst.skeins s).isSome then disableSkein d s 4 else d
  | .halfInForce s => loseHalf d s
  | .halfOther s => loseOtherHalf d s
  | .cacheEntry s eui gen =>
    scrubUncorr (d.modDst (fun x =>
      { x with cache := x.cache.filter (fun e => !(e.skein == s && e.eui == eui && e.gen == gen)) })) addr
  | .bufferCell p c pos => scrubUncorr (poisonPacket d p c.val pos) addr
  | .thread th => scrubUncorr (loseThread d th) addr
  | .object o => scrubUncorr (loseObject d o) addr
  | .cell n i => scrubUncorr (d.modWrp (fun w => { w with cells := w.cells.set n (kdel (w.cells.get n) i) })) addr
  | .policy i =>
    scrubUncorr (d.modCcp (fun c => { c with policy := kadj c.policy i (fun p => { p with valid := false }) })) addr
  | .logEntry i =>
    scrubUncorr { d with evt := { d.evt with
      log := d.evt.log.map (fun e => if e.index = i then { e with src := 0xFFFF } else e) } } addr
  | .working => scrubUncorr (d.modGlb (fun g => { g with faultReset := true })) addr
  | .freeBuffer l => freeError id d 0 l
  | .freePage l => freeError id d 1 l
  | .freeThread l => freeError (fun d => scrubUncorr (loseThread d l) addr) d 2 l
  | .freeNode l => freeError (fun d => loseNode d l) d 3 l

/-- The place of a memory of R358 among the four. -/
def ScrubMemory.num : ScrubMemory → Fin 4
  | .buffer => 0
  | .tables => 1
  | .forwarding => 2
  | .dram => 3

/-- A memory's pass ends (R358, R359). -/
def endPass (d : Dev) (m : ScrubMemory) : Dev :=
  let i := ScrubMemory.num m
  let d := d.modGlb (fun g =>
    { g with lastCorr := g.lastCorr.set i (g.passCorr.get i), passCorr := g.passCorr.set i 0,
             sramPass := if m = .dram then g.sramPass else inc32 g.sramPass,
             dramPass := if m = .dram then inc32 g.dramPass else g.dramPass })
  let l := d.glb.lastCorr.list
  watch d evScrubCorrHigh 0 (l.any (fun n => decide (1024 < n))) (l.all (fun n => decide (n ≤ 256))) []

/-- PICKER_SCAN (R358 to R362). -/
def doPickerScan (m : ScrubMemory) (t : ScrubTarget) (addr : BitVec 32) (r : ScrubResult) (passEnd : Bool) (d : Dev) : Dev :=
  if d.phase.ctrlRuns then
    let i := ScrubMemory.num m
    let d :=
      match r with
      | .clean => d
      | .correctable => d.modGlb (fun g => { g with corr := inc32 g.corr, passCorr := g.passCorr.set i (g.passCorr.get i + 1) })
      | .uncorrectable => uncorrectable (d.modGlb (fun g => { g with uncorr := inc32 g.uncorr })) addr t
    if passEnd then endPass d m else d
  else d

def execPickerScan (dt : Nat) (mem : ScrubMemory) (tgt : ScrubTarget) (addr : BitVec 32) (r : ScrubResult) (passEnd : Bool)
    (s : State) : Host.Outcome State Fault Refusal := run dt (doPickerScan mem tgt addr r passEnd) s

end Sys2Proof.Machine
end

