-- ==== Sys2Proof/Machine/Dispatch.lean ====
section
/-! DEFINITION. The commands' meanings, one arm per row of spec/opcode_table.json. -/

namespace Sys2Proof.Machine

def exec (i : Instr) (s : State) : Host.Outcome State Fault Refusal :=
  match i with
  | .registerWrite dt addr v => Sys2Proof.Machine.execRegisterWrite dt addr v s
  | .logicRailRise dt => Sys2Proof.Machine.execLogicRailRise dt s
  | .resetNRelease dt => Sys2Proof.Machine.execResetNRelease dt s
  | .inputRise35V dt => Sys2Proof.Machine.execInputRise35V dt s
  | .resetNAssert dt => Sys2Proof.Machine.execResetNAssert dt s
  | .inputFall33V dt => Sys2Proof.Machine.execInputFall33V dt s
  | .railInTolerance dt => Sys2Proof.Machine.execRailInTolerance dt s
  | .railTimeout dt board => Sys2Proof.Machine.execRailTimeout dt board s
  | .controlDieResetRelease dt recoveryLow straps bhref verifyOk => Sys2Proof.Machine.execControlDieResetRelease dt recoveryLow straps bhref verifyOk s
  | .sfdpDiscovery dt sfdp => Sys2Proof.Machine.execSfdpDiscovery dt sfdp s
  | .loaderCheck dt reel => Sys2Proof.Machine.execLoaderCheck dt reel s
  | .dramZeroFill dt code => Sys2Proof.Machine.execDramZeroFill dt code s
  | .bankLoad dt bank0 bank1 verifyOk => Sys2Proof.Machine.execBankLoad dt bank0 bank1 verifyOk s
  | .firmwareStart dt tests faults => Sys2Proof.Machine.execFirmwareStart dt tests faults s
  | .configImageCheck dt image kwBad => Sys2Proof.Machine.execConfigImageCheck dt image kwBad s
  | .configApply dt faults upto => Sys2Proof.Machine.execConfigApply dt faults upto s
  | .startHold dt bootOk bankOk => Sys2Proof.Machine.execStartHold dt bootOk bankOk s
  | .praWriteBegin dt => Sys2Proof.Machine.execPraWriteBegin dt s
  | .praWriteComplete dt verifyOk => Sys2Proof.Machine.execPraWriteComplete dt verifyOk s
  | .praTokenRefill dt => Sys2Proof.Machine.execPraTokenRefill dt s
  | .praLifeUpdate dt verifyOk => Sys2Proof.Machine.execPraLifeUpdate dt verifyOk s
  | .learnedOffsetWrite dt verifyOk => Sys2Proof.Machine.execLearnedOffsetWrite dt verifyOk s
  | .tunerCodesWrite dt n verifyOk => Sys2Proof.Machine.execTunerCodesWrite dt n verifyOk s
  | .clockMonitorWindow dt indep spn rx0 rx1 rxp => Sys2Proof.Machine.execClockMonitorWindow dt indep spn rx0 rx1 rxp s
  | .pllLossOfLock dt n => Sys2Proof.Machine.execPllLossOfLock dt n s
  | .bobbinWordWrite dt b w seen => Sys2Proof.Machine.execBobbinWordWrite dt b w seen s
  | .bobbinWordRead dt b flip seen => Sys2Proof.Machine.execBobbinWordRead dt b flip seen s
  | .bobbinFlushWrite dt b v => Sys2Proof.Machine.execBobbinFlushWrite dt b v s
  | .bobbinFlushComplete dt b => Sys2Proof.Machine.execBobbinFlushComplete dt b s
  | .bobErrClear dt b v => Sys2Proof.Machine.execBobErrClear dt b v s
  | .bobHwmClr dt b v => Sys2Proof.Machine.execBobHwmClr dt b v s
  | .temperatureSample dt t paired => Sys2Proof.Machine.execTemperatureSample dt t paired s
  | .supplyMeasure dt vhold pin rails => Sys2Proof.Machine.execSupplyMeasure dt vhold pin rails s
  | .watchdogExpire dt => Sys2Proof.Machine.execWatchdogExpire dt s
  | .tickStrobe dt tcxo beacon => Sys2Proof.Machine.execTickStrobe dt tcxo beacon s
  | .drainComplete dt => Sys2Proof.Machine.execDrainComplete dt s
  | .scheduleComputation dt => Sys2Proof.Machine.execScheduleComputation dt s
  | .phaseDeadlineMiss dt ph => Sys2Proof.Machine.execPhaseDeadlineMiss dt ph s
  | .transmitLatch dt n whole => Sys2Proof.Machine.execTransmitLatch dt n whole s
  | .whlLatch dt v => Sys2Proof.Machine.execWhlLatch dt v s
  | .whlCtrlWrite dt v => Sys2Proof.Machine.execWhlCtrlWrite dt v s
  | .whlTodArm dt => Sys2Proof.Machine.execWhlTodArm dt s
  | .whlTickPeriodWrite dt v => Sys2Proof.Machine.execWhlTickPeriodWrite dt v s
  | .whlEpochWrite dt hi v => Sys2Proof.Machine.execWhlEpochWrite dt hi v s
  | .whlOvrClr dt v => Sys2Proof.Machine.execWhlOvrClr dt v s
  | .ptpSync dt port m => Sys2Proof.Machine.execPtpSync dt port m s
  | .ptpAnnounce dt port m => Sys2Proof.Machine.execPtpAnnounce dt port m s
  | .ptpDelayReqSend dt port => Sys2Proof.Machine.execPtpDelayReqSend dt port s
  | .ptpDelayResp dt port m => Sys2Proof.Machine.execPtpDelayResp dt port m s
  | .ptpAnnounceTimeout dt port => Sys2Proof.Machine.execPtpAnnounceTimeout dt port s
  | .ppsInEdge dt rising interval => Sys2Proof.Machine.execPpsInEdge dt rising interval s
  | .ppsTimeout dt => Sys2Proof.Machine.execPpsTimeout dt s
  | .ref10mLoss dt => Sys2Proof.Machine.execRef10mLoss dt s
  | .ptpPreferenceTimer dt => Sys2Proof.Machine.execPtpPreferenceTimer dt s
  | .ppsOutSecond dt => Sys2Proof.Machine.execPpsOutSecond dt s
  | .launchRelease dt => Sys2Proof.Machine.execLaunchRelease dt s
  | .spnTargetWrite dt n v => Sys2Proof.Machine.execSpnTargetWrite dt n v s
  | .spindleStateReached dt n pairs => Sys2Proof.Machine.execSpindleStateReached dt n pairs s
  | .spnWindowWrite dt n v => Sys2Proof.Machine.execSpnWindowWrite dt n v s
  | .spnBindWrite dt n d v => Sys2Proof.Machine.execSpnBindWrite dt n d v s
  | .calStart dt n => Sys2Proof.Machine.execCalStart dt n s
  | .inhClr dt n => Sys2Proof.Machine.execInhClr dt n s
  | .spnTuneWrite dt n v => Sys2Proof.Machine.execSpnTuneWrite dt n v s
  | .spnTrimWrite dt n v => Sys2Proof.Machine.execSpnTrimWrite dt n v s
  | .calPairEnd dt n pairs => Sys2Proof.Machine.execCalPairEnd dt n pairs s
  | .calBlankEnd dt n => Sys2Proof.Machine.execCalBlankEnd dt n s
  | .txsynCalPair dt n pair => Sys2Proof.Machine.execTxsynCalPair dt n pair s
  | .cxRequest dt n => Sys2Proof.Machine.execCxRequest dt n s
  | .cxGrantSample dt n grant => Sys2Proof.Machine.execCxGrantSample dt n grant s
  | .cxGrantFall dt pair => Sys2Proof.Machine.execCxGrantFall dt pair s
  | .txSequenceStep dt n st => Sys2Proof.Machine.execTxSequenceStep dt n st s
  | .txStart dt n => Sys2Proof.Machine.execTxStart dt n s
  | .txEnd dt n rl => Sys2Proof.Machine.execTxEnd dt n rl s
  | .txReleaseStep dt n st => Sys2Proof.Machine.execTxReleaseStep dt n st s
  | .reflectionCheck dt n rl => Sys2Proof.Machine.execReflectionCheck dt n rl s
  | .inhibitRetry dt n => Sys2Proof.Machine.execInhibitRetry dt n s
  | .maskBlockCheck dt n levels => Sys2Proof.Machine.execMaskBlockCheck dt n levels s
  | .receiveIdle dt n => Sys2Proof.Machine.execReceiveIdle dt n s
  | .spindleHold dt th => Sys2Proof.Machine.execSpindleHold dt th s
  | .holdEnd dt n => Sys2Proof.Machine.execHoldEnd dt n s
  | .preambleDetect dt n d corr rssi snr foff coded => Sys2Proof.Machine.execPreambleDetect dt n d corr rssi snr foff coded s
  | .headerDecode dt n d hdr => Sys2Proof.Machine.execHeaderDecode dt n d hdr s
  | .frameEnd dt n d octets corrected fcsOk => Sys2Proof.Machine.execFrameEnd dt n d octets corrected fcsOk s
  | .frameTooLong dt n d => Sys2Proof.Machine.execFrameTooLong dt n d s
  | .rxFrameProcess dt mac => Sys2Proof.Machine.execRxFrameProcess dt mac s
  | .nodeOffsetLapse dt node => Sys2Proof.Machine.execNodeOffsetLapse dt node s
  | .correctionFrameExpire dt node => Sys2Proof.Machine.execCorrectionFrameExpire dt node s
  | .cellRead dt v => Sys2Proof.Machine.execCellRead dt v s
  | .cellWrite dt v => Sys2Proof.Machine.execCellWrite dt v s
  | .cellDelete dt v => Sys2Proof.Machine.execCellDelete dt v s
  | .sfArm dt n h v => Sys2Proof.Machine.execSfArm dt n h v s
  | .sfDisarm dt n h v => Sys2Proof.Machine.execSfDisarm dt n h v s
  | .sfSwitch dt n h => Sys2Proof.Machine.execSfSwitch dt n h s
  | .wrpHopWrite dt t j v => Sys2Proof.Machine.execWrpHopWrite dt t j v s
  | .wrpTimingWrite dt ackt v => Sys2Proof.Machine.execWrpTimingWrite dt ackt v s
  | .dioTrickleTimer dt => Sys2Proof.Machine.execDioTrickleTimer dt s
  | .disReceive dt node => Sys2Proof.Machine.execDisReceive dt node s
  | .daoReceive dt eui route lifetime band district seq => Sys2Proof.Machine.execDaoReceive dt eui route lifetime band district seq s
  | .daoPathLapse dt node => Sys2Proof.Machine.execDaoPathLapse dt node s
  | .dormantExpire dt node => Sys2Proof.Machine.execDormantExpire dt node s
  | .throwConfirmReceive dt node throwId status => Sys2Proof.Machine.execThrowConfirmReceive dt node throwId status s
  | .hankReceive dt port frag p => Sys2Proof.Machine.execHankReceive dt port frag p s
  | .reassemblyTimeout dt src id => Sys2Proof.Machine.execReassemblyTimeout dt src id s
  | .hankAdmit dt => Sys2Proof.Machine.execHankAdmit dt s
  | .threadTimeout dt th => Sys2Proof.Machine.execThreadTimeout dt th s
  | .threadRetainExpire dt th => Sys2Proof.Machine.execThreadRetainExpire dt th s
  | .completionSend dt => Sys2Proof.Machine.execCompletionSend dt s
  | .regRead dt th => Sys2Proof.Machine.execRegRead dt th s
  | .regWrite dt th => Sys2Proof.Machine.execRegWrite dt th s
  | .praInfo dt th => Sys2Proof.Machine.execPraInfo dt th s
  | .healthSummary dt th => Sys2Proof.Machine.execHealthSummary dt th s
  | .healthLog dt th => Sys2Proof.Machine.execHealthLog dt th s
  | .threadQuery dt th => Sys2Proof.Machine.execThreadQuery dt th s
  | .completeAck dt th => Sys2Proof.Machine.execCompleteAck dt th s
  | .powerState dt th => Sys2Proof.Machine.execPowerState dt th s
  | .powerOffRails dt => Sys2Proof.Machine.execPowerOffRails dt s
  | .wakeElapsed dt => Sys2Proof.Machine.execWakeElapsed dt s
  | .returnTest dt th => Sys2Proof.Machine.execReturnTest dt th s
  | .test dt th => Sys2Proof.Machine.execTest dt th s
  | .spindleTestComplete dt n r => Sys2Proof.Machine.execSpindleTestComplete dt n r s
  | .bypass dt th => Sys2Proof.Machine.execBypass dt th s
  | .unbypass dt th => Sys2Proof.Machine.execUnbypass dt th s
  | .nodeReq dt th => Sys2Proof.Machine.execNodeReq dt th s
  | .nodeReplyReceive dt node tag data => Sys2Proof.Machine.execNodeReplyReceive dt node tag data s
  | .throwGroupSet dt th => Sys2Proof.Machine.execThrowGroupSet dt th s
  | .throwCmd dt => Sys2Proof.Machine.execThrowCmd dt s
  | .objOpen dt th => Sys2Proof.Machine.execObjOpen dt th s
  | .objWrite dt th => Sys2Proof.Machine.execObjWrite dt th s
  | .objClose dt th => Sys2Proof.Machine.execObjClose dt th s
  | .objDelete dt th => Sys2Proof.Machine.execObjDelete dt th s
  | .objSend dt th corrected poisoned => Sys2Proof.Machine.execObjSend dt th corrected poisoned s
  | .policyWrite dt th => Sys2Proof.Machine.execPolicyWrite dt th s
  | .policyRead dt th => Sys2Proof.Machine.execPolicyRead dt th s
  | .keyLoad dt th unwrapOk readBackOk verifyOk steps => Sys2Proof.Machine.execKeyLoad dt th unwrapOk readBackOk verifyOk steps s
  | .keyAttr dt th => Sys2Proof.Machine.execKeyAttr dt th s
  | .keyErase dt th verifyOk => Sys2Proof.Machine.execKeyErase dt th verifyOk s
  | .keyInfo dt th => Sys2Proof.Machine.execKeyInfo dt th s
  | .lifecycleSet dt th verifyOk faults upto => Sys2Proof.Machine.execLifecycleSet dt th verifyOk faults upto s
  | .reelStage dt th card verifyOk => Sys2Proof.Machine.execReelStage dt th card verifyOk s
  | .reelStageBlock dt cardOk blockOk flashOk bankSigOk bankBlocksOk verifyOk => Sys2Proof.Machine.execReelStageBlock dt cardOk blockOk flashOk bankSigOk bankBlocksOk verifyOk s
  | .reelActivate dt => Sys2Proof.Machine.execReelActivate dt s
  | .reelActivateExecute dt verifyOk => Sys2Proof.Machine.execReelActivateExecute dt verifyOk s
  | .activateReset dt => Sys2Proof.Machine.execActivateReset dt s
  | .ownerLock dt th verifyOk => Sys2Proof.Machine.execOwnerLock dt th verifyOk s
  | .quoteReq dt port p => Sys2Proof.Machine.execQuoteReq dt port p s
  | .packetIngress dt port p => Sys2Proof.Machine.execPacketIngress dt port p s
  | .packetIngressEnd dt port fcsOk => Sys2Proof.Machine.execPacketIngressEnd dt port fcsOk s
  | .egressSelect dt port => Sys2Proof.Machine.execEgressSelect dt port s
  | .portLink dt port up => Sys2Proof.Machine.execPortLink dt port up s
  | .tableRead dt v => Sys2Proof.Machine.execTableRead dt v s
  | .tableWrite dt v => Sys2Proof.Machine.execTableWrite dt v s
  | .tableDelete dt v => Sys2Proof.Machine.execTableDelete dt v s
  | .tableInsert dt v => Sys2Proof.Machine.execTableInsert dt v s
  | .tableFind dt v => Sys2Proof.Machine.execTableFind dt v s
  | .tableLookup dt v => Sys2Proof.Machine.execTableLookup dt v s
  | .bankSwap dt v => Sys2Proof.Machine.execBankSwap dt v s
  | .shaperWrite dt addr v => Sys2Proof.Machine.execShaperWrite dt addr v s
  | .policerWrite dt addr v => Sys2Proof.Machine.execPolicerWrite dt addr v s
  | .gateArm dt p v => Sys2Proof.Machine.execGateArm dt p v s
  | .gateCancel dt p v => Sys2Proof.Machine.execGateCancel dt p v s
  | .gateSwitch dt p => Sys2Proof.Machine.execGateSwitch dt p s
  | .gateEntryChange dt p => Sys2Proof.Machine.execGateEntryChange dt p s
  | .pauseReceive dt port f => Sys2Proof.Machine.execPauseReceive dt port f s
  | .pauseExpire dt port c => Sys2Proof.Machine.execPauseExpire dt port c s
  | .pauseLong dt port c => Sys2Proof.Machine.execPauseLong dt port c s
  | .pfcRefresh dt port j => Sys2Proof.Machine.execPfcRefresh dt port j s
  | .fcConfigWrite dt addr v => Sys2Proof.Machine.execFcConfigWrite dt addr v s
  | .heartbeatSend dt written => Sys2Proof.Machine.execHeartbeatSend dt written s
  | .heartbeatReceive dt path h b => Sys2Proof.Machine.execHeartbeatReceive dt path h b s
  | .offerReceive dt h r => Sys2Proof.Machine.execOfferReceive dt h r s
  | .mergeWaitExpire dt hash => Sys2Proof.Machine.execMergeWaitExpire dt hash s
  | .assignReceive dt h r => Sys2Proof.Machine.execAssignReceive dt h r s
  | .countersReceive dt h dest dsn fc => Sys2Proof.Machine.execCountersReceive dt h dest dsn fc s
  | .deltaReceive dt h epoch d => Sys2Proof.Machine.execDeltaReceive dt h epoch d s
  | .snapReqReceive dt h node => Sys2Proof.Machine.execSnapReqReceive dt h node s
  | .snapReceive dt h epoch nodes cells regs policy polEpoch last => Sys2Proof.Machine.execSnapReceive dt h epoch nodes cells regs policy polEpoch last s
  | .treadleTimeout dt => Sys2Proof.Machine.execTreadleTimeout dt s
  | .treadleReset dt => Sys2Proof.Machine.execTreadleReset dt s
  | .treadleStatusTimeout dt => Sys2Proof.Machine.execTreadleStatusTimeout dt s
  | .treadleLost dt => Sys2Proof.Machine.execTreadleLost dt s
  | .loomBeaconSend dt => Sys2Proof.Machine.execLoomBeaconSend dt s
  | .loomBeaconReceive dt h ply b => Sys2Proof.Machine.execLoomBeaconReceive dt h ply b s
  | .loomEntryLapse dt ply side => Sys2Proof.Machine.execLoomEntryLapse dt ply side s
  | .visitQReceive dt h ply eui => Sys2Proof.Machine.execVisitQReceive dt h ply eui s
  | .visitAReceive dt h ply eui handle => Sys2Proof.Machine.execVisitAReceive dt h ply eui handle s
  | .visitTimeout dt eui => Sys2Proof.Machine.execVisitTimeout dt eui s
  | .whereReceive dt h ply handle serving => Sys2Proof.Machine.execWhereReceive dt h ply handle serving s
  | .whereRefresh dt node => Sys2Proof.Machine.execWhereRefresh dt node s
  | .homeLeaseExpire dt node => Sys2Proof.Machine.execHomeLeaseExpire dt node s
  | .fwdReceive dt h ply p => Sys2Proof.Machine.execFwdReceive dt h ply p s
  | .relayReceive dt h ply handle dport tag noReply data => Sys2Proof.Machine.execRelayReceive dt h ply handle dport tag noReply data s
  | .relayResReceive dt h ply handle tag status data => Sys2Proof.Machine.execRelayResReceive dt h ply handle tag status data s
  | .nodeRefetchTimeout dt node => Sys2Proof.Machine.execNodeRefetchTimeout dt node s
  | .keyRemask dt => Sys2Proof.Machine.execKeyRemask dt s
  | .rngHealthWindow dt pass => Sys2Proof.Machine.execRngHealthWindow dt pass s
  | .hello dt seq => Sys2Proof.Machine.execHello dt seq s
  | .setBaud dt seq rate => Sys2Proof.Machine.execSetBaud dt seq rate s
  | .setBaudRevert dt => Sys2Proof.Machine.execSetBaudRevert dt s
  | .svcRegRead dt seq addr count => Sys2Proof.Machine.execSvcRegRead dt seq addr count s
  | .svcRegWrite dt seq addr v => Sys2Proof.Machine.execSvcRegWrite dt seq addr v s
  | .quote dt seq nonce => Sys2Proof.Machine.execQuote dt seq nonce s
  | .serviceFrameGap dt => Sys2Proof.Machine.execServiceFrameGap dt s
  | .imgBegin dt seq size => Sys2Proof.Machine.execImgBegin dt seq size s
  | .imgData dt seq offset count head blockOk flashOk verifyOk => Sys2Proof.Machine.execImgData dt seq offset count head blockOk flashOk verifyOk s
  | .imgEnd dt seq sigOk blocksOk verifyOk => Sys2Proof.Machine.execImgEnd dt seq sigOk blocksOk verifyOk s
  | .recoveryReset dt recoveryLow => Sys2Proof.Machine.execRecoveryReset dt recoveryLow s
  | .recoveryCardRead dt card verifyOk => Sys2Proof.Machine.execRecoveryCardRead dt card verifyOk s
  | .evtStickyClear dt addr v => Sys2Proof.Machine.execEvtStickyClear dt addr v s
  | .noticeSend dt => Sys2Proof.Machine.execNoticeSend dt s
  | .pickerScan dt mem tgt addr r passEnd => Sys2Proof.Machine.execPickerScan dt mem tgt addr r passEnd s
  | .thrHwmClr dt v => Sys2Proof.Machine.execThrHwmClr dt v s
  | .holdupCheckStart dt v1 => Sys2Proof.Machine.execHoldupCheckStart dt v1 s
  | .holdupCheckEnd dt v2 p => Sys2Proof.Machine.execHoldupCheckEnd dt v2 p s
  | .logicRailFall dt => Sys2Proof.Machine.execLogicRailFall dt s
  | .ref10mQualify dt edge rate => Sys2Proof.Machine.execRef10mQualify dt edge rate s
  | .pllRelock dt n => Sys2Proof.Machine.execPllRelock dt n s
  | .treadleStatusResume dt => Sys2Proof.Machine.execTreadleStatusResume dt s
  | .receiveWindowStart dt n => Sys2Proof.Machine.execReceiveWindowStart dt n s

end Sys2Proof.Machine
end

