-- ==== Sys2Proof/Safety.lean ====
section
/-! DEFINITION. What claims are stated in: the persistent register array keeps its canonical form and its budget; what persists;
and what a command gives. -/

namespace Sys2Proof.Machine

/-- Words, wear counters and buckets are listed with strictly rising keys, no word and no counter equal to what an
unlisted one reads as. -/
def Pra.wf (p : Pra) : Bool :=
  ksorted p.words && p.words.all (fun q => q.2 != 0) && ksorted p.wear && p.wear.all (fun q => q.2 != 0)
    && ksorted p.spent

/-- No bucket has spent more than its 4,096 tokens (R54). -/
def Pra.budgetOk (p : Pra) : Bool := p.spent.all (fun q => decide (q.2 ≤ 4096))

/-- What stays through every reset and every loss of supply: persistent words and their wear, the halves of the key store, the
root keys, and what is as built (R10, R298). -/
def Kept (a b : Dev) : Prop :=
  b.pra.words = a.pra.words ∧ b.pra.wear = a.pra.wear ∧ b.dst.halfA = a.dst.halfA ∧ b.dst.halfB = a.dst.halfB
    ∧ b.dst.root = a.dst.root ∧ b.glb.eui = a.glb.eui ∧ b.glb.ctrlStep = a.glb.ctrlStep ∧ b.glb.radioStep = a.glb.radioStep
    ∧ b.glb.powerStep = a.glb.powerStep

/-- On `s`, command `c` answers a next state: the queue is as it was, and `P` holds of the device after. -/
def Gives (c : Instr) (s : State) (P : Dev → Prop) : Prop :=
  ∃ t, exec c s = .next t ∧ t.pending = s.pending ∧ P t.dev

/-- Thread `th` is READY with command `c`, and the device takes commands (R202). -/
def ReadyFor (d : Dev) (th : Nat) (t : Thread) (c : Cmd) : Prop :=
  d.phase = .up ∧ d.thread? th = some t ∧ t.st = .ready ∧ t.cmd = c

/-- Thread `th` is DONE with a status and a result (R202, R204). -/
def EndedWith (d : Dev) (th : Nat) (st : Status) (res : List Byte) : Prop :=
  ∃ t, d.thread? th = some t ∧ t.st = .done ∧ t.status = st ∧ t.result = res

/-- Thread `t` once its command has started (R202). -/
def Thread.begun (t : Thread) : Thread := { t with st := .running, started := true }

/-- Nothing that waits on a spindle is thread `th`'s. -/
def Untied (d : Dev) (th : Nat) : Prop :=
  ∀ n : Fin 4, (∀ p, (d.spn.get n).holdPend = some p → p.1 ≠ th) ∧ (∀ p, (d.spn.get n).oosPend = some p → p.2 ≠ th)

/-- A service request is no repeat of the one before (R335). -/
def NewRequest (d : Dev) (type : Nat) (seq : BitVec 8) : Prop := ∀ o, d.img.prev ≠ some (type, seq, o)

/-- The components of the device. -/
inductive Part
  | phase | free | out | pwr | glb | start | pra | evt | whl | spn | region | wrp | ccp | sht | que | crd | ply | dst | img | bob
  deriving DecidableEq, Repr

/-- A component is the same in two states of the device. -/
def Part.same (a b : Dev) : Part → Prop
  | .phase => b.phase = a.phase
  | .free => b.free = a.free
  | .out => b.out = a.out
  | .pwr => b.pwr = a.pwr
  | .glb => b.glb = a.glb
  | .start => b.start = a.start
  | .pra => b.pra = a.pra
  | .evt => b.evt = a.evt
  | .whl => b.whl = a.whl
  | .spn => b.spn = a.spn
  | .region => b.region = a.region
  | .wrp => b.wrp = a.wrp
  | .ccp => b.ccp = a.ccp
  | .sht => b.sht = a.sht
  | .que => b.que = a.que
  | .crd => b.crd = a.crd
  | .ply => b.ply = a.ply
  | .dst => b.dst = a.dst
  | .img => b.img = a.img
  | .bob => b.bob = a.bob

/-- From `a` to `b` nothing changes outside the components listed. -/
structure Only (l : List Part) (a b : Dev) : Prop where
  same : ∀ p, p ∉ l → p.same a b

/-- From `a` to `b` threads have ended and nothing else has changed: with them pending activations go (R330), and throws given up
at a fence leave the launch table and their records (R209), which none does where no thread is FENCED. -/
def ThreadsOnly (a b : Dev) : Prop :=
  Only [.whl, .ccp, .ply, .img] a b ∧ ((∀ p ∈ a.ccp.threads, p.2.st ≠ .fenced) → Only [.ccp, .img] a b)

/-- Whenever command `c` answers a next state, nothing has changed outside the components listed once its time has passed. -/
def Frame (c : Instr) (dt : Nat) (l : List Part) (s : State) : Prop := ∀ t, exec c s = .next t → Only l (s.dev.elapse dt) t.dev

end Sys2Proof.Machine
end

