-- ==== Sys2Proof/Certificates/Slice0/Obligations.lean ====
section
/-! DEFINITION. The statements for the provers. Each is about every state that meets its hypotheses. `e` stands for the device
after the command's time has passed, before its effect. -/

open Sys2Proof Sys2Proof.Machine

/-- A step takes the command at the front of the queue and runs it on the state with the queue's rest. -/
def Obligations.StepRunsTheFrontCommand : Prop :=
  ∀ (c : Instr) (d : Dev) (rest : List Instr), step { dev := d, pending := c :: rest } = exec c { dev := d, pending := rest }

/-- No command stops the machine: every step answers a next state, whose queue is the rest of the queue. With no command waiting
the block idles (the model's choice: log 1). -/
def Obligations.StepsAlwaysAnswer : Prop :=
  (∀ s : State, ∃ t, step s = .next t ∧ t.pending = s.pending.tail)
  ∧ ∀ d : Dev, step { dev := d, pending := [] } = .next { dev := d, pending := [] }

/-- Supply: the logic rail rises; the input rises and a start begins; the rails come up in five steps; one that misses its
maximum offset ends the sequence with FAILSAFE_N asserted and the rail recorded (R38, R39, R376). Under these conditions exec
answers a next state for each of: logicRailRise, inputRise35V, railInTolerance, railTimeout. -/
def Obligations.RailSequence : Prop :=
  ∀ (s : State) (dt : Nat), let e := s.dev.elapse dt
    (s.dev.phase = .unpowered → Gives (.logicRailRise dt) s (fun d => d = { e with
      phase := .off, pwr := { wall := s.dev.pwr.wall + dt, cause := 1, powerOn := true, inputOk := false, pwrfail := true } }))
    ∧ (s.dev.phase = .off → s.dev.pwr.resetLow = false → s.dev.pwr.inputOk = false → s.dev.pwr.powerOn = true →
      Gives (.inputRise35V dt) s (fun d => d.phase = .rails 0 ∧ d.pwr.cause = 1 ∧ d.pwr.t0 = s.dev.pwr.wall + dt
        ∧ d.pwr.inputOk = true ∧ d.pwr.pwrfail = false ∧ d.pwr.powerOn = false ∧ d.whl = {} ∧ Kept s.dev d))
    ∧ (∀ k, k < 5 → s.dev.phase = .rails k →
      (s.dev.pwr.wall + dt ≤ s.dev.pwr.t0 + (k + 1) * 1000000 →
        Gives (.railInTolerance dt) s (fun d => d = { e with phase := .rails (k + 1) }))
      ∧ (s.dev.pwr.t0 + (k + 1) * 1000000 < s.dev.pwr.wall + dt → Gives (.railInTolerance dt) s (fun d => d = e))
      ∧ ∀ board, s.dev.pwr.t0 + (k + 1) * 1000000 ≤ s.dev.pwr.wall + dt →
        Gives (.railTimeout dt board) s (fun d => d.phase = .railFailed ∧ d.pwr.failsafe = true ∧ d.pwr.cause = 4
          ∧ d.pwr.rail = railOfStep k board ∧ Kept s.dev d))

/-- A reset returns the device to its values after release of RESET_N and keeps what persists (R10, R40, R51, R298, R346):
RESET_N asserted and the input lost switch the rails off; the watchdog, ACTIVATE and the end of recovery reset the control
die; the logic rail's fall leaves no supply. Under these conditions exec answers a next state for each of: resetNAssert,
inputFall33V, watchdogExpire, resetNRelease, logicRailFall. -/
def Obligations.ResetsKeepWhatPersists : Prop :=
  ∀ (s : State) (dt : Nat),
    (s.dev.phase.ctrlRuns = true →
      Gives (.resetNAssert dt) s (fun d => d.phase = .off ∧ d.pwr.resetLow = true ∧ d.whl = {} ∧ d.wrp = {} ∧ d.ccp = {}
        ∧ d.evt = {} ∧ d.spn = Four.all {} ∧ Kept s.dev d)
      ∧ Gives (.inputFall33V dt) s (fun d => d.phase = .off ∧ d.pwr.pwrfail = true ∧ d.pwr.inputOk = false ∧ d.whl = {}
        ∧ d.sht = {} ∧ d.que = {} ∧ d.ply = {} ∧ Kept s.dev d)
      ∧ Gives (.watchdogExpire dt) s (fun d => d.phase = .inReset ∧ d.pwr.cause = 7 ∧ d.whl = {} ∧ d.ccp = {} ∧ d.evt = {}
        ∧ d.dst.skeins = [] ∧ Kept s.dev d))
    ∧ (s.dev.phase = .off → s.dev.pwr.resetLow = true → s.dev.pwr.inputOk = true → s.dev.pwr.powerOn = false →
      Gives (.resetNRelease dt) s (fun d => d.phase = .rails 0 ∧ d.pwr.cause = 2 ∧ d.pwr.resetLow = false
        ∧ d.pwr.t0 = s.dev.pwr.wall + dt ∧ Kept s.dev d))
    ∧ Gives (.logicRailFall dt) s (fun d => d.phase = .unpowered ∧ d.whl = {} ∧ d.ccp = {} ∧ d.evt = {} ∧ Kept s.dev d)

/-- Release of control die reset (R38, R41, R53, R386, R388): the ROM samples the straps and counts the start in PRA_BOOT, which
keeps its old value where the write fails its verify; the second failed start in a row enters recovery, and RECOVERY_N low
enters it at once; without BHREF the control die has no clock and stays in reset. Under these conditions exec answers a next
state for each of: controlDieResetRelease. -/
def Obligations.RomCountsTheStart : Prop :=
  ∀ (s : State) (dt : Nat) (straps : BitVec 5), (s.dev.phase = .rails 5 ∨ s.dev.phase = .inReset) →
    let b := s.dev.pra.word 2
    let fails := if bit b 7 && [5, 6, 7].contains s.dev.pwr.cause then min (fld b 3 0 + 1) 15 else fld b 3 0
    (∀ ok, fails < 2 → Gives (.controlDieResetRelease dt false straps true ok) s (fun d =>
      d.phase = .romBooted ∧ d.pra.word 2 = (if ok then bootWord (fld b 31 8 + 1) true fails else b) ∧ d.pwr.straps = straps
        ∧ ∀ n, n ≠ 2 → d.pra.word n = s.dev.pra.word n))
    ∧ (∀ ok, 2 ≤ fails → Gives (.controlDieResetRelease dt false straps true ok) s (fun d =>
      d.phase = .recovery ∧ d.dst.mdLocked = true ∧ d.pra.words = s.dev.pra.words))
    ∧ (∀ ok, Gives (.controlDieResetRelease dt true straps true ok) s (fun d =>
      d.phase = .recovery ∧ d.dst.mdLocked = true ∧ d.pra.words = s.dev.pra.words))
    ∧ ∀ low ok, Gives (.controlDieResetRelease dt low straps false ok) s (fun d => d.phase = .inReset ∧ Kept s.dev d)

/-- The loader's part of a start (R36, R38, R318, R332, R368): each step measures or records what it reads, and a step that fails
enters recovery. The firmware's part of a start (R38, R41, R48, R49, R192, R346): firmware start sets BOOT from the count of
starts; a read error of the image rejects it with code 0x09; an image that passes is accepted; the records are applied, or,
of a rejected image, none; a settings reset that is cut short goes on where it was left (R62); and at START_HOLD PEND and
FAILS are cleared, the digests are locked and HOLD is entered. Under these conditions exec answers a next state for each of:
sfdpDiscovery, loaderCheck, dramZeroFill, bankLoad, firmwareStart, configImageCheck, configApply, startHold. -/
def Obligations.StepsOfTheStart : Prop :=
  (∀ (s : State) (dt : Nat), let e := s.dev.elapse dt
     (∀ f : Sfdp, s.dev.phase = .romBooted →
       (Sfdp.ok f = true → Gives (.sfdpDiscovery dt f) s (fun d => d = { e with phase := .sfdpDone }))
       ∧ (Sfdp.ok f = false → Gives (.sfdpDiscovery dt f) s (fun d => d.phase = .recovery ∧ d.dst.mdLocked = true)))
     ∧ (∀ r : Reel, s.dev.phase = .sfdpDone → s.dev.dst.mdLocked = false →
       Reel.good r 2 s.dev.pra.floor = true →
       let md := s.dev.dst.md.set 0 (Config.sha384 (octets 48 (s.dev.dst.md.getD 0 0).toNat ++ octets 48 r.digest.toNat))
       Gives (.loaderCheck dt r) s (fun d => d = { e with phase := .loaderDone, dst := { e.dst with md := md } }))
     ∧ (∀ code : BitVec 2, s.dev.phase = .loaderDone →
       Gives (.dramZeroFill dt code) s (fun d => d.phase = .dramDone ∧ kgetD d.glb.selftest 3 0 = code
         ∧ d.start.deferred = s.dev.start.deferred ++ (if code = 2 then [(evSelftestFail, [3])] else []) ∧ d.pra = s.dev.pra))
     ∧ (∀ (r0 r1 : Reel) (ok : Bool), s.dev.phase = .dramDone → s.dev.dst.mdLocked = false → s.dev.pra.trial = false →
       let r := if s.dev.pra.activeBank = 0 then r0 else r1
       let md := s.dev.dst.md.set 1 (Config.sha384 (octets 48 (s.dev.dst.md.getD 1 0).toNat ++ octets 48 r.digest.toNat))
       Reel.good r 1 s.dev.pra.floor = true → Gives (.bankLoad dt r0 r1 ok) s (fun d =>
         d = { e with phase := .bankLoaded, dst := { e.dst with md := md }, start := d.start }
         ∧ d.start = { s.dev.start with bank := s.dev.pra.activeBank, reels := some (r0, r1) })))
  ∧ ∀ (s : State) (dt : Nat), let e := s.dev.elapse dt
      (∀ tests faults, s.dev.phase = .bankLoaded → s.dev.pra.lifecycle ≠ 4 → Gives (.firmwareStart dt tests faults) s (fun d =>
        d.phase = .fwStarted ∧ fld d.ccp.boot 31 8 = fld (s.dev.pra.word 2) 31 8 ∧ d.img.running = s.dev.start.bank
          ∧ d.pra.words = s.dev.pra.words))
      ∧ (s.dev.phase = .fwStarted →
        (∀ kwBad, Gives (.configImageCheck dt none kwBad) s (fun d => d.phase = .imageChecked ∧ d.start.configured = false
          ∧ d.start.cfgCode = 9 ∧ d.start.cfgRecord = 0xFFFF ∧ d.start.cfgOffset = 0xFFFFFFFF ∧ d.evt.sticky evCfgReject = true
          ∧ d.pra = s.dev.pra ∧ d.wrp = s.dev.wrp ∧ d.ccp = s.dev.ccp ∧ d.spn = s.dev.spn))
        ∧ (∀ image kwBad keep skip, checkImage (measureImage e image) image kwBad = .ok (keep, skip) →
          Gives (.configImageCheck dt (some image) kwBad) s (fun d => d.phase = .imageChecked ∧ d.start.configured = true
            ∧ d.start.records = keep.map (·.2) ∧ d.start.serial = natAt image 0x10 8 ∧ d.start.cfgCode = 0
            ∧ d.start.cfgRecord = 0xFFFF ∧ d.start.cfgOffset = 0xFFFFFFFF ∧ d.wrp = s.dev.wrp ∧ d.spn = s.dev.spn)))
      ∧ (∀ faults upto, s.dev.phase = .imageChecked → s.dev.pra.idle = true → s.dev.start.configured = false →
        s.dev.start.resetLeft = none → resetPlan s.dev.pra = none →
        Gives (.configApply dt faults upto) s (fun d => d.phase = .applied ∧ d.spn = s.dev.spn
          ∧ d.ccp = s.dev.ccp ∧ d.ply = s.dev.ply ∧ d.pra = s.dev.pra ∧ d.wrp = s.dev.wrp))
      ∧ (∀ l g k, s.dev.phase = .imageChecked → s.dev.pra.idle = true → s.dev.start.resetLeft = some (l, g) → k < l.length →
        Gives (.configApply dt [] (some k)) s (fun d => d.phase = .imageChecked ∧ d.start.resetLeft = some (l.drop k, g)))
      ∧ (∀ bootOk bankOk, s.dev.phase = .applied → s.dev.pra.idle = true → s.dev.pra.trial = false →
        Gives (.startHold dt bootOk bankOk) s (fun d => d.phase = .up ∧ d.glb.power = 1 ∧ d.dst.mdLocked = true
        ∧ d.pra.word 2 = (if bootOk then bootWord (fld (s.dev.pra.word 2) 31 8) false 0 else s.dev.pra.word 2)
        ∧ d.start.deferred = [] ∧ (s.dev.dst.quoteWait = [] → d.evt.sticky evStartHold = true)))

/-- An accepted image whose settings need no reset: the records are applied in image order, then the REGISTER entries are written
(R47, R50). What a record sets (R122, R184, R196, R264, R307): REGION the spindles' values, SLOTFRAME an enabled slotframe,
IDENTITY an operator identity, PLY the ply's, and KEYWRAP, for an empty skein in BLANK or PROVISIONED, half A and the commit
word. Under these conditions exec answers a next state for each of: configApply. -/
def Obligations.RecordsAreApplied : Prop :=
  (∀ (s : State) (dt : Nat) (faults : List Nat) (upto : Option Nat), s.dev.phase = .imageChecked → s.dev.pra.idle = true →
     s.dev.start.configured = true → s.dev.start.resetLeft = none → allEntries s.dev.start.records = [] →
     let d' := s.dev.start.records.foldl (applyRecord faults) (s.dev.elapse dt)
     resetPlan d'.pra = none →
     Gives (.configApply dt faults upto) s (fun d => d.phase = .applied ∧ d.spn = d'.spn ∧ d.region = d'.region ∧ d.wrp = d'.wrp
       ∧ d.sht = d'.sht ∧ d.ccp = d'.ccp ∧ d.ply = d'.ply ∧ d.pra = d'.pra ∧ d.dst.skeins = d'.dst.skeins))
  ∧ ∀ (faults : List Nat) (d : Dev) (r : ImgRecord), let l := r.payload
      (r.kind = tyRegion → ∀ n : Fin 4, let x := (applyRecord faults d r).spn.get n
        x.window = natAt l (16 * n.val) 2 ∧ x.txMax = natAt l (16 * n.val + 2) 1 ∧ x.txLevel = natAt l (16 * n.val + 3) 1
          ∧ x.reqLead = natAt l (16 * n.val + 6) 2 ∧ x.calDt = natAt l (16 * n.val + 10) 1 ∧ x.target = (d.spn.get n).target)
      ∧ (r.kind = tySlotframe → ∀ n : Fin 4, (sfRecOf l).spn = n.val →
        ((applyRecord faults d r).wrp.sf n (sfRecOf l).sf).cfg = sfWord (sfRecOf l) ∧ (applyRecord faults d r).ccp = d.ccp)
      ∧ (r.kind = tyIdentity → applyRecord faults d r =
        { d with ccp := { d.ccp with idents := kput d.ccp.idents (natAt l 0 1) (identityOf l) } })
      ∧ (r.kind = tyPly → let p := (applyRecord faults d r).ply
        p.ply = natAt l 0 1 ∧ p.side = (natAt l 1 1 == 1) ∧ p.plySkein = natAt l 0x2C 1 ∧ p.loomSkein = natAt l 0x2D 1
          ∧ p.role = d.ply.role ∧ (applyRecord faults d r).wrp = d.wrp)
      ∧ (r.kind = tyKeywrap → let k := keyWrapOf l
        (commitHalf (d.pra.word (commitWord k.skein)) ≠ 0 → applyRecord faults d r = d)
        ∧ (commitHalf (d.pra.word (commitWord k.skein)) = 0 → mayInstall d = true →
          faults.contains (commitWord k.skein) = false →
          (applyRecord faults d r).pra.word (commitWord k.skein) = pack [(30, 1), (0, k.gen)]
          ∧ ((applyRecord faults d r).dst.halfOf 1 k.skein).map (·.gen) = some k.gen))

/-- A register write while the firmware runs (R7, R8, R11, R12): the addressed block takes it and the status is returned; a write
where no register lies changes nothing but the report of ADDR_UNMAPPED; a write of an operator's word goes to the array.
Where no register lies a read gives 0 and reports, and a write changes no register (R11). Under these conditions exec answers
a next state for each of: registerWrite. -/
def Obligations.RegisterAccesses : Prop :=
  (∀ (s : State) (dt a : Nat) (v : Word), s.dev.phase.fwRuns = true → let e := s.dev.elapse dt
     (persistentWord? a = none → (block? a).isSome = true → Gives (.registerWrite dt a v) s (fun d =>
       d = (writeAt e a v).1.emit (.status (writeAt e a v).2)))
     ∧ (block? a = none → Gives (.registerWrite dt a v) s (fun d =>
       d = { e with evt := d.evt, out := [.status .ok] } ∧ d.evt.sticky evAddrUnmapped = true))
     ∧ (∀ n, 0x400 ≤ n → n < 0x2000 → a = 0x700000 + 4 * n → Gives (.registerWrite dt a v) s (fun d =>
       d = { e with pra := { e.pra with queue := e.pra.queue ++ [{ word := n, value := v, writer := .reg }] } })))
  ∧ ∀ (d : Dev) (a : Nat) (v : Word), block? a = none → d.phase.fwRuns = true →
      (readAt d a).1 = 0 ∧ (readAt d a).2.evt.sticky evAddrUnmapped = true
        ∧ (readAt d a).2 = { d with evt := (readAt d a).2.evt }
        ∧ (writeAt d a v).1 = { d with evt := (writeAt d a v).1.evt } ∧ (writeAt d a v).1.evt.sticky evAddrUnmapped = true

/-- The array's write engine (R51, R53, R54): refills fallen due are taken first (`a` is the device after them). The oldest write
that waits is begun where its bucket holds a token, and is refused, with PRA_NO_TOKEN, where it does not; at its end the word
holds the value, or keeps its old one with status WRITE_FAULT where the verify fails; a token is taken and the wear counted
either way; no other word and no other bucket changes. Refill (R54): each bucket gains one token at each refill instant that
has come, up to 4,096; the words and their wear stay. The buckets are in their canonical form and within their budget, which
every step keeps. Under these conditions exec answers a next state for each of: praWriteBegin, praWriteComplete,
praTokenRefill. -/
def Obligations.ArrayWritesAndRefill : Prop :=
  (∀ (s : State) (dt : Nat), let e := s.dev.elapse dt
     let a := praDue e
     (∀ q rest, s.dev.phase.ctrlRuns = true → s.dev.pra.busy = none → s.dev.pra.queue = q :: rest →
       (0 < a.pra.tokens q.word → Gives (.praWriteBegin dt) s (fun d =>
         d = { a with pra := { a.pra with queue := rest, busy := some q } }))
       ∧ (a.pra.tokens q.word = 0 → q.writer = .reg ∨ q.writer = .firmware → Gives (.praWriteBegin dt) s (fun d =>
         d.pra = { a.pra with queue := rest } ∧ d.out = (if q.writer = .reg then [.status .noToken] else [])
           ∧ (s.dev.phase.fwRuns = true → d.evt.sticky evPraNoToken = true))))
     ∧ (∀ q, s.dev.pra.busy = some q → q.writer = .reg ∨ q.writer = .firmware → ∀ ok,
       Gives (.praWriteComplete dt ok) s (fun d => d.pra.busy = none
         ∧ d.pra.word q.word = (if ok then q.value else s.dev.pra.word q.word)
         ∧ d.pra.wearOf q.word = inc32 (s.dev.pra.wearOf q.word) ∧ d.pra.tokens q.word = a.pra.tokens q.word - 1
         ∧ d.out = (if q.writer = .reg then [.status (if ok then .ok else .writeFault)] else [])
         ∧ (ok = false → s.dev.phase.fwRuns = true → d.evt.sticky evPraWriteFault = true)
         ∧ ∀ n, n ≠ q.word → d.pra.word n = s.dev.pra.word n ∧ d.pra.tokens n = a.pra.tokens n)))
  ∧ ∀ (s : State) (dt : Nat), s.dev.phase.ctrlRuns = true → s.dev.pra.wf = true → s.dev.pra.budgetOk = true →
      let e := s.dev.elapse dt
      let k := s.dev.pra.refillsDue e.glb.upNs
      Gives (.praTokenRefill dt) s (fun d => (∀ n, d.pra.tokens n = min 4096 (s.dev.pra.tokens n + k))
        ∧ d.pra.words = s.dev.pra.words ∧ d.pra.wear = s.dev.pra.wear
        ∧ d.pra.refillAt = s.dev.pra.refillAt + k * 8000000000)

/-- The device's own settings writes (R53, R55, R91, R123): PRA_LIFE gains the whole seconds run, the learned TCXO offset and the
tuner codes go to their words, or the word keeps its value where the verify fails; no other word changes; and behind a write
that is in progress the device's own waits its turn. `a` is the device once the refills fallen due are taken. Under these
conditions exec answers a next state for each of: praLifeUpdate, learnedOffsetWrite, tunerCodesWrite. -/
def Obligations.OwnWritesOfTheFirmware : Prop :=
  ∀ (s : State) (dt : Nat) (ok : Bool), let e := s.dev.elapse dt
    let a := praDue e
    (s.dev.phase.fwRuns = true → s.dev.pra.lifeDue ≤ e.glb.upNs → 0 < a.pra.tokens 5 →
      let v := s.dev.pra.word 5 + BitVec.ofNat 32 ((e.glb.upNs - s.dev.pra.lifeAt) / 1000000000)
      Gives (.praLifeUpdate dt ok) s (fun d => (∀ n, n ≠ 5 → d.pra.word n = s.dev.pra.word n)
        ∧ (s.dev.pra.idle = true → d.pra.word 5 = (if ok then v else s.dev.pra.word 5))
        ∧ (s.dev.pra.idle = false → d.pra.queue = s.dev.pra.queue ++ [{ word := 5, value := v, writer := .firmware }])))
    ∧ (s.dev.phase = .up → e.whl.lockedFor 3600000000000 = true → s.dev.pra.word 0x400 = 0x80000000 →
      s.dev.pra.learnedAt + 3600000000000 ≤ e.glb.upNs → 0 < a.pra.tokens 0x400 →
      let v := BitVec.ofNat 32 (toTwos 32 s.dev.whl.learnedTcxo)
      Gives (.learnedOffsetWrite dt ok) s (fun d => (∀ n, n ≠ 0x400 → d.pra.word n = s.dev.pra.word n)
        ∧ (s.dev.pra.idle = true → d.pra.word 0x400 = (if ok then v else s.dev.pra.word 0x400))
        ∧ (s.dev.pra.idle = false → d.pra.queue = s.dev.pra.queue ++ [{ word := 0x400, value := v, writer := .firmware }])))
    ∧ (∀ n : Fin 4, s.dev.phase = .up → fld (s.dev.pra.word (0x440 + n.val)) 13 8 + 2 ≤ (s.dev.spn.get n).cs →
      s.dev.pra.tunerAt.get n = 0 → 0 < a.pra.tokens (0x440 + n.val) →
      let v := tunerWord (s.dev.spn.get n).cs (s.dev.spn.get n).cp
      Gives (.tunerCodesWrite dt n ok) s (fun d => (∀ m, m ≠ 0x440 + n.val → d.pra.word m = s.dev.pra.word m)
        ∧ (s.dev.pra.idle = true → d.pra.word (0x440 + n.val) = (if ok then v else s.dev.pra.word (0x440 + n.val)))
        ∧ (s.dev.pra.idle = false →
          d.pra.queue = s.dev.pra.queue ++ [{ word := 0x440 + n.val, value := v, writer := .firmware }])))

/-- Words through a bobbin (R25, R28, R30). `x` is the bobbin as the command finds it, with what the synchroniser shows. A word
written with room joins the end; on FULL a flow-controlled writer holds it, and a free-running one discards its packet, which
is counted and reported; in a flush it is discarded. A word with good parity is taken from the front and delivered as it
came; one with bad parity of data is counted and delivered with POISON; from an empty bobbin nothing is read. Every other
bobbin stays. Flush, error and high-water registers of a bobbin (R8, R32, R35). `x` is the bobbin as the command finds it.
Where the reader has been shown every word, a flush discards and counts all; PAR and its count clear by a 1, unless the
hardware sets PAR in the same instant; the high-water mark becomes the fill; and the flush's completion shows both sides what
is left. Under these conditions exec answers a next state for each of: bobbinWordWrite, bobbinWordRead, bobbinFlushWrite,
bobErrClear, bobHwmClr, bobbinFlushComplete. -/
def Obligations.BobbinsAndTheirRegisters : Prop :=
  (∀ (s : State) (dt seen : Nat) (b : Fin 26) (w : BitVec 72), let e := s.dev.elapse dt
     let others (d : Dev) : Prop := ∀ k, k ≠ b.val → d.bob.get k = s.dev.bob.get k
     (let x := (((s.dev.bob.get b).at_ b e.pwr.wall).showR seen).pump b e.pwr.wall
      x.discard = false →
       (x.flush = false → x.full b = false → x.waiting = [] →
         Gives (.bobbinWordWrite dt b w seen) s (fun d => (d.bob.get b).words = x.words ++ [w] ∧ (d.bob.get b).wrote = x.wrote + 1
           ∧ (d.bob.get b).inPkt = !wordEop w ∧ others d ∧ d = { e with bob := d.bob }))
       ∧ (x.flush = false → x.full b = true → bobFree b = false →
         Gives (.bobbinWordWrite dt b w seen) s (fun d => (d.bob.get b).words = x.words ∧ (d.bob.get b).waiting = x.waiting ++ [w]
           ∧ others d ∧ d = { e with bob := d.bob }))
       ∧ (x.flush = false → x.full b = true → bobFree b = true →
         Gives (.bobbinWordWrite dt b w seen) s (fun d => (d.bob.get b).words = x.words ∧ (d.bob.get b).overflow = true
           ∧ (d.bob.get b).dropped = add32 x.dropped 1 ∧ (d.bob.get b).discard = !wordEop w ∧ others d
           ∧ (e.phase.fwRuns = true → d.evt.sticky evBobOverflow = true)))
       ∧ (x.flush = true → Gives (.bobbinWordWrite dt b w seen) s (fun d => (d.bob.get b).words = x.words
           ∧ (d.bob.get b).dropped = add32 x.dropped 1 ∧ others d ∧ d = { e with bob := d.bob })))
     ∧ (let x := ((s.dev.bob.get b).at_ b e.pwr.wall).showW seen
        ∀ flip : BitVec 72,
        (∀ rest, let v := w ^^^ flip
         x.words = w :: rest → x.flush = false → x.empty = false → psbOk v = true →
         (phiOk v = true → ploOk v = true → Gives (.bobbinWordRead dt b flip seen) s (fun d => (d.bob.get b).words = rest
           ∧ (d.bob.get b).took = x.took + 1 ∧ (d.bob.get b).parCount = x.parCount ∧ d.out = [.word b v] ∧ others d))
         ∧ ((phiOk v && ploOk v) = false → Gives (.bobbinWordRead dt b flip seen) s (fun d => (d.bob.get b).words = rest
           ∧ (d.bob.get b).took = x.took + 1 ∧ (d.bob.get b).par = true ∧ (d.bob.get b).parCount = sat 0xFFFF (x.parCount + 1)
           ∧ d.out = [.word b (poisonWord false v)] ∧ others d)))
        ∧ (x.empty = true → Gives (.bobbinWordRead dt b flip seen) s (fun d => d.bob.get b = x ∧ others d
           ∧ d = { e with bob := d.bob }))))
  ∧ ∀ (s : State) (dt : Nat) (b : Fin 26) (v : Word), let e := s.dev.elapse dt
      let y := s.dev.bob.get b
      let x := y.at_ b e.pwr.wall
      let others (d : Dev) : Prop := ∀ k, k ≠ b.val → d.bob.get k = s.dev.bob.get k
      (s.dev.phase.fwRuns = true →
        (0 < fld v 12 0 → fld v 12 0 ≤ bobDepth b →
          (bit v 31 = false → Gives (.bobbinFlushWrite dt b v) s (fun d => (d.bob.get b).markOf b = fld v 12 0
            ∧ (d.bob.get b).words = y.words ∧ (d.bob.get b).flush = y.flush ∧ d.out = [.status .ok] ∧ others d))
          ∧ (bit v 31 = true → x.flush = false → x.sawW = x.wrote → x.ends.all (fun n => decide (n ≤ x.sawW)) = true →
            Gives (.bobbinFlushWrite dt b v) s (fun d => (d.bob.get b).words = [] ∧ (d.bob.get b).flush = true
              ∧ (d.bob.get b).markOf b = fld v 12 0
              ∧ (d.bob.get b).dropped = add32 x.dropped (x.ends.length + b2n (x.inPkt && !x.discard))
              ∧ d.out = [.status .ok] ∧ others d)))
        ∧ (fld v 12 0 = 0 ∨ bobDepth b < fld v 12 0 → Gives (.bobbinFlushWrite dt b v) s (fun d =>
            d = { e with out := [.status .range] }))
        ∧ (bit v 31 = true → y.parAt ≠ some e.pwr.wall → Gives (.bobErrClear dt b v) s (fun d => (d.bob.get b).par = false
            ∧ (d.bob.get b).parCount = 0 ∧ (d.bob.get b).words = y.words ∧ d.out = [.status .ok] ∧ others d))
        ∧ (bit v 31 = true → y.par = true → y.parAt = some e.pwr.wall → Gives (.bobErrClear dt b v) s (fun d =>
            (d.bob.get b).par = true ∧ (d.bob.get b).parCount = 1 ∧ (d.bob.get b).words = y.words ∧ others d))
        ∧ (bit v 31 = true → Gives (.bobHwmClr dt b v) s (fun d => (d.bob.get b).hwm = x.fill ∧ (d.bob.get b).words = x.words
            ∧ d.out = [.status .ok] ∧ others d)))
      ∧ (y.flush = true → Gives (.bobbinFlushComplete dt b) s (fun d => (d.bob.get b).flush = false
          ∧ (d.bob.get b).words = y.words ∧ others d ∧ d = { e with bob := d.bob }))

/-- The clock monitor (R20 to R22): a second window in a row outside the limit takes BH0's receive clock out of range and its
link down; a PLL that loses lock takes its spindle's clock out at once and the spindle resynchronises; a relock is noted.
Under these conditions exec answers a next state for each of: clockMonitorWindow, pllLossOfLock, pllRelock. -/
def Obligations.ClockMonitor : Prop :=
  ∀ (s : State) (dt : Nat), s.dev.phase.ctrlRuns = true → let e := s.dev.elapse dt
    (∀ indep spn rx0 rx1 rxp, kgetD s.dev.bob.outRun clkBh0 0 = 1 → s.dev.bob.clk.getLsbD clkBh0 = false →
      200000 < rx0.natAbs → Gives (.clockMonitorWindow dt indep spn rx0 rx1 rxp) s (fun d =>
        d.bob.clk.getLsbD clkBh0 = true ∧ d.sht.link0 = false ∧ d.bob.windowFrom = s.dev.pwr.wall + dt))
    ∧ (∀ n : Fin 4, s.dev.bob.clk.getLsbD n.val = false → Gives (.pllLossOfLock dt n) s (fun d =>
        d.bob.clk.getLsbD n.val = true ∧ d.bob.unlocked.getLsbD n.val = true ∧ (d.spn.get n).resync = true))
    ∧ (∀ n : Fin 4, s.dev.bob.unlocked.getLsbD n.val = true → Gives (.pllRelock dt n) s (fun d =>
        d = { e with bob := d.bob } ∧ d.bob.unlocked.getLsbD n.val = false
          ∧ d.bob.relockAt.get n = s.dev.pwr.wall + dt))

/-- Temperatures (R345, R355): a sample is recorded, and a die that has stood at or above 125.0 °C for 500 ms is a thermal trip,
which takes RUN or LISTEN to HOLD. Supply (R345, R357, R376): a measurement is recorded, PWRFAIL_N is asserted at 34 V
falling and released at 35 V rising, and 10 ms at or below 35.5 V is an input trip. The hold-up check (R379): it starts when
it is due; it passes when the capacitance from the formula is 3,000 µF or more; and below 38.0 V it is abandoned with the
earlier result kept. Under these conditions exec answers a next state for each of: temperatureSample, supplyMeasure,
holdupCheckStart, holdupCheckEnd. -/
def Obligations.TemperatureSupplyAndHoldup : Prop :=
  (∀ (s : State) (dt : Nat) (t : Four Int) (paired : Bool), let e := s.dev.elapse dt
     (e.phase.ctrlRuns = true → Gives (.temperatureSample dt t paired) s (fun d =>
       d.pwr = { e.pwr with temps := t } ∧ d.pra = e.pra ∧ d.region = e.region ∧ d.que = e.que))
     ∧ (∀ (i : Fin 4) (since : Nat), e.phase.fwRuns = true → e.glb.power = 3 → 1250 ≤ t.get i →
       e.evt.liveAt evThermalTrip i.val = false → kfind (e.evt.src evThermalTrip).dwell i.val = some since →
       since + 500000000 ≤ e.pwr.wall → Gives (.temperatureSample dt t paired) s (fun d =>
         d.glb.power = 1 ∧ d.glb.tripped = true ∧ d.glb.tripThermal = true ∧ d.evt.liveAt evThermalTrip i.val = true)))
  ∧ (∀ (s : State) (dt vhold pin : Nat) (rails : List Nat), let e := s.dev.elapse dt
       e.phase.ctrlRuns = true →
       Gives (.supplyMeasure dt vhold pin rails) s (fun d => d.pwr.vhold = vhold ∧ d.pwr.pin = pin
         ∧ d.pwr.pwrfail = (if vhold ≤ 34000 then true else if 35000 ≤ vhold then false else e.pwr.pwrfail)
         ∧ d.pwr.wall = e.pwr.wall ∧ d.pwr.temps = e.pwr.temps ∧ d.pra.words = e.pra.words)
       ∧ (35500 < vhold → Gives (.supplyMeasure dt vhold pin rails) s (fun d =>
           d.pwr.lowSince = none ∧ d.pwr.tripDone = false ∧ d.glb.power = e.glb.power))
       ∧ (∀ since, vhold ≤ 35500 → e.pwr.lowSince = some since → e.pwr.tripDone = false → since + 10000000 ≤ e.pwr.wall →
         e.glb.power = 3 → Gives (.supplyMeasure dt vhold pin rails) s (fun d =>
           d.glb.power = 1 ∧ d.glb.tripped = true ∧ d.glb.tripInput = true ∧ d.pwr.tripDone = true)))
    ∧ ∀ (s : State) (dt : Nat), let e := s.dev.elapse dt
        (∀ v1 t, e.pwr.holdupDue = some t → e.phase = .up → t ≤ e.pwr.wall → 40000 ≤ v1 → e.pwr.pwrfail = false →
          e.pwr.holdupV1 = none → Gives (.holdupCheckStart dt v1) s (fun d =>
            d = { e with pwr := { e.pwr with holdupV1 := some v1, holdupFrom := e.pwr.wall, holdupDue := some (t + 3600000000000) } }))
        ∧ (∀ v1 v2 p, e.pwr.holdupV1 = some v1 →
          (38000 ≤ v2 → v2 < v1 → e.pwr.holdupFrom + 1000000 ≤ e.pwr.wall → Gives (.holdupCheckEnd dt v2 p) s (fun d =>
            d.pwr.holdupV1 = none ∧ d.pwr.holdupPassed = decide (3000 * (v1 * v1 - v2 * v2) ≤ 2000000 * p)
              ∧ (kgetD d.glb.selftest 16 0 = if 3000 * (v1 * v1 - v2 * v2) ≤ 2000000 * p then 1 else 2)))
          ∧ (v2 < 38000 → Gives (.holdupCheckEnd dt v2 p) s (fun d =>
            d = { e with pwr := { e.pwr with holdupV1 := none } })))

/-- The tick strobe (R64, R79, R82): at slot_pos 0, with no step due, the tick takes the number of the slot it begins, the radio
copy is loaded with device time, and the phases of the tick begin. A step that is due sets device time, and the tick takes
the number of the slot that then contains it. After an uncorrectable error in working memory the control die resets there
instead. The phases of a tick (R82, R84): with no earlier tick's phases open, the drain ends once every frame due has been
taken in; the schedule of slot k + 1 is computed; a phase unfinished at its deadline is reported and counted, once, and the
slot's transmit cells are skipped. Under these conditions exec answers a next state for each of: tickStrobe, drainComplete,
scheduleComputation, phaseDeadlineMiss. -/
def Obligations.TheTickAndItsPhases : Prop :=
  (∀ (s : State) (dt : Nat) (tcxo : Int) (beacon : Bool), let e := s.dev.elapse dt
     e.phase.ctrlRuns = true → e.whl.slotPosAt e.whl.time = 0 → (e.whl.radio = none ∨ e.whl.tickAt ≠ e.whl.time) →
     (e.glb.faultReset = true → Gives (.tickStrobe dt tcxo beacon) s (fun d => d = controlReset e 6))
     ∧ (e.glb.faultReset = false →
       (e.whl.step = none → e.whl.stepPend = false → Gives (.tickStrobe dt tcxo beacon) s (fun d =>
         d.whl.time = e.whl.time ∧ d.whl.radio = some e.whl.time ∧ d.whl.tickK = e.whl.slot ∧ d.whl.tickAt = e.whl.time
           ∧ d.whl.drained = !e.phase.fwRuns ∧ d.whl.scheduled = !e.phase.fwRuns ∧ d.pra = e.pra))
       ∧ (∀ off, e.whl.step = some off → e.whl.launches = [] → Gives (.tickStrobe dt tcxo beacon) s (fun d =>
         let now := moveStamp off e.whl.time
         d.whl.time = now ∧ d.whl.radio = some now ∧ d.whl.tickK = e.whl.slotAt now ∧ d.whl.tickAt = now
           ∧ d.whl.step = none))))
  ∧ ∀ (s : State) (dt : Nat), let e := s.dev.elapse dt
      let late (drain : Bool) : Prop := ∃ b ∈ e.whl.before, b.late drain e.whl.time = true
      e.phase.fwRuns = true →
      (e.whl.drained = false → (∀ b ∈ e.whl.before, b.drained = true) → framesDue e = [] → Gives (.drainComplete dt) s (fun d =>
        d = { e with whl := { e.whl with drained := true, drainedAt := e.whl.time }, wrp := { e.wrp with live := e.wrp.cells },
                     ply := { e.ply with coverNext := coverNow e } }))
      ∧ (e.whl.before = [] → e.whl.drained = true → e.whl.scheduled = false → Gives (.scheduleComputation dt) s
        (fun d => d.whl.scheduled = true ∧ (∀ n : Fin 4, (d.spn.get n).planSlot = e.whl.tickK + 1) ∧ d.pra = e.pra
          ∧ d.wrp.cells = e.wrp.cells ∧ d.whl.tickK = e.whl.tickK))
      ∧ (e.whl.drained = false → e.whl.drainMissed = false → e.whl.tickAt + 1500000 ≤ e.whl.time → ¬ late true →
        Gives (.phaseDeadlineMiss dt .drain) s (fun d => d.whl.ovrDrain = sat 1023 (e.whl.ovrDrain + 1)
          ∧ d.whl.drainMissed = true ∧ d.whl.txMissed = true ∧ d.evt.sticky evTickOverrun = true))
      ∧ (e.whl.scheduled = false → e.whl.schedMissed = false → e.whl.tickAt + 2500000 ≤ e.whl.time → ¬ late false →
        Gives (.phaseDeadlineMiss dt .sched) s (fun d => d.whl.ovrSched = sat 1023 (e.whl.ovrSched + 1)
          ∧ d.whl.schedMissed = true ∧ d.whl.txMissed = true ∧ d.evt.sticky evTickOverrun = true))
      ∧ (∀ n : Fin 4, (e.spn.get n).nowPlan.isSome = true → e.whl.prepMissed = false → latchAt e e.whl.tickK ≤ (e.whl.time : Int) →
        Gives (.phaseDeadlineMiss dt .txprep) s (fun d => d.whl.ovrTxprep = sat 1023 (e.whl.ovrTxprep + 1)
          ∧ d.whl.prepMissed = true ∧ d.evt.sticky evTickOverrun = true))

/-- The cells of the present slot, on a side that transmits: a transmit cell's frame is taken over at the latch in RUN (R82,
R104), and lost, counted under the cause, where the spindle is blocked; a frame that is not whole is given up and the cell
counted as skipped (R84); receive cells that begin in the slot are served from their windows on or lost the same way (R164).
Under these conditions exec answers a next state for each of: transmitLatch, receiveWindowStart. -/
def Obligations.CellsOfTheSlot : Prop :=
  ∀ (s : State) (dt : Nat) (n : Fin 4), let e := s.dev.elapse dt
    let x := e.spn.get n
    let mine := x.nowRx.filter (fun c => c.slot == e.whl.tickK)
    let others := x.nowRx.filter (fun c => c.slot != e.whl.tickK)
    (∀ c f, latchAt e e.whl.tickK ≤ (e.whl.time : Int) → x.nowPlan = some (c, f) → e.ply.role.sends = true →
      x.nowDrops.filter (·.atLatch) = [] →
      (e.glb.power = 3 → x.tx = none → (e.bob.get (4 + n.val)).full (4 + n.val) = false →
        (latchCause e x = none → x.nowUnbound = false → x.bound c = true → Gives (.transmitLatch dt n true) s (fun d =>
          (d.spn.get n).nowPlan = none ∧ ((d.spn.get n).tx.map (fun t => (t.kind, t.cell, t.ts))
            = some (f, some c, (e.slotTx e.whl.tickK).toNat))))
        ∧ (∀ l, latchCause e x = some l → Gives (.transmitLatch dt n true) s (fun d =>
          (d.spn.get n).nowPlan = none ∧ (d.spn.get n).tx = none ∧ (d.spn.get n).nowTx = false)))
      ∧ (Gives (.transmitLatch dt n false) s (fun d => (d.spn.get n).nowPlan = none ∧ (d.spn.get n).tx = x.tx
        ∧ (d.spn.get n).nowTx = false ∧ d.whl.skipped = add32 e.whl.skipped 1)))
    ∧ (e.slotTx e.whl.tickK - (e.wrp.sel * 1000 : Nat) ≤ (e.whl.time : Int) → x.nowDrops = [] →
      (lostCause e x = none → mine.all x.bound = true → Gives (.receiveWindowStart dt n) s (fun d =>
        d = { e with spn := e.spn.set n { x with nowRx := others ++ mine } }))
      ∧ (lostCause e x = some .hold → Gives (.receiveWindowStart dt n) s (fun d =>
        (d.spn.get n).nowRx = others ∧ (d.spn.get n).lostHold = add32 x.lostHold mine.length
          ∧ ∀ m, m ≠ n → d.spn.get m = e.spn.get m)))

/-- Registers of the whorl (R65, R68, R70, R81, R90): a latch captures device time, the ASN, the slot position and the earliest
held launch instant; the enables take what is written, and a qualified PTP source that is disabled is lost; TOD_ARM leaves
the enables; the tick period and the epoch change in HOLD with no launch held, and are refused otherwise. Under these
conditions exec answers a next state for each of: whlLatch, whlCtrlWrite, whlTodArm, whlTickPeriodWrite, whlEpochWrite,
whlOvrClr. -/
def Obligations.WhorlRegisters : Prop :=
  ∀ (s : State) (dt : Nat) (v : Word), let e := s.dev.elapse dt
    e.phase.fwRuns = true →
    (bit v 0 = true → Gives (.whlLatch dt v) s (fun d => d = { e with out := [.status .ok], whl := { e.whl with
      latchTime := e.whl.time, latchAsn := e.whl.asn, latchPos := e.whl.slotPosAt e.whl.time, latchNext := e.whl.nextLaunch } }))
    ∧ Gives (.whlCtrlWrite dt v) s (fun d => d.whl.enPps = bit v 3 ∧ d.whl.enPtp1 = bit v 2 ∧ d.whl.enPtp0 = bit v 1
      ∧ d.whl.enRef = bit v 0 ∧ d.whl.todArm = (e.whl.todArm || bit v 8) ∧ d.out = [.status .ok]
      ∧ (e.whl.enPtp0 = true → bit v 1 = false → d.whl.ptp0 = {}) ∧ d.pra = e.pra ∧ d.spn = e.spn)
    ∧ Gives (.whlTodArm dt) s (fun d => d = { e with out := [.status .ok], whl := { e.whl with todArm := true } })
    ∧ (periodOpen e = true →
      (400 ≤ fld v 11 0 → fld v 11 0 ≤ 4000 → Gives (.whlTickPeriodWrite dt v) s (fun d =>
        d = { e with out := [.status .ok], whl := { e.whl with period := fld v 11 0 }, evt := d.evt }
          ∧ d.evt.sticky evPeriodChange = true))
      ∧ ((fld v 11 0 < 400 ∨ 4000 < fld v 11 0) → Gives (.whlTickPeriodWrite dt v) s (fun d =>
        d = { e with out := [.status .range] }))
      ∧ Gives (.whlEpochWrite dt true v) s (fun d => d.evt.sticky evPeriodChange = true
        ∧ d = { e with out := [.status .ok], whl := { e.whl with epoch := v.toNat * 2 ^ 32 + e.whl.epoch % 2 ^ 32 }, evt := d.evt })
      ∧ Gives (.whlEpochWrite dt false v) s (fun d => d.evt.sticky evPeriodChange = true
        ∧ d = { e with out := [.status .ok], whl := { e.whl with epoch := e.whl.epoch / 2 ^ 32 * 2 ^ 32 + v.toNat },
                       evt := d.evt }))
    ∧ (periodOpen e = false → ∀ hi, Gives (.whlTickPeriodWrite dt v) s (fun d => d = { e with out := [.status .state] })
      ∧ Gives (.whlEpochWrite dt hi v) s (fun d => d = { e with out := [.status .state] }))
    ∧ (bit v 31 = true → Gives (.whlOvrClr dt v) s (fun d =>
      d = { e with out := [.status .ok], whl := { e.whl with ovrDrain := 0, ovrSched := 0, ovrTxprep := 0 } }))

/-- PTP (R67, R70, R71): an Announce makes or renews the parent; a Sync of the parent is measured; a message outside the limits
is discarded and counted; a Delay_Req joins Q0 of its port, and Delay_Resp gives the mean path delay; and a parent whose
Announce or Sync messages cease is lost. `c` is the device once the firmware has taken the message from the CPU port's queue.
The preference for PTP (R69): a PTP source that has stayed qualified for 60 s while LOCKED on PPS is acquired. Under these
conditions exec answers a next state for each of: ptpAnnounce, ptpSync, ptpDelayReqSend, ptpDelayResp, ptpAnnounceTimeout,
ptpPreferenceTimer. -/
def Obligations.PtpMessagesAndPreference : Prop :=
  (∀ (s : State) (dt : Nat) (port : Bool), let e := s.dev.elapse dt
     let c := takeCpu e
     let p := e.whl.ptp port
     let q0 (d : Dev) : Nat := (kgetD d.sht.queues (16 * (bhPort port).num) []).length
     (ptpRuns e port = true → (∀ m : PtpAnnounce, ptpOurs e m.domain m.via m.extra = true → 0 ≤ m.logInterval →
         m.logInterval ≤ 3 →
         (p.parent = none → Gives (.ptpAnnounce dt port m) s (fun d => (d.whl.ptp port).parent = some m
           ∧ (d.whl.ptp port).lastAnnounce = e.whl.time ∧ (d.whl.ptp port).syncs = [] ∧ (d.whl.ptp port).qual = false
           ∧ d = { c with whl := d.whl }))
         ∧ (∀ a, p.parent = some a → a.clockId = m.clockId → Gives (.ptpAnnounce dt port m) s (fun d =>
           d = { c with whl := e.whl.setPtp port { p with
             parent := some m, lastAnnounce := e.whl.time, qual := p.qual && m.ptpTimescale } })))
       ∧ (∀ m : PtpAnnounce, ptpOurs e m.domain m.via m.extra = false → Gives (.ptpAnnounce dt port m) s (fun d =>
         d = { c with glb := { e.glb with ptpDiscard := inc32 e.glb.ptpDiscard } }))
       ∧ (∀ (m : PtpSync) (a : PtpAnnounce), ptpOurs e m.domain m.via m.extra = true → -4 ≤ m.logInterval →
         m.logInterval ≤ 1 → p.parent = some a → a.clockId = m.clockId → m.usable = true →
         let off := (m.t1 : Int) + p.delay + settingInt e.pra 0x402 - (e.whl.time : Int)
         Gives (.ptpSync dt port m) s (fun d => (d.whl.ptp port).syncs = ((e.whl.time, off) :: p.syncs).take 8
           ∧ (d.whl.ptp port).lastSync = e.whl.time ∧ (d.whl.ptp port).lastT1T2 = some (m.t1, e.whl.time)
           ∧ (p.qual = true → (d.whl.ptp port).qual = true) ∧ d.whl.ptp (!port) = e.whl.ptp (!port)
           ∧ d.whl.time = e.whl.time ∧ d.pra = e.pra))
       ∧ (∀ a, p.parent = some a → a.via ≠ .udp4 → p.delayReqDue ≤ e.whl.time → Gives (.ptpDelayReqSend dt port) s (fun d =>
         (d.whl.ptp port).delayReqAt = none ∧ (d.whl.ptp port).delayReqSeq = (p.delayReqSeq + 1) % 65536
           ∧ (d.whl.ptp port).delayReqDue = e.whl.time
             + logNs p.delayReqLog * (70 + ((Config.freeBits e.free).setWidth 8).toNat % 61) / 100
           ∧ q0 d = q0 e + 1 ∧ d.free = e.free + 1 ∧ d.whl.ptp (!port) = e.whl.ptp (!port) ∧ d.out = []))
       ∧ (∀ (m : PtpDelayResp) (a : PtpAnnounce) (t1 t2 t3 : Nat), ptpOurs e m.domain m.via m.extra = true →
         p.parent = some a → p.delayReqAt = some t3 → p.lastT1T2 = some (t1, t2) → a.clockId = m.clockId →
         Gives (.ptpDelayResp dt port m) s (fun d => d = { c with whl := e.whl.setPtp port { p with
           delay := (((t2 : Int) - (t1 : Int)) + ((m.t4 : Int) - (t3 : Int))) / 2, delayReqAt := none,
           delayReqLog := m.logMinDelayReq } })))
     ∧ (∀ a, p.parent = some a → e.phase.fwRuns = true →
       p.lastAnnounce + e.whl.annTmo * logNs a.logInterval ≤ e.whl.time ∨ p.lastSync + 16 * logNs p.syncInterval ≤ e.whl.time →
       Gives (.ptpAnnounceTimeout dt port) s (fun d => d.whl.ptp port = {} ∧ d.whl.ptp (!port) = e.whl.ptp (!port)
         ∧ d.evt.sticky evPtpLoss = true ∧ d.whl.isActive (ptpSource port) = false)))
  ∧ ∀ (s : State) (dt : Nat) (port : Bool), let e := s.dev.elapse dt
      e.whl.state = .locked → e.whl.src = .pps → e.whl.ptpReady port = true → e.whl.ptpReady (!port) = false →
      (e.whl.ptp port).qualSince + 60000000000 ≤ e.whl.time → e.phase.fwRuns = true →
      Gives (.ptpPreferenceTimer dt) s (fun d => d.whl.state = .acquire ∧ d.whl.src = ptpSource port
        ∧ d.evt.sticky evSrcChange = true ∧ d.whl.lockedSince = none ∧ d.whl.ptp0 = e.whl.ptp0 ∧ d.whl.ptp1 = e.whl.ptp1)

/-- PPS and the 10 MHz reference (R67, R68, R70, R74): an active edge is taken in and applies an armed time of day; an edge more
than 1 µs off device time in LOCKED or HOLDOVER loses a qualified PPS_IN; a reference within its limits qualifies; each is
lost by its own event; PPS_OUT pulses at a whole second in LOCKED and HOLDOVER only. Under these conditions exec answers a
next state for each of: ppsInEdge, ppsTimeout, ref10mLoss, ref10mQualify, ppsOutSecond. -/
def Obligations.PpsAndReference : Prop :=
  ∀ (s : State) (dt : Nat), let e := s.dev.elapse dt
    let follows : Prop := e.whl.state = .locked ∨ e.whl.state = .holdover
    let t : Int := (e.whl.time : Int) - settingInt e.pra 0x401
    (∀ (rising : Bool) (interval : Nat), sourcesRun e = true → rising ≠ e.whl.inEdge → e.whl.src ≠ .pps →
      (¬ follows ∨ e.whl.ppsQual = false →
        Gives (.ppsInEdge dt rising interval) s (fun d => d.whl.ppsLast = some e.whl.time ∧ d.whl.todArm = false
          ∧ (e.whl.todArm = true → d.whl.ppsSec = some e.whl.todSec ∧ d.whl.todValid = true)
          ∧ (e.whl.todArm = false → d.whl.ppsSec = e.whl.ppsSec.map (· + 1)) ∧ d.whl.time = e.whl.time))
      ∧ (follows → e.whl.ppsQual = true → 1000 < ((t + 500000000) / 1000000000 * 1000000000 - t).natAbs →
        Gives (.ppsInEdge dt rising interval) s (fun d => d.whl.ppsQual = false ∧ d.whl.ppsLast = none
          ∧ d.evt.sticky evPpsLoss = true ∧ d.whl.state = e.whl.state)))
    ∧ (∀ rising interval, rising = e.whl.inEdge → Gives (.ppsInEdge dt rising interval) s (fun d => d = e))
    ∧ (∀ t, e.phase.fwRuns = true → e.whl.ppsLast = some t → t + 2000000000 ≤ e.whl.time → Gives (.ppsTimeout dt) s (fun d =>
      d.whl.ppsLast = none ∧ d.whl.ppsQual = false ∧ d.evt.sticky evPpsLoss = true))
    ∧ (e.phase.fwRuns = true → e.whl.refQual = true → Gives (.ref10mLoss dt) s (fun d =>
      d.whl.refQual = false ∧ d.whl.ppsQual = false ∧ d.evt.sticky evRef10mLoss = true))
    ∧ (∀ edge rate, sourcesRun e = true → e.whl.enRef = true →
      (50 ≤ edge → edge ≤ 150 → rate.natAbs ≤ 110000 → Gives (.ref10mQualify dt edge rate) s (fun d => d.whl.refQual = true))
      ∧ (edge < 50 ∨ 150 < edge ∨ 110000 < rate.natAbs → Gives (.ref10mQualify dt edge rate) s (fun d =>
        d.whl.refQual = false)))
    ∧ (e.phase.ctrlRuns = true → e.whl.time % 1000000000 = 0 → e.whl.outMode = 1 → Gives (.ppsOutSecond dt) s (fun d =>
      d = { e with out := if e.whl.state = .locked ∨ e.whl.state = .holdover then [.ppsOut 1000] else [] }))

/-- Launch release (R87, R88, R180): every entry whose instant has come is freed and, with no thread waiting at a fence, the rest
stay; PPS_OUT pulses where OUT_MODE is 0b11; and the throw's thread is done, PARTIAL where a member is missing or refused.
The throws held have numbers of their own, which admission sees to (R216). Under these conditions exec answers a next state
for each of: launchRelease. -/
def Obligations.LaunchRelease : Prop :=
  ∀ (s : State) (dt : Nat), let e := s.dev.elapse dt
    e.phase = .up → e.whl.launches.filter (fun l => decide (l.at_ ≤ e.whl.time)) ≠ [] →
    Gives (.launchRelease dt) s (fun d => (∀ l ∈ d.whl.launches, l ∈ e.whl.launches ∧ e.whl.time < l.at_)
      ∧ ((∀ p ∈ e.ccp.threads, p.2.st ≠ .fenced) → (e.whl.launches.map (·.throwId)).Nodup →
        d.whl.launches = e.whl.launches.filter (fun l => !decide (l.at_ ≤ e.whl.time)))
      ∧ d.out = (if e.whl.outMode = 3 ∧ (e.whl.state = .locked ∨ e.whl.state = .holdover) then [.ppsOut 10] else [])
      ∧ d.wrp = e.wrp ∧ d.pra = e.pra ∧ d.spn = e.spn
      ∧ ∀ l t, e.whl.launches = [l] → e.thread? l.th = some t → t.st = .running →
        (d.thread? l.th).map (fun u => (u.st, u.status, u.result))
          = some (.done, if l.missing = [] ∧ l.refused = [] then .ok else .partialOk, l.result))

/-- Registers of a spindle (R94, R98, R99, R113, R117, R118, R124, R129, R149): a write while the firmware runs takes the fields
it carries, or is refused with STATE or RANGE and changes nothing; what waits for the end of the cell in progress waits while
the spindle serves one. The other spindles stay. Under these conditions exec answers a next state for each of:
spnTargetWrite, calStart, inhClr, spnWindowWrite, spnBindWrite, spnTuneWrite, spnTrimWrite. -/
def Obligations.SpindleRegisters : Prop :=
  ∀ (s : State) (dt : Nat) (n : Fin 4) (v : Word), let e := s.dev.elapse dt
    let x := e.spn.get n
    let rest (d : Dev) : Prop := (∀ m, m ≠ n → d.spn.get m = e.spn.get m) ∧ d.pra = e.pra ∧ d.wrp.cells = e.wrp.cells
      ∧ (x.servesNow = true ∨ (x.holdPend = none ∧ x.oosPend = none) → d.whl = e.whl)
    e.phase.fwRuns = true →
    (fld v 31 30 = 3 → Gives (.spnTargetWrite dt n v) s (fun d => d = { e with out := [.status .range] }))
    ∧ (fld v 31 30 < 3 → x.fitted = false → fld v 31 30 ≠ x.target → Gives (.spnTargetWrite dt n v) s (fun d =>
      d = { e with out := [.status .state] }))
    ∧ (fld v 31 30 < 3 → x.fitted = true → Gives (.spnTargetWrite dt n v) s (fun d => let y := d.spn.get n
      y.target = fld v 31 30 ∧ y.autocal = bit v 7 ∧ y.tuneEn = bit v 6 ∧ y.inhRetry = bit v 5 ∧ y.cxEn = bit v 4
        ∧ y.cxAbort = bit v 3 ∧ y.lnaForceByp = bit v 2 ∧ d.out = [.status .ok] ∧ rest d
        ∧ (x.servesNow = true → y.eff = x.eff)))
    ∧ (x.target < 3 → Gives (.calStart dt n) s (fun d => (d.spn.get n).calStart = true ∧ (d.spn.get n).target = x.target
        ∧ (x.servesNow = true → (d.spn.get n).calPend = true ∧ (d.spn.get n).calCause = 4) ∧ d.out = [.status .ok] ∧ rest d)
      ∧ Gives (.inhClr dt n) s (fun d => (d.spn.get n).inhibit = false ∧ (d.spn.get n).retryAt = none
        ∧ (d.spn.get n).target = x.target ∧ d.out = [.status .ok] ∧ rest d))
    ∧ (is24 n = true → Gives (.spnWindowWrite dt n v) s (fun d => d = { e with out := [.status .ok] }))
    ∧ (is24 n = false → (fld v 15 0 < 15900 ∨ 18880 < fld v 15 0) → Gives (.spnWindowWrite dt n v) s (fun d =>
      d = { e with out := [.status .range] }))
    ∧ (is24 n = false → 15900 ≤ fld v 15 0 → fld v 15 0 ≤ 18880 → bindsOk n e.region (fld v 15 0) x.binds = true →
      Gives (.spnWindowWrite dt n v) s (fun d => (d.spn.get n).window = fld v 15 0 ∧ d.out = [.status .ok] ∧ rest d
        ∧ (x.servesNow = true → (d.spn.get n).windowEff = x.windowEff)
        ∧ (x.servesNow = false → (d.spn.get n).windowEff = fld v 15 0)))
    ∧ (∀ (i : Fin 16) (p : Profile), let b : Bind := { en := bit v 31, profile := fld v 14 12, chan := fld v 9 0 }
      e.region.profile? b.profile = some p → b.chan < p.nchan → bindsOk n e.region x.window (ksetD x.binds i.val b {}) = true →
      Gives (.spnBindWrite dt n i v) s (fun d => (d.spn.get n).binds = ksetD x.binds i.val b {} ∧ d.out = [.status .ok] ∧ rest d))
    ∧ (x.tuneEn = true → Gives (.spnTuneWrite dt n v) s (fun d => d = { e with out := [.status .state] }))
    ∧ (x.tuneEn = false → Gives (.spnTuneWrite dt n v) s (fun d => d = { e with
        out := [.status .ok], spn := e.spn.set n { x with tuneWrite := some (fld v 13 8, fld v 5 0) } }))
    ∧ Gives (.spnTrimWrite dt n v) s (fun d => d = { e with
        out := [.status .ok], spn := e.spn.set n { x with trimEn := bit v 31, foffs := if bit v 31 && !x.trimEn then [] else x.foffs } })

/-- Transitions and holds (R96, R119): the transition under way completes; SPINDLE_HOLD holds the spindle for its slots and is
done with the instant it took effect; DURATION 0 releases; and a hold ends at its instant, with HOLD_OFF. Under these
conditions exec answers a next state for each of: spindleStateReached, spindleHold, holdEnd. -/
def Obligations.SpindleStatesAndHolds : Prop :=
  ∀ (s : State) (dt : Nat) (n : Fin 4), let e := s.dev.elapse dt
    let x := e.spn.get n
    (∀ m t pairs, x.trans = some (m, t) → Gives (.spindleStateReached dt n pairs) s (fun d => (d.spn.get n).mode = m
      ∧ (∀ k, k ≠ n → d.spn.get k = e.spn.get k) ∧ d.whl = e.whl ∧ d.pra = e.pra))
    ∧ (∀ th t dur, e.phase = .up → e.thread? th = some t → t.st = .ready → t.cmd = .spindleHold n.val dur → x.holdPend = none →
      (0 < dur → x.servesNow = false → Gives (.spindleHold dt th) s (fun d =>
        ((d.spn.get n).hold.map (fun h => (h.from_, h.until_)))
          = some (e.whl.time, if dur = 0xFFFF then none else some (e.whl.time + dur * e.whl.periodNs))
        ∧ (d.thread? th).map (fun u => (u.st, u.status, u.result)) = some (.done, .ok, octets 8 e.whl.time)
        ∧ d.evt.sticky (evSpn n 7) = true ∧ ∀ k, k ≠ n → d.spn.get k = e.spn.get k))
      ∧ (dur = 0 → Gives (.spindleHold dt th) s (fun d => (d.spn.get n).hold = none
        ∧ (d.thread? th).map (fun u => (u.st, u.status, u.result)) = some (.done, .ok, octets 8 e.whl.time)
        ∧ ∀ k, k ≠ n → d.spn.get k = e.spn.get k)))
    ∧ (∀ f t, x.hold.map (fun h => (h.from_, h.until_)) = some (f, some t) → t ≤ e.whl.time → e.phase.fwRuns = true →
      Gives (.holdEnd dt n) s (fun d => (d.spn.get n).hold = none ∧ d.evt.sticky (evSpn n 8) = true
        ∧ (∀ k, k ≠ n → d.spn.get k = e.spn.get k) ∧ d.whl = e.whl))

/-- Calibration (R104, R109, R111): a TXSYN pair that agrees ends the change of channel; each pair of a blank is counted; and the
blank's end records its outcome: 1 good, 2 good after repeats, 3 failed. Under these conditions exec answers a next state for
each of: txsynCalPair, calPairEnd, calBlankEnd. -/
def Obligations.Calibration : Prop :=
  ∀ (s : State) (dt : Nat) (n : Fin 4), let e := s.dev.elapse dt
    let x := e.spn.get n
    (∀ (t : TxRun) (pair : CalPair), x.tx = some t → t.chanDone = false → t.granted = false → t.ended = none →
      pair.kind = .txsyn → CalPair.agrees pair = true → Gives (.txsynCalPair dt n pair) s (fun d =>
        (d.spn.get n).tx = some { t with chanDone := true, pairs := t.pairs + 1 }
          ∧ (d.spn.get n).lastChan = some (t.profile, t.chan) ∧ (d.spn.get n).failTxsyn = false
          ∧ ∀ k, k ≠ n → d.spn.get k = e.spn.get k))
    ∧ (∀ pairs, x.blank = true → x.calPairs < 4 → x.blankFrom + (10 + 6 * x.calPairs) * 1000000 ≤ e.whl.time →
      Gives (.calPairEnd dt n pairs) s (fun d => (d.spn.get n).calPairs = x.calPairs + 1 ∧ (d.spn.get n).blank = true
        ∧ ∀ k, k ≠ n → d.spn.get k = e.spn.get k))
    ∧ (x.blank = true → x.blankFrom + 30000000 ≤ e.whl.time → Gives (.calBlankEnd dt n) s (fun d =>
      (d.spn.get n).blank = false ∧ (d.spn.get n).calEnd = true ∧ (d.spn.get n).calStart = false
        ∧ (d.spn.get n).calLast = (if x.calOpen = [] then (if x.calRepeats = 0 then 1 else 2) else 3)
        ∧ (x.calOpen ≠ [] → e.phase.fwRuns = true → d.evt.sticky (evSpn n 0) = true)
        ∧ ∀ k, k ≠ n → d.spn.get k = e.spn.get k))

/-- Coexistence (R105, R108): the request is raised L_REQ before the start where CX_EN is set; at the sample point the
transmission is granted, or dropped and reported where the grant is low; and with CX_ABORT a grant that falls aborts it.
Under these conditions exec answers a next state for each of: cxRequest, cxGrantSample, cxGrantFall. -/
def Obligations.Coexistence : Prop :=
  ∀ (s : State) (dt : Nat) (n : Fin 4) (t : TxRun), let e := s.dev.elapse dt
    let x := e.spn.get n
    x.tx = some t → t.ended = none →
    (t.requested = false → t.ts ≤ e.whl.time + reqLeadNs e x t → Gives (.cxRequest dt n) s (fun d =>
      (d.spn.get n).tx = some { t with requested := true } ∧ (d.spn.get n).cxReq = (x.cxEn && decide (t.released < 2))
        ∧ (d.spn.get n).cxPri = (x.cxEn && decide (t.released < 2) && t.pri) ∧ d = { e with spn := d.spn }
        ∧ ∀ k, k ≠ n → d.spn.get k = e.spn.get k))
    ∧ (∀ grant, t.granted = false → samplePoint e x t ≤ e.whl.time →
      (x.cxEn = false ∨ grant = true → t.chanDone = true → Gives (.cxGrantSample dt n grant) s (fun d =>
        (d.spn.get n).tx = some { t with granted := true } ∧ (d.spn.get n).grant = grant
          ∧ (d.spn.get (bandMate n)).grant = grant ∧ d = { e with spn := d.spn }))
      ∧ (x.cxEn = true → grant = false → Gives (.cxGrantSample dt n grant) s (fun d => (d.spn.get n).tx = none
        ∧ (d.spn.get n).lostCx = add32 x.lostCx 1 ∧ (e.phase.fwRuns = true → d.evt.sticky (evSpn n 5) = true))))
    ∧ (∀ pair : Bool, is24 n = pair → t.granted = true → x.cxEn = true → x.cxAbort = true → Gives (.cxGrantFall dt pair) s (fun d =>
      (d.spn.get n).tx = some { t with ended := some e.whl.time, aborted := true } ∧ (d.spn.get n).grant = false
        ∧ (d.spn.get n).txAbort = inc32 x.txAbort))

/-- A transmission's sequence (R105 to R107): each step at its lead before t_s, in order; the frame leaves at t_s at its level;
it ends; and the release steps follow, each at its delay, back to RX where nothing keeps the spindle in SYNTH. Under these
conditions exec answers a next state for each of: txSequenceStep, txStart, txEnd, txReleaseStep. -/
def Obligations.TransmitSequence : Prop :=
  ∀ (s : State) (dt : Nat) (n : Fin 4) (t : TxRun), let e := s.dev.elapse dt
    let x := e.spn.get n
    x.tx = some t →
    (∀ st, t.granted = true → t.ended = none → t.step = TxStep.num st → t.released = 0 →
      t.ts ≤ e.whl.time + TxStep.lead st (t.rampNs e) →
      Gives (.txSequenceStep dt n st) s (fun d => (d.spn.get n).tx.map (·.step) = some (TxStep.num st + 1)
        ∧ (st = .powerUp → (d.spn.get n).mode = .tx) ∧ (st = .bias → (d.spn.get n).paBias = true)
        ∧ (st = .trsw → (d.spn.get n).trsw = true) ∧ ∀ m, m ≠ n → d.spn.get m = e.spn.get m))
    ∧ (t.step = 5 → t.started = false → t.ended = none → t.ts ≤ e.radioNow → Gives (.txStart dt n) s (fun d =>
      (d.spn.get n).tx = some { t with started := true, level := txLevelNow e x t }
        ∧ (∃ octs, d = { e with spn := d.spn, out := [.air n.val t.kind t.profile t.chan (txLevelNow e x t) t.word octs] })
        ∧ ∀ m, m ≠ n → d.spn.get m = e.spn.get m))
    ∧ (∀ rl, t.started = true → t.ended = none → Gives (.txEnd dt n rl) s (fun d =>
      (d.spn.get n).tx = some { t with ended := some e.whl.time } ∧ (d.spn.get n).rlLast = rl
        ∧ (d.spn.get n).rls = (rl :: x.rls).take 8 ∧ (d.spn.get n).maskLast = t.margin
        ∧ ∀ m, m ≠ n → d.spn.get m = e.spn.get m))
    ∧ (∀ te, t.ended = some te →
      (t.released = 0 → te + TxRelease.delay .trsw (t.rampNs e) ≤ e.whl.time → Gives (.txReleaseStep dt n .trsw) s (fun d =>
        (d.spn.get n).tx = some { t with released := 1 } ∧ (d.spn.get n).trsw = false
          ∧ d = { e with spn := d.spn } ∧ ∀ m, m ≠ n → d.spn.get m = e.spn.get m))
      ∧ (t.released = 1 → te + TxRelease.delay .bias (t.rampNs e) ≤ e.whl.time → Gives (.txReleaseStep dt n .bias) s (fun d =>
        (d.spn.get n).paBias = false ∧ (d.spn.get n).cxReq = false ∧ (x.mode = .tx → (d.spn.get n).mode = .synth)
          ∧ d = { e with spn := d.spn } ∧ ∀ m, m ≠ n → d.spn.get m = e.spn.get m))
      ∧ (t.released = 2 → te + TxRelease.delay .rx (t.rampNs e) ≤ e.whl.time → Gives (.txReleaseStep dt n .rx) s (fun d =>
        (d.spn.get n).tx = none ∧ (x.mode = .synth → x.mayReceive = true → (d.spn.get n).mode = .rx)
          ∧ d = { e with spn := d.spn } ∧ ∀ m, m ≠ n → d.spn.get m = e.spn.get m)))

/-- Reflection, mask and tuner (R117, R118, R151): below 6.0 dB a transmission is aborted and the spindle inhibited for 60 s; a
retry at 9.5 dB or more ends the inhibit; a mask point breached in two consecutive blocks of 100 µs aborts; and written tuner
codes take effect in receive idle. Under these conditions exec answers a next state for each of: reflectionCheck,
inhibitRetry, maskBlockCheck, receiveIdle. -/
def Obligations.ReflectionMaskAndTuner : Prop :=
  ∀ (s : State) (dt : Nat) (n : Fin 4), let e := s.dev.elapse dt
    let x := e.spn.get n
    (∀ t rl, x.tx = some t → t.started = true → t.granted = true → t.ended = none → t.checked = false → t.ts + 20000 ≤ e.whl.time →
      (t.retry = true → 95 ≤ rl → Gives (.reflectionCheck dt n rl) s (fun d =>
        d = { e with spn := e.spn.set n { x with
          tx := some { t with checked := true }, inhibit := false, retryAt := none, retryOpen := false } }))
      ∧ (rl < 60 → e.phase.fwRuns = true → Gives (.reflectionCheck dt n rl) s (fun d => (d.spn.get n).inhibit = true
        ∧ (d.spn.get n).retryAt = some (e.whl.time + 60000000000) ∧ (d.spn.get n).tx.map (·.aborted) = some true
        ∧ d.evt.sticky (evSpn n 4) = true ∧ ∀ m, m ≠ n → d.spn.get m = e.spn.get m)))
    ∧ (∀ r, x.retryAt = some r → x.inhibit = true → x.inhRetry = true → r ≤ e.whl.time → Gives (.inhibitRetry dt n) s (fun d =>
      d = { e with spn := e.spn.set n { x with retryAt := none, retryOpen := true } }))
    ∧ (∀ t levels, x.tx = some t → t.started = true → t.ended = none → t.granted = true →
      let margins := List.zipWith (fun (p : Int × Int) l => p.2 - l) (maskPoints e t.profile) levels
      let breach := (List.range margins.length).filter (fun i => decide (margins.getD i 0 < 0))
      let block := (e.whl.time - t.ts) / 100000
      t.blocks < block →
      (block ≠ t.blocks + 1 ∨ breach.any (fun i => t.breach.contains i) = false → Gives (.maskBlockCheck dt n levels) s (fun d =>
        (d.spn.get n).tx.map (fun u => (u.breach, u.ended)) = some (breach, none) ∧ d = { e with spn := d.spn }))
      ∧ (block = t.blocks + 1 → breach.any (fun i => t.breach.contains i) = true → Gives (.maskBlockCheck dt n levels) s (fun d =>
        (d.spn.get n).tx.map (fun u => (u.breach, u.ended, u.aborted)) = some (breach, some e.whl.time, true)
          ∧ (d.spn.get n).txAbort = inc32 x.txAbort)))
    ∧ (∀ cs cp, receiveIdle e x = true → x.tuneWrite = some (cs, cp) → Gives (.receiveIdle dt n) s (fun d =>
      d = { e with spn := e.spn.set n { x with cs := cs, cp := cp, tuneWrite := none, tuneRevert := none, tuneTrial := none } }))

/-- Reception (R131, R139, R141, R144, R145): a frame is declared on an idle enabled binding, timed by the radio copy; its header
gives the length and reserves its room, or ends the frame; the end makes a descriptor with its status; and a frame too long
is cut. The descriptor of a frame of the present slot waits in the frame store. Under these conditions exec answers a next
state for each of: preambleDetect, headerDecode, frameEnd, frameTooLong. -/
def Obligations.FrameReception : Prop :=
  ∀ (s : State) (dt : Nat) (n : Fin 4) (b : Fin 16), let e := s.dev.elapse dt
    let x := e.spn.get n
    let rest (d : Dev) : Prop := (∀ m, m ≠ n → d.spn.get m = e.spn.get m) ∧ d.whl = e.whl ∧ d.pra = e.pra ∧ d.dst = e.dst
    (∀ (c : Bind) (p : Profile) (corr : Nat) (rssi snr foff : Int) (coded : Bool), x.mode = .rx → kfind x.demods b.val = none →
      kgetD x.bindsEff b.val {} = c → c.en = true → e.region.profile? c.profile = some p → p.thresh ≤ corr →
      foff.natAbs ≤ 60000 → kgetD x.bindFrom b.val 0 + p.corrNs ≤ e.whl.time → x.validFrom + p.corrNs ≤ e.whl.time →
      Gives (.preambleDetect dt n b corr rssi snr foff coded) s (fun d =>
        (kfind (d.spn.get n).demods b.val).map (fun r => (r.ts, r.rssi, r.profile, r.chan, r.len, r.room))
          = some (e.radioNow, rssi, c.profile, c.chan, none, 0)
        ∧ (d.spn.get n).lastPreamble = some e.whl.time ∧ d = { e with spn := d.spn } ∧ rest d))
    ∧ (x.silenced = false → ∀ (r : RxRun) (p : Profile) (hdr : RxHeader), kfind x.demods b.val = some r → r.len = none →
      e.region.profile? r.profile = some p →
      (∀ len fixed, readHeader p.wave hdr = .inl (len, fixed) → x.storeUsed + 32 + len ≤ 65536 →
        Gives (.headerDecode dt n b hdr) s (fun d =>
          kfind (d.spn.get n).demods b.val = some { r with len := some len, fixed := fixed, room := 32 + len }
            ∧ d = { e with spn := d.spn } ∧ rest d))
      ∧ (∀ st, readHeader p.wave hdr = .inr st → r.dropped = false → x.storeUsed + 32 ≤ 65536 → e.whl.slot ≤ r.slot →
        Gives (.headerDecode dt n b hdr) s (fun d => kfind (d.spn.get n).demods b.val = none
          ∧ (d.spn.get n).store = x.store ++ [r.stub b.val st e.radioNow] ∧ rest d)))
    ∧ (x.silenced = false → ∀ (r : RxRun) (p : Profile) (len : Nat), kfind x.demods b.val = some r → r.len = some len →
      e.region.profile? r.profile = some p → r.dropped = false → e.whl.slot ≤ r.slot →
      (∀ octs corrected fcsOk, r.tooLong e.region = false →
        let o := frameOutcome p.wave len octs (if r.coded then corrected else 0) fcsOk
        let pay := if o.1 = 0 then o.2.2 else []
        x.storeUsed + (32 + pay.length) ≤ 65536 → Gives (.frameEnd dt n b octs corrected fcsOk) s (fun d =>
          kfind (d.spn.get n).demods b.val = none
          ∧ (d.spn.get n).store = x.store ++ [{ r.stub b.val o.1 e.radioNow with corr := r.fixed + o.2.1, payload := pay }]
          ∧ (d.spn.get n).rxOk = (if o.1 = 0 then inc32 x.rxOk else x.rxOk) ∧ rest d))
      ∧ (r.tooLong e.region = true → x.storeUsed + 32 ≤ 65536 → Gives (.frameTooLong dt n b) s (fun d =>
        kfind (d.spn.get n).demods b.val = none ∧ (d.spn.get n).store = x.store ++ [r.stub b.val 6 e.radioNow]
          ∧ (d.spn.get n).rxLong = inc32 x.rxLong ∧ rest d)))

/-- What the firmware does with received frames (R144, R167, R170, R171, R179, R148, R315): a frame whose status is not OK goes
no further; one of frame version 0b10 of a node of the table that passes link security is handed on; a correction frame
expires and a node's offset lapses at their instants; and a CONFIRM counts for its throw. Under these conditions exec answers
a next state for each of: rxFrameProcess, nodeOffsetLapse, correctionFrameExpire, throwConfirmReceive. -/
def Obligations.ReceivedFrames : Prop :=
  ∀ (s : State) (dt : Nat), let e := s.dev.elapse dt
    (∀ f rest m, e.phase.fwRuns = true → e.wrp.rxq = f :: rest →
      (f.d.status ≠ 0 → f.d.late = none → Gives (.rxFrameProcess dt m) s (fun d =>
        d = { e with wrp := { e.wrp with rxq := rest } }))
      ∧ (∀ i v k g, f.d.status = 0 → (macHeader f.d.payload).version = 2 → m.kind = .data → e.nodeByEui m.eui = some (i, v) →
        linkCheck e v m = .accepted k g → (invoke e k masterLink useDerive).1 = true → m.micOk = true →
        e.wrp.outsideAccept = true →
        Gives (.rxFrameProcess dt m) s (fun d => .uplink m.packet ∈ d.out ∧ d.wrp.rxq = rest)))
    ∧ (∀ i x, e.node? i = some x →
      (∀ o t, x.offset = some (o, t) → t + 600000000000 ≤ e.glb.upNs → Gives (.nodeOffsetLapse dt i) s (fun d =>
        d.node? i = some { x with offset := none } ∧ (∀ j, j ≠ i → d.node? j = e.node? j) ∧ d = { e with wrp := d.wrp }))
      ∧ (∀ tc t, x.corr = some (tc, t) → t ≤ e.whl.time → Gives (.correctionFrameExpire dt i) s (fun d =>
        d.node? i = some { x with corr := none }
          ∧ (d.wrp.cnt.get (pinned e x)).corrDrop = inc32 (e.wrp.cnt.get (pinned e x)).corrDrop
          ∧ (∀ j, j ≠ i → d.node? j = e.node? j) ∧ d.whl = e.whl)))
    ∧ (∀ i id (st : BitVec 8), st.toNat ≤ 2 → Gives (.throwConfirmReceive dt i id st) s (fun d =>
      (∀ (j : Nat) (l : Launch), e.whl.launches[j]? = some l → d.whl.launches[j]? =
        some (if l.throwId = id ∧ e.whl.time ≤ l.at_ ∧ l.heard i = false then
          (if l.members.contains i && !l.absent.contains i then
            (if st = 0 then { l with armed := l.armed ++ [i] } else { l with refused := l.refused ++ [i] })
            else { l with extra := l.extra ++ [i] }) else l))
      ∧ d.whl.launches.length = e.whl.launches.length ∧ d = { takeCpu e with whl := d.whl }))

/-- Cell entries (R159, R160, R186): READ shows an entry in the staging registers; WRITE takes it from them, or is refused with a
status and changes no entry; DELETE frees it. No other entry changes. Slotframes, hopping tables and the template (R156,
R161, R162): a change is armed for a later ASN, disarmed, and made from its ASN onward; a hopping table that no slotframe
uses takes what is written; and the template is written in HOLD within its bounds. Under these conditions exec answers a next
state for each of: cellRead, cellWrite, cellDelete, sfArm, sfDisarm, sfSwitch, wrpHopWrite, wrpTimingWrite. -/
def Obligations.CellsSlotframesAndHops : Prop :=
  (∀ (s : State) (dt : Nat) (v : Word), let e := s.dev.elapse dt
     let n := ccmdSpn v
     let i := fld v 13 0
     let others (d : Dev) : Prop := ∀ m k, (m ≠ n ∨ k ≠ i) → kfind (d.wrp.cells.get m) k = kfind (e.wrp.cells.get m) k
     e.phase.fwRuns = true →
     Gives (.cellRead dt v) s (fun d => d.wrp.cstg0 = (kgetD (e.wrp.cells.get n) i (0, 0)).1
       ∧ d.wrp.cstg1 = (kgetD (e.wrp.cells.get n) i (0, 0)).2 ∧ d.wrp.ccStatus = 0 ∧ d.wrp.cells = e.wrp.cells
       ∧ d = { e with wrp := d.wrp, out := [.status .ok] })
     ∧ (cellRefusedNow e n i (e.wrp.cstg0, e.wrp.cstg1) = none → Gives (.cellWrite dt v) s (fun d =>
       kfind (d.wrp.cells.get n) i = some (e.wrp.cstg0, e.wrp.cstg1) ∧ d.wrp.ccStatus = 0 ∧ others d ∧ d.spn = e.spn ∧ d.whl = e.whl
         ∧ d.pra = e.pra))
     ∧ (∀ st, cellRefusedNow e n i (e.wrp.cstg0, e.wrp.cstg1) = some st → Gives (.cellWrite dt v) s (fun d =>
       d.wrp.ccStatus = ccmdStatus (some st) ∧ d.wrp.cells = e.wrp.cells ∧ d = { e with wrp := d.wrp, out := [.status .ok] }))
     ∧ Gives (.cellDelete dt v) s (fun d => kfind (d.wrp.cells.get n) i = none ∧ d.wrp.ccStatus = 0 ∧ others d
       ∧ d.spn = e.spn ∧ d.whl = e.whl ∧ d.pra = e.pra))
  ∧ ∀ (s : State) (dt : Nat) (v : Word), let e := s.dev.elapse dt
      e.phase.fwRuns = true →
      (∀ (n : Fin 4) (h : Fin 8), let r := e.wrp.sf n h.val
        let act := r.actHi.toNat * 2 ^ 32 + v.toNat
        (e.whl.hasAsn = true → e.whl.asn + 1 < act → Gives (.sfArm dt n h v) s (fun d =>
          d.wrp.sf n h.val = { r with actLo := v, armed := true, act := act } ∧ d.wrp.cells = e.wrp.cells
            ∧ d = { e with wrp := d.wrp, out := [.status .ok] }))
        ∧ (act ≤ e.whl.asn + 1 → Gives (.sfArm dt n h v) s (fun d => d = { e with out := [.status .time] }))
        ∧ Gives (.sfDisarm dt n h v) s (fun d => d.wrp.sf n h.val = { r with actHi := v.setWidth 8, armed := false }
          ∧ d.wrp.cells = e.wrp.cells ∧ d = { e with wrp := d.wrp, out := [.status .ok] })
        ∧ (r.armed = true → e.whl.hasAsn = true → r.act ≤ e.whl.asn → Gives (.sfSwitch dt n h) s (fun d =>
          d.wrp.sf n h.val = { r with cfg := r.new, armed := false } ∧ d.evt.sticky evSfSwitch = true
            ∧ d.wrp.cells = e.wrp.cells ∧ d.whl = e.whl)))
      ∧ (∀ (t : Fin 8) (i : Option (Fin 128)),
        (e.wrp.hopBusy t.val = true → Gives (.wrpHopWrite dt t i v) s (fun d => d = { e with out := [.status .state] }))
        ∧ (e.wrp.hopBusy t.val = false → (∀ j : Fin 128, i = some j → Gives (.wrpHopWrite dt t i v) s (fun d =>
            d.wrp.hop t.val j.val = fld v 9 0 ∧ d.wrp.hlens = e.wrp.hlens ∧ d.wrp.cells = e.wrp.cells ∧ d.whl = e.whl))
          ∧ (i = none → 1 ≤ fld v 7 0 → fld v 7 0 ≤ 128 → Gives (.wrpHopWrite dt t i v) s (fun d =>
            d.wrp.hlen t.val = fld v 7 0 ∧ d.wrp.hops = e.wrp.hops ∧ d.wrp.cells = e.wrp.cells ∧ d.whl = e.whl))))
      ∧ (e.glb.power = 1 → timingOk e.whl.period (fld v 31 16) (fld v 15 0) = true → Gives (.wrpTimingWrite dt false v) s (fun d =>
        d.wrp = { e.wrp with txoff := fld v 31 16, sel := fld v 15 0 } ∧ d.whl = e.whl))
      ∧ (e.glb.power = 1 → acktOk v = true → Gives (.wrpTimingWrite dt true v) s (fun d =>
        d.wrp = { e.wrp with txAckDelay := fld v 31 16, ackWait := fld v 15 0 } ∧ d.whl = e.whl))
      ∧ (∀ ackt, e.glb.power ≠ 1 → Gives (.wrpTimingWrite dt ackt v) s (fun d => d = { e with out := [.status .state] }))

/-- The RPL root (R169, R282): the Trickle timer fires, and every spindle owes a DIO unless enough consistent ones were heard; a
DIS is answered; a DAO renews a node's path or, of an unknown node, waits; a path that lapses makes the node dormant at the
master; and after DORMANT its index is released. Under these conditions exec answers a next state for each of:
dioTrickleTimer, disReceive, daoReceive, daoPathLapse, dormantExpire. -/
def Obligations.RplRoot : Prop :=
  ∀ (s : State) (dt : Nat), let e := s.dev.elapse dt
    (rplRuns e = true → e.ply.role.sends = true → 0 < e.wrp.trickleI → e.wrp.trickleAt ≤ e.whl.time →
      Gives (.dioTrickleTimer dt) s (fun d => d.wrp.dioPend = (if dioWanted e then Four.all true else e.wrp.dioPend)
        ∧ d.wrp.trickleI = min (2 * e.wrp.trickleI) (2 ^ fDioMin.get e.pra * 2 ^ fDioDoublings.get e.pra)
        ∧ d.wrp.trickleFrom = e.wrp.trickleFrom + e.wrp.trickleI * 1000000 ∧ d.wrp.trickleHeard = []
        ∧ d.wrp.nodes = e.wrp.nodes))
    ∧ (∀ i x, rplRuns e = true → e.node? i = some x →
      let c := takeCpu e
      let r := packetRec c .dioUnicast (some i) (dioPacket c (some x.eui))
      (e.ply.master = true → Gives (.disReceive dt i) s (fun d => d.ply.recs.any (fun y => y.hash == r.hash) = true
        ∧ d.wrp = e.wrp ∧ d.whl = e.whl))
      ∧ (e.ply.master = false → Gives (.disReceive dt i) s (fun d => d.ply.waiting = e.ply.waiting ++ [(r, none)]
        ∧ d.ply.recs = e.ply.recs ∧ d.wrp = e.wrp ∧ d.whl = e.whl)))
    ∧ (∀ (eui : BitVec 64) (route lifetime : Nat) (band : Bool) (district : BitVec 16) (seq : BitVec 8), rplRuns e = true →
      0 < lifetime →
      (∀ i x, e.nodeByEui eui = some (i, x) → e.node? i = some x → x.lost = none →
        Gives (.daoReceive dt eui route lifetime band district seq) s (fun d =>
          (d.node? i).map (fun y => (y.eui, y.path, y.depth, y.band, y.district))
            = some (x.eui, some (e.glb.upNs + lifetime * 1000000000), route, band, district)
          ∧ ∀ j, j ≠ i → d.node? j = e.node? j))
      ∧ (e.nodeByEui eui = none → e.ply.master = false → Gives (.daoReceive dt eui route lifetime band district seq) s (fun d =>
          d.wrp.visits.any (fun w => w.eui == eui) = true ∧ d.wrp.nodes = e.wrp.nodes)))
    ∧ (∀ i x t, e.node? i = some x → x.path = some t → x.dormantSince = none → t ≤ e.glb.upNs →
      Gives (.daoPathLapse dt i) s (fun d => (d.node? i).map (fun y => (y.path, y.dormantSince))
        = some (none, if e.ply.master then some e.glb.upNs else none) ∧ ∀ j, j ≠ i → d.node? j = e.node? j))
    ∧ (∀ i x t, e.node? i = some x → x.dormantSince = some t → e.ply.master = true → t + dormantNs e ≤ e.glb.upNs →
      Gives (.dormantExpire dt i) s (fun d => d.node? i = none))

/-- Receipt of hanks (R188, R193 to R195, R220): a hank that passes every check waits for admission; one with a bad tag, one that
is malformed, and one of another BOOT are counted or answered as R193 says; and a reassembly ends after 1 s. `c` is the
device once the firmware has taken the packet from the CPU port's queue. Under these conditions exec answers a next state for
each of: hankReceive, reassemblyTimeout. -/
def Obligations.HankReceipt : Prop :=
  ∀ (s : State) (dt : Nat) (port : Port) (p : CcpPacket), let e := s.dev.elapse dt
    let c := takeCpu e
    (e.phase = .up → ccpHears e port p = true → p.type = 1 → e.ccp.waiting.length < 256 →
      (packetOk p = false → Gives (.hankReceive dt port none p) s (fun d =>
        d = { c with ccp := { e.ccp with format := inc32 e.ccp.format } }))
      ∧ (∀ x, packetOk p = true → kfind e.ccp.idents p.ident.toNat = some x → (invoke e x.skein masterCcp useDecrypt).1 = true →
        (p.tagOk = false → Gives (.hankReceive dt port none p) s (fun d => d.ccp = { e.ccp with authFail := inc32 e.ccp.authFail }
          ∧ d.evt.sticky evHankAuthFail = true ∧ d.out = []))
        ∧ (p.tagOk = true → p.seq < 2 ^ 63 → p.boot ≠ e.ccp.boot → (invoke e x.skein masterCcp useEncrypt).1 = true →
          Gives (.hankReceive dt port none p) s (fun d => d.out.drop 1 = [.hankAck p.src p.sport p.ident.toNat
            (2 ^ 63 + (kgetD e.ccp.runs p.ident.toNat {}).sent) p.seq 1 e.ccp.epoch []]
            ∧ d.evt.sticky evHankStaleBoot = true ∧ d.ccp.waiting = e.ccp.waiting ∧ d.ccp.threads = e.ccp.threads))
        ∧ (∀ cmds, p.tagOk = true → p.seq < 2 ^ 63 → p.boot = e.ccp.boot → (kgetD e.ccp.runs p.ident.toNat {}).fresh p.seq = true →
          (p.dply = 0 ∨ p.dply.toNat = e.ply.ply) → p.dside.toNat = b2n e.ply.side → parseBody 256 p.body = some cmds →
          Gives (.hankReceive dt port none p) s (fun d => d.ccp.waiting = e.ccp.waiting ++
              [{ ident := p.ident.toNat, hseq := p.seq, src := p.src, sport := p.sport, cmds := cmds }]
            ∧ d.ccp.rxOk = inc32 e.ccp.rxOk ∧ (kgetD d.ccp.runs p.ident.toNat {}).fresh p.seq = false
            ∧ d = { c with ccp := d.ccp }))))
    ∧ (∀ src id, Gives (.reassemblyTimeout dt src id) s (fun d => d = { e with ccp := d.ccp } ∧ d.ccp.threads = e.ccp.threads
      ∧ ∀ r, r ∈ d.ccp.reass ↔ (r ∈ e.ccp.reass ∧ ¬ (r.1 = src ∧ r.2.1 = id ∧ r.2.2 + 1000000000 ≤ e.glb.upNs))))

/-- Admission (R87, R199, R202, R203, R330): a refused command leaves the thread table; an admitted one takes the lowest free
thread with its identity, hank, epoch and order of admission; THROW is held in the launch table and REEL_ACTIVATE among the
activations. Under these conditions exec answers a next state for each of: hankAdmit, throwCmd, reelActivate. -/
def Obligations.HankAdmission : Prop :=
  ∀ (s : State) (dt : Nat) (w : WaitHank) (rest : List WaitHank) (m : CmdMsg), let e := s.dev.elapse dt
    e.phase = .up → e.ccp.waiting = w :: rest →
    let th := firstFree 0 e.ccp.threads
    let taken (d : Dev) (c : Cmd) : Prop :=
      (d.thread? th).map (fun t => (t.cmd, t.msg, t.ident, t.hseq, t.epoch, t.adm))
        = some (c, m, w.ident, w.hseq, e.ccp.epoch, e.ccp.nextAdm) ∧ ∀ k, k ≠ th → d.thread? k = e.thread? k
    (w.cmds = [m] → w.next = 0 →
      (∀ st, admission e w.ident m = .inl st → Gives (.hankAdmit dt) s (fun d => d.ccp.threads = e.ccp.threads
        ∧ d.ccp.waiting = rest ∧ d.whl = e.whl ∧ d.pra = e.pra))
      ∧ (∀ c, admission e w.ident m = .inr c → Gives (.hankAdmit dt) s (fun d => taken d c ∧ d.ccp.waiting = rest ∧ d.pra = e.pra)))
    ∧ (∀ g id l action, w.cmds[w.next]? = some m → m.opcode = 0x22 → admission e w.ident m = .inr (.throw g id l action) →
      Gives (.throwCmd dt) s (fun d => taken d (.throw g id l action)
        ∧ (d.whl.launches.map (fun x => (x.at_, x.throwId, x.group, x.action, x.th))
          = e.whl.launches.map (fun x => (x.at_, x.throwId, x.group, x.action, x.th)) ++ [(l, id, g, action, th)])
        ∧ d.ccp.waiting.map (·.next) = (w.next + 1) :: rest.map (·.next)))
    ∧ (∀ bank alone, w.cmds[w.next]? = some m → m.opcode = 0x61 → admission e w.ident m = .inr (.reelActivate bank alone) →
      Gives (.reelActivate dt) s (fun d => taken d (.reelActivate bank alone) ∧ d.img.act = e.img.act ++ [(th, bank, alone)]
        ∧ d.whl = e.whl))

/-- Threads in time (R203, R205): a thread that reaches its time ends with TIMEOUT, a record kept for RETAIN is freed, and the
completion of the thread that ended first is sent to its hank's source, once. Under these conditions exec answers a next
state for each of: threadTimeout, threadRetainExpire, completionSend. -/
def Obligations.ThreadsInTime : Prop :=
  ∀ (s : State) (dt th : Nat) (t : Thread), let e := s.dev.elapse dt
    e.thread? th = some t →
    (∀ x, t.tmoAt = some x → t.st ≠ .done → x ≤ e.glb.upNs → Gives (.threadTimeout dt th) s (fun d => EndedWith d th .timeout []
      ∧ ThreadsOnly e d))
    ∧ (t.st = .done → t.doneUp + t.retain * 1000000000 ≤ e.glb.upNs → Gives (.threadRetainExpire dt th) s (fun d =>
      d.thread? th = none ∧ ∀ k, k ≠ th → d.thread? k = e.thread? k))
    ∧ (∀ x rest, e.ccp.doneQ = th :: rest → kfind e.ccp.idents t.ident = some x → (invoke e x.skein masterCcp useEncrypt).1 = true →
      (completionRecord th t).length ≤ 8156 → (∀ k ∈ e.ccp.doneQ, ∃ u, e.thread? k = some u ∧ u.silent = false) →
      Gives (.completionSend dt) s (fun d => (∃ l, d.out.drop 1 = [.completion t.src t.sport t.ident
          (2 ^ 63 + (kgetD e.ccp.runs t.ident {}).sent) (completionRecord th t :: l)])
        ∧ d.ccp.doneQ.length ≤ rest.length ∧ (d.thread? th).map (·.sent) = some true ∧ d.whl = e.whl ∧ d.pra = e.pra))

/-- Commands that read (R59, R205, R211, R217, R366, R367): each ends OK with its result and changes nothing but threads; a
THREAD_QUERY of another identity's thread ends DENIED; COMPLETE_ACK frees the threads it names and its own. A refill that has
fallen due is taken before PRA_INFO. REG_READ and REG_WRITE (R7, R217): the registers are read in order; a pair is written as
a register write and counted, the first refusal ends the command, and a persistent word waits for the array. Under these
conditions exec answers a next state for each of: praInfo, healthSummary, healthLog, threadQuery, completeAck, policyRead,
regRead, regWrite. -/
def Obligations.QueryAndRegisterCommands : Prop :=
  (∀ (s : State) (dt th : Nat) (t : Thread), let e := s.dev.elapse dt
     let same (d : Dev) : Prop := ThreadsOnly e d
     let a := praDue e
     (∀ f n, ReadyFor e th t (.praInfo f n) → Gives (.praInfo dt th) s (fun d =>
       EndedWith d th .ok ((List.range n).map (fun i => wearRecord a (f + i))).flatten ∧ ThreadsOnly a d))
     ∧ (ReadyFor e th t .healthSummary → Gives (.healthSummary dt th) s (fun d => EndedWith d th .ok (healthSummary e) ∧ same d))
     ∧ (∀ n f, ReadyFor e th t (.healthLog n f) → Gives (.healthLog dt th) s (fun d => EndedWith d th .ok (healthLog e.evt n f) ∧ same d))
     ∧ (∀ n, n ≠ th → ReadyFor e th t (.threadQuery n) →
       (e.thread? n = none → Gives (.threadQuery dt th) s (fun d => EndedWith d th .ok (octets 4 0) ∧ same d))
       ∧ (∀ x, e.thread? n = some x → Gives (.threadQuery dt th) s (fun d => same d ∧
         if x.ident ≠ t.ident then EndedWith d th .denied []
         else EndedWith d th .ok (octets 1 (ThrState.num x.st) ++ octets 3 0 ++ (if x.st = .done then completionRecord n x else [])))))
     ∧ (∀ l, ReadyFor e th t (.completeAck l) → Gives (.completeAck dt th) s (fun d => d.thread? th = none
       ∧ ∀ n ∈ l, ∀ x, e.thread? n = some x → x.st = .done → x.ident = t.ident → d.thread? n = none))
     ∧ (∀ f n, ReadyFor e th t (.policyRead f n) → Gives (.policyRead dt th) s (fun d => same d ∧ EndedWith d th .ok
       (octets 2 e.ccp.epoch ++ octets 2 0 ++ ((List.range n).map (fun i =>
         match kfind e.ccp.policy (f + i) with | some p => policyOctets p | none => List.replicate 16 0)).flatten))))
  ∧ ∀ (s : State) (dt th : Nat) (t : Thread), let e := s.dev.elapse dt
      let b := e.modThread th (fun _ => t.begun)
      (∀ a n, ReadyFor e th t (.regRead a n) → Gives (.regRead dt th) s (fun d => EndedWith d th .ok (readRun b a n).1
        ∧ ThreadsOnly (readRun b a n).2 d))
      ∧ (∀ a v, ReadyFor e th t (.regWrite [(a, v)]) →
        (persistentWord? a = none → (writeAt b a v).1.thread? th = some t.begun → Gives (.regWrite dt th) s (fun d =>
          ThreadsOnly (writeAt b a v).1 d
            ∧ if (writeAt b a v).2 = .ok then EndedWith d th .ok (pairsResult 1)
              else EndedWith d th (writeAt b a v).2 (pairsResult 0)))
        ∧ (∀ w, persistentWord? a = some w → Gives (.regWrite dt th) s (fun d =>
          d.pra.queue = e.pra.queue ++ [{ word := w, value := v, writer := .thread th }]
            ∧ (d.thread? th).map (·.st) = some .running ∧ d.whl = e.whl ∧ d.spn = e.spn)))

/-- Node requests and throw groups (R174, R219): a request becomes a record for its node and its thread runs until the reply,
which is its result; a node enters and leaves a group. Bulk objects (R218): an object is opened where there is room; octets
written read back; it closes where its digest matches; it is deleted where no OBJ_SEND uses it; and OBJ_SEND sends it in
blocks, counting the errors that its reads find corrected. Each other object stays. Under these conditions exec answers a
next state for each of: nodeReq, nodeReplyReceive, throwGroupSet, objOpen, objWrite, objClose, objDelete, objSend. -/
def Obligations.NodeAndObjectCommands : Prop :=
  (∀ (s : State) (dt th : Nat) (t : Thread), let e := s.dev.elapse dt
     (∀ port noReply data, ReadyFor e th t (.nodeReq port noReply data) →
       (e.nodeByHandle t.msg.node = none → Gives (.nodeReq dt th) s (fun d => EndedWith d th .nodeFail [] ∧ ThreadsOnly e d))
       ∧ (∀ i x, e.nodeByHandle t.msg.node = some (i, x) → x.away = none → let r := nodeReqRec e i port t.msg.tag data
         Gives (.nodeReq dt th) s (fun d => (d.thread? th).map (·.st) = some .running ∧ d.wrp = e.wrp
           ∧ (d.ply.recs.any (fun y => y.hash == r.hash) || d.ply.waiting.any (fun q => q.1.hash == r.hash)) = true)))
     ∧ (∀ i x data, e.node? i = some x → e.thread? th = some t → t.st = .running → t.msg.opcode = 0x20 → t.msg.node = x.handle →
       t.wantsReply = true → t.relayed = false → Gives (.nodeReplyReceive dt i t.msg.tag data) s (fun d =>
         EndedWith d th .ok data ∧ d.wrp = e.wrp ∧ d.pra = e.pra))
     ∧ (∀ g add i x, ReadyFor e th t (.throwGroupSet g add) → e.nodeByHandle t.msg.node = some (i, x) → e.node? i = some x →
       (add = true → x.groups.contains g = false → x.groups.length < 8 → Gives (.throwGroupSet dt th) s (fun d =>
         (d.node? i).map (·.groups) = some (x.groups ++ [g]) ∧ EndedWith d th .ok [] ∧ ∀ j, j ≠ i → d.node? j = e.node? j))
       ∧ (add = true → x.groups.contains g = false → 8 ≤ x.groups.length → Gives (.throwGroupSet dt th) s (fun d =>
         EndedWith d th .range [] ∧ d.wrp = e.wrp))
       ∧ (add = false → x.groups.contains g = true → Gives (.throwGroupSet dt th) s (fun d =>
         (d.node? i).map (·.groups) = some (x.groups.filter (· != g)) ∧ EndedWith d th .ok [] ∧ ∀ j, j ≠ i → d.node? j = e.node? j))))
  ∧ ∀ (s : State) (dt th : Nat) (t : Thread) (o : Nat), let e := s.dev.elapse dt
      let others (d : Dev) : Prop := (∀ k, k ≠ o → kfind d.ccp.objs k = kfind e.ccp.objs k) ∧ d.wrp = e.wrp ∧ d.pra = e.pra
      (∀ n dig, ReadyFor e th t (.objOpen o n dig) →
        (kfind e.ccp.objs o = none → e.ccp.objs.length < 64 → n ≤ bulkFree e → Gives (.objOpen dt th) s (fun d =>
          kfind d.ccp.objs o = some { size := n, digest := dig } ∧ EndedWith d th .ok [] ∧ others d))
        ∧ ((kfind e.ccp.objs o).isSome = true → Gives (.objOpen dt th) s (fun d => EndedWith d th .duplicate [] ∧ d.ccp.objs = e.ccp.objs)))
      ∧ (∀ x off l, kfind e.ccp.objs o = some x → ReadyFor e th t (.objWrite o off l) → x.closed = false → off + l.length ≤ x.size →
        Gives (.objWrite dt th) s (fun d => EndedWith d th .ok [] ∧ others d ∧ ∃ y, kfind d.ccp.objs o = some y
          ∧ y.octets_ off l.length = l ∧ (∀ k, (k < off ∨ off + l.length ≤ k) → y.octets_ k 1 = x.octets_ k 1) ∧ y.size = x.size))
      ∧ (∀ x, kfind e.ccp.objs o = some x → ReadyFor e th t (.objClose o) →
        (Config.sha384 (x.octets_ 0 x.size) = x.digest → Gives (.objClose dt th) s (fun d =>
          kfind d.ccp.objs o = some { x with closed := true } ∧ EndedWith d th .ok [] ∧ others d))
        ∧ (Config.sha384 (x.octets_ 0 x.size) ≠ x.digest → Gives (.objClose dt th) s (fun d =>
          EndedWith d th .digest [] ∧ d.ccp.objs = e.ccp.objs)))
      ∧ (ReadyFor e th t (.objDelete o) → e.ccp.threads.any (fun p => p.2.uses o) = false → Gives (.objDelete dt th) s (fun d =>
          kfind d.ccp.objs o = none ∧ EndedWith d th .ok [] ∧ others d))
      ∧ (∀ x port blk i y corrected poisoned, kfind e.ccp.objs o = some x → x.closed = true → ReadyFor e th t (.objSend o port blk) →
        e.nodeByHandle t.msg.node = some (i, y) → Gives (.objSend dt th corrected poisoned) s (fun d =>
          (d.thread? th).map (fun u => (u.st, u.owes.length)) = some (.running, (x.size + blk - 1) / blk)
            ∧ d.glb.corr = add32 e.glb.corr corrected ∧ d.ccp.objs = e.ccp.objs ∧ d.wrp = e.wrp))

/-- POLICY_WRITE (R210 to R214): the entry is replaced and the epoch counts on; a hard revocation ends with REVOKED every thread
of an older epoch that the new table does not allow. Under these conditions exec answers a next state for each of:
policyWrite. -/
def Obligations.PolicyWrite : Prop :=
  ∀ (s : State) (dt th i : Nat) (t : Thread) (entry : List Byte), let e := s.dev.elapse dt
    let epoch := (e.ccp.epoch + 1) % 65536
    policyTurn e th = true →
    (ReadyFor e th t (.policyWrite i false entry) → Gives (.policyWrite dt th) s (fun d => d.ccp.epoch = epoch
      ∧ kfind d.ccp.policy i = policyOf entry ∧ (∀ k, k ≠ i → kfind d.ccp.policy k = kfind e.ccp.policy k)
      ∧ EndedWith d th .ok (octets 2 epoch ++ octets 2 0 ++ octets 4 0) ∧ d.evt.sticky evPolicyChange = true
      ∧ d.spn = e.spn ∧ d.pra = e.pra))
    ∧ (ReadyFor e th t (.policyWrite i true entry) → Gives (.policyWrite dt th) s (fun d => d.ccp.epoch = epoch
      ∧ kfind d.ccp.policy i = policyOf entry ∧ d.evt.sticky evRevoke = true
      ∧ ∀ k u, k ≠ th → e.thread? k = some u → u.st ≠ .done → epochOlder u.epoch epoch = true →
        allowed (putPolicy e i entry) u.ident u.msg.opcode u.msg.node = false → EndedWith d k .revoked []))

/-- Power states and in-service tests (R340 to R344, R363 to R365): POWER_STATE is refused by the first check of R343 or makes
the change; OFF takes the rails off 50 ms later and WAKE brings them back; TEST, BYPASS, RETURN and UNBYPASS take a spindle
out of service and back, and the end of a test is its command's result. Under these conditions exec answers a next state for
each of: powerState, powerOffRails, wakeElapsed, test, bypass, returnTest, unbypass, spindleTestComplete. -/
def Obligations.PowerStatesAndTests : Prop :=
  ∀ (s : State) (dt th : Nat) (t : Thread), let e := s.dev.elapse dt
    (∀ st wake, ReadyFor e th t (.powerState st wake) →
      (∀ x, powerRefused e st wake = some x → Gives (.powerState dt th) s (fun d =>
        EndedWith d th x [] ∧ ThreadsOnly e d))
      ∧ (powerRefused e st wake = none → st = 0 → Gives (.powerState dt th) s (fun d =>
        EndedWith d th .ok (octets 8 (e.whl.time + 50000000)) ∧ d.pwr.offDue = some (e.pwr.wall + 50000000) ∧ d.pwr.wake = wake
          ∧ d.spn = e.spn))
      ∧ (powerRefused e st wake = none → st ≠ 0 → Untied e th → Gives (.powerState dt th) s (fun d =>
        EndedWith d th .ok (octets 8 e.whl.time) ∧ d.glb.power = st ∧ d.glb.tripped = false ∧ d.glb.tripInput = false
          ∧ d.glb.tripThermal = false ∧ d.pra = e.pra ∧ d.pwr = e.pwr)))
    ∧ (∀ k, e.pwr.offDue = some k → e.phase.ctrlRuns = true → k ≤ e.pwr.wall → Gives (.powerOffRails dt) s (fun d =>
      d.phase = .off ∧ d.pwr.offAt = some e.pwr.wall ∧ d.pwr.wake = e.pwr.wake ∧ d.ccp.threads = [] ∧ Kept e d))
    ∧ (∀ k, e.pwr.offAt = some k → e.phase = .off → 0 < e.pwr.wake → k + e.pwr.wake * 1000000000 ≤ e.pwr.wall →
      e.pwr.resetLow = false → e.pwr.inputOk = true → e.pwr.powerOn = false → Gives (.wakeElapsed dt) s (fun d =>
        d.phase = .rails 0 ∧ d.pwr.cause = 10 ∧ d.pwr.t0 = e.pwr.wall ∧ Kept e d))
    ∧ (∀ n : Fin 4, let x := e.spn.get n
      (ReadyFor e th t (.spindleTest n.val opTest) → Untied e th →
        (testRefused e n true = none → x.servesNow = false → Gives (.test dt th) s (fun d => (d.spn.get n).oos = .test
          ∧ (d.spn.get n).testTh = some th ∧ d.evt.sticky evSpnTest = true ∧ ∀ m, m ≠ n → d.spn.get m = e.spn.get m))
        ∧ (∀ st, testRefused e n true = some st → Gives (.test dt th) s (fun d => EndedWith d th st [] ∧ d.spn = e.spn)))
      ∧ (ReadyFor e th t (.spindleTest n.val opBypass) → Untied e th → testRefused e n false = none → x.servesNow = false →
        Gives (.bypass dt th) s (fun d => (d.spn.get n).oos = .bypass ∧ EndedWith d th .ok [] ∧ d.evt.sticky evSpnTest = true
          ∧ ∀ m, m ≠ n → d.spn.get m = e.spn.get m))
      ∧ (ReadyFor e th t (.spindleTest n.val opReturn) → Gives (.returnTest dt th) s (fun d => EndedWith d th .ok []
        ∧ (x.oos = .test → (d.spn.get n).oos = .none ∧ (d.spn.get n).calPend = true) ∧ (x.oos ≠ .test → d.spn = e.spn)))
      ∧ (ReadyFor e th t (.spindleTest n.val opUnbypass) → Untied e th → x.oosPend = none → Gives (.unbypass dt th) s (fun d =>
        EndedWith d th .ok [] ∧ (x.oos = .bypass → (d.spn.get n).oos = .none) ∧ (x.oos ≠ .bypass → d.spn = e.spn)))
      ∧ (∀ r : TestResult, x.testTh = some th → e.thread? th = some t → t.st = .running → Gives (.spindleTestComplete dt n r) s (fun d =>
        (d.spn.get n).testTh = none ∧ kgetD d.glb.selftest (8 + n.val) 0 = (if r.fail = 0 then 1 else 2)
          ∧ EndedWith d th .ok (octets 1 r.pass.toNat ++ octets 1 r.fail.toNat ++ octets 2 (toTwos 16 r.noise) ++ octets 2 r.evm
            ++ octets 2 0))))

/-- Keys (R302, R303, R308 to R313, R317): KEY_LOAD is refused by the first check that fails, or puts the record in the inactive
half, commits it and answers the KCV; KEY_ATTR lowers a word; KEY_ERASE leaves neither half; KEY_INFO shows what a skein
holds; LIFECYCLE_SET writes the state; a re-mask leaves every key in working use; and RNG_OK follows the health windows.
Under these conditions exec answers a next state for each of: keyLoad, keyAttr, keyErase, keyInfo, lifecycleSet, keyRemask,
rngHealthWindow. -/
def Obligations.KeyCommands : Prop :=
  ∀ (s : State) (dt th : Nat) (t : Thread), let e := s.dev.elapse dt
    let turn := inTurn e th isKeyCommand = true ∧ writeTurn e = true
    (turn → ∀ k w x a g l, ReadyFor e th t (.keyLoad k w x a g l) →
      (∀ st u r v n, keyLoadRefused e k a g = some st → Gives (.keyLoad dt th u r v n) s (fun d =>
        EndedWith d th st [] ∧ d.pra = (praDue e).pra ∧ d.dst = e.dst))
      ∧ (keyLoadRefused e k a g = none → attrType (skeinAttr e w) = 2 → (invoke e w masterCcp useWrap).1 = true →
        0 < (praDue e).pra.tokens (commitWord k) → l.length = wrapLen (attrType a) → 0 < wrapLen (attrType a) →
        Gives (.keyLoad dt th true true true 3) s (fun d =>
          let code := if commitHalf (e.pra.word (commitWord k)) = 1 then 2 else 1
          let key := fitTo (wrapLen (attrType a) - 8) (Config.unwrapKey (skeinKey e w) l)
          d.pra.word (commitWord k) = pack [(30, code), (0, g)] ∧ (∀ n, n ≠ commitWord k → d.pra.word n = e.pra.word n)
            ∧ d.dst.halfOf code k = some { skein := k, gen := g, attr := a, district := x, key := key }
            ∧ (kfind d.dst.skeins k).map (fun y => (y.attr, y.gen)) = some (a, g)
            ∧ EndedWith d th .ok (keyKcv (attrType a) key) ∧ d.evt.sticky evKeyCommit = true)))
    ∧ (inTurn e th isKeyCommand = true → ∀ k a, ReadyFor e th t (.keyAttr k a) →
      (2 ≤ k → attrConsistent a = true → attrType a = attrType (skeinAttr e k) → attrAdds a (skeinAttr e k) = false →
        Gives (.keyAttr dt th) s (fun d => EndedWith d th .ok [] ∧ d.pra = e.pra
          ∧ (kfind d.dst.skeins k).map (·.attr) = (kfind e.dst.skeins k).map (fun _ => a)))
      ∧ (2 ≤ k → attrConsistent a = true → attrType a = attrType (skeinAttr e k) → attrAdds a (skeinAttr e k) = true →
        Gives (.keyAttr dt th) s (fun d => EndedWith d th .attr [] ∧ d.dst = e.dst)))
    ∧ (turn → ∀ k, ReadyFor e th t (.keyErase k) → 2 ≤ k → e.dst.rngOk = true → 0 < (praDue e).pra.tokens (commitWord k) →
      Gives (.keyErase dt th true) s (fun d => EndedWith d th .ok []
        ∧ kfind d.dst.halfA k = none ∧ kfind d.dst.halfB k = none ∧ kfind d.dst.skeins k = none
        ∧ d.pra.word (commitWord k) = 0 ∧ d.evt.sticky evSkeinDisabled = true))
    ∧ (inTurn e th isKeyCommand = true → ∀ k y, ReadyFor e th t (.keyInfo k) → 2 ≤ k → kfind e.dst.skeins k = some y →
      Gives (.keyInfo dt th) s (fun d => d.pra = e.pra ∧ d.dst = e.dst ∧ EndedWith d th .ok (octets 4 y.attr.toNat
        ++ octets 4 (skeinWord e k).toNat ++ octets 2 y.district.toNat ++ octets 2 0 ++ keyKcv (attrType y.attr) (skeinKey e k)
        ++ (if attrType y.attr = 3 then octets 96 (Config.publicPoint (skeinKey e k)).toNat else []))))
    ∧ (∀ l v f, ReadyFor e th t (.lifecycleSet l) → writeTurn e = true →
      (∀ u, lifecycleStep e.pra.lifecycle l = false → Gives (.lifecycleSet dt th v f u) s (fun d =>
        EndedWith d th .state [] ∧ d.pra = e.pra))
      ∧ (lifecycleStep e.pra.lifecycle l = true → 0 < (praDue e).pra.tokens 1 →
        Gives (.lifecycleSet dt th true f none) s (fun d => EndedWith d th .ok [] ∧ d.pra.word 1 = BitVec.ofNat 32 l
          ∧ d.evt.sticky evLifecycleChange = true ∧ (l ≠ 4 → ∀ n, n ≠ 1 → d.pra.word n = e.pra.word n))))
    ∧ (e.dst.rngOk = true → e.phase.ctrlRuns = true → Gives (.keyRemask dt) s (fun d => d = { e with dst := d.dst, free := d.free }
      ∧ (∀ k y, 2 ≤ k → kfind e.dst.skeins k = some y → y.s0.length ≤ 64 → y.s1.length = y.s0.length → skeinKey d k = skeinKey e k)
      ∧ (∀ k, k < 2 → let r := kgetD e.dst.root k ([], [])
        r.1.length ≤ 64 → r.2.length = r.1.length → skeinKey d k = skeinKey e k)
      ∧ d.dst.cache.map (fun x => (x.skein, x.eui, x.gen, x.s0 ^^^ x.s1))
        = e.dst.cache.map (fun x => (x.skein, x.eui, x.gen, x.s0 ^^^ x.s1))))
    ∧ (e.phase.ctrlRuns = true → Gives (.rngHealthWindow dt true) s (fun d => d.dst.rngPass = min 1024 (e.dst.rngPass + 1)
        ∧ d.dst.rngOk = (e.dst.rngOk || decide (1024 ≤ e.dst.rngPass + 1)) ∧ d.pra = e.pra)
      ∧ Gives (.rngHealthWindow dt false) s (fun d => d.dst.rngPass = 0 ∧ d.dst.rngOk = false
        ∧ (e.phase.fwRuns = true → d.evt.sticky evRngFail = true) ∧ d.pra = e.pra))

/-- Images (R327 to R331, R319): REEL_STAGE clears VALID of the inactive bank and stages block by block; a staged reel is VALID;
a failed check ends the stage; the activation enters HOLD, puts the bank on trial and resets 50 ms after its tick; OWNER_LOCK
writes the owner; and a QUOTE_REQ is answered, or waits for START_HOLD. Under these conditions exec answers a next state for
each of: reelStage, reelStageBlock, reelActivateExecute, activateReset, ownerLock, quoteReq. -/
def Obligations.ImageCommands : Prop :=
  ∀ (s : State) (dt th : Nat) (t : Thread), let e := s.dev.elapse dt
    (∀ card, imageTurn e th = true → writeTurn e = true → ReadyFor e th t .reelStage →
      (∀ st v, stageRefused (praDue e) = some st → Gives (.reelStage dt th card v) s (fun d => EndedWith d th st []
        ∧ d.img.last = st.num ∧ d.pra = (praDue e).pra))
      ∧ (∀ r, stageRefused (praDue e) = none → cardRefused e.pra.floor card = .inr r →
        Gives (.reelStage dt th card true) s (fun d =>
          d.img.stage = some { th := th, bank := 1 - e.pra.activeBank, reel := r, done := 0 } ∧ d.img.blocks = 0
          ∧ d.pra.word 3 = bankWithValid e.pra (1 - e.pra.activeBank) false ∧ ∀ n, n ≠ 3 → d.pra.word n = e.pra.word n)))
    ∧ (∀ g u, e.img.stage = some g → e.phase = .up → writeTurn e = true → e.thread? g.th = some u → u.st = .running →
      (g.done + 1 < g.reel.nblk → ∀ b c v, Gives (.reelStageBlock dt true true true b c v) s (fun d =>
        d.img.stage = some { g with done := g.done + 1 } ∧ d.img.blocks = g.done + 1 ∧ d.pra = e.pra))
      ∧ (g.reel.nblk ≤ g.done + 1 → 0 < (praDue e).pra.tokens 3 →
        Gives (.reelStageBlock dt true true true true true true) s (fun d => d.img.stage = none
          ∧ d.pra.word 3 = bankWithValid e.pra g.bank true ∧ d.evt.sticky evReelStaged = true
          ∧ EndedWith d g.th .ok (octets 4 g.reel.version ++ octets 2 g.reel.svn ++ octets 1 g.bank ++ octets 1 0
            ++ octets 8 g.reel.build)))
      ∧ (∀ b f g' h v, Gives (.reelStageBlock dt false b f g' h v) s (fun d => d.img.stage = none ∧ EndedWith d g.th .noMedia []
        ∧ d.pra = e.pra)))
    ∧ (∀ bank alone rest, e.img.act = (th, bank, alone) :: rest → ReadyFor e th t (.reelActivate bank alone) →
      activateTick e t = true → imageTurn e th = true → writeTurn e = true → e.img.actReset = none → Untied e th →
      (alone = true ∨ e.ply.partnered = false) → 0 < (praDue e).pra.tokens 3 →
      Gives (.reelActivateExecute dt true) s (fun d => d.glb.power = 1
        ∧ d.pra.word 3 = bankWord true (e.pra.bankValid 1) (e.pra.bankValid 0) bank e.pra.floor
        ∧ d.img.actReset = some (e.glb.upNs + 50000000 - (e.whl.time - e.whl.tickAt)) ∧ EndedWith d th .ok []
        ∧ d.evt.sticky evReelActivate = true ∧ ∀ n, n ≠ 3 → d.pra.word n = e.pra.word n))
    ∧ (∀ k, e.img.actReset = some k → k ≤ e.glb.upNs → Gives (.activateReset dt) s (fun d => d.phase = .inReset ∧ d.pwr.cause = 8
      ∧ d.ccp.threads = [] ∧ Kept e d))
    ∧ (∀ set, imageTurn e th = true → writeTurn e = true → ReadyFor e th t (.ownerLock set) →
      (set = false → ownerLocked e = true → fld (e.pra.word 4) 3 0 ≠ t.ident → ∀ v, Gives (.ownerLock dt th v) s (fun d =>
        EndedWith d th .locked [] ∧ d.pra = e.pra))
      ∧ (set = true → e.pra.word 4 ≠ ownerWord true t.ident → 0 < (praDue e).pra.tokens 4 →
        Gives (.ownerLock dt th true) s (fun d => EndedWith d th .ok [] ∧ d.pra.word 4 = ownerWord true t.ident
          ∧ d.evt.sticky evOwnerLock = true ∧ ∀ n, n ≠ 4 → d.pra.word n = e.pra.word n)))
    ∧ (∀ port p, ccpHears e port p = true → packetOk p = true → p.type = 5 → p.length = 52 →
      let nonce := BitVec.ofNat 256 (natOf p.body)
      (e.phase = .up → e.dst.rngOk = true → quoteRoom e = true → (invoke e 1 masterCcp useSign).1 = true →
        Gives (.quoteReq dt port p) s (fun d => let body := quoteBody e nonce
          d.out.drop 1 = [.quoteResp p.src p.sport body (quoteSig e body)] ∧ d.pra = e.pra ∧ d.ccp = e.ccp))
      ∧ (e.phase = .applied → Gives (.quoteReq dt port p) s (fun d =>
        d.dst.quoteWait = e.dst.quoteWait ++ [(some (p.src, p.sport), 0, nonce)] ∧ d.out = [])))

/-- The service port (R335): a request is answered once, and a repeat of its TYPE and SEQ has the same response; SET_BAUD takes
the rate and falls back after 2 s; registers are read and written as by any other sender, but not written from DEPLOYED
onward; a quote is answered; and a frame broken off has no effect. Under these conditions exec answers a next state for each
of: hello, setBaud, setBaudRevert, svcRegRead, svcRegWrite, quote, serviceFrameGap. -/
def Obligations.ServicePort : Prop :=
  ∀ (s : State) (dt : Nat) (seq : BitVec 8), let e := s.dev.elapse dt
    let q := { e with img := { e.img with baudUntil := none } }
    let ans (type : Nat) (st : Status) (l : List Byte) : List Output :=
      [.sealed .serial (svcFrame type seq st l), .svc (type + 0x80) seq st l]
    svcServed e = true →
    (NewRequest e 1 seq → Gives (.hello dt seq) s (fun d => d.pra = e.pra ∧ d.out = ans 1 .ok
      (octets 1 (b2n (e.phase != .recovery)) ++ octets 8 e.glb.eui.toNat ++ octets 4 (e.pra.word 1).toNat
        ++ octets 4 (e.pra.word 2).toNat ++ octets 4 (e.pra.word 3).toNat)))
    ∧ (∀ st l, e.img.prev = some (1, seq, st, l) → Gives (.hello dt seq) s (fun d => d = { q with out := ans 1 st l }))
    ∧ (∀ rate, NewRequest e 2 seq → (rate ∈ baudRates → Gives (.setBaud dt seq rate) s (fun d => d.img.baud = rate
        ∧ d.img.baudUntil = some (e.glb.upNs + 2000000000) ∧ d.out = ans 2 .ok []))
      ∧ (rate ∉ baudRates → Gives (.setBaud dt seq rate) s (fun d => d.img.baud = e.img.baud ∧ d.out = ans 2 .range [])))
    ∧ (∀ k, e.img.baudUntil = some k → k ≤ e.glb.upNs → Gives (.setBaudRevert dt) s (fun d =>
      d = { e with img := { e.img with baud := 115200, baudUntil := none } }))
    ∧ (e.phase.fwRuns = true → ∀ a n, NewRequest e 3 seq → 1 ≤ n → n ≤ 256 → Gives (.svcRegRead dt seq a n) s (fun d =>
      d.out = ans 3 .ok (readRun q a n).1 ∧ d.whl = e.whl ∧ d.spn = e.spn ∧ d.wrp = e.wrp ∧ d.pra = e.pra))
    ∧ (e.phase.fwRuns = true → ∀ a v, NewRequest e 4 seq →
      (3 ≤ e.pra.lifecycle → Gives (.svcRegWrite dt seq a v) s (fun d => d.out = ans 4 .state [] ∧ d.whl = e.whl
        ∧ d.spn = e.spn ∧ d.wrp = e.wrp ∧ d.pra = e.pra))
      ∧ (e.pra.lifecycle < 3 → persistentWord? a = none → Gives (.svcRegWrite dt seq a v) s (fun d =>
        d.out = (writeAt q a v).1.out ++ ans 4 (writeAt q a v).2 [] ∧ d.whl = (writeAt q a v).1.whl
          ∧ d.spn = (writeAt q a v).1.spn ∧ d.wrp = (writeAt q a v).1.wrp))
      ∧ (∀ w, e.pra.lifecycle < 3 → persistentWord? a = some w → Gives (.svcRegWrite dt seq a v) s (fun d =>
        d.pra.queue = e.pra.queue ++ [{ word := w, value := v, writer := .svc seq }] ∧ d.out = [])))
    ∧ (∀ nonce, NewRequest e 5 seq → e.phase = .up ∨ e.phase = .recovery → e.dst.rngOk = true → quoteRoom e = true →
      (invoke e 1 (if e.phase = .recovery then masterRom else masterCcp) useSign).1 = true →
      Gives (.quote dt seq nonce) s (fun d => let body := quoteBody e nonce
        d.out = ans 5 .ok (body ++ octets 96 (quoteSig e body).toNat) ∧ d.pra = e.pra))
    ∧ Gives (.serviceFrameGap dt) s (fun d => d = e)

/-- ROM recovery mode (R334, R336): an image begins, its data are taken in order, its head and its end are checked, a FIRMWARE
image selects its bank on trial, and the reset follows 100 ms later; the card is read once. Under these conditions exec
answers a next state for each of: imgBegin, imgData, imgEnd, recoveryReset, recoveryCardRead. -/
def Obligations.RecoveryMode : Prop :=
  ∀ (s : State) (dt : Nat) (seq : BitVec 8), let e := s.dev.elapse dt
    let ans (type : Nat) (st : Status) : List Output := [.sealed .serial (svcFrame type seq st []), .svc (type + 0x80) seq st []]
    e.phase = .recovery →
    (e.pwr.vsd33 = false → (∀ size, NewRequest e 0x10 seq → Gives (.imgBegin dt seq size) s (fun d =>
        d.img.xfer = some { size := size, got := 0, reel := none } ∧ d.out = ans 0x10 .ok ∧ d.pra = e.pra))
      ∧ (∀ x off n head b f v, NewRequest e 0x11 seq → e.img.xfer = some x → 1 ≤ n → n ≤ 4092 → off = x.got →
        x.got + n ≤ x.size →
        ((x.got + n) / 65536 = x.got / 65536 → Gives (.imgData dt seq off n head b f v) s (fun d =>
          d.img.xfer = some { x with got := x.got + n } ∧ d.out = ans 0x11 .ok ∧ d.pra = e.pra))
        ∧ ((x.got + n) / 65536 ≠ x.got / 65536 → 40000 ≤ e.pwr.vhold → x.got < 65536 → headRefused e.pra.floor head = none →
          x.size = (1 + head.nblk) * 65536 → (head.kind = 1 → 0 < (praDue e).pra.tokens 3) →
          Gives (.imgData dt seq off n head b true true) s (fun d =>
            d.img.xfer = some { x with got := x.got + n, reel := some head } ∧ d.out = ans 0x11 .ok
              ∧ d.pra.word 3 = (if head.kind = 1 then bankWithValid e.pra (1 - e.pra.activeBank) false else e.pra.word 3)))
        ∧ ((x.got + n) / 65536 ≠ x.got / 65536 → 40000 ≤ e.pwr.vhold → 65536 ≤ x.got → Gives (.imgData dt seq off n head false f v) s
          (fun d => d.img.xfer = none ∧ d.out = ans 0x11 .reelBlock ∧ d.pra = e.pra)))
      ∧ (∀ size r, NewRequest e 0x12 seq → e.img.xfer = some { size := size, got := size, reel := some r } →
        (r.kind = 1 → 0 < (praDue e).pra.tokens 3 ∧ 0 < (praDue e).pra.tokens 2) →
        Gives (.imgEnd dt seq true true true) s (fun d => d.img.xfer = none ∧ d.out = ans 0x12 .ok
          ∧ d.img.recReset = some (e.glb.upNs + 100000000)
          ∧ (r.kind = 1 → let n := 1 - e.pra.activeBank
            d.pra.word 3 = bankWord true (n == 1 || e.pra.bankValid 1) (n == 0 || e.pra.bankValid 0) n e.pra.floor
              ∧ d.pra.word 2 = bootWord (fld (e.pra.word 2) 31 8) false 0)
          ∧ (r.kind ≠ 1 → d.pra = e.pra))))
    ∧ (∀ k, e.img.recReset = some k → k ≤ e.glb.upNs → Gives (.recoveryReset dt false) s (fun d =>
        d.phase = .inReset ∧ d.pwr.cause = 9 ∧ Kept e d)
      ∧ Gives (.recoveryReset dt true) s (fun d => d.phase = .recovery ∧ d.img.recReset = none ∧ d.pra = e.pra))
    ∧ (e.pwr.vsd33 = true → (∀ card v, cardReel e.pra.floor card = none → Gives (.recoveryCardRead dt card v) s (fun d =>
        d.pwr.vsd33 = false ∧ d.img.recReset = e.img.recReset ∧ d.pra = e.pra))
      ∧ (∀ card r v, cardReel e.pra.floor card = some r → r.kind ≠ 1 → 40000 ≤ e.pwr.vhold →
        Gives (.recoveryCardRead dt card v) s (fun d => d.pwr.vsd33 = false ∧ d.img.recReset = some (e.glb.upNs + 100000000)
          ∧ d.pra = e.pra)))

/-- Events and the picker (R8, R223, R347, R352, R358 to R360): a write of EVT_STICKYw clears STICKY of the sources whose bits
are 1 and no other, but one that the hardware sets at the same instant ends set; the entries of a slot that is over go out as
a NOTICE; a pass and its errors are counted; and an uncorrectable error does what its place asks. Under these conditions exec
answers a next state for each of: evtStickyClear, thrHwmClr, noticeSend, pickerScan. -/
def Obligations.EventsAndPicker : Prop :=
  ∀ (s : State) (dt : Nat) (v : Word), let e := s.dev.elapse dt
    (e.phase.fwRuns = true →
      (∀ w, w < 16 → Gives (.evtStickyClear dt (0x800100 + 4 * w) v) s (fun d => d = { e with evt := d.evt, out := [.status .ok] }
        ∧ (∀ j, j < 32 → d.evt.sticky (32 * w + j) = (e.evt.sticky (32 * w + j)
          && (!bit v j || (e.evt.src (32 * w + j)).setAt == some e.pwr.wall)))
        ∧ (∀ k, (k < 32 * w ∨ 32 * w + 32 ≤ k) → d.evt.src k = e.evt.src k) ∧ d.evt.log = e.evt.log))
      ∧ (bit v 31 = true → Gives (.thrHwmClr dt v) s (fun d =>
        d = { e with ccp := { e.ccp with hwm := e.ccp.threads.length }, out := [.status .ok] })))
    ∧ (∀ l rest x y, let wait := e.evt.log.reverse.filter (fun a => decide (e.evt.noticed ≤ a.index))
      let batch := wait.takeWhile (fun a => a.slot == l.slot)
      e.phase = .up → wait = l :: rest → l.slot ≠ e.whl.slot → noticeIdents e = [(x, y)] → batch.length ≤ 254 →
      (∀ a ∈ batch, (e.evt.src a.src).noticeEn = true) → kfind e.ccp.idents x = some y →
      (invoke e y.skein masterCcp useEncrypt).1 = true → Gives (.noticeSend dt) s (fun d =>
        d.out.drop 1 = [.notice y.addr y.port x (2 ^ 63 + (kgetD e.ccp.runs x {}).sent) l.index 0 batch]
          ∧ d.evt = { e.evt with noticed := l.index + batch.length }))
    ∧ (e.phase.ctrlRuns = true →
      (∀ m tgt addr, Gives (.pickerScan dt m tgt addr .clean false) s (fun d => d = e)
        ∧ Gives (.pickerScan dt m tgt addr .clean true) s (fun d =>
          d.glb.sramPass = (if m = .dram then e.glb.sramPass else inc32 e.glb.sramPass)
            ∧ d.glb.dramPass = (if m = .dram then inc32 e.glb.dramPass else e.glb.dramPass)
            ∧ d.glb.corr = e.glb.corr ∧ d.wrp = e.wrp ∧ d.ccp = e.ccp ∧ d.dst = e.dst)
        ∧ Gives (.pickerScan dt m tgt addr .correctable false) s (fun d => d.glb.corr = inc32 e.glb.corr
          ∧ d = { e with glb := d.glb } ∧ d.glb.uncorr = e.glb.uncorr))
      ∧ (∀ m addr, Gives (.pickerScan dt m .working addr .uncorrectable false) s (fun d => d.glb.uncorr = inc32 e.glb.uncorr
          ∧ d.glb.faultReset = true ∧ (e.phase.fwRuns = true → d.evt.sticky evScrubUncorr = true))
        ∧ (∀ i p, kfind e.ccp.policy i = some p → Gives (.pickerScan dt m (.policy i) addr .uncorrectable false) s (fun d =>
          kfind d.ccp.policy i = some { p with valid := false } ∧ (∀ k, k ≠ i → kfind d.ccp.policy k = kfind e.ccp.policy k)))))

/-- Packets into the shuttle (R225, R226, R228, R231, R239, R252), for a packet that no policer judges: one for the device itself
is queued for the CPU with the cells it needs; one that is not IPv6, that no table entry matches, whose hop limit is spent,
that is longer than the MTU, or for an absent node, is dropped and counted; and the end of its frame makes the packet whole,
takes a bad one back, or stomps one whose egress has begun. Under these conditions exec answers a next state for each of:
packetIngress, packetIngressEnd. -/
def Obligations.PacketsEnter : Prop :=
  ∀ (s : State) (dt : Nat) (port : Port) (k : Packet), let e := s.dev.elapse dt
    let c := dscpClass e k.dscp
    (shuttleRuns e port = true →
      (k.ipv6 = false → ¬ (isBh port = true ∧ (k.ptp = true ∨ k.plink = true)) →
        Gives (.packetIngress dt port k) s (fun d => d = { e with sht := { e.sht with dropNonip := inc32 e.sht.dropNonip } }))
      ∧ (k.ipv6 = true → (e.crd.selOf (qkey port c)).1 = false →
        (∀ m h, ownAddr e port k.dst = true → k.ipLen ≤ 1280 → e.sht.ecnEn = false →
          drawCells e .cpu c ((k.len + 255) / 256) port c = (some (m, h, 0), false) →
          Gives (.packetIngress dt port k) s (fun d =>
            d.queue .cpu c = e.queue .cpu c ++ [{
              p := k, inPort := port, inClass := c, minCells := m, shared := h, head := 0, node := none, whole := !hasLine port }]
              ∧ d.whl = e.whl ∧ d.sht.bank = e.sht.bank ∧ d.sht.dropBuf = e.sht.dropBuf ∧ d.ply = e.ply))
        ∧ (∀ hdrm, ownAddr e port k.dst = true → k.ipLen ≤ 1280 →
          drawCells e .cpu c ((k.len + 255) / 256) port c = (none, hdrm) →
          Gives (.packetIngress dt port k) s (fun d =>
            d.sht = { e.sht with dropBuf := inc32 e.sht.dropBuf } ∧ d.whl = e.whl ∧ d.ply = e.ply))
        ∧ (ownAddr e port k.dst = false → lookup e false k.dst = (e, none) → e.sht.missAct = 0 →
          Gives (.packetIngress dt port k) s (fun d =>
            d = { e with sht := { e.sht with dropMiss := inc32 e.sht.dropMiss } }))
        ∧ (∀ h, ownAddr e port k.dst = false → lookup e false k.dst = (e, some h) → fld h.e.result 31 29 = 4 →
          port ≠ .mesh →
          (k.hop ≤ 1 → Gives (.packetIngress dt port k) s (fun d =>
            d = { e with sht := { e.sht with dropHop := inc32 e.sht.dropHop } }))
          ∧ (1 < k.hop → 1280 < k.ipLen → splits port k = false → Gives (.packetIngress dt port k) s (fun d =>
            d = { e with sht := { e.sht with dropMtu := inc32 e.sht.dropMtu } }))
          ∧ (∀ n, 1 < k.hop → k.ipLen ≤ 1280 → meshNode e h.e.result k.dst = some n → e.present n = false →
            Gives (.packetIngress dt port k) s (fun d =>
              d = { e with sht := { e.sht with dropNonode := inc32 e.sht.dropNonode } })))))
    ∧ (∀ g, kfind e.sht.ingress port.num = some g →
      Gives (.packetIngressEnd dt port true) s (fun d => kfind d.sht.ingress port.num = none
        ∧ d.queue g.port g.cls = (e.queue g.port g.cls).map (fun q => if q.arriving port then { q with whole := true } else q)
        ∧ (d.qport g.port).freeAt = (e.qport g.port).freeAt ∧ d.out = e.out ∧ d.whl = e.whl ∧ d.ply = e.ply)
      ∧ Gives (.packetIngressEnd dt port false) s (fun d => kfind d.sht.ingress port.num = none
        ∧ d.queue g.port g.cls = (e.queue g.port g.cls).filter (fun q => !q.arriving port) ∧ d.whl = e.whl ∧ d.ply = e.ply
        ∧ (cutsNow e g.port port = false → d.sht.ctStomp = e.sht.ctStomp)
        ∧ (cutsNow e g.port port = true → d.sht.ctStomp = inc32 e.sht.ctStomp ∧ Output.stomp g.port ∈ d.out
          ∧ (d.qport g.port).sending = none)))

/-- Egress and links (R20, R21, R229, R242, R257, R265): a free port whose shapers allow sends the head of the highest of queues
0 to 3 that may start, from CPU to the firmware, which answers a solicitation for an own address; a busy one sends nothing; a
generated flow control frame that waits goes ahead of every queue; a link that changes is reported; one held down for its
clock does not come up. Under these conditions exec answers a next state for each of: egressSelect, portLink. -/
def Obligations.EgressAndLinks : Prop :=
  ∀ (s : State) (dt : Nat), let e := s.dev.elapse dt
    (∀ p, hasLine p = true → e.whl.time < (e.qport p).freeAt → Gives (.egressSelect dt p) s (fun d => d = e))
    ∧ (∀ (c : Nat) (k : QPkt) (rest : List QPkt), c < 4 → e.phase.fwRuns = true → e.sht.cpuWaiting < 1024 →
      e.que.p4.shaper.en = false → (e.que.p4.shaperOf c).en = false → (∀ j, j < c → e.queue .cpu j = []) →
      e.queue .cpu c = k :: rest → k.whole = true → k.p.poison = false → k.node = none →
      Gives (.egressSelect dt .cpu) s (fun d => d.queue .cpu c = rest ∧ Output.egress .cpu c k.p ∈ d.out
        ∧ (solicits e k = none → d.sht.cpuWaiting = e.sht.cpuWaiting + b2n (fwTakes k.p))
        ∧ ((solicits e k).isSome = true → ∃ l, Output.advert k.inPort l ∈ d.out)
        ∧ d.whl = e.whl ∧ d.ply = e.ply ∧ d.sht.bank = e.sht.bank))
    ∧ (∀ p f r, hasLine p = true → e.phase.fwRuns = true → txFree e p = true → (e.qport p).fcq = f :: r →
      Gives (.egressSelect dt p) s (fun d => Output.macCtl (p == .bh1) f.ctl f.octets_ ∈ d.out
        ∧ d.sht.queues = e.sht.queues ∧ d.whl = e.whl ∧ d.ply = e.ply))
    ∧ (∀ p up, e.linkUp p = up → Gives (.portLink dt p up) s (fun d => d = e))
    ∧ (∀ p, hasLine p = true → e.linkUp p = false → e.phase = .up → heldDown e p = false →
      Gives (.portLink dt p true) s (fun d => d.linkUp p = true ∧ d.sht.queues = e.sht.queues ∧ d.sht.bank = e.sht.bank
        ∧ (d.evt.src evPortLink).sticky = true ∧ d.whl = e.whl ∧ d.ply = e.ply))
    ∧ (∀ p, heldDown e p = true → Gives (.portLink dt p true) s (fun d => d = e))
    ∧ (∀ p, hasLine p = true → e.linkUp p = true → Gives (.portLink dt p false) s (fun d => d.linkUp p = false
        ∧ (d.qport p).xoff = [] ∧ (d.qport p).pauses = [] ∧ d.sht.bank = e.sht.bank ∧ d.whl = e.whl ∧ d.ply = e.ply))

/-- Table operations (R231, R234, R235, R239): a row of SHT_TCMD does the operation on the bank named: READ copies an entry into
staging, WRITE puts a MAM entry or a hash entry's result, DELETE clears VALID and nothing else, INSERT takes the lowest free
way of the bucket, FIND answers where a key lies and LOOKUP what a destination matches, each with its STATUS; and SWAP
exchanges the banks and copies nothing. Under these conditions exec answers a next state for each of: tableRead, tableWrite,
tableDelete, tableInsert, tableFind, tableLookup, bankSwap. -/
def Obligations.TableOperations : Prop :=
  ∀ (s : State) (dt : Nat) (v : Word), let e := s.dev.elapse dt
    e.phase.fwRuns = true →
    let b := e.sht.bankAt (bit v 22)
    let i := fld v 17 0
    let m := { e.sht with tcTable := fld v 24 23, tcBank := bit v 22, tcIndex := i }
    let done := fun (x : Sht) (st : Nat) (d : Dev) => d = { e with
      sht := { x with tcStatus := st }, out := e.out ++ [.status .ok] }
    let read := fun (x : TEntry) =>
      { m with stgPre := x.pre, stgLen := x.len, stgResult := x.result, stgValid := x.valid, stgPerr := x.bad }
    (fld v 27 25 = 1 →
      (fld v 24 23 = 0 → i < 4096 → Gives (.tableRead dt v) s (done (read (b.entry 1 i)) 0))
      ∧ (fld v 24 23 = 0 → 4096 ≤ i → Gives (.tableRead dt v) s (done m 1))
      ∧ (fld v 24 23 = 1 → Gives (.tableRead dt v) s (done (read (b.entry 2 i)) 0)))
    ∧ (fld v 27 25 = 2 → fld v 24 23 = 0 → i < 4096 → stagedOk m 0 64 = true →
      (m.stgValid = false ∨ mamOrder b.mam i m.stgLen = true → Gives (.tableWrite dt v) s
        (done (m.putBank (bit v 22) (b.put 1 i m.staged)) 0))
      ∧ (m.stgValid = true → mamOrder b.mam i m.stgLen = false → Gives (.tableWrite dt v) s (done m 2)))
    ∧ (fld v 27 25 = 2 → fld v 24 23 = 1 → fld m.stgResult 31 29 ≠ 7 → let x := b.entry 2 i
      x.valid = true → x.pre = m.stgPre → x.len = m.stgLen → Gives (.tableWrite dt v) s
        (done (m.putBank (bit v 22) (b.put 2 i { x with result := m.stgResult, badRes := false })) 0))
    ∧ (fld v 27 25 = 3 →
      (fld v 24 23 = 0 → i < 4096 → Gives (.tableDelete dt v) s (done (m.putBank (bit v 22) (b.drop 1 i)) 0))
      ∧ (fld v 24 23 = 1 → Gives (.tableDelete dt v) s (done (m.putBank (bit v 22) (b.drop 2 i)) 0)))
    ∧ (fld v 27 25 = 4 → fld v 24 23 = 1 →
      (∀ k b', hashInsert b m.staged = .inl (k, b') → Gives (.tableInsert dt v) s
        (done { m.putBank (bit v 22) b' with tcIndex := k } 0))
      ∧ (∀ st, hashInsert b m.staged = .inr st → Gives (.tableInsert dt v) s (done m st)))
    ∧ (fld v 27 25 = 5 → fld v 24 23 = 1 →
      (∀ k, hashFind b m.stgPre m.stgLen = some k → Gives (.tableFind dt v) s (done { m with tcIndex := k } 0))
      ∧ (hashFind b m.stgPre m.stgLen = none → Gives (.tableFind dt v) s (done m 5)))
    ∧ (fld v 27 25 = 6 → ∀ h, lookup { e with sht := m } (bit v 22) e.sht.stgPre = ({ e with sht := m }, some h) →
      Gives (.tableLookup dt v) s (done
        { m with stgValid := true, stgPerr := false, stgLen := h.e.len, stgResult := h.e.result, stgHit := true,
                 stgLevel := h.level, stgIndex := h.index } 0))
    ∧ (bit v 31 = true → Gives (.bankSwap dt v) s (fun d => d.sht = { e.sht with
        active := !e.sht.active, bank := e.sht.shadow, shadow := e.sht.bank } ∧ d.que = e.que ∧ d.crd = e.crd))

/-- Shapers, policers and time gates (R244, R245, R249, R250, R254): a write of RATE or BURST keeps the tokens accrued so far,
never above BURST; a value outside its range is refused with RANGE; ARM makes a change pending for the change time, CANCEL
withdraws it, at the change time the admin list becomes operative, and the gates follow the entry in force. Under these
conditions exec answers a next state for each of: shaperWrite, policerWrite, gateArm, gateCancel, gateSwitch,
gateEntryChange. -/
def Obligations.BucketsAndGates : Prop :=
  ∀ (s : State) (dt : Nat) (v : Word), let e := s.dev.elapse dt
    e.phase.fwRuns = true →
    (∀ (addr : Nat), block? addr = some (.que, 0x100) →
      let b := e.que.p0.shaper.shaper e.whl.time
      (1 ≤ fld v 20 0 → fld v 20 0 ≤ 1250000 → Gives (.shaperWrite dt addr v) s (fun d => d = { e with
        que := { e.que with p0 := { e.que.p0 with shaper := { b with rate := fld v 20 0, en := bit v 31 } } },
        out := e.out ++ [.status .ok] }))
      ∧ (fld v 20 0 = 0 ∨ 1250000 < fld v 20 0 → Gives (.shaperWrite dt addr v) s (fun d => d = { e with out := e.out ++ [.status .range] })))
    ∧ (∀ (addr i : Nat), i < 512 → block? addr = some (.crd, 0x1000 + 16 * i + 4) →
      let b := (e.crd.get i).accrue e.whl.time
      let n := fld v 20 0
      (n ≤ 1048576 → Gives (.policerWrite dt addr v) s (fun d => d = { e with
        crd := { e.crd with pol := ksetD e.crd.pol i { b with burst := n, tok := min (tokens_ n) b.tok } {} },
        out := e.out ++ [.status .ok] }))
      ∧ (1048576 < n → Gives (.policerWrite dt addr v) s (fun d => d = { e with out := e.out ++ [.status .range] })))
    ∧ (∀ p : Fin 3, let q := e.qport (linePort p)
      let admin := { q.gates.admin with en := bit v 27, len := fld v 6 0 }
      (bit v 31 = true → q.gates.pending = false → e.whl.todValid = true → admin.ok = true →
        Gives (.gateArm dt p v) s (fun d => d = { e.modQport (linePort p) (fun q => { q with gates := { q.gates with
          admin := admin, pending := true, cct := changeTime e.whl.time admin.base admin.cycle } }) with
          out := e.out ++ [.status .ok] }))
      ∧ (bit v 31 = false → bit v 30 = true → Gives (.gateCancel dt p v) s (fun d => d = { e.modQport (linePort p)
          (fun q => { q with gates := { q.gates with admin := admin, pending := false } }) with
          out := e.out ++ [.status .ok] }))
      ∧ (q.gates.pending = true → q.gates.cct ≤ e.whl.time → Gives (.gateSwitch dt p) s (fun d =>
          let g := (d.qport (linePort p)).gates
          g.oper = q.gates.admin ∧ g.pending = false ∧ g.admin = q.gates.admin
            ∧ (d.evt.src evGateSwitch).sticky = true ∧ d.sht = e.sht ∧ d.crd = e.crd))
      ∧ Gives (.gateEntryChange dt p) s (fun d => d = e.modQport (linePort p) (fun q => { q with
          gates := q.gates.refresh e.whl.time })))

/-- PAUSE and PFC (R255, R256, R257, R258, R263): in PAUSE mode a PAUSE frame pauses all queues of its port for its time, a frame
of another kind is ignored and counted; a pause whose time is over is gone; a queue paused for 100 ms raises PAUSE_LONG; a
due refresh sends the frame again, at once or behind the frame in progress, the next one counting from its end; and the flow
control settings are written, or refused with RANGE. Under these conditions exec answers a next state for each of:
pauseReceive, pauseExpire, pauseLong, pfcRefresh, fcConfigWrite. -/
def Obligations.FlowControl : Prop :=
  ∀ (s : State) (dt : Nat), let e := s.dev.elapse dt
    (∀ t, e.que.p0.fcMode = 1 → 0 < t → Gives (.pauseReceive dt false (.pause t)) s (fun d =>
        d.que.p0.pauseRx = inc32 e.que.p0.pauseRx
        ∧ (∀ c : Fin 16, (kfind d.que.p0.pauses c.val).map (·.1) = some (e.whl.time + e.quantaNs .bh0 t))
        ∧ d.que.p1 = e.que.p1 ∧ d.sht = e.sht ∧ d.whl = e.whl))
    ∧ (∀ port, Gives (.pauseReceive dt port .other) s (fun d =>
        (d.qport (bhPort port)).fcIgnored = inc32 (e.qport (bhPort port)).fcIgnored
        ∧ (d.qport (bhPort port)).pauses = (e.qport (bhPort port)).pauses ∧ d.sht = e.sht ∧ d.whl = e.whl))
    ∧ (∀ (port : Bool) (c : Fin 16) (u v : Nat), kfind (e.qport (bhPort port)).pauses c.val = some (u, v) →
      (u ≤ e.whl.time → Gives (.pauseExpire dt port c) s (fun d =>
        (d.qport (bhPort port)).pauses = kdel (e.qport (bhPort port)).pauses c.val ∧ d.sht = e.sht ∧ d.whl = e.whl))
      ∧ (e.phase.fwRuns = true → e.whl.time < u → v + 100000000 ≤ e.whl.time → Gives (.pauseLong dt port c) s (fun d =>
        d.evt.liveAt evPauseLong 0 = true ∧ d.que = e.que ∧ d.sht = e.sht)))
    ∧ (∀ (i : Fin 8) (due : Nat), e.que.p1.xoff = [(i.val, some due)] → 0 < e.que.p1.quantaTx →
      let f : FcFrame := { pfc := e.que.p1.fcMode == 2, times := [(i.val, e.que.p1.quantaTx)] }
      let free := e.que.p1.freeAt ≤ e.whl.time ∧ e.que.p1.fcq = []
      (due ≤ e.whl.time → free → Gives (.pfcRefresh dt true i) s (fun d =>
        d.que.p1.xoff = [(i.val, some (e.whl.time + e.lineNs .bh1 fcLine + e.quantaNs .bh1 e.que.p1.refreshQ))]
          ∧ d.que.p1.pauseTx = inc32 e.que.p1.pauseTx ∧ d.out = e.out ++ [.macCtl true f.ctl f.octets_]))
      ∧ (due ≤ e.whl.time → ¬ free → Gives (.pfcRefresh dt true i) s (fun d =>
        d.que.p1.xoff = [(i.val, none)] ∧ d.que.p1.fcq = e.que.p1.fcq ++ [f] ∧ d.out = e.out))
      ∧ (e.whl.time < due → Gives (.pfcRefresh dt true i) s (fun d => d = e)))
    ∧ (∀ (addr : Nat) (v : Word), e.phase.fwRuns = true → block? addr = some (.que, 0x11C) →
      (4096 < fld v 28 16 → Gives (.fcConfigWrite dt addr v) s (fun d => d = { e with out := e.out ++ [.status .range] }))
      ∧ (fld v 28 16 ≤ 4096 → e.que.p0.fcMode = 0 → Gives (.fcConfigWrite dt addr v) s (fun d =>
        d.que.p0.headroom = fld v 28 16 ∧ d.que.p0.pfcEn = BitVec.ofNat 8 (fld v 7 0) ∧ d.sht = e.sht ∧ d.crd = e.crd
          ∧ .status .ok ∈ d.out)))

/-- Heartbeats and the treadle (R268, R269, R271, R272, R285, R286, R289): a written heartbeat leaves 2,600 µs after the strobe,
by PLK sealed, or by the queues of the backhaul ports while PLK is down, and the eighth omission silences the spindles; a
frame refused is counted and reported, one with FAULT declares the partner failed, and another is taken as the partner's
latest; two SOLO sides that hear each other were split, and side B alone enters SPARE; no beacon for TREADLE_TMO asserts the
fault wire, FAULT_HOLD ticks later the control die is reset, and the lapse of the status follows BB24. `a` is the device once
the frame's tag and SEQ are taken. Under these conditions exec answers a next state for each of: heartbeatSend,
heartbeatReceive, treadleTimeout, treadleReset, treadleStatusTimeout, treadleStatusResume, treadleLost. -/
def Obligations.HeartbeatsAndTreadle : Prop :=
  ∀ (s : State) (dt : Nat), let e := s.dev.elapse dt
    let idle := ∀ n : Fin 4, (e.spn.get n).tx = none ∧ (e.spn.get n).demods = []
    (e.phase = .up → e.ply.faultTicks = none → e.ply.hbTick ≠ some e.whl.tickK → e.whl.tickAt + 2600000 ≤ e.whl.time →
      (e.ply.partnered = true → e.ply.pathBEn = false → e.sht.linkp = true → invoke e e.ply.plySkein masterLoom useEncrypt = (true, e) →
        e.ply.quiet = false → Gives (.heartbeatSend dt true) s (fun d =>
          d.out = e.out ++ [.sealed .plk (plinkEther e ++ plinkFrame e 1 (heartbeatOctets (heartbeatBody e))),
              .heartbeat .plk e.ply.seqOut (heartbeatBody e)]
            ∧ d.ply.seqOut = e.ply.seqOut + 1 ∧ d.ply.hbTick = some e.whl.tickK ∧ d.ply.omitted = 0 ∧ d.ply.role = e.ply.role
            ∧ d.spn = e.spn))
      ∧ (e.ply.partnered = true → pathB e ≠ [] → e.sht.linkp = false → invoke e e.ply.plySkein masterLoom useEncrypt = (true, e) →
        e.ply.quiet = false → Gives (.heartbeatSend dt true) s (fun d =>
          d.out = e.out ++ [.heartbeat .b e.ply.seqOut { heartbeatBody e with t1 := 0 }] ∧ d.ply.seqOut = e.ply.seqOut + 1
            ∧ (∀ p ∈ pathB e, (d.queue p 0).length = (e.queue p 0).length + 1) ∧ d.ply.hbTick = some e.whl.tickK ∧ d.spn = e.spn))
      ∧ (e.ply.omitted ≠ 7 → Gives (.heartbeatSend dt false) s (fun d => d = { e with
          ply := { e.ply with hbTick := some e.whl.tickK, omitted := e.ply.omitted + 1 } }))
      ∧ (e.ply.omitted = 7 → idle → Gives (.heartbeatSend dt false) s (fun d =>
          d.ply.quiet = true ∧ d.ply.omitted = 8 ∧ ∀ n : Fin 4, (d.spn.get n).planTx = none)))
    ∧ (∀ (path : Path) (h : LinkHeader) (b : Heartbeat) (a : Dev), e.phase = .up → e.ply.partnered = true →
      let c := if path = .b then takeCpu e else e
      (linkTake c e.ply.plySkein h.side.toNat h = (false, a) → Gives (.heartbeatReceive dt path h b) s (fun d =>
        d.ply = a.ply ∧ a.ply.reject = inc32 e.ply.reject ∧ (d.evt.src evPlinkAuth).sticky = true ∧ d.spn = e.spn))
      ∧ (linkTake c e.ply.plySkein h.side.toNat h = (true, a) →
        (b.fault = true → a.ply.pfail = false → Gives (.heartbeatReceive dt path h b) s (fun d =>
          d.ply.pfail = true ∧ (d.evt.src evPartnerFailed).sticky = true ∧ d.ply.role = e.ply.role ∧ d.whl = e.whl
            ∧ ((∀ x, a.ply.last = some x → x.fault = false) → (d.evt.src evPartnerFault).sticky = true)))
        ∧ (b.fault = false → a.ply.pfail = false → Gives (.heartbeatReceive dt path h b) s (fun d =>
          d.ply.pfail = false ∧ d.ply.last = some b ∧ d.ply.prole = roleOf b.role.toNat
            ∧ d.ply.pmepoch = b.mepoch.toNat ∧ d.ply.role = e.ply.role))
        ∧ (b.fault = false → a.ply.pfail = true → a.ply.role = .solo → roleOf b.role.toNat = some .solo →
          (b.asn : Int) ≠ a.whl.tickK % (2 ^ 40 : Nat) → Gives (.heartbeatReceive dt path h b) s (fun d =>
            d.ply.pfail = false ∧ (d.evt.src evSplit).sticky = true
              ∧ (a.ply.side = true → d.ply.role = .spare ∧ d.ply.master = false ∧ d.wrp.nodes = [])
              ∧ (a.ply.side = false → d.ply.role = .solo ∧ d.wrp.nodes = e.wrp.nodes)))))
    ∧ (e.phase = .up → 2000000000 ≤ e.glb.upNs → e.ply.faultTicks = none →
      e.ply.beaconAt + fTreadleTmo.get e.pra * 1000000 ≤ e.glb.upNs → idle → Gives (.treadleTimeout dt) s (fun d =>
        d.ply.faultTicks = some 0 ∧ d.ply.quiet = true ∧ ∀ n : Fin 4, (d.spn.get n).planTx = none))
    ∧ (∀ n, e.ply.faultTicks = some n →
      (fFaultHold.get e.pra ≤ n → Gives (.treadleReset dt) s (fun d =>
        d.phase = .inReset ∧ d.pwr.cause = 5 ∧ d.ply = {} ∧ Kept e d))
      ∧ (n < fFaultHold.get e.pra → Gives (.treadleReset dt) s (fun d => d = e)))
    ∧ Gives (.treadleStatusTimeout dt) s (fun d => d.pwr.treadleLapse = true ∧ d.spn = e.spn ∧ d.ply = e.ply
        ∧ (e.phase.ctrlRuns = true → kgetD d.glb.selftest blockTreadle 0 = 2))
    ∧ Gives (.treadleStatusResume dt) s (fun d => d.pwr.treadleLapse = false ∧ d.spn = e.spn
        ∧ (e.phase.ctrlRuns = true → d.ply.treadleLost = false ∧ kgetD d.glb.selftest blockTreadle 0 = 1))
    ∧ (e.phase.fwRuns = true → e.ply.treadleLost = false → Gives (.treadleLost dt) s (fun d =>
        d.ply = { e.ply with treadleLost := true } ∧ (d.evt.src evTreadleLost).sticky = true ∧ d.spn = e.spn))

/-- Records and counters (R276, R277): the master takes an offer, a command's to wait MERGE_WAIT ticks for its twin and any other
at once; the twin of one that waits makes it assigned; one whose wait is over is assigned two slots on; the other side lists
an assigned record, and counts one that comes late; and it adopts the counters of a destination. `a` is the device once the
frame is taken. Under these conditions exec answers a next state for each of: offerReceive, assignReceive, mergeWaitExpire,
countersReceive. -/
def Obligations.RecordsAndCounters : Prop :=
  ∀ (s : State) (dt : Nat), let e := s.dev.elapse dt
    let c := if e.sht.linkp then e else takeCpu e
    (∀ (h : LinkHeader) (r : DownRec) (a : Dev), e.phase = .up → e.ply.partnered = true →
      linkTake c e.ply.plySkein h.side.toNat h = (true, a) → a.ply.recs.any (fun x => x.hash == r.hash) = false →
      let r' := { r with share := none, retries := 0 }
      (a.ply.master = true → a.ply.waiting.find? (fun q => q.1.hash == r.hash) = none →
        (RecKind.byCommand r.kind = true → Gives (.offerReceive dt h r) s (fun d => d = { a with ply := { a.ply with
          waiting := a.ply.waiting ++ [(r', some (a.glb.upNs + fMergeWait.get a.pra * a.whl.periodNs))] } }))
        ∧ (RecKind.byCommand r.kind = false → Gives (.offerReceive dt h r) s (fun d =>
          d.ply.recs = insertRec { r' with share := some (a.whl.asn + 2) } a.ply.recs ∧ d.wrp = e.wrp ∧ d.whl = e.whl)))
      ∧ (∀ x w, a.ply.master = true → a.ply.waiting.find? (fun q => q.1.hash == r.hash) = some (x, w) →
        Gives (.offerReceive dt h r) s (fun d => d.ply.recs = insertRec { x with share := some (a.whl.asn + 2) } a.ply.recs
          ∧ d.ply.waiting = a.ply.waiting.filter (fun q => q.1.hash != x.hash) ∧ d.wrp = e.wrp ∧ d.whl = e.whl))
      ∧ (a.ply.master = false → Gives (.offerReceive dt h r) s (fun d => d = a))
      ∧ (a.ply.master = false → (∀ tc, r.kind ≠ .correction tc) →
        (scheduleBegun a (r.share.getD 0 : Nat) = false → Gives (.assignReceive dt h r) s (fun d => d = { a with ply := { a.ply with
          recs := insertRec r a.ply.recs, waiting := a.ply.waiting.filter (fun q => q.1.hash != r.hash) } }))
        ∧ (scheduleBegun a (r.share.getD 0 : Nat) = true → Gives (.assignReceive dt h r) s (fun d =>
          d.ply.recs = insertRec r a.ply.recs ∧ d.ply.dlLate = inc32 a.ply.dlLate ∧ d.whl = e.whl))))
    ∧ (∀ (hash t : Nat) (r : DownRec), e.ply.waiting = [(r, some t)] → r.hash = hash → e.ply.master = true →
      (t ≤ e.glb.upNs → Gives (.mergeWaitExpire dt hash) s (fun d =>
        d.ply.recs = insertRec { r with share := some (e.whl.asn + 2) } e.ply.recs ∧ d.ply.waiting = [] ∧ d.wrp = e.wrp))
      ∧ (e.glb.upNs < t → Gives (.mergeWaitExpire dt hash) s (fun d => d = e)))
    ∧ (∀ (h : LinkHeader) (dsn fc : Nat) (a : Dev), e.phase = .up → e.ply.partnered = true →
      linkTake c e.ply.plySkein h.side.toNat h = (true, a) →
      (a.ply.master = true → ∀ dest, Gives (.countersReceive dt h dest dsn fc) s (fun d => d = a))
      ∧ (a.ply.master = false → Gives (.countersReceive dt h none dsn fc) s (fun d => d = { a with
            ply := { a.ply with unsyncB := false }, wrp := { a.wrp with bcastDsn := dsn % 256, bcastFc := fc % 2 ^ 32 } })
        ∧ ∀ i, Gives (.countersReceive dt h (some i) dsn fc) s (fun d => d = a.modNode i (fun x =>
            { x with unsynced := false, dsn := dsn % 256, fcOut := fc % 2 ^ 32 }))))

/-- The mirror (R281, R283, R361): the master numbers a change of the other side; that side applies changes in epoch order, and
an older one changes nothing; a SPARE takes the snapshot it asked for, but not in the middle of a hank's admission; the
master alone answers for the whole mirror, either side for a node; and a lost node without an answer rejoins after 8 ticks.
`a` is the device once the frame is taken. Under these conditions exec answers a next state for each of: deltaReceive,
snapReqReceive, snapReceive, nodeRefetchTimeout. -/
def Obligations.MirrorAndSnapshots : Prop :=
  ∀ (s : State) (dt : Nat), let e := s.dev.elapse dt
    let c := if e.sht.linkp then e else takeCpu e
    (∀ (h : LinkHeader) (a : Dev), e.phase = .up → e.ply.partnered = true →
      linkTake c e.ply.plySkein h.side.toNat h = (true, a) →
      (∀ (ep : BitVec 32) (i : Nat) (gs : List Nat),
        (a.ply.master = true → Gives (.deltaReceive dt h ep (.groups i gs)) s (fun d =>
          d.ply.mepoch = (a.ply.mepoch + 1) % 2 ^ 32 ∧ d.node? i = (a.node? i).map (fun x => { x with groups := gs })
            ∧ d.whl = e.whl))
        ∧ (a.ply.master = false → a.ply.role ≠ .spare →
          (epochAfter ep.toNat a.ply.mepoch = true → Gives (.deltaReceive dt h ep (.groups i gs)) s (fun d =>
            d = (a.modNode i (fun x => { x with groups := gs })).modPly (fun p => { p with mepoch := ep.toNat })))
          ∧ ∀ x, epochAfter ep.toNat a.ply.mepoch = false → Gives (.deltaReceive dt h ep x) s (fun d => d = a)))
      ∧ (plyReach a = true → invoke a a.ply.plySkein masterLoom useEncrypt = (true, a) →
        (a.ply.master = true → Gives (.snapReqReceive dt h none) s (fun d =>
          Output.snap a.ply.mepoch (a.wrp.nodes.map (fun p => p.2.snap p.1)) (warpCells a) (warpRegs a)
              (a.ccp.policy.map (fun p => (p.1, policyBits p.2))) a.ccp.epoch true ∈ d.out
            ∧ Output.counters none a.wrp.bcastDsn a.wrp.bcastFc ∈ d.out ∧ d.wrp = a.wrp ∧ d.ccp = a.ccp))
        ∧ ∀ i x, a.node? i = some x → x.lost = none → Gives (.snapReqReceive dt h (some i)) s (fun d =>
          Output.snap a.ply.mepoch [x.snap i] [] [] [] a.ccp.epoch true ∈ d.out ∧ d.wrp = a.wrp ∧ d.ccp = a.ccp))
      ∧ (a.ply.master = false → Gives (.snapReqReceive dt h none) s (fun d => d = a))
      ∧ (∀ (ep : BitVec 32) nodes cells regs policy (polEpoch : BitVec 16) last,
        (a.ply.role = .spare → a.ply.snapping = true → a.ply.snapped = false → halfAdmitted a = true →
          Gives (.snapReceive dt h ep nodes cells regs policy polEpoch last) s (fun d =>
            d = { a with ply := { a.ply with snapping := false } }))
        ∧ (a.ply.role = .spare → a.ply.snapping = true → a.ply.snapped = false → halfAdmitted a = false →
          Gives (.snapReceive dt h ep nodes cells regs policy polEpoch last) s (fun d =>
            d.ply.mepoch = ep.toNat ∧ d.ply.snapped = last ∧ d.ccp.epoch = polEpoch.toNat ∧ d.whl = e.whl ∧ d.spn = e.spn))
        ∧ (a.ply.role ≠ .spare → Gives (.snapReceive dt h ep [] cells regs policy polEpoch last) s (fun d => d = a))))
    ∧ (∀ (i t : Nat) (x : Node), e.node? i = some x → x.lost = some t →
      (e.glb.upNs < t + 8 * e.whl.periodNs → Gives (.nodeRefetchTimeout dt i) s (fun d => d = e))
      ∧ (t + 8 * e.whl.periodNs ≤ e.glb.upNs → Gives (.nodeRefetchTimeout dt i) s (fun d =>
        (d.node? i).map (·.lost) = some none ∧ (d.node? i).map (·.eui) = some x.eui ∧ (d.node? i).map (·.handle) = some x.handle
          ∧ d.present i = false ∧ d.whl = e.whl)))

/-- The loom table (R290, R291): a due beacon leaves and the next falls due a period later; a beacon of a new ply and side makes
an entry and is reported, one already known refreshes its entry, another E or P is reported; an entry without a beacon for
LOOM_LAPSE periods goes. `a` is the device once the message is taken. Under these conditions exec answers a next state for
each of: loomBeaconSend, loomBeaconReceive, loomEntryLapse. -/
def Obligations.LoomTable : Prop :=
  ∀ (s : State) (dt : Nat), let e := s.dev.elapse dt
    (e.phase = .up → e.start.configured = true →
      (e.ply.loomNext ≤ e.glb.upNs → invoke e e.ply.loomSkein masterLoom useEncrypt = (true, e) →
        Gives (.loomBeaconSend dt) s (fun d => d = { e with
          out := e.out ++ [.sealed (.udp e.ply.devAddr e.ply.loomGroup 47603 47603) (loomFrame e 1 (beaconOctets (beaconBody e))),
            .beacon (beaconBody e)],
          ply := { e.ply with loomNext := e.glb.upNs + fLoomPeriod.get e.pra * 1000000, loomSeq := e.ply.loomSeq + 1 } }))
      ∧ (e.glb.upNs < e.ply.loomNext → Gives (.loomBeaconSend dt) s (fun d => d = e)))
    ∧ (∀ (h : LinkHeader) (ply : BitVec 8) (b : Beacon) (a : Dev), e.phase = .up →
      linkTake (takeCpu e) e.ply.loomSkein (256 * ply.toNat + h.side.toNat) h = (true, a) →
      let side := h.side.getLsbD 0
      (a.ply.loom = [] → ply.toNat ≠ a.ply.ply → Gives (.loomBeaconReceive dt h ply b) s (fun d =>
        d.ply = { a.ply with loom := [{ ply := ply.toNat, side := side, b := b, at_ := a.glb.upNs }] }
          ∧ (d.evt.src evLoomJoin).sticky = true ∧ (sameTime a b = false → (d.evt.src evLoomMismatch).sticky = true)
          ∧ d.whl = e.whl ∧ d.wrp = e.wrp))
      ∧ (∀ old at_, a.ply.loom = [{ ply := ply.toNat, side := side, b := old, at_ := at_ }] → ply.toNat ≠ a.ply.ply →
        old.eui = b.eui → sameTime a b = true → Gives (.loomBeaconReceive dt h ply b) s (fun d =>
          d = { a with ply := { a.ply with loom := [{ ply := ply.toNat, side := side, b := b, at_ := a.glb.upNs }] } }))
      ∧ (plyConflict a ply.toNat side b.eui = true → Gives (.loomBeaconReceive dt h ply b) s (fun d =>
        (d.evt.src evPlyConflict).sticky = true ∧ d.whl = e.whl)))
    ∧ (∀ (ply : BitVec 8) (side : Bool) (b : Beacon) (at_ : Nat),
      e.ply.loom = [{ ply := ply.toNat, side := side, b := b, at_ := at_ }] → e.phase.fwRuns = true →
      (at_ + fLoomLapse.get e.pra * (fLoomPeriod.get e.pra * 1000000) ≤ e.glb.upNs → Gives (.loomEntryLapse dt ply side) s (fun d =>
        d.ply.loom = [] ∧ (d.evt.src evLoomJoin).sticky = true))
      ∧ (e.glb.upNs < at_ + fLoomLapse.get e.pra * (fLoomPeriod.get e.pra * 1000000) →
        Gives (.loomEntryLapse dt ply side) s (fun d => d = e)))

/-- Visitors, forwarded hanks and relayed requests (R292, R293): the master of a node's home answers VISIT_Q with its handle;
with an answer in 2 s the node joins as a visitor, and without one this ply is its home; the home notes the serving ply of
WHERE; the serving ply repeats it every 600 s; a node not named for HOME_LEASE days is released; a forwarded hank waits for
admission; a relayed request for a node not here is answered NO_NODE, one for a node here is noted, and the answer to one
completes its thread, where it is a status. `a` is the device once the message is taken. Under these conditions exec answers
a next state for each of: visitQReceive, visitAReceive, whereReceive, fwdReceive, relayReceive, relayResReceive,
visitTimeout, whereRefresh, homeLeaseExpire. -/
def Obligations.VisitorsAndRelays : Prop :=
  ∀ (s : State) (dt : Nat), let e := s.dev.elapse dt
    (∀ (h : LinkHeader) (ply : BitVec 8) (a : Dev), e.phase = .up →
      linkTake (takeCpu e) e.ply.loomSkein (256 * ply.toNat + h.side.toNat) h = (true, a) →
      (∀ eui i x, a.nodeByEui eui = some (i, x) → a.ply.master = true → x.visitor = false → ply.toNat ≠ a.ply.ply →
        invoke a a.ply.loomSkein masterLoom useEncrypt = (true, a) → Gives (.visitQReceive dt h ply eui) s (fun d =>
          Output.visitA ply.toNat eui x.handle ∈ d.out ∧ d.wrp = a.wrp))
      ∧ (∀ eui, a.nodeByEui eui = none → Gives (.visitQReceive dt h ply eui) s (fun d => d = a))
      ∧ (∀ eui handle v, a.ply.master = true → handleOk handle = true → a.wrp.visits = [v] → v.eui = eui →
        a.glb.upNs ≤ v.since + 2000000000 → a.wrp.nodes = [] → Gives (.visitAReceive dt h ply eui handle) s (fun d =>
          d.wrp.visits = [] ∧ (d.node? 0).map (fun x => (x.eui, x.handle, x.visitor)) = some (eui, handle, true)))
      ∧ (∀ handle i x, a.nodeByHandle handle = some (i, x) → x.visitor = false → kfind a.wrp.nodes i = some x →
        ∀ serving : BitVec 8, serving ≠ 0 → Gives (.whereReceive dt h ply handle serving) s (fun d =>
          (d.node? i).map (·.away) = some (some (serving.toNat, a.glb.upNs)) ∧ d.present i = false ∧ d.ply = a.ply))
      ∧ (∀ (p : CcpPacket), p.type = 1 → p.dply.toNat = a.ply.ply → a.ccp.waiting.length < 256 →
        (kfind a.ccp.idents p.ident.toNat).isSome = true → p.dside.toNat = b2n a.ply.side →
        ∀ cmds, parseBody 256 p.body = some cmds → Gives (.fwdReceive dt h ply p) s (fun d => d = { a with ccp := { a.ccp with
          waiting := a.ccp.waiting ++ [{
            ident := p.ident.toNat, hseq := p.seq, src := p.src, sport := p.sport, cmds := cmds, via := some ply.toNat }],
          rxOk := inc32 a.ccp.rxOk } }))
      ∧ (∀ handle dport tag noReply data, a.nodeByHandle handle = none →
        invoke a a.ply.loomSkein masterLoom useEncrypt = (true, a) →
        Gives (.relayReceive dt h ply handle dport tag noReply data) s (fun d =>
          Output.relayRes ply.toNat handle tag Status.noNode.num [] ∈ d.out ∧ d.wrp = a.wrp))
      ∧ (∀ handle dport tag noReply data i x, a.nodeByHandle handle = some (i, x) →
        Gives (.relayReceive dt h ply handle dport tag noReply data) s (fun d =>
          (ply.toNat, i, tag, noReply) ∈ d.ply.relays ∧ d.wrp = a.wrp ∧ d.ccp = a.ccp))
      ∧ (∀ handle tag status data,
        (∀ th t st, nodeReqThreads a handle tag (·.relayed) = [th] → a.thread? th = some t → t.st = .running →
          statusOf status.toNat = some st →
          Gives (.relayResReceive dt h ply handle tag status data) s (fun d => EndedWith d th st data))
        ∧ (statusOf status.toNat = none → Gives (.relayResReceive dt h ply handle tag status data) s (fun d =>
          d = { a with ply := { a.ply with reject := inc32 a.ply.reject } }))))
    ∧ (∀ eui v, e.wrp.visits = [v] → v.eui = eui → e.ply.master = true → e.wrp.nodes = [] →
      (v.since + 2000000000 ≤ e.glb.upNs → Gives (.visitTimeout dt eui) s (fun d => d.wrp.visits = []
        ∧ (d.node? 0).map (fun x => (x.eui, x.home, x.visitor)) = some (eui, e.ply.ply, false)))
      ∧ (e.glb.upNs < v.since + 2000000000 → Gives (.visitTimeout dt eui) s (fun d => d = e)))
    ∧ (∀ i x, e.node? i = some x →
      (e.ply.master = true → x.visitor = true → x.present e.glb.upNs = true → x.whereAt ≤ e.glb.upNs →
        invoke e e.ply.loomSkein masterLoom useEncrypt = (true, e) → Gives (.whereRefresh dt i) s (fun d =>
          Output.whereMsg x.home x.handle e.ply.ply ∈ d.out
            ∧ d.node? i = some { x with whereAt := e.glb.upNs + 600000000000 } ∧ d.ccp = e.ccp))
      ∧ (∀ k t, x.away = some (k, t) → e.ply.master = true →
        (t + fHomeLease.get e.pra * 86400000000000 ≤ e.glb.upNs → e.ply.recs.all (fun r => r.dest != some i) = true → Gives (.homeLeaseExpire dt i) s (fun d =>
          d.node? i = none ∧ d.ply.role = e.ply.role))
        ∧ (e.glb.upNs < t + fHomeLease.get e.pra * 86400000000000 → Gives (.homeLeaseExpire dt i) s (fun d => d = e))))

/-- An attribute word is consistent exactly where the list of R300 holds of it (TYPE being one of the four that R299 gives), and
KEY_ATTR refuses one that is not with RANGE and changes nothing. Under these conditions exec answers a next state for each
of: keyAttr. -/
def Obligations.AttributeWordsAreConsistent : Prop :=
  ∀ (s : State) (dt th k : Nat) (t : Thread) (a : Word), let e := s.dev.elapse dt
    let consistent := bit a 15 = false ∧ (attrType a = 3 → fld a 21 16 = 0b010000) ∧ (bit a useSign = true → attrType a = 3)
      ∧ (bit a useWrap = true → attrType a = 2)
      ∧ (bit a useDerive = true ∨ bit a useEncrypt = true ∨ bit a useDecrypt = true ∨ bit a 19 = true →
          attrType a = 1 ∨ attrType a = 2)
    attrType a ≤ 3 → (attrConsistent a = true ↔ consistent)
      ∧ (inTurn e th isKeyCommand = true → ReadyFor e th t (.keyAttr k a) → ¬ consistent → Gives (.keyAttr dt th) s (fun d =>
          EndedWith d th .range [] ∧ d.dst = e.dst ∧ d.pra = e.pra))

/-- The device numbers the packets it sends to each identity from 0x8000_0000_0000_0000 after every reset, one up for each packet
that leaves, each identity by itself; a packet leaves sealed from the CCP port to the address and port given (R188, R195). -/
def Obligations.PacketsAreNumbered : Prop :=
  ∀ (d : Dev) (i : Nat) (x : Identity) (dst : BitVec 128) (port : BitVec 16) (mk : Nat → Output), kfind d.ccp.idents i = some x →
    invoke d x.skein masterCcp useEncrypt = (true, d) →
    let n := (kgetD d.ccp.runs i {}).sent
    let o := mk (0x8000000000000000 + n)
    (ccpSend d i dst port mk).2.out = d.out ++ [.sealed (.udp (ownSource d dst) dst ccpPort port.toNat)
        (ccpPacket d x.skein o.ccp.1 i (0x8000000000000000 + n) o.ccp.2), o]
      ∧ (kgetD (ccpSend d i dst port mk).2.ccp.runs i {}).sent = n + 1
      ∧ (∀ j, j ≠ i → kgetD (ccpSend d i dst port mk).2.ccp.runs j {} = kgetD d.ccp.runs j {})
      ∧ ∀ ph pwr, (kgetD (d.fresh ph pwr).ccp.runs i {}).sent = 0

/-- The persistent register array right after reset is in its canonical form and within its budget. -/
def Obligations.ResetArrayIsGood : Prop := State.reset.dev.pra.wf = true ∧ State.reset.dev.pra.budgetOk = true

/-- Every step keeps the canonical form of the persistent register array, and no bucket ever owes more than its 4,096 tokens
(R54). -/
def Obligations.EveryStepKeepsTheArray : Prop :=
  ∀ (s t : State), s.dev.pra.wf = true → s.dev.pra.budgetOk = true → step s = .next t →
    t.dev.pra.wf = true ∧ t.dev.pra.budgetOk = true

/-- What is as built stays so: no command and no reset changes the EUI-64, the die steps or the root keys of the two skeins
installed at manufacture (R10, R298). A re-mask changes a root key's two shares (R302) and not the key, which needs shares of
one length, at most that of the longest key; every step keeps them so. -/
def Obligations.AsBuiltStays : Prop :=
  let shares (d : Dev) (k : Nat) : List Byte × List Byte := kgetD d.dst.root k ([], [])
  let good (d : Dev) : Prop := ∀ k, (shares d k).1.length = (shares d k).2.length ∧ (shares d k).1.length ≤ 64
  ∀ (s t : State), step s = .next t → t.dev.glb.eui = s.dev.glb.eui ∧ t.dev.glb.ctrlStep = s.dev.glb.ctrlStep
    ∧ t.dev.glb.radioStep = s.dev.glb.radioStep ∧ t.dev.glb.powerStep = s.dev.glb.powerStep
    ∧ (good s.dev → good t.dev ∧ ∀ k, joinShares (shares t.dev k).1 (shares t.dev k).2 = joinShares (shares s.dev k).1 (shares s.dev k).2)

/-- Frames of the commands of registers, starts, power, the service port, recovery, events, the picker, the persistent array, the
clock monitor, the bobbins and the distaff: whenever such a command answers a next state, every component of the device that
its list does not name stands as the passing of its time left it. (The commands that can reset the device are not among them:
what a reset keeps is stated by its own statement.) -/
def Obligations.FramesOfTheDevice : Prop :=
  ∀ (s : State) (dt : Nat),
    (∀ addr v, Frame (.registerWrite dt addr v) dt
        [.free, .out, .start, .pra, .evt, .whl, .spn, .wrp, .ccp, .sht, .que, .crd, .ply, .dst, .img, .bob] s)
    ∧ (Frame (.logicRailRise dt) dt [.phase, .pwr] s)
    ∧ (Frame (.railInTolerance dt) dt [.phase] s)
    ∧ (∀ recoveryLow straps bhref verifyOk, Frame (.controlDieResetRelease dt recoveryLow straps bhref verifyOk) dt
        [.phase, .pwr, .glb, .start, .pra, .evt, .whl, .dst] s)
    ∧ (∀ sfdp, Frame (.sfdpDiscovery dt sfdp) dt [.phase, .pwr, .dst] s)
    ∧ (∀ reel, Frame (.loaderCheck dt reel) dt [.phase, .pwr, .dst] s)
    ∧ (∀ code, Frame (.dramZeroFill dt code) dt [.phase, .glb, .start, .evt] s)
    ∧ (∀ bank0 bank1 verifyOk, Frame (.bankLoad dt bank0 bank1 verifyOk) dt
        [.phase, .pwr, .glb, .start, .pra, .evt, .whl, .dst] s)
    ∧ (∀ tests faults, Frame (.firmwareStart dt tests faults) dt
        [.phase, .free, .glb, .start, .pra, .evt, .ccp, .ply, .dst, .img] s)
    ∧ (∀ image kwBad, Frame (.configImageCheck dt image kwBad) dt [.phase, .start, .evt, .dst] s)
    ∧ (∀ bootOk bankOk, Frame (.startHold dt bootOk bankOk) dt
        [.phase, .free, .out, .pwr, .glb, .start, .pra, .evt, .whl, .dst, .img] s)
    ∧ (Frame (.praWriteBegin dt) dt
        [.free, .out, .start, .pra, .evt, .whl, .spn, .wrp, .ccp, .sht, .que, .crd, .ply, .dst, .img, .bob] s)
    ∧ (∀ verifyOk, Frame (.praWriteComplete dt verifyOk) dt
        [.free, .out, .start, .pra, .evt, .whl, .spn, .wrp, .ccp, .sht, .que, .crd, .ply, .dst, .img, .bob] s)
    ∧ (Frame (.praTokenRefill dt) dt [.pra, .evt] s)
    ∧ (∀ verifyOk, Frame (.praLifeUpdate dt verifyOk) dt [.start, .pra, .evt] s)
    ∧ (∀ verifyOk, Frame (.learnedOffsetWrite dt verifyOk) dt [.start, .pra, .evt] s)
    ∧ (∀ n verifyOk, Frame (.tunerCodesWrite dt n verifyOk) dt [.start, .pra, .evt] s)
    ∧ (∀ indep spn rx0 rx1 rxp, Frame (.clockMonitorWindow dt indep spn rx0 rx1 rxp) dt
        [.free, .out, .start, .evt, .whl, .spn, .wrp, .sht, .que, .ply, .bob] s)
    ∧ (∀ n, Frame (.pllLossOfLock dt n) dt [.free, .out, .start, .evt, .whl, .spn, .wrp, .sht, .que, .ply, .bob] s)
    ∧ (∀ b w seen, Frame (.bobbinWordWrite dt b w seen) dt [.start, .evt, .bob] s)
    ∧ (∀ b flip seen, Frame (.bobbinWordRead dt b flip seen) dt [.out, .start, .evt, .spn, .wrp, .bob] s)
    ∧ (∀ b v, Frame (.bobbinFlushWrite dt b v) dt [.out, .spn, .bob] s)
    ∧ (∀ b, Frame (.bobbinFlushComplete dt b) dt [.bob] s)
    ∧ (∀ b v, Frame (.bobErrClear dt b v) dt [.out, .bob] s)
    ∧ (∀ b v, Frame (.bobHwmClr dt b v) dt [.out, .bob] s)
    ∧ (∀ t paired, Frame (.temperatureSample dt t paired) dt
        [.free, .out, .pwr, .glb, .start, .evt, .whl, .spn, .wrp, .ccp, .sht, .ply, .dst, .img, .bob] s)
    ∧ (∀ vhold pin rails, Frame (.supplyMeasure dt vhold pin rails) dt
        [.free, .out, .pwr, .glb, .start, .evt, .whl, .spn, .wrp, .ccp, .sht, .ply, .dst, .img, .bob] s)
    ∧ (Frame (.keyRemask dt) dt [.free, .dst] s)
    ∧ (∀ pass, Frame (.rngHealthWindow dt pass) dt [.glb, .start, .evt, .dst] s)
    ∧ (∀ seq, Frame (.hello dt seq) dt [.out, .img] s)
    ∧ (∀ seq rate, Frame (.setBaud dt seq rate) dt [.out, .img] s)
    ∧ (Frame (.setBaudRevert dt) dt [.img] s)
    ∧ (∀ seq addr count, Frame (.svcRegRead dt seq addr count) dt [.out, .start, .evt, .img] s)
    ∧ (∀ seq addr v, Frame (.svcRegWrite dt seq addr v) dt
        [.free, .out, .start, .pra, .evt, .whl, .spn, .wrp, .ccp, .sht, .que, .crd, .ply, .dst, .img, .bob] s)
    ∧ (∀ seq nonce, Frame (.quote dt seq nonce) dt [.out, .start, .evt, .dst, .img] s)
    ∧ (Frame (.serviceFrameGap dt) dt [] s)
    ∧ (∀ seq size, Frame (.imgBegin dt seq size) dt [.out, .img] s)
    ∧ (∀ seq offset count head blockOk flashOk verifyOk, Frame (.imgData dt seq offset count head blockOk flashOk verifyOk) dt
        [.out, .pwr, .glb, .start, .pra, .evt, .whl, .img] s)
    ∧ (∀ seq sigOk blocksOk verifyOk, Frame (.imgEnd dt seq sigOk blocksOk verifyOk) dt
        [.out, .pwr, .glb, .start, .pra, .evt, .whl, .dst, .img] s)
    ∧ (∀ card verifyOk, Frame (.recoveryCardRead dt card verifyOk) dt
        [.pwr, .glb, .start, .pra, .evt, .whl, .dst, .img] s)
    ∧ (∀ addr v, Frame (.evtStickyClear dt addr v) dt [.out, .evt] s)
    ∧ (Frame (.noticeSend dt) dt [.out, .start, .evt, .ccp, .dst] s)
    ∧ (∀ mem tgt addr r passEnd, Frame (.pickerScan dt mem tgt addr r passEnd) dt
        [.free, .out, .glb, .start, .pra, .evt, .whl, .spn, .wrp, .ccp, .sht, .que, .ply, .dst, .img] s)
    ∧ (∀ v, Frame (.thrHwmClr dt v) dt [.out, .ccp] s)
    ∧ (∀ v1, Frame (.holdupCheckStart dt v1) dt [.pwr] s)
    ∧ (∀ v2 p, Frame (.holdupCheckEnd dt v2 p) dt [.free, .pwr, .glb, .start, .evt] s)
    ∧ (∀ edge rate, Frame (.ref10mQualify dt edge rate) dt [.start, .evt, .whl] s)
    ∧ (∀ n, Frame (.pllRelock dt n) dt [.bob] s)
    ∧ (Frame (.treadleStatusResume dt) dt [.pwr, .glb, .start, .evt, .ply] s)
    ∧ (∀ n, Frame (.receiveWindowStart dt n) dt [.start, .evt, .spn, .wrp] s)

/-- Frames of the commands of the clock, the tick, the spindles, reception and the warp: whenever such a command answers a next
state, every component of the device that its list does not name stands as the passing of its time left it. (The tick is
stated for a device that no uncorrectable error resets, R360.) -/
def Obligations.FramesOfClockAndRadio : Prop :=
  ∀ (s : State) (dt : Nat),
    (∀ tcxo beacon, s.dev.glb.faultReset = false → Frame (.tickStrobe dt tcxo beacon) dt
        [.free, .out, .start, .evt, .whl, .spn, .wrp, .ccp, .sht, .que, .crd, .ply, .dst, .img, .bob] s)
    ∧ (Frame (.drainComplete dt) dt [.whl, .wrp, .ply] s)
    ∧ (Frame (.scheduleComputation dt) dt [.free, .out, .start, .evt, .whl, .spn, .wrp, .ccp, .sht, .ply, .dst, .img] s)
    ∧ (∀ ph, Frame (.phaseDeadlineMiss dt ph) dt [.start, .evt, .whl] s)
    ∧ (∀ n whole, Frame (.transmitLatch dt n whole) dt [.start, .evt, .whl, .spn, .wrp, .ply] s)
    ∧ (∀ v, Frame (.whlLatch dt v) dt [.out, .whl] s)
    ∧ (∀ v, Frame (.whlCtrlWrite dt v) dt [.out, .start, .evt, .whl] s)
    ∧ (Frame (.whlTodArm dt) dt [.out, .start, .evt, .whl] s)
    ∧ (∀ v, Frame (.whlTickPeriodWrite dt v) dt [.out, .start, .evt, .whl] s)
    ∧ (∀ hi v, Frame (.whlEpochWrite dt hi v) dt [.out, .start, .evt, .whl] s)
    ∧ (∀ v, Frame (.whlOvrClr dt v) dt [.out, .whl] s)
    ∧ (∀ port m, Frame (.ptpSync dt port m) dt [.glb, .start, .evt, .whl, .sht] s)
    ∧ (∀ port m, Frame (.ptpAnnounce dt port m) dt [.glb, .whl, .sht] s)
    ∧ (∀ port, Frame (.ptpDelayReqSend dt port) dt [.free, .whl, .sht] s)
    ∧ (∀ port m, Frame (.ptpDelayResp dt port m) dt [.glb, .whl, .sht] s)
    ∧ (∀ port, Frame (.ptpAnnounceTimeout dt port) dt [.start, .evt, .whl] s)
    ∧ (∀ rising interval, Frame (.ppsInEdge dt rising interval) dt [.start, .evt, .whl] s)
    ∧ (Frame (.ppsTimeout dt) dt [.start, .evt, .whl] s)
    ∧ (Frame (.ref10mLoss dt) dt [.start, .evt, .whl] s)
    ∧ (Frame (.ptpPreferenceTimer dt) dt [.start, .evt, .whl] s)
    ∧ (Frame (.ppsOutSecond dt) dt [.out] s)
    ∧ (Frame (.launchRelease dt) dt [.out, .start, .evt, .whl, .ccp, .ply, .img] s)
    ∧ (∀ n v, Frame (.spnTargetWrite dt n v) dt [.free, .out, .start, .evt, .whl, .spn, .wrp, .ccp, .ply, .img, .bob] s)
    ∧ (∀ n pairs, Frame (.spindleStateReached dt n pairs) dt [.glb, .start, .evt, .spn, .bob] s)
    ∧ (∀ n v, Frame (.spnWindowWrite dt n v) dt [.free, .out, .start, .evt, .whl, .spn, .wrp, .ccp, .ply, .img, .bob] s)
    ∧ (∀ n d v, Frame (.spnBindWrite dt n d v) dt [.free, .out, .start, .evt, .whl, .spn, .wrp, .ccp, .ply, .img, .bob] s)
    ∧ (∀ n, Frame (.calStart dt n) dt [.free, .out, .start, .evt, .whl, .spn, .wrp, .ccp, .ply, .img, .bob] s)
    ∧ (∀ n, Frame (.inhClr dt n) dt [.free, .out, .start, .evt, .whl, .spn, .wrp, .ccp, .ply, .img, .bob] s)
    ∧ (∀ n v, Frame (.spnTuneWrite dt n v) dt [.out, .spn] s)
    ∧ (∀ n v, Frame (.spnTrimWrite dt n v) dt [.out, .spn] s)
    ∧ (∀ n pairs, Frame (.calPairEnd dt n pairs) dt [.start, .evt, .spn, .bob] s)
    ∧ (∀ n, Frame (.calBlankEnd dt n) dt [.start, .evt, .spn] s)
    ∧ (∀ n pair, Frame (.txsynCalPair dt n pair) dt [.start, .evt, .spn, .wrp, .ply] s)
    ∧ (∀ n, Frame (.cxRequest dt n) dt [.spn] s)
    ∧ (∀ n grant, Frame (.cxGrantSample dt n grant) dt [.start, .evt, .spn, .wrp, .ply] s)
    ∧ (∀ pair, Frame (.cxGrantFall dt pair) dt [.free, .start, .evt, .spn, .wrp, .ply] s)
    ∧ (∀ n st, Frame (.txSequenceStep dt n st) dt [.start, .evt, .spn, .bob] s)
    ∧ (∀ n, Frame (.txStart dt n) dt [.out, .spn] s)
    ∧ (∀ n rl, Frame (.txEnd dt n rl) dt [.free, .evt, .spn, .ply] s)
    ∧ (∀ n st, Frame (.txReleaseStep dt n st) dt [.spn] s)
    ∧ (∀ n rl, Frame (.reflectionCheck dt n rl) dt [.free, .start, .evt, .spn, .wrp, .ply] s)
    ∧ (∀ n, Frame (.inhibitRetry dt n) dt [.spn] s)
    ∧ (∀ n levels, Frame (.maskBlockCheck dt n levels) dt [.free, .start, .evt, .spn, .wrp, .ply] s)
    ∧ (∀ n, Frame (.receiveIdle dt n) dt [.start, .evt, .spn] s)
    ∧ (∀ th, Frame (.spindleHold dt th) dt [.start, .evt, .whl, .spn, .ccp, .ply, .img, .bob] s)
    ∧ (∀ n, Frame (.holdEnd dt n) dt [.start, .evt, .spn] s)
    ∧ (∀ n d corr rssi snr foff coded, Frame (.preambleDetect dt n d corr rssi snr foff coded) dt
        [.start, .evt, .spn, .bob] s)
    ∧ (∀ n d hdr, Frame (.headerDecode dt n d hdr) dt [.start, .evt, .spn, .bob] s)
    ∧ (∀ n d octets corrected fcsOk, Frame (.frameEnd dt n d octets corrected fcsOk) dt
        [.start, .evt, .spn, .wrp, .bob] s)
    ∧ (∀ n d, Frame (.frameTooLong dt n d) dt [.start, .evt, .spn, .bob] s)
    ∧ (∀ mac, Frame (.rxFrameProcess dt mac) dt
        [.free, .out, .glb, .start, .evt, .spn, .wrp, .sht, .que, .crd, .ply, .dst, .bob] s)
    ∧ (∀ node, Frame (.nodeOffsetLapse dt node) dt [.wrp] s)
    ∧ (∀ node, Frame (.correctionFrameExpire dt node) dt [.wrp, .ply] s)
    ∧ (∀ v, Frame (.cellRead dt v) dt [.out, .wrp] s)
    ∧ (∀ v, Frame (.cellWrite dt v) dt [.out, .start, .evt, .wrp, .sht, .ply, .dst] s)
    ∧ (∀ v, Frame (.cellDelete dt v) dt [.out, .start, .evt, .wrp, .sht, .ply, .dst] s)
    ∧ (∀ n h v, Frame (.sfArm dt n h v) dt [.out, .wrp] s)
    ∧ (∀ n h v, Frame (.sfDisarm dt n h v) dt [.out, .wrp] s)
    ∧ (∀ n h, Frame (.sfSwitch dt n h) dt [.out, .start, .evt, .wrp, .sht, .ply, .dst] s)
    ∧ (∀ t i v, Frame (.wrpHopWrite dt t i v) dt [.out, .start, .evt, .wrp, .sht, .ply, .dst] s)
    ∧ (∀ ackt v, Frame (.wrpTimingWrite dt ackt v) dt [.out, .start, .evt, .wrp, .sht, .ply, .dst] s)
    ∧ (Frame (.dioTrickleTimer dt) dt [.wrp] s)
    ∧ (∀ node, Frame (.disReceive dt node) dt [.out, .start, .evt, .sht, .ply, .dst] s)
    ∧ (∀ eui route lifetime band district seq, Frame (.daoReceive dt eui route lifetime band district seq) dt
        [.out, .start, .evt, .wrp, .sht, .ply, .dst] s)
    ∧ (∀ node, Frame (.daoPathLapse dt node) dt [.out, .start, .evt, .wrp, .sht, .ply, .dst] s)
    ∧ (∀ node, Frame (.dormantExpire dt node) dt [.out, .start, .evt, .whl, .wrp, .ccp, .sht, .ply, .dst, .img] s)
    ∧ (∀ node throwId status, Frame (.throwConfirmReceive dt node throwId status) dt [.whl, .sht] s)

/-- Frames of the commands of the CCP and the threads: whenever such a command answers a next state, every component of the
device that its list does not name stands as the passing of its time left it. -/
def Obligations.FramesOfTheCcp : Prop :=
  ∀ (s : State) (dt : Nat),
    (∀ port frag p, Frame (.hankReceive dt port frag p) dt [.out, .start, .evt, .ccp, .sht, .ply, .dst, .img] s)
    ∧ (∀ src id, Frame (.reassemblyTimeout dt src id) dt [.ccp] s)
    ∧ (Frame (.hankAdmit dt) dt [.out, .start, .evt, .whl, .ccp, .sht, .ply, .dst, .img] s)
    ∧ (∀ th, Frame (.threadTimeout dt th) dt [.whl, .ccp, .ply, .img] s)
    ∧ (∀ th, Frame (.threadRetainExpire dt th) dt [.pra, .evt, .whl, .spn, .ccp, .img] s)
    ∧ (Frame (.completionSend dt) dt [.out, .start, .pra, .evt, .whl, .spn, .ccp, .dst, .img] s)
    ∧ (∀ th, Frame (.regRead dt th) dt [.start, .evt, .whl, .ccp, .ply, .img] s)
    ∧ (∀ th, Frame (.regWrite dt th) dt
        [.free, .out, .start, .pra, .evt, .whl, .spn, .wrp, .ccp, .sht, .que, .crd, .ply, .dst, .img, .bob] s)
    ∧ (∀ th, Frame (.praInfo dt th) dt [.pra, .evt, .whl, .ccp, .ply, .img] s)
    ∧ (∀ th, Frame (.healthSummary dt th) dt [.whl, .ccp, .ply, .img] s)
    ∧ (∀ th, Frame (.healthLog dt th) dt [.whl, .ccp, .ply, .img] s)
    ∧ (∀ th, Frame (.threadQuery dt th) dt [.whl, .ccp, .ply, .img] s)
    ∧ (∀ th, Frame (.completeAck dt th) dt [.pra, .evt, .whl, .spn, .ccp, .ply, .img] s)
    ∧ (∀ th, Frame (.powerState dt th) dt
        [.free, .out, .pwr, .glb, .start, .evt, .whl, .spn, .wrp, .ccp, .sht, .ply, .dst, .img, .bob] s)
    ∧ (∀ th, Frame (.returnTest dt th) dt [.start, .evt, .whl, .spn, .ccp, .ply, .img] s)
    ∧ (∀ th, Frame (.test dt th) dt [.free, .start, .evt, .whl, .spn, .wrp, .ccp, .ply, .img, .bob] s)
    ∧ (∀ n r, Frame (.spindleTestComplete dt n r) dt [.pwr, .glb, .start, .evt, .whl, .spn, .ccp, .ply, .img] s)
    ∧ (∀ th, Frame (.bypass dt th) dt [.free, .start, .evt, .whl, .spn, .wrp, .ccp, .ply, .img, .bob] s)
    ∧ (∀ th, Frame (.unbypass dt th) dt [.free, .start, .evt, .whl, .spn, .wrp, .ccp, .ply, .img, .bob] s)
    ∧ (∀ th, Frame (.nodeReq dt th) dt [.out, .start, .evt, .whl, .ccp, .sht, .ply, .dst, .img] s)
    ∧ (∀ node tag data, Frame (.nodeReplyReceive dt node tag data) dt
        [.out, .start, .evt, .whl, .ccp, .sht, .ply, .dst, .img] s)
    ∧ (∀ th, Frame (.throwGroupSet dt th) dt [.out, .start, .evt, .whl, .wrp, .ccp, .sht, .ply, .dst, .img] s)
    ∧ (Frame (.throwCmd dt) dt [.out, .start, .evt, .whl, .ccp, .sht, .ply, .dst, .img] s)
    ∧ (∀ th, Frame (.objOpen dt th) dt [.evt, .whl, .ccp, .ply, .img] s)
    ∧ (∀ th, Frame (.objWrite dt th) dt [.whl, .ccp, .ply, .img] s)
    ∧ (∀ th, Frame (.objClose dt th) dt [.whl, .ccp, .ply, .img] s)
    ∧ (∀ th, Frame (.objDelete dt th) dt [.evt, .whl, .ccp, .ply, .img] s)
    ∧ (∀ th corrected poisoned, Frame (.objSend dt th corrected poisoned) dt
        [.out, .glb, .start, .evt, .whl, .ccp, .sht, .ply, .dst, .img] s)
    ∧ (∀ th, Frame (.policyWrite dt th) dt [.out, .start, .evt, .whl, .ccp, .sht, .ply, .dst, .img] s)
    ∧ (∀ th, Frame (.policyRead dt th) dt [.whl, .ccp, .ply, .img] s)
    ∧ (∀ th unwrapOk readBackOk verifyOk steps, Frame (.keyLoad dt th unwrapOk readBackOk verifyOk steps) dt
        [.free, .out, .start, .pra, .evt, .whl, .ccp, .sht, .ply, .dst, .img] s)
    ∧ (∀ th, Frame (.keyAttr dt th) dt [.whl, .ccp, .ply, .dst, .img] s)
    ∧ (∀ th verifyOk, Frame (.keyErase dt th verifyOk) dt
        [.out, .start, .pra, .evt, .whl, .ccp, .sht, .ply, .dst, .img] s)
    ∧ (∀ th, Frame (.keyInfo dt th) dt [.free, .whl, .ccp, .ply, .img] s)
    ∧ (∀ th verifyOk faults upto, Frame (.lifecycleSet dt th verifyOk faults upto) dt
        [.out, .start, .pra, .evt, .whl, .ccp, .sht, .ply, .dst, .img] s)
    ∧ (∀ th card verifyOk, Frame (.reelStage dt th card verifyOk) dt [.start, .pra, .evt, .whl, .ccp, .ply, .img] s)
    ∧ (∀ cardOk blockOk flashOk bankSigOk bankBlocksOk verifyOk, Frame (.reelStageBlock dt cardOk blockOk flashOk bankSigOk bankBlocksOk verifyOk) dt
        [.start, .pra, .evt, .whl, .ccp, .ply, .img] s)
    ∧ (Frame (.reelActivate dt) dt [.out, .start, .evt, .whl, .ccp, .sht, .ply, .dst, .img] s)
    ∧ (∀ verifyOk, Frame (.reelActivateExecute dt verifyOk) dt
        [.free, .out, .glb, .start, .pra, .evt, .whl, .spn, .wrp, .ccp, .sht, .ply, .dst, .img, .bob] s)
    ∧ (∀ th verifyOk, Frame (.ownerLock dt th verifyOk) dt [.start, .pra, .evt, .whl, .ccp, .ply, .img] s)
    ∧ (∀ port p, Frame (.quoteReq dt port p) dt [.out, .start, .evt, .ccp, .sht, .dst, .img] s)

/-- Frames of the commands of the shuttle, its queues, the ply link and the loom: whenever such a command answers a next state,
every component of the device that its list does not name stands as the passing of its time left it. -/
def Obligations.FramesOfShuttleAndPly : Prop :=
  ∀ (s : State) (dt : Nat),
    (∀ port p, Frame (.packetIngress dt port p) dt [.free, .out, .glb, .start, .evt, .sht, .que, .crd] s)
    ∧ (∀ port fcsOk, Frame (.packetIngressEnd dt port fcsOk) dt [.out, .start, .evt, .sht, .que] s)
    ∧ (∀ port, Frame (.egressSelect dt port) dt [.out, .start, .evt, .whl, .sht, .que, .ply, .dst] s)
    ∧ (∀ port up, Frame (.portLink dt port up) dt [.out, .start, .evt, .sht, .que] s)
    ∧ (∀ v, Frame (.tableRead dt v) dt [.free, .out, .start, .evt, .sht] s)
    ∧ (∀ v, Frame (.tableWrite dt v) dt [.free, .out, .start, .evt, .sht] s)
    ∧ (∀ v, Frame (.tableDelete dt v) dt [.free, .out, .start, .evt, .sht] s)
    ∧ (∀ v, Frame (.tableInsert dt v) dt [.free, .out, .start, .evt, .sht] s)
    ∧ (∀ v, Frame (.tableFind dt v) dt [.free, .out, .start, .evt, .sht] s)
    ∧ (∀ v, Frame (.tableLookup dt v) dt [.free, .out, .start, .evt, .sht] s)
    ∧ (∀ v, Frame (.bankSwap dt v) dt [.out, .start, .evt, .sht] s)
    ∧ (∀ addr v, Frame (.shaperWrite dt addr v) dt [.out, .evt, .que] s)
    ∧ (∀ addr v, Frame (.policerWrite dt addr v) dt [.out, .crd] s)
    ∧ (∀ p v, Frame (.gateArm dt p v) dt [.out, .que] s)
    ∧ (∀ p v, Frame (.gateCancel dt p v) dt [.out, .que] s)
    ∧ (∀ p, Frame (.gateSwitch dt p) dt [.start, .evt, .que] s)
    ∧ (∀ p, Frame (.gateEntryChange dt p) dt [.que] s)
    ∧ (∀ port f, Frame (.pauseReceive dt port f) dt [.start, .evt, .que] s)
    ∧ (∀ port c, Frame (.pauseExpire dt port c) dt [.evt, .que] s)
    ∧ (∀ port c, Frame (.pauseLong dt port c) dt [.evt] s)
    ∧ (∀ port i, Frame (.pfcRefresh dt port i) dt [.out, .que] s)
    ∧ (∀ addr v, Frame (.fcConfigWrite dt addr v) dt [.out, .evt, .que] s)
    ∧ (∀ written, Frame (.heartbeatSend dt written) dt
        [.free, .out, .start, .evt, .whl, .spn, .wrp, .ccp, .sht, .ply, .dst, .img, .bob] s)
    ∧ (∀ path h b, Frame (.heartbeatReceive dt path h b) dt [.out, .start, .evt, .whl, .wrp, .sht, .ply, .dst] s)
    ∧ (∀ h r, Frame (.offerReceive dt h r) dt [.out, .start, .evt, .sht, .ply, .dst] s)
    ∧ (∀ hash, Frame (.mergeWaitExpire dt hash) dt [.out, .start, .evt, .sht, .ply, .dst] s)
    ∧ (∀ h r, Frame (.assignReceive dt h r) dt [.start, .evt, .wrp, .sht, .ply, .dst] s)
    ∧ (∀ h dest dsn fc, Frame (.countersReceive dt h dest dsn fc) dt [.start, .evt, .wrp, .sht, .ply, .dst] s)
    ∧ (∀ h epoch d, Frame (.deltaReceive dt h epoch d) dt
        [.out, .start, .evt, .whl, .wrp, .ccp, .sht, .ply, .dst, .img] s)
    ∧ (∀ h node, Frame (.snapReqReceive dt h node) dt [.out, .start, .evt, .sht, .ply, .dst] s)
    ∧ (∀ h epoch nodes cells regs policy polEpoch last, Frame (.snapReceive dt h epoch nodes cells regs policy polEpoch last) dt
        [.start, .evt, .wrp, .ccp, .sht, .ply, .dst] s)
    ∧ (Frame (.treadleTimeout dt) dt [.free, .start, .evt, .spn, .wrp, .ply, .bob] s)
    ∧ (Frame (.treadleStatusTimeout dt) dt [.pwr, .glb, .start, .evt] s)
    ∧ (Frame (.treadleLost dt) dt [.start, .evt, .ply] s)
    ∧ (Frame (.loomBeaconSend dt) dt [.out, .start, .evt, .ply, .dst] s)
    ∧ (∀ h ply b, Frame (.loomBeaconReceive dt h ply b) dt [.start, .evt, .sht, .ply, .dst] s)
    ∧ (∀ ply side, Frame (.loomEntryLapse dt ply side) dt [.start, .evt, .ply] s)
    ∧ (∀ h ply eui, Frame (.visitQReceive dt h ply eui) dt [.out, .start, .evt, .sht, .ply, .dst] s)
    ∧ (∀ h ply eui handle, Frame (.visitAReceive dt h ply eui handle) dt
        [.out, .start, .evt, .whl, .wrp, .ccp, .sht, .ply, .dst, .img] s)
    ∧ (∀ eui, Frame (.visitTimeout dt eui) dt [.out, .start, .evt, .whl, .wrp, .ccp, .sht, .ply, .dst, .img] s)
    ∧ (∀ h ply handle serving, Frame (.whereReceive dt h ply handle serving) dt [.start, .evt, .wrp, .sht, .ply, .dst] s)
    ∧ (∀ node, Frame (.whereRefresh dt node) dt [.out, .start, .evt, .wrp, .ply, .dst] s)
    ∧ (∀ node, Frame (.homeLeaseExpire dt node) dt [.out, .start, .evt, .whl, .wrp, .ccp, .sht, .ply, .dst, .img] s)
    ∧ (∀ h ply p, Frame (.fwdReceive dt h ply p) dt [.out, .start, .evt, .ccp, .sht, .ply, .dst] s)
    ∧ (∀ h ply handle dport tag noReply data, Frame (.relayReceive dt h ply handle dport tag noReply data) dt
        [.out, .start, .evt, .sht, .ply, .dst] s)
    ∧ (∀ h ply handle tag status data, Frame (.relayResReceive dt h ply handle tag status data) dt
        [.start, .evt, .whl, .ccp, .sht, .ply, .dst, .img] s)
    ∧ (∀ node, Frame (.nodeRefetchTimeout dt node) dt [.out, .start, .evt, .wrp, .sht, .ply, .dst] s)
end

