-- ==== Sys2Proof/Laws/State.lean ====
section
/-! SUPPORT. One lemma per field of the device per update: what an update writes, and that it leaves the rest. -/

namespace Sys2Proof.Machine

/-! ## Four -/

@[simp] theorem Four.get_set_same {α : Type} (x : Four α) (n : Fin 4) (v : α) : (x.set n v).get n = v := by
  match n with
  | 0 => rfl
  | 1 => rfl
  | 2 => rfl
  | 3 => rfl

theorem Four.get_set_other {α : Type} (x : Four α) (m n : Fin 4) (v : α) (h : m ≠ n) : (x.set n v).get m = x.get m := by
  match m, n, h with
  | 0, 0, h => exact absurd rfl h
  | 1, 1, h => exact absurd rfl h
  | 2, 2, h => exact absurd rfl h
  | 3, 3, h => exact absurd rfl h
  | 0, 1, _ | 0, 2, _ | 0, 3, _ | 1, 0, _ | 1, 2, _ | 1, 3, _ | 2, 0, _ | 2, 1, _ | 2, 3, _ | 3, 0, _ | 3, 1, _
  | 3, 2, _ => rfl

/-! ## Blocks of the device -/

@[simp] theorem Dev.modWhl_phase (d : Dev) (f : Whl → Whl) : (d.modWhl f).phase = d.phase := rfl
@[simp] theorem Dev.modWhl_free (d : Dev) (f : Whl → Whl) : (d.modWhl f).free = d.free := rfl
@[simp] theorem Dev.modWhl_out (d : Dev) (f : Whl → Whl) : (d.modWhl f).out = d.out := rfl
@[simp] theorem Dev.modWhl_pwr (d : Dev) (f : Whl → Whl) : (d.modWhl f).pwr = d.pwr := rfl
@[simp] theorem Dev.modWhl_glb (d : Dev) (f : Whl → Whl) : (d.modWhl f).glb = d.glb := rfl
@[simp] theorem Dev.modWhl_start (d : Dev) (f : Whl → Whl) : (d.modWhl f).start = d.start := rfl
@[simp] theorem Dev.modWhl_pra (d : Dev) (f : Whl → Whl) : (d.modWhl f).pra = d.pra := rfl
@[simp] theorem Dev.modWhl_evt (d : Dev) (f : Whl → Whl) : (d.modWhl f).evt = d.evt := rfl
@[simp] theorem Dev.modWhl_whl (d : Dev) (f : Whl → Whl) : (d.modWhl f).whl = f d.whl := rfl
@[simp] theorem Dev.modWhl_spn (d : Dev) (f : Whl → Whl) : (d.modWhl f).spn = d.spn := rfl
@[simp] theorem Dev.modWhl_region (d : Dev) (f : Whl → Whl) : (d.modWhl f).region = d.region := rfl
@[simp] theorem Dev.modWhl_wrp (d : Dev) (f : Whl → Whl) : (d.modWhl f).wrp = d.wrp := rfl
@[simp] theorem Dev.modWhl_ccp (d : Dev) (f : Whl → Whl) : (d.modWhl f).ccp = d.ccp := rfl
@[simp] theorem Dev.modWhl_sht (d : Dev) (f : Whl → Whl) : (d.modWhl f).sht = d.sht := rfl
@[simp] theorem Dev.modWhl_que (d : Dev) (f : Whl → Whl) : (d.modWhl f).que = d.que := rfl
@[simp] theorem Dev.modWhl_crd (d : Dev) (f : Whl → Whl) : (d.modWhl f).crd = d.crd := rfl
@[simp] theorem Dev.modWhl_ply (d : Dev) (f : Whl → Whl) : (d.modWhl f).ply = d.ply := rfl
@[simp] theorem Dev.modWhl_dst (d : Dev) (f : Whl → Whl) : (d.modWhl f).dst = d.dst := rfl
@[simp] theorem Dev.modWhl_img (d : Dev) (f : Whl → Whl) : (d.modWhl f).img = d.img := rfl
@[simp] theorem Dev.modWhl_bob (d : Dev) (f : Whl → Whl) : (d.modWhl f).bob = d.bob := rfl

@[simp] theorem Dev.modWrp_phase (d : Dev) (f : Wrp → Wrp) : (d.modWrp f).phase = d.phase := rfl
@[simp] theorem Dev.modWrp_free (d : Dev) (f : Wrp → Wrp) : (d.modWrp f).free = d.free := rfl
@[simp] theorem Dev.modWrp_out (d : Dev) (f : Wrp → Wrp) : (d.modWrp f).out = d.out := rfl
@[simp] theorem Dev.modWrp_pwr (d : Dev) (f : Wrp → Wrp) : (d.modWrp f).pwr = d.pwr := rfl
@[simp] theorem Dev.modWrp_glb (d : Dev) (f : Wrp → Wrp) : (d.modWrp f).glb = d.glb := rfl
@[simp] theorem Dev.modWrp_start (d : Dev) (f : Wrp → Wrp) : (d.modWrp f).start = d.start := rfl
@[simp] theorem Dev.modWrp_pra (d : Dev) (f : Wrp → Wrp) : (d.modWrp f).pra = d.pra := rfl
@[simp] theorem Dev.modWrp_evt (d : Dev) (f : Wrp → Wrp) : (d.modWrp f).evt = d.evt := rfl
@[simp] theorem Dev.modWrp_whl (d : Dev) (f : Wrp → Wrp) : (d.modWrp f).whl = d.whl := rfl
@[simp] theorem Dev.modWrp_spn (d : Dev) (f : Wrp → Wrp) : (d.modWrp f).spn = d.spn := rfl
@[simp] theorem Dev.modWrp_region (d : Dev) (f : Wrp → Wrp) : (d.modWrp f).region = d.region := rfl
@[simp] theorem Dev.modWrp_wrp (d : Dev) (f : Wrp → Wrp) : (d.modWrp f).wrp = f d.wrp := rfl
@[simp] theorem Dev.modWrp_ccp (d : Dev) (f : Wrp → Wrp) : (d.modWrp f).ccp = d.ccp := rfl
@[simp] theorem Dev.modWrp_sht (d : Dev) (f : Wrp → Wrp) : (d.modWrp f).sht = d.sht := rfl
@[simp] theorem Dev.modWrp_que (d : Dev) (f : Wrp → Wrp) : (d.modWrp f).que = d.que := rfl
@[simp] theorem Dev.modWrp_crd (d : Dev) (f : Wrp → Wrp) : (d.modWrp f).crd = d.crd := rfl
@[simp] theorem Dev.modWrp_ply (d : Dev) (f : Wrp → Wrp) : (d.modWrp f).ply = d.ply := rfl
@[simp] theorem Dev.modWrp_dst (d : Dev) (f : Wrp → Wrp) : (d.modWrp f).dst = d.dst := rfl
@[simp] theorem Dev.modWrp_img (d : Dev) (f : Wrp → Wrp) : (d.modWrp f).img = d.img := rfl
@[simp] theorem Dev.modWrp_bob (d : Dev) (f : Wrp → Wrp) : (d.modWrp f).bob = d.bob := rfl

@[simp] theorem Dev.modCcp_phase (d : Dev) (f : Ccp → Ccp) : (d.modCcp f).phase = d.phase := rfl
@[simp] theorem Dev.modCcp_free (d : Dev) (f : Ccp → Ccp) : (d.modCcp f).free = d.free := rfl
@[simp] theorem Dev.modCcp_out (d : Dev) (f : Ccp → Ccp) : (d.modCcp f).out = d.out := rfl
@[simp] theorem Dev.modCcp_pwr (d : Dev) (f : Ccp → Ccp) : (d.modCcp f).pwr = d.pwr := rfl
@[simp] theorem Dev.modCcp_glb (d : Dev) (f : Ccp → Ccp) : (d.modCcp f).glb = d.glb := rfl
@[simp] theorem Dev.modCcp_start (d : Dev) (f : Ccp → Ccp) : (d.modCcp f).start = d.start := rfl
@[simp] theorem Dev.modCcp_pra (d : Dev) (f : Ccp → Ccp) : (d.modCcp f).pra = d.pra := rfl
@[simp] theorem Dev.modCcp_evt (d : Dev) (f : Ccp → Ccp) : (d.modCcp f).evt = d.evt := rfl
@[simp] theorem Dev.modCcp_whl (d : Dev) (f : Ccp → Ccp) : (d.modCcp f).whl = d.whl := rfl
@[simp] theorem Dev.modCcp_spn (d : Dev) (f : Ccp → Ccp) : (d.modCcp f).spn = d.spn := rfl
@[simp] theorem Dev.modCcp_region (d : Dev) (f : Ccp → Ccp) : (d.modCcp f).region = d.region := rfl
@[simp] theorem Dev.modCcp_wrp (d : Dev) (f : Ccp → Ccp) : (d.modCcp f).wrp = d.wrp := rfl
@[simp] theorem Dev.modCcp_ccp (d : Dev) (f : Ccp → Ccp) : (d.modCcp f).ccp = f d.ccp := rfl
@[simp] theorem Dev.modCcp_sht (d : Dev) (f : Ccp → Ccp) : (d.modCcp f).sht = d.sht := rfl
@[simp] theorem Dev.modCcp_que (d : Dev) (f : Ccp → Ccp) : (d.modCcp f).que = d.que := rfl
@[simp] theorem Dev.modCcp_crd (d : Dev) (f : Ccp → Ccp) : (d.modCcp f).crd = d.crd := rfl
@[simp] theorem Dev.modCcp_ply (d : Dev) (f : Ccp → Ccp) : (d.modCcp f).ply = d.ply := rfl
@[simp] theorem Dev.modCcp_dst (d : Dev) (f : Ccp → Ccp) : (d.modCcp f).dst = d.dst := rfl
@[simp] theorem Dev.modCcp_img (d : Dev) (f : Ccp → Ccp) : (d.modCcp f).img = d.img := rfl
@[simp] theorem Dev.modCcp_bob (d : Dev) (f : Ccp → Ccp) : (d.modCcp f).bob = d.bob := rfl

@[simp] theorem Dev.modPly_phase (d : Dev) (f : Ply → Ply) : (d.modPly f).phase = d.phase := rfl
@[simp] theorem Dev.modPly_free (d : Dev) (f : Ply → Ply) : (d.modPly f).free = d.free := rfl
@[simp] theorem Dev.modPly_out (d : Dev) (f : Ply → Ply) : (d.modPly f).out = d.out := rfl
@[simp] theorem Dev.modPly_pwr (d : Dev) (f : Ply → Ply) : (d.modPly f).pwr = d.pwr := rfl
@[simp] theorem Dev.modPly_glb (d : Dev) (f : Ply → Ply) : (d.modPly f).glb = d.glb := rfl
@[simp] theorem Dev.modPly_start (d : Dev) (f : Ply → Ply) : (d.modPly f).start = d.start := rfl
@[simp] theorem Dev.modPly_pra (d : Dev) (f : Ply → Ply) : (d.modPly f).pra = d.pra := rfl
@[simp] theorem Dev.modPly_evt (d : Dev) (f : Ply → Ply) : (d.modPly f).evt = d.evt := rfl
@[simp] theorem Dev.modPly_whl (d : Dev) (f : Ply → Ply) : (d.modPly f).whl = d.whl := rfl
@[simp] theorem Dev.modPly_spn (d : Dev) (f : Ply → Ply) : (d.modPly f).spn = d.spn := rfl
@[simp] theorem Dev.modPly_region (d : Dev) (f : Ply → Ply) : (d.modPly f).region = d.region := rfl
@[simp] theorem Dev.modPly_wrp (d : Dev) (f : Ply → Ply) : (d.modPly f).wrp = d.wrp := rfl
@[simp] theorem Dev.modPly_ccp (d : Dev) (f : Ply → Ply) : (d.modPly f).ccp = d.ccp := rfl
@[simp] theorem Dev.modPly_sht (d : Dev) (f : Ply → Ply) : (d.modPly f).sht = d.sht := rfl
@[simp] theorem Dev.modPly_que (d : Dev) (f : Ply → Ply) : (d.modPly f).que = d.que := rfl
@[simp] theorem Dev.modPly_crd (d : Dev) (f : Ply → Ply) : (d.modPly f).crd = d.crd := rfl
@[simp] theorem Dev.modPly_ply (d : Dev) (f : Ply → Ply) : (d.modPly f).ply = f d.ply := rfl
@[simp] theorem Dev.modPly_dst (d : Dev) (f : Ply → Ply) : (d.modPly f).dst = d.dst := rfl
@[simp] theorem Dev.modPly_img (d : Dev) (f : Ply → Ply) : (d.modPly f).img = d.img := rfl
@[simp] theorem Dev.modPly_bob (d : Dev) (f : Ply → Ply) : (d.modPly f).bob = d.bob := rfl

@[simp] theorem Dev.modSht_phase (d : Dev) (f : Sht → Sht) : (d.modSht f).phase = d.phase := rfl
@[simp] theorem Dev.modSht_free (d : Dev) (f : Sht → Sht) : (d.modSht f).free = d.free := rfl
@[simp] theorem Dev.modSht_out (d : Dev) (f : Sht → Sht) : (d.modSht f).out = d.out := rfl
@[simp] theorem Dev.modSht_pwr (d : Dev) (f : Sht → Sht) : (d.modSht f).pwr = d.pwr := rfl
@[simp] theorem Dev.modSht_glb (d : Dev) (f : Sht → Sht) : (d.modSht f).glb = d.glb := rfl
@[simp] theorem Dev.modSht_start (d : Dev) (f : Sht → Sht) : (d.modSht f).start = d.start := rfl
@[simp] theorem Dev.modSht_pra (d : Dev) (f : Sht → Sht) : (d.modSht f).pra = d.pra := rfl
@[simp] theorem Dev.modSht_evt (d : Dev) (f : Sht → Sht) : (d.modSht f).evt = d.evt := rfl
@[simp] theorem Dev.modSht_whl (d : Dev) (f : Sht → Sht) : (d.modSht f).whl = d.whl := rfl
@[simp] theorem Dev.modSht_spn (d : Dev) (f : Sht → Sht) : (d.modSht f).spn = d.spn := rfl
@[simp] theorem Dev.modSht_region (d : Dev) (f : Sht → Sht) : (d.modSht f).region = d.region := rfl
@[simp] theorem Dev.modSht_wrp (d : Dev) (f : Sht → Sht) : (d.modSht f).wrp = d.wrp := rfl
@[simp] theorem Dev.modSht_ccp (d : Dev) (f : Sht → Sht) : (d.modSht f).ccp = d.ccp := rfl
@[simp] theorem Dev.modSht_sht (d : Dev) (f : Sht → Sht) : (d.modSht f).sht = f d.sht := rfl
@[simp] theorem Dev.modSht_que (d : Dev) (f : Sht → Sht) : (d.modSht f).que = d.que := rfl
@[simp] theorem Dev.modSht_crd (d : Dev) (f : Sht → Sht) : (d.modSht f).crd = d.crd := rfl
@[simp] theorem Dev.modSht_ply (d : Dev) (f : Sht → Sht) : (d.modSht f).ply = d.ply := rfl
@[simp] theorem Dev.modSht_dst (d : Dev) (f : Sht → Sht) : (d.modSht f).dst = d.dst := rfl
@[simp] theorem Dev.modSht_img (d : Dev) (f : Sht → Sht) : (d.modSht f).img = d.img := rfl
@[simp] theorem Dev.modSht_bob (d : Dev) (f : Sht → Sht) : (d.modSht f).bob = d.bob := rfl

@[simp] theorem Dev.modDst_phase (d : Dev) (f : Dst → Dst) : (d.modDst f).phase = d.phase := rfl
@[simp] theorem Dev.modDst_free (d : Dev) (f : Dst → Dst) : (d.modDst f).free = d.free := rfl
@[simp] theorem Dev.modDst_out (d : Dev) (f : Dst → Dst) : (d.modDst f).out = d.out := rfl
@[simp] theorem Dev.modDst_pwr (d : Dev) (f : Dst → Dst) : (d.modDst f).pwr = d.pwr := rfl
@[simp] theorem Dev.modDst_glb (d : Dev) (f : Dst → Dst) : (d.modDst f).glb = d.glb := rfl
@[simp] theorem Dev.modDst_start (d : Dev) (f : Dst → Dst) : (d.modDst f).start = d.start := rfl
@[simp] theorem Dev.modDst_pra (d : Dev) (f : Dst → Dst) : (d.modDst f).pra = d.pra := rfl
@[simp] theorem Dev.modDst_evt (d : Dev) (f : Dst → Dst) : (d.modDst f).evt = d.evt := rfl
@[simp] theorem Dev.modDst_whl (d : Dev) (f : Dst → Dst) : (d.modDst f).whl = d.whl := rfl
@[simp] theorem Dev.modDst_spn (d : Dev) (f : Dst → Dst) : (d.modDst f).spn = d.spn := rfl
@[simp] theorem Dev.modDst_region (d : Dev) (f : Dst → Dst) : (d.modDst f).region = d.region := rfl
@[simp] theorem Dev.modDst_wrp (d : Dev) (f : Dst → Dst) : (d.modDst f).wrp = d.wrp := rfl
@[simp] theorem Dev.modDst_ccp (d : Dev) (f : Dst → Dst) : (d.modDst f).ccp = d.ccp := rfl
@[simp] theorem Dev.modDst_sht (d : Dev) (f : Dst → Dst) : (d.modDst f).sht = d.sht := rfl
@[simp] theorem Dev.modDst_que (d : Dev) (f : Dst → Dst) : (d.modDst f).que = d.que := rfl
@[simp] theorem Dev.modDst_crd (d : Dev) (f : Dst → Dst) : (d.modDst f).crd = d.crd := rfl
@[simp] theorem Dev.modDst_ply (d : Dev) (f : Dst → Dst) : (d.modDst f).ply = d.ply := rfl
@[simp] theorem Dev.modDst_dst (d : Dev) (f : Dst → Dst) : (d.modDst f).dst = f d.dst := rfl
@[simp] theorem Dev.modDst_img (d : Dev) (f : Dst → Dst) : (d.modDst f).img = d.img := rfl
@[simp] theorem Dev.modDst_bob (d : Dev) (f : Dst → Dst) : (d.modDst f).bob = d.bob := rfl

@[simp] theorem Dev.modGlb_phase (d : Dev) (f : Glb → Glb) : (d.modGlb f).phase = d.phase := rfl
@[simp] theorem Dev.modGlb_free (d : Dev) (f : Glb → Glb) : (d.modGlb f).free = d.free := rfl
@[simp] theorem Dev.modGlb_out (d : Dev) (f : Glb → Glb) : (d.modGlb f).out = d.out := rfl
@[simp] theorem Dev.modGlb_pwr (d : Dev) (f : Glb → Glb) : (d.modGlb f).pwr = d.pwr := rfl
@[simp] theorem Dev.modGlb_glb (d : Dev) (f : Glb → Glb) : (d.modGlb f).glb = f d.glb := rfl
@[simp] theorem Dev.modGlb_start (d : Dev) (f : Glb → Glb) : (d.modGlb f).start = d.start := rfl
@[simp] theorem Dev.modGlb_pra (d : Dev) (f : Glb → Glb) : (d.modGlb f).pra = d.pra := rfl
@[simp] theorem Dev.modGlb_evt (d : Dev) (f : Glb → Glb) : (d.modGlb f).evt = d.evt := rfl
@[simp] theorem Dev.modGlb_whl (d : Dev) (f : Glb → Glb) : (d.modGlb f).whl = d.whl := rfl
@[simp] theorem Dev.modGlb_spn (d : Dev) (f : Glb → Glb) : (d.modGlb f).spn = d.spn := rfl
@[simp] theorem Dev.modGlb_region (d : Dev) (f : Glb → Glb) : (d.modGlb f).region = d.region := rfl
@[simp] theorem Dev.modGlb_wrp (d : Dev) (f : Glb → Glb) : (d.modGlb f).wrp = d.wrp := rfl
@[simp] theorem Dev.modGlb_ccp (d : Dev) (f : Glb → Glb) : (d.modGlb f).ccp = d.ccp := rfl
@[simp] theorem Dev.modGlb_sht (d : Dev) (f : Glb → Glb) : (d.modGlb f).sht = d.sht := rfl
@[simp] theorem Dev.modGlb_que (d : Dev) (f : Glb → Glb) : (d.modGlb f).que = d.que := rfl
@[simp] theorem Dev.modGlb_crd (d : Dev) (f : Glb → Glb) : (d.modGlb f).crd = d.crd := rfl
@[simp] theorem Dev.modGlb_ply (d : Dev) (f : Glb → Glb) : (d.modGlb f).ply = d.ply := rfl
@[simp] theorem Dev.modGlb_dst (d : Dev) (f : Glb → Glb) : (d.modGlb f).dst = d.dst := rfl
@[simp] theorem Dev.modGlb_img (d : Dev) (f : Glb → Glb) : (d.modGlb f).img = d.img := rfl
@[simp] theorem Dev.modGlb_bob (d : Dev) (f : Glb → Glb) : (d.modGlb f).bob = d.bob := rfl

@[simp] theorem Dev.modPwr_phase (d : Dev) (f : Pwr → Pwr) : (d.modPwr f).phase = d.phase := rfl
@[simp] theorem Dev.modPwr_free (d : Dev) (f : Pwr → Pwr) : (d.modPwr f).free = d.free := rfl
@[simp] theorem Dev.modPwr_out (d : Dev) (f : Pwr → Pwr) : (d.modPwr f).out = d.out := rfl
@[simp] theorem Dev.modPwr_pwr (d : Dev) (f : Pwr → Pwr) : (d.modPwr f).pwr = f d.pwr := rfl
@[simp] theorem Dev.modPwr_glb (d : Dev) (f : Pwr → Pwr) : (d.modPwr f).glb = d.glb := rfl
@[simp] theorem Dev.modPwr_start (d : Dev) (f : Pwr → Pwr) : (d.modPwr f).start = d.start := rfl
@[simp] theorem Dev.modPwr_pra (d : Dev) (f : Pwr → Pwr) : (d.modPwr f).pra = d.pra := rfl
@[simp] theorem Dev.modPwr_evt (d : Dev) (f : Pwr → Pwr) : (d.modPwr f).evt = d.evt := rfl
@[simp] theorem Dev.modPwr_whl (d : Dev) (f : Pwr → Pwr) : (d.modPwr f).whl = d.whl := rfl
@[simp] theorem Dev.modPwr_spn (d : Dev) (f : Pwr → Pwr) : (d.modPwr f).spn = d.spn := rfl
@[simp] theorem Dev.modPwr_region (d : Dev) (f : Pwr → Pwr) : (d.modPwr f).region = d.region := rfl
@[simp] theorem Dev.modPwr_wrp (d : Dev) (f : Pwr → Pwr) : (d.modPwr f).wrp = d.wrp := rfl
@[simp] theorem Dev.modPwr_ccp (d : Dev) (f : Pwr → Pwr) : (d.modPwr f).ccp = d.ccp := rfl
@[simp] theorem Dev.modPwr_sht (d : Dev) (f : Pwr → Pwr) : (d.modPwr f).sht = d.sht := rfl
@[simp] theorem Dev.modPwr_que (d : Dev) (f : Pwr → Pwr) : (d.modPwr f).que = d.que := rfl
@[simp] theorem Dev.modPwr_crd (d : Dev) (f : Pwr → Pwr) : (d.modPwr f).crd = d.crd := rfl
@[simp] theorem Dev.modPwr_ply (d : Dev) (f : Pwr → Pwr) : (d.modPwr f).ply = d.ply := rfl
@[simp] theorem Dev.modPwr_dst (d : Dev) (f : Pwr → Pwr) : (d.modPwr f).dst = d.dst := rfl
@[simp] theorem Dev.modPwr_img (d : Dev) (f : Pwr → Pwr) : (d.modPwr f).img = d.img := rfl
@[simp] theorem Dev.modPwr_bob (d : Dev) (f : Pwr → Pwr) : (d.modPwr f).bob = d.bob := rfl

@[simp] theorem Dev.modImg_phase (d : Dev) (f : Img → Img) : (d.modImg f).phase = d.phase := rfl
@[simp] theorem Dev.modImg_free (d : Dev) (f : Img → Img) : (d.modImg f).free = d.free := rfl
@[simp] theorem Dev.modImg_out (d : Dev) (f : Img → Img) : (d.modImg f).out = d.out := rfl
@[simp] theorem Dev.modImg_pwr (d : Dev) (f : Img → Img) : (d.modImg f).pwr = d.pwr := rfl
@[simp] theorem Dev.modImg_glb (d : Dev) (f : Img → Img) : (d.modImg f).glb = d.glb := rfl
@[simp] theorem Dev.modImg_start (d : Dev) (f : Img → Img) : (d.modImg f).start = d.start := rfl
@[simp] theorem Dev.modImg_pra (d : Dev) (f : Img → Img) : (d.modImg f).pra = d.pra := rfl
@[simp] theorem Dev.modImg_evt (d : Dev) (f : Img → Img) : (d.modImg f).evt = d.evt := rfl
@[simp] theorem Dev.modImg_whl (d : Dev) (f : Img → Img) : (d.modImg f).whl = d.whl := rfl
@[simp] theorem Dev.modImg_spn (d : Dev) (f : Img → Img) : (d.modImg f).spn = d.spn := rfl
@[simp] theorem Dev.modImg_region (d : Dev) (f : Img → Img) : (d.modImg f).region = d.region := rfl
@[simp] theorem Dev.modImg_wrp (d : Dev) (f : Img → Img) : (d.modImg f).wrp = d.wrp := rfl
@[simp] theorem Dev.modImg_ccp (d : Dev) (f : Img → Img) : (d.modImg f).ccp = d.ccp := rfl
@[simp] theorem Dev.modImg_sht (d : Dev) (f : Img → Img) : (d.modImg f).sht = d.sht := rfl
@[simp] theorem Dev.modImg_que (d : Dev) (f : Img → Img) : (d.modImg f).que = d.que := rfl
@[simp] theorem Dev.modImg_crd (d : Dev) (f : Img → Img) : (d.modImg f).crd = d.crd := rfl
@[simp] theorem Dev.modImg_ply (d : Dev) (f : Img → Img) : (d.modImg f).ply = d.ply := rfl
@[simp] theorem Dev.modImg_dst (d : Dev) (f : Img → Img) : (d.modImg f).dst = d.dst := rfl
@[simp] theorem Dev.modImg_img (d : Dev) (f : Img → Img) : (d.modImg f).img = f d.img := rfl
@[simp] theorem Dev.modImg_bob (d : Dev) (f : Img → Img) : (d.modImg f).bob = d.bob := rfl

@[simp] theorem Dev.modPra_phase (d : Dev) (f : Pra → Pra) : (d.modPra f).phase = d.phase := rfl
@[simp] theorem Dev.modPra_free (d : Dev) (f : Pra → Pra) : (d.modPra f).free = d.free := rfl
@[simp] theorem Dev.modPra_out (d : Dev) (f : Pra → Pra) : (d.modPra f).out = d.out := rfl
@[simp] theorem Dev.modPra_pwr (d : Dev) (f : Pra → Pra) : (d.modPra f).pwr = d.pwr := rfl
@[simp] theorem Dev.modPra_glb (d : Dev) (f : Pra → Pra) : (d.modPra f).glb = d.glb := rfl
@[simp] theorem Dev.modPra_start (d : Dev) (f : Pra → Pra) : (d.modPra f).start = d.start := rfl
@[simp] theorem Dev.modPra_pra (d : Dev) (f : Pra → Pra) : (d.modPra f).pra = f d.pra := rfl
@[simp] theorem Dev.modPra_evt (d : Dev) (f : Pra → Pra) : (d.modPra f).evt = d.evt := rfl
@[simp] theorem Dev.modPra_whl (d : Dev) (f : Pra → Pra) : (d.modPra f).whl = d.whl := rfl
@[simp] theorem Dev.modPra_spn (d : Dev) (f : Pra → Pra) : (d.modPra f).spn = d.spn := rfl
@[simp] theorem Dev.modPra_region (d : Dev) (f : Pra → Pra) : (d.modPra f).region = d.region := rfl
@[simp] theorem Dev.modPra_wrp (d : Dev) (f : Pra → Pra) : (d.modPra f).wrp = d.wrp := rfl
@[simp] theorem Dev.modPra_ccp (d : Dev) (f : Pra → Pra) : (d.modPra f).ccp = d.ccp := rfl
@[simp] theorem Dev.modPra_sht (d : Dev) (f : Pra → Pra) : (d.modPra f).sht = d.sht := rfl
@[simp] theorem Dev.modPra_que (d : Dev) (f : Pra → Pra) : (d.modPra f).que = d.que := rfl
@[simp] theorem Dev.modPra_crd (d : Dev) (f : Pra → Pra) : (d.modPra f).crd = d.crd := rfl
@[simp] theorem Dev.modPra_ply (d : Dev) (f : Pra → Pra) : (d.modPra f).ply = d.ply := rfl
@[simp] theorem Dev.modPra_dst (d : Dev) (f : Pra → Pra) : (d.modPra f).dst = d.dst := rfl
@[simp] theorem Dev.modPra_img (d : Dev) (f : Pra → Pra) : (d.modPra f).img = d.img := rfl
@[simp] theorem Dev.modPra_bob (d : Dev) (f : Pra → Pra) : (d.modPra f).bob = d.bob := rfl

@[simp] theorem Dev.modSpn_phase (d : Dev) (n : Fin 4) (f : Spn → Spn) : (d.modSpn n f).phase = d.phase := rfl
@[simp] theorem Dev.modSpn_free (d : Dev) (n : Fin 4) (f : Spn → Spn) : (d.modSpn n f).free = d.free := rfl
@[simp] theorem Dev.modSpn_out (d : Dev) (n : Fin 4) (f : Spn → Spn) : (d.modSpn n f).out = d.out := rfl
@[simp] theorem Dev.modSpn_pwr (d : Dev) (n : Fin 4) (f : Spn → Spn) : (d.modSpn n f).pwr = d.pwr := rfl
@[simp] theorem Dev.modSpn_glb (d : Dev) (n : Fin 4) (f : Spn → Spn) : (d.modSpn n f).glb = d.glb := rfl
@[simp] theorem Dev.modSpn_start (d : Dev) (n : Fin 4) (f : Spn → Spn) : (d.modSpn n f).start = d.start := rfl
@[simp] theorem Dev.modSpn_pra (d : Dev) (n : Fin 4) (f : Spn → Spn) : (d.modSpn n f).pra = d.pra := rfl
@[simp] theorem Dev.modSpn_evt (d : Dev) (n : Fin 4) (f : Spn → Spn) : (d.modSpn n f).evt = d.evt := rfl
@[simp] theorem Dev.modSpn_whl (d : Dev) (n : Fin 4) (f : Spn → Spn) : (d.modSpn n f).whl = d.whl := rfl
@[simp] theorem Dev.modSpn_spn (d : Dev) (n : Fin 4) (f : Spn → Spn) : (d.modSpn n f).spn = d.spn.set n (f (d.spn.get n)) := rfl
@[simp] theorem Dev.modSpn_region (d : Dev) (n : Fin 4) (f : Spn → Spn) : (d.modSpn n f).region = d.region := rfl
@[simp] theorem Dev.modSpn_wrp (d : Dev) (n : Fin 4) (f : Spn → Spn) : (d.modSpn n f).wrp = d.wrp := rfl
@[simp] theorem Dev.modSpn_ccp (d : Dev) (n : Fin 4) (f : Spn → Spn) : (d.modSpn n f).ccp = d.ccp := rfl
@[simp] theorem Dev.modSpn_sht (d : Dev) (n : Fin 4) (f : Spn → Spn) : (d.modSpn n f).sht = d.sht := rfl
@[simp] theorem Dev.modSpn_que (d : Dev) (n : Fin 4) (f : Spn → Spn) : (d.modSpn n f).que = d.que := rfl
@[simp] theorem Dev.modSpn_crd (d : Dev) (n : Fin 4) (f : Spn → Spn) : (d.modSpn n f).crd = d.crd := rfl
@[simp] theorem Dev.modSpn_ply (d : Dev) (n : Fin 4) (f : Spn → Spn) : (d.modSpn n f).ply = d.ply := rfl
@[simp] theorem Dev.modSpn_dst (d : Dev) (n : Fin 4) (f : Spn → Spn) : (d.modSpn n f).dst = d.dst := rfl
@[simp] theorem Dev.modSpn_img (d : Dev) (n : Fin 4) (f : Spn → Spn) : (d.modSpn n f).img = d.img := rfl
@[simp] theorem Dev.modSpn_bob (d : Dev) (n : Fin 4) (f : Spn → Spn) : (d.modSpn n f).bob = d.bob := rfl

@[simp] theorem Dev.emit_phase (d : Dev) (x : Output) : (d.emit x).phase = d.phase := rfl
@[simp] theorem Dev.emit_free (d : Dev) (x : Output) : (d.emit x).free = d.free := rfl
@[simp] theorem Dev.emit_out (d : Dev) (x : Output) : (d.emit x).out = d.out ++ [x] := rfl
@[simp] theorem Dev.emit_pwr (d : Dev) (x : Output) : (d.emit x).pwr = d.pwr := rfl
@[simp] theorem Dev.emit_glb (d : Dev) (x : Output) : (d.emit x).glb = d.glb := rfl
@[simp] theorem Dev.emit_start (d : Dev) (x : Output) : (d.emit x).start = d.start := rfl
@[simp] theorem Dev.emit_pra (d : Dev) (x : Output) : (d.emit x).pra = d.pra := rfl
@[simp] theorem Dev.emit_evt (d : Dev) (x : Output) : (d.emit x).evt = d.evt := rfl
@[simp] theorem Dev.emit_whl (d : Dev) (x : Output) : (d.emit x).whl = d.whl := rfl
@[simp] theorem Dev.emit_spn (d : Dev) (x : Output) : (d.emit x).spn = d.spn := rfl
@[simp] theorem Dev.emit_region (d : Dev) (x : Output) : (d.emit x).region = d.region := rfl
@[simp] theorem Dev.emit_wrp (d : Dev) (x : Output) : (d.emit x).wrp = d.wrp := rfl
@[simp] theorem Dev.emit_ccp (d : Dev) (x : Output) : (d.emit x).ccp = d.ccp := rfl
@[simp] theorem Dev.emit_sht (d : Dev) (x : Output) : (d.emit x).sht = d.sht := rfl
@[simp] theorem Dev.emit_que (d : Dev) (x : Output) : (d.emit x).que = d.que := rfl
@[simp] theorem Dev.emit_crd (d : Dev) (x : Output) : (d.emit x).crd = d.crd := rfl
@[simp] theorem Dev.emit_ply (d : Dev) (x : Output) : (d.emit x).ply = d.ply := rfl
@[simp] theorem Dev.emit_dst (d : Dev) (x : Output) : (d.emit x).dst = d.dst := rfl
@[simp] theorem Dev.emit_img (d : Dev) (x : Output) : (d.emit x).img = d.img := rfl
@[simp] theorem Dev.emit_bob (d : Dev) (x : Output) : (d.emit x).bob = d.bob := rfl

@[simp] theorem Dev.draw_value (d : Dev) : d.draw.1 = Config.freeBits d.free := rfl
@[simp] theorem Dev.draw_phase (d : Dev) : d.draw.2.phase = d.phase := rfl
@[simp] theorem Dev.draw_free (d : Dev) : d.draw.2.free = d.free + 1 := rfl
@[simp] theorem Dev.draw_out (d : Dev) : d.draw.2.out = d.out := rfl
@[simp] theorem Dev.draw_pwr (d : Dev) : d.draw.2.pwr = d.pwr := rfl
@[simp] theorem Dev.draw_glb (d : Dev) : d.draw.2.glb = d.glb := rfl
@[simp] theorem Dev.draw_start (d : Dev) : d.draw.2.start = d.start := rfl
@[simp] theorem Dev.draw_pra (d : Dev) : d.draw.2.pra = d.pra := rfl
@[simp] theorem Dev.draw_evt (d : Dev) : d.draw.2.evt = d.evt := rfl
@[simp] theorem Dev.draw_whl (d : Dev) : d.draw.2.whl = d.whl := rfl
@[simp] theorem Dev.draw_spn (d : Dev) : d.draw.2.spn = d.spn := rfl
@[simp] theorem Dev.draw_region (d : Dev) : d.draw.2.region = d.region := rfl
@[simp] theorem Dev.draw_wrp (d : Dev) : d.draw.2.wrp = d.wrp := rfl
@[simp] theorem Dev.draw_ccp (d : Dev) : d.draw.2.ccp = d.ccp := rfl
@[simp] theorem Dev.draw_sht (d : Dev) : d.draw.2.sht = d.sht := rfl
@[simp] theorem Dev.draw_que (d : Dev) : d.draw.2.que = d.que := rfl
@[simp] theorem Dev.draw_crd (d : Dev) : d.draw.2.crd = d.crd := rfl
@[simp] theorem Dev.draw_ply (d : Dev) : d.draw.2.ply = d.ply := rfl
@[simp] theorem Dev.draw_dst (d : Dev) : d.draw.2.dst = d.dst := rfl
@[simp] theorem Dev.draw_img (d : Dev) : d.draw.2.img = d.img := rfl
@[simp] theorem Dev.draw_bob (d : Dev) : d.draw.2.bob = d.bob := rfl

/-! ## Passing time -/

@[simp] theorem Dev.pass_phase (d : Dev) (ns : Nat) : (d.pass ns).phase = d.phase := by unfold Dev.pass; dsimp only; split <;> rfl
@[simp] theorem Dev.pass_free (d : Dev) (ns : Nat) : (d.pass ns).free = d.free := by unfold Dev.pass; dsimp only; split <;> rfl
@[simp] theorem Dev.pass_out (d : Dev) (ns : Nat) : (d.pass ns).out = d.out := by unfold Dev.pass; dsimp only; split <;> rfl
@[simp] theorem Dev.pass_start (d : Dev) (ns : Nat) : (d.pass ns).start = d.start := by unfold Dev.pass; dsimp only; split <;> rfl
@[simp] theorem Dev.pass_pra (d : Dev) (ns : Nat) : (d.pass ns).pra = d.pra := by unfold Dev.pass; dsimp only; split <;> rfl
@[simp] theorem Dev.pass_evt (d : Dev) (ns : Nat) : (d.pass ns).evt = d.evt := by unfold Dev.pass; dsimp only; split <;> rfl
@[simp] theorem Dev.pass_spn (d : Dev) (ns : Nat) : (d.pass ns).spn = d.spn := by unfold Dev.pass; dsimp only; split <;> rfl
@[simp] theorem Dev.pass_region (d : Dev) (ns : Nat) : (d.pass ns).region = d.region := by unfold Dev.pass; dsimp only; split <;> rfl
@[simp] theorem Dev.pass_wrp (d : Dev) (ns : Nat) : (d.pass ns).wrp = d.wrp := by unfold Dev.pass; dsimp only; split <;> rfl
@[simp] theorem Dev.pass_ccp (d : Dev) (ns : Nat) : (d.pass ns).ccp = d.ccp := by unfold Dev.pass; dsimp only; split <;> rfl
@[simp] theorem Dev.pass_sht (d : Dev) (ns : Nat) : (d.pass ns).sht = d.sht := by unfold Dev.pass; dsimp only; split <;> rfl
@[simp] theorem Dev.pass_que (d : Dev) (ns : Nat) : (d.pass ns).que = d.que := by unfold Dev.pass; dsimp only; split <;> rfl
@[simp] theorem Dev.pass_crd (d : Dev) (ns : Nat) : (d.pass ns).crd = d.crd := by unfold Dev.pass; dsimp only; split <;> rfl
@[simp] theorem Dev.pass_ply (d : Dev) (ns : Nat) : (d.pass ns).ply = d.ply := by unfold Dev.pass; dsimp only; split <;> rfl
@[simp] theorem Dev.pass_dst (d : Dev) (ns : Nat) : (d.pass ns).dst = d.dst := by unfold Dev.pass; dsimp only; split <;> rfl
@[simp] theorem Dev.pass_img (d : Dev) (ns : Nat) : (d.pass ns).img = d.img := by unfold Dev.pass; dsimp only; split <;> rfl
@[simp] theorem Dev.pass_bob (d : Dev) (ns : Nat) : (d.pass ns).bob = d.bob := by unfold Dev.pass; dsimp only; split <;> rfl
@[simp] theorem Dev.pass_pwr (d : Dev) (ns : Nat) : (d.pass ns).pwr = { d.pwr with wall := d.pwr.wall + ns } := by
  unfold Dev.pass; dsimp only; split <;> rfl

/-- Device time and up-time move exactly while the control die is out of reset (R64, R371). -/
theorem Dev.pass_running (d : Dev) (ns : Nat) (h : d.phase.ctrlRuns = true) :
    (d.pass ns).whl = { d.whl with time := d.whl.time + ns } ∧ (d.pass ns).glb = { d.glb with upNs := d.glb.upNs + ns } := by
  unfold Dev.pass; simp [h]

theorem Dev.pass_stopped (d : Dev) (ns : Nat) (h : d.phase.ctrlRuns = false) :
    (d.pass ns).whl = d.whl ∧ (d.pass ns).glb = d.glb := by
  unfold Dev.pass; simp [h]

@[simp] theorem Dev.elapse_phase (d : Dev) (ns : Nat) : (d.elapse ns).phase = (d.pass ns).phase := rfl
@[simp] theorem Dev.elapse_free (d : Dev) (ns : Nat) : (d.elapse ns).free = (d.pass ns).free := rfl
@[simp] theorem Dev.elapse_out (d : Dev) (ns : Nat) : (d.elapse ns).out = [] := rfl
@[simp] theorem Dev.elapse_pwr (d : Dev) (ns : Nat) : (d.elapse ns).pwr = (d.pass ns).pwr := rfl
@[simp] theorem Dev.elapse_glb (d : Dev) (ns : Nat) : (d.elapse ns).glb = (d.pass ns).glb := rfl
@[simp] theorem Dev.elapse_start (d : Dev) (ns : Nat) : (d.elapse ns).start = (d.pass ns).start := rfl
@[simp] theorem Dev.elapse_pra (d : Dev) (ns : Nat) : (d.elapse ns).pra = (d.pass ns).pra := rfl
@[simp] theorem Dev.elapse_evt (d : Dev) (ns : Nat) : (d.elapse ns).evt = (d.pass ns).evt := rfl
@[simp] theorem Dev.elapse_whl (d : Dev) (ns : Nat) : (d.elapse ns).whl = (d.pass ns).whl := rfl
@[simp] theorem Dev.elapse_spn (d : Dev) (ns : Nat) : (d.elapse ns).spn = (d.pass ns).spn := rfl
@[simp] theorem Dev.elapse_region (d : Dev) (ns : Nat) : (d.elapse ns).region = (d.pass ns).region := rfl
@[simp] theorem Dev.elapse_wrp (d : Dev) (ns : Nat) : (d.elapse ns).wrp = (d.pass ns).wrp := rfl
@[simp] theorem Dev.elapse_ccp (d : Dev) (ns : Nat) : (d.elapse ns).ccp = (d.pass ns).ccp := rfl
@[simp] theorem Dev.elapse_sht (d : Dev) (ns : Nat) : (d.elapse ns).sht = (d.pass ns).sht := rfl
@[simp] theorem Dev.elapse_que (d : Dev) (ns : Nat) : (d.elapse ns).que = (d.pass ns).que := rfl
@[simp] theorem Dev.elapse_crd (d : Dev) (ns : Nat) : (d.elapse ns).crd = (d.pass ns).crd := rfl
@[simp] theorem Dev.elapse_ply (d : Dev) (ns : Nat) : (d.elapse ns).ply = (d.pass ns).ply := rfl
@[simp] theorem Dev.elapse_dst (d : Dev) (ns : Nat) : (d.elapse ns).dst = (d.pass ns).dst := rfl
@[simp] theorem Dev.elapse_img (d : Dev) (ns : Nat) : (d.elapse ns).img = (d.pass ns).img := rfl
@[simp] theorem Dev.elapse_bob (d : Dev) (ns : Nat) : (d.elapse ns).bob = (d.pass ns).bob := rfl

/-! ## Rows -/

/-- A meaning leaves the queue. -/
theorem run_pending (dt : Nat) (f : Dev → Dev) (s : State) : run dt f s = .next { s with dev := f (s.dev.elapse dt) } := rfl

theorem regRow_runs (f : Dev → Dev × Status) (d : Dev) (h : d.phase.fwRuns = true) :
    regRow f d = (f d).1.emit (.status (f d).2) := by unfold regRow; simp [h]

theorem regRow_stopped (f : Dev → Dev × Status) (d : Dev) (h : d.phase.fwRuns = false) : regRow f d = d := by
  unfold regRow; simp [h]

/-! ## Fields that passing time leaves -/

@[simp] theorem Dev.pass_whl_radio (d : Dev) (ns : Nat) : (d.pass ns).whl.radio = d.whl.radio := by unfold Dev.pass; dsimp only; split <;> rfl
@[simp] theorem Dev.pass_whl_masterStep (d : Dev) (ns : Nat) : (d.pass ns).whl.masterStep = d.whl.masterStep := by unfold Dev.pass; dsimp only; split <;> rfl
@[simp] theorem Dev.pass_whl_radioStep (d : Dev) (ns : Nat) : (d.pass ns).whl.radioStep = d.whl.radioStep := by unfold Dev.pass; dsimp only; split <;> rfl
@[simp] theorem Dev.pass_whl_learnedStep (d : Dev) (ns : Nat) : (d.pass ns).whl.learnedStep = d.whl.learnedStep := by unfold Dev.pass; dsimp only; split <;> rfl
@[simp] theorem Dev.pass_whl_state (d : Dev) (ns : Nat) : (d.pass ns).whl.state = d.whl.state := by unfold Dev.pass; dsimp only; split <;> rfl
@[simp] theorem Dev.pass_whl_src (d : Dev) (ns : Nat) : (d.pass ns).whl.src = d.whl.src := by unfold Dev.pass; dsimp only; split <;> rfl
@[simp] theorem Dev.pass_whl_ptp0 (d : Dev) (ns : Nat) : (d.pass ns).whl.ptp0 = d.whl.ptp0 := by unfold Dev.pass; dsimp only; split <;> rfl
@[simp] theorem Dev.pass_whl_ptp1 (d : Dev) (ns : Nat) : (d.pass ns).whl.ptp1 = d.whl.ptp1 := by unfold Dev.pass; dsimp only; split <;> rfl
@[simp] theorem Dev.pass_whl_ppsQual (d : Dev) (ns : Nat) : (d.pass ns).whl.ppsQual = d.whl.ppsQual := by unfold Dev.pass; dsimp only; split <;> rfl
@[simp] theorem Dev.pass_whl_refQual (d : Dev) (ns : Nat) : (d.pass ns).whl.refQual = d.whl.refQual := by unfold Dev.pass; dsimp only; split <;> rfl
@[simp] theorem Dev.pass_whl_todValid (d : Dev) (ns : Nat) : (d.pass ns).whl.todValid = d.whl.todValid := by unfold Dev.pass; dsimp only; split <;> rfl
@[simp] theorem Dev.pass_whl_stepPend (d : Dev) (ns : Nat) : (d.pass ns).whl.stepPend = d.whl.stepPend := by unfold Dev.pass; dsimp only; split <;> rfl
@[simp] theorem Dev.pass_whl_learned (d : Dev) (ns : Nat) : (d.pass ns).whl.learned = d.whl.learned := by unfold Dev.pass; dsimp only; split <;> rfl
@[simp] theorem Dev.pass_whl_todArm (d : Dev) (ns : Nat) : (d.pass ns).whl.todArm = d.whl.todArm := by unfold Dev.pass; dsimp only; split <;> rfl
@[simp] theorem Dev.pass_whl_enPps (d : Dev) (ns : Nat) : (d.pass ns).whl.enPps = d.whl.enPps := by unfold Dev.pass; dsimp only; split <;> rfl
@[simp] theorem Dev.pass_whl_enPtp1 (d : Dev) (ns : Nat) : (d.pass ns).whl.enPtp1 = d.whl.enPtp1 := by unfold Dev.pass; dsimp only; split <;> rfl
@[simp] theorem Dev.pass_whl_enPtp0 (d : Dev) (ns : Nat) : (d.pass ns).whl.enPtp0 = d.whl.enPtp0 := by unfold Dev.pass; dsimp only; split <;> rfl
@[simp] theorem Dev.pass_whl_enRef (d : Dev) (ns : Nat) : (d.pass ns).whl.enRef = d.whl.enRef := by unfold Dev.pass; dsimp only; split <;> rfl
@[simp] theorem Dev.pass_whl_latchTime (d : Dev) (ns : Nat) : (d.pass ns).whl.latchTime = d.whl.latchTime := by unfold Dev.pass; dsimp only; split <;> rfl
@[simp] theorem Dev.pass_whl_latchAsn (d : Dev) (ns : Nat) : (d.pass ns).whl.latchAsn = d.whl.latchAsn := by unfold Dev.pass; dsimp only; split <;> rfl
@[simp] theorem Dev.pass_whl_latchPos (d : Dev) (ns : Nat) : (d.pass ns).whl.latchPos = d.whl.latchPos := by unfold Dev.pass; dsimp only; split <;> rfl
@[simp] theorem Dev.pass_whl_latchNext (d : Dev) (ns : Nat) : (d.pass ns).whl.latchNext = d.whl.latchNext := by unfold Dev.pass; dsimp only; split <;> rfl
@[simp] theorem Dev.pass_whl_epoch (d : Dev) (ns : Nat) : (d.pass ns).whl.epoch = d.whl.epoch := by unfold Dev.pass; dsimp only; split <;> rfl
@[simp] theorem Dev.pass_whl_period (d : Dev) (ns : Nat) : (d.pass ns).whl.period = d.whl.period := by unfold Dev.pass; dsimp only; split <;> rfl
@[simp] theorem Dev.pass_whl_offset (d : Dev) (ns : Nat) : (d.pass ns).whl.offset = d.whl.offset := by unfold Dev.pass; dsimp only; split <;> rfl
@[simp] theorem Dev.pass_whl_freqCorr (d : Dev) (ns : Nat) : (d.pass ns).whl.freqCorr = d.whl.freqCorr := by unfold Dev.pass; dsimp only; split <;> rfl
@[simp] theorem Dev.pass_whl_holdEst (d : Dev) (ns : Nat) : (d.pass ns).whl.holdEst = d.whl.holdEst := by unfold Dev.pass; dsimp only; split <;> rfl
@[simp] theorem Dev.pass_whl_holdLimit (d : Dev) (ns : Nat) : (d.pass ns).whl.holdLimit = d.whl.holdLimit := by unfold Dev.pass; dsimp only; split <;> rfl
@[simp] theorem Dev.pass_whl_domain (d : Dev) (ns : Nat) : (d.pass ns).whl.domain = d.whl.domain := by unfold Dev.pass; dsimp only; split <;> rfl
@[simp] theorem Dev.pass_whl_annTmo (d : Dev) (ns : Nat) : (d.pass ns).whl.annTmo = d.whl.annTmo := by unfold Dev.pass; dsimp only; split <;> rfl
@[simp] theorem Dev.pass_whl_transport (d : Dev) (ns : Nat) : (d.pass ns).whl.transport = d.whl.transport := by unfold Dev.pass; dsimp only; split <;> rfl
@[simp] theorem Dev.pass_whl_scope (d : Dev) (ns : Nat) : (d.pass ns).whl.scope = d.whl.scope := by unfold Dev.pass; dsimp only; split <;> rfl
@[simp] theorem Dev.pass_whl_outMode (d : Dev) (ns : Nat) : (d.pass ns).whl.outMode = d.whl.outMode := by unfold Dev.pass; dsimp only; split <;> rfl
@[simp] theorem Dev.pass_whl_inEdge (d : Dev) (ns : Nat) : (d.pass ns).whl.inEdge = d.whl.inEdge := by unfold Dev.pass; dsimp only; split <;> rfl
@[simp] theorem Dev.pass_whl_todSec (d : Dev) (ns : Nat) : (d.pass ns).whl.todSec = d.whl.todSec := by unfold Dev.pass; dsimp only; split <;> rfl
@[simp] theorem Dev.pass_whl_ovrDrain (d : Dev) (ns : Nat) : (d.pass ns).whl.ovrDrain = d.whl.ovrDrain := by unfold Dev.pass; dsimp only; split <;> rfl
@[simp] theorem Dev.pass_whl_ovrSched (d : Dev) (ns : Nat) : (d.pass ns).whl.ovrSched = d.whl.ovrSched := by unfold Dev.pass; dsimp only; split <;> rfl
@[simp] theorem Dev.pass_whl_ovrTxprep (d : Dev) (ns : Nat) : (d.pass ns).whl.ovrTxprep = d.whl.ovrTxprep := by unfold Dev.pass; dsimp only; split <;> rfl
@[simp] theorem Dev.pass_whl_skipped (d : Dev) (ns : Nat) : (d.pass ns).whl.skipped = d.whl.skipped := by unfold Dev.pass; dsimp only; split <;> rfl
@[simp] theorem Dev.pass_whl_launches (d : Dev) (ns : Nat) : (d.pass ns).whl.launches = d.whl.launches := by unfold Dev.pass; dsimp only; split <;> rfl
@[simp] theorem Dev.pass_whl_cancels (d : Dev) (ns : Nat) : (d.pass ns).whl.cancels = d.whl.cancels := by unfold Dev.pass; dsimp only; split <;> rfl
@[simp] theorem Dev.pass_whl_plkOffset (d : Dev) (ns : Nat) : (d.pass ns).whl.plkOffset = d.whl.plkOffset := by unfold Dev.pass; dsimp only; split <;> rfl
@[simp] theorem Dev.pass_whl_plkNew (d : Dev) (ns : Nat) : (d.pass ns).whl.plkNew = d.whl.plkNew := by unfold Dev.pass; dsimp only; split <;> rfl
@[simp] theorem Dev.pass_whl_lockedSince (d : Dev) (ns : Nat) : (d.pass ns).whl.lockedSince = d.whl.lockedSince := by unfold Dev.pass; dsimp only; split <;> rfl
@[simp] theorem Dev.pass_whl_longestLock (d : Dev) (ns : Nat) : (d.pass ns).whl.longestLock = d.whl.longestLock := by unfold Dev.pass; dsimp only; split <;> rfl
@[simp] theorem Dev.pass_whl_goodRun (d : Dev) (ns : Nat) : (d.pass ns).whl.goodRun = d.whl.goodRun := by unfold Dev.pass; dsimp only; split <;> rfl
@[simp] theorem Dev.pass_whl_ppsLast (d : Dev) (ns : Nat) : (d.pass ns).whl.ppsLast = d.whl.ppsLast := by unfold Dev.pass; dsimp only; split <;> rfl
@[simp] theorem Dev.pass_whl_ppsRun (d : Dev) (ns : Nat) : (d.pass ns).whl.ppsRun = d.whl.ppsRun := by unfold Dev.pass; dsimp only; split <;> rfl
@[simp] theorem Dev.pass_whl_ppsSec (d : Dev) (ns : Nat) : (d.pass ns).whl.ppsSec = d.whl.ppsSec := by unfold Dev.pass; dsimp only; split <;> rfl
@[simp] theorem Dev.pass_whl_holdFrom (d : Dev) (ns : Nat) : (d.pass ns).whl.holdFrom = d.whl.holdFrom := by unfold Dev.pass; dsimp only; split <;> rfl
@[simp] theorem Dev.pass_whl_holdOff (d : Dev) (ns : Nat) : (d.pass ns).whl.holdOff = d.whl.holdOff := by unfold Dev.pass; dsimp only; split <;> rfl
@[simp] theorem Dev.pass_whl_slew (d : Dev) (ns : Nat) : (d.pass ns).whl.slew = d.whl.slew := by unfold Dev.pass; dsimp only; split <;> rfl
@[simp] theorem Dev.pass_whl_slewFrom (d : Dev) (ns : Nat) : (d.pass ns).whl.slewFrom = d.whl.slewFrom := by unfold Dev.pass; dsimp only; split <;> rfl
@[simp] theorem Dev.pass_whl_step (d : Dev) (ns : Nat) : (d.pass ns).whl.step = d.whl.step := by unfold Dev.pass; dsimp only; split <;> rfl
@[simp] theorem Dev.pass_whl_learnedTcxo (d : Dev) (ns : Nat) : (d.pass ns).whl.learnedTcxo = d.whl.learnedTcxo := by unfold Dev.pass; dsimp only; split <;> rfl
@[simp] theorem Dev.pass_whl_tickK (d : Dev) (ns : Nat) : (d.pass ns).whl.tickK = d.whl.tickK := by unfold Dev.pass; dsimp only; split <;> rfl
@[simp] theorem Dev.pass_whl_tickAt (d : Dev) (ns : Nat) : (d.pass ns).whl.tickAt = d.whl.tickAt := by unfold Dev.pass; dsimp only; split <;> rfl
@[simp] theorem Dev.pass_whl_drained (d : Dev) (ns : Nat) : (d.pass ns).whl.drained = d.whl.drained := by unfold Dev.pass; dsimp only; split <;> rfl
@[simp] theorem Dev.pass_whl_drainedAt (d : Dev) (ns : Nat) : (d.pass ns).whl.drainedAt = d.whl.drainedAt := by unfold Dev.pass; dsimp only; split <;> rfl
@[simp] theorem Dev.pass_whl_scheduled (d : Dev) (ns : Nat) : (d.pass ns).whl.scheduled = d.whl.scheduled := by unfold Dev.pass; dsimp only; split <;> rfl
@[simp] theorem Dev.pass_whl_drainMissed (d : Dev) (ns : Nat) : (d.pass ns).whl.drainMissed = d.whl.drainMissed := by unfold Dev.pass; dsimp only; split <;> rfl
@[simp] theorem Dev.pass_whl_schedMissed (d : Dev) (ns : Nat) : (d.pass ns).whl.schedMissed = d.whl.schedMissed := by unfold Dev.pass; dsimp only; split <;> rfl
@[simp] theorem Dev.pass_whl_prepMissed (d : Dev) (ns : Nat) : (d.pass ns).whl.prepMissed = d.whl.prepMissed := by unfold Dev.pass; dsimp only; split <;> rfl
@[simp] theorem Dev.pass_whl_txMissed (d : Dev) (ns : Nat) : (d.pass ns).whl.txMissed = d.whl.txMissed := by unfold Dev.pass; dsimp only; split <;> rfl
@[simp] theorem Dev.pass_whl_before (d : Dev) (ns : Nat) : (d.pass ns).whl.before = d.whl.before := by unfold Dev.pass; dsimp only; split <;> rfl
@[simp] theorem Dev.pass_glb_ctrlStep (d : Dev) (ns : Nat) : (d.pass ns).glb.ctrlStep = d.glb.ctrlStep := by unfold Dev.pass; dsimp only; split <;> rfl
@[simp] theorem Dev.pass_glb_radioStep (d : Dev) (ns : Nat) : (d.pass ns).glb.radioStep = d.glb.radioStep := by unfold Dev.pass; dsimp only; split <;> rfl
@[simp] theorem Dev.pass_glb_powerStep (d : Dev) (ns : Nat) : (d.pass ns).glb.powerStep = d.glb.powerStep := by unfold Dev.pass; dsimp only; split <;> rfl
@[simp] theorem Dev.pass_glb_eui (d : Dev) (ns : Nat) : (d.pass ns).glb.eui = d.glb.eui := by unfold Dev.pass; dsimp only; split <;> rfl
@[simp] theorem Dev.pass_glb_power (d : Dev) (ns : Nat) : (d.pass ns).glb.power = d.glb.power := by unfold Dev.pass; dsimp only; split <;> rfl
@[simp] theorem Dev.pass_glb_tripped (d : Dev) (ns : Nat) : (d.pass ns).glb.tripped = d.glb.tripped := by unfold Dev.pass; dsimp only; split <;> rfl
@[simp] theorem Dev.pass_glb_tripInput (d : Dev) (ns : Nat) : (d.pass ns).glb.tripInput = d.glb.tripInput := by unfold Dev.pass; dsimp only; split <;> rfl
@[simp] theorem Dev.pass_glb_tripThermal (d : Dev) (ns : Nat) : (d.pass ns).glb.tripThermal = d.glb.tripThermal := by unfold Dev.pass; dsimp only; split <;> rfl
@[simp] theorem Dev.pass_glb_selftest (d : Dev) (ns : Nat) : (d.pass ns).glb.selftest = d.glb.selftest := by unfold Dev.pass; dsimp only; split <;> rfl
@[simp] theorem Dev.pass_glb_sramPass (d : Dev) (ns : Nat) : (d.pass ns).glb.sramPass = d.glb.sramPass := by unfold Dev.pass; dsimp only; split <;> rfl
@[simp] theorem Dev.pass_glb_dramPass (d : Dev) (ns : Nat) : (d.pass ns).glb.dramPass = d.glb.dramPass := by unfold Dev.pass; dsimp only; split <;> rfl
@[simp] theorem Dev.pass_glb_corr (d : Dev) (ns : Nat) : (d.pass ns).glb.corr = d.glb.corr := by unfold Dev.pass; dsimp only; split <;> rfl
@[simp] theorem Dev.pass_glb_uncorr (d : Dev) (ns : Nat) : (d.pass ns).glb.uncorr = d.glb.uncorr := by unfold Dev.pass; dsimp only; split <;> rfl
@[simp] theorem Dev.pass_glb_retired (d : Dev) (ns : Nat) : (d.pass ns).glb.retired = d.glb.retired := by unfold Dev.pass; dsimp only; split <;> rfl
@[simp] theorem Dev.pass_glb_spareThread (d : Dev) (ns : Nat) : (d.pass ns).glb.spareThread = d.glb.spareThread := by unfold Dev.pass; dsimp only; split <;> rfl
@[simp] theorem Dev.pass_glb_spareNode (d : Dev) (ns : Nat) : (d.pass ns).glb.spareNode = d.glb.spareNode := by unfold Dev.pass; dsimp only; split <;> rfl
@[simp] theorem Dev.pass_glb_passCorr (d : Dev) (ns : Nat) : (d.pass ns).glb.passCorr = d.glb.passCorr := by unfold Dev.pass; dsimp only; split <;> rfl
@[simp] theorem Dev.pass_glb_lastCorr (d : Dev) (ns : Nat) : (d.pass ns).glb.lastCorr = d.glb.lastCorr := by unfold Dev.pass; dsimp only; split <;> rfl
@[simp] theorem Dev.pass_glb_firstErr (d : Dev) (ns : Nat) : (d.pass ns).glb.firstErr = d.glb.firstErr := by unfold Dev.pass; dsimp only; split <;> rfl
@[simp] theorem Dev.pass_glb_retiredCells (d : Dev) (ns : Nat) : (d.pass ns).glb.retiredCells = d.glb.retiredCells := by unfold Dev.pass; dsimp only; split <;> rfl
@[simp] theorem Dev.pass_glb_retiredPages (d : Dev) (ns : Nat) : (d.pass ns).glb.retiredPages = d.glb.retiredPages := by unfold Dev.pass; dsimp only; split <;> rfl
@[simp] theorem Dev.pass_glb_retiredAt (d : Dev) (ns : Nat) : (d.pass ns).glb.retiredAt = d.glb.retiredAt := by unfold Dev.pass; dsimp only; split <;> rfl
@[simp] theorem Dev.pass_glb_faultReset (d : Dev) (ns : Nat) : (d.pass ns).glb.faultReset = d.glb.faultReset := by unfold Dev.pass; dsimp only; split <;> rfl
@[simp] theorem Dev.pass_glb_ptpDiscard (d : Dev) (ns : Nat) : (d.pass ns).glb.ptpDiscard = d.glb.ptpDiscard := by unfold Dev.pass; dsimp only; split <;> rfl
@[simp] theorem Dev.pass_glb_rplDeep (d : Dev) (ns : Nat) : (d.pass ns).glb.rplDeep = d.glb.rplDeep := by unfold Dev.pass; dsimp only; split <;> rfl

end Sys2Proof.Machine
end

