-- ==== Sys2Proof/Laws/Tables.lean ====
section
/-! SUPPORT. Sparse tables: a read after a write, and that every operation keeps the keys strictly rising. -/

namespace Sys2Proof.Machine

variable {α : Type}

@[simp] theorem kfind_kput_same (m : KMap α) (k : Nat) (v : α) : kfind (kput m k v) k = some v := by
  induction m with
  | nil => simp [kput, kfind]
  | cons p r ih =>
    obtain ⟨j, w⟩ := p
    unfold kput
    split
    · simp [kfind]
    · split
      · simp [kfind]
      · rename_i h; simp [kfind, h, ih]

theorem kfind_kput_other (m : KMap α) (k j : Nat) (v : α) (h : k ≠ j) : kfind (kput m k v) j = kfind m j := by
  induction m with
  | nil => simp [kput, kfind, h]
  | cons p r ih =>
    obtain ⟨i, w⟩ := p
    unfold kput
    split
    · simp [kfind, h]
    · split
      · rename_i he; subst he; simp [kfind, h]
      · simp [kfind, ih]

theorem kfind_kdel_other (m : KMap α) (k j : Nat) (h : k ≠ j) : kfind (kdel m k) j = kfind m j := by
  induction m with
  | nil => rfl
  | cons p r ih =>
    obtain ⟨i, w⟩ := p
    by_cases hi : i = k
    · subst hi; simp [kdel, kfind, h] at ih ⊢; exact ih
    · by_cases hj : i = j
      · subst hj; simp [kdel, kfind, hi]
      · simp [kdel, kfind, hi, hj] at ih ⊢; exact ih

@[simp] theorem kfind_kdel_same (m : KMap α) (k : Nat) : kfind (kdel m k) k = none := by
  induction m with
  | nil => rfl
  | cons p r ih =>
    obtain ⟨i, w⟩ := p
    by_cases hi : i = k
    · subst hi; simp [kdel] at ih ⊢; exact ih
    · simp [kdel, kfind, hi] at ih ⊢; exact ih

/-- A read after a write with a default: the value written at the key, the old value elsewhere. -/
@[simp] theorem kgetD_ksetD_same [DecidableEq α] (m : KMap α) (k : Nat) (v d : α) : kgetD (ksetD m k v d) k d = v := by
  unfold ksetD kgetD
  split
  · rename_i h; simp [h]
  · simp

theorem kgetD_ksetD_other [DecidableEq α] (m : KMap α) (k j : Nat) (v d e : α) (h : k ≠ j) :
    kgetD (ksetD m k v d) j e = kgetD m j e := by
  unfold ksetD kgetD
  split
  · rw [kfind_kdel_other m k j h]
  · rw [kfind_kput_other m k j v h]

@[simp] theorem kgetD_kput_same (m : KMap α) (k : Nat) (v d : α) : kgetD (kput m k v) k d = v := by simp [kgetD]

theorem kgetD_kput_other (m : KMap α) (k j : Nat) (v e : α) (h : k ≠ j) : kgetD (kput m k v) j e = kgetD m j e := by
  unfold kgetD; rw [kfind_kput_other m k j v h]

/-! ## The canonical form -/

theorem ksortedFrom_mono (m : KMap α) (a b : Nat) (h : a ≤ b) (hs : ksortedFrom b m = true) : ksortedFrom a m = true := by
  cases m with
  | nil => rfl
  | cons p r => obtain ⟨j, w⟩ := p; simp [ksortedFrom] at hs ⊢; exact ⟨by omega, hs.2⟩

theorem ksortedFrom_kput (m : KMap α) (lo k : Nat) (v : α) (h : lo ≤ k) (hs : ksortedFrom lo m = true) :
    ksortedFrom lo (kput m k v) = true := by
  induction m generalizing lo with
  | nil => simp [kput, ksortedFrom, h]
  | cons p r ih =>
    obtain ⟨j, w⟩ := p
    simp only [ksortedFrom, Bool.and_eq_true, decide_eq_true_eq] at hs
    unfold kput
    split
    · rename_i hk; simp [ksortedFrom, h, hs.2]; omega
    · split
      · rename_i he; subst he; simp [ksortedFrom, h, hs.2]
      · simp [ksortedFrom, hs.1]; exact ih (j + 1) (by omega) hs.2

theorem ksorted_kput (m : KMap α) (k : Nat) (v : α) (hs : ksorted m = true) : ksorted (kput m k v) = true :=
  ksortedFrom_kput m 0 k v (by omega) hs

theorem ksortedFrom_filter (m : KMap α) (lo : Nat) (f : Nat × α → Bool) (hs : ksortedFrom lo m = true) :
    ksortedFrom lo (m.filter f) = true := by
  induction m generalizing lo with
  | nil => rfl
  | cons p r ih =>
    obtain ⟨j, w⟩ := p
    simp only [ksortedFrom, Bool.and_eq_true, decide_eq_true_eq] at hs
    by_cases hf : f (j, w) = true
    · simp [hf, ksortedFrom, hs.1, ih (j + 1) hs.2]
    · simp [hf]; exact ih lo (ksortedFrom_mono r lo (j + 1) (by omega) hs.2)

theorem ksorted_kdel (m : KMap α) (k : Nat) (hs : ksorted m = true) : ksorted (kdel m k) = true :=
  ksortedFrom_filter m 0 _ hs

theorem ksorted_ksetD [DecidableEq α] (m : KMap α) (k : Nat) (v d : α) (hs : ksorted m = true) :
    ksorted (ksetD m k v d) = true := by
  unfold ksetD; split
  · exact ksorted_kdel m k hs
  · exact ksorted_kput m k v hs

/-- A change of values alone keeps the form. -/
theorem ksortedFrom_map {β : Type} (m : KMap α) (lo : Nat) (f : Nat × α → β) (hs : ksortedFrom lo m = true) :
    ksortedFrom lo (m.map (fun q => (q.1, f q))) = true := by
  induction m generalizing lo with
  | nil => rfl
  | cons p r ih =>
    obtain ⟨j, w⟩ := p
    simp only [ksortedFrom, Bool.and_eq_true, decide_eq_true_eq] at hs
    simp [ksortedFrom, hs.1, ih (j + 1) hs.2]

/-- What every entry of a table has, it has after a write of a value that has it too. -/
theorem all_kput (m : KMap α) (k : Nat) (v : α) (p : Nat × α → Bool) (hv : p (k, v) = true) (hm : m.all p = true) :
    (kput m k v).all p = true := by
  induction m with
  | nil => simp [kput, hv]
  | cons q r ih =>
    obtain ⟨j, w⟩ := q
    simp only [List.all_cons, Bool.and_eq_true] at hm
    unfold kput
    split
    · simp only [List.all_cons, Bool.and_eq_true]; exact ⟨hv, hm.1, hm.2⟩
    · split
      · simp only [List.all_cons, Bool.and_eq_true]; exact ⟨hv, hm.2⟩
      · simp only [List.all_cons, Bool.and_eq_true]; exact ⟨hm.1, ih hm.2⟩

theorem all_filter (l : List α) (f p : α → Bool) (h : l.all p = true) : (l.filter f).all p = true := by
  simp only [List.all_eq_true, List.mem_filter] at h ⊢
  exact fun x hx => h x hx.1

end Sys2Proof.Machine
end

