-- ==== Sys2Proof/Laws/Events.lean ====
section
/-! SUPPORT. Events: what a report, a rise and a fall change, and that they leave every other block (R347 to R350). -/

namespace Sys2Proof.Machine

/-! ## Sources -/

@[simp] theorem Evt.src_modSrc_same (v : Evt) (e : Nat) (f : SrcSt → SrcSt) : (v.modSrc e f).src e = f (v.src e) :=
  kgetD_ksetD_same ..

theorem Evt.src_modSrc_other (v : Evt) (e k : Nat) (f : SrcSt → SrcSt) (h : e ≠ k) : (v.modSrc e f).src k = v.src k :=
  kgetD_ksetD_other _ _ _ _ _ _ h

@[simp] theorem Evt.modSrc_log (v : Evt) (e : Nat) (f : SrcSt → SrcSt) : (v.modSrc e f).log = v.log := rfl
@[simp] theorem Evt.modSrc_head (v : Evt) (e : Nat) (f : SrcSt → SrcSt) : (v.modSrc e f).head = v.head := rfl

/-! ## Frames -/

@[simp] theorem reportNow_phase (d : Dev) (e : Nat) (l : List Byte) : (reportNow d e l).phase = d.phase := by
  unfold reportNow; dsimp only; split <;> rfl
@[simp] theorem reportNow_free (d : Dev) (e : Nat) (l : List Byte) : (reportNow d e l).free = d.free := by
  unfold reportNow; dsimp only; split <;> rfl
@[simp] theorem reportNow_out (d : Dev) (e : Nat) (l : List Byte) : (reportNow d e l).out = d.out := by
  unfold reportNow; dsimp only; split <;> rfl
@[simp] theorem reportNow_pwr (d : Dev) (e : Nat) (l : List Byte) : (reportNow d e l).pwr = d.pwr := by
  unfold reportNow; dsimp only; split <;> rfl
@[simp] theorem reportNow_glb (d : Dev) (e : Nat) (l : List Byte) : (reportNow d e l).glb = d.glb := by
  unfold reportNow; dsimp only; split <;> rfl
@[simp] theorem reportNow_start (d : Dev) (e : Nat) (l : List Byte) : (reportNow d e l).start = d.start := by
  unfold reportNow; dsimp only; split <;> rfl
@[simp] theorem reportNow_pra (d : Dev) (e : Nat) (l : List Byte) : (reportNow d e l).pra = d.pra := by
  unfold reportNow; dsimp only; split <;> rfl
@[simp] theorem reportNow_whl (d : Dev) (e : Nat) (l : List Byte) : (reportNow d e l).whl = d.whl := by
  unfold reportNow; dsimp only; split <;> rfl
@[simp] theorem reportNow_spn (d : Dev) (e : Nat) (l : List Byte) : (reportNow d e l).spn = d.spn := by
  unfold reportNow; dsimp only; split <;> rfl
@[simp] theorem reportNow_region (d : Dev) (e : Nat) (l : List Byte) : (reportNow d e l).region = d.region := by
  unfold reportNow; dsimp only; split <;> rfl
@[simp] theorem reportNow_wrp (d : Dev) (e : Nat) (l : List Byte) : (reportNow d e l).wrp = d.wrp := by
  unfold reportNow; dsimp only; split <;> rfl
@[simp] theorem reportNow_ccp (d : Dev) (e : Nat) (l : List Byte) : (reportNow d e l).ccp = d.ccp := by
  unfold reportNow; dsimp only; split <;> rfl
@[simp] theorem reportNow_sht (d : Dev) (e : Nat) (l : List Byte) : (reportNow d e l).sht = d.sht := by
  unfold reportNow; dsimp only; split <;> rfl
@[simp] theorem reportNow_que (d : Dev) (e : Nat) (l : List Byte) : (reportNow d e l).que = d.que := by
  unfold reportNow; dsimp only; split <;> rfl
@[simp] theorem reportNow_crd (d : Dev) (e : Nat) (l : List Byte) : (reportNow d e l).crd = d.crd := by
  unfold reportNow; dsimp only; split <;> rfl
@[simp] theorem reportNow_ply (d : Dev) (e : Nat) (l : List Byte) : (reportNow d e l).ply = d.ply := by
  unfold reportNow; dsimp only; split <;> rfl
@[simp] theorem reportNow_dst (d : Dev) (e : Nat) (l : List Byte) : (reportNow d e l).dst = d.dst := by
  unfold reportNow; dsimp only; split <;> rfl
@[simp] theorem reportNow_img (d : Dev) (e : Nat) (l : List Byte) : (reportNow d e l).img = d.img := by
  unfold reportNow; dsimp only; split <;> rfl
@[simp] theorem reportNow_bob (d : Dev) (e : Nat) (l : List Byte) : (reportNow d e l).bob = d.bob := by
  unfold reportNow; dsimp only; split <;> rfl

@[simp] theorem report_phase (d : Dev) (e : Nat) (l : List Byte) : (report d e l).phase = d.phase := by
  unfold report; split; · rfl
  · split <;> simp
@[simp] theorem report_free (d : Dev) (e : Nat) (l : List Byte) : (report d e l).free = d.free := by
  unfold report; split; · rfl
  · split <;> simp
@[simp] theorem report_out (d : Dev) (e : Nat) (l : List Byte) : (report d e l).out = d.out := by
  unfold report; split; · rfl
  · split <;> simp
@[simp] theorem report_pwr (d : Dev) (e : Nat) (l : List Byte) : (report d e l).pwr = d.pwr := by
  unfold report; split; · rfl
  · split <;> simp
@[simp] theorem report_glb (d : Dev) (e : Nat) (l : List Byte) : (report d e l).glb = d.glb := by
  unfold report; split; · rfl
  · split <;> simp
@[simp] theorem report_pra (d : Dev) (e : Nat) (l : List Byte) : (report d e l).pra = d.pra := by
  unfold report; split; · rfl
  · split <;> simp
@[simp] theorem report_whl (d : Dev) (e : Nat) (l : List Byte) : (report d e l).whl = d.whl := by
  unfold report; split; · rfl
  · split <;> simp
@[simp] theorem report_spn (d : Dev) (e : Nat) (l : List Byte) : (report d e l).spn = d.spn := by
  unfold report; split; · rfl
  · split <;> simp
@[simp] theorem report_region (d : Dev) (e : Nat) (l : List Byte) : (report d e l).region = d.region := by
  unfold report; split; · rfl
  · split <;> simp
@[simp] theorem report_wrp (d : Dev) (e : Nat) (l : List Byte) : (report d e l).wrp = d.wrp := by
  unfold report; split; · rfl
  · split <;> simp
@[simp] theorem report_ccp (d : Dev) (e : Nat) (l : List Byte) : (report d e l).ccp = d.ccp := by
  unfold report; split; · rfl
  · split <;> simp
@[simp] theorem report_sht (d : Dev) (e : Nat) (l : List Byte) : (report d e l).sht = d.sht := by
  unfold report; split; · rfl
  · split <;> simp
@[simp] theorem report_que (d : Dev) (e : Nat) (l : List Byte) : (report d e l).que = d.que := by
  unfold report; split; · rfl
  · split <;> simp
@[simp] theorem report_crd (d : Dev) (e : Nat) (l : List Byte) : (report d e l).crd = d.crd := by
  unfold report; split; · rfl
  · split <;> simp
@[simp] theorem report_ply (d : Dev) (e : Nat) (l : List Byte) : (report d e l).ply = d.ply := by
  unfold report; split; · rfl
  · split <;> simp
@[simp] theorem report_dst (d : Dev) (e : Nat) (l : List Byte) : (report d e l).dst = d.dst := by
  unfold report; split; · rfl
  · split <;> simp
@[simp] theorem report_img (d : Dev) (e : Nat) (l : List Byte) : (report d e l).img = d.img := by
  unfold report; split; · rfl
  · split <;> simp
@[simp] theorem report_bob (d : Dev) (e : Nat) (l : List Byte) : (report d e l).bob = d.bob := by
  unfold report; split; · rfl
  · split <;> simp

@[simp] theorem reportDeferred_phase (d : Dev) (e : Nat) (l : List Byte) : (reportDeferred d e l).phase = d.phase := by
  rfl
@[simp] theorem reportDeferred_free (d : Dev) (e : Nat) (l : List Byte) : (reportDeferred d e l).free = d.free := by
  rfl
@[simp] theorem reportDeferred_out (d : Dev) (e : Nat) (l : List Byte) : (reportDeferred d e l).out = d.out := by
  rfl
@[simp] theorem reportDeferred_pwr (d : Dev) (e : Nat) (l : List Byte) : (reportDeferred d e l).pwr = d.pwr := by
  rfl
@[simp] theorem reportDeferred_glb (d : Dev) (e : Nat) (l : List Byte) : (reportDeferred d e l).glb = d.glb := by
  rfl
@[simp] theorem reportDeferred_start (d : Dev) (e : Nat) (l : List Byte) : (reportDeferred d e l).start = d.start := by
  rfl
@[simp] theorem reportDeferred_pra (d : Dev) (e : Nat) (l : List Byte) : (reportDeferred d e l).pra = d.pra := by
  rfl
@[simp] theorem reportDeferred_whl (d : Dev) (e : Nat) (l : List Byte) : (reportDeferred d e l).whl = d.whl := by
  rfl
@[simp] theorem reportDeferred_spn (d : Dev) (e : Nat) (l : List Byte) : (reportDeferred d e l).spn = d.spn := by
  rfl
@[simp] theorem reportDeferred_region (d : Dev) (e : Nat) (l : List Byte) : (reportDeferred d e l).region = d.region := by
  rfl
@[simp] theorem reportDeferred_wrp (d : Dev) (e : Nat) (l : List Byte) : (reportDeferred d e l).wrp = d.wrp := by
  rfl
@[simp] theorem reportDeferred_ccp (d : Dev) (e : Nat) (l : List Byte) : (reportDeferred d e l).ccp = d.ccp := by
  rfl
@[simp] theorem reportDeferred_sht (d : Dev) (e : Nat) (l : List Byte) : (reportDeferred d e l).sht = d.sht := by
  rfl
@[simp] theorem reportDeferred_que (d : Dev) (e : Nat) (l : List Byte) : (reportDeferred d e l).que = d.que := by
  rfl
@[simp] theorem reportDeferred_crd (d : Dev) (e : Nat) (l : List Byte) : (reportDeferred d e l).crd = d.crd := by
  rfl
@[simp] theorem reportDeferred_ply (d : Dev) (e : Nat) (l : List Byte) : (reportDeferred d e l).ply = d.ply := by
  rfl
@[simp] theorem reportDeferred_dst (d : Dev) (e : Nat) (l : List Byte) : (reportDeferred d e l).dst = d.dst := by
  rfl
@[simp] theorem reportDeferred_img (d : Dev) (e : Nat) (l : List Byte) : (reportDeferred d e l).img = d.img := by
  rfl
@[simp] theorem reportDeferred_bob (d : Dev) (e : Nat) (l : List Byte) : (reportDeferred d e l).bob = d.bob := by
  rfl

@[simp] theorem rise_phase (d : Dev) (e i : Nat) (l : List Byte) : (rise d e i l).phase = d.phase := by
  rfl
@[simp] theorem rise_free (d : Dev) (e i : Nat) (l : List Byte) : (rise d e i l).free = d.free := by
  rfl
@[simp] theorem rise_out (d : Dev) (e i : Nat) (l : List Byte) : (rise d e i l).out = d.out := by
  rfl
@[simp] theorem rise_pwr (d : Dev) (e i : Nat) (l : List Byte) : (rise d e i l).pwr = d.pwr := by
  rfl
@[simp] theorem rise_glb (d : Dev) (e i : Nat) (l : List Byte) : (rise d e i l).glb = d.glb := by
  rfl
@[simp] theorem rise_start (d : Dev) (e i : Nat) (l : List Byte) : (rise d e i l).start = d.start := by
  rfl
@[simp] theorem rise_pra (d : Dev) (e i : Nat) (l : List Byte) : (rise d e i l).pra = d.pra := by
  rfl
@[simp] theorem rise_whl (d : Dev) (e i : Nat) (l : List Byte) : (rise d e i l).whl = d.whl := by
  rfl
@[simp] theorem rise_spn (d : Dev) (e i : Nat) (l : List Byte) : (rise d e i l).spn = d.spn := by
  rfl
@[simp] theorem rise_region (d : Dev) (e i : Nat) (l : List Byte) : (rise d e i l).region = d.region := by
  rfl
@[simp] theorem rise_wrp (d : Dev) (e i : Nat) (l : List Byte) : (rise d e i l).wrp = d.wrp := by
  rfl
@[simp] theorem rise_ccp (d : Dev) (e i : Nat) (l : List Byte) : (rise d e i l).ccp = d.ccp := by
  rfl
@[simp] theorem rise_sht (d : Dev) (e i : Nat) (l : List Byte) : (rise d e i l).sht = d.sht := by
  rfl
@[simp] theorem rise_que (d : Dev) (e i : Nat) (l : List Byte) : (rise d e i l).que = d.que := by
  rfl
@[simp] theorem rise_crd (d : Dev) (e i : Nat) (l : List Byte) : (rise d e i l).crd = d.crd := by
  rfl
@[simp] theorem rise_ply (d : Dev) (e i : Nat) (l : List Byte) : (rise d e i l).ply = d.ply := by
  rfl
@[simp] theorem rise_dst (d : Dev) (e i : Nat) (l : List Byte) : (rise d e i l).dst = d.dst := by
  rfl
@[simp] theorem rise_img (d : Dev) (e i : Nat) (l : List Byte) : (rise d e i l).img = d.img := by
  rfl
@[simp] theorem rise_bob (d : Dev) (e i : Nat) (l : List Byte) : (rise d e i l).bob = d.bob := by
  rfl

@[simp] theorem fall_phase (d : Dev) (e i : Nat) (l : List Byte) : (fall d e i l).phase = d.phase := by
  rfl
@[simp] theorem fall_free (d : Dev) (e i : Nat) (l : List Byte) : (fall d e i l).free = d.free := by
  rfl
@[simp] theorem fall_out (d : Dev) (e i : Nat) (l : List Byte) : (fall d e i l).out = d.out := by
  rfl
@[simp] theorem fall_pwr (d : Dev) (e i : Nat) (l : List Byte) : (fall d e i l).pwr = d.pwr := by
  rfl
@[simp] theorem fall_glb (d : Dev) (e i : Nat) (l : List Byte) : (fall d e i l).glb = d.glb := by
  rfl
@[simp] theorem fall_start (d : Dev) (e i : Nat) (l : List Byte) : (fall d e i l).start = d.start := by
  rfl
@[simp] theorem fall_pra (d : Dev) (e i : Nat) (l : List Byte) : (fall d e i l).pra = d.pra := by
  rfl
@[simp] theorem fall_whl (d : Dev) (e i : Nat) (l : List Byte) : (fall d e i l).whl = d.whl := by
  rfl
@[simp] theorem fall_spn (d : Dev) (e i : Nat) (l : List Byte) : (fall d e i l).spn = d.spn := by
  rfl
@[simp] theorem fall_region (d : Dev) (e i : Nat) (l : List Byte) : (fall d e i l).region = d.region := by
  rfl
@[simp] theorem fall_wrp (d : Dev) (e i : Nat) (l : List Byte) : (fall d e i l).wrp = d.wrp := by
  rfl
@[simp] theorem fall_ccp (d : Dev) (e i : Nat) (l : List Byte) : (fall d e i l).ccp = d.ccp := by
  rfl
@[simp] theorem fall_sht (d : Dev) (e i : Nat) (l : List Byte) : (fall d e i l).sht = d.sht := by
  rfl
@[simp] theorem fall_que (d : Dev) (e i : Nat) (l : List Byte) : (fall d e i l).que = d.que := by
  rfl
@[simp] theorem fall_crd (d : Dev) (e i : Nat) (l : List Byte) : (fall d e i l).crd = d.crd := by
  rfl
@[simp] theorem fall_ply (d : Dev) (e i : Nat) (l : List Byte) : (fall d e i l).ply = d.ply := by
  rfl
@[simp] theorem fall_dst (d : Dev) (e i : Nat) (l : List Byte) : (fall d e i l).dst = d.dst := by
  rfl
@[simp] theorem fall_img (d : Dev) (e i : Nat) (l : List Byte) : (fall d e i l).img = d.img := by
  rfl
@[simp] theorem fall_bob (d : Dev) (e i : Nat) (l : List Byte) : (fall d e i l).bob = d.bob := by
  rfl

@[simp] theorem watch_phase (d : Dev) (e i : Nat) (a b : Bool) (l : List Byte) : (watch d e i a b l).phase = d.phase := by
  unfold watch; split; · split <;> split <;> simp
  · rfl
@[simp] theorem watch_free (d : Dev) (e i : Nat) (a b : Bool) (l : List Byte) : (watch d e i a b l).free = d.free := by
  unfold watch; split; · split <;> split <;> simp
  · rfl
@[simp] theorem watch_out (d : Dev) (e i : Nat) (a b : Bool) (l : List Byte) : (watch d e i a b l).out = d.out := by
  unfold watch; split; · split <;> split <;> simp
  · rfl
@[simp] theorem watch_pwr (d : Dev) (e i : Nat) (a b : Bool) (l : List Byte) : (watch d e i a b l).pwr = d.pwr := by
  unfold watch; split; · split <;> split <;> simp
  · rfl
@[simp] theorem watch_glb (d : Dev) (e i : Nat) (a b : Bool) (l : List Byte) : (watch d e i a b l).glb = d.glb := by
  unfold watch; split; · split <;> split <;> simp
  · rfl
@[simp] theorem watch_start (d : Dev) (e i : Nat) (a b : Bool) (l : List Byte) : (watch d e i a b l).start = d.start := by
  unfold watch; split; · split <;> split <;> simp
  · rfl
@[simp] theorem watch_pra (d : Dev) (e i : Nat) (a b : Bool) (l : List Byte) : (watch d e i a b l).pra = d.pra := by
  unfold watch; split; · split <;> split <;> simp
  · rfl
@[simp] theorem watch_whl (d : Dev) (e i : Nat) (a b : Bool) (l : List Byte) : (watch d e i a b l).whl = d.whl := by
  unfold watch; split; · split <;> split <;> simp
  · rfl
@[simp] theorem watch_spn (d : Dev) (e i : Nat) (a b : Bool) (l : List Byte) : (watch d e i a b l).spn = d.spn := by
  unfold watch; split; · split <;> split <;> simp
  · rfl
@[simp] theorem watch_region (d : Dev) (e i : Nat) (a b : Bool) (l : List Byte) : (watch d e i a b l).region = d.region := by
  unfold watch; split; · split <;> split <;> simp
  · rfl
@[simp] theorem watch_wrp (d : Dev) (e i : Nat) (a b : Bool) (l : List Byte) : (watch d e i a b l).wrp = d.wrp := by
  unfold watch; split; · split <;> split <;> simp
  · rfl
@[simp] theorem watch_ccp (d : Dev) (e i : Nat) (a b : Bool) (l : List Byte) : (watch d e i a b l).ccp = d.ccp := by
  unfold watch; split; · split <;> split <;> simp
  · rfl
@[simp] theorem watch_sht (d : Dev) (e i : Nat) (a b : Bool) (l : List Byte) : (watch d e i a b l).sht = d.sht := by
  unfold watch; split; · split <;> split <;> simp
  · rfl
@[simp] theorem watch_que (d : Dev) (e i : Nat) (a b : Bool) (l : List Byte) : (watch d e i a b l).que = d.que := by
  unfold watch; split; · split <;> split <;> simp
  · rfl
@[simp] theorem watch_crd (d : Dev) (e i : Nat) (a b : Bool) (l : List Byte) : (watch d e i a b l).crd = d.crd := by
  unfold watch; split; · split <;> split <;> simp
  · rfl
@[simp] theorem watch_ply (d : Dev) (e i : Nat) (a b : Bool) (l : List Byte) : (watch d e i a b l).ply = d.ply := by
  unfold watch; split; · split <;> split <;> simp
  · rfl
@[simp] theorem watch_dst (d : Dev) (e i : Nat) (a b : Bool) (l : List Byte) : (watch d e i a b l).dst = d.dst := by
  unfold watch; split; · split <;> split <;> simp
  · rfl
@[simp] theorem watch_img (d : Dev) (e i : Nat) (a b : Bool) (l : List Byte) : (watch d e i a b l).img = d.img := by
  unfold watch; split; · split <;> split <;> simp
  · rfl
@[simp] theorem watch_bob (d : Dev) (e i : Nat) (a b : Bool) (l : List Byte) : (watch d e i a b l).bob = d.bob := by
  unfold watch; split; · split <;> split <;> simp
  · rfl

@[simp] theorem watchIf_phase (d : Dev) (e : Nat) (a : Bool) : (watchIf d e a).phase = d.phase := by
  simp [watchIf]
@[simp] theorem watchIf_free (d : Dev) (e : Nat) (a : Bool) : (watchIf d e a).free = d.free := by
  simp [watchIf]
@[simp] theorem watchIf_out (d : Dev) (e : Nat) (a : Bool) : (watchIf d e a).out = d.out := by
  simp [watchIf]
@[simp] theorem watchIf_pwr (d : Dev) (e : Nat) (a : Bool) : (watchIf d e a).pwr = d.pwr := by
  simp [watchIf]
@[simp] theorem watchIf_glb (d : Dev) (e : Nat) (a : Bool) : (watchIf d e a).glb = d.glb := by
  simp [watchIf]
@[simp] theorem watchIf_start (d : Dev) (e : Nat) (a : Bool) : (watchIf d e a).start = d.start := by
  simp [watchIf]
@[simp] theorem watchIf_pra (d : Dev) (e : Nat) (a : Bool) : (watchIf d e a).pra = d.pra := by
  simp [watchIf]
@[simp] theorem watchIf_whl (d : Dev) (e : Nat) (a : Bool) : (watchIf d e a).whl = d.whl := by
  simp [watchIf]
@[simp] theorem watchIf_spn (d : Dev) (e : Nat) (a : Bool) : (watchIf d e a).spn = d.spn := by
  simp [watchIf]
@[simp] theorem watchIf_region (d : Dev) (e : Nat) (a : Bool) : (watchIf d e a).region = d.region := by
  simp [watchIf]
@[simp] theorem watchIf_wrp (d : Dev) (e : Nat) (a : Bool) : (watchIf d e a).wrp = d.wrp := by
  simp [watchIf]
@[simp] theorem watchIf_ccp (d : Dev) (e : Nat) (a : Bool) : (watchIf d e a).ccp = d.ccp := by
  simp [watchIf]
@[simp] theorem watchIf_sht (d : Dev) (e : Nat) (a : Bool) : (watchIf d e a).sht = d.sht := by
  simp [watchIf]
@[simp] theorem watchIf_que (d : Dev) (e : Nat) (a : Bool) : (watchIf d e a).que = d.que := by
  simp [watchIf]
@[simp] theorem watchIf_crd (d : Dev) (e : Nat) (a : Bool) : (watchIf d e a).crd = d.crd := by
  simp [watchIf]
@[simp] theorem watchIf_ply (d : Dev) (e : Nat) (a : Bool) : (watchIf d e a).ply = d.ply := by
  simp [watchIf]
@[simp] theorem watchIf_dst (d : Dev) (e : Nat) (a : Bool) : (watchIf d e a).dst = d.dst := by
  simp [watchIf]
@[simp] theorem watchIf_img (d : Dev) (e : Nat) (a : Bool) : (watchIf d e a).img = d.img := by
  simp [watchIf]
@[simp] theorem watchIf_bob (d : Dev) (e : Nat) (a : Bool) : (watchIf d e a).bob = d.bob := by
  simp [watchIf]

@[simp] theorem watchDwell_phase (d : Dev) (e i : Nat) (a b : Bool) (x y z : Nat) (l : List Byte) : (watchDwell d e i a b x y z l).phase = d.phase := by
  unfold watchDwell; dsimp only; repeat' split
  all_goals simp
@[simp] theorem watchDwell_free (d : Dev) (e i : Nat) (a b : Bool) (x y z : Nat) (l : List Byte) : (watchDwell d e i a b x y z l).free = d.free := by
  unfold watchDwell; dsimp only; repeat' split
  all_goals simp
@[simp] theorem watchDwell_out (d : Dev) (e i : Nat) (a b : Bool) (x y z : Nat) (l : List Byte) : (watchDwell d e i a b x y z l).out = d.out := by
  unfold watchDwell; dsimp only; repeat' split
  all_goals simp
@[simp] theorem watchDwell_pwr (d : Dev) (e i : Nat) (a b : Bool) (x y z : Nat) (l : List Byte) : (watchDwell d e i a b x y z l).pwr = d.pwr := by
  unfold watchDwell; dsimp only; repeat' split
  all_goals simp
@[simp] theorem watchDwell_glb (d : Dev) (e i : Nat) (a b : Bool) (x y z : Nat) (l : List Byte) : (watchDwell d e i a b x y z l).glb = d.glb := by
  unfold watchDwell; dsimp only; repeat' split
  all_goals simp
@[simp] theorem watchDwell_start (d : Dev) (e i : Nat) (a b : Bool) (x y z : Nat) (l : List Byte) : (watchDwell d e i a b x y z l).start = d.start := by
  unfold watchDwell; dsimp only; repeat' split
  all_goals simp
@[simp] theorem watchDwell_pra (d : Dev) (e i : Nat) (a b : Bool) (x y z : Nat) (l : List Byte) : (watchDwell d e i a b x y z l).pra = d.pra := by
  unfold watchDwell; dsimp only; repeat' split
  all_goals simp
@[simp] theorem watchDwell_whl (d : Dev) (e i : Nat) (a b : Bool) (x y z : Nat) (l : List Byte) : (watchDwell d e i a b x y z l).whl = d.whl := by
  unfold watchDwell; dsimp only; repeat' split
  all_goals simp
@[simp] theorem watchDwell_spn (d : Dev) (e i : Nat) (a b : Bool) (x y z : Nat) (l : List Byte) : (watchDwell d e i a b x y z l).spn = d.spn := by
  unfold watchDwell; dsimp only; repeat' split
  all_goals simp
@[simp] theorem watchDwell_region (d : Dev) (e i : Nat) (a b : Bool) (x y z : Nat) (l : List Byte) : (watchDwell d e i a b x y z l).region = d.region := by
  unfold watchDwell; dsimp only; repeat' split
  all_goals simp
@[simp] theorem watchDwell_wrp (d : Dev) (e i : Nat) (a b : Bool) (x y z : Nat) (l : List Byte) : (watchDwell d e i a b x y z l).wrp = d.wrp := by
  unfold watchDwell; dsimp only; repeat' split
  all_goals simp
@[simp] theorem watchDwell_ccp (d : Dev) (e i : Nat) (a b : Bool) (x y z : Nat) (l : List Byte) : (watchDwell d e i a b x y z l).ccp = d.ccp := by
  unfold watchDwell; dsimp only; repeat' split
  all_goals simp
@[simp] theorem watchDwell_sht (d : Dev) (e i : Nat) (a b : Bool) (x y z : Nat) (l : List Byte) : (watchDwell d e i a b x y z l).sht = d.sht := by
  unfold watchDwell; dsimp only; repeat' split
  all_goals simp
@[simp] theorem watchDwell_que (d : Dev) (e i : Nat) (a b : Bool) (x y z : Nat) (l : List Byte) : (watchDwell d e i a b x y z l).que = d.que := by
  unfold watchDwell; dsimp only; repeat' split
  all_goals simp
@[simp] theorem watchDwell_crd (d : Dev) (e i : Nat) (a b : Bool) (x y z : Nat) (l : List Byte) : (watchDwell d e i a b x y z l).crd = d.crd := by
  unfold watchDwell; dsimp only; repeat' split
  all_goals simp
@[simp] theorem watchDwell_ply (d : Dev) (e i : Nat) (a b : Bool) (x y z : Nat) (l : List Byte) : (watchDwell d e i a b x y z l).ply = d.ply := by
  unfold watchDwell; dsimp only; repeat' split
  all_goals simp
@[simp] theorem watchDwell_dst (d : Dev) (e i : Nat) (a b : Bool) (x y z : Nat) (l : List Byte) : (watchDwell d e i a b x y z l).dst = d.dst := by
  unfold watchDwell; dsimp only; repeat' split
  all_goals simp
@[simp] theorem watchDwell_img (d : Dev) (e i : Nat) (a b : Bool) (x y z : Nat) (l : List Byte) : (watchDwell d e i a b x y z l).img = d.img := by
  unfold watchDwell; dsimp only; repeat' split
  all_goals simp
@[simp] theorem watchDwell_bob (d : Dev) (e i : Nat) (a b : Bool) (x y z : Nat) (l : List Byte) : (watchDwell d e i a b x y z l).bob = d.bob := by
  unfold watchDwell; dsimp only; repeat' split
  all_goals simp

/-! ## What a report says -/

theorem Phase.fwRuns_ctrlRuns {p : Phase} (h : p.fwRuns = true) : p.ctrlRuns = true ∧ p.deferring = false := by
  cases p <;> simp_all [Phase.fwRuns, Phase.ctrlRuns, Phase.deferring]

@[simp] theorem Evt.src_push (v : Evt) (l : LogEntry) (e : Nat) : (v.push l).src e = v.src e := rfl

/-- A report changes its source's STICKY and the instant it was set, and nothing else of any source. -/
theorem reportNow_src (d : Dev) (e k : Nat) (l : List Byte) :
    (reportNow d e l).evt.src k = (d.evt.modSrc e (fun s => { s with sticky := true, setAt := some d.pwr.wall })).src k := by
  unfold reportNow; dsimp only; split <;> rfl

theorem report_src (d : Dev) (e k : Nat) (l : List Byte) (h : d.phase.fwRuns = true) :
    (report d e l).evt.src k = (d.evt.modSrc e (fun s => { s with sticky := true, setAt := some d.pwr.wall })).src k := by
  simp [report, Phase.fwRuns_ctrlRuns h, reportNow_src]

/-- While the firmware runs, a report sets STICKY of its source. -/
theorem report_sticky (d : Dev) (e : Nat) (l : List Byte) (h : d.phase.fwRuns = true) :
    ((report d e l).evt.src e).sticky = true := by
  simp [report_src _ _ _ _ h]

theorem report_src_other (d : Dev) (e k : Nat) (l : List Byte) (h : d.phase.fwRuns = true) (hk : e ≠ k) :
    (report d e l).evt.src k = d.evt.src k := by
  rw [report_src _ _ _ _ h, Evt.src_modSrc_other _ _ _ _ hk]

/-- A watermark source whose condition holds is live after its evaluation. -/
theorem watchIf_live (d : Dev) (e : Nat) (h : d.phase.fwRuns = true) : (watchIf d e true).evt.liveAt e 0 = true := by
  unfold watchIf watch; simp only [h, if_true]
  split
  · simpa using ‹_›
  · simp [rise, Evt.liveAt]

/-- A watermark source whose condition does not hold is not live after its evaluation. -/
theorem watchIf_not_live (d : Dev) (e : Nat) (h : d.phase.fwRuns = true) : (watchIf d e false).evt.liveAt e 0 = false := by
  unfold watchIf watch; simp only [h, if_true]
  split
  · simp [fall, Evt.liveAt]
  · rename_i hl; simpa using hl

theorem watch_src_other (d : Dev) (e i k : Nat) (a b : Bool) (l : List Byte) (h : e ≠ k) :
    (watch d e i a b l).evt.src k = d.evt.src k := by
  unfold watch rise fall; dsimp only; repeat' split
  all_goals simp [Evt.src_modSrc_other _ _ _ _ h]

end Sys2Proof.Machine
end

