-- ==== Sys2Proof/Laws/Array.lean ====
section
/-! SUPPORT. The persistent register array: what each of its operations writes, and that every one keeps the array's canonical
form and its budget (R51 to R55). -/

namespace Sys2Proof.Machine

/-! ## What the operations write -/

@[simp] theorem Pra.charge_words (p : Pra) (n : Nat) : (p.charge n).words = p.words := rfl
@[simp] theorem Pra.charge_queue (p : Pra) (n : Nat) : (p.charge n).queue = p.queue := rfl
@[simp] theorem Pra.charge_busy (p : Pra) (n : Nat) : (p.charge n).busy = p.busy := rfl
@[simp] theorem Pra.charge_word (p : Pra) (n m : Nat) : (p.charge n).word m = p.word m := rfl

@[simp] theorem Pra.commit_word_same (p : Pra) (n : Nat) (v : Word) : (p.commit n v).word n = v := by
  simp [Pra.commit, Pra.word]

theorem Pra.commit_word_other (p : Pra) (n m : Nat) (v : Word) (h : n ≠ m) : (p.commit n v).word m = p.word m := by
  simp [Pra.commit, Pra.word, kgetD_ksetD_other _ _ _ _ _ _ h]

/-- A completed write takes one token of its word's bucket, where it holds one. -/
theorem Pra.charge_tokens_same (p : Pra) (n : Nat) (h : 0 < p.tokens n) : (p.charge n).tokens n + 1 = p.tokens n := by
  simp only [Pra.charge, Pra.tokens, kgetD_kput_same] at *; omega

theorem Pra.charge_tokens_other (p : Pra) (n m : Nat) (h : n ≠ m) : (p.charge n).tokens m = p.tokens m := by
  simp [Pra.charge, Pra.tokens, kgetD_kput_other _ _ _ _ _ h]

/-! ## The canonical form and the budget -/

/-- The array is in its canonical form and within its budget. -/
def Pra.Good (p : Pra) : Prop := p.wf = true ∧ p.budgetOk = true

theorem Pra.good_iff (p : Pra) : p.Good ↔ ksorted p.words = true ∧ p.words.all (fun q => q.2 != 0) = true ∧ ksorted p.wear = true
    ∧ p.wear.all (fun q => q.2 != 0) = true ∧ ksorted p.spent = true ∧ p.spent.all (fun q => decide (q.2 ≤ 4096)) = true := by
  simp only [Pra.Good, Pra.wf, Pra.budgetOk, Bool.and_eq_true]; tauto

/-- Only words, wear and buckets matter. -/
theorem Pra.Good.of_eq {p q : Pra} (h : p.Good) (hw : q.words = p.words) (hr : q.wear = p.wear) (hs : q.spent = p.spent) :
    q.Good := by
  simp only [Pra.good_iff, hw, hr, hs] at *; exact h

theorem ksetD_all_ne {α : Type} [DecidableEq α] (m : KMap α) (k : Nat) (v d : α) (h : m.all (fun q => q.2 != d) = true) :
    (ksetD m k v d).all (fun q => q.2 != d) = true := by
  unfold ksetD; split
  · exact all_filter m _ _ h
  · rename_i hv; exact all_kput m k v _ (by simpa using hv) h

theorem Pra.Good.charge {p : Pra} (h : p.Good) (n : Nat) : (p.charge n).Good := by
  rw [Pra.good_iff] at *
  obtain ⟨h1, h2, h3, h4, h5, h6⟩ := h
  refine ⟨h1, h2, ksorted_ksetD _ _ _ _ h3, ksetD_all_ne _ _ _ _ h4, ksorted_kput _ _ _ h5, all_kput _ _ _ _ ?_ h6⟩
  simp

theorem Pra.Good.commit {p : Pra} (h : p.Good) (n : Nat) (v : Word) : (p.commit n v).Good := by
  have hc := h.charge n
  rw [Pra.good_iff] at hc ⊢
  obtain ⟨h1, h2, h3, h4, h5, h6⟩ := hc
  exact ⟨ksorted_ksetD _ _ _ _ h1, ksetD_all_ne _ _ _ _ h2, h3, h4, h5, h6⟩

theorem Pra.Good.refill {p : Pra} (h : p.Good) (k : Nat) : (p.refill k).Good := by
  rw [Pra.good_iff] at *
  obtain ⟨h1, h2, h3, h4, h5, h6⟩ := h
  refine ⟨h1, h2, h3, h4, ksortedFrom_filter _ 0 _ (ksortedFrom_map _ 0 (fun q => q.2 - k) h5), all_filter _ _ _ ?_⟩
  simp only [List.all_eq_true, List.mem_map, decide_eq_true_eq] at h6 ⊢
  rintro x ⟨y, hy, rfl⟩
  have := h6 y hy
  dsimp only
  omega

theorem Pra.Good.initBuckets {p : Pra} (h : p.Good) : p.initBuckets.Good := by
  rw [Pra.good_iff] at *
  obtain ⟨h1, h2, h3, h4, h5, h6⟩ := h
  refine ⟨h1, h2, h3, h4, ksortedFrom_filter _ 0 _ (ksortedFrom_map _ 0 _ h3), all_filter _ _ _ ?_⟩
  simp only [List.all_eq_true, List.mem_map, decide_eq_true_eq]
  rintro x ⟨y, -, rfl⟩
  dsimp only
  omega

/-! ## The writes of the firmware and the ROM -/

@[simp] theorem Pra.refill_word (p : Pra) (k n : Nat) : (p.refill k).word n = p.word n := rfl
@[simp] theorem praLow_pra (d : Dev) : (praLow d).pra = d.pra := by simp [praLow]

@[simp] theorem praDue_word (d : Dev) (n : Nat) : (praDue d).pra.word n = d.pra.word n := by
  unfold praDue; dsimp only; split <;> simp

theorem Pra.Good.praDue {d : Dev} (h : d.pra.Good) : (praDue d).pra.Good := by
  unfold Machine.praDue; dsimp only; split
  · exact h
  · simpa using h.refill _

/-- A write that found a token and whose verify passes leaves its word at the value (R51). -/
theorem praFinish_ok_word (d : Dev) (n : Nat) (v : Word) : (praFinish d n v true).1.pra.word n = v := by simp [praFinish]

theorem praFinish_fault_word (d : Dev) (n m : Nat) (v : Word) : (praFinish d n v false).1.pra.word m = d.pra.word m := by
  simp [praFinish]

theorem praFinish_word_other (d : Dev) (n m : Nat) (v : Word) (ok : Bool) (h : n ≠ m) :
    (praFinish d n v ok).1.pra.word m = d.pra.word m := by
  cases ok <;> simp [praFinish, Pra.commit_word_other _ _ _ _ h]

theorem Pra.Good.praFinish {d : Dev} (h : d.pra.Good) (n : Nat) (v : Word) (ok : Bool) : (praFinish d n v ok).1.pra.Good := by
  cases ok <;> simp [Machine.praFinish]
  · exact h.charge n
  · exact h.commit n v

/-- A write of the ROM or of the firmware at a start leaves its word at the value, whether or not it waited (R56). -/
@[simp] theorem praWait_word_same (d : Dev) (n : Nat) (v : Word) : (praWait d n v true).1.pra.word n = v := by
  simp [praWait, praFinish_ok_word]

theorem praWait_word_other (d : Dev) (n m : Nat) (v : Word) (ok : Bool) (h : n ≠ m) :
    (praWait d n v ok).1.pra.word m = d.pra.word m := by
  simp only [praWait, praFinish_word_other _ _ _ _ _ h]
  split <;> simp

theorem Pra.Good.praWait {d : Dev} (h : d.pra.Good) (n : Nat) (v : Word) (ok : Bool) : (praWait d n v ok).1.pra.Good := by
  simp only [Machine.praWait]
  apply Pra.Good.praFinish
  split
  · exact Pra.Good.praDue (by simpa using h.praDue)
  · exact h.praDue

theorem Pra.Good.praSkip {d : Dev} (h : d.pra.Good) (n : Nat) (v : Word) (ok : Bool) : (praSkip d n v ok).pra.Good := by
  unfold Machine.praSkip; dsimp only; split
  · exact h.praDue
  · split
    · exact Pra.Good.praFinish h.praDue n v ok
    · exact h.praDue.of_eq rfl rfl rfl

theorem Pra.Good.praOwn {d : Dev} (h : d.pra.Good) (n : Nat) (v : Word) (ok : Bool) : (praOwn d n v ok).1.pra.Good := by
  unfold Machine.praOwn; dsimp only; split
  · simpa [praRefuse] using h.praDue
  · exact Pra.Good.praFinish h.praDue n v ok

@[simp] theorem praLow_phase (d : Dev) : (praLow d).phase = d.phase := by simp [praLow]
@[simp] theorem praDue_phase (d : Dev) : (praDue d).phase = d.phase := by unfold praDue; dsimp only; split <;> simp
@[simp] theorem praFinish_phase (d : Dev) (n : Nat) (v : Word) (ok : Bool) : (praFinish d n v ok).1.phase = d.phase := by
  cases ok <;> simp [praFinish]
@[simp] theorem praLow_free (d : Dev) : (praLow d).free = d.free := by simp [praLow]
@[simp] theorem praDue_free (d : Dev) : (praDue d).free = d.free := by unfold praDue; dsimp only; split <;> simp
@[simp] theorem praFinish_free (d : Dev) (n : Nat) (v : Word) (ok : Bool) : (praFinish d n v ok).1.free = d.free := by
  cases ok <;> simp [praFinish]
@[simp] theorem praLow_out (d : Dev) : (praLow d).out = d.out := by simp [praLow]
@[simp] theorem praDue_out (d : Dev) : (praDue d).out = d.out := by unfold praDue; dsimp only; split <;> simp
@[simp] theorem praFinish_out (d : Dev) (n : Nat) (v : Word) (ok : Bool) : (praFinish d n v ok).1.out = d.out := by
  cases ok <;> simp [praFinish]
@[simp] theorem praLow_pwr (d : Dev) : (praLow d).pwr = d.pwr := by simp [praLow]
@[simp] theorem praDue_pwr (d : Dev) : (praDue d).pwr = d.pwr := by unfold praDue; dsimp only; split <;> simp
@[simp] theorem praFinish_pwr (d : Dev) (n : Nat) (v : Word) (ok : Bool) : (praFinish d n v ok).1.pwr = d.pwr := by
  cases ok <;> simp [praFinish]
@[simp] theorem praLow_glb (d : Dev) : (praLow d).glb = d.glb := by simp [praLow]
@[simp] theorem praDue_glb (d : Dev) : (praDue d).glb = d.glb := by unfold praDue; dsimp only; split <;> simp
@[simp] theorem praFinish_glb (d : Dev) (n : Nat) (v : Word) (ok : Bool) : (praFinish d n v ok).1.glb = d.glb := by
  cases ok <;> simp [praFinish]
@[simp] theorem praLow_start (d : Dev) : (praLow d).start = d.start := by simp [praLow]
@[simp] theorem praDue_start (d : Dev) : (praDue d).start = d.start := by unfold praDue; dsimp only; split <;> simp
@[simp] theorem praLow_whl (d : Dev) : (praLow d).whl = d.whl := by simp [praLow]
@[simp] theorem praDue_whl (d : Dev) : (praDue d).whl = d.whl := by unfold praDue; dsimp only; split <;> simp
@[simp] theorem praFinish_whl (d : Dev) (n : Nat) (v : Word) (ok : Bool) : (praFinish d n v ok).1.whl = d.whl := by
  cases ok <;> simp [praFinish]
@[simp] theorem praLow_spn (d : Dev) : (praLow d).spn = d.spn := by simp [praLow]
@[simp] theorem praDue_spn (d : Dev) : (praDue d).spn = d.spn := by unfold praDue; dsimp only; split <;> simp
@[simp] theorem praFinish_spn (d : Dev) (n : Nat) (v : Word) (ok : Bool) : (praFinish d n v ok).1.spn = d.spn := by
  cases ok <;> simp [praFinish]
@[simp] theorem praLow_region (d : Dev) : (praLow d).region = d.region := by simp [praLow]
@[simp] theorem praDue_region (d : Dev) : (praDue d).region = d.region := by unfold praDue; dsimp only; split <;> simp
@[simp] theorem praFinish_region (d : Dev) (n : Nat) (v : Word) (ok : Bool) : (praFinish d n v ok).1.region = d.region := by
  cases ok <;> simp [praFinish]
@[simp] theorem praLow_wrp (d : Dev) : (praLow d).wrp = d.wrp := by simp [praLow]
@[simp] theorem praDue_wrp (d : Dev) : (praDue d).wrp = d.wrp := by unfold praDue; dsimp only; split <;> simp
@[simp] theorem praFinish_wrp (d : Dev) (n : Nat) (v : Word) (ok : Bool) : (praFinish d n v ok).1.wrp = d.wrp := by
  cases ok <;> simp [praFinish]
@[simp] theorem praLow_ccp (d : Dev) : (praLow d).ccp = d.ccp := by simp [praLow]
@[simp] theorem praDue_ccp (d : Dev) : (praDue d).ccp = d.ccp := by unfold praDue; dsimp only; split <;> simp
@[simp] theorem praFinish_ccp (d : Dev) (n : Nat) (v : Word) (ok : Bool) : (praFinish d n v ok).1.ccp = d.ccp := by
  cases ok <;> simp [praFinish]
@[simp] theorem praLow_sht (d : Dev) : (praLow d).sht = d.sht := by simp [praLow]
@[simp] theorem praDue_sht (d : Dev) : (praDue d).sht = d.sht := by unfold praDue; dsimp only; split <;> simp
@[simp] theorem praFinish_sht (d : Dev) (n : Nat) (v : Word) (ok : Bool) : (praFinish d n v ok).1.sht = d.sht := by
  cases ok <;> simp [praFinish]
@[simp] theorem praLow_que (d : Dev) : (praLow d).que = d.que := by simp [praLow]
@[simp] theorem praDue_que (d : Dev) : (praDue d).que = d.que := by unfold praDue; dsimp only; split <;> simp
@[simp] theorem praFinish_que (d : Dev) (n : Nat) (v : Word) (ok : Bool) : (praFinish d n v ok).1.que = d.que := by
  cases ok <;> simp [praFinish]
@[simp] theorem praLow_crd (d : Dev) : (praLow d).crd = d.crd := by simp [praLow]
@[simp] theorem praDue_crd (d : Dev) : (praDue d).crd = d.crd := by unfold praDue; dsimp only; split <;> simp
@[simp] theorem praFinish_crd (d : Dev) (n : Nat) (v : Word) (ok : Bool) : (praFinish d n v ok).1.crd = d.crd := by
  cases ok <;> simp [praFinish]
@[simp] theorem praLow_ply (d : Dev) : (praLow d).ply = d.ply := by simp [praLow]
@[simp] theorem praDue_ply (d : Dev) : (praDue d).ply = d.ply := by unfold praDue; dsimp only; split <;> simp
@[simp] theorem praFinish_ply (d : Dev) (n : Nat) (v : Word) (ok : Bool) : (praFinish d n v ok).1.ply = d.ply := by
  cases ok <;> simp [praFinish]
@[simp] theorem praLow_dst (d : Dev) : (praLow d).dst = d.dst := by simp [praLow]
@[simp] theorem praDue_dst (d : Dev) : (praDue d).dst = d.dst := by unfold praDue; dsimp only; split <;> simp
@[simp] theorem praFinish_dst (d : Dev) (n : Nat) (v : Word) (ok : Bool) : (praFinish d n v ok).1.dst = d.dst := by
  cases ok <;> simp [praFinish]
@[simp] theorem praLow_img (d : Dev) : (praLow d).img = d.img := by simp [praLow]
@[simp] theorem praDue_img (d : Dev) : (praDue d).img = d.img := by unfold praDue; dsimp only; split <;> simp
@[simp] theorem praFinish_img (d : Dev) (n : Nat) (v : Word) (ok : Bool) : (praFinish d n v ok).1.img = d.img := by
  cases ok <;> simp [praFinish]
@[simp] theorem praLow_bob (d : Dev) : (praLow d).bob = d.bob := by simp [praLow]
@[simp] theorem praDue_bob (d : Dev) : (praDue d).bob = d.bob := by unfold praDue; dsimp only; split <;> simp
@[simp] theorem praFinish_bob (d : Dev) (n : Nat) (v : Word) (ok : Bool) : (praFinish d n v ok).1.bob = d.bob := by
  cases ok <;> simp [praFinish]
@[simp] theorem praWait_phase (d : Dev) (n : Nat) (v : Word) (ok : Bool) : (praWait d n v ok).1.phase = d.phase := by
  simp only [praWait, praFinish_phase]; split <;> simp
@[simp] theorem praWait_free (d : Dev) (n : Nat) (v : Word) (ok : Bool) : (praWait d n v ok).1.free = d.free := by
  simp only [praWait, praFinish_free]; split <;> simp
@[simp] theorem praWait_out (d : Dev) (n : Nat) (v : Word) (ok : Bool) : (praWait d n v ok).1.out = d.out := by
  simp only [praWait, praFinish_out]; split <;> simp
@[simp] theorem praWait_spn (d : Dev) (n : Nat) (v : Word) (ok : Bool) : (praWait d n v ok).1.spn = d.spn := by
  simp only [praWait, praFinish_spn]; split <;> simp
@[simp] theorem praWait_region (d : Dev) (n : Nat) (v : Word) (ok : Bool) : (praWait d n v ok).1.region = d.region := by
  simp only [praWait, praFinish_region]; split <;> simp
@[simp] theorem praWait_wrp (d : Dev) (n : Nat) (v : Word) (ok : Bool) : (praWait d n v ok).1.wrp = d.wrp := by
  simp only [praWait, praFinish_wrp]; split <;> simp
@[simp] theorem praWait_ccp (d : Dev) (n : Nat) (v : Word) (ok : Bool) : (praWait d n v ok).1.ccp = d.ccp := by
  simp only [praWait, praFinish_ccp]; split <;> simp
@[simp] theorem praWait_sht (d : Dev) (n : Nat) (v : Word) (ok : Bool) : (praWait d n v ok).1.sht = d.sht := by
  simp only [praWait, praFinish_sht]; split <;> simp
@[simp] theorem praWait_que (d : Dev) (n : Nat) (v : Word) (ok : Bool) : (praWait d n v ok).1.que = d.que := by
  simp only [praWait, praFinish_que]; split <;> simp
@[simp] theorem praWait_crd (d : Dev) (n : Nat) (v : Word) (ok : Bool) : (praWait d n v ok).1.crd = d.crd := by
  simp only [praWait, praFinish_crd]; split <;> simp
@[simp] theorem praWait_ply (d : Dev) (n : Nat) (v : Word) (ok : Bool) : (praWait d n v ok).1.ply = d.ply := by
  simp only [praWait, praFinish_ply]; split <;> simp
@[simp] theorem praWait_dst (d : Dev) (n : Nat) (v : Word) (ok : Bool) : (praWait d n v ok).1.dst = d.dst := by
  simp only [praWait, praFinish_dst]; split <;> simp
@[simp] theorem praWait_img (d : Dev) (n : Nat) (v : Word) (ok : Bool) : (praWait d n v ok).1.img = d.img := by
  simp only [praWait, praFinish_img]; split <;> simp
@[simp] theorem praWait_bob (d : Dev) (n : Nat) (v : Word) (ok : Bool) : (praWait d n v ok).1.bob = d.bob := by
  simp only [praWait, praFinish_bob]; split <;> simp

end Sys2Proof.Machine
end

