-- ==== Sys2Proof/Laws/Only.lean ====
section
/-! SUPPORT. What an operation may change: `Only l a b` composes, and one lemma for each record update lists what it changes. -/

namespace Sys2Proof.Machine

set_option Elab.async false
set_option linter.unusedTactic false

/-- Every component of `q` is in `l`. -/
def Part.sub (q l : List Part) : Bool := q.all (fun p => l.contains p)

theorem Part.sub_trans {p q l : List Part} (h : Part.sub p q = true) (k : Part.sub q l = true) : Part.sub p l = true := by
  simp only [Part.sub, List.all_eq_true, List.contains_iff_mem] at *
  exact fun x hx => k x (h x hx)

theorem Only.refl (l : List Part) (a : Dev) : Only l a a := ⟨fun p _ => by cases p <;> rfl⟩

theorem Only.trans {l : List Part} {a b c : Dev} (h : Only l a b) (k : Only l b c) : Only l a c := ⟨fun p hp => by
  have h1 := h.same p hp; have h2 := k.same p hp
  cases p <;> simp_all [Part.same]⟩

theorem Only.mono {q l : List Part} {a b : Dev} (h : Only q a b) (s : Part.sub q l = true) : Only l a b := ⟨fun p hp =>
  h.same p (fun hq => hp (by simp only [Part.sub, List.all_eq_true] at s; simpa using s p hq))⟩

/-- One more operation. -/
theorem Only.of {q l : List Part} {a x y : Dev} (h : Only q x y) (s : Part.sub q l = true) (k : Only l a x) : Only l a y :=
  k.trans (h.mono s)

theorem Only.each {α : Type} {l : List Part} {a d : Dev} {xs : List α} {f : Dev → α → Dev} (h : Only l a d)
    (k : ∀ e x, Only l e (f e x)) : Only l a (each xs f d) := by
  unfold Sys2Proof.Machine.each
  induction xs generalizing d with
  | nil => exact h
  | cons x r ih => exact ih (h.trans (k d x))

theorem Only.ite {c : Prop} [Decidable c] {l : List Part} {a x y : Dev} (h : Only l a x) (k : Only l a y) :
    Only l a (if c then x else y) := by split <;> assumption

theorem Only.id {l : List Part} {a d : Dev} (h : Only l a d) : Only l a (id d) := h
/-- An optional result, if there is one, changes only the components listed. -/
structure OnlyO (l : List Part) (a : Dev) (o : Option (Dev × Status)) : Prop where
  only : ∀ r, o = some r → Only l a r.1

theorem OnlyO.some {l : List Part} {a : Dev} {x : Dev × Status} (h : Only l a x.1) : OnlyO l a (some x) := ⟨fun _ e => by
  cases e; exact h⟩
theorem OnlyO.ite {c : Prop} [Decidable c] {l : List Part} {a : Dev} {x y : Option (Dev × Status)} (h : OnlyO l a x)
    (k : OnlyO l a y) : OnlyO l a (if c then x else y) := by split <;> assumption
theorem OnlyO.none {l : List Part} {a : Dev} : OnlyO l a none := ⟨fun _ e => by cases e⟩
theorem OnlyO.get {l : List Part} {a : Dev} {o : Option (Dev × Status)} {r : Dev × Status} (h : o = Option.some r)
    (k : OnlyO l a o) : Only l a r.1 := k.only r h
theorem OnlyO.get1 {l : List Part} {a y : Dev} {o : Option (Dev × Status)} {x : Status} (h : o = Option.some (y, x))
    (k : OnlyO l a o) : Only l a y := k.only _ h
theorem OnlyO.getD {l : List Part} {a : Dev} {o : Option (Dev × Status)} {x : Dev × Status} (k : OnlyO l a o)
    (h : Only l a x.1) : Only l a (o.getD x).1 := by
  cases o with
  | none => exact h
  | some r => exact k.only r rfl
theorem OnlyO.of {q l : List Part} {a x : Dev} {o : Option (Dev × Status)} (h : OnlyO q x o) (s : Part.sub q l = true)
    (k : Only l a x) : OnlyO l a o := ⟨fun r e => Only.of (h.only r e) s k⟩

theorem Only.fst {α : Type} {l : List Part} {a y : Dev} {r : Dev × α} {x : α} (h : r = (y, x))
    (k : Only l a r.1) : Only l a y := by
  subst h; exact k
theorem Only.snd {α : Type} {l : List Part} {a y : Dev} {r : α × Dev} {x : α} (h : r = (x, y))
    (k : Only l a r.2) : Only l a y := by
  subst h; exact k
theorem Only.snd2 {α β : Type} {l : List Part} {a y : Dev} {r : α × β × Dev} {x : α} {z : β} (h : r = (x, z, y))
    (k : Only l a r.2.2) : Only l a y := by
  subst h; exact k

theorem Only.rec_out {l : List Part} {a x : Dev} {v0 : List Output} (s : Part.sub [.out] l = true) (k : Only l a x) :
    Only l a { x with out := v0 } :=
  k.trans (Only.mono ⟨fun p hp => by cases p <;> first | rfl | exact absurd hp (by decide)⟩ s)
theorem Only.rec_free {l : List Part} {a x : Dev} {v0 : Nat} (s : Part.sub [.free] l = true) (k : Only l a x) :
    Only l a { x with free := v0 } :=
  k.trans (Only.mono ⟨fun p hp => by cases p <;> first | rfl | exact absurd hp (by decide)⟩ s)
theorem Only.rec_bob {l : List Part} {a x : Dev} {v0 : Bob} (s : Part.sub [.bob] l = true) (k : Only l a x) :
    Only l a { x with bob := v0 } :=
  k.trans (Only.mono ⟨fun p hp => by cases p <;> first | rfl | exact absurd hp (by decide)⟩ s)
theorem Only.rec_ccp {l : List Part} {a x : Dev} {v0 : Ccp} (s : Part.sub [.ccp] l = true) (k : Only l a x) :
    Only l a { x with ccp := v0 } :=
  k.trans (Only.mono ⟨fun p hp => by cases p <;> first | rfl | exact absurd hp (by decide)⟩ s)
theorem Only.rec_ccp_ply_img {l : List Part} {a x : Dev} {v0 : Ccp} {v1 : Ply} {v2 : Img}
    (s : Part.sub [.ccp, .ply, .img] l = true) (k : Only l a x) :
    Only l a { x with ccp := v0, ply := v1, img := v2 } :=
  k.trans (Only.mono ⟨fun p hp => by cases p <;> first | rfl | exact absurd hp (by decide)⟩ s)
theorem Only.rec_crd {l : List Part} {a x : Dev} {v0 : Crd} (s : Part.sub [.crd] l = true) (k : Only l a x) :
    Only l a { x with crd := v0 } :=
  k.trans (Only.mono ⟨fun p hp => by cases p <;> first | rfl | exact absurd hp (by decide)⟩ s)
theorem Only.rec_dst {l : List Part} {a x : Dev} {v0 : Dst} (s : Part.sub [.dst] l = true) (k : Only l a x) :
    Only l a { x with dst := v0 } :=
  k.trans (Only.mono ⟨fun p hp => by cases p <;> first | rfl | exact absurd hp (by decide)⟩ s)
theorem Only.rec_evt {l : List Part} {a x : Dev} {v0 : Evt} (s : Part.sub [.evt] l = true) (k : Only l a x) :
    Only l a { x with evt := v0 } :=
  k.trans (Only.mono ⟨fun p hp => by cases p <;> first | rfl | exact absurd hp (by decide)⟩ s)
theorem Only.rec_glb {l : List Part} {a x : Dev} {v0 : Glb} (s : Part.sub [.glb] l = true) (k : Only l a x) :
    Only l a { x with glb := v0 } :=
  k.trans (Only.mono ⟨fun p hp => by cases p <;> first | rfl | exact absurd hp (by decide)⟩ s)
theorem Only.rec_img {l : List Part} {a x : Dev} {v0 : Img} (s : Part.sub [.img] l = true) (k : Only l a x) :
    Only l a { x with img := v0 } :=
  k.trans (Only.mono ⟨fun p hp => by cases p <;> first | rfl | exact absurd hp (by decide)⟩ s)
theorem Only.rec_phase {l : List Part} {a x : Dev} {v0 : Phase} (s : Part.sub [.phase] l = true) (k : Only l a x) :
    Only l a { x with phase := v0 } :=
  k.trans (Only.mono ⟨fun p hp => by cases p <;> first | rfl | exact absurd hp (by decide)⟩ s)
theorem Only.rec_phase_dst_glb_pwr {l : List Part} {a x : Dev} {v0 : Phase} {v1 : Dst} {v2 : Glb} {v3 : Pwr}
    (s : Part.sub [.phase, .dst, .glb, .pwr] l = true) (k : Only l a x) :
    Only l a { x with phase := v0, dst := v1, glb := v2, pwr := v3 } :=
  k.trans (Only.mono ⟨fun p hp => by cases p <;> first | rfl | exact absurd hp (by decide)⟩ s)
theorem Only.rec_phase_pra {l : List Part} {a x : Dev} {v0 : Phase} {v1 : Pra} (s : Part.sub [.phase, .pra] l = true)
    (k : Only l a x) :
    Only l a { x with phase := v0, pra := v1 } :=
  k.trans (Only.mono ⟨fun p hp => by cases p <;> first | rfl | exact absurd hp (by decide)⟩ s)
theorem Only.rec_phase_pwr {l : List Part} {a x : Dev} {v0 : Phase} {v1 : Pwr} (s : Part.sub [.phase, .pwr] l = true)
    (k : Only l a x) :
    Only l a { x with phase := v0, pwr := v1 } :=
  k.trans (Only.mono ⟨fun p hp => by cases p <;> first | rfl | exact absurd hp (by decide)⟩ s)
theorem Only.rec_phase_pwr_dst {l : List Part} {a x : Dev} {v0 : Phase} {v1 : Pwr} {v2 : Dst}
    (s : Part.sub [.phase, .pwr, .dst] l = true) (k : Only l a x) :
    Only l a { x with phase := v0, pwr := v1, dst := v2 } :=
  k.trans (Only.mono ⟨fun p hp => by cases p <;> first | rfl | exact absurd hp (by decide)⟩ s)
theorem Only.rec_phase_start {l : List Part} {a x : Dev} {v0 : Phase} {v1 : Start} (s : Part.sub [.phase, .start] l = true)
    (k : Only l a x) :
    Only l a { x with phase := v0, start := v1 } :=
  k.trans (Only.mono ⟨fun p hp => by cases p <;> first | rfl | exact absurd hp (by decide)⟩ s)
theorem Only.rec_ply {l : List Part} {a x : Dev} {v0 : Ply} (s : Part.sub [.ply] l = true) (k : Only l a x) :
    Only l a { x with ply := v0 } :=
  k.trans (Only.mono ⟨fun p hp => by cases p <;> first | rfl | exact absurd hp (by decide)⟩ s)
theorem Only.rec_pra {l : List Part} {a x : Dev} {v0 : Pra} (s : Part.sub [.pra] l = true) (k : Only l a x) :
    Only l a { x with pra := v0 } :=
  k.trans (Only.mono ⟨fun p hp => by cases p <;> first | rfl | exact absurd hp (by decide)⟩ s)
theorem Only.rec_pwr {l : List Part} {a x : Dev} {v0 : Pwr} (s : Part.sub [.pwr] l = true) (k : Only l a x) :
    Only l a { x with pwr := v0 } :=
  k.trans (Only.mono ⟨fun p hp => by cases p <;> first | rfl | exact absurd hp (by decide)⟩ s)
theorem Only.rec_que {l : List Part} {a x : Dev} {v0 : Que} (s : Part.sub [.que] l = true) (k : Only l a x) :
    Only l a { x with que := v0 } :=
  k.trans (Only.mono ⟨fun p hp => by cases p <;> first | rfl | exact absurd hp (by decide)⟩ s)
theorem Only.rec_que_crd {l : List Part} {a x : Dev} {v0 : Que} {v1 : Crd} (s : Part.sub [.que, .crd] l = true) (k : Only l a x) :
    Only l a { x with que := v0, crd := v1 } :=
  k.trans (Only.mono ⟨fun p hp => by cases p <;> first | rfl | exact absurd hp (by decide)⟩ s)
theorem Only.rec_region {l : List Part} {a x : Dev} {v0 : Region} (s : Part.sub [.region] l = true) (k : Only l a x) :
    Only l a { x with region := v0 } :=
  k.trans (Only.mono ⟨fun p hp => by cases p <;> first | rfl | exact absurd hp (by decide)⟩ s)
theorem Only.rec_sht {l : List Part} {a x : Dev} {v0 : Sht} (s : Part.sub [.sht] l = true) (k : Only l a x) :
    Only l a { x with sht := v0 } :=
  k.trans (Only.mono ⟨fun p hp => by cases p <;> first | rfl | exact absurd hp (by decide)⟩ s)
theorem Only.rec_spn {l : List Part} {a x : Dev} {v0 : Four Spn} (s : Part.sub [.spn] l = true) (k : Only l a x) :
    Only l a { x with spn := v0 } :=
  k.trans (Only.mono ⟨fun p hp => by cases p <;> first | rfl | exact absurd hp (by decide)⟩ s)
theorem Only.rec_start {l : List Part} {a x : Dev} {v0 : Start} (s : Part.sub [.start] l = true) (k : Only l a x) :
    Only l a { x with start := v0 } :=
  k.trans (Only.mono ⟨fun p hp => by cases p <;> first | rfl | exact absurd hp (by decide)⟩ s)
theorem Only.rec_whl {l : List Part} {a x : Dev} {v0 : Whl} (s : Part.sub [.whl] l = true) (k : Only l a x) :
    Only l a { x with whl := v0 } :=
  k.trans (Only.mono ⟨fun p hp => by cases p <;> first | rfl | exact absurd hp (by decide)⟩ s)
theorem Only.rec_whl_glb {l : List Part} {a x : Dev} {v0 : Whl} {v1 : Glb} (s : Part.sub [.whl, .glb] l = true) (k : Only l a x) :
    Only l a { x with whl := v0, glb := v1 } :=
  k.trans (Only.mono ⟨fun p hp => by cases p <;> first | rfl | exact absurd hp (by decide)⟩ s)
theorem Only.rec_wrp {l : List Part} {a x : Dev} {v0 : Wrp} (s : Part.sub [.wrp] l = true) (k : Only l a x) :
    Only l a { x with wrp := v0 } :=
  k.trans (Only.mono ⟨fun p hp => by cases p <;> first | rfl | exact absurd hp (by decide)⟩ s)

end Sys2Proof.Machine
end

