-- ==== Sys2Proof/Laws/FramesDevice.lean ====
section
/-! SUPPORT. What the shared operations and the commands of bobbins, starts and power may change. -/

namespace Sys2Proof.Machine

set_option Elab.async false
set_option linter.unusedTactic false

theorem reportNow_only {l_ : List Part} {a_ : Dev} (d : Dev) (e : Nat) (payload : List Byte)
    (s_ : Part.sub [.evt] l_ = true) (k_ : Only l_ a_ d) :
    Only l_ a_ (reportNow d e payload) := by
  refine Only.of ?_ s_ k_
  unfold reportNow
  try dsimp only
  repeat' (first
    | with_reducible exact Only.refl _ _ | exact rfl | intro _
    | fail_if_no_progress (with_reducible refine Only.rec_evt rfl ?_)
    | with_reducible first
      | apply Only.ite | apply Only.each | apply OnlyO.some | apply OnlyO.none | apply OnlyO.getD | apply OnlyO.ite
    | with_reducible assumption
    | split)

theorem report_only {l_ : List Part} {a_ : Dev} (d : Dev) (e : Nat) (payload : List Byte)
    (s_ : Part.sub [.start, .evt] l_ = true) (k_ : Only l_ a_ d) :
    Only l_ a_ (report d e payload) := by
  refine Only.of ?_ s_ k_
  unfold report
  try dsimp only
  repeat' (first
    | with_reducible exact Only.refl _ _ | exact rfl | intro _
    | with_reducible apply reportNow_only
    | fail_if_no_progress (with_reducible refine Only.rec_start rfl ?_)
    | with_reducible apply Only.ite)

theorem reportDeferred_only {l_ : List Part} {a_ : Dev} (d : Dev) (e : Nat) (payload : List Byte)
    (s_ : Part.sub [.evt] l_ = true) (k_ : Only l_ a_ d) :
    Only l_ a_ (reportDeferred d e payload) := by
  refine Only.of ?_ s_ k_
  unfold reportDeferred
  try dsimp only
  repeat' (first
    | with_reducible exact Only.refl _ _ | exact rfl | intro _
    | fail_if_no_progress (with_reducible refine Only.rec_evt rfl ?_))

theorem rise_only {l_ : List Part} {a_ : Dev} (d : Dev) (e i : Nat) (payload : List Byte)
    (s_ : Part.sub [.evt] l_ = true) (k_ : Only l_ a_ d) :
    Only l_ a_ (rise d e i payload) := by
  refine Only.of ?_ s_ k_
  unfold rise
  try dsimp only
  repeat' (first
    | with_reducible exact Only.refl _ _ | exact rfl | intro _
    | fail_if_no_progress (with_reducible refine Only.rec_evt rfl ?_))

theorem fall_only {l_ : List Part} {a_ : Dev} (d : Dev) (e i : Nat) (payload : List Byte)
    (s_ : Part.sub [.evt] l_ = true) (k_ : Only l_ a_ d) :
    Only l_ a_ (fall d e i payload) := by
  refine Only.of ?_ s_ k_
  unfold fall
  try dsimp only
  repeat' (first
    | with_reducible exact Only.refl _ _ | exact rfl | intro _
    | fail_if_no_progress (with_reducible refine Only.rec_evt rfl ?_))

theorem watch_only {l_ : List Part} {a_ : Dev} (d : Dev) (e i : Nat) (set clear : Bool) (payload : List Byte)
    (s_ : Part.sub [.evt] l_ = true) (k_ : Only l_ a_ d) :
    Only l_ a_ (watch d e i set clear payload) := by
  refine Only.of ?_ s_ k_
  unfold watch
  try dsimp only
  repeat' (first
    | with_reducible exact Only.refl _ _ | exact rfl | intro _
    | with_reducible first
      | apply rise_only | apply fall_only | apply Only.ite)

theorem watchIf_only {l_ : List Part} {a_ : Dev} (d : Dev) (e : Nat) (on : Bool)
    (s_ : Part.sub [.evt] l_ = true) (k_ : Only l_ a_ d) :
    Only l_ a_ (watchIf d e on) := by
  refine Only.of ?_ s_ k_
  unfold watchIf
  try dsimp only
  repeat' (first
    | with_reducible exact Only.refl _ _ | exact rfl | intro _
    | with_reducible apply watch_only)

theorem watchDwell_only {l_ : List Part} {a_ : Dev} (d : Dev) (e i : Nat) (set clear : Bool) (dwellSet dwellClear now : Nat)
    (payload : List Byte)
    (s_ : Part.sub [.evt] l_ = true) (k_ : Only l_ a_ d) :
    Only l_ a_ (watchDwell d e i set clear dwellSet dwellClear now payload) := by
  refine Only.of ?_ s_ k_
  unfold watchDwell
  try dsimp only
  repeat' (first
    | with_reducible exact Only.refl _ _ | exact rfl | intro _
    | with_reducible first
      | apply rise_only | apply fall_only
    | fail_if_no_progress (with_reducible refine Only.rec_evt rfl ?_)
    | with_reducible apply Only.ite)

theorem Dev.pass_only {l_ : List Part} {a_ : Dev} (d : Dev) (ns : Nat) (s_ : Part.sub [.pwr, .glb, .whl] l_ = true)
    (k_ : Only l_ a_ d) : Only l_ a_ (d.pass ns) := by
  refine Only.of ⟨fun p hp => ?_⟩ s_ k_
  unfold Dev.pass
  dsimp only
  split <;> cases p <;> first | rfl | exact absurd hp (by decide)

theorem Dev.elapse_only {l_ : List Part} {a_ : Dev} (d : Dev) (dt : Nat)
    (s_ : Part.sub [.out, .pwr, .glb, .whl] l_ = true) (k_ : Only l_ a_ d) :
    Only l_ a_ (Dev.elapse d dt) := by
  refine Only.of ?_ s_ k_
  unfold Dev.elapse
  try dsimp only
  repeat' (first
    | with_reducible exact Only.refl _ _ | exact rfl | intro _
    | with_reducible apply Dev.pass_only
    | fail_if_no_progress (with_reducible refine Only.rec_out rfl ?_))

theorem Dev.emit_only {l_ : List Part} {a_ : Dev} (d : Dev) (o : Output)
    (s_ : Part.sub [.out] l_ = true) (k_ : Only l_ a_ d) :
    Only l_ a_ (Dev.emit d o) := by
  refine Only.of ?_ s_ k_
  unfold Dev.emit
  try dsimp only
  repeat' (first
    | with_reducible exact Only.refl _ _ | exact rfl | intro _
    | fail_if_no_progress (with_reducible refine Only.rec_out rfl ?_))

theorem regRow_only {l_ : List Part} {a_ : Dev} {f : Dev → Dev × Status} {d : Dev} {r : Dev × Status} (e_ : f d = r)
    (s_ : Part.sub [.out] l_ = true) (k_ : Only l_ a_ d)
    (h_ : Only l_ a_ r.1) :
    Only l_ a_ (regRow f d) := by
  subst e_
  unfold regRow
  split
  · exact Dev.emit_only _ _ s_ h_
  · exact k_

theorem Dev.draw_only {l_ : List Part} {a_ : Dev} (d : Dev)
    (s_ : Part.sub [.free] l_ = true) (k_ : Only l_ a_ d) :
    Only l_ a_ (Dev.draw d).2 := by
  refine Only.of ?_ s_ k_
  unfold Dev.draw
  try dsimp only
  repeat' (first
    | with_reducible exact Only.refl _ _ | exact rfl | intro _
    | fail_if_no_progress (with_reducible refine Only.rec_free rfl ?_))

theorem Dev.modSpn_only {l_ : List Part} {a_ : Dev} (d : Dev) (n : Fin 4) (f : Spn → Spn)
    (s_ : Part.sub [.spn] l_ = true) (k_ : Only l_ a_ d) :
    Only l_ a_ (Dev.modSpn d n f) := by
  refine Only.of ?_ s_ k_
  unfold Dev.modSpn
  try dsimp only
  repeat' (first
    | with_reducible exact Only.refl _ _ | exact rfl | intro _
    | fail_if_no_progress (with_reducible refine Only.rec_spn rfl ?_))

theorem Dev.modWhl_only {l_ : List Part} {a_ : Dev} (d : Dev) (f : Whl → Whl)
    (s_ : Part.sub [.whl] l_ = true) (k_ : Only l_ a_ d) :
    Only l_ a_ (Dev.modWhl d f) := by
  refine Only.of ?_ s_ k_
  unfold Dev.modWhl
  try dsimp only
  repeat' (first
    | with_reducible exact Only.refl _ _ | exact rfl | intro _
    | fail_if_no_progress (with_reducible refine Only.rec_whl rfl ?_))

theorem Dev.modWrp_only {l_ : List Part} {a_ : Dev} (d : Dev) (f : Wrp → Wrp)
    (s_ : Part.sub [.wrp] l_ = true) (k_ : Only l_ a_ d) :
    Only l_ a_ (Dev.modWrp d f) := by
  refine Only.of ?_ s_ k_
  unfold Dev.modWrp
  try dsimp only
  repeat' (first
    | with_reducible exact Only.refl _ _ | exact rfl | intro _
    | fail_if_no_progress (with_reducible refine Only.rec_wrp rfl ?_))

theorem Dev.modCcp_only {l_ : List Part} {a_ : Dev} (d : Dev) (f : Ccp → Ccp)
    (s_ : Part.sub [.ccp] l_ = true) (k_ : Only l_ a_ d) :
    Only l_ a_ (Dev.modCcp d f) := by
  refine Only.of ?_ s_ k_
  unfold Dev.modCcp
  try dsimp only
  repeat' (first
    | with_reducible exact Only.refl _ _ | exact rfl | intro _
    | fail_if_no_progress (with_reducible refine Only.rec_ccp rfl ?_))

theorem Dev.modPly_only {l_ : List Part} {a_ : Dev} (d : Dev) (f : Ply → Ply)
    (s_ : Part.sub [.ply] l_ = true) (k_ : Only l_ a_ d) :
    Only l_ a_ (Dev.modPly d f) := by
  refine Only.of ?_ s_ k_
  unfold Dev.modPly
  try dsimp only
  repeat' (first
    | with_reducible exact Only.refl _ _ | exact rfl | intro _
    | fail_if_no_progress (with_reducible refine Only.rec_ply rfl ?_))

theorem Dev.modSht_only {l_ : List Part} {a_ : Dev} (d : Dev) (f : Sht → Sht)
    (s_ : Part.sub [.sht] l_ = true) (k_ : Only l_ a_ d) :
    Only l_ a_ (Dev.modSht d f) := by
  refine Only.of ?_ s_ k_
  unfold Dev.modSht
  try dsimp only
  repeat' (first
    | with_reducible exact Only.refl _ _ | exact rfl | intro _
    | fail_if_no_progress (with_reducible refine Only.rec_sht rfl ?_))

theorem takeCpu_only {l_ : List Part} {a_ : Dev} (d : Dev)
    (s_ : Part.sub [.sht] l_ = true) (k_ : Only l_ a_ d) :
    Only l_ a_ (takeCpu d) := by
  refine Only.of ?_ s_ k_
  unfold takeCpu
  try dsimp only
  repeat' (first
    | with_reducible exact Only.refl _ _ | exact rfl | intro _
    | with_reducible apply Dev.modSht_only)

theorem Dev.modDst_only {l_ : List Part} {a_ : Dev} (d : Dev) (f : Dst → Dst)
    (s_ : Part.sub [.dst] l_ = true) (k_ : Only l_ a_ d) :
    Only l_ a_ (Dev.modDst d f) := by
  refine Only.of ?_ s_ k_
  unfold Dev.modDst
  try dsimp only
  repeat' (first
    | with_reducible exact Only.refl _ _ | exact rfl | intro _
    | fail_if_no_progress (with_reducible refine Only.rec_dst rfl ?_))

theorem Dev.modGlb_only {l_ : List Part} {a_ : Dev} (d : Dev) (f : Glb → Glb)
    (s_ : Part.sub [.glb] l_ = true) (k_ : Only l_ a_ d) :
    Only l_ a_ (Dev.modGlb d f) := by
  refine Only.of ?_ s_ k_
  unfold Dev.modGlb
  try dsimp only
  repeat' (first
    | with_reducible exact Only.refl _ _ | exact rfl | intro _
    | fail_if_no_progress (with_reducible refine Only.rec_glb rfl ?_))

theorem Dev.modPwr_only {l_ : List Part} {a_ : Dev} (d : Dev) (f : Pwr → Pwr)
    (s_ : Part.sub [.pwr] l_ = true) (k_ : Only l_ a_ d) :
    Only l_ a_ (Dev.modPwr d f) := by
  refine Only.of ?_ s_ k_
  unfold Dev.modPwr
  try dsimp only
  repeat' (first
    | with_reducible exact Only.refl _ _ | exact rfl | intro _
    | fail_if_no_progress (with_reducible refine Only.rec_pwr rfl ?_))

theorem Dev.modImg_only {l_ : List Part} {a_ : Dev} (d : Dev) (f : Img → Img)
    (s_ : Part.sub [.img] l_ = true) (k_ : Only l_ a_ d) :
    Only l_ a_ (Dev.modImg d f) := by
  refine Only.of ?_ s_ k_
  unfold Dev.modImg
  try dsimp only
  repeat' (first
    | with_reducible exact Only.refl _ _ | exact rfl | intro _
    | fail_if_no_progress (with_reducible refine Only.rec_img rfl ?_))

theorem Dev.modPra_only {l_ : List Part} {a_ : Dev} (d : Dev) (f : Pra → Pra)
    (s_ : Part.sub [.pra] l_ = true) (k_ : Only l_ a_ d) :
    Only l_ a_ (Dev.modPra d f) := by
  refine Only.of ?_ s_ k_
  unfold Dev.modPra
  try dsimp only
  repeat' (first
    | with_reducible exact Only.refl _ _ | exact rfl | intro _
    | fail_if_no_progress (with_reducible refine Only.rec_pra rfl ?_))

theorem praLow_only {l_ : List Part} {a_ : Dev} (d : Dev)
    (s_ : Part.sub [.evt] l_ = true) (k_ : Only l_ a_ d) :
    Only l_ a_ (praLow d) := by
  refine Only.of ?_ s_ k_
  unfold praLow
  try dsimp only
  repeat' (first
    | with_reducible exact Only.refl _ _ | exact rfl | intro _
    | with_reducible apply watchIf_only)

theorem praDue_only {l_ : List Part} {a_ : Dev} (d : Dev)
    (s_ : Part.sub [.pra, .evt] l_ = true) (k_ : Only l_ a_ d) :
    Only l_ a_ (praDue d) := by
  refine Only.of ?_ s_ k_
  unfold praDue
  try dsimp only
  repeat' (first
    | with_reducible exact Only.refl _ _ | exact rfl | intro _
    | with_reducible first
      | apply Dev.modPra_only | apply praLow_only | apply Only.ite)

theorem praRefuse_only {l_ : List Part} {a_ : Dev} (d : Dev) (n : Nat)
    (s_ : Part.sub [.start, .evt] l_ = true) (k_ : Only l_ a_ d) :
    Only l_ a_ (praRefuse d n) := by
  refine Only.of ?_ s_ k_
  unfold praRefuse
  try dsimp only
  repeat' (first
    | with_reducible exact Only.refl _ _ | exact rfl | intro _
    | with_reducible apply report_only)

theorem praFinish_only {l_ : List Part} {a_ : Dev} (d : Dev) (n : Nat) (v : Word) (verifyOk : Bool)
    (s_ : Part.sub [.start, .pra, .evt] l_ = true) (k_ : Only l_ a_ d) :
    Only l_ a_ (praFinish d n v verifyOk).1 := by
  refine Only.of ?_ s_ k_
  unfold praFinish
  try dsimp only
  repeat' (first
    | with_reducible exact Only.refl _ _ | exact rfl | intro _
    | with_reducible first
      | apply report_only | apply Dev.modPra_only | apply praLow_only | apply Only.ite | apply Only.each | apply OnlyO.some
      | apply OnlyO.none | apply OnlyO.getD | apply OnlyO.ite
    | with_reducible assumption
    | split)

theorem praOwn_only {l_ : List Part} {a_ : Dev} (d : Dev) (n : Nat) (v : Word) (verifyOk : Bool)
    (s_ : Part.sub [.start, .pra, .evt] l_ = true) (k_ : Only l_ a_ d) :
    Only l_ a_ (praOwn d n v verifyOk).1 := by
  refine Only.of ?_ s_ k_
  unfold praOwn
  try dsimp only
  repeat' (first
    | with_reducible exact Only.refl _ _ | exact rfl | intro _
    | with_reducible first
      | apply praDue_only | apply praRefuse_only | apply praFinish_only | apply Only.ite | apply Only.each
      | apply OnlyO.some | apply OnlyO.none | apply OnlyO.getD | apply OnlyO.ite
    | with_reducible assumption
    | split)

theorem praWait_only {l_ : List Part} {a_ : Dev} (d : Dev) (n : Nat) (v : Word) (verifyOk : Bool)
    (s_ : Part.sub [.pwr, .glb, .start, .pra, .evt, .whl] l_ = true) (k_ : Only l_ a_ d) :
    Only l_ a_ (praWait d n v verifyOk).1 := by
  refine Only.of ?_ s_ k_
  unfold praWait
  try dsimp only
  repeat' (first
    | with_reducible exact Only.refl _ _ | exact rfl | intro _
    | with_reducible first
      | apply Dev.pass_only | apply praDue_only | apply praFinish_only | apply Only.ite)

theorem praWaits_only {l_ : List Part} {a_ : Dev} (faults : List Nat) (l : List (Nat × Word)) (d : Dev)
    (s_ : Part.sub [.pwr, .glb, .start, .pra, .evt, .whl] l_ = true) (k_ : Only l_ a_ d) :
    Only l_ a_ (praWaits faults l d) := by
  refine Only.of ?_ s_ k_
  unfold praWaits
  try dsimp only
  repeat' (first
    | with_reducible exact Only.refl _ _ | exact rfl | intro _
    | with_reducible first
      | apply praWait_only | apply Only.ite | apply Only.each)

theorem praSkip_only {l_ : List Part} {a_ : Dev} (d : Dev) (n : Nat) (v : Word) (verifyOk : Bool)
    (s_ : Part.sub [.start, .pra, .evt] l_ = true) (k_ : Only l_ a_ d) :
    Only l_ a_ (praSkip d n v verifyOk) := by
  refine Only.of ?_ s_ k_
  unfold praSkip
  try dsimp only
  repeat' (first
    | with_reducible exact Only.refl _ _ | exact rfl | intro _
    | with_reducible first
      | apply Dev.modPra_only | apply praDue_only | apply praFinish_only | apply Only.ite)

theorem refuseKey_only {l_ : List Part} {a_ : Dev} (d : Dev) (s : Nat)
    (s_ : Part.sub [.start, .evt, .dst] l_ = true) (k_ : Only l_ a_ d) :
    Only l_ a_ (refuseKey d s) := by
  refine Only.of ?_ s_ k_
  unfold refuseKey
  try dsimp only
  repeat' (first
    | with_reducible exact Only.refl _ _ | exact rfl | intro _
    | with_reducible first
      | apply report_only | apply Dev.modDst_only | apply Only.ite)

theorem invoke_only {l_ : List Part} {a_ : Dev} (d : Dev) (s master use : Nat)
    (s_ : Part.sub [.start, .evt, .dst] l_ = true) (k_ : Only l_ a_ d) :
    Only l_ a_ (invoke d s master use).2 := by
  refine Only.of ?_ s_ k_
  unfold invoke
  try dsimp only
  repeat' (first
    | with_reducible exact Only.refl _ _ | exact rfl | intro _
    | with_reducible first
      | apply refuseKey_only | apply Only.ite | apply Only.each | apply OnlyO.some | apply OnlyO.none | apply OnlyO.getD
      | apply OnlyO.ite
    | with_reducible assumption
    | split)

theorem disableSkein_only {l_ : List Part} {a_ : Dev} (d : Dev) (s cause : Nat)
    (s_ : Part.sub [.start, .evt, .dst] l_ = true) (k_ : Only l_ a_ d) :
    Only l_ a_ (disableSkein d s cause) := by
  refine Only.of ?_ s_ k_
  unfold disableSkein
  try dsimp only
  repeat' (first
    | with_reducible exact Only.refl _ _ | exact rfl | intro _
    | with_reducible first
      | apply report_only | apply Dev.modDst_only)

theorem splitKey_only {l_ : List Part} {a_ : Dev} (d : Dev) (key : List Byte)
    (s_ : Part.sub [.free] l_ = true) (k_ : Only l_ a_ d) :
    Only l_ a_ (splitKey d key).2.2 := by
  refine Only.of ?_ s_ k_
  unfold splitKey
  try dsimp only
  repeat' (first
    | with_reducible exact Only.refl _ _ | exact rfl | intro _
    | with_reducible apply Dev.draw_only)

theorem loadHalf_only {l_ : List Part} {a_ : Dev} (d : Dev) (s : Nat) (h : Half)
    (s_ : Part.sub [.free, .dst] l_ = true) (k_ : Only l_ a_ d) :
    Only l_ a_ (loadHalf d s h) := by
  refine Only.of ?_ s_ k_
  unfold loadHalf
  try dsimp only
  repeat' (first
    | with_reducible exact Only.refl _ _ | exact rfl | intro _
    | with_reducible first
      | apply Dev.modDst_only | apply splitKey_only)

theorem loadSkein_only {l_ : List Part} {a_ : Dev} (d : Dev) (s : Nat)
    (s_ : Part.sub [.free, .start, .evt, .dst] l_ = true) (k_ : Only l_ a_ d) :
    Only l_ a_ (loadSkein d s) := by
  refine Only.of ?_ s_ k_
  unfold loadSkein
  try dsimp only
  repeat' (first
    | with_reducible exact Only.refl _ _ | exact rfl | intro _
    | with_reducible first
      | apply report_only | apply Dev.modDst_only | apply disableSkein_only | apply loadHalf_only | apply Only.ite
      | apply Only.each | apply OnlyO.some | apply OnlyO.none | apply OnlyO.getD | apply OnlyO.ite
    | with_reducible assumption
    | split)

theorem dropCache_only {l_ : List Part} {a_ : Dev} (d : Dev) (s : Nat)
    (s_ : Part.sub [.dst] l_ = true) (k_ : Only l_ a_ d) :
    Only l_ a_ (dropCache d s) := by
  refine Only.of ?_ s_ k_
  unfold dropCache
  try dsimp only
  repeat' (first
    | with_reducible exact Only.refl _ _ | exact rfl | intro _
    | with_reducible apply Dev.modDst_only)

theorem eraseSkein_only {l_ : List Part} {a_ : Dev} (d : Dev) (s : Nat) (verifyOk : Bool)
    (s_ : Part.sub [.start, .pra, .evt, .dst] l_ = true) (k_ : Only l_ a_ d) :
    Only l_ a_ (eraseSkein d s verifyOk).1 := by
  refine Only.of ?_ s_ k_
  unfold eraseSkein
  try dsimp only
  repeat' (first
    | with_reducible exact Only.refl _ _ | exact rfl | intro _
    | with_reducible first
      | apply report_only | apply Dev.modDst_only | apply praDue_only | apply praFinish_only | apply dropCache_only
      | apply Only.ite | apply Only.each | apply OnlyO.some | apply OnlyO.none | apply OnlyO.getD | apply OnlyO.ite
    | with_reducible assumption
    | split)

theorem cacheWatch_only {l_ : List Part} {a_ : Dev} (d : Dev)
    (s_ : Part.sub [.evt] l_ = true) (k_ : Only l_ a_ d) :
    Only l_ a_ (cacheWatch d) := by
  refine Only.of ?_ s_ k_
  unfold cacheWatch
  try dsimp only
  repeat' (first
    | with_reducible exact Only.refl _ _ | exact rfl | intro _
    | with_reducible apply watch_only)

theorem deriveKey_only {l_ : List Part} {a_ : Dev} (d : Dev) (s : Nat) (eui : BitVec 64) (gen : Nat)
    (s_ : Part.sub [.free, .evt, .dst] l_ = true) (k_ : Only l_ a_ d) :
    Only l_ a_ (deriveKey d s eui gen) := by
  refine Only.of ?_ s_ k_
  unfold deriveKey
  try dsimp only
  repeat' (first
    | with_reducible exact Only.refl _ _ | exact rfl | intro _
    | with_reducible first
      | apply Dev.draw_only | apply Dev.modDst_only | apply cacheWatch_only | apply Only.ite | apply Only.each
      | apply OnlyO.some | apply OnlyO.none | apply OnlyO.getD | apply OnlyO.ite
    | with_reducible assumption
    | split)

theorem extendMd_only {l_ : List Part} {a_ : Dev} (d : Dev) (i : Nat) (item : BitVec 384)
    (s_ : Part.sub [.dst] l_ = true) (k_ : Only l_ a_ d) :
    Only l_ a_ (extendMd d i item) := by
  refine Only.of ?_ s_ k_
  unfold extendMd
  try dsimp only
  repeat' (first
    | with_reducible exact Only.refl _ _ | exact rfl | intro _
    | with_reducible first
      | apply Dev.modDst_only | apply Only.ite)

theorem extendMdBy_only {l_ : List Part} {a_ : Dev} (d : Dev) (i : Nat) (l : List Byte)
    (s_ : Part.sub [.dst] l_ = true) (k_ : Only l_ a_ d) :
    Only l_ a_ (extendMdBy d i l) := by
  refine Only.of ?_ s_ k_
  unfold extendMdBy
  try dsimp only
  repeat' (first
    | with_reducible exact Only.refl _ _ | exact rfl | intro _
    | with_reducible apply extendMd_only)

theorem quoteStamp_only {l_ : List Part} {a_ : Dev} (d : Dev)
    (s_ : Part.sub [.dst] l_ = true) (k_ : Only l_ a_ d) :
    Only l_ a_ (quoteStamp d) := by
  refine Only.of ?_ s_ k_
  unfold quoteStamp
  try dsimp only
  repeat' (first
    | with_reducible exact Only.refl _ _ | exact rfl | intro _
    | with_reducible apply Dev.modDst_only)

theorem quoteDrop_only {l_ : List Part} {a_ : Dev} (d : Dev)
    (s_ : Part.sub [.start, .evt, .dst] l_ = true) (k_ : Only l_ a_ d) :
    Only l_ a_ (quoteDrop d) := by
  refine Only.of ?_ s_ k_
  unfold quoteDrop
  try dsimp only
  repeat' (first
    | with_reducible exact Only.refl _ _ | exact rfl | intro _
    | with_reducible first
      | apply report_only | apply Dev.modDst_only)

theorem ccpEmit_only {l_ : List Part} {a_ : Dev} (d : Dev) (dst : BitVec 128) (port : BitVec 16) (octs : List Byte)
    (s_ : Part.sub [.out] l_ = true) (k_ : Only l_ a_ d) :
    Only l_ a_ (ccpEmit d dst port octs) := by
  refine Only.of ?_ s_ k_
  unfold ccpEmit
  try dsimp only
  repeat' (first
    | with_reducible exact Only.refl _ _ | exact rfl | intro _
    | with_reducible apply Dev.emit_only)

theorem threadsWatch_only {l_ : List Part} {a_ : Dev} (d : Dev)
    (s_ : Part.sub [.evt] l_ = true) (k_ : Only l_ a_ d) :
    Only l_ a_ (threadsWatch d) := by
  refine Only.of ?_ s_ k_
  unfold threadsWatch
  try dsimp only
  repeat' (first
    | with_reducible exact Only.refl _ _ | exact rfl | intro _
    | with_reducible apply watch_only)

theorem Dev.modThread_only {l_ : List Part} {a_ : Dev} (d : Dev) (th : Nat) (f : Thread → Thread)
    (s_ : Part.sub [.ccp] l_ = true) (k_ : Only l_ a_ d) :
    Only l_ a_ (Dev.modThread d th f) := by
  refine Only.of ?_ s_ k_
  unfold Dev.modThread
  try dsimp only
  repeat' (first
    | with_reducible exact Only.refl _ _ | exact rfl | intro _
    | with_reducible apply Dev.modCcp_only)

theorem markDone_only {l_ : List Part} {a_ : Dev} (d : Dev) (th : Nat) (st : Status) (res : List Byte)
    (s_ : Part.sub [.ccp, .img] l_ = true) (k_ : Only l_ a_ d) :
    Only l_ a_ (markDone d th st res) := by
  refine Only.of ?_ s_ k_
  unfold markDone
  try dsimp only
  repeat' (first
    | with_reducible exact Only.refl _ _ | exact rfl | intro _
    | with_reducible first
      | apply Dev.modCcp_only | apply Dev.modImg_only | apply Only.ite | apply Only.each | apply OnlyO.some
      | apply OnlyO.none | apply OnlyO.getD | apply OnlyO.ite
    | with_reducible assumption
    | split)

theorem dropLaunch_only {l_ : List Part} {a_ : Dev} (d : Dev) (l : Launch)
    (s_ : Part.sub [.whl, .ply] l_ = true) (k_ : Only l_ a_ d) :
    Only l_ a_ (dropLaunch d l) := by
  refine Only.of ?_ s_ k_
  unfold dropLaunch
  try dsimp only
  repeat' (first
    | with_reducible exact Only.refl _ _ | exact rfl | intro _
    | with_reducible first
      | apply Dev.modWhl_only | apply Dev.modPly_only)

theorem settleFence_only {l_ : List Part} {a_ : Dev} (d : Dev) (th : Nat)
    (s_ : Part.sub [.whl, .ccp, .ply, .img] l_ = true) (k_ : Only l_ a_ d) :
    Only l_ a_ (settleFence d th) := by
  refine Only.of ?_ s_ k_
  unfold settleFence
  try dsimp only
  repeat' (first
    | with_reducible exact Only.refl _ _ | exact rfl | intro _
    | with_reducible first
      | apply Dev.modThread_only | apply markDone_only | apply dropLaunch_only | apply Only.ite | apply Only.each
      | apply OnlyO.some | apply OnlyO.none | apply OnlyO.getD | apply OnlyO.ite
    | with_reducible assumption
    | split)

theorem settleFences_only {l_ : List Part} {a_ : Dev} (d : Dev)
    (s_ : Part.sub [.whl, .ccp, .ply, .img] l_ = true) (k_ : Only l_ a_ d) :
    Only l_ a_ (settleFences d) := by
  refine Only.of ?_ s_ k_
  unfold settleFences
  try dsimp only
  repeat' (first
    | with_reducible exact Only.refl _ _ | exact rfl | intro _
    | with_reducible first
      | apply settleFence_only | apply Only.ite | apply Only.each)

theorem finish_only {l_ : List Part} {a_ : Dev} (d : Dev) (th : Nat) (st : Status) (res : List Byte)
    (s_ : Part.sub [.whl, .ccp, .ply, .img] l_ = true) (k_ : Only l_ a_ d) :
    Only l_ a_ (finish d th st res) := by
  refine Only.of ?_ s_ k_
  unfold finish
  try dsimp only
  repeat' (first
    | with_reducible exact Only.refl _ _ | exact rfl | intro _
    | with_reducible first
      | apply markDone_only | apply settleFences_only)

theorem forgetThread_only {l_ : List Part} {a_ : Dev} (d : Dev) (th : Nat)
    (s_ : Part.sub [.pra, .whl, .spn, .img] l_ = true) (k_ : Only l_ a_ d) :
    Only l_ a_ (forgetThread d th) := by
  refine Only.of ?_ s_ k_
  unfold forgetThread
  try dsimp only
  repeat' (first
    | with_reducible exact Only.refl _ _ | exact rfl | intro _
    | with_reducible first
      | apply Dev.modWhl_only | apply Dev.modImg_only | apply Dev.modPra_only
    | fail_if_no_progress (with_reducible refine Only.rec_spn rfl ?_))

theorem freeThread_only {l_ : List Part} {a_ : Dev} (d : Dev) (th : Nat)
    (s_ : Part.sub [.pra, .evt, .whl, .spn, .ccp, .img] l_ = true) (k_ : Only l_ a_ d) :
    Only l_ a_ (freeThread d th) := by
  refine Only.of ?_ s_ k_
  unfold freeThread
  try dsimp only
  repeat' (first
    | with_reducible exact Only.refl _ _ | exact rfl | intro _
    | with_reducible first
      | apply Dev.modCcp_only | apply threadsWatch_only | apply forgetThread_only)

theorem runThread_only {l_ : List Part} {a_ : Dev} {α : Type} {th : Nat} {pick : Cmd → Option α} {f : Dev → Thread → α → Dev}
    {d : Dev} (s_ : Part.sub [.ccp] l_ = true) (k_ : Only l_ a_ d)
    (h_ : ∀ e t x, Only l_ a_ e → Only l_ a_ (f e t x)) :
    Only l_ a_ (runThread d th pick f) := by
  unfold runThread
  split
  · exact k_
  split
  · split
    · exact h_ _ _ _ (Dev.modThread_only _ _ _ s_ k_)
    · exact k_
  · exact k_

theorem Dev.modBob_only {l_ : List Part} {a_ : Dev} (d : Dev) (b : Nat) (f : Bobbin → Bobbin)
    (s_ : Part.sub [.bob] l_ = true) (k_ : Only l_ a_ d) :
    Only l_ a_ (Dev.modBob d b f) := by
  refine Only.of ?_ s_ k_
  unfold Dev.modBob
  try dsimp only
  repeat' (first
    | with_reducible exact Only.refl _ _ | exact rfl | intro _
    | fail_if_no_progress (with_reducible refine Only.rec_bob rfl ?_))

theorem crossStore_only {l_ : List Part} {a_ : Dev} (d : Dev) (n : Fin 4) (due : Option Int) (i k : Nat)
    (s_ : Part.sub [.spn, .bob] l_ = true) (k_ : Only l_ a_ d) :
    Only l_ a_ (crossStore d n due i k) := by
  refine Only.of ?_ s_ k_
  unfold crossStore
  try dsimp only
  repeat' (first
    | with_reducible exact Only.refl _ _ | exact rfl | intro _
    | with_reducible first
      | apply Dev.modSpn_only | apply Dev.modBob_only)

theorem frameIn_only {l_ : List Part} {a_ : Dev} (d : Dev) (n : Fin 4) (words : List (BitVec 72)) (poison : Bool)
    (s_ : Part.sub [.spn, .wrp] l_ = true) (k_ : Only l_ a_ d) :
    Only l_ a_ (frameIn d n words poison) := by
  refine Only.of ?_ s_ k_
  unfold frameIn
  try dsimp only
  repeat' (first
    | with_reducible exact Only.refl _ _ | exact rfl | intro _
    | with_reducible first
      | apply Dev.modSpn_only | apply Dev.modWrp_only | apply Only.ite)

theorem keepCrossing_only {l_ : List Part} {a_ : Dev} (d : Dev) (b : Nat)
    (s_ : Part.sub [.spn] l_ = true) (k_ : Only l_ a_ d) :
    Only l_ a_ (keepCrossing d b) := by
  refine Only.of ?_ s_ k_
  unfold keepCrossing
  try dsimp only
  repeat' (first
    | with_reducible exact Only.refl _ _ | exact rfl | intro _
    | with_reducible first
      | apply Dev.modSpn_only | apply Only.ite | apply Only.each | apply OnlyO.some | apply OnlyO.none | apply OnlyO.getD
      | apply OnlyO.ite
    | with_reducible assumption
    | split)

theorem flushBobbin_only {l_ : List Part} {a_ : Dev} (d : Dev) (b : Nat)
    (s_ : Part.sub [.spn, .bob] l_ = true) (k_ : Only l_ a_ d) :
    Only l_ a_ (flushBobbin d b) := by
  refine Only.of ?_ s_ k_
  unfold flushBobbin
  try dsimp only
  repeat' (first
    | with_reducible exact Only.refl _ _ | exact rfl | intro _
    | with_reducible first
      | apply Dev.modBob_only | apply keepCrossing_only)

theorem doBobbinWordWrite_only {l_ : List Part} {a_ : Dev} (b : Fin 26) (w : BitVec 72) (seen : Nat) (d : Dev)
    (s_ : Part.sub [.start, .evt, .bob] l_ = true) (k_ : Only l_ a_ d) :
    Only l_ a_ (doBobbinWordWrite b w seen d) := by
  refine Only.of ?_ s_ k_
  unfold doBobbinWordWrite
  try dsimp only
  repeat' (first
    | with_reducible exact Only.refl _ _ | exact rfl | intro _
    | with_reducible first
      | apply report_only | apply Dev.modBob_only | apply Only.ite)

theorem packetOut_only {l_ : List Part} {a_ : Dev} (d : Dev) (b : Nat) (words : List (BitVec 72))
    (s_ : Part.sub [.spn, .wrp, .bob] l_ = true) (k_ : Only l_ a_ d) :
    Only l_ a_ (packetOut d b words) := by
  refine Only.of ?_ s_ k_
  unfold packetOut
  try dsimp only
  repeat' (first
    | with_reducible exact Only.refl _ _ | exact rfl | intro _
    | with_reducible first
      | apply Dev.modBob_only | apply frameIn_only | apply Only.ite | apply Only.each | apply OnlyO.some | apply OnlyO.none
      | apply OnlyO.getD | apply OnlyO.ite
    | with_reducible assumption
    | split)

theorem takeWord_only {l_ : List Part} {a_ : Dev} (b : Nat) (flip : BitVec 72) (d : Dev)
    (s_ : Part.sub [.start, .evt, .spn, .wrp, .bob] l_ = true) (k_ : Only l_ a_ d) :
    Only l_ a_ (takeWord b flip d).2 := by
  refine Only.of ?_ s_ k_
  unfold takeWord
  try dsimp only
  repeat' (first
    | with_reducible exact Only.refl _ _ | exact rfl | intro _
    | with_reducible first
      | apply report_only | apply Dev.modBob_only | apply flushBobbin_only | apply packetOut_only | apply Only.ite
      | apply Only.each | apply OnlyO.some | apply OnlyO.none | apply OnlyO.getD | apply OnlyO.ite
    | with_reducible assumption
    | split)

theorem doBobbinWordRead_only {l_ : List Part} {a_ : Dev} (b : Fin 26) (flip : BitVec 72) (seen : Nat) (d : Dev)
    (s_ : Part.sub [.out, .start, .evt, .spn, .wrp, .bob] l_ = true) (k_ : Only l_ a_ d) :
    Only l_ a_ (doBobbinWordRead b flip seen d) := by
  refine Only.of ?_ s_ k_
  unfold doBobbinWordRead
  try dsimp only
  repeat' (first
    | with_reducible exact Only.refl _ _ | exact rfl | intro _
    | with_reducible first
      | apply Dev.emit_only | apply Dev.modBob_only | apply takeWord_only | apply Only.ite | apply Only.each
      | apply OnlyO.some | apply OnlyO.none | apply OnlyO.getD | apply OnlyO.ite
    | with_reducible assumption
    | split
    | dsimp only
    | with_reducible refine Only.id ?_
    | refine OnlyO.get (by assumption) ?_
    | refine OnlyO.get1 (by assumption) ?_
    | refine Only.fst (by assumption) ?_
    | refine Only.snd (by assumption) ?_)

theorem drainWords_only {l_ : List Part} {a_ : Dev} (b n : Nat) (d : Dev)
    (s_ : Part.sub [.start, .evt, .spn, .wrp, .bob] l_ = true) (k_ : Only l_ a_ d) :
    Only l_ a_ (drainWords b n d) := by
  induction n generalizing d with
  | zero => exact k_
  | succ n ih =>
    have kt := fun e => takeWord_only b 0 (d.modBob b e) (Part.sub_trans rfl s_) (Dev.modBob_only d b e (Part.sub_trans rfl s_) k_)
    unfold drainWords
    dsimp only
    split
    · rename_i e; exact Only.snd e (kt _)
    · rename_i e; exact ih _ (Only.snd e (kt _))

theorem drainBobbin_only {l_ : List Part} {a_ : Dev} (d : Dev) (n : Fin 4)
    (s_ : Part.sub [.start, .evt, .spn, .wrp, .bob] l_ = true) (k_ : Only l_ a_ d) :
    Only l_ a_ (drainBobbin d n) := by
  refine Only.of ?_ s_ k_
  unfold drainBobbin
  try dsimp only
  repeat' (first
    | with_reducible exact Only.refl _ _ | exact rfl | intro _
    | with_reducible apply drainWords_only)

theorem writeBobCtrl_only {l_ : List Part} {a_ : Dev} (d : Dev) (b : Nat) (v : Word)
    (s_ : Part.sub [.spn, .bob] l_ = true) (k_ : Only l_ a_ d) :
    Only l_ a_ (writeBobCtrl d b v).1 := by
  refine Only.of ?_ s_ k_
  unfold writeBobCtrl
  try dsimp only
  repeat' (first
    | with_reducible exact Only.refl _ _ | exact rfl | intro _
    | with_reducible first
      | apply Dev.modBob_only | apply flushBobbin_only | apply Only.ite | apply Only.each | apply OnlyO.some
      | apply OnlyO.none | apply OnlyO.getD | apply OnlyO.ite
    | with_reducible assumption
    | split)

theorem doBobbinFlushWrite_only {l_ : List Part} {a_ : Dev} (b : Fin 26) (v : Word) (d : Dev)
    (s_ : Part.sub [.out, .spn, .bob] l_ = true) (k_ : Only l_ a_ d) :
    Only l_ a_ (doBobbinFlushWrite b v d) := by
  refine Only.of ?_ s_ k_
  unfold doBobbinFlushWrite
  try dsimp only
  repeat' (first
    | with_reducible exact Only.refl _ _ | exact rfl | intro _
    | with_reducible refine regRow_only (by beta_reduce; exact rfl) ?_ ?_ ?_
    | with_reducible apply writeBobCtrl_only)

theorem doBobbinFlushComplete_only {l_ : List Part} {a_ : Dev} (b : Fin 26) (d : Dev)
    (s_ : Part.sub [.bob] l_ = true) (k_ : Only l_ a_ d) :
    Only l_ a_ (doBobbinFlushComplete b d) := by
  refine Only.of ?_ s_ k_
  unfold doBobbinFlushComplete
  try dsimp only
  repeat' (first
    | with_reducible exact Only.refl _ _ | exact rfl | intro _
    | with_reducible apply Dev.modBob_only)

theorem writeBobErr_only {l_ : List Part} {a_ : Dev} (d : Dev) (b : Nat) (v : Word)
    (s_ : Part.sub [.bob] l_ = true) (k_ : Only l_ a_ d) :
    Only l_ a_ (writeBobErr d b v).1 := by
  refine Only.of ?_ s_ k_
  unfold writeBobErr
  try dsimp only
  repeat' (first
    | with_reducible exact Only.refl _ _ | exact rfl | intro _
    | with_reducible apply Dev.modBob_only)

theorem doBobErrClear_only {l_ : List Part} {a_ : Dev} (b : Fin 26) (v : Word) (d : Dev)
    (s_ : Part.sub [.out, .bob] l_ = true) (k_ : Only l_ a_ d) :
    Only l_ a_ (doBobErrClear b v d) := by
  refine Only.of ?_ s_ k_
  unfold doBobErrClear
  try dsimp only
  repeat' (first
    | with_reducible exact Only.refl _ _ | exact rfl | intro _
    | with_reducible refine regRow_only (by beta_reduce; exact rfl) ?_ ?_ ?_
    | with_reducible apply writeBobErr_only)

theorem writeBobHwm_only {l_ : List Part} {a_ : Dev} (d : Dev) (b : Nat) (v : Word)
    (s_ : Part.sub [.bob] l_ = true) (k_ : Only l_ a_ d) :
    Only l_ a_ (writeBobHwm d b v).1 := by
  refine Only.of ?_ s_ k_
  unfold writeBobHwm
  try dsimp only
  repeat' (first
    | with_reducible exact Only.refl _ _ | exact rfl | intro _
    | with_reducible first
      | apply Dev.modBob_only | apply Only.ite)

theorem doBobHwmClr_only {l_ : List Part} {a_ : Dev} (b : Fin 26) (v : Word) (d : Dev)
    (s_ : Part.sub [.out, .bob] l_ = true) (k_ : Only l_ a_ d) :
    Only l_ a_ (doBobHwmClr b v d) := by
  refine Only.of ?_ s_ k_
  unfold doBobHwmClr
  try dsimp only
  repeat' (first
    | with_reducible exact Only.refl _ _ | exact rfl | intro _
    | with_reducible refine regRow_only (by beta_reduce; exact rfl) ?_ ?_ ?_
    | with_reducible apply writeBobHwm_only)

theorem storeFull_only {l_ : List Part} {a_ : Dev} (d : Dev) (n : Fin 4)
    (s_ : Part.sub [.start, .evt, .spn] l_ = true) (k_ : Only l_ a_ d) :
    Only l_ a_ (storeFull d n) := by
  refine Only.of ?_ s_ k_
  unfold storeFull
  try dsimp only
  repeat' (first
    | with_reducible exact Only.refl _ _ | exact rfl | intro _
    | with_reducible first
      | apply report_only | apply Dev.modSpn_only)

theorem errWatch_only {l_ : List Part} {a_ : Dev} (d : Dev) (n : Fin 4)
    (s_ : Part.sub [.evt] l_ = true) (k_ : Only l_ a_ d) :
    Only l_ a_ (errWatch d n) := by
  refine Only.of ?_ s_ k_
  unfold errWatch
  try dsimp only
  repeat' (first
    | with_reducible exact Only.refl _ _ | exact rfl | intro _
    | with_reducible apply watch_only)

theorem deliver_only {l_ : List Part} {a_ : Dev} (d : Dev) (n : Fin 4) (e : Descriptor)
    (s_ : Part.sub [.start, .evt, .spn, .bob] l_ = true) (k_ : Only l_ a_ d) :
    Only l_ a_ (deliver d n e) := by
  refine Only.of ?_ s_ k_
  unfold deliver
  try dsimp only
  repeat' (first
    | with_reducible exact Only.refl _ _ | exact rfl | intro _
    | with_reducible first
      | apply Dev.modSpn_only | apply crossStore_only | apply storeFull_only | apply errWatch_only | apply Only.ite)

theorem Dev.endRun_only {l_ : List Part} {a_ : Dev} (d : Dev) (n : Fin 4) (b : Nat)
    (s_ : Part.sub [.spn] l_ = true) (k_ : Only l_ a_ d) :
    Only l_ a_ (Dev.endRun d n b) := by
  refine Only.of ?_ s_ k_
  unfold Dev.endRun
  try dsimp only
  repeat' (first
    | with_reducible exact Only.refl _ _ | exact rfl | intro _
    | with_reducible apply Dev.modSpn_only)

theorem truncateAll_only {l_ : List Part} {a_ : Dev} (d : Dev) (n : Fin 4)
    (s_ : Part.sub [.start, .evt, .spn, .bob] l_ = true) (k_ : Only l_ a_ d) :
    Only l_ a_ (truncateAll d n) := by
  refine Only.of ?_ s_ k_
  unfold truncateAll
  try dsimp only
  repeat' (first
    | with_reducible exact Only.refl _ _ | exact rfl | intro _
    | with_reducible first
      | apply deliver_only | apply Dev.endRun_only | apply Only.ite | apply Only.each)

theorem syncReset_only {l_ : List Part} {a_ : Dev} (d : Dev) (n : Fin 4)
    (s_ : Part.sub [.start, .evt, .spn, .bob] l_ = true) (k_ : Only l_ a_ d) :
    Only l_ a_ (syncReset d n) := by
  refine Only.of ?_ s_ k_
  unfold syncReset
  try dsimp only
  repeat' (first
    | with_reducible exact Only.refl _ _ | exact rfl | intro _
    | with_reducible first
      | apply Dev.modSpn_only | apply truncateAll_only)

theorem Dev.modCnt_only {l_ : List Part} {a_ : Dev} (d : Dev) (n : Fin 4) (f : WrpCnt → WrpCnt)
    (s_ : Part.sub [.wrp] l_ = true) (k_ : Only l_ a_ d) :
    Only l_ a_ (Dev.modCnt d n f) := by
  refine Only.of ?_ s_ k_
  unfold Dev.modCnt
  try dsimp only
  repeat' (first
    | with_reducible exact Only.refl _ _ | exact rfl | intro _
    | with_reducible apply Dev.modWrp_only)

theorem countLost_only {l_ : List Part} {a_ : Dev} (d : Dev) (n : Fin 4) (c : Lost) (k : Nat)
    (s_ : Part.sub [.spn, .wrp] l_ = true) (k_ : Only l_ a_ d) :
    Only l_ a_ (countLost d n c k) := by
  refine Only.of ?_ s_ k_
  unfold countLost
  try dsimp only
  repeat' (first
    | with_reducible exact Only.refl _ _ | exact rfl | intro _
    | with_reducible first
      | apply Dev.modSpn_only | apply Dev.modCnt_only | apply Only.ite | apply Only.each | apply OnlyO.some
      | apply OnlyO.none | apply OnlyO.getD | apply OnlyO.ite
    | with_reducible assumption
    | split)

theorem loseRecord_only {l_ : List Part} {a_ : Dev} (d : Dev) (k : AirKind)
    (s_ : Part.sub [.ply] l_ = true) (k_ : Only l_ a_ d) :
    Only l_ a_ (loseRecord d k) := by
  refine Only.of ?_ s_ k_
  unfold loseRecord
  try dsimp only
  repeat' (first
    | with_reducible exact Only.refl _ _ | exact rfl | intro _
    | with_reducible first
      | apply Dev.modPly_only | apply Only.ite | apply Only.each | apply OnlyO.some | apply OnlyO.none | apply OnlyO.getD
      | apply OnlyO.ite
    | with_reducible assumption
    | split)

theorem dropTx_only {l_ : List Part} {a_ : Dev} (d : Dev) (n : Fin 4) (c : Lost)
    (s_ : Part.sub [.spn, .wrp, .ply] l_ = true) (k_ : Only l_ a_ d) :
    Only l_ a_ (dropTx d n c) := by
  refine Only.of ?_ s_ k_
  unfold dropTx
  try dsimp only
  repeat' (first
    | with_reducible exact Only.refl _ _ | exact rfl | intro _
    | with_reducible first
      | apply Dev.modSpn_only | apply countLost_only | apply loseRecord_only | apply Only.ite | apply Only.each
      | apply OnlyO.some | apply OnlyO.none | apply OnlyO.getD | apply OnlyO.ite
    | with_reducible assumption
    | split)

theorem maskWatch_only {l_ : List Part} {a_ : Dev} (d : Dev) (n : Fin 4)
    (s_ : Part.sub [.evt] l_ = true) (k_ : Only l_ a_ d) :
    Only l_ a_ (maskWatch d n) := by
  refine Only.of ?_ s_ k_
  unfold maskWatch
  try dsimp only
  repeat' (first
    | with_reducible exact Only.refl _ _ | exact rfl | intro _
    | with_reducible apply watch_only)

theorem pushRl_only {l_ : List Part} {a_ : Dev} (d : Dev) (n : Fin 4) (rl : Nat)
    (s_ : Part.sub [.evt, .spn] l_ = true) (k_ : Only l_ a_ d) :
    Only l_ a_ (pushRl d n rl) := by
  refine Only.of ?_ s_ k_
  unfold pushRl
  try dsimp only
  repeat' (first
    | with_reducible exact Only.refl _ _ | exact rfl | intro _
    | with_reducible first
      | apply watch_only | apply Dev.modSpn_only | apply Only.ite | apply Only.each | apply OnlyO.some | apply OnlyO.none
      | apply OnlyO.getD | apply OnlyO.ite
    | with_reducible assumption
    | split)

theorem measureRl_only {l_ : List Part} {a_ : Dev} (d : Dev) (n : Fin 4) (rl : Option Nat)
    (s_ : Part.sub [.free, .evt, .spn] l_ = true) (k_ : Only l_ a_ d) :
    Only l_ a_ (measureRl d n rl) := by
  refine Only.of ?_ s_ k_
  unfold measureRl
  try dsimp only
  repeat' (first
    | with_reducible exact Only.refl _ _ | exact rfl | intro _
    | with_reducible first
      | apply Dev.draw_only | apply Dev.modSpn_only | apply pushRl_only | apply Only.ite | apply Only.each
      | apply OnlyO.some | apply OnlyO.none | apply OnlyO.getD | apply OnlyO.ite
    | with_reducible assumption
    | split)

theorem abortTx_only {l_ : List Part} {a_ : Dev} (d : Dev) (n : Fin 4) (c : Lost) (rl : Option Nat)
    (s_ : Part.sub [.free, .evt, .spn, .wrp, .ply] l_ = true) (k_ : Only l_ a_ d) :
    Only l_ a_ (abortTx d n c rl) := by
  refine Only.of ?_ s_ k_
  unfold abortTx
  try dsimp only
  repeat' (first
    | with_reducible exact Only.refl _ _ | exact rfl | intro _
    | with_reducible first
      | apply Dev.modSpn_only | apply loseRecord_only | apply dropTx_only | apply maskWatch_only | apply measureRl_only
      | apply Only.ite | apply Only.each | apply OnlyO.some | apply OnlyO.none | apply OnlyO.getD | apply OnlyO.ite
    | with_reducible assumption
    | split)

theorem actTarget_only {l_ : List Part} {a_ : Dev} (d : Dev) (n : Fin 4)
    (s_ : Part.sub [.free, .start, .evt, .spn, .wrp, .ply, .bob] l_ = true) (k_ : Only l_ a_ d) :
    Only l_ a_ (actTarget d n) := by
  refine Only.of ?_ s_ k_
  unfold actTarget
  try dsimp only
  repeat' (first
    | with_reducible exact Only.refl _ _ | exact rfl | intro _
    | with_reducible first
      | apply Dev.modSpn_only | apply truncateAll_only | apply abortTx_only | apply Only.ite)

theorem retarget_only {l_ : List Part} {a_ : Dev} (d : Dev) (n : Fin 4)
    (s_ : Part.sub [.free, .start, .evt, .spn, .wrp, .ply, .bob] l_ = true) (k_ : Only l_ a_ d) :
    Only l_ a_ (retarget d n) := by
  refine Only.of ?_ s_ k_
  unfold retarget
  try dsimp only
  repeat' (first
    | with_reducible exact Only.refl _ _ | exact rfl | intro _
    | with_reducible first
      | apply actTarget_only | apply Only.ite)

theorem allToStandby_only {l_ : List Part} {a_ : Dev} (d : Dev)
    (s_ : Part.sub [.free, .start, .evt, .spn, .wrp, .ply, .bob] l_ = true) (k_ : Only l_ a_ d) :
    Only l_ a_ (allToStandby d) := by
  refine Only.of ?_ s_ k_
  unfold allToStandby
  try dsimp only
  repeat' (first
    | with_reducible exact Only.refl _ _ | exact rfl | intro _
    | with_reducible first
      | apply Dev.modSpn_only | apply Dev.modPly_only | apply actTarget_only | apply Only.ite | apply Only.each)

theorem holdOn_only {l_ : List Part} {a_ : Dev} (d : Dev) (n : Fin 4) (th dur : Nat)
    (s_ : Part.sub [.start, .evt, .whl, .spn, .ccp, .ply, .img, .bob] l_ = true) (k_ : Only l_ a_ d) :
    Only l_ a_ (holdOn d n th dur) := by
  refine Only.of ?_ s_ k_
  unfold holdOn
  try dsimp only
  repeat' (first
    | with_reducible exact Only.refl _ _ | exact rfl | intro _
    | with_reducible first
      | apply report_only | apply Dev.modSpn_only | apply finish_only | apply truncateAll_only)

theorem holdOff_only {l_ : List Part} {a_ : Dev} (d : Dev) (n : Fin 4)
    (s_ : Part.sub [.start, .evt, .spn] l_ = true) (k_ : Only l_ a_ d) :
    Only l_ a_ (holdOff d n) := by
  refine Only.of ?_ s_ k_
  unfold holdOff
  try dsimp only
  repeat' (first
    | with_reducible exact Only.refl _ _ | exact rfl | intro _
    | with_reducible first
      | apply report_only | apply Dev.modSpn_only)

theorem cancelHold_only {l_ : List Part} {a_ : Dev} (d : Dev) (n : Fin 4)
    (s_ : Part.sub [.whl, .spn, .ccp, .ply, .img] l_ = true) (k_ : Only l_ a_ d) :
    Only l_ a_ (cancelHold d n) := by
  refine Only.of ?_ s_ k_
  unfold cancelHold
  try dsimp only
  repeat' (first
    | with_reducible exact Only.refl _ _ | exact rfl | intro _
    | with_reducible first
      | apply Dev.modSpn_only | apply Dev.modThread_only | apply finish_only | apply Only.ite | apply Only.each
      | apply OnlyO.some | apply OnlyO.none | apply OnlyO.getD | apply OnlyO.ite
    | with_reducible assumption
    | split)

theorem doLogicRailRise_only {l_ : List Part} {a_ : Dev} (d : Dev)
    (s_ : Part.sub [.phase, .pwr] l_ = true) (k_ : Only l_ a_ d) :
    Only l_ a_ (doLogicRailRise d) := by
  refine Only.of ?_ s_ k_
  unfold doLogicRailRise
  try dsimp only
  repeat' (first
    | with_reducible exact Only.refl _ _ | exact rfl | intro _
    | fail_if_no_progress (with_reducible refine Only.rec_phase_pwr rfl ?_)
    | with_reducible apply Only.ite)

theorem doRailInTolerance_only {l_ : List Part} {a_ : Dev} (d : Dev)
    (s_ : Part.sub [.phase] l_ = true) (k_ : Only l_ a_ d) :
    Only l_ a_ (doRailInTolerance d) := by
  refine Only.of ?_ s_ k_
  unfold doRailInTolerance
  try dsimp only
  repeat' (first
    | with_reducible exact Only.refl _ _ | exact rfl | intro _
    | fail_if_no_progress (with_reducible refine Only.rec_phase rfl ?_)
    | with_reducible first
      | apply Only.ite | apply Only.each | apply OnlyO.some | apply OnlyO.none | apply OnlyO.getD | apply OnlyO.ite
    | with_reducible assumption
    | split)

theorem enterRecovery_only {l_ : List Part} {a_ : Dev} (d : Dev)
    (s_ : Part.sub [.phase, .pwr, .dst] l_ = true) (k_ : Only l_ a_ d) :
    Only l_ a_ (enterRecovery d) := by
  refine Only.of ?_ s_ k_
  unfold enterRecovery
  try dsimp only
  repeat' (first
    | with_reducible exact Only.refl _ _ | exact rfl | intro _
    | fail_if_no_progress (with_reducible refine Only.rec_phase_pwr_dst rfl ?_))

theorem romBoot_only {l_ : List Part} {a_ : Dev} (d : Dev) (recoveryLow verifyOk : Bool)
    (s_ : Part.sub [.phase, .pwr, .glb, .start, .pra, .evt, .whl, .dst] l_ = true) (k_ : Only l_ a_ d) :
    Only l_ a_ (romBoot d recoveryLow verifyOk) := by
  refine Only.of ?_ s_ k_
  unfold romBoot
  try dsimp only
  repeat' (first
    | with_reducible exact Only.refl _ _ | exact rfl | intro _
    | with_reducible first
      | apply praWait_only | apply enterRecovery_only | apply Only.ite)

theorem doControlDieResetRelease_only {l_ : List Part} {a_ : Dev} (recoveryLow : Bool) (straps : BitVec 5)
    (bhref verifyOk : Bool) (d : Dev)
    (s_ : Part.sub [.phase, .pwr, .glb, .start, .pra, .evt, .whl, .dst] l_ = true) (k_ : Only l_ a_ d) :
    Only l_ a_ (doControlDieResetRelease recoveryLow straps bhref verifyOk d) := by
  refine Only.of ?_ s_ k_
  unfold doControlDieResetRelease
  try dsimp only
  repeat' (first
    | with_reducible exact Only.refl _ _ | exact rfl | intro _
    | with_reducible first
      | apply Dev.modPwr_only | apply romBoot_only
    | fail_if_no_progress (with_reducible refine Only.rec_phase_pra rfl ?_)
    | fail_if_no_progress (with_reducible refine Only.rec_phase rfl ?_)
    | with_reducible apply Only.ite)

theorem doSfdpDiscovery_only {l_ : List Part} {a_ : Dev} (f : Sfdp) (d : Dev)
    (s_ : Part.sub [.phase, .pwr, .dst] l_ = true) (k_ : Only l_ a_ d) :
    Only l_ a_ (doSfdpDiscovery f d) := by
  refine Only.of ?_ s_ k_
  unfold doSfdpDiscovery
  try dsimp only
  repeat' (first
    | with_reducible exact Only.refl _ _ | exact rfl | intro _
    | with_reducible apply enterRecovery_only
    | fail_if_no_progress (with_reducible refine Only.rec_phase rfl ?_)
    | with_reducible apply Only.ite)

theorem doLoaderCheck_only {l_ : List Part} {a_ : Dev} (r : Reel) (d : Dev)
    (s_ : Part.sub [.phase, .pwr, .dst] l_ = true) (k_ : Only l_ a_ d) :
    Only l_ a_ (doLoaderCheck r d) := by
  refine Only.of ?_ s_ k_
  unfold doLoaderCheck
  try dsimp only
  repeat' (first
    | with_reducible exact Only.refl _ _ | exact rfl | intro _
    | with_reducible first
      | apply extendMd_only | apply enterRecovery_only
    | fail_if_no_progress (with_reducible refine Only.rec_phase rfl ?_)
    | with_reducible apply Only.ite)

theorem selfTest_only {l_ : List Part} {a_ : Dev} (d : Dev) (b : Nat) (code : BitVec 2)
    (s_ : Part.sub [.glb, .start, .evt] l_ = true) (k_ : Only l_ a_ d) :
    Only l_ a_ (selfTest d b code) := by
  refine Only.of ?_ s_ k_
  unfold selfTest
  try dsimp only
  repeat' (first
    | with_reducible exact Only.refl _ _ | exact rfl | intro _
    | with_reducible first
      | apply report_only | apply Dev.modGlb_only | apply Only.ite)

theorem doDramZeroFill_only {l_ : List Part} {a_ : Dev} (code : BitVec 2) (d : Dev)
    (s_ : Part.sub [.phase, .glb, .start, .evt] l_ = true) (k_ : Only l_ a_ d) :
    Only l_ a_ (doDramZeroFill code d) := by
  refine Only.of ?_ s_ k_
  unfold doDramZeroFill
  try dsimp only
  repeat' (first
    | with_reducible exact Only.refl _ _ | exact rfl | intro _
    | with_reducible apply selfTest_only
    | fail_if_no_progress (with_reducible refine Only.rec_phase rfl ?_)
    | with_reducible apply Only.ite)

theorem loadBank_only {l_ : List Part} {a_ : Dev} (d : Dev) (bank : Nat) (r0 r1 : Reel)
    (s_ : Part.sub [.phase, .start, .dst] l_ = true) (k_ : Only l_ a_ d) :
    Only l_ a_ (loadBank d bank r0 r1) := by
  refine Only.of ?_ s_ k_
  unfold loadBank
  try dsimp only
  repeat' (first
    | with_reducible exact Only.refl _ _ | exact rfl | intro _
    | with_reducible apply extendMd_only
    | fail_if_no_progress (with_reducible refine Only.rec_phase_start rfl ?_))

theorem bankFallback_only {l_ : List Part} {a_ : Dev} (d : Dev) (bank : Nat) (r0 r1 : Reel) (verifyOk : Bool)
    (s_ : Part.sub [.phase, .pwr, .start, .pra, .evt, .dst] l_ = true) (k_ : Only l_ a_ d) :
    Only l_ a_ (bankFallback d bank r0 r1 verifyOk) := by
  refine Only.of ?_ s_ k_
  unfold bankFallback
  try dsimp only
  repeat' (first
    | with_reducible exact Only.refl _ _ | exact rfl | intro _
    | with_reducible first
      | apply report_only | apply praSkip_only | apply enterRecovery_only | apply loadBank_only | apply Only.ite)

theorem doBankLoad_only {l_ : List Part} {a_ : Dev} (r0 r1 : Reel) (verifyOk : Bool) (d : Dev)
    (s_ : Part.sub [.phase, .pwr, .glb, .start, .pra, .evt, .whl, .dst] l_ = true) (k_ : Only l_ a_ d) :
    Only l_ a_ (doBankLoad r0 r1 verifyOk d) := by
  refine Only.of ?_ s_ k_
  unfold doBankLoad
  try dsimp only
  repeat' (first
    | with_reducible exact Only.refl _ _ | exact rfl | intro _
    | with_reducible first
      | apply report_only | apply praWait_only | apply loadBank_only | apply bankFallback_only | apply Only.ite)

theorem eraseReturned_only {l_ : List Part} {a_ : Dev} (faults : List Nat) (d : Dev)
    (s_ : Part.sub [.start, .pra, .evt, .dst] l_ = true) (k_ : Only l_ a_ d) :
    Only l_ a_ (eraseReturned faults d) := by
  refine Only.of ?_ s_ k_
  unfold eraseReturned
  try dsimp only
  repeat' (first
    | with_reducible exact Only.refl _ _ | exact rfl | intro _
    | with_reducible first
      | apply eraseSkein_only | apply Only.ite | apply Only.each)

theorem doFirmwareStart_only {l_ : List Part} {a_ : Dev} (tests : List SelfTest) (faults : List Nat) (d : Dev)
    (s_ : Part.sub [.phase, .free, .glb, .start, .pra, .evt, .ccp, .ply, .dst, .img] l_ = true) (k_ : Only l_ a_ d) :
    Only l_ a_ (doFirmwareStart tests faults d) := by
  refine Only.of ?_ s_ k_
  unfold doFirmwareStart
  try dsimp only
  repeat' (first
    | with_reducible exact Only.refl _ _ | exact rfl | intro _
    | with_reducible first
      | apply report_only | apply Dev.draw_only | apply praLow_only | apply loadSkein_only | apply selfTest_only
      | apply eraseReturned_only
    | fail_if_no_progress (with_reducible refine Only.rec_ccp_ply_img rfl ?_)
    | fail_if_no_progress (with_reducible refine Only.rec_phase rfl ?_)
    | with_reducible first
      | apply Only.ite | apply Only.each)

theorem refreshBanks_only {l_ : List Part} {a_ : Dev} (d : Dev)
    (s_ : Part.sub [.img] l_ = true) (k_ : Only l_ a_ d) :
    Only l_ a_ (refreshBanks d) := by
  refine Only.of ?_ s_ k_
  unfold refreshBanks
  try dsimp only
  repeat' (first
    | with_reducible exact Only.refl _ _ | exact rfl | intro _
    | with_reducible first
      | apply Dev.modImg_only | apply Only.ite | apply Only.each | apply OnlyO.some | apply OnlyO.none | apply OnlyO.getD
      | apply OnlyO.ite
    | with_reducible assumption
    | split)

theorem reelCommit_only {l_ : List Part} {a_ : Dev} (d : Dev) (verifyOk : Bool)
    (s_ : Part.sub [.pwr, .glb, .start, .pra, .evt, .whl] l_ = true) (k_ : Only l_ a_ d) :
    Only l_ a_ (reelCommit d verifyOk) := by
  refine Only.of ?_ s_ k_
  unfold reelCommit
  try dsimp only
  repeat' (first
    | with_reducible exact Only.refl _ _ | exact rfl | intro _
    | with_reducible first
      | apply report_only | apply praWait_only | apply Only.ite | apply Only.each | apply OnlyO.some | apply OnlyO.none
      | apply OnlyO.getD | apply OnlyO.ite
    | with_reducible assumption
    | split)

theorem logDeferred_only {l_ : List Part} {a_ : Dev} (d : Dev)
    (s_ : Part.sub [.start, .evt] l_ = true) (k_ : Only l_ a_ d) :
    Only l_ a_ (logDeferred d) := by
  refine Only.of ?_ s_ k_
  unfold logDeferred
  try dsimp only
  repeat' (first
    | with_reducible exact Only.refl _ _ | exact rfl | intro _
    | with_reducible apply reportDeferred_only
    | fail_if_no_progress (with_reducible refine Only.rec_start rfl ?_)
    | with_reducible first
      | apply Only.ite | apply Only.each)

theorem svcSend_only {l_ : List Part} {a_ : Dev} (d : Dev) (type : Nat) (seq : BitVec 8) (st : Status) (payload : List Byte)
    (s_ : Part.sub [.out] l_ = true) (k_ : Only l_ a_ d) :
    Only l_ a_ (svcSend d type seq st payload) := by
  refine Only.of ?_ s_ k_
  unfold svcSend
  try dsimp only
  repeat' (first
    | with_reducible exact Only.refl _ _ | exact rfl | intro _
    | with_reducible apply Dev.emit_only)

theorem svcReply_only {l_ : List Part} {a_ : Dev} (d : Dev) (type : Nat) (seq : BitVec 8) (st : Status) (payload : List Byte)
    (s_ : Part.sub [.out, .img] l_ = true) (k_ : Only l_ a_ d) :
    Only l_ a_ (svcReply d type seq st payload) := by
  refine Only.of ?_ s_ k_
  unfold svcReply
  try dsimp only
  repeat' (first
    | with_reducible exact Only.refl _ _ | exact rfl | intro _
    | with_reducible first
      | apply Dev.modImg_only | apply svcSend_only)

theorem answerQuote_only {l_ : List Part} {a_ : Dev} (master : Nat) (d : Dev)
    (q : Option (BitVec 128 × BitVec 16) × BitVec 8 × BitVec 256)
    (s_ : Part.sub [.out, .start, .evt, .dst, .img] l_ = true) (k_ : Only l_ a_ d) :
    Only l_ a_ (answerQuote master d q) := by
  refine Only.of ?_ s_ k_
  unfold answerQuote
  try dsimp only
  repeat' (first
    | with_reducible exact Only.refl _ _ | exact rfl | intro _
    | with_reducible first
      | apply Dev.emit_only | apply invoke_only | apply quoteStamp_only | apply quoteDrop_only | apply ccpEmit_only
      | apply svcReply_only | apply Only.ite | apply Only.each | apply OnlyO.some | apply OnlyO.none | apply OnlyO.getD
      | apply OnlyO.ite
    | with_reducible assumption
    | split
    | dsimp only
    | with_reducible refine Only.id ?_
    | refine OnlyO.get (by assumption) ?_
    | refine OnlyO.get1 (by assumption) ?_
    | refine Only.fst (by assumption) ?_
    | refine Only.snd (by assumption) ?_)

theorem reportStartChange_only {l_ : List Part} {a_ : Dev} (d : Dev)
    (s_ : Part.sub [.free, .start, .evt] l_ = true) (k_ : Only l_ a_ d) :
    Only l_ a_ (reportStartChange d) := by
  refine Only.of ?_ s_ k_
  unfold reportStartChange
  try dsimp only
  repeat' (first
    | with_reducible exact Only.refl _ _ | exact rfl | intro _
    | with_reducible first
      | apply report_only | apply Dev.draw_only | apply Only.ite)

theorem doStartHold_only {l_ : List Part} {a_ : Dev} (bootOk bankOk : Bool) (d : Dev)
    (s_ : Part.sub [.phase, .free, .out, .pwr, .glb, .start, .pra, .evt, .whl, .dst, .img] l_ = true) (k_ : Only l_ a_ d) :
    Only l_ a_ (doStartHold bootOk bankOk d) := by
  refine Only.of ?_ s_ k_
  unfold doStartHold
  try dsimp only
  repeat' (first
    | with_reducible exact Only.refl _ _ | exact rfl | intro _
    | with_reducible first
      | apply report_only | apply Dev.modDst_only | apply praWait_only | apply refreshBanks_only | apply reelCommit_only
      | apply logDeferred_only | apply answerQuote_only | apply reportStartChange_only
    | fail_if_no_progress (with_reducible refine Only.rec_phase_dst_glb_pwr rfl ?_)
    | with_reducible first
      | apply Only.ite | apply Only.each)

end Sys2Proof.Machine
end

