-- ==== Sys2Proof/Laws/FramesTraffic.lean ====
section
/-! SUPPORT. What the commands of queues and the shuttle may change. -/

namespace Sys2Proof.Machine

set_option Elab.async false
set_option linter.unusedTactic false

theorem sendOwn_only {l_ : List Part} {a_ : Dev} (d : Dev) (port : Port) (ptp : Bool) (data : List Byte)
    (s_ : Part.sub [.sht] l_ = true) (k_ : Only l_ a_ d) :
    Only l_ a_ (sendOwn d port ptp data) := by
  refine Only.of ?_ s_ k_
  unfold sendOwn
  try dsimp only
  repeat' (first
    | with_reducible exact Only.refl _ _ | exact rfl | intro _
    | with_reducible apply Dev.modSht_only)

theorem plyOut_only {l_ : List Part} {a_ : Dev} (d : Dev) (o : Output) (b : Bool)
    (s_ : Part.sub [.out, .sht, .ply] l_ = true) (k_ : Only l_ a_ d) :
    Only l_ a_ (plyOut d o b) := by
  refine Only.of ?_ s_ k_
  unfold plyOut
  try dsimp only
  repeat' (first
    | with_reducible exact Only.refl _ _ | exact rfl | intro _
    | with_reducible first
      | apply Dev.emit_only | apply Dev.modPly_only | apply sendOwn_only | apply Only.ite | apply Only.each)

theorem plySend_only {l_ : List Part} {a_ : Dev} (d : Dev) (o : Output)
    (s_ : Part.sub [.out, .start, .evt, .sht, .ply, .dst] l_ = true) (k_ : Only l_ a_ d) :
    Only l_ a_ (plySend d o) := by
  refine Only.of ?_ s_ k_
  unfold plySend
  try dsimp only
  repeat' (first
    | with_reducible exact Only.refl _ _ | exact rfl | intro _
    | with_reducible first
      | apply invoke_only | apply plyOut_only | apply Only.ite)

theorem loomSend_only {l_ : List Part} {a_ : Dev} (d : Dev) (x : LoomTo) (o : Output)
    (s_ : Part.sub [.out, .start, .evt, .ply, .dst] l_ = true) (k_ : Only l_ a_ d) :
    Only l_ a_ (loomSend d x o) := by
  refine Only.of ?_ s_ k_
  unfold loomSend
  try dsimp only
  repeat' (first
    | with_reducible exact Only.refl _ _ | exact rfl | intro _
    | with_reducible first
      | apply Dev.emit_only | apply Dev.modPly_only | apply invoke_only | apply Only.ite | apply Only.each)

theorem Dev.modNode_only {l_ : List Part} {a_ : Dev} (d : Dev) (i : Nat) (f : Node → Node)
    (s_ : Part.sub [.wrp] l_ = true) (k_ : Only l_ a_ d) :
    Only l_ a_ (Dev.modNode d i f) := by
  refine Only.of ?_ s_ k_
  unfold Dev.modNode
  try dsimp only
  repeat' (first
    | with_reducible exact Only.refl _ _ | exact rfl | intro _
    | with_reducible apply Dev.modWrp_only)

theorem assignRec_only {l_ : List Part} {a_ : Dev} (d : Dev) (r : DownRec)
    (s_ : Part.sub [.out, .start, .evt, .sht, .ply, .dst] l_ = true) (k_ : Only l_ a_ d) :
    Only l_ a_ (assignRec d r) := by
  refine Only.of ?_ s_ k_
  unfold assignRec
  try dsimp only
  repeat' (first
    | with_reducible exact Only.refl _ _ | exact rfl | intro _
    | with_reducible first
      | apply Dev.modPly_only | apply plySend_only)

theorem masterTake_only {l_ : List Part} {a_ : Dev} (d : Dev) (r : DownRec)
    (s_ : Part.sub [.out, .start, .evt, .sht, .ply, .dst] l_ = true) (k_ : Only l_ a_ d) :
    Only l_ a_ (masterTake d r) := by
  refine Only.of ?_ s_ k_
  unfold masterTake
  try dsimp only
  repeat' (first
    | with_reducible exact Only.refl _ _ | exact rfl | intro _
    | with_reducible first
      | apply Dev.modPly_only | apply assignRec_only | apply Only.ite | apply Only.each | apply OnlyO.some
      | apply OnlyO.none | apply OnlyO.getD | apply OnlyO.ite
    | with_reducible assumption
    | split)

theorem submitRec_only {l_ : List Part} {a_ : Dev} (d : Dev) (r : DownRec)
    (s_ : Part.sub [.out, .start, .evt, .sht, .ply, .dst] l_ = true) (k_ : Only l_ a_ d) :
    Only l_ a_ (submitRec d r) := by
  refine Only.of ?_ s_ k_
  unfold submitRec
  try dsimp only
  repeat' (first
    | with_reducible exact Only.refl _ _ | exact rfl | intro _
    | with_reducible first
      | apply Dev.modPly_only | apply plySend_only | apply masterTake_only | apply Only.ite)

theorem adoptWaiting_only {l_ : List Part} {a_ : Dev} (d : Dev)
    (s_ : Part.sub [.out, .start, .evt, .wrp, .sht, .ply, .dst] l_ = true) (k_ : Only l_ a_ d) :
    Only l_ a_ (adoptWaiting d) := by
  refine Only.of ?_ s_ k_
  unfold adoptWaiting
  try dsimp only
  repeat' (first
    | with_reducible exact Only.refl _ _ | exact rfl | intro _
    | with_reducible first
      | apply Dev.modWrp_only | apply Dev.modPly_only | apply masterTake_only | apply Only.ite | apply Only.each)

theorem discardNodes_only {l_ : List Part} {a_ : Dev} (d : Dev)
    (s_ : Part.sub [.wrp, .ply] l_ = true) (k_ : Only l_ a_ d) :
    Only l_ a_ (discardNodes d) := by
  refine Only.of ?_ s_ k_
  unfold discardNodes
  try dsimp only
  repeat' (first
    | with_reducible exact Only.refl _ _ | exact rfl | intro _
    | with_reducible first
      | apply Dev.modWrp_only | apply Dev.modPly_only)

theorem armTrickle_only {l_ : List Part} {a_ : Dev} (d : Dev) (from_ i : Nat)
    (s_ : Part.sub [.wrp] l_ = true) (k_ : Only l_ a_ d) :
    Only l_ a_ (armTrickle d from_ i) := by
  refine Only.of ?_ s_ k_
  unfold armTrickle
  try dsimp only
  repeat' (first
    | with_reducible exact Only.refl _ _ | exact rfl | intro _
    | with_reducible apply Dev.modWrp_only)

theorem setRole_only {l_ : List Part} {a_ : Dev} (d : Dev) (r : Role) (m : Bool)
    (s_ : Part.sub [.out, .start, .evt, .wrp, .sht, .ply, .dst] l_ = true) (k_ : Only l_ a_ d) :
    Only l_ a_ (setRole d r m) := by
  refine Only.of ?_ s_ k_
  unfold setRole
  try dsimp only
  repeat' (first
    | with_reducible exact Only.refl _ _ | exact rfl | intro _
    | with_reducible first
      | apply report_only | apply Dev.modPly_only | apply adoptWaiting_only | apply discardNodes_only
      | apply armTrickle_only | apply Only.ite)

theorem streamDelta_only {l_ : List Part} {a_ : Dev} (d : Dev) (x : Delta)
    (s_ : Part.sub [.out, .start, .evt, .sht, .ply, .dst] l_ = true) (k_ : Only l_ a_ d) :
    Only l_ a_ (streamDelta d x) := by
  refine Only.of ?_ s_ k_
  unfold streamDelta
  try dsimp only
  repeat' (first
    | with_reducible exact Only.refl _ _ | exact rfl | intro _
    | with_reducible first
      | apply Dev.modPly_only | apply plySend_only | apply Only.ite)

theorem oweCounters_only {l_ : List Part} {a_ : Dev} (d : Dev) (dest : Option Nat)
    (s_ : Part.sub [.wrp, .ply] l_ = true) (k_ : Only l_ a_ d) :
    Only l_ a_ (oweCounters d dest) := by
  refine Only.of ?_ s_ k_
  unfold oweCounters
  try dsimp only
  repeat' (first
    | with_reducible exact Only.refl _ _ | exact rfl | intro _
    | with_reducible first
      | apply Dev.modPly_only | apply Dev.modNode_only | apply Only.ite | apply Only.each | apply OnlyO.some
      | apply OnlyO.none | apply OnlyO.getD | apply OnlyO.ite
    | with_reducible assumption
    | split)

theorem unsync_only {l_ : List Part} {a_ : Dev} (d : Dev) (dest : Option Nat)
    (s_ : Part.sub [.start, .evt, .wrp, .ply] l_ = true) (k_ : Only l_ a_ d) :
    Only l_ a_ (unsync d dest) := by
  refine Only.of ?_ s_ k_
  unfold unsync
  try dsimp only
  repeat' (first
    | with_reducible exact Only.refl _ _ | exact rfl | intro _
    | with_reducible first
      | apply report_only | apply Dev.modPly_only | apply Dev.modNode_only | apply Only.ite | apply Only.each
      | apply OnlyO.some | apply OnlyO.none | apply OnlyO.getD | apply OnlyO.ite
    | with_reducible assumption
    | split)

theorem Dev.setQueue_only {l_ : List Part} {a_ : Dev} (d : Dev) (p : Port) (c : Nat) (l : List QPkt)
    (s_ : Part.sub [.sht] l_ = true) (k_ : Only l_ a_ d) :
    Only l_ a_ (Dev.setQueue d p c l) := by
  refine Only.of ?_ s_ k_
  unfold Dev.setQueue
  try dsimp only
  repeat' (first
    | with_reducible exact Only.refl _ _ | exact rfl | intro _
    | with_reducible apply Dev.modSht_only)

theorem Dev.modQport_only {l_ : List Part} {a_ : Dev} (d : Dev) (p : Port) (f : QPort → QPort)
    (s_ : Part.sub [.que] l_ = true) (k_ : Only l_ a_ d) :
    Only l_ a_ (Dev.modQport d p f) := by
  refine Only.of ?_ s_ k_
  unfold Dev.modQport
  try dsimp only
  repeat' (first
    | with_reducible exact Only.refl _ _ | exact rfl | intro _
    | fail_if_no_progress (with_reducible refine Only.rec_que rfl ?_)
    | with_reducible first
      | apply Only.ite | apply Only.each | apply OnlyO.some | apply OnlyO.none | apply OnlyO.getD | apply OnlyO.ite
    | with_reducible assumption
    | split)

theorem bufWatch_only {l_ : List Part} {a_ : Dev} (d : Dev)
    (s_ : Part.sub [.evt] l_ = true) (k_ : Only l_ a_ d) :
    Only l_ a_ (bufWatch d) := by
  refine Only.of ?_ s_ k_
  unfold bufWatch
  try dsimp only
  repeat' (first
    | with_reducible exact Only.refl _ _ | exact rfl | intro _
    | with_reducible apply watch_only)

theorem xoffWatch_only {l_ : List Part} {a_ : Dev} (d : Dev)
    (s_ : Part.sub [.evt] l_ = true) (k_ : Only l_ a_ d) :
    Only l_ a_ (xoffWatch d) := by
  refine Only.of ?_ s_ k_
  unfold xoffWatch
  try dsimp only
  repeat' (first
    | with_reducible exact Only.refl _ _ | exact rfl | intro _
    | with_reducible apply watchIf_only)

theorem fcLeave_only {l_ : List Part} {a_ : Dev} (d : Dev) (p : Port) (f : FcFrame)
    (s_ : Part.sub [.out, .que] l_ = true) (k_ : Only l_ a_ d) :
    Only l_ a_ (fcLeave d p f) := by
  refine Only.of ?_ s_ k_
  unfold fcLeave
  try dsimp only
  repeat' (first
    | with_reducible exact Only.refl _ _ | exact rfl | intro _
    | with_reducible first
      | apply Dev.emit_only | apply Dev.modQport_only)

theorem sendFc_only {l_ : List Part} {a_ : Dev} (d : Dev) (p : Port) (times : KMap Nat)
    (s_ : Part.sub [.out, .que] l_ = true) (k_ : Only l_ a_ d) :
    Only l_ a_ (sendFc d p times) := by
  refine Only.of ?_ s_ k_
  unfold sendFc
  try dsimp only
  repeat' (first
    | with_reducible exact Only.refl _ _ | exact rfl | intro _
    | with_reducible first
      | apply Dev.modQport_only | apply fcLeave_only | apply Only.ite)

theorem fcEvalPort_only {l_ : List Part} {a_ : Dev} (d : Dev) (p : Port)
    (s_ : Part.sub [.out, .que] l_ = true) (k_ : Only l_ a_ d) :
    Only l_ a_ (fcEvalPort d p) := by
  refine Only.of ?_ s_ k_
  unfold fcEvalPort
  try dsimp only
  repeat' (first
    | with_reducible exact Only.refl _ _ | exact rfl | intro _
    | with_reducible first
      | apply Dev.modQport_only | apply sendFc_only | apply Only.ite)

theorem bufEval_only {l_ : List Part} {a_ : Dev} (d : Dev)
    (s_ : Part.sub [.out, .evt, .que] l_ = true) (k_ : Only l_ a_ d) :
    Only l_ a_ (bufEval d) := by
  refine Only.of ?_ s_ k_
  unfold bufEval
  try dsimp only
  repeat' (first
    | with_reducible exact Only.refl _ _ | exact rfl | intro _
    | with_reducible first
      | apply bufWatch_only | apply xoffWatch_only | apply fcEvalPort_only)

theorem endXoff_only {l_ : List Part} {a_ : Dev} (d : Dev) (p : Port)
    (s_ : Part.sub [.out, .que] l_ = true) (k_ : Only l_ a_ d) :
    Only l_ a_ (endXoff d p) := by
  refine Only.of ?_ s_ k_
  unfold endXoff
  try dsimp only
  repeat' (first
    | with_reducible exact Only.refl _ _ | exact rfl | intro _
    | with_reducible first
      | apply Dev.modQport_only | apply sendFc_only | apply Only.ite)

theorem pauseWatch_only {l_ : List Part} {a_ : Dev} (d : Dev)
    (s_ : Part.sub [.evt] l_ = true) (k_ : Only l_ a_ d) :
    Only l_ a_ (pauseWatch d) := by
  refine Only.of ?_ s_ k_
  unfold pauseWatch
  try dsimp only
  repeat' (first
    | with_reducible exact Only.refl _ _ | exact rfl | intro _
    | with_reducible apply watchIf_only)

theorem doPauseReceive_only {l_ : List Part} {a_ : Dev} (port : Bool) (f : MacCtl) (d : Dev)
    (s_ : Part.sub [.start, .evt, .que] l_ = true) (k_ : Only l_ a_ d) :
    Only l_ a_ (doPauseReceive port f d) := by
  refine Only.of ?_ s_ k_
  unfold doPauseReceive
  try dsimp only
  repeat' (first
    | with_reducible exact Only.refl _ _ | exact rfl | intro _
    | with_reducible first
      | apply report_only | apply Dev.modQport_only | apply pauseWatch_only | apply Only.ite | apply Only.each
      | apply OnlyO.some | apply OnlyO.none | apply OnlyO.getD | apply OnlyO.ite
    | with_reducible assumption
    | split)

theorem doPauseExpire_only {l_ : List Part} {a_ : Dev} (port : Bool) (c : Fin 16) (d : Dev)
    (s_ : Part.sub [.evt, .que] l_ = true) (k_ : Only l_ a_ d) :
    Only l_ a_ (doPauseExpire port c d) := by
  refine Only.of ?_ s_ k_
  unfold doPauseExpire
  try dsimp only
  repeat' (first
    | with_reducible exact Only.refl _ _ | exact rfl | intro _
    | with_reducible first
      | apply Dev.modQport_only | apply pauseWatch_only)

theorem doPauseLong_only {l_ : List Part} {a_ : Dev} (port : Bool) (c : Fin 16) (d : Dev)
    (s_ : Part.sub [.evt] l_ = true) (k_ : Only l_ a_ d) :
    Only l_ a_ (doPauseLong port c d) := by
  refine Only.of ?_ s_ k_
  unfold doPauseLong
  try dsimp only
  repeat' (first
    | with_reducible exact Only.refl _ _ | exact rfl | intro _
    | with_reducible first
      | apply pauseWatch_only | apply Only.ite | apply Only.each | apply OnlyO.some | apply OnlyO.none | apply OnlyO.getD
      | apply OnlyO.ite
    | with_reducible assumption
    | split)

theorem doPfcRefresh_only {l_ : List Part} {a_ : Dev} (port : Bool) (i : Fin 8) (d : Dev)
    (s_ : Part.sub [.out, .que] l_ = true) (k_ : Only l_ a_ d) :
    Only l_ a_ (doPfcRefresh port i d) := by
  refine Only.of ?_ s_ k_
  unfold doPfcRefresh
  try dsimp only
  repeat' (first
    | with_reducible exact Only.refl _ _ | exact rfl | intro _
    | with_reducible first
      | apply Dev.modQport_only | apply sendFc_only | apply Only.ite | apply Only.each | apply OnlyO.some | apply OnlyO.none
      | apply OnlyO.getD | apply OnlyO.ite
    | with_reducible assumption
    | split)

theorem gateSwitchNow_only {l_ : List Part} {a_ : Dev} (d : Dev) (p : Port)
    (s_ : Part.sub [.start, .evt, .que] l_ = true) (k_ : Only l_ a_ d) :
    Only l_ a_ (gateSwitchNow d p) := by
  refine Only.of ?_ s_ k_
  unfold gateSwitchNow
  try dsimp only
  repeat' (first
    | with_reducible exact Only.refl _ _ | exact rfl | intro _
    | with_reducible first
      | apply report_only | apply Dev.modQport_only)

theorem gateDue_only {l_ : List Part} {a_ : Dev} (d : Dev) (p : Port)
    (s_ : Part.sub [.start, .evt, .que] l_ = true) (k_ : Only l_ a_ d) :
    Only l_ a_ (gateDue d p) := by
  refine Only.of ?_ s_ k_
  unfold gateDue
  try dsimp only
  repeat' (first
    | with_reducible exact Only.refl _ _ | exact rfl | intro _
    | with_reducible first
      | apply gateSwitchNow_only | apply Only.ite)

theorem doGateSwitch_only {l_ : List Part} {a_ : Dev} (p : Fin 3) (d : Dev)
    (s_ : Part.sub [.start, .evt, .que] l_ = true) (k_ : Only l_ a_ d) :
    Only l_ a_ (doGateSwitch p d) := by
  refine Only.of ?_ s_ k_
  unfold doGateSwitch
  try dsimp only
  repeat' (first
    | with_reducible exact Only.refl _ _ | exact rfl | intro _
    | with_reducible apply gateDue_only)

theorem doGateEntryChange_only {l_ : List Part} {a_ : Dev} (p : Fin 3) (d : Dev)
    (s_ : Part.sub [.que] l_ = true) (k_ : Only l_ a_ d) :
    Only l_ a_ (doGateEntryChange p d) := by
  refine Only.of ?_ s_ k_
  unfold doGateEntryChange
  try dsimp only
  repeat' (first
    | with_reducible exact Only.refl _ _ | exact rfl | intro _
    | with_reducible apply Dev.modQport_only)

theorem writeGctrl_only {l_ : List Part} {a_ : Dev} (d : Dev) (p : Port) (v : Word)
    (s_ : Part.sub [.que] l_ = true) (k_ : Only l_ a_ d) :
    Only l_ a_ (writeGctrl d p v).1 := by
  refine Only.of ?_ s_ k_
  unfold writeGctrl
  try dsimp only
  repeat' (first
    | with_reducible exact Only.refl _ _ | exact rfl | intro _
    | with_reducible first
      | apply Dev.modQport_only | apply Only.ite | apply Only.each | apply OnlyO.some | apply OnlyO.none | apply OnlyO.getD
      | apply OnlyO.ite
    | with_reducible assumption
    | split)

theorem doGateArm_only {l_ : List Part} {a_ : Dev} (p : Fin 3) (v : Word) (d : Dev)
    (s_ : Part.sub [.out, .que] l_ = true) (k_ : Only l_ a_ d) :
    Only l_ a_ (doGateArm p v d) := by
  refine Only.of ?_ s_ k_
  unfold doGateArm
  try dsimp only
  repeat' (first
    | with_reducible exact Only.refl _ _ | exact rfl | intro _
    | with_reducible refine regRow_only (by beta_reduce; exact rfl) ?_ ?_ ?_
    | with_reducible apply writeGctrl_only)

theorem doGateCancel_only {l_ : List Part} {a_ : Dev} (p : Fin 3) (v : Word) (d : Dev)
    (s_ : Part.sub [.out, .que] l_ = true) (k_ : Only l_ a_ d) :
    Only l_ a_ (doGateCancel p v d) := by
  refine Only.of ?_ s_ k_
  unfold doGateCancel
  try dsimp only
  repeat' (first
    | with_reducible exact Only.refl _ _ | exact rfl | intro _
    | with_reducible refine regRow_only (by beta_reduce; exact rfl) ?_ ?_ ?_
    | with_reducible apply writeGctrl_only)

theorem changeFc_only {l_ : List Part} {a_ : Dev} (d : Dev) (p : Port) (f : QPort → QPort)
    (s_ : Part.sub [.out, .evt, .que] l_ = true) (k_ : Only l_ a_ d) :
    Only l_ a_ (changeFc d p f).1 := by
  refine Only.of ?_ s_ k_
  unfold changeFc
  try dsimp only
  repeat' (first
    | with_reducible exact Only.refl _ _ | exact rfl | intro _
    | with_reducible first
      | apply Dev.modQport_only | apply bufEval_only | apply endXoff_only | apply Only.ite | apply Only.each
      | apply OnlyO.some | apply OnlyO.none | apply OnlyO.getD | apply OnlyO.ite
    | with_reducible assumption
    | split)

theorem writePortReg_only {l_ : List Part} {a_ : Dev} (d : Dev) (p : Port) (o : Nat) (v : Word)
    (s_ : Part.sub [.out, .evt, .que] l_ = true) (k_ : Only l_ a_ d) :
    OnlyO l_ a_ (writePortReg d p o v) := by
  refine OnlyO.of ?_ s_ k_
  unfold writePortReg
  try dsimp only
  repeat' (first
    | with_reducible exact Only.refl _ _ | exact rfl | intro _
    | with_reducible first
      | apply Dev.modQport_only | apply bufEval_only | apply changeFc_only | apply Only.ite | apply Only.each
      | apply OnlyO.some | apply OnlyO.none | apply OnlyO.getD | apply OnlyO.ite
    | with_reducible assumption
    | split)

theorem writeGateReg_only {l_ : List Part} {a_ : Dev} (d : Dev) (p : Port) (o : Nat) (v : Word)
    (s_ : Part.sub [.que] l_ = true) (k_ : Only l_ a_ d) :
    OnlyO l_ a_ (writeGateReg d p o v) := by
  refine OnlyO.of ?_ s_ k_
  unfold writeGateReg
  try dsimp only
  repeat' (first
    | with_reducible exact Only.refl _ _ | exact rfl | intro _
    | with_reducible first
      | apply Dev.modQport_only | apply writeGctrl_only | apply Only.ite | apply Only.each | apply OnlyO.some
      | apply OnlyO.none | apply OnlyO.getD | apply OnlyO.ite
    | with_reducible assumption
    | split)

theorem writePrimap_only {l_ : List Part} {a_ : Dev} (d : Dev) (m : Nat) (v : Word)
    (s_ : Part.sub [.out, .evt, .que] l_ = true) (k_ : Only l_ a_ d) :
    Only l_ a_ (writePrimap d m v).1 := by
  refine Only.of ?_ s_ k_
  unfold writePrimap
  try dsimp only
  repeat' (first
    | with_reducible exact Only.refl _ _ | exact rfl | intro _
    | with_reducible apply bufEval_only
    | fail_if_no_progress (with_reducible refine Only.rec_que rfl ?_))

theorem writeQue_only {l_ : List Part} {a_ : Dev} (d : Dev) (o : Nat) (v : Word)
    (s_ : Part.sub [.out, .evt, .que] l_ = true) (k_ : Only l_ a_ d) :
    OnlyO l_ a_ (writeQue d o v) := by
  refine OnlyO.of ?_ s_ k_
  unfold writeQue
  try dsimp only
  repeat' (first
    | with_reducible exact Only.refl _ _ | exact rfl | intro _
    | with_reducible first
      | apply writePortReg_only | apply writeGateReg_only | apply writePrimap_only | apply Only.ite | apply Only.each
      | apply OnlyO.some | apply OnlyO.none | apply OnlyO.getD | apply OnlyO.ite
    | with_reducible assumption
    | split)

theorem queRow_only {l_ : List Part} {a_ : Dev} (d : Dev) (addr : Nat) (v : Word) (mine : Nat → Bool)
    (s_ : Part.sub [.out, .evt, .que] l_ = true) (k_ : Only l_ a_ d) :
    Only l_ a_ (queRow d addr v mine) := by
  refine Only.of ?_ s_ k_
  unfold queRow
  try dsimp only
  repeat' (first
    | with_reducible exact Only.refl _ _ | exact rfl | intro _
    | with_reducible refine regRow_only (by beta_reduce; exact rfl) ?_ ?_ ?_
    | with_reducible first
      | apply writeQue_only | apply Only.ite | apply Only.each | apply OnlyO.some | apply OnlyO.none | apply OnlyO.getD
      | apply OnlyO.ite
    | with_reducible assumption
    | split
    | dsimp only
    | with_reducible refine Only.id ?_
    | refine OnlyO.get (by assumption) ?_)

theorem doShaperWrite_only {l_ : List Part} {a_ : Dev} (addr : Nat) (v : Word) (d : Dev)
    (s_ : Part.sub [.out, .evt, .que] l_ = true) (k_ : Only l_ a_ d) :
    Only l_ a_ (doShaperWrite addr v d) := by
  refine Only.of ?_ s_ k_
  unfold doShaperWrite
  try dsimp only
  repeat' (first
    | with_reducible exact Only.refl _ _ | exact rfl | intro _
    | with_reducible apply queRow_only)

theorem doFcConfigWrite_only {l_ : List Part} {a_ : Dev} (addr : Nat) (v : Word) (d : Dev)
    (s_ : Part.sub [.out, .evt, .que] l_ = true) (k_ : Only l_ a_ d) :
    Only l_ a_ (doFcConfigWrite addr v d) := by
  refine Only.of ?_ s_ k_
  unfold doFcConfigWrite
  try dsimp only
  repeat' (first
    | with_reducible exact Only.refl _ _ | exact rfl | intro _
    | with_reducible apply queRow_only)

theorem writeCrd_only {l_ : List Part} {a_ : Dev} (d : Dev) (o : Nat) (v : Word)
    (s_ : Part.sub [.crd] l_ = true) (k_ : Only l_ a_ d) :
    OnlyO l_ a_ (writeCrd d o v) := by
  refine OnlyO.of ?_ s_ k_
  unfold writeCrd
  try dsimp only
  repeat' (first
    | with_reducible exact Only.refl _ _ | exact rfl | intro _
    | fail_if_no_progress (with_reducible refine Only.rec_crd rfl ?_)
    | with_reducible first
      | apply Only.ite | apply Only.each | apply OnlyO.some | apply OnlyO.none | apply OnlyO.getD | apply OnlyO.ite
    | with_reducible assumption
    | split)

theorem doPolicerWrite_only {l_ : List Part} {a_ : Dev} (addr : Nat) (v : Word) (d : Dev)
    (s_ : Part.sub [.out, .crd] l_ = true) (k_ : Only l_ a_ d) :
    Only l_ a_ (doPolicerWrite addr v d) := by
  refine Only.of ?_ s_ k_
  unfold doPolicerWrite
  try dsimp only
  repeat' (first
    | with_reducible exact Only.refl _ _ | exact rfl | intro _
    | with_reducible refine regRow_only (by beta_reduce; exact rfl) ?_ ?_ ?_
    | with_reducible first
      | apply writeCrd_only | apply Only.ite | apply Only.each | apply OnlyO.some | apply OnlyO.none | apply OnlyO.getD
      | apply OnlyO.ite
    | with_reducible assumption
    | split
    | dsimp only
    | with_reducible refine Only.id ?_
    | refine OnlyO.get (by assumption) ?_)

theorem police_only {l_ : List Part} {a_ : Dev} (d : Dev) (i l : Nat)
    (s_ : Part.sub [.start, .evt, .crd] l_ = true) (k_ : Only l_ a_ d) :
    Only l_ a_ (police d i l).2 := by
  refine Only.of ?_ s_ k_
  unfold police
  try dsimp only
  repeat' (first
    | with_reducible exact Only.refl _ _ | exact rfl | intro _
    | with_reducible apply report_only
    | fail_if_no_progress (with_reducible refine Only.rec_crd rfl ?_)
    | with_reducible first
      | apply Only.ite | apply Only.each | apply OnlyO.some | apply OnlyO.none | apply OnlyO.getD | apply OnlyO.ite
    | with_reducible assumption
    | split)

theorem parityAt_only {l_ : List Part} {a_ : Dev} (d : Dev) (shadow : Bool) (table index : Nat)
    (s_ : Part.sub [.start, .evt, .sht] l_ = true) (k_ : Only l_ a_ d) :
    Only l_ a_ (parityAt d shadow table index) := by
  refine Only.of ?_ s_ k_
  unfold parityAt
  try dsimp only
  repeat' (first
    | with_reducible exact Only.refl _ _ | exact rfl | intro _
    | with_reducible first
      | apply report_only | apply Dev.modSht_only)

theorem lookupAt_only {l_ : List Part} {a_ : Dev} (shadow : Bool) (dst : BitVec 128) (d : Dev) (x : List Probe)
    (s_ : Part.sub [.start, .evt, .sht] l_ = true) (k_ : Only l_ a_ d) :
    Only l_ a_ (lookupAt shadow dst d x).1 := by
  induction x generalizing d with
  | nil => exact k_
  | cons x r ih =>
    unfold lookupAt
    dsimp only
    split
    · exact ih _ k_
    · split
      · exact ih _ (parityAt_only _ _ _ _ (Part.sub_trans (p := [.start, .evt, .sht]) rfl s_) (Dev.modSht_only _ _ (Part.sub_trans (p := [.sht]) rfl s_) k_))
      · split
        · exact k_
        · exact ih _ k_

theorem lookup_only {l_ : List Part} {a_ : Dev} (d : Dev) (shadow : Bool) (dst : BitVec 128)
    (s_ : Part.sub [.start, .evt, .sht] l_ = true) (k_ : Only l_ a_ d) :
    Only l_ a_ (lookup d shadow dst).1 := by
  refine Only.of ?_ s_ k_
  unfold lookup
  try dsimp only
  repeat' (first
    | with_reducible exact Only.refl _ _ | exact rfl | intro _
    | with_reducible apply lookupAt_only)

theorem bhEntry_only {l_ : List Part} {a_ : Dev} (d : Dev) (p : Packet)
    (s_ : Part.sub [.start, .evt, .sht] l_ = true) (k_ : Only l_ a_ d) :
    Only l_ a_ (bhEntry d p).2 := by
  refine Only.of ?_ s_ k_
  unfold bhEntry
  try dsimp only
  repeat' (first
    | with_reducible exact Only.refl _ _ | exact rfl | intro _
    | with_reducible first
      | apply parityAt_only | apply Only.ite | apply Only.each | apply OnlyO.some | apply OnlyO.none | apply OnlyO.getD
      | apply OnlyO.ite
    | with_reducible assumption
    | split)

theorem Dev.shtCount_only {l_ : List Part} {a_ : Dev} (d : Dev) (f : Sht → Sht)
    (s_ : Part.sub [.sht] l_ = true) (k_ : Only l_ a_ d) :
    Only l_ a_ (Dev.shtCount d f) := by
  refine Only.of ?_ s_ k_
  unfold Dev.shtCount
  try dsimp only
  repeat' (first
    | with_reducible exact Only.refl _ _ | exact rfl | intro _
    | with_reducible apply Dev.modSht_only)

theorem dropBuf_only {l_ : List Part} {a_ : Dev} (d : Dev)
    (s_ : Part.sub [.sht] l_ = true) (k_ : Only l_ a_ d) :
    Only l_ a_ (dropBuf d) := by
  refine Only.of ?_ s_ k_
  unfold dropBuf
  try dsimp only
  repeat' (first
    | with_reducible exact Only.refl _ _ | exact rfl | intro _
    | with_reducible apply Dev.shtCount_only)

theorem dropMiss_only {l_ : List Part} {a_ : Dev} (d : Dev)
    (s_ : Part.sub [.sht] l_ = true) (k_ : Only l_ a_ d) :
    Only l_ a_ (dropMiss d) := by
  refine Only.of ?_ s_ k_
  unfold dropMiss
  try dsimp only
  repeat' (first
    | with_reducible exact Only.refl _ _ | exact rfl | intro _
    | with_reducible apply Dev.shtCount_only)

theorem dropNonip_only {l_ : List Part} {a_ : Dev} (d : Dev)
    (s_ : Part.sub [.sht] l_ = true) (k_ : Only l_ a_ d) :
    Only l_ a_ (dropNonip d) := by
  refine Only.of ?_ s_ k_
  unfold dropNonip
  try dsimp only
  repeat' (first
    | with_reducible exact Only.refl _ _ | exact rfl | intro _
    | with_reducible apply Dev.shtCount_only)

theorem dropHop_only {l_ : List Part} {a_ : Dev} (d : Dev)
    (s_ : Part.sub [.sht] l_ = true) (k_ : Only l_ a_ d) :
    Only l_ a_ (dropHop d) := by
  refine Only.of ?_ s_ k_
  unfold dropHop
  try dsimp only
  repeat' (first
    | with_reducible exact Only.refl _ _ | exact rfl | intro _
    | with_reducible apply Dev.shtCount_only)

theorem dropMtu_only {l_ : List Part} {a_ : Dev} (d : Dev)
    (s_ : Part.sub [.sht] l_ = true) (k_ : Only l_ a_ d) :
    Only l_ a_ (dropMtu d) := by
  refine Only.of ?_ s_ k_
  unfold dropMtu
  try dsimp only
  repeat' (first
    | with_reducible exact Only.refl _ _ | exact rfl | intro _
    | with_reducible apply Dev.shtCount_only)

theorem dropNoport_only {l_ : List Part} {a_ : Dev} (d : Dev)
    (s_ : Part.sub [.sht] l_ = true) (k_ : Only l_ a_ d) :
    Only l_ a_ (dropNoport d) := by
  refine Only.of ?_ s_ k_
  unfold dropNoport
  try dsimp only
  repeat' (first
    | with_reducible exact Only.refl _ _ | exact rfl | intro _
    | with_reducible apply Dev.shtCount_only)

theorem dropNonode_only {l_ : List Part} {a_ : Dev} (d : Dev)
    (s_ : Part.sub [.sht] l_ = true) (k_ : Only l_ a_ d) :
    Only l_ a_ (dropNonode d) := by
  refine Only.of ?_ s_ k_
  unfold dropNonode
  try dsimp only
  repeat' (first
    | with_reducible exact Only.refl _ _ | exact rfl | intro _
    | with_reducible apply Dev.shtCount_only)

theorem enterQueue_only {l_ : List Part} {a_ : Dev} (d : Dev) (inPort : Port) (inClass : Nat) (p : Port) (c : Nat)
    (k : Packet) (node : Option Nat)
    (s_ : Part.sub [.out, .start, .evt, .sht, .que] l_ = true) (k_ : Only l_ a_ d) :
    Only l_ a_ (enterQueue d inPort inClass p c k node) := by
  refine Only.of ?_ s_ k_
  unfold enterQueue
  try dsimp only
  repeat' (first
    | with_reducible exact Only.refl _ _ | exact rfl | intro _
    | with_reducible first
      | apply report_only | apply Dev.modSht_only | apply Dev.setQueue_only | apply Dev.modQport_only | apply bufEval_only
      | apply dropBuf_only | apply Only.ite | apply Only.each | apply OnlyO.some | apply OnlyO.none | apply OnlyO.getD
      | apply OnlyO.ite
    | with_reducible assumption
    | split)

theorem forwardFit_only {l_ : List Part} {a_ : Dev} (d : Dev) (inPort : Port) (inClass : Nat) (p : Port) (c : Nat)
    (node : Option Nat) (k : Packet)
    (s_ : Part.sub [.out, .glb, .start, .evt, .sht, .que] l_ = true) (k_ : Only l_ a_ d) :
    Only l_ a_ (forwardFit d inPort inClass p c node k) := by
  refine Only.of ?_ s_ k_
  unfold forwardFit
  try dsimp only
  repeat' (first
    | with_reducible exact Only.refl _ _ | exact rfl | intro _
    | with_reducible first
      | apply Dev.modGlb_only | apply dropNonode_only | apply enterQueue_only | apply Only.ite | apply Only.each
      | apply OnlyO.some | apply OnlyO.none | apply OnlyO.getD | apply OnlyO.ite
    | with_reducible assumption
    | split)

theorem forward_only {l_ : List Part} {a_ : Dev} (d : Dev) (inPort : Port) (inClass : Nat) (p : Port) (c : Nat) (k : Packet)
    (node : Option Nat)
    (s_ : Part.sub [.free, .out, .glb, .start, .evt, .sht, .que] l_ = true) (k_ : Only l_ a_ d) :
    Only l_ a_ (forward d inPort inClass p c k node) := by
  refine Only.of ?_ s_ k_
  unfold forward
  try dsimp only
  repeat' (first
    | with_reducible exact Only.refl _ _ | exact rfl | intro _
    | with_reducible first
      | apply Dev.draw_only | apply dropHop_only | apply dropMtu_only | apply forwardFit_only | apply Only.ite
      | apply Only.each)

theorem forwardBh_only {l_ : List Part} {a_ : Dev} (d : Dev) (inPort : Port) (inClass c : Nat) (k : Packet)
    (s_ : Part.sub [.free, .out, .glb, .start, .evt, .sht, .que] l_ = true) (k_ : Only l_ a_ d) :
    Only l_ a_ (forwardBh d inPort inClass c k) := by
  refine Only.of ?_ s_ k_
  unfold forwardBh
  try dsimp only
  repeat' (first
    | with_reducible exact Only.refl _ _ | exact rfl | intro _
    | with_reducible first
      | apply bhEntry_only | apply dropHop_only | apply dropMtu_only | apply dropNoport_only | apply forward_only
      | apply Only.ite)

theorem routePacket_only {l_ : List Part} {a_ : Dev} (d : Dev) (inPort : Port) (c : Nat) (k : Packet)
    (s_ : Part.sub [.free, .out, .glb, .start, .evt, .sht, .que] l_ = true) (k_ : Only l_ a_ d) :
    Only l_ a_ (routePacket d inPort c k) := by
  refine Only.of ?_ s_ k_
  unfold routePacket
  try dsimp only
  repeat' (first
    | with_reducible exact Only.refl _ _ | exact rfl | intro _
    | with_reducible first
      | apply lookup_only | apply dropMiss_only | apply forward_only | apply forwardBh_only | apply Only.ite
      | apply Only.each | apply OnlyO.some | apply OnlyO.none | apply OnlyO.getD | apply OnlyO.ite
    | with_reducible assumption
    | split
    | dsimp only
    | with_reducible refine Only.id ?_
    | refine OnlyO.get (by assumption) ?_
    | refine OnlyO.get1 (by assumption) ?_
    | refine Only.fst (by assumption) ?_)

theorem ingressPacket_only {l_ : List Part} {a_ : Dev} (d : Dev) (port : Port) (k : Packet)
    (s_ : Part.sub [.free, .out, .glb, .start, .evt, .sht, .que, .crd] l_ = true) (k_ : Only l_ a_ d) :
    Only l_ a_ (ingressPacket d port k) := by
  refine Only.of ?_ s_ k_
  unfold ingressPacket
  try dsimp only
  repeat' (first
    | with_reducible exact Only.refl _ _ | exact rfl | intro _
    | with_reducible first
      | apply police_only | apply dropNonip_only | apply enterQueue_only | apply routePacket_only | apply Only.ite)

theorem doPacketIngress_only {l_ : List Part} {a_ : Dev} (port : Port) (k : Packet) (d : Dev)
    (s_ : Part.sub [.free, .out, .glb, .start, .evt, .sht, .que, .crd] l_ = true) (k_ : Only l_ a_ d) :
    Only l_ a_ (doPacketIngress port k d) := by
  refine Only.of ?_ s_ k_
  unfold doPacketIngress
  try dsimp only
  repeat' (first
    | with_reducible exact Only.refl _ _ | exact rfl | intro _
    | with_reducible first
      | apply ingressPacket_only | apply Only.ite)

theorem endIngress_only {l_ : List Part} {a_ : Dev} (d : Dev) (port : Port) (fcsOk : Bool)
    (s_ : Part.sub [.out, .start, .evt, .sht, .que] l_ = true) (k_ : Only l_ a_ d) :
    Only l_ a_ (endIngress d port fcsOk) := by
  refine Only.of ?_ s_ k_
  unfold endIngress
  try dsimp only
  repeat' (first
    | with_reducible exact Only.refl _ _ | exact rfl | intro _
    | with_reducible first
      | apply report_only | apply Dev.emit_only | apply Dev.modSht_only | apply Dev.setQueue_only | apply Dev.modQport_only
      | apply bufEval_only | apply Only.ite | apply Only.each | apply OnlyO.some | apply OnlyO.none | apply OnlyO.getD
      | apply OnlyO.ite
    | with_reducible assumption
    | split)

theorem doPacketIngressEnd_only {l_ : List Part} {a_ : Dev} (port : Port) (fcsOk : Bool) (d : Dev)
    (s_ : Part.sub [.out, .start, .evt, .sht, .que] l_ = true) (k_ : Only l_ a_ d) :
    Only l_ a_ (doPacketIngressEnd port fcsOk d) := by
  refine Only.of ?_ s_ k_
  unfold doPacketIngressEnd
  try dsimp only
  repeat' (first
    | with_reducible exact Only.refl _ _ | exact rfl | intro _
    | with_reducible apply endIngress_only)

theorem dropOversize_only {l_ : List Part} {a_ : Dev} (d : Dev) (p : Port) (c : Nat)
    (s_ : Part.sub [.out, .start, .evt, .sht, .que] l_ = true) (k_ : Only l_ a_ d) :
    Only l_ a_ (dropOversize d p c) := by
  refine Only.of ?_ s_ k_
  unfold dropOversize
  try dsimp only
  repeat' (first
    | with_reducible exact Only.refl _ _ | exact rfl | intro _
    | with_reducible first
      | apply report_only | apply Dev.setQueue_only | apply Dev.modQport_only | apply bufEval_only | apply Only.ite
      | apply Only.each)

theorem meshRecord_only {l_ : List Part} {a_ : Dev} (d : Dev) (k : QPkt)
    (s_ : Part.sub [.out, .start, .evt, .sht, .ply, .dst] l_ = true) (k_ : Only l_ a_ d) :
    Only l_ a_ (meshRecord d k) := by
  refine Only.of ?_ s_ k_
  unfold meshRecord
  try dsimp only
  repeat' (first
    | with_reducible exact Only.refl _ _ | exact rfl | intro _
    | with_reducible first
      | apply submitRec_only | apply Only.ite | apply Only.each | apply OnlyO.some | apply OnlyO.none | apply OnlyO.getD
      | apply OnlyO.ite
    | with_reducible assumption
    | split)

theorem advertise_only {l_ : List Part} {a_ : Dev} (d : Dev) (k : QPkt) (target : BitVec 128)
    (s_ : Part.sub [.out] l_ = true) (k_ : Only l_ a_ d) :
    Only l_ a_ (advertise d k target) := by
  refine Only.of ?_ s_ k_
  unfold advertise
  try dsimp only
  repeat' (first
    | with_reducible exact Only.refl _ _ | exact rfl | intro _
    | with_reducible apply Dev.emit_only)

theorem toFirmware_only {l_ : List Part} {a_ : Dev} (d : Dev) (k : QPkt)
    (s_ : Part.sub [.out, .sht] l_ = true) (k_ : Only l_ a_ d) :
    Only l_ a_ (toFirmware d k) := by
  refine Only.of ?_ s_ k_
  unfold toFirmware
  try dsimp only
  repeat' (first
    | with_reducible exact Only.refl _ _ | exact rfl | intro _
    | with_reducible first
      | apply Dev.modSht_only | apply advertise_only | apply Only.ite | apply Only.each | apply OnlyO.some
      | apply OnlyO.none | apply OnlyO.getD | apply OnlyO.ite
    | with_reducible assumption
    | split)

theorem stampDelayReq_only {l_ : List Part} {a_ : Dev} (d : Dev) (p : Port) (k : QPkt)
    (s_ : Part.sub [.whl] l_ = true) (k_ : Only l_ a_ d) :
    Only l_ a_ (stampDelayReq d p k) := by
  refine Only.of ?_ s_ k_
  unfold stampDelayReq
  try dsimp only
  repeat' (first
    | with_reducible exact Only.refl _ _ | exact rfl | intro _
    | with_reducible first
      | apply Dev.modWhl_only | apply Only.ite)

theorem selectLoop_only {l_ : List Part} {a_ : Dev} (n : Nat) (d : Dev) (p : Port)
    (s_ : Part.sub [.out, .start, .evt, .whl, .sht, .que, .ply, .dst] l_ = true) (k_ : Only l_ a_ d) :
    Only l_ a_ (selectLoop n d p) := by
  induction n generalizing d with
  | zero => exact k_
  | succ n ih =>
    unfold selectLoop
    split
    · exact k_
    split
    · exact k_
    rename_i c _ _ k rest _
    split
    · rename_i f hf
      refine ih _ (bufEval_only _ (Part.sub_trans (p := [.out, .evt, .que]) rfl s_) ?_)
      have kq := Dev.setQueue_only d p c rest (Part.sub_trans (p := [.sht]) rfl s_) k_
      unfold dequeueDrop at hf
      repeat' (split at hf)
      all_goals first
        | (cases hf; first
            | exact dropBuf_only _ (Part.sub_trans (p := [.sht]) rfl s_) kq
            | exact dropNoport_only _ (Part.sub_trans (p := [.sht]) rfl s_) kq
            | exact dropNonode_only _ (Part.sub_trans (p := [.sht]) rfl s_) kq)
        | cases hf
    · refine bufEval_only _ (Part.sub_trans (p := [.out, .evt, .que]) rfl s_) ?_
      dsimp only
      repeat' (first
        | with_reducible apply meshRecord_only
        | with_reducible apply stampDelayReq_only
        | with_reducible apply toFirmware_only
        | with_reducible apply Dev.modQport_only
        | with_reducible apply Dev.emit_only
        | with_reducible apply Dev.setQueue_only
        | assumption
        | exact Part.sub_trans rfl s_
        | split)

theorem fcNext_only {l_ : List Part} {a_ : Dev} (d : Dev) (p : Port)
    (s_ : Part.sub [.out, .que] l_ = true) (k_ : Only l_ a_ d) :
    Only l_ a_ (fcNext d p) := by
  refine Only.of ?_ s_ k_
  unfold fcNext
  try dsimp only
  repeat' (first
    | with_reducible exact Only.refl _ _ | exact rfl | intro _
    | with_reducible first
      | apply Dev.modQport_only | apply fcLeave_only | apply Only.ite | apply Only.each | apply OnlyO.some
      | apply OnlyO.none | apply OnlyO.getD | apply OnlyO.ite
    | with_reducible assumption
    | split)

theorem selectPort_only {l_ : List Part} {a_ : Dev} (d : Dev) (p : Port)
    (s_ : Part.sub [.out, .start, .evt, .whl, .sht, .que, .ply, .dst] l_ = true) (k_ : Only l_ a_ d) :
    Only l_ a_ (selectPort d p) := by
  refine Only.of ?_ s_ k_
  unfold selectPort
  try dsimp only
  repeat' (first
    | with_reducible exact Only.refl _ _ | exact rfl | intro _
    | with_reducible first
      | apply dropOversize_only | apply selectLoop_only | apply Only.ite | apply Only.each)

theorem doEgressSelect_only {l_ : List Part} {a_ : Dev} (p : Port) (d : Dev)
    (s_ : Part.sub [.out, .start, .evt, .whl, .sht, .que, .ply, .dst] l_ = true) (k_ : Only l_ a_ d) :
    Only l_ a_ (doEgressSelect p d) := by
  refine Only.of ?_ s_ k_
  unfold doEgressSelect
  try dsimp only
  repeat' (first
    | with_reducible exact Only.refl _ _ | exact rfl | intro _
    | with_reducible first
      | apply Dev.modQport_only | apply bufEval_only | apply fcNext_only | apply selectPort_only | apply Only.ite)

theorem setLink_only {l_ : List Part} {a_ : Dev} (d : Dev) (p : Port) (up : Bool)
    (s_ : Part.sub [.out, .start, .evt, .sht, .que] l_ = true) (k_ : Only l_ a_ d) :
    Only l_ a_ (setLink d p up) := by
  refine Only.of ?_ s_ k_
  unfold setLink
  try dsimp only
  repeat' (first
    | with_reducible exact Only.refl _ _ | exact rfl | intro _
    | with_reducible first
      | apply report_only | apply Dev.modSht_only | apply Dev.modQport_only | apply bufEval_only | apply endXoff_only
      | apply pauseWatch_only | apply dropNoport_only | apply endIngress_only | apply Only.ite)

theorem doPortLink_only {l_ : List Part} {a_ : Dev} (p : Port) (up : Bool) (d : Dev)
    (s_ : Part.sub [.out, .start, .evt, .sht, .que] l_ = true) (k_ : Only l_ a_ d) :
    Only l_ a_ (doPortLink p up d) := by
  refine Only.of ?_ s_ k_
  unfold doPortLink
  try dsimp only
  repeat' (first
    | with_reducible exact Only.refl _ _ | exact rfl | intro _
    | with_reducible first
      | apply setLink_only | apply Only.ite)

theorem tableReadOp_only {l_ : List Part} {a_ : Dev} (d : Dev)
    (s_ : Part.sub [.free, .sht] l_ = true) (k_ : Only l_ a_ d) :
    Only l_ a_ (tableReadOp d).1 := by
  refine Only.of ?_ s_ k_
  unfold tableReadOp
  try dsimp only
  repeat' (first
    | with_reducible exact Only.refl _ _ | exact rfl | intro _
    | with_reducible first
      | apply Dev.draw_only | apply Dev.modSht_only | apply Only.ite | apply Only.each | apply OnlyO.some | apply OnlyO.none
      | apply OnlyO.getD | apply OnlyO.ite
    | with_reducible assumption
    | split)

theorem tableWriteOp_only {l_ : List Part} {a_ : Dev} (d : Dev)
    (s_ : Part.sub [.sht] l_ = true) (k_ : Only l_ a_ d) :
    Only l_ a_ (tableWriteOp d).1 := by
  refine Only.of ?_ s_ k_
  unfold tableWriteOp
  try dsimp only
  repeat' (first
    | with_reducible exact Only.refl _ _ | exact rfl | intro _
    | with_reducible first
      | apply Dev.modSht_only | apply Only.ite | apply Only.each | apply OnlyO.some | apply OnlyO.none | apply OnlyO.getD
      | apply OnlyO.ite
    | with_reducible assumption
    | split)

theorem tableDeleteOp_only {l_ : List Part} {a_ : Dev} (d : Dev)
    (s_ : Part.sub [.sht] l_ = true) (k_ : Only l_ a_ d) :
    Only l_ a_ (tableDeleteOp d).1 := by
  refine Only.of ?_ s_ k_
  unfold tableDeleteOp
  try dsimp only
  repeat' (first
    | with_reducible exact Only.refl _ _ | exact rfl | intro _
    | with_reducible first
      | apply Dev.modSht_only | apply Only.ite | apply Only.each | apply OnlyO.some | apply OnlyO.none | apply OnlyO.getD
      | apply OnlyO.ite
    | with_reducible assumption
    | split)

theorem tableInsertOp_only {l_ : List Part} {a_ : Dev} (d : Dev)
    (s_ : Part.sub [.sht] l_ = true) (k_ : Only l_ a_ d) :
    Only l_ a_ (tableInsertOp d).1 := by
  refine Only.of ?_ s_ k_
  unfold tableInsertOp
  try dsimp only
  repeat' (first
    | with_reducible exact Only.refl _ _ | exact rfl | intro _
    | with_reducible first
      | apply Dev.modSht_only | apply Only.ite | apply Only.each | apply OnlyO.some | apply OnlyO.none | apply OnlyO.getD
      | apply OnlyO.ite
    | with_reducible assumption
    | split)

theorem tableFindOp_only {l_ : List Part} {a_ : Dev} (d : Dev)
    (s_ : Part.sub [.sht] l_ = true) (k_ : Only l_ a_ d) :
    Only l_ a_ (tableFindOp d).1 := by
  refine Only.of ?_ s_ k_
  unfold tableFindOp
  try dsimp only
  repeat' (first
    | with_reducible exact Only.refl _ _ | exact rfl | intro _
    | with_reducible first
      | apply Dev.modSht_only | apply Only.ite | apply Only.each | apply OnlyO.some | apply OnlyO.none | apply OnlyO.getD
      | apply OnlyO.ite
    | with_reducible assumption
    | split)

theorem tableLookupOp_only {l_ : List Part} {a_ : Dev} (d : Dev)
    (s_ : Part.sub [.free, .start, .evt, .sht] l_ = true) (k_ : Only l_ a_ d) :
    Only l_ a_ (tableLookupOp d).1 := by
  refine Only.of ?_ s_ k_
  unfold tableLookupOp
  try dsimp only
  repeat' (first
    | with_reducible exact Only.refl _ _ | exact rfl | intro _
    | with_reducible first
      | apply Dev.draw_only | apply Dev.modSht_only | apply lookup_only | apply Only.ite | apply Only.each
      | apply OnlyO.some | apply OnlyO.none | apply OnlyO.getD | apply OnlyO.ite
    | with_reducible assumption
    | split)

theorem writeTcmd_only {l_ : List Part} {a_ : Dev} (d : Dev) (v : Word)
    (s_ : Part.sub [.free, .start, .evt, .sht] l_ = true) (k_ : Only l_ a_ d) :
    Only l_ a_ (writeTcmd d v).1 := by
  refine Only.of ?_ s_ k_
  unfold writeTcmd
  try dsimp only
  repeat' (first
    | with_reducible exact Only.refl _ _ | exact rfl | intro _
    | with_reducible first
      | apply Dev.modSht_only | apply tableReadOp_only | apply tableWriteOp_only | apply tableDeleteOp_only
      | apply tableInsertOp_only | apply tableFindOp_only | apply tableLookupOp_only | apply Only.ite | apply Only.each
      | apply OnlyO.some | apply OnlyO.none | apply OnlyO.getD | apply OnlyO.ite
    | with_reducible assumption
    | split)

theorem tcmdRow_only {l_ : List Part} {a_ : Dev} (op : Nat) (v : Word) (d : Dev)
    (s_ : Part.sub [.free, .out, .start, .evt, .sht] l_ = true) (k_ : Only l_ a_ d) :
    Only l_ a_ (tcmdRow op v d) := by
  refine Only.of ?_ s_ k_
  unfold tcmdRow
  try dsimp only
  repeat' (first
    | with_reducible exact Only.refl _ _ | exact rfl | intro _
    | with_reducible refine regRow_only (by beta_reduce; exact rfl) ?_ ?_ ?_
    | with_reducible first
      | apply writeTcmd_only | apply Only.ite)

theorem doTableRead_only {l_ : List Part} {a_ : Dev} (v : Word) (d : Dev)
    (s_ : Part.sub [.free, .out, .start, .evt, .sht] l_ = true) (k_ : Only l_ a_ d) :
    Only l_ a_ (doTableRead v d) := by
  refine Only.of ?_ s_ k_
  unfold doTableRead
  try dsimp only
  repeat' (first
    | with_reducible exact Only.refl _ _ | exact rfl | intro _
    | with_reducible apply tcmdRow_only)

theorem doTableWrite_only {l_ : List Part} {a_ : Dev} (v : Word) (d : Dev)
    (s_ : Part.sub [.free, .out, .start, .evt, .sht] l_ = true) (k_ : Only l_ a_ d) :
    Only l_ a_ (doTableWrite v d) := by
  refine Only.of ?_ s_ k_
  unfold doTableWrite
  try dsimp only
  repeat' (first
    | with_reducible exact Only.refl _ _ | exact rfl | intro _
    | with_reducible apply tcmdRow_only)

theorem doTableDelete_only {l_ : List Part} {a_ : Dev} (v : Word) (d : Dev)
    (s_ : Part.sub [.free, .out, .start, .evt, .sht] l_ = true) (k_ : Only l_ a_ d) :
    Only l_ a_ (doTableDelete v d) := by
  refine Only.of ?_ s_ k_
  unfold doTableDelete
  try dsimp only
  repeat' (first
    | with_reducible exact Only.refl _ _ | exact rfl | intro _
    | with_reducible apply tcmdRow_only)

theorem doTableInsert_only {l_ : List Part} {a_ : Dev} (v : Word) (d : Dev)
    (s_ : Part.sub [.free, .out, .start, .evt, .sht] l_ = true) (k_ : Only l_ a_ d) :
    Only l_ a_ (doTableInsert v d) := by
  refine Only.of ?_ s_ k_
  unfold doTableInsert
  try dsimp only
  repeat' (first
    | with_reducible exact Only.refl _ _ | exact rfl | intro _
    | with_reducible apply tcmdRow_only)

theorem doTableFind_only {l_ : List Part} {a_ : Dev} (v : Word) (d : Dev)
    (s_ : Part.sub [.free, .out, .start, .evt, .sht] l_ = true) (k_ : Only l_ a_ d) :
    Only l_ a_ (doTableFind v d) := by
  refine Only.of ?_ s_ k_
  unfold doTableFind
  try dsimp only
  repeat' (first
    | with_reducible exact Only.refl _ _ | exact rfl | intro _
    | with_reducible apply tcmdRow_only)

theorem doTableLookup_only {l_ : List Part} {a_ : Dev} (v : Word) (d : Dev)
    (s_ : Part.sub [.free, .out, .start, .evt, .sht] l_ = true) (k_ : Only l_ a_ d) :
    Only l_ a_ (doTableLookup v d) := by
  refine Only.of ?_ s_ k_
  unfold doTableLookup
  try dsimp only
  repeat' (first
    | with_reducible exact Only.refl _ _ | exact rfl | intro _
    | with_reducible apply tcmdRow_only)

theorem writeShtBank_only {l_ : List Part} {a_ : Dev} (d : Dev) (v : Word)
    (s_ : Part.sub [.start, .evt, .sht] l_ = true) (k_ : Only l_ a_ d) :
    Only l_ a_ (writeShtBank d v).1 := by
  refine Only.of ?_ s_ k_
  unfold writeShtBank
  try dsimp only
  repeat' (first
    | with_reducible exact Only.refl _ _ | exact rfl | intro _
    | with_reducible first
      | apply report_only | apply Dev.modSht_only | apply Only.ite | apply Only.each | apply OnlyO.some | apply OnlyO.none
      | apply OnlyO.getD | apply OnlyO.ite
    | with_reducible assumption
    | split)

theorem doBankSwap_only {l_ : List Part} {a_ : Dev} (v : Word) (d : Dev)
    (s_ : Part.sub [.out, .start, .evt, .sht] l_ = true) (k_ : Only l_ a_ d) :
    Only l_ a_ (doBankSwap v d) := by
  refine Only.of ?_ s_ k_
  unfold doBankSwap
  try dsimp only
  repeat' (first
    | with_reducible exact Only.refl _ _ | exact rfl | intro _
    | with_reducible refine regRow_only (by beta_reduce; exact rfl) ?_ ?_ ?_
    | with_reducible apply writeShtBank_only)

theorem recount_only {l_ : List Part} {a_ : Dev} (d : Dev) (p : Port) (c least : Nat)
    (s_ : Part.sub [.sht, .que] l_ = true) (k_ : Only l_ a_ d) :
    Only l_ a_ (recount d p c least) := by
  refine Only.of ?_ s_ k_
  unfold recount
  try dsimp only
  repeat' (first
    | with_reducible exact Only.refl _ _ | exact rfl | intro _
    | with_reducible first
      | apply Dev.setQueue_only | apply Dev.modQport_only | apply Only.ite | apply Only.each | apply OnlyO.some
      | apply OnlyO.none | apply OnlyO.getD | apply OnlyO.ite
    | with_reducible assumption
    | split)

theorem writeQcfg_only {l_ : List Part} {a_ : Dev} (d : Dev) (p : Port) (c : Nat) (v : Word)
    (s_ : Part.sub [.out, .evt, .sht, .que] l_ = true) (k_ : Only l_ a_ d) :
    Only l_ a_ (writeQcfg d p c v).1 := by
  refine Only.of ?_ s_ k_
  unfold writeQcfg
  try dsimp only
  repeat' (first
    | with_reducible exact Only.refl _ _ | exact rfl | intro _
    | with_reducible first
      | apply Dev.modSht_only | apply bufEval_only | apply recount_only | apply Only.ite | apply Only.each
      | apply OnlyO.some | apply OnlyO.none | apply OnlyO.getD | apply OnlyO.ite
    | with_reducible assumption
    | split)

theorem writeSht_only {l_ : List Part} {a_ : Dev} (d : Dev) (o : Nat) (v : Word)
    (s_ : Part.sub [.free, .out, .start, .evt, .sht, .que] l_ = true) (k_ : Only l_ a_ d) :
    OnlyO l_ a_ (writeSht d o v) := by
  refine OnlyO.of ?_ s_ k_
  unfold writeSht
  try dsimp only
  repeat' (first
    | with_reducible exact Only.refl _ _ | exact rfl | intro _
    | with_reducible first
      | apply Dev.modSht_only | apply writeTcmd_only | apply writeShtBank_only | apply writeQcfg_only | apply Only.ite
      | apply Only.each | apply OnlyO.some | apply OnlyO.none | apply OnlyO.getD | apply OnlyO.ite
    | with_reducible assumption
    | split)

end Sys2Proof.Machine
end

