-- ==== Sys2Proof/Laws/FramesRadio.lean ====
section
/-! SUPPORT. What the commands of the clock, the spindles, transmission and reception may change. -/

namespace Sys2Proof.Machine

set_option Elab.async false
set_option linter.unusedTactic false

theorem holdWatch_only {l_ : List Part} {a_ : Dev} (d : Dev)
    (s_ : Part.sub [.evt] l_ = true) (k_ : Only l_ a_ d) :
    Only l_ a_ (holdWatch d) := by
  refine Only.of ?_ s_ k_
  unfold holdWatch
  try dsimp only
  repeat' (first
    | with_reducible exact Only.refl _ _ | exact rfl | intro _
    | with_reducible apply watchIf_only)

theorem setSource_only {l_ : List Part} {a_ : Dev} (d : Dev) (st : WhlState) (src : Source)
    (s_ : Part.sub [.start, .evt, .whl] l_ = true) (k_ : Only l_ a_ d) :
    Only l_ a_ (setSource d st src) := by
  refine Only.of ?_ s_ k_
  unfold setSource
  try dsimp only
  repeat' (first
    | with_reducible exact Only.refl _ _ | exact rfl | intro _
    | with_reducible first
      | apply report_only | apply Dev.modWhl_only | apply holdWatch_only | apply Only.ite)

theorem seek_only {l_ : List Part} {a_ : Dev} (d : Dev)
    (s_ : Part.sub [.start, .evt, .whl] l_ = true) (k_ : Only l_ a_ d) :
    Only l_ a_ (seek d) := by
  refine Only.of ?_ s_ k_
  unfold seek
  try dsimp only
  repeat' (first
    | with_reducible exact Only.refl _ _ | exact rfl | intro _
    | with_reducible first
      | apply setSource_only | apply Only.ite | apply Only.each | apply OnlyO.some | apply OnlyO.none | apply OnlyO.getD
      | apply OnlyO.ite
    | with_reducible assumption
    | split)

theorem activeLost_only {l_ : List Part} {a_ : Dev} (d : Dev)
    (s_ : Part.sub [.start, .evt, .whl] l_ = true) (k_ : Only l_ a_ d) :
    Only l_ a_ (activeLost d) := by
  refine Only.of ?_ s_ k_
  unfold activeLost
  try dsimp only
  repeat' (first
    | with_reducible exact Only.refl _ _ | exact rfl | intro _
    | with_reducible first
      | apply setSource_only | apply Only.ite | apply Only.each | apply OnlyO.some | apply OnlyO.none | apply OnlyO.getD
      | apply OnlyO.ite
    | with_reducible assumption
    | split)

theorem holdReference_only {l_ : List Part} {a_ : Dev} (d : Dev)
    (s_ : Part.sub [.start, .evt, .whl] l_ = true) (k_ : Only l_ a_ d) :
    Only l_ a_ (holdReference d) := by
  refine Only.of ?_ s_ k_
  unfold holdReference
  try dsimp only
  repeat' (first
    | with_reducible exact Only.refl _ _ | exact rfl | intro _
    | with_reducible first
      | apply setSource_only | apply Only.ite)

theorem losePtp_only {l_ : List Part} {a_ : Dev} (d : Dev) (port : Bool)
    (s_ : Part.sub [.start, .evt, .whl] l_ = true) (k_ : Only l_ a_ d) :
    Only l_ a_ (losePtp d port) := by
  refine Only.of ?_ s_ k_
  unfold losePtp
  try dsimp only
  repeat' (first
    | with_reducible exact Only.refl _ _ | exact rfl | intro _
    | with_reducible first
      | apply report_only | apply Dev.modWhl_only | apply activeLost_only | apply Only.ite)

theorem losePps_only {l_ : List Part} {a_ : Dev} (d : Dev)
    (s_ : Part.sub [.start, .evt, .whl] l_ = true) (k_ : Only l_ a_ d) :
    Only l_ a_ (losePps d) := by
  refine Only.of ?_ s_ k_
  unfold losePps
  try dsimp only
  repeat' (first
    | with_reducible exact Only.refl _ _ | exact rfl | intro _
    | with_reducible first
      | apply report_only | apply Dev.modWhl_only | apply activeLost_only | apply Only.ite)

theorem loseRef_only {l_ : List Part} {a_ : Dev} (d : Dev)
    (s_ : Part.sub [.start, .evt, .whl] l_ = true) (k_ : Only l_ a_ d) :
    Only l_ a_ (loseRef d) := by
  refine Only.of ?_ s_ k_
  unfold loseRef
  try dsimp only
  repeat' (first
    | with_reducible exact Only.refl _ _ | exact rfl | intro _
    | with_reducible first
      | apply report_only | apply Dev.modWhl_only | apply activeLost_only | apply holdReference_only | apply Only.ite)

theorem measured_only {l_ : List Part} {a_ : Dev} (d : Dev) (off : Int)
    (s_ : Part.sub [.start, .evt, .whl] l_ = true) (k_ : Only l_ a_ d) :
    Only l_ a_ (measured d off) := by
  refine Only.of ?_ s_ k_
  unfold measured
  try dsimp only
  repeat' (first
    | with_reducible exact Only.refl _ _ | exact rfl | intro _
    | with_reducible first
      | apply report_only | apply Dev.modWhl_only | apply setSource_only | apply Only.ite)

theorem ptpDrop_only {l_ : List Part} {a_ : Dev} (d : Dev)
    (s_ : Part.sub [.glb] l_ = true) (k_ : Only l_ a_ d) :
    Only l_ a_ (ptpDrop d) := by
  refine Only.of ?_ s_ k_
  unfold ptpDrop
  try dsimp only
  repeat' (first
    | with_reducible exact Only.refl _ _ | exact rfl | intro _
    | with_reducible apply Dev.modGlb_only)

theorem doPtpSync_only {l_ : List Part} {a_ : Dev} (port : Bool) (m : PtpSync) (d : Dev)
    (s_ : Part.sub [.glb, .start, .evt, .whl] l_ = true) (k_ : Only l_ a_ d) :
    Only l_ a_ (doPtpSync port m d) := by
  refine Only.of ?_ s_ k_
  unfold doPtpSync
  try dsimp only
  repeat' (first
    | with_reducible exact Only.refl _ _ | exact rfl | intro _
    | with_reducible first
      | apply Dev.modWhl_only | apply seek_only | apply measured_only | apply ptpDrop_only | apply Only.ite
      | apply Only.each | apply OnlyO.some | apply OnlyO.none | apply OnlyO.getD | apply OnlyO.ite
    | with_reducible assumption
    | split)

theorem doPtpAnnounce_only {l_ : List Part} {a_ : Dev} (port : Bool) (m : PtpAnnounce) (d : Dev)
    (s_ : Part.sub [.glb, .whl] l_ = true) (k_ : Only l_ a_ d) :
    Only l_ a_ (doPtpAnnounce port m d) := by
  refine Only.of ?_ s_ k_
  unfold doPtpAnnounce
  try dsimp only
  repeat' (first
    | with_reducible exact Only.refl _ _ | exact rfl | intro _
    | with_reducible first
      | apply Dev.modWhl_only | apply ptpDrop_only | apply Only.ite | apply Only.each | apply OnlyO.some | apply OnlyO.none
      | apply OnlyO.getD | apply OnlyO.ite
    | with_reducible assumption
    | split)

theorem sendDelayReq_only {l_ : List Part} {a_ : Dev} (d : Dev) (port : Bool) (via : PtpVia) (seq : Nat)
    (s_ : Part.sub [.sht] l_ = true) (k_ : Only l_ a_ d) :
    Only l_ a_ (sendDelayReq d port via seq) := by
  refine Only.of ?_ s_ k_
  unfold sendDelayReq
  try dsimp only
  repeat' (first
    | with_reducible exact Only.refl _ _ | exact rfl | intro _
    | with_reducible first
      | apply sendOwn_only | apply Only.ite | apply Only.each | apply OnlyO.some | apply OnlyO.none | apply OnlyO.getD
      | apply OnlyO.ite
    | with_reducible assumption
    | split)

theorem doPtpDelayReqSend_only {l_ : List Part} {a_ : Dev} (port : Bool) (d : Dev)
    (s_ : Part.sub [.free, .whl, .sht] l_ = true) (k_ : Only l_ a_ d) :
    Only l_ a_ (doPtpDelayReqSend port d) := by
  refine Only.of ?_ s_ k_
  unfold doPtpDelayReqSend
  try dsimp only
  repeat' (first
    | with_reducible exact Only.refl _ _ | exact rfl | intro _
    | with_reducible first
      | apply Dev.draw_only | apply Dev.modWhl_only | apply sendDelayReq_only | apply Only.ite | apply Only.each
      | apply OnlyO.some | apply OnlyO.none | apply OnlyO.getD | apply OnlyO.ite
    | with_reducible assumption
    | split)

theorem doPtpDelayResp_only {l_ : List Part} {a_ : Dev} (port : Bool) (m : PtpDelayResp) (d : Dev)
    (s_ : Part.sub [.glb, .whl] l_ = true) (k_ : Only l_ a_ d) :
    Only l_ a_ (doPtpDelayResp port m d) := by
  refine Only.of ?_ s_ k_
  unfold doPtpDelayResp
  try dsimp only
  repeat' (first
    | with_reducible exact Only.refl _ _ | exact rfl | intro _
    | with_reducible first
      | apply Dev.modWhl_only | apply ptpDrop_only | apply Only.ite | apply Only.each | apply OnlyO.some | apply OnlyO.none
      | apply OnlyO.getD | apply OnlyO.ite
    | with_reducible assumption
    | split)

theorem doPtpAnnounceTimeout_only {l_ : List Part} {a_ : Dev} (port : Bool) (d : Dev)
    (s_ : Part.sub [.start, .evt, .whl] l_ = true) (k_ : Only l_ a_ d) :
    Only l_ a_ (doPtpAnnounceTimeout port d) := by
  refine Only.of ?_ s_ k_
  unfold doPtpAnnounceTimeout
  try dsimp only
  repeat' (first
    | with_reducible exact Only.refl _ _ | exact rfl | intro _
    | with_reducible first
      | apply losePtp_only | apply Only.ite | apply Only.each | apply OnlyO.some | apply OnlyO.none | apply OnlyO.getD
      | apply OnlyO.ite
    | with_reducible assumption
    | split)

theorem doPtpPreferenceTimer_only {l_ : List Part} {a_ : Dev} (d : Dev)
    (s_ : Part.sub [.start, .evt, .whl] l_ = true) (k_ : Only l_ a_ d) :
    Only l_ a_ (doPtpPreferenceTimer d) := by
  refine Only.of ?_ s_ k_
  unfold doPtpPreferenceTimer
  try dsimp only
  repeat' (first
    | with_reducible exact Only.refl _ _ | exact rfl | intro _
    | with_reducible first
      | apply setSource_only | apply Only.ite)

theorem doPpsInEdge_only {l_ : List Part} {a_ : Dev} (rising : Bool) (interval : Nat) (d : Dev)
    (s_ : Part.sub [.start, .evt, .whl] l_ = true) (k_ : Only l_ a_ d) :
    Only l_ a_ (doPpsInEdge rising interval d) := by
  refine Only.of ?_ s_ k_
  unfold doPpsInEdge
  try dsimp only
  repeat' (first
    | with_reducible exact Only.refl _ _ | exact rfl | intro _
    | with_reducible first
      | apply Dev.modWhl_only | apply seek_only | apply losePps_only | apply measured_only | apply Only.ite)

theorem doPpsTimeout_only {l_ : List Part} {a_ : Dev} (d : Dev)
    (s_ : Part.sub [.start, .evt, .whl] l_ = true) (k_ : Only l_ a_ d) :
    Only l_ a_ (doPpsTimeout d) := by
  refine Only.of ?_ s_ k_
  unfold doPpsTimeout
  try dsimp only
  repeat' (first
    | with_reducible exact Only.refl _ _ | exact rfl | intro _
    | with_reducible first
      | apply losePps_only | apply Only.ite | apply Only.each | apply OnlyO.some | apply OnlyO.none | apply OnlyO.getD
      | apply OnlyO.ite
    | with_reducible assumption
    | split)

theorem doRef10mLoss_only {l_ : List Part} {a_ : Dev} (d : Dev)
    (s_ : Part.sub [.start, .evt, .whl] l_ = true) (k_ : Only l_ a_ d) :
    Only l_ a_ (doRef10mLoss d) := by
  refine Only.of ?_ s_ k_
  unfold doRef10mLoss
  try dsimp only
  repeat' (first
    | with_reducible exact Only.refl _ _ | exact rfl | intro _
    | with_reducible first
      | apply loseRef_only | apply Only.ite)

theorem doRef10mQualify_only {l_ : List Part} {a_ : Dev} (edge : Nat) (rate : Int) (d : Dev)
    (s_ : Part.sub [.start, .evt, .whl] l_ = true) (k_ : Only l_ a_ d) :
    Only l_ a_ (doRef10mQualify edge rate d) := by
  refine Only.of ?_ s_ k_
  unfold doRef10mQualify
  try dsimp only
  repeat' (first
    | with_reducible exact Only.refl _ _ | exact rfl | intro _
    | with_reducible first
      | apply Dev.modWhl_only | apply holdReference_only | apply doRef10mLoss_only | apply Only.ite)

theorem pulse_only {l_ : List Part} {a_ : Dev} (d : Dev) (mode us : Nat)
    (s_ : Part.sub [.out] l_ = true) (k_ : Only l_ a_ d) :
    Only l_ a_ (pulse d mode us) := by
  refine Only.of ?_ s_ k_
  unfold pulse
  try dsimp only
  repeat' (first
    | with_reducible exact Only.refl _ _ | exact rfl | intro _
    | with_reducible first
      | apply Dev.emit_only | apply Only.ite)

theorem doPpsOutSecond_only {l_ : List Part} {a_ : Dev} (d : Dev)
    (s_ : Part.sub [.out] l_ = true) (k_ : Only l_ a_ d) :
    Only l_ a_ (doPpsOutSecond d) := by
  refine Only.of ?_ s_ k_
  unfold doPpsOutSecond
  try dsimp only
  repeat' (first
    | with_reducible exact Only.refl _ _ | exact rfl | intro _
    | with_reducible first
      | apply pulse_only | apply Only.ite)

theorem closeThrow_only {l_ : List Part} {a_ : Dev} (d : Dev) (l : Launch)
    (s_ : Part.sub [.start, .evt, .whl, .ccp, .ply, .img] l_ = true) (k_ : Only l_ a_ d) :
    Only l_ a_ (closeThrow d l) := by
  refine Only.of ?_ s_ k_
  unfold closeThrow
  try dsimp only
  repeat' (first
    | with_reducible exact Only.refl _ _ | exact rfl | intro _
    | with_reducible first
      | apply report_only | apply Dev.modThread_only | apply dropLaunch_only | apply finish_only | apply Only.ite)

theorem doLaunchRelease_only {l_ : List Part} {a_ : Dev} (d : Dev)
    (s_ : Part.sub [.out, .start, .evt, .whl, .ccp, .ply, .img] l_ = true) (k_ : Only l_ a_ d) :
    Only l_ a_ (doLaunchRelease d) := by
  refine Only.of ?_ s_ k_
  unfold doLaunchRelease
  try dsimp only
  repeat' (first
    | with_reducible exact Only.refl _ _ | exact rfl | intro _
    | with_reducible first
      | apply Dev.modWhl_only | apply pulse_only | apply closeThrow_only | apply Only.ite | apply Only.each)

theorem doLearnedOffsetWrite_only {l_ : List Part} {a_ : Dev} (verifyOk : Bool) (d : Dev)
    (s_ : Part.sub [.start, .pra, .evt] l_ = true) (k_ : Only l_ a_ d) :
    Only l_ a_ (doLearnedOffsetWrite verifyOk d) := by
  refine Only.of ?_ s_ k_
  unfold doLearnedOffsetWrite
  try dsimp only
  repeat' (first
    | with_reducible exact Only.refl _ _ | exact rfl | intro _
    | with_reducible first
      | apply Dev.modPra_only | apply praSkip_only | apply Only.ite)

theorem writeLatch_only {l_ : List Part} {a_ : Dev} (d : Dev) (v : Word)
    (s_ : Part.sub [.whl] l_ = true) (k_ : Only l_ a_ d) :
    Only l_ a_ (writeLatch d v).1 := by
  refine Only.of ?_ s_ k_
  unfold writeLatch
  try dsimp only
  repeat' (first
    | with_reducible exact Only.refl _ _ | exact rfl | intro _
    | with_reducible first
      | apply Dev.modWhl_only | apply Only.ite | apply Only.each | apply OnlyO.some | apply OnlyO.none | apply OnlyO.getD
      | apply OnlyO.ite
    | with_reducible assumption
    | split)

theorem doWhlLatch_only {l_ : List Part} {a_ : Dev} (v : Word) (d : Dev)
    (s_ : Part.sub [.out, .whl] l_ = true) (k_ : Only l_ a_ d) :
    Only l_ a_ (doWhlLatch v d) := by
  refine Only.of ?_ s_ k_
  unfold doWhlLatch
  try dsimp only
  repeat' (first
    | with_reducible exact Only.refl _ _ | exact rfl | intro _
    | with_reducible refine regRow_only (by beta_reduce; exact rfl) ?_ ?_ ?_
    | with_reducible apply writeLatch_only)

theorem writeWhlCtrl_only {l_ : List Part} {a_ : Dev} (d : Dev) (v : Word)
    (s_ : Part.sub [.start, .evt, .whl] l_ = true) (k_ : Only l_ a_ d) :
    Only l_ a_ (writeWhlCtrl d v).1 := by
  refine Only.of ?_ s_ k_
  unfold writeWhlCtrl
  try dsimp only
  repeat' (first
    | with_reducible exact Only.refl _ _ | exact rfl | intro _
    | with_reducible first
      | apply Dev.modWhl_only | apply losePtp_only | apply losePps_only | apply loseRef_only | apply Only.ite)

theorem doWhlCtrlWrite_only {l_ : List Part} {a_ : Dev} (v : Word) (d : Dev)
    (s_ : Part.sub [.out, .start, .evt, .whl] l_ = true) (k_ : Only l_ a_ d) :
    Only l_ a_ (doWhlCtrlWrite v d) := by
  refine Only.of ?_ s_ k_
  unfold doWhlCtrlWrite
  try dsimp only
  repeat' (first
    | with_reducible exact Only.refl _ _ | exact rfl | intro _
    | with_reducible refine regRow_only (by beta_reduce; exact rfl) ?_ ?_ ?_
    | with_reducible apply writeWhlCtrl_only)

theorem doWhlTodArm_only {l_ : List Part} {a_ : Dev} (d : Dev)
    (s_ : Part.sub [.out, .start, .evt, .whl] l_ = true) (k_ : Only l_ a_ d) :
    Only l_ a_ (doWhlTodArm d) := by
  refine Only.of ?_ s_ k_
  unfold doWhlTodArm
  try dsimp only
  repeat' (first
    | with_reducible exact Only.refl _ _ | exact rfl | intro _
    | with_reducible refine regRow_only (by beta_reduce; exact rfl) ?_ ?_ ?_
    | with_reducible apply writeWhlCtrl_only)

theorem writePeriod_only {l_ : List Part} {a_ : Dev} (d : Dev) (v : Word)
    (s_ : Part.sub [.start, .evt, .whl] l_ = true) (k_ : Only l_ a_ d) :
    Only l_ a_ (writePeriod d v).1 := by
  refine Only.of ?_ s_ k_
  unfold writePeriod
  try dsimp only
  repeat' (first
    | with_reducible exact Only.refl _ _ | exact rfl | intro _
    | with_reducible first
      | apply report_only | apply Dev.modWhl_only | apply Only.ite | apply Only.each | apply OnlyO.some | apply OnlyO.none
      | apply OnlyO.getD | apply OnlyO.ite
    | with_reducible assumption
    | split)

theorem doWhlTickPeriodWrite_only {l_ : List Part} {a_ : Dev} (v : Word) (d : Dev)
    (s_ : Part.sub [.out, .start, .evt, .whl] l_ = true) (k_ : Only l_ a_ d) :
    Only l_ a_ (doWhlTickPeriodWrite v d) := by
  refine Only.of ?_ s_ k_
  unfold doWhlTickPeriodWrite
  try dsimp only
  repeat' (first
    | with_reducible exact Only.refl _ _ | exact rfl | intro _
    | with_reducible refine regRow_only (by beta_reduce; exact rfl) ?_ ?_ ?_
    | with_reducible apply writePeriod_only)

theorem writeEpoch_only {l_ : List Part} {a_ : Dev} (d : Dev) (hi : Bool) (v : Word)
    (s_ : Part.sub [.start, .evt, .whl] l_ = true) (k_ : Only l_ a_ d) :
    Only l_ a_ (writeEpoch d hi v).1 := by
  refine Only.of ?_ s_ k_
  unfold writeEpoch
  try dsimp only
  repeat' (first
    | with_reducible exact Only.refl _ _ | exact rfl | intro _
    | with_reducible first
      | apply report_only | apply Dev.modWhl_only | apply Only.ite | apply Only.each | apply OnlyO.some | apply OnlyO.none
      | apply OnlyO.getD | apply OnlyO.ite
    | with_reducible assumption
    | split)

theorem doWhlEpochWrite_only {l_ : List Part} {a_ : Dev} (hi : Bool) (v : Word) (d : Dev)
    (s_ : Part.sub [.out, .start, .evt, .whl] l_ = true) (k_ : Only l_ a_ d) :
    Only l_ a_ (doWhlEpochWrite hi v d) := by
  refine Only.of ?_ s_ k_
  unfold doWhlEpochWrite
  try dsimp only
  repeat' (first
    | with_reducible exact Only.refl _ _ | exact rfl | intro _
    | with_reducible refine regRow_only (by beta_reduce; exact rfl) ?_ ?_ ?_
    | with_reducible apply writeEpoch_only)

theorem writeOvr_only {l_ : List Part} {a_ : Dev} (d : Dev) (v : Word)
    (s_ : Part.sub [.whl] l_ = true) (k_ : Only l_ a_ d) :
    Only l_ a_ (writeOvr d v).1 := by
  refine Only.of ?_ s_ k_
  unfold writeOvr
  try dsimp only
  repeat' (first
    | with_reducible exact Only.refl _ _ | exact rfl | intro _
    | with_reducible first
      | apply Dev.modWhl_only | apply Only.ite)

theorem doWhlOvrClr_only {l_ : List Part} {a_ : Dev} (v : Word) (d : Dev)
    (s_ : Part.sub [.out, .whl] l_ = true) (k_ : Only l_ a_ d) :
    Only l_ a_ (doWhlOvrClr v d) := by
  refine Only.of ?_ s_ k_
  unfold doWhlOvrClr
  try dsimp only
  repeat' (first
    | with_reducible exact Only.refl _ _ | exact rfl | intro _
    | with_reducible refine regRow_only (by beta_reduce; exact rfl) ?_ ?_ ?_
    | with_reducible apply writeOvr_only)

theorem writeWhl_only {l_ : List Part} {a_ : Dev} (d : Dev) (o : Nat) (v : Word)
    (s_ : Part.sub [.start, .evt, .whl] l_ = true) (k_ : Only l_ a_ d) :
    OnlyO l_ a_ (writeWhl d o v) := by
  refine OnlyO.of ?_ s_ k_
  unfold writeWhl
  try dsimp only
  repeat' (first
    | with_reducible exact Only.refl _ _ | exact rfl | intro _
    | with_reducible first
      | apply Dev.modWhl_only | apply holdWatch_only | apply writeLatch_only | apply writeWhlCtrl_only
      | apply writePeriod_only | apply writeEpoch_only | apply writeOvr_only | apply Only.ite | apply Only.each
      | apply OnlyO.some | apply OnlyO.none | apply OnlyO.getD | apply OnlyO.ite
    | with_reducible assumption
    | split)

theorem resyncStart_only {l_ : List Part} {a_ : Dev} (d : Dev) (n : Fin 4)
    (s_ : Part.sub [.free, .evt, .spn, .wrp, .ply, .bob] l_ = true) (k_ : Only l_ a_ d) :
    Only l_ a_ (resyncStart d n) := by
  refine Only.of ?_ s_ k_
  unfold resyncStart
  try dsimp only
  repeat' (first
    | with_reducible exact Only.refl _ _ | exact rfl | intro _
    | with_reducible first
      | apply Dev.modSpn_only | apply flushBobbin_only | apply abortTx_only | apply Only.ite | apply Only.each)

theorem resyncT1_only {l_ : List Part} {a_ : Dev} (d : Dev) (n : Fin 4)
    (s_ : Part.sub [.start, .evt, .spn, .bob] l_ = true) (k_ : Only l_ a_ d) :
    Only l_ a_ (resyncT1 d n) := by
  refine Only.of ?_ s_ k_
  unfold resyncT1
  try dsimp only
  repeat' (first
    | with_reducible exact Only.refl _ _ | exact rfl | intro _
    | with_reducible first
      | apply Dev.modSpn_only | apply syncReset_only | apply Only.ite)

theorem rxClockOut_only {l_ : List Part} {a_ : Dev} (d : Dev) (p : Port) (b : Nat)
    (s_ : Part.sub [.out, .start, .evt, .spn, .sht, .que, .bob] l_ = true) (k_ : Only l_ a_ d) :
    Only l_ a_ (rxClockOut d p b) := by
  refine Only.of ?_ s_ k_
  unfold rxClockOut
  try dsimp only
  repeat' (first
    | with_reducible exact Only.refl _ _ | exact rfl | intro _
    | with_reducible first
      | apply flushBobbin_only | apply setLink_only)

theorem clockLeaves_only {l_ : List Part} {a_ : Dev} (d : Dev) (k : Nat)
    (s_ : Part.sub [.free, .out, .start, .evt, .whl, .spn, .wrp, .sht, .que, .ply, .bob] l_ = true) (k_ : Only l_ a_ d) :
    Only l_ a_ (clockLeaves d k) := by
  refine Only.of ?_ s_ k_
  unfold clockLeaves
  try dsimp only
  repeat' (first
    | with_reducible exact Only.refl _ _ | exact rfl | intro _
    | with_reducible first
      | apply holdReference_only | apply resyncStart_only | apply rxClockOut_only | apply Only.ite | apply Only.each
      | apply OnlyO.some | apply OnlyO.none | apply OnlyO.getD | apply OnlyO.ite
    | with_reducible assumption
    | split)

theorem clockReturns_only {l_ : List Part} {a_ : Dev} (d : Dev) (k : Nat)
    (s_ : Part.sub [.start, .evt, .whl, .spn, .bob] l_ = true) (k_ : Only l_ a_ d) :
    Only l_ a_ (clockReturns d k) := by
  refine Only.of ?_ s_ k_
  unfold clockReturns
  try dsimp only
  repeat' (first
    | with_reducible exact Only.refl _ _ | exact rfl | intro _
    | with_reducible first
      | apply holdReference_only | apply resyncT1_only | apply Only.ite | apply Only.each | apply OnlyO.some
      | apply OnlyO.none | apply OnlyO.getD | apply OnlyO.ite
    | with_reducible assumption
    | split)

theorem clockWatch_only {l_ : List Part} {a_ : Dev} (d : Dev) (k : Nat)
    (s_ : Part.sub [.evt] l_ = true) (k_ : Only l_ a_ d) :
    Only l_ a_ (clockWatch d k) := by
  refine Only.of ?_ s_ k_
  unfold clockWatch
  try dsimp only
  repeat' (first
    | with_reducible exact Only.refl _ _ | exact rfl | intro _
    | with_reducible first
      | apply watch_only | apply Only.ite | apply Only.each | apply OnlyO.some | apply OnlyO.none | apply OnlyO.getD
      | apply OnlyO.ite
    | with_reducible assumption
    | split)

theorem setClock_only {l_ : List Part} {a_ : Dev} (d : Dev) (k : Nat) (out : Bool)
    (s_ : Part.sub [.bob] l_ = true) (k_ : Only l_ a_ d) :
    Only l_ a_ (setClock d k out) := by
  refine Only.of ?_ s_ k_
  unfold setClock
  try dsimp only
  repeat' (first
    | with_reducible exact Only.refl _ _ | exact rfl | intro _
    | fail_if_no_progress (with_reducible refine Only.rec_bob rfl ?_))

theorem judgeClock_only {l_ : List Part} {a_ : Dev} (d : Dev) (k : Nat) (bad : Bool)
    (s_ : Part.sub [.free, .out, .start, .evt, .whl, .spn, .wrp, .sht, .que, .ply, .bob] l_ = true) (k_ : Only l_ a_ d) :
    Only l_ a_ (judgeClock d k bad) := by
  refine Only.of ?_ s_ k_
  unfold judgeClock
  try dsimp only
  repeat' (first
    | with_reducible exact Only.refl _ _ | exact rfl | intro _
    | with_reducible first
      | apply clockLeaves_only | apply clockReturns_only | apply clockWatch_only | apply setClock_only
    | fail_if_no_progress (with_reducible refine Only.rec_bob rfl ?_)
    | with_reducible apply Only.ite)

theorem doClockMonitorWindow_only {l_ : List Part} {a_ : Dev} (indep spn : Four Int) (rx0 rx1 rxp : Int) (d : Dev)
    (s_ : Part.sub [.free, .out, .start, .evt, .whl, .spn, .wrp, .sht, .que, .ply, .bob] l_ = true) (k_ : Only l_ a_ d) :
    Only l_ a_ (doClockMonitorWindow indep spn rx0 rx1 rxp d) := by
  refine Only.of ?_ s_ k_
  unfold doClockMonitorWindow
  try dsimp only
  repeat' (first
    | with_reducible exact Only.refl _ _ | exact rfl | intro _
    | with_reducible apply judgeClock_only
    | fail_if_no_progress (with_reducible refine Only.rec_bob rfl ?_)
    | with_reducible first
      | apply Only.ite | apply Only.each)

theorem doPllLossOfLock_only {l_ : List Part} {a_ : Dev} (n : Fin 4) (d : Dev)
    (s_ : Part.sub [.free, .out, .start, .evt, .whl, .spn, .wrp, .sht, .que, .ply, .bob] l_ = true) (k_ : Only l_ a_ d) :
    Only l_ a_ (doPllLossOfLock n d) := by
  refine Only.of ?_ s_ k_
  unfold doPllLossOfLock
  try dsimp only
  repeat' (first
    | with_reducible exact Only.refl _ _ | exact rfl | intro _
    | with_reducible first
      | apply clockLeaves_only | apply clockWatch_only | apply setClock_only
    | fail_if_no_progress (with_reducible refine Only.rec_bob rfl ?_)
    | with_reducible apply Only.ite)

theorem doPllRelock_only {l_ : List Part} {a_ : Dev} (n : Fin 4) (d : Dev)
    (s_ : Part.sub [.bob] l_ = true) (k_ : Only l_ a_ d) :
    Only l_ a_ (doPllRelock n d) := by
  refine Only.of ?_ s_ k_
  unfold doPllRelock
  try dsimp only
  repeat' (first
    | with_reducible exact Only.refl _ _ | exact rfl | intro _
    | fail_if_no_progress (with_reducible refine Only.rec_bob rfl ?_)
    | with_reducible apply Only.ite)

theorem takeOos_only {l_ : List Part} {a_ : Dev} (d : Dev) (n : Fin 4)
    (s_ : Part.sub [.free, .start, .evt, .whl, .spn, .wrp, .ccp, .ply, .img, .bob] l_ = true) (k_ : Only l_ a_ d) :
    Only l_ a_ (takeOos d n) := by
  refine Only.of ?_ s_ k_
  unfold takeOos
  try dsimp only
  repeat' (first
    | with_reducible exact Only.refl _ _ | exact rfl | intro _
    | with_reducible first
      | apply report_only | apply Dev.modSpn_only | apply finish_only | apply truncateAll_only | apply actTarget_only
      | apply Only.ite | apply Only.each | apply OnlyO.some | apply OnlyO.none | apply OnlyO.getD | apply OnlyO.ite
    | with_reducible assumption
    | split)

theorem endOfCell_only {l_ : List Part} {a_ : Dev} (d : Dev) (n : Fin 4)
    (s_ : Part.sub [.free, .start, .evt, .whl, .spn, .wrp, .ccp, .ply, .img, .bob] l_ = true) (k_ : Only l_ a_ d) :
    Only l_ a_ (endOfCell d n) := by
  refine Only.of ?_ s_ k_
  unfold endOfCell
  try dsimp only
  repeat' (first
    | with_reducible exact Only.refl _ _ | exact rfl | intro _
    | with_reducible first
      | apply Dev.modSpn_only | apply actTarget_only | apply holdOn_only | apply takeOos_only | apply Only.ite
      | apply Only.each | apply OnlyO.some | apply OnlyO.none | apply OnlyO.getD | apply OnlyO.ite
    | with_reducible assumption
    | split)

theorem atEndOfCell_only {l_ : List Part} {a_ : Dev} (d : Dev) (n : Fin 4)
    (s_ : Part.sub [.free, .start, .evt, .whl, .spn, .wrp, .ccp, .ply, .img, .bob] l_ = true) (k_ : Only l_ a_ d) :
    Only l_ a_ (atEndOfCell d n) := by
  refine Only.of ?_ s_ k_
  unfold atEndOfCell
  try dsimp only
  repeat' (first
    | with_reducible exact Only.refl _ _ | exact rfl | intro _
    | with_reducible first
      | apply endOfCell_only | apply Only.ite)

theorem writeSpnCtrl_only {l_ : List Part} {a_ : Dev} (d : Dev) (n : Fin 4) (v : Word)
    (s_ : Part.sub [.free, .start, .evt, .whl, .spn, .wrp, .ccp, .ply, .img, .bob] l_ = true) (k_ : Only l_ a_ d) :
    Only l_ a_ (writeSpnCtrl d n v).1 := by
  refine Only.of ?_ s_ k_
  unfold writeSpnCtrl
  try dsimp only
  repeat' (first
    | with_reducible exact Only.refl _ _ | exact rfl | intro _
    | with_reducible first
      | apply Dev.modSpn_only | apply atEndOfCell_only | apply Only.ite | apply Only.each | apply OnlyO.some
      | apply OnlyO.none | apply OnlyO.getD | apply OnlyO.ite
    | with_reducible assumption
    | split)

theorem doSpnTargetWrite_only {l_ : List Part} {a_ : Dev} (n : Fin 4) (v : Word) (d : Dev)
    (s_ : Part.sub [.free, .out, .start, .evt, .whl, .spn, .wrp, .ccp, .ply, .img, .bob] l_ = true) (k_ : Only l_ a_ d) :
    Only l_ a_ (doSpnTargetWrite n v d) := by
  refine Only.of ?_ s_ k_
  unfold doSpnTargetWrite
  try dsimp only
  repeat' (first
    | with_reducible exact Only.refl _ _ | exact rfl | intro _
    | with_reducible refine regRow_only (by beta_reduce; exact rfl) ?_ ?_ ?_
    | with_reducible apply writeSpnCtrl_only)

theorem doCalStart_only {l_ : List Part} {a_ : Dev} (n : Fin 4) (d : Dev)
    (s_ : Part.sub [.free, .out, .start, .evt, .whl, .spn, .wrp, .ccp, .ply, .img, .bob] l_ = true) (k_ : Only l_ a_ d) :
    Only l_ a_ (doCalStart n d) := by
  unfold doCalStart
  exact regRow_only (by beta_reduce; exact rfl) (Part.sub_trans rfl s_) k_ (writeSpnCtrl_only _ _ _ (Part.sub_trans rfl s_) k_)

theorem doInhClr_only {l_ : List Part} {a_ : Dev} (n : Fin 4) (d : Dev)
    (s_ : Part.sub [.free, .out, .start, .evt, .whl, .spn, .wrp, .ccp, .ply, .img, .bob] l_ = true) (k_ : Only l_ a_ d) :
    Only l_ a_ (doInhClr n d) := by
  unfold doInhClr
  exact regRow_only (by beta_reduce; exact rfl) (Part.sub_trans rfl s_) k_ (writeSpnCtrl_only _ _ _ (Part.sub_trans rfl s_) k_)

theorem writeSpnWindow_only {l_ : List Part} {a_ : Dev} (d : Dev) (n : Fin 4) (v : Word)
    (s_ : Part.sub [.free, .start, .evt, .whl, .spn, .wrp, .ccp, .ply, .img, .bob] l_ = true) (k_ : Only l_ a_ d) :
    Only l_ a_ (writeSpnWindow d n v).1 := by
  refine Only.of ?_ s_ k_
  unfold writeSpnWindow
  try dsimp only
  repeat' (first
    | with_reducible exact Only.refl _ _ | exact rfl | intro _
    | with_reducible first
      | apply Dev.modSpn_only | apply atEndOfCell_only | apply Only.ite | apply Only.each | apply OnlyO.some
      | apply OnlyO.none | apply OnlyO.getD | apply OnlyO.ite
    | with_reducible assumption
    | split)

theorem doSpnWindowWrite_only {l_ : List Part} {a_ : Dev} (n : Fin 4) (v : Word) (d : Dev)
    (s_ : Part.sub [.free, .out, .start, .evt, .whl, .spn, .wrp, .ccp, .ply, .img, .bob] l_ = true) (k_ : Only l_ a_ d) :
    Only l_ a_ (doSpnWindowWrite n v d) := by
  refine Only.of ?_ s_ k_
  unfold doSpnWindowWrite
  try dsimp only
  repeat' (first
    | with_reducible exact Only.refl _ _ | exact rfl | intro _
    | with_reducible refine regRow_only (by beta_reduce; exact rfl) ?_ ?_ ?_
    | with_reducible apply writeSpnWindow_only)

theorem writeSpnBind_only {l_ : List Part} {a_ : Dev} (d : Dev) (n : Fin 4) (i : Nat) (v : Word)
    (s_ : Part.sub [.free, .start, .evt, .whl, .spn, .wrp, .ccp, .ply, .img, .bob] l_ = true) (k_ : Only l_ a_ d) :
    Only l_ a_ (writeSpnBind d n i v).1 := by
  refine Only.of ?_ s_ k_
  unfold writeSpnBind
  try dsimp only
  repeat' (first
    | with_reducible exact Only.refl _ _ | exact rfl | intro _
    | with_reducible first
      | apply Dev.modSpn_only | apply atEndOfCell_only | apply Only.ite | apply Only.each | apply OnlyO.some
      | apply OnlyO.none | apply OnlyO.getD | apply OnlyO.ite
    | with_reducible assumption
    | split)

theorem doSpnBindWrite_only {l_ : List Part} {a_ : Dev} (n : Fin 4) (i : Fin 16) (v : Word) (d : Dev)
    (s_ : Part.sub [.free, .out, .start, .evt, .whl, .spn, .wrp, .ccp, .ply, .img, .bob] l_ = true) (k_ : Only l_ a_ d) :
    Only l_ a_ (doSpnBindWrite n i v d) := by
  refine Only.of ?_ s_ k_
  unfold doSpnBindWrite
  try dsimp only
  repeat' (first
    | with_reducible exact Only.refl _ _ | exact rfl | intro _
    | with_reducible refine regRow_only (by beta_reduce; exact rfl) ?_ ?_ ?_
    | with_reducible apply writeSpnBind_only)

theorem writeSpnTune_only {l_ : List Part} {a_ : Dev} (d : Dev) (n : Fin 4) (v : Word)
    (s_ : Part.sub [.spn] l_ = true) (k_ : Only l_ a_ d) :
    Only l_ a_ (writeSpnTune d n v).1 := by
  refine Only.of ?_ s_ k_
  unfold writeSpnTune
  try dsimp only
  repeat' (first
    | with_reducible exact Only.refl _ _ | exact rfl | intro _
    | with_reducible first
      | apply Dev.modSpn_only | apply Only.ite | apply Only.each | apply OnlyO.some | apply OnlyO.none | apply OnlyO.getD
      | apply OnlyO.ite
    | with_reducible assumption
    | split)

theorem doSpnTuneWrite_only {l_ : List Part} {a_ : Dev} (n : Fin 4) (v : Word) (d : Dev)
    (s_ : Part.sub [.out, .spn] l_ = true) (k_ : Only l_ a_ d) :
    Only l_ a_ (doSpnTuneWrite n v d) := by
  refine Only.of ?_ s_ k_
  unfold doSpnTuneWrite
  try dsimp only
  repeat' (first
    | with_reducible exact Only.refl _ _ | exact rfl | intro _
    | with_reducible refine regRow_only (by beta_reduce; exact rfl) ?_ ?_ ?_
    | with_reducible apply writeSpnTune_only)

theorem writeSpnTrim_only {l_ : List Part} {a_ : Dev} (d : Dev) (n : Fin 4) (v : Word)
    (s_ : Part.sub [.spn] l_ = true) (k_ : Only l_ a_ d) :
    Only l_ a_ (writeSpnTrim d n v).1 := by
  refine Only.of ?_ s_ k_
  unfold writeSpnTrim
  try dsimp only
  repeat' (first
    | with_reducible exact Only.refl _ _ | exact rfl | intro _
    | with_reducible apply Dev.modSpn_only)

theorem doSpnTrimWrite_only {l_ : List Part} {a_ : Dev} (n : Fin 4) (v : Word) (d : Dev)
    (s_ : Part.sub [.out, .spn] l_ = true) (k_ : Only l_ a_ d) :
    Only l_ a_ (doSpnTrimWrite n v d) := by
  refine Only.of ?_ s_ k_
  unfold doSpnTrimWrite
  try dsimp only
  repeat' (first
    | with_reducible exact Only.refl _ _ | exact rfl | intro _
    | with_reducible refine regRow_only (by beta_reduce; exact rfl) ?_ ?_ ?_
    | with_reducible apply writeSpnTrim_only)

theorem writeSpn_only {l_ : List Part} {a_ : Dev} (d : Dev) (n : Fin 4) (o : Nat) (v : Word)
    (s_ : Part.sub [.free, .start, .evt, .whl, .spn, .wrp, .ccp, .ply, .img, .bob] l_ = true) (k_ : Only l_ a_ d) :
    OnlyO l_ a_ (writeSpn d n o v) := by
  refine OnlyO.of ?_ s_ k_
  unfold writeSpn
  try dsimp only
  repeat' (first
    | with_reducible exact Only.refl _ _ | exact rfl | intro _
    | with_reducible first
      | apply Dev.modSpn_only | apply writeSpnCtrl_only | apply writeSpnWindow_only | apply writeSpnBind_only
      | apply writeSpnTune_only | apply writeSpnTrim_only | apply Only.ite | apply Only.each | apply OnlyO.some
      | apply OnlyO.none | apply OnlyO.getD | apply OnlyO.ite
    | with_reducible assumption
    | split)

theorem reportCal_only {l_ : List Part} {a_ : Dev} (d : Dev) (n : Fin 4) (fails : List CalKind) (repeats : Nat)
    (s_ : Part.sub [.start, .evt] l_ = true) (k_ : Only l_ a_ d) :
    Only l_ a_ (reportCal d n fails repeats) := by
  refine Only.of ?_ s_ k_
  unfold reportCal
  try dsimp only
  repeat' (first
    | with_reducible exact Only.refl _ _ | exact rfl | intro _
    | with_reducible first
      | apply report_only | apply Only.ite | apply Only.each)

theorem reachSynth_only {l_ : List Part} {a_ : Dev} (d : Dev) (n : Fin 4) (pairs : List CalPair)
    (s_ : Part.sub [.glb, .start, .evt, .spn, .bob] l_ = true) (k_ : Only l_ a_ d) :
    Only l_ a_ (reachSynth d n pairs) := by
  refine Only.of ?_ s_ k_
  unfold reachSynth
  try dsimp only
  repeat' (first
    | with_reducible exact Only.refl _ _ | exact rfl | intro _
    | with_reducible first
      | apply Dev.modSpn_only | apply syncReset_only | apply maskWatch_only | apply selfTest_only | apply reportCal_only)

theorem doSpindleStateReached_only {l_ : List Part} {a_ : Dev} (n : Fin 4) (pairs : List CalPair) (d : Dev)
    (s_ : Part.sub [.glb, .start, .evt, .spn, .bob] l_ = true) (k_ : Only l_ a_ d) :
    Only l_ a_ (doSpindleStateReached n pairs d) := by
  refine Only.of ?_ s_ k_
  unfold doSpindleStateReached
  try dsimp only
  repeat' (first
    | with_reducible exact Only.refl _ _ | exact rfl | intro _
    | with_reducible first
      | apply Dev.modSpn_only | apply reachSynth_only | apply Only.ite | apply Only.each | apply OnlyO.some
      | apply OnlyO.none | apply OnlyO.getD | apply OnlyO.ite
    | with_reducible assumption
    | split)

theorem startBlank_only {l_ : List Part} {a_ : Dev} (d : Dev) (n : Fin 4) (served : Bool)
    (s_ : Part.sub [.free, .start, .evt, .spn, .wrp, .ply, .bob] l_ = true) (k_ : Only l_ a_ d) :
    Only l_ a_ (startBlank d n served) := by
  refine Only.of ?_ s_ k_
  unfold startBlank
  try dsimp only
  repeat' (first
    | with_reducible exact Only.refl _ _ | exact rfl | intro _
    | with_reducible first
      | apply Dev.modSpn_only | apply truncateAll_only | apply abortTx_only)

theorem doCalPairEnd_only {l_ : List Part} {a_ : Dev} (n : Fin 4) (pairs : List CalPair) (d : Dev)
    (s_ : Part.sub [.start, .evt, .spn, .bob] l_ = true) (k_ : Only l_ a_ d) :
    Only l_ a_ (doCalPairEnd n pairs d) := by
  refine Only.of ?_ s_ k_
  unfold doCalPairEnd
  try dsimp only
  repeat' (first
    | with_reducible exact Only.refl _ _ | exact rfl | intro _
    | with_reducible first
      | apply Dev.modSpn_only | apply syncReset_only | apply Only.ite)

theorem doCalBlankEnd_only {l_ : List Part} {a_ : Dev} (n : Fin 4) (d : Dev)
    (s_ : Part.sub [.start, .evt, .spn] l_ = true) (k_ : Only l_ a_ d) :
    Only l_ a_ (doCalBlankEnd n d) := by
  refine Only.of ?_ s_ k_
  unfold doCalBlankEnd
  try dsimp only
  repeat' (first
    | with_reducible exact Only.refl _ _ | exact rfl | intro _
    | with_reducible first
      | apply Dev.modSpn_only | apply reportCal_only | apply Only.ite)

theorem doSpindleHold_only {l_ : List Part} {a_ : Dev} (th : Nat) (d : Dev)
    (s_ : Part.sub [.start, .evt, .whl, .spn, .ccp, .ply, .img, .bob] l_ = true) (k_ : Only l_ a_ d) :
    Only l_ a_ (doSpindleHold th d) := by
  refine Only.of ?_ s_ k_
  unfold doSpindleHold
  try dsimp only
  repeat' (first
    | with_reducible exact Only.refl _ _ | exact rfl | intro _
    | with_reducible first
      | apply Dev.modSpn_only | apply finish_only | apply runThread_only | apply holdOn_only | apply holdOff_only
      | apply cancelHold_only | apply Only.ite | apply Only.each | apply OnlyO.some | apply OnlyO.none | apply OnlyO.getD
      | apply OnlyO.ite
    | with_reducible assumption
    | split)

theorem doHoldEnd_only {l_ : List Part} {a_ : Dev} (n : Fin 4) (d : Dev)
    (s_ : Part.sub [.start, .evt, .spn] l_ = true) (k_ : Only l_ a_ d) :
    Only l_ a_ (doHoldEnd n d) := by
  refine Only.of ?_ s_ k_
  unfold doHoldEnd
  try dsimp only
  repeat' (first
    | with_reducible exact Only.refl _ _ | exact rfl | intro _
    | with_reducible first
      | apply Dev.modSpn_only | apply holdOff_only | apply Only.ite | apply Only.each | apply OnlyO.some | apply OnlyO.none
      | apply OnlyO.getD | apply OnlyO.ite
    | with_reducible assumption
    | split)

theorem doTunerCodesWrite_only {l_ : List Part} {a_ : Dev} (n : Fin 4) (verifyOk : Bool) (d : Dev)
    (s_ : Part.sub [.start, .pra, .evt] l_ = true) (k_ : Only l_ a_ d) :
    Only l_ a_ (doTunerCodesWrite n verifyOk d) := by
  refine Only.of ?_ s_ k_
  unfold doTunerCodesWrite
  try dsimp only
  repeat' (first
    | with_reducible exact Only.refl _ _ | exact rfl | intro _
    | with_reducible first
      | apply Dev.modPra_only | apply praSkip_only | apply Only.ite)

theorem beginTx_only {l_ : List Part} {a_ : Dev} (d : Dev) (n : Fin 4) (t : TxRun)
    (s_ : Part.sub [.spn] l_ = true) (k_ : Only l_ a_ d) :
    Only l_ a_ (beginTx d n t) := by
  refine Only.of ?_ s_ k_
  unfold beginTx
  try dsimp only
  repeat' (first
    | with_reducible exact Only.refl _ _ | exact rfl | intro _
    | with_reducible apply Dev.modSpn_only)

theorem txsynFail_only {l_ : List Part} {a_ : Dev} (d : Dev) (n : Fin 4) (t : TxRun)
    (s_ : Part.sub [.start, .evt, .spn, .wrp, .ply] l_ = true) (k_ : Only l_ a_ d) :
    Only l_ a_ (txsynFail d n t) := by
  refine Only.of ?_ s_ k_
  unfold txsynFail
  try dsimp only
  repeat' (first
    | with_reducible exact Only.refl _ _ | exact rfl | intro _
    | with_reducible first
      | apply report_only | apply Dev.modSpn_only | apply dropTx_only | apply Only.ite | apply Only.each | apply OnlyO.some
      | apply OnlyO.none | apply OnlyO.getD | apply OnlyO.ite
    | with_reducible assumption
    | split)

theorem doTxsynCalPair_only {l_ : List Part} {a_ : Dev} (n : Fin 4) (pair : CalPair) (d : Dev)
    (s_ : Part.sub [.start, .evt, .spn, .wrp, .ply] l_ = true) (k_ : Only l_ a_ d) :
    Only l_ a_ (doTxsynCalPair n pair d) := by
  refine Only.of ?_ s_ k_
  unfold doTxsynCalPair
  try dsimp only
  repeat' (first
    | with_reducible exact Only.refl _ _ | exact rfl | intro _
    | with_reducible first
      | apply report_only | apply Dev.modSpn_only | apply txsynFail_only | apply Only.ite | apply Only.each
      | apply OnlyO.some | apply OnlyO.none | apply OnlyO.getD | apply OnlyO.ite
    | with_reducible assumption
    | split)

theorem doCxRequest_only {l_ : List Part} {a_ : Dev} (n : Fin 4) (d : Dev)
    (s_ : Part.sub [.spn] l_ = true) (k_ : Only l_ a_ d) :
    Only l_ a_ (doCxRequest n d) := by
  refine Only.of ?_ s_ k_
  unfold doCxRequest
  try dsimp only
  repeat' (first
    | with_reducible exact Only.refl _ _ | exact rfl | intro _
    | with_reducible first
      | apply Dev.modSpn_only | apply Only.ite | apply Only.each | apply OnlyO.some | apply OnlyO.none | apply OnlyO.getD
      | apply OnlyO.ite
    | with_reducible assumption
    | split)

theorem doCxGrantSample_only {l_ : List Part} {a_ : Dev} (n : Fin 4) (grant : Bool) (d : Dev)
    (s_ : Part.sub [.start, .evt, .spn, .wrp, .ply] l_ = true) (k_ : Only l_ a_ d) :
    Only l_ a_ (doCxGrantSample n grant d) := by
  refine Only.of ?_ s_ k_
  unfold doCxGrantSample
  try dsimp only
  repeat' (first
    | with_reducible exact Only.refl _ _ | exact rfl | intro _
    | with_reducible first
      | apply report_only | apply Dev.modSpn_only | apply dropTx_only | apply txsynFail_only | apply Only.ite
      | apply Only.each | apply OnlyO.some | apply OnlyO.none | apply OnlyO.getD | apply OnlyO.ite
    | with_reducible assumption
    | split)

theorem doCxGrantFall_only {l_ : List Part} {a_ : Dev} (pair : Bool) (d : Dev)
    (s_ : Part.sub [.free, .start, .evt, .spn, .wrp, .ply] l_ = true) (k_ : Only l_ a_ d) :
    Only l_ a_ (doCxGrantFall pair d) := by
  refine Only.of ?_ s_ k_
  unfold doCxGrantFall
  try dsimp only
  repeat' (first
    | with_reducible exact Only.refl _ _ | exact rfl | intro _
    | with_reducible first
      | apply report_only | apply Dev.modSpn_only | apply abortTx_only | apply Only.ite | apply Only.each | apply OnlyO.some
      | apply OnlyO.none | apply OnlyO.getD | apply OnlyO.ite
    | with_reducible assumption
    | split)

theorem doTxSequenceStep_only {l_ : List Part} {a_ : Dev} (n : Fin 4) (st : TxStep) (d : Dev)
    (s_ : Part.sub [.start, .evt, .spn, .bob] l_ = true) (k_ : Only l_ a_ d) :
    Only l_ a_ (doTxSequenceStep n st d) := by
  refine Only.of ?_ s_ k_
  unfold doTxSequenceStep
  try dsimp only
  repeat' (first
    | with_reducible exact Only.refl _ _ | exact rfl | intro _
    | with_reducible first
      | apply Dev.modSpn_only | apply truncateAll_only | apply Only.ite | apply Only.each | apply OnlyO.some
      | apply OnlyO.none | apply OnlyO.getD | apply OnlyO.ite
    | with_reducible assumption
    | split)

theorem doTxStart_only {l_ : List Part} {a_ : Dev} (n : Fin 4) (d : Dev)
    (s_ : Part.sub [.out, .spn] l_ = true) (k_ : Only l_ a_ d) :
    Only l_ a_ (doTxStart n d) := by
  refine Only.of ?_ s_ k_
  unfold doTxStart
  try dsimp only
  repeat' (first
    | with_reducible exact Only.refl _ _ | exact rfl | intro _
    | with_reducible first
      | apply Dev.emit_only | apply Dev.modSpn_only | apply Only.ite | apply Only.each | apply OnlyO.some | apply OnlyO.none
      | apply OnlyO.getD | apply OnlyO.ite
    | with_reducible assumption
    | split)

theorem doReceiveIdle_only {l_ : List Part} {a_ : Dev} (n : Fin 4) (d : Dev)
    (s_ : Part.sub [.start, .evt, .spn] l_ = true) (k_ : Only l_ a_ d) :
    Only l_ a_ (doReceiveIdle n d) := by
  refine Only.of ?_ s_ k_
  unfold doReceiveIdle
  try dsimp only
  repeat' (first
    | with_reducible exact Only.refl _ _ | exact rfl | intro _
    | with_reducible first
      | apply report_only | apply Dev.modSpn_only | apply Only.ite | apply Only.each | apply OnlyO.some | apply OnlyO.none
      | apply OnlyO.getD | apply OnlyO.ite
    | with_reducible assumption
    | split)

theorem doReflectionCheck_only {l_ : List Part} {a_ : Dev} (n : Fin 4) (rl : Nat) (d : Dev)
    (s_ : Part.sub [.free, .start, .evt, .spn, .wrp, .ply] l_ = true) (k_ : Only l_ a_ d) :
    Only l_ a_ (doReflectionCheck n rl d) := by
  refine Only.of ?_ s_ k_
  unfold doReflectionCheck
  try dsimp only
  repeat' (first
    | with_reducible exact Only.refl _ _ | exact rfl | intro _
    | with_reducible first
      | apply report_only | apply Dev.modSpn_only | apply abortTx_only | apply Only.ite | apply Only.each | apply OnlyO.some
      | apply OnlyO.none | apply OnlyO.getD | apply OnlyO.ite
    | with_reducible assumption
    | split)

theorem doInhibitRetry_only {l_ : List Part} {a_ : Dev} (n : Fin 4) (d : Dev)
    (s_ : Part.sub [.spn] l_ = true) (k_ : Only l_ a_ d) :
    Only l_ a_ (doInhibitRetry n d) := by
  refine Only.of ?_ s_ k_
  unfold doInhibitRetry
  try dsimp only
  repeat' (first
    | with_reducible exact Only.refl _ _ | exact rfl | intro _
    | with_reducible first
      | apply Dev.modSpn_only | apply Only.ite | apply Only.each | apply OnlyO.some | apply OnlyO.none | apply OnlyO.getD
      | apply OnlyO.ite
    | with_reducible assumption
    | split)

theorem doMaskBlockCheck_only {l_ : List Part} {a_ : Dev} (n : Fin 4) (levels : List Int) (d : Dev)
    (s_ : Part.sub [.free, .start, .evt, .spn, .wrp, .ply] l_ = true) (k_ : Only l_ a_ d) :
    Only l_ a_ (doMaskBlockCheck n levels d) := by
  refine Only.of ?_ s_ k_
  unfold doMaskBlockCheck
  try dsimp only
  repeat' (first
    | with_reducible exact Only.refl _ _ | exact rfl | intro _
    | with_reducible first
      | apply report_only | apply Dev.modSpn_only | apply abortTx_only | apply Only.ite | apply Only.each | apply OnlyO.some
      | apply OnlyO.none | apply OnlyO.getD | apply OnlyO.ite
    | with_reducible assumption
    | split)

theorem endRecord_only {l_ : List Part} {a_ : Dev} (d : Dev) (k : AirKind)
    (s_ : Part.sub [.ply] l_ = true) (k_ : Only l_ a_ d) :
    Only l_ a_ (endRecord d k) := by
  refine Only.of ?_ s_ k_
  unfold endRecord
  try dsimp only
  repeat' (first
    | with_reducible exact Only.refl _ _ | exact rfl | intro _
    | with_reducible first
      | apply Dev.modPly_only | apply Only.ite | apply Only.each | apply OnlyO.some | apply OnlyO.none | apply OnlyO.getD
      | apply OnlyO.ite
    | with_reducible assumption
    | split)

theorem doTxEnd_only {l_ : List Part} {a_ : Dev} (n : Fin 4) (rl : Nat) (d : Dev)
    (s_ : Part.sub [.free, .evt, .spn, .ply] l_ = true) (k_ : Only l_ a_ d) :
    Only l_ a_ (doTxEnd n rl d) := by
  refine Only.of ?_ s_ k_
  unfold doTxEnd
  try dsimp only
  repeat' (first
    | with_reducible exact Only.refl _ _ | exact rfl | intro _
    | with_reducible first
      | apply Dev.modSpn_only | apply maskWatch_only | apply measureRl_only | apply endRecord_only | apply Only.ite
      | apply Only.each | apply OnlyO.some | apply OnlyO.none | apply OnlyO.getD | apply OnlyO.ite
    | with_reducible assumption
    | split)

theorem doTxReleaseStep_only {l_ : List Part} {a_ : Dev} (n : Fin 4) (st : TxRelease) (d : Dev)
    (s_ : Part.sub [.spn] l_ = true) (k_ : Only l_ a_ d) :
    Only l_ a_ (doTxReleaseStep n st d) := by
  refine Only.of ?_ s_ k_
  unfold doTxReleaseStep
  try dsimp only
  repeat' (first
    | with_reducible exact Only.refl _ _ | exact rfl | intro _
    | with_reducible first
      | apply Dev.modSpn_only | apply Only.ite | apply Only.each | apply OnlyO.some | apply OnlyO.none | apply OnlyO.getD
      | apply OnlyO.ite
    | with_reducible assumption
    | split)

theorem beginAck_only {l_ : List Part} {a_ : Dev} (d : Dev) (n : Fin 4) (x : Descriptor)
    (s_ : Part.sub [.spn, .wrp] l_ = true) (k_ : Only l_ a_ d) :
    Only l_ a_ (beginAck d n x) := by
  refine Only.of ?_ s_ k_
  unfold beginAck
  try dsimp only
  repeat' (first
    | with_reducible exact Only.refl _ _ | exact rfl | intro _
    | with_reducible first
      | apply countLost_only | apply beginTx_only | apply Only.ite)

theorem endRun_only {l_ : List Part} {a_ : Dev} (d : Dev) (n : Fin 4) (b : Nat) (r : RxRun) (x : Descriptor)
    (s_ : Part.sub [.start, .evt, .spn, .bob] l_ = true) (k_ : Only l_ a_ d) :
    Only l_ a_ (endRun d n b r x) := by
  refine Only.of ?_ s_ k_
  unfold endRun
  try dsimp only
  repeat' (first
    | with_reducible exact Only.refl _ _ | exact rfl | intro _
    | with_reducible first
      | apply deliver_only | apply Dev.endRun_only | apply Only.ite)

theorem doPreambleDetect_only {l_ : List Part} {a_ : Dev} (n : Fin 4) (b : Fin 16) (corr : Nat) (rssi snr foff : Int)
    (coded : Bool) (d : Dev)
    (s_ : Part.sub [.start, .evt, .spn, .bob] l_ = true) (k_ : Only l_ a_ d) :
    Only l_ a_ (doPreambleDetect n b corr rssi snr foff coded d) := by
  refine Only.of ?_ s_ k_
  unfold doPreambleDetect
  try dsimp only
  repeat' (first
    | with_reducible exact Only.refl _ _ | exact rfl | intro _
    | with_reducible first
      | apply Dev.modSpn_only | apply deliver_only | apply Only.ite | apply Only.each | apply OnlyO.some | apply OnlyO.none
      | apply OnlyO.getD | apply OnlyO.ite
    | with_reducible assumption
    | split)

theorem doHeaderDecode_only {l_ : List Part} {a_ : Dev} (n : Fin 4) (b : Fin 16) (hdr : RxHeader) (d : Dev)
    (s_ : Part.sub [.start, .evt, .spn, .bob] l_ = true) (k_ : Only l_ a_ d) :
    Only l_ a_ (doHeaderDecode n b hdr d) := by
  refine Only.of ?_ s_ k_
  unfold doHeaderDecode
  try dsimp only
  repeat' (first
    | with_reducible exact Only.refl _ _ | exact rfl | intro _
    | with_reducible first
      | apply Dev.modSpn_only | apply storeFull_only | apply endRun_only | apply Only.ite | apply Only.each
      | apply OnlyO.some | apply OnlyO.none | apply OnlyO.getD | apply OnlyO.ite
    | with_reducible assumption
    | split)

theorem doFrameEnd_only {l_ : List Part} {a_ : Dev} (n : Fin 4) (b : Fin 16) (octs : List Byte) (corrected : Nat)
    (fcsOk : Bool) (d : Dev)
    (s_ : Part.sub [.start, .evt, .spn, .wrp, .bob] l_ = true) (k_ : Only l_ a_ d) :
    Only l_ a_ (doFrameEnd n b octs corrected fcsOk d) := by
  refine Only.of ?_ s_ k_
  unfold doFrameEnd
  try dsimp only
  repeat' (first
    | with_reducible exact Only.refl _ _ | exact rfl | intro _
    | with_reducible first
      | apply Dev.modSpn_only | apply beginAck_only | apply endRun_only | apply Only.ite | apply Only.each
      | apply OnlyO.some | apply OnlyO.none | apply OnlyO.getD | apply OnlyO.ite
    | with_reducible assumption
    | split)

theorem doFrameTooLong_only {l_ : List Part} {a_ : Dev} (n : Fin 4) (b : Fin 16) (d : Dev)
    (s_ : Part.sub [.start, .evt, .spn, .bob] l_ = true) (k_ : Only l_ a_ d) :
    Only l_ a_ (doFrameTooLong n b d) := by
  refine Only.of ?_ s_ k_
  unfold doFrameTooLong
  try dsimp only
  repeat' (first
    | with_reducible exact Only.refl _ _ | exact rfl | intro _
    | with_reducible first
      | apply endRun_only | apply Only.ite | apply Only.each | apply OnlyO.some | apply OnlyO.none | apply OnlyO.getD
      | apply OnlyO.ite
    | with_reducible assumption
    | split)

end Sys2Proof.Machine
end

