-- ==== Sys2Proof/Laws/FramesWarp.lean ====
section
/-! SUPPORT. What the commands of the warp, supplies, nodes, the schedule and the tick may change. -/

namespace Sys2Proof.Machine

set_option Elab.async false
set_option linter.unusedTactic false

theorem setTiming_only {l_ : List Part} {a_ : Dev} (d : Dev) (ackt : Bool) (v : Word)
    (s_ : Part.sub [.wrp] l_ = true) (k_ : Only l_ a_ d) :
    Only l_ a_ (setTiming d ackt v) := by
  refine Only.of ?_ s_ k_
  unfold setTiming
  try dsimp only
  repeat' (first
    | with_reducible exact Only.refl _ _ | exact rfl | intro _
    | with_reducible apply Dev.modWrp_only)

theorem setWrpCtrl_only {l_ : List Part} {a_ : Dev} (d : Dev) (v : Word)
    (s_ : Part.sub [.wrp] l_ = true) (k_ : Only l_ a_ d) :
    Only l_ a_ (setWrpCtrl d v) := by
  refine Only.of ?_ s_ k_
  unfold setWrpCtrl
  try dsimp only
  repeat' (first
    | with_reducible exact Only.refl _ _ | exact rfl | intro _
    | with_reducible apply Dev.modWrp_only)

theorem writeTiming_only {l_ : List Part} {a_ : Dev} (d : Dev) (ackt : Bool) (v : Word)
    (s_ : Part.sub [.out, .start, .evt, .wrp, .sht, .ply, .dst] l_ = true) (k_ : Only l_ a_ d) :
    Only l_ a_ (writeTiming d ackt v).1 := by
  refine Only.of ?_ s_ k_
  unfold writeTiming
  try dsimp only
  repeat' (first
    | with_reducible exact Only.refl _ _ | exact rfl | intro _
    | with_reducible first
      | apply streamDelta_only | apply setTiming_only | apply Only.ite | apply Only.each | apply OnlyO.some
      | apply OnlyO.none | apply OnlyO.getD | apply OnlyO.ite
    | with_reducible assumption
    | split)

theorem doWrpTimingWrite_only {l_ : List Part} {a_ : Dev} (ackt : Bool) (v : Word) (d : Dev)
    (s_ : Part.sub [.out, .start, .evt, .wrp, .sht, .ply, .dst] l_ = true) (k_ : Only l_ a_ d) :
    Only l_ a_ (doWrpTimingWrite ackt v d) := by
  refine Only.of ?_ s_ k_
  unfold doWrpTimingWrite
  try dsimp only
  repeat' (first
    | with_reducible exact Only.refl _ _ | exact rfl | intro _
    | with_reducible refine regRow_only (by beta_reduce; exact rfl) ?_ ?_ ?_
    | with_reducible apply writeTiming_only)

theorem setHop_only {l_ : List Part} {a_ : Dev} (d : Dev) (t : Nat) (i : Option Nat) (v : Word)
    (s_ : Part.sub [.wrp] l_ = true) (k_ : Only l_ a_ d) :
    Only l_ a_ (setHop d t i v) := by
  refine Only.of ?_ s_ k_
  unfold setHop
  try dsimp only
  repeat' (first
    | with_reducible exact Only.refl _ _ | exact rfl | intro _
    | with_reducible apply Dev.modWrp_only)

theorem writeHop_only {l_ : List Part} {a_ : Dev} (d : Dev) (t : Nat) (i : Option Nat) (v : Word)
    (s_ : Part.sub [.out, .start, .evt, .wrp, .sht, .ply, .dst] l_ = true) (k_ : Only l_ a_ d) :
    Only l_ a_ (writeHop d t i v).1 := by
  refine Only.of ?_ s_ k_
  unfold writeHop
  try dsimp only
  repeat' (first
    | with_reducible exact Only.refl _ _ | exact rfl | intro _
    | with_reducible first
      | apply streamDelta_only | apply setHop_only | apply Only.ite | apply Only.each | apply OnlyO.some | apply OnlyO.none
      | apply OnlyO.getD | apply OnlyO.ite
    | with_reducible assumption
    | split)

theorem doWrpHopWrite_only {l_ : List Part} {a_ : Dev} (t : Fin 8) (i : Option (Fin 128)) (v : Word) (d : Dev)
    (s_ : Part.sub [.out, .start, .evt, .wrp, .sht, .ply, .dst] l_ = true) (k_ : Only l_ a_ d) :
    Only l_ a_ (doWrpHopWrite t i v d) := by
  refine Only.of ?_ s_ k_
  unfold doWrpHopWrite
  try dsimp only
  repeat' (first
    | with_reducible exact Only.refl _ _ | exact rfl | intro _
    | with_reducible refine regRow_only (by beta_reduce; exact rfl) ?_ ?_ ?_
    | with_reducible apply writeHop_only)

theorem writeSfNew_only {l_ : List Part} {a_ : Dev} (d : Dev) (n : Fin 4) (h : Nat) (v : Word)
    (s_ : Part.sub [.wrp] l_ = true) (k_ : Only l_ a_ d) :
    Only l_ a_ (writeSfNew d n h v).1 := by
  refine Only.of ?_ s_ k_
  unfold writeSfNew
  try dsimp only
  repeat' (first
    | with_reducible exact Only.refl _ _ | exact rfl | intro _
    | with_reducible first
      | apply Dev.modWrp_only | apply Only.ite | apply Only.each | apply OnlyO.some | apply OnlyO.none | apply OnlyO.getD
      | apply OnlyO.ite
    | with_reducible assumption
    | split)

theorem writeSfHi_only {l_ : List Part} {a_ : Dev} (d : Dev) (n : Fin 4) (h : Nat) (v : Word)
    (s_ : Part.sub [.wrp] l_ = true) (k_ : Only l_ a_ d) :
    Only l_ a_ (writeSfHi d n h v).1 := by
  refine Only.of ?_ s_ k_
  unfold writeSfHi
  try dsimp only
  repeat' (first
    | with_reducible exact Only.refl _ _ | exact rfl | intro _
    | with_reducible apply Dev.modWrp_only)

theorem writeSfLo_only {l_ : List Part} {a_ : Dev} (d : Dev) (n : Fin 4) (h : Nat) (v : Word)
    (s_ : Part.sub [.wrp] l_ = true) (k_ : Only l_ a_ d) :
    Only l_ a_ (writeSfLo d n h v).1 := by
  refine Only.of ?_ s_ k_
  unfold writeSfLo
  try dsimp only
  repeat' (first
    | with_reducible exact Only.refl _ _ | exact rfl | intro _
    | with_reducible first
      | apply Dev.modWrp_only | apply Only.ite | apply Only.each | apply OnlyO.some | apply OnlyO.none | apply OnlyO.getD
      | apply OnlyO.ite
    | with_reducible assumption
    | split)

theorem doSfArm_only {l_ : List Part} {a_ : Dev} (n : Fin 4) (h : Fin 8) (v : Word) (d : Dev)
    (s_ : Part.sub [.out, .wrp] l_ = true) (k_ : Only l_ a_ d) :
    Only l_ a_ (doSfArm n h v d) := by
  refine Only.of ?_ s_ k_
  unfold doSfArm
  try dsimp only
  repeat' (first
    | with_reducible exact Only.refl _ _ | exact rfl | intro _
    | with_reducible refine regRow_only (by beta_reduce; exact rfl) ?_ ?_ ?_
    | with_reducible apply writeSfLo_only)

theorem doSfDisarm_only {l_ : List Part} {a_ : Dev} (n : Fin 4) (h : Fin 8) (v : Word) (d : Dev)
    (s_ : Part.sub [.out, .wrp] l_ = true) (k_ : Only l_ a_ d) :
    Only l_ a_ (doSfDisarm n h v d) := by
  refine Only.of ?_ s_ k_
  unfold doSfDisarm
  try dsimp only
  repeat' (first
    | with_reducible exact Only.refl _ _ | exact rfl | intro _
    | with_reducible refine regRow_only (by beta_reduce; exact rfl) ?_ ?_ ?_
    | with_reducible apply writeSfHi_only)

theorem doSfSwitch_only {l_ : List Part} {a_ : Dev} (n : Fin 4) (h : Fin 8) (d : Dev)
    (s_ : Part.sub [.out, .start, .evt, .wrp, .sht, .ply, .dst] l_ = true) (k_ : Only l_ a_ d) :
    Only l_ a_ (doSfSwitch n h d) := by
  refine Only.of ?_ s_ k_
  unfold doSfSwitch
  try dsimp only
  repeat' (first
    | with_reducible exact Only.refl _ _ | exact rfl | intro _
    | with_reducible first
      | apply report_only | apply Dev.modWrp_only | apply streamDelta_only | apply Only.ite)

theorem setCell_only {l_ : List Part} {a_ : Dev} (d : Dev) (n : Fin 4) (i : Nat) (c : Option (Word × Word))
    (s_ : Part.sub [.wrp] l_ = true) (k_ : Only l_ a_ d) :
    Only l_ a_ (setCell d n i c) := by
  refine Only.of ?_ s_ k_
  unfold setCell
  try dsimp only
  repeat' (first
    | with_reducible exact Only.refl _ _ | exact rfl | intro _
    | with_reducible apply Dev.modWrp_only)

theorem ccmdKeep_only {l_ : List Part} {a_ : Dev} (d : Dev) (v : Word)
    (s_ : Part.sub [.wrp] l_ = true) (k_ : Only l_ a_ d) :
    Only l_ a_ (ccmdKeep d v) := by
  refine Only.of ?_ s_ k_
  unfold ccmdKeep
  try dsimp only
  repeat' (first
    | with_reducible exact Only.refl _ _ | exact rfl | intro _
    | with_reducible apply Dev.modWrp_only)

theorem ccmdRead_only {l_ : List Part} {a_ : Dev} (d : Dev) (v : Word)
    (s_ : Part.sub [.wrp] l_ = true) (k_ : Only l_ a_ d) :
    Only l_ a_ (ccmdRead d v) := by
  refine Only.of ?_ s_ k_
  unfold ccmdRead
  try dsimp only
  repeat' (first
    | with_reducible exact Only.refl _ _ | exact rfl | intro _
    | with_reducible first
      | apply Dev.modWrp_only | apply ccmdKeep_only)

theorem ccmdWrite_only {l_ : List Part} {a_ : Dev} (d : Dev) (v : Word)
    (s_ : Part.sub [.out, .start, .evt, .wrp, .sht, .ply, .dst] l_ = true) (k_ : Only l_ a_ d) :
    Only l_ a_ (ccmdWrite d v) := by
  refine Only.of ?_ s_ k_
  unfold ccmdWrite
  try dsimp only
  repeat' (first
    | with_reducible exact Only.refl _ _ | exact rfl | intro _
    | with_reducible first
      | apply Dev.modWrp_only | apply streamDelta_only | apply setCell_only | apply ccmdKeep_only | apply Only.ite)

theorem ccmdDelete_only {l_ : List Part} {a_ : Dev} (d : Dev) (v : Word)
    (s_ : Part.sub [.out, .start, .evt, .wrp, .sht, .ply, .dst] l_ = true) (k_ : Only l_ a_ d) :
    Only l_ a_ (ccmdDelete d v) := by
  refine Only.of ?_ s_ k_
  unfold ccmdDelete
  try dsimp only
  repeat' (first
    | with_reducible exact Only.refl _ _ | exact rfl | intro _
    | with_reducible first
      | apply Dev.modWrp_only | apply streamDelta_only | apply setCell_only | apply ccmdKeep_only | apply Only.ite)

theorem doCellRead_only {l_ : List Part} {a_ : Dev} (v : Word) (d : Dev)
    (s_ : Part.sub [.out, .wrp] l_ = true) (k_ : Only l_ a_ d) :
    Only l_ a_ (doCellRead v d) := by
  refine Only.of ?_ s_ k_
  unfold doCellRead
  try dsimp only
  repeat' (first
    | with_reducible exact Only.refl _ _ | exact rfl | intro _
    | with_reducible refine regRow_only (by beta_reduce; exact rfl) ?_ ?_ ?_
    | with_reducible apply ccmdRead_only)

theorem doCellWrite_only {l_ : List Part} {a_ : Dev} (v : Word) (d : Dev)
    (s_ : Part.sub [.out, .start, .evt, .wrp, .sht, .ply, .dst] l_ = true) (k_ : Only l_ a_ d) :
    Only l_ a_ (doCellWrite v d) := by
  refine Only.of ?_ s_ k_
  unfold doCellWrite
  try dsimp only
  repeat' (first
    | with_reducible exact Only.refl _ _ | exact rfl | intro _
    | with_reducible refine regRow_only (by beta_reduce; exact rfl) ?_ ?_ ?_
    | with_reducible apply ccmdWrite_only)

theorem doCellDelete_only {l_ : List Part} {a_ : Dev} (v : Word) (d : Dev)
    (s_ : Part.sub [.out, .start, .evt, .wrp, .sht, .ply, .dst] l_ = true) (k_ : Only l_ a_ d) :
    Only l_ a_ (doCellDelete v d) := by
  refine Only.of ?_ s_ k_
  unfold doCellDelete
  try dsimp only
  repeat' (first
    | with_reducible exact Only.refl _ _ | exact rfl | intro _
    | with_reducible refine regRow_only (by beta_reduce; exact rfl) ?_ ?_ ?_
    | with_reducible apply ccmdDelete_only)

theorem writeCcmd_only {l_ : List Part} {a_ : Dev} (d : Dev) (v : Word)
    (s_ : Part.sub [.out, .start, .evt, .wrp, .sht, .ply, .dst] l_ = true) (k_ : Only l_ a_ d) :
    Only l_ a_ (writeCcmd d v).1 := by
  refine Only.of ?_ s_ k_
  unfold writeCcmd
  try dsimp only
  repeat' (first
    | with_reducible exact Only.refl _ _ | exact rfl | intro _
    | with_reducible first
      | apply ccmdKeep_only | apply ccmdRead_only | apply ccmdWrite_only | apply ccmdDelete_only | apply Only.ite
      | apply Only.each | apply OnlyO.some | apply OnlyO.none | apply OnlyO.getD | apply OnlyO.ite
    | with_reducible assumption
    | split)

theorem writeWrp_only {l_ : List Part} {a_ : Dev} (d : Dev) (o : Nat) (v : Word)
    (s_ : Part.sub [.out, .start, .evt, .wrp, .sht, .ply, .dst] l_ = true) (k_ : Only l_ a_ d) :
    OnlyO l_ a_ (writeWrp d o v) := by
  refine OnlyO.of ?_ s_ k_
  unfold writeWrp
  try dsimp only
  repeat' (first
    | with_reducible exact Only.refl _ _ | exact rfl | intro _
    | with_reducible first
      | apply Dev.modWrp_only | apply streamDelta_only | apply setWrpCtrl_only | apply writeTiming_only
      | apply writeHop_only | apply writeSfNew_only | apply writeSfHi_only | apply writeSfLo_only | apply writeCcmd_only
      | apply Only.ite | apply Only.each | apply OnlyO.some | apply OnlyO.none | apply OnlyO.getD | apply OnlyO.ite
    | with_reducible assumption
    | split)

theorem changePower_only {l_ : List Part} {a_ : Dev} (d : Dev) (new cause : Nat)
    (s_ : Part.sub [.free, .out, .glb, .start, .evt, .whl, .spn, .wrp, .ccp, .sht, .ply, .dst, .img, .bob] l_ = true) (k_ : Only l_ a_ d) :
    Only l_ a_ (changePower d new cause) := by
  refine Only.of ?_ s_ k_
  unfold changePower
  try dsimp only
  repeat' (first
    | with_reducible exact Only.refl _ _ | exact rfl | intro _
    | with_reducible first
      | apply report_only | apply Dev.modGlb_only | apply dropTx_only | apply setRole_only | apply atEndOfCell_only
      | apply Only.ite | apply Only.each | apply OnlyO.some | apply OnlyO.none | apply OnlyO.getD | apply OnlyO.ite
    | with_reducible assumption
    | split)

theorem protectiveTrip_only {l_ : List Part} {a_ : Dev} (d : Dev) (thermal : Bool)
    (s_ : Part.sub [.free, .out, .glb, .start, .evt, .whl, .spn, .wrp, .ccp, .sht, .ply, .dst, .img, .bob] l_ = true) (k_ : Only l_ a_ d) :
    Only l_ a_ (protectiveTrip d thermal) := by
  refine Only.of ?_ s_ k_
  unfold protectiveTrip
  try dsimp only
  repeat' (first
    | with_reducible exact Only.refl _ _ | exact rfl | intro _
    | with_reducible first
      | apply report_only | apply Dev.modGlb_only | apply changePower_only | apply Only.ite)

theorem doPowerState_only {l_ : List Part} {a_ : Dev} (th : Nat) (d : Dev)
    (s_ : Part.sub [.free, .out, .pwr, .glb, .start, .evt, .whl, .spn, .wrp, .ccp, .sht, .ply, .dst, .img, .bob] l_ = true) (k_ : Only l_ a_ d) :
    Only l_ a_ (doPowerState th d) := by
  refine Only.of ?_ s_ k_
  unfold doPowerState
  try dsimp only
  repeat' (first
    | with_reducible exact Only.refl _ _ | exact rfl | intro _
    | with_reducible first
      | apply Dev.modGlb_only | apply Dev.modPwr_only | apply finish_only | apply runThread_only | apply changePower_only
      | apply Only.ite | apply Only.each | apply OnlyO.some | apply OnlyO.none | apply OnlyO.getD | apply OnlyO.ite
    | with_reducible assumption
    | split)

theorem selfTestLive_only {l_ : List Part} {a_ : Dev} (d : Dev) (b : Nat) (ok : Bool)
    (s_ : Part.sub [.glb, .start, .evt] l_ = true) (k_ : Only l_ a_ d) :
    Only l_ a_ (selfTestLive d b ok) := by
  refine Only.of ?_ s_ k_
  unfold selfTestLive
  try dsimp only
  repeat' (first
    | with_reducible exact Only.refl _ _ | exact rfl | intro _
    | with_reducible first
      | apply Dev.modGlb_only | apply selfTest_only | apply Only.ite)

theorem thermalWatch_only {l_ : List Part} {a_ : Dev} (d : Dev) (e i : Nat) (t theta : Int)
    (s_ : Part.sub [.evt] l_ = true) (k_ : Only l_ a_ d) :
    Only l_ a_ (thermalWatch d e i t theta) := by
  refine Only.of ?_ s_ k_
  unfold thermalWatch
  try dsimp only
  repeat' (first
    | with_reducible exact Only.refl _ _ | exact rfl | intro _
    | with_reducible apply watchDwell_only)

theorem doTemperatureSample_only {l_ : List Part} {a_ : Dev} (t : Four Int) (paired : Bool) (d : Dev)
    (s_ : Part.sub [.free, .out, .pwr, .glb, .start, .evt, .whl, .spn, .wrp, .ccp, .sht, .ply, .dst, .img, .bob] l_ = true) (k_ : Only l_ a_ d) :
    Only l_ a_ (doTemperatureSample t paired d) := by
  refine Only.of ?_ s_ k_
  unfold doTemperatureSample
  try dsimp only
  repeat' (first
    | with_reducible exact Only.refl _ _ | exact rfl | intro _
    | with_reducible first
      | apply watchDwell_only | apply Dev.modPwr_only | apply protectiveTrip_only | apply selfTestLive_only
      | apply thermalWatch_only | apply Only.ite | apply Only.each)

theorem railWatch_only {l_ : List Part} {a_ : Dev} (d : Dev) (i v : Nat) (lim : Nat × Nat × Nat)
    (s_ : Part.sub [.evt] l_ = true) (k_ : Only l_ a_ d) :
    Only l_ a_ (railWatch d i v lim) := by
  refine Only.of ?_ s_ k_
  unfold railWatch
  try dsimp only
  repeat' (first
    | with_reducible exact Only.refl _ _ | exact rfl | intro _
    | with_reducible apply watchDwell_only)

theorem inputTrip_only {l_ : List Part} {a_ : Dev} (d : Dev) (vhold : Nat)
    (s_ : Part.sub [.free, .out, .pwr, .glb, .start, .evt, .whl, .spn, .wrp, .ccp, .sht, .ply, .dst, .img, .bob] l_ = true) (k_ : Only l_ a_ d) :
    Only l_ a_ (inputTrip d vhold) := by
  refine Only.of ?_ s_ k_
  unfold inputTrip
  try dsimp only
  repeat' (first
    | with_reducible exact Only.refl _ _ | exact rfl | intro _
    | with_reducible first
      | apply Dev.modPwr_only | apply protectiveTrip_only | apply Only.ite)

theorem pwrfailWatch_only {l_ : List Part} {a_ : Dev} (d : Dev) (vhold : Nat)
    (s_ : Part.sub [.pwr, .evt] l_ = true) (k_ : Only l_ a_ d) :
    Only l_ a_ (pwrfailWatch d vhold) := by
  refine Only.of ?_ s_ k_
  unfold pwrfailWatch
  try dsimp only
  repeat' (first
    | with_reducible exact Only.refl _ _ | exact rfl | intro _
    | with_reducible first
      | apply watchIf_only | apply Dev.modPwr_only)

theorem stageFail_only {l_ : List Part} {a_ : Dev} (d : Dev) (st : Status)
    (s_ : Part.sub [.start, .evt, .whl, .ccp, .ply, .img] l_ = true) (k_ : Only l_ a_ d) :
    Only l_ a_ (stageFail d st) := by
  refine Only.of ?_ s_ k_
  unfold stageFail
  try dsimp only
  repeat' (first
    | with_reducible exact Only.refl _ _ | exact rfl | intro _
    | with_reducible first
      | apply report_only | apply Dev.modImg_only | apply finish_only | apply refreshBanks_only | apply Only.ite
      | apply Only.each | apply OnlyO.some | apply OnlyO.none | apply OnlyO.getD | apply OnlyO.ite
    | with_reducible assumption
    | split)

theorem doSupplyMeasure_only {l_ : List Part} {a_ : Dev} (vhold pin : Nat) (rails : List Nat) (d : Dev)
    (s_ : Part.sub [.free, .out, .pwr, .glb, .start, .evt, .whl, .spn, .wrp, .ccp, .sht, .ply, .dst, .img, .bob] l_ = true) (k_ : Only l_ a_ d) :
    Only l_ a_ (doSupplyMeasure vhold pin rails d) := by
  refine Only.of ?_ s_ k_
  unfold doSupplyMeasure
  try dsimp only
  repeat' (first
    | with_reducible exact Only.refl _ _ | exact rfl | intro _
    | with_reducible first
      | apply Dev.modPwr_only | apply selfTestLive_only | apply railWatch_only | apply inputTrip_only
      | apply pwrfailWatch_only | apply stageFail_only | apply Only.ite | apply Only.each)

theorem doHoldupCheckStart_only {l_ : List Part} {a_ : Dev} (v1 : Nat) (d : Dev)
    (s_ : Part.sub [.pwr] l_ = true) (k_ : Only l_ a_ d) :
    Only l_ a_ (doHoldupCheckStart v1 d) := by
  refine Only.of ?_ s_ k_
  unfold doHoldupCheckStart
  try dsimp only
  repeat' (first
    | with_reducible exact Only.refl _ _ | exact rfl | intro _
    | with_reducible first
      | apply Dev.modPwr_only | apply Only.ite | apply Only.each | apply OnlyO.some | apply OnlyO.none | apply OnlyO.getD
      | apply OnlyO.ite
    | with_reducible assumption
    | split)

theorem holdupPass_only {l_ : List Part} {a_ : Dev} (d : Dev) (v1 v2 p : Nat)
    (s_ : Part.sub [.free] l_ = true) (k_ : Only l_ a_ d) :
    Only l_ a_ (holdupPass d v1 v2 p).2 := by
  refine Only.of ?_ s_ k_
  unfold holdupPass
  try dsimp only
  repeat' (first
    | with_reducible exact Only.refl _ _ | exact rfl | intro _
    | with_reducible first
      | apply Dev.draw_only | apply Only.ite | apply Only.each | apply OnlyO.some | apply OnlyO.none | apply OnlyO.getD
      | apply OnlyO.ite
    | with_reducible assumption
    | split)

theorem doHoldupCheckEnd_only {l_ : List Part} {a_ : Dev} (v2 p : Nat) (d : Dev)
    (s_ : Part.sub [.free, .pwr, .glb, .start, .evt] l_ = true) (k_ : Only l_ a_ d) :
    Only l_ a_ (doHoldupCheckEnd v2 p d) := by
  refine Only.of ?_ s_ k_
  unfold doHoldupCheckEnd
  try dsimp only
  repeat' (first
    | with_reducible exact Only.refl _ _ | exact rfl | intro _
    | with_reducible first
      | apply Dev.modPwr_only | apply selfTest_only | apply holdupPass_only | apply Only.ite | apply Only.each
      | apply OnlyO.some | apply OnlyO.none | apply OnlyO.getD | apply OnlyO.ite
    | with_reducible assumption
    | split)

theorem spindleTest_only {l_ : List Part} {a_ : Dev} {th op : Nat} {f : Dev → Fin 4 → Dev} {d : Dev}
    (s_ : Part.sub [.whl, .ccp, .ply, .img] l_ = true) (k_ : Only l_ a_ d)
    (h_ : ∀ e x, Only l_ a_ e → Only l_ a_ (f e x)) :
    Only l_ a_ (spindleTest d th op f) := by
  have s1 : Part.sub [.ccp] l_ = true := Part.sub_trans rfl s_
  have s2 : Part.sub [.whl, .ccp, .ply, .img] l_ = true := Part.sub_trans rfl s_
  unfold spindleTest
  apply runThread_only s1 k_
  intro e t x he
  split
  · exact finish_only _ _ _ _ s2 he
  · exact h_ _ _ he

theorem askOos_only {l_ : List Part} {a_ : Dev} (d : Dev) (th : Nat) (n : Fin 4) (o : OutOfService)
    (s_ : Part.sub [.free, .start, .evt, .whl, .spn, .wrp, .ccp, .ply, .img, .bob] l_ = true) (k_ : Only l_ a_ d) :
    Only l_ a_ (askOos d th n o) := by
  refine Only.of ?_ s_ k_
  unfold askOos
  try dsimp only
  repeat' (first
    | with_reducible exact Only.refl _ _ | exact rfl | intro _
    | with_reducible first
      | apply Dev.modSpn_only | apply finish_only | apply atEndOfCell_only | apply Only.ite | apply Only.each
      | apply OnlyO.some | apply OnlyO.none | apply OnlyO.getD | apply OnlyO.ite
    | with_reducible assumption
    | split)

theorem doTest_only {l_ : List Part} {a_ : Dev} (th : Nat) (d : Dev)
    (s_ : Part.sub [.free, .start, .evt, .whl, .spn, .wrp, .ccp, .ply, .img, .bob] l_ = true) (k_ : Only l_ a_ d) :
    Only l_ a_ (doTest th d) := by
  refine Only.of ?_ s_ k_
  unfold doTest
  try dsimp only
  repeat' (first
    | with_reducible exact Only.refl _ _ | exact rfl | intro _
    | with_reducible first
      | apply spindleTest_only | apply askOos_only | apply Only.ite | apply Only.each | apply OnlyO.some | apply OnlyO.none
      | apply OnlyO.getD | apply OnlyO.ite
    | with_reducible assumption)

theorem doBypass_only {l_ : List Part} {a_ : Dev} (th : Nat) (d : Dev)
    (s_ : Part.sub [.free, .start, .evt, .whl, .spn, .wrp, .ccp, .ply, .img, .bob] l_ = true) (k_ : Only l_ a_ d) :
    Only l_ a_ (doBypass th d) := by
  refine Only.of ?_ s_ k_
  unfold doBypass
  try dsimp only
  repeat' (first
    | with_reducible exact Only.refl _ _ | exact rfl | intro _
    | with_reducible first
      | apply spindleTest_only | apply askOos_only | apply Only.ite | apply Only.each | apply OnlyO.some | apply OnlyO.none
      | apply OnlyO.getD | apply OnlyO.ite
    | with_reducible assumption)

theorem doReturnTest_only {l_ : List Part} {a_ : Dev} (th : Nat) (d : Dev)
    (s_ : Part.sub [.start, .evt, .whl, .spn, .ccp, .ply, .img] l_ = true) (k_ : Only l_ a_ d) :
    Only l_ a_ (doReturnTest th d) := by
  refine Only.of ?_ s_ k_
  unfold doReturnTest
  try dsimp only
  repeat' (first
    | with_reducible exact Only.refl _ _ | exact rfl | intro _
    | with_reducible first
      | apply report_only | apply Dev.modSpn_only | apply finish_only | apply spindleTest_only | apply Only.ite
      | apply Only.each | apply OnlyO.some | apply OnlyO.none | apply OnlyO.getD | apply OnlyO.ite
    | with_reducible assumption)

theorem doUnbypass_only {l_ : List Part} {a_ : Dev} (th : Nat) (d : Dev)
    (s_ : Part.sub [.free, .start, .evt, .whl, .spn, .wrp, .ccp, .ply, .img, .bob] l_ = true) (k_ : Only l_ a_ d) :
    Only l_ a_ (doUnbypass th d) := by
  refine Only.of ?_ s_ k_
  unfold doUnbypass
  try dsimp only
  repeat' (first
    | with_reducible exact Only.refl _ _ | exact rfl | intro _
    | with_reducible first
      | apply report_only | apply Dev.modSpn_only | apply finish_only | apply atEndOfCell_only | apply spindleTest_only
      | apply Only.ite | apply Only.each | apply OnlyO.some | apply OnlyO.none | apply OnlyO.getD | apply OnlyO.ite
    | with_reducible assumption)

theorem doSpindleTestComplete_only {l_ : List Part} {a_ : Dev} (n : Fin 4) (r : TestResult) (d : Dev)
    (s_ : Part.sub [.pwr, .glb, .start, .evt, .whl, .spn, .ccp, .ply, .img] l_ = true) (k_ : Only l_ a_ d) :
    Only l_ a_ (doSpindleTestComplete n r d) := by
  refine Only.of ?_ s_ k_
  unfold doSpindleTestComplete
  try dsimp only
  repeat' (first
    | with_reducible exact Only.refl _ _ | exact rfl | intro _
    | with_reducible first
      | apply Dev.pass_only | apply Dev.modSpn_only | apply finish_only | apply selfTest_only | apply Only.ite
      | apply Only.each | apply OnlyO.some | apply OnlyO.none | apply OnlyO.getD | apply OnlyO.ite
    | with_reducible assumption
    | split)

theorem dropCorrection_only {l_ : List Part} {a_ : Dev} (d : Dev) (i : Nat)
    (s_ : Part.sub [.wrp, .ply] l_ = true) (k_ : Only l_ a_ d) :
    Only l_ a_ (dropCorrection d i) := by
  refine Only.of ?_ s_ k_
  unfold dropCorrection
  try dsimp only
  repeat' (first
    | with_reducible exact Only.refl _ _ | exact rfl | intro _
    | with_reducible first
      | apply Dev.modPly_only | apply Dev.modNode_only)

theorem correctNode_only {l_ : List Part} {a_ : Dev} (d : Dev) (i : Nat) (e : Int) (ts : Nat) (gen : Option Nat)
    (s_ : Part.sub [.out, .start, .evt, .wrp, .sht, .ply, .dst] l_ = true) (k_ : Only l_ a_ d) :
    Only l_ a_ (correctNode d i e ts gen) := by
  refine Only.of ?_ s_ k_
  unfold correctNode
  try dsimp only
  repeat' (first
    | with_reducible exact Only.refl _ _ | exact rfl | intro _
    | with_reducible first
      | apply report_only | apply Dev.modNode_only | apply submitRec_only | apply dropCorrection_only | apply Only.ite
      | apply Only.each | apply OnlyO.some | apply OnlyO.none | apply OnlyO.getD | apply OnlyO.ite
    | with_reducible assumption
    | split)

theorem doCorrectionFrameExpire_only {l_ : List Part} {a_ : Dev} (i : Nat) (d : Dev)
    (s_ : Part.sub [.wrp, .ply] l_ = true) (k_ : Only l_ a_ d) :
    Only l_ a_ (doCorrectionFrameExpire i d) := by
  refine Only.of ?_ s_ k_
  unfold doCorrectionFrameExpire
  try dsimp only
  repeat' (first
    | with_reducible exact Only.refl _ _ | exact rfl | intro _
    | with_reducible first
      | apply Dev.modCnt_only | apply dropCorrection_only | apply Only.ite | apply Only.each | apply OnlyO.some
      | apply OnlyO.none | apply OnlyO.getD | apply OnlyO.ite
    | with_reducible assumption
    | split)

theorem takeFoff_only {l_ : List Part} {a_ : Dev} (d : Dev) (n : Fin 4) (i : Nat) (foff : Int)
    (s_ : Part.sub [.start, .evt, .wrp] l_ = true) (k_ : Only l_ a_ d) :
    Only l_ a_ (takeFoff d n i foff) := by
  refine Only.of ?_ s_ k_
  unfold takeFoff
  try dsimp only
  repeat' (first
    | with_reducible exact Only.refl _ _ | exact rfl | intro _
    | with_reducible first
      | apply report_only | apply Dev.modNode_only | apply Only.ite)

theorem doNodeOffsetLapse_only {l_ : List Part} {a_ : Dev} (i : Nat) (d : Dev)
    (s_ : Part.sub [.wrp] l_ = true) (k_ : Only l_ a_ d) :
    Only l_ a_ (doNodeOffsetLapse i d) := by
  refine Only.of ?_ s_ k_
  unfold doNodeOffsetLapse
  try dsimp only
  repeat' (first
    | with_reducible exact Only.refl _ _ | exact rfl | intro _
    | with_reducible apply Dev.modNode_only)

theorem driftRun_only {l_ : List Part} {a_ : Dev} (d : Dev) (i : Nat) (cls : Nat) (e : Int)
    (s_ : Part.sub [.start, .evt, .wrp] l_ = true) (k_ : Only l_ a_ d) :
    Only l_ a_ (driftRun d i cls e) := by
  refine Only.of ?_ s_ k_
  unfold driftRun
  try dsimp only
  repeat' (first
    | with_reducible exact Only.refl _ _ | exact rfl | intro _
    | with_reducible first
      | apply report_only | apply Dev.modNode_only | apply Only.ite | apply Only.each | apply OnlyO.some | apply OnlyO.none
      | apply OnlyO.getD | apply OnlyO.ite
    | with_reducible assumption
    | split)

theorem countClass_only {l_ : List Part} {a_ : Dev} (d : Dev) (n : Fin 4) (cls : Nat)
    (s_ : Part.sub [.evt, .wrp] l_ = true) (k_ : Only l_ a_ d) :
    Only l_ a_ (countClass d n cls) := by
  refine Only.of ?_ s_ k_
  unfold countClass
  try dsimp only
  repeat' (first
    | with_reducible exact Only.refl _ _ | exact rfl | intro _
    | with_reducible first
      | apply watch_only | apply Dev.modWrp_only | apply Dev.modCnt_only | apply Only.ite)

theorem sendHint_only {l_ : List Part} {a_ : Dev} (d : Dev) (i gen used : Nat)
    (s_ : Part.sub [.out, .start, .evt, .wrp, .sht, .ply, .dst] l_ = true) (k_ : Only l_ a_ d) :
    Only l_ a_ (sendHint d i gen used) := by
  refine Only.of ?_ s_ k_
  unfold sendHint
  try dsimp only
  repeat' (first
    | with_reducible exact Only.refl _ _ | exact rfl | intro _
    | with_reducible first
      | apply Dev.modNode_only | apply submitRec_only | apply Only.ite | apply Only.each | apply OnlyO.some
      | apply OnlyO.none | apply OnlyO.getD | apply OnlyO.ite
    | with_reducible assumption
    | split)

theorem linkKey_only {l_ : List Part} {a_ : Dev} (d : Dev) (x : Node) (s gen : Nat)
    (s_ : Part.sub [.free, .start, .evt, .dst] l_ = true) (k_ : Only l_ a_ d) :
    Only l_ a_ (linkKey d x s gen).2 := by
  refine Only.of ?_ s_ k_
  unfold linkKey
  try dsimp only
  repeat' (first
    | with_reducible exact Only.refl _ _ | exact rfl | intro _
    | with_reducible first
      | apply invoke_only | apply deriveKey_only | apply Only.ite | apply Only.each | apply OnlyO.some | apply OnlyO.none
      | apply OnlyO.getD | apply OnlyO.ite
    | with_reducible assumption
    | split)

theorem linkSecure_only {l_ : List Part} {a_ : Dev} (d : Dev) (i : Nat) (x : Node) (m : MacInfo)
    (s_ : Part.sub [.free, .out, .start, .evt, .wrp, .sht, .ply, .dst] l_ = true) (k_ : Only l_ a_ d) :
    Only l_ a_ (linkSecure d i x m).2 := by
  refine Only.of ?_ s_ k_
  unfold linkSecure
  try dsimp only
  repeat' (first
    | with_reducible exact Only.refl _ _ | exact rfl | intro _
    | with_reducible first
      | apply report_only | apply Dev.modWrp_only | apply Dev.modNode_only | apply sendHint_only | apply linkKey_only
      | apply Only.ite | apply Only.each | apply OnlyO.some | apply OnlyO.none | apply OnlyO.getD | apply OnlyO.ite
    | with_reducible assumption
    | split)

theorem takeAck_only {l_ : List Part} {a_ : Dev} (d : Dev) (i hash : Nat) (start : Int)
    (s_ : Part.sub [.ply] l_ = true) (k_ : Only l_ a_ d) :
    Only l_ a_ (takeAck d i hash start) := by
  refine Only.of ?_ s_ k_
  unfold takeAck
  try dsimp only
  repeat' (first
    | with_reducible exact Only.refl _ _ | exact rfl | intro _
    | with_reducible first
      | apply Dev.modPly_only | apply Only.ite | apply Only.each | apply OnlyO.some | apply OnlyO.none | apply OnlyO.getD
      | apply OnlyO.ite
    | with_reducible assumption
    | split)

theorem takeLate_only {l_ : List Part} {a_ : Dev} (d : Dev) (n : Fin 4) (x : Descriptor) (l : LateInfo)
    (s_ : Part.sub [.out, .start, .evt, .wrp, .sht, .ply, .dst] l_ = true) (k_ : Only l_ a_ d) :
    Only l_ a_ (takeLate d n x l) := by
  refine Only.of ?_ s_ k_
  unfold takeLate
  try dsimp only
  repeat' (first
    | with_reducible exact Only.refl _ _ | exact rfl | intro _
    | with_reducible first
      | apply report_only | apply Dev.modCnt_only | apply correctNode_only | apply Only.ite | apply Only.each
      | apply OnlyO.some | apply OnlyO.none | apply OnlyO.getD | apply OnlyO.ite
    | with_reducible assumption
    | split)

theorem takeData_only {l_ : List Part} {a_ : Dev} (d : Dev) (n : Fin 4) (x : Descriptor) (m : MacInfo)
    (s_ : Part.sub [.free, .out, .glb, .start, .evt, .wrp, .sht, .que, .crd, .ply, .dst] l_ = true) (k_ : Only l_ a_ d) :
    Only l_ a_ (takeData d n x m) := by
  refine Only.of ?_ s_ k_
  unfold takeData
  try dsimp only
  repeat' (first
    | with_reducible exact Only.refl _ _ | exact rfl | intro _
    | with_reducible first
      | apply report_only | apply Dev.emit_only | apply Dev.modWrp_only | apply ingressPacket_only | apply correctNode_only
      | apply takeFoff_only | apply driftRun_only | apply countClass_only | apply linkSecure_only | apply Only.ite
      | apply Only.each | apply OnlyO.some | apply OnlyO.none | apply OnlyO.getD | apply OnlyO.ite
    | with_reducible assumption
    | split
    | dsimp only
    | with_reducible refine Only.id ?_
    | refine OnlyO.get (by assumption) ?_
    | refine OnlyO.get1 (by assumption) ?_
    | refine Only.fst (by assumption) ?_
    | refine Only.snd (by assumption) ?_)

theorem takeFrame_only {l_ : List Part} {a_ : Dev} (m : MacInfo) (d : Dev)
    (s_ : Part.sub [.free, .out, .glb, .start, .evt, .wrp, .sht, .que, .crd, .ply, .dst] l_ = true) (k_ : Only l_ a_ d) :
    Only l_ a_ (takeFrame m d) := by
  refine Only.of ?_ s_ k_
  unfold takeFrame
  try dsimp only
  repeat' (first
    | with_reducible exact Only.refl _ _ | exact rfl | intro _
    | with_reducible first
      | apply Dev.modWrp_only | apply takeFoff_only | apply linkSecure_only | apply takeAck_only | apply takeLate_only
      | apply takeData_only | apply Only.ite | apply Only.each | apply OnlyO.some | apply OnlyO.none | apply OnlyO.getD
      | apply OnlyO.ite
    | with_reducible assumption
    | split
    | dsimp only
    | with_reducible refine Only.id ?_
    | refine OnlyO.get (by assumption) ?_
    | refine OnlyO.get1 (by assumption) ?_
    | refine Only.fst (by assumption) ?_
    | refine Only.snd (by assumption) ?_)

theorem doRxFrameProcess_only {l_ : List Part} {a_ : Dev} (m : MacInfo) (d : Dev)
    (s_ : Part.sub [.free, .out, .glb, .start, .evt, .spn, .wrp, .sht, .que, .crd, .ply, .dst, .bob] l_ = true) (k_ : Only l_ a_ d) :
    Only l_ a_ (doRxFrameProcess m d) := by
  refine Only.of ?_ s_ k_
  unfold doRxFrameProcess
  try dsimp only
  repeat' (first
    | with_reducible exact Only.refl _ _ | exact rfl | intro _
    | with_reducible first
      | apply drainBobbin_only | apply takeFrame_only | apply Only.ite | apply Only.each)

theorem doThrowConfirmReceive_only {l_ : List Part} {a_ : Dev} (i id : Nat) (status : BitVec 8) (d : Dev)
    (s_ : Part.sub [.whl] l_ = true) (k_ : Only l_ a_ d) :
    Only l_ a_ (doThrowConfirmReceive i id status d) := by
  refine Only.of ?_ s_ k_
  unfold doThrowConfirmReceive
  try dsimp only
  repeat' (first
    | with_reducible exact Only.refl _ _ | exact rfl | intro _
    | with_reducible first
      | apply Dev.modWhl_only | apply Only.ite)

theorem threadDelivered_only {l_ : List Part} {a_ : Dev} (r : DownRec) (d : Dev) (th : Nat)
    (s_ : Part.sub [.whl, .ccp, .ply, .img] l_ = true) (k_ : Only l_ a_ d) :
    Only l_ a_ (threadDelivered r d th) := by
  refine Only.of ?_ s_ k_
  unfold threadDelivered
  try dsimp only
  repeat' (first
    | with_reducible exact Only.refl _ _ | exact rfl | intro _
    | with_reducible first
      | apply Dev.modThread_only | apply finish_only | apply Only.ite | apply Only.each | apply OnlyO.some
      | apply OnlyO.none | apply OnlyO.getD | apply OnlyO.ite
    | with_reducible assumption
    | split)

theorem relayDelivered_only {l_ : List Part} {a_ : Dev} (d : Dev) (r : DownRec) (st : Status)
    (s_ : Part.sub [.out, .start, .evt, .ply, .dst] l_ = true) (k_ : Only l_ a_ d) :
    Only l_ a_ (relayDelivered d r st) := by
  refine Only.of ?_ s_ k_
  unfold relayDelivered
  try dsimp only
  repeat' (first
    | with_reducible exact Only.refl _ _ | exact rfl | intro _
    | with_reducible first
      | apply Dev.modPly_only | apply loomSend_only | apply Only.ite | apply Only.each | apply OnlyO.some | apply OnlyO.none
      | apply OnlyO.getD | apply OnlyO.ite
    | with_reducible assumption
    | split)

theorem recDelivered_only {l_ : List Part} {a_ : Dev} (d : Dev) (r : DownRec)
    (s_ : Part.sub [.out, .start, .evt, .whl, .ccp, .ply, .dst, .img] l_ = true) (k_ : Only l_ a_ d) :
    Only l_ a_ (recDelivered d r) := by
  refine Only.of ?_ s_ k_
  unfold recDelivered
  try dsimp only
  repeat' (first
    | with_reducible exact Only.refl _ _ | exact rfl | intro _
    | with_reducible first
      | apply threadDelivered_only | apply relayDelivered_only | apply Only.ite | apply Only.each)

theorem recFailed_only {l_ : List Part} {a_ : Dev} (d : Dev) (r : DownRec)
    (s_ : Part.sub [.out, .start, .evt, .whl, .ccp, .ply, .dst, .img] l_ = true) (k_ : Only l_ a_ d) :
    Only l_ a_ (recFailed d r) := by
  refine Only.of ?_ s_ k_
  unfold recFailed
  try dsimp only
  repeat' (first
    | with_reducible exact Only.refl _ _ | exact rfl | intro _
    | with_reducible first
      | apply Dev.modPly_only | apply finish_only | apply relayDelivered_only | apply Only.ite | apply Only.each)

theorem shFail_only {l_ : List Part} {a_ : Dev} (d : Dev) (dest : Option Nat)
    (s_ : Part.sub [.wrp] l_ = true) (k_ : Only l_ a_ d) :
    Only l_ a_ (shFail d dest) := by
  refine Only.of ?_ s_ k_
  unfold shFail
  try dsimp only
  repeat' (first
    | with_reducible exact Only.refl _ _ | exact rfl | intro _
    | with_reducible apply Dev.modWrp_only)

theorem shReset_only {l_ : List Part} {a_ : Dev} (d : Dev) (dest : Option Nat) (shared : Bool)
    (s_ : Part.sub [.wrp] l_ = true) (k_ : Only l_ a_ d) :
    Only l_ a_ (shReset d dest shared) := by
  refine Only.of ?_ s_ k_
  unfold shReset
  try dsimp only
  repeat' (first
    | with_reducible exact Only.refl _ _ | exact rfl | intro _
    | with_reducible first
      | apply Dev.modWrp_only | apply Only.ite)

theorem settleOne_only {l_ : List Part} {a_ : Dev} (d : Dev) (a : Await)
    (s_ : Part.sub [.out, .start, .evt, .whl, .wrp, .ccp, .ply, .dst, .img] l_ = true) (k_ : Only l_ a_ d) :
    Only l_ a_ (settleOne d a) := by
  refine Only.of ?_ s_ k_
  unfold settleOne
  try dsimp only
  repeat' (first
    | with_reducible exact Only.refl _ _ | exact rfl | intro _
    | with_reducible first
      | apply Dev.modPly_only | apply oweCounters_only | apply unsync_only | apply recDelivered_only | apply recFailed_only
      | apply shFail_only | apply shReset_only | apply Only.ite)

theorem settleAll_only {l_ : List Part} {a_ : Dev} (d : Dev) (start : Nat)
    (s_ : Part.sub [.out, .start, .evt, .whl, .wrp, .ccp, .ply, .dst, .img] l_ = true) (k_ : Only l_ a_ d) :
    Only l_ a_ (settleAll d start) := by
  refine Only.of ?_ s_ k_
  unfold settleAll
  try dsimp only
  repeat' (first
    | with_reducible exact Only.refl _ _ | exact rfl | intro _
    | with_reducible first
      | apply Dev.modPly_only | apply settleOne_only | apply Only.ite | apply Only.each)

theorem advance_only {l_ : List Part} {a_ : Dev} (d : Dev) (dest : Option Nat)
    (s_ : Part.sub [.wrp] l_ = true) (k_ : Only l_ a_ d) :
    Only l_ a_ (advance d dest) := by
  refine Only.of ?_ s_ k_
  unfold advance
  try dsimp only
  repeat' (first
    | with_reducible exact Only.refl _ _ | exact rfl | intro _
    | with_reducible first
      | apply Dev.modWrp_only | apply Dev.modNode_only | apply Only.ite | apply Only.each | apply OnlyO.some
      | apply OnlyO.none | apply OnlyO.getD | apply OnlyO.ite
    | with_reducible assumption
    | split)

theorem countCopy_only {l_ : List Part} {a_ : Dev} (d : Dev) (n : Fin 4) (k : Int) (r : DownRec)
    (s_ : Part.sub [.whl, .wrp] l_ = true) (k_ : Only l_ a_ d) :
    Only l_ a_ (countCopy d n k r) := by
  refine Only.of ?_ s_ k_
  unfold countCopy
  try dsimp only
  repeat' (first
    | with_reducible exact Only.refl _ _ | exact rfl | intro _
    | with_reducible first
      | apply Dev.modWhl_only | apply Dev.modWrp_only | apply Only.ite | apply Only.each | apply OnlyO.some
      | apply OnlyO.none | apply OnlyO.getD | apply OnlyO.ite
    | with_reducible assumption
    | split)

theorem recKey_only {l_ : List Part} {a_ : Dev} (d : Dev) (r : DownRec)
    (s_ : Part.sub [.free, .start, .evt, .dst] l_ = true) (k_ : Only l_ a_ d) :
    Only l_ a_ (recKey d r).2 := by
  refine Only.of ?_ s_ k_
  unfold recKey
  try dsimp only
  repeat' (first
    | with_reducible exact Only.refl _ _ | exact rfl | intro _
    | with_reducible first
      | apply linkKey_only | apply Only.ite | apply Only.each | apply OnlyO.some | apply OnlyO.none | apply OnlyO.getD
      | apply OnlyO.ite
    | with_reducible assumption
    | split)

theorem placeRec_only {l_ : List Part} {a_ : Dev} (d : Dev) (n : Fin 4) (k : Int) (c : CellRef) (r : DownRec)
    (s_ : Part.sub [.free, .start, .evt, .whl, .wrp, .ply, .dst] l_ = true) (k_ : Only l_ a_ d) :
    Only l_ a_ (placeRec d n k c r).1 := by
  refine Only.of ?_ s_ k_
  unfold placeRec
  try dsimp only
  repeat' (first
    | with_reducible exact Only.refl _ _ | exact rfl | intro _
    | with_reducible first
      | apply Dev.modPly_only | apply Dev.modNode_only | apply advance_only | apply countCopy_only | apply recKey_only
      | apply Only.ite | apply Only.each | apply OnlyO.some | apply OnlyO.none | apply OnlyO.getD | apply OnlyO.ite
    | with_reducible assumption
    | split)

theorem dropBcast_only {l_ : List Part} {a_ : Dev} (k : Int) (d : Dev) (n : Fin 4)
    (s_ : Part.sub [.whl, .wrp] l_ = true) (k_ : Only l_ a_ d) :
    Only l_ a_ (dropBcast k d n) := by
  refine Only.of ?_ s_ k_
  unfold dropBcast
  try dsimp only
  repeat' (first
    | with_reducible exact Only.refl _ _ | exact rfl | intro _
    | with_reducible first
      | apply Dev.modCnt_only | apply countCopy_only | apply Only.ite | apply Only.each)

theorem dropNoFit_only {l_ : List Part} {a_ : Dev} (d : Dev) (k : Int)
    (s_ : Part.sub [.out, .start, .evt, .whl, .wrp, .ccp, .ply, .dst, .img] l_ = true) (k_ : Only l_ a_ d) :
    Only l_ a_ (dropNoFit d k) := by
  refine Only.of ?_ s_ k_
  unfold dropNoFit
  try dsimp only
  repeat' (first
    | with_reducible exact Only.refl _ _ | exact rfl | intro _
    | with_reducible first
      | apply Dev.modPly_only | apply Dev.modCnt_only | apply recFailed_only | apply dropBcast_only | apply Only.ite
      | apply Only.each | apply OnlyO.some | apply OnlyO.none | apply OnlyO.getD | apply OnlyO.ite
    | with_reducible assumption
    | split)

theorem passShared_only {l_ : List Part} {a_ : Dev} (d : Dev) (n : Fin 4) (k : Int)
    (s_ : Part.sub [.wrp] l_ = true) (k_ : Only l_ a_ d) :
    Only l_ a_ (passShared d n k) := by
  refine Only.of ?_ s_ k_
  unfold passShared
  try dsimp only
  repeat' (first
    | with_reducible exact Only.refl _ _ | exact rfl | intro _
    | with_reducible first
      | apply Dev.modWrp_only | apply Only.ite | apply Only.each)

theorem placePlan_only {l_ : List Part} {a_ : Dev} (d : Dev) (n : Fin 4) (k : Int) (pl : Plan)
    (s_ : Part.sub [.free, .start, .evt, .whl, .wrp, .ply, .dst] l_ = true) (k_ : Only l_ a_ d) :
    Only l_ a_ (placePlan d n k pl).1 := by
  refine Only.of ?_ s_ k_
  unfold placePlan
  try dsimp only
  repeat' (first
    | with_reducible exact Only.refl _ _ | exact rfl | intro _
    | with_reducible first
      | apply placeRec_only | apply Only.ite | apply Only.each | apply OnlyO.some | apply OnlyO.none | apply OnlyO.getD
      | apply OnlyO.ite
    | with_reducible assumption
    | split)

theorem applyPlan_only {l_ : List Part} {a_ : Dev} (d : Dev) (n : Fin 4) (k : Int) (skip : Bool)
    (s_ : Part.sub [.free, .start, .evt, .whl, .spn, .wrp, .ply, .dst] l_ = true) (k_ : Only l_ a_ d) :
    Only l_ a_ (applyPlan d n k skip) := by
  refine Only.of ?_ s_ k_
  unfold applyPlan
  try dsimp only
  repeat' (first
    | with_reducible exact Only.refl _ _ | exact rfl | intro _
    | with_reducible first
      | apply Dev.modSpn_only | apply loseRecord_only | apply passShared_only | apply placePlan_only | apply Only.ite
      | apply Only.each | apply OnlyO.some | apply OnlyO.none | apply OnlyO.getD | apply OnlyO.ite
    | with_reducible assumption
    | split)

theorem tellCounters_only {l_ : List Part} {a_ : Dev} (d : Dev)
    (s_ : Part.sub [.out, .start, .evt, .wrp, .sht, .ply, .dst] l_ = true) (k_ : Only l_ a_ d) :
    Only l_ a_ (tellCounters d) := by
  refine Only.of ?_ s_ k_
  unfold tellCounters
  try dsimp only
  repeat' (first
    | with_reducible exact Only.refl _ _ | exact rfl | intro _
    | with_reducible first
      | apply Dev.modPly_only | apply plySend_only | apply Dev.modNode_only | apply Only.ite | apply Only.each
      | apply OnlyO.some | apply OnlyO.none | apply OnlyO.getD | apply OnlyO.ite
    | with_reducible assumption
    | split)

theorem schedule_only {l_ : List Part} {a_ : Dev} (d : Dev) (k : Int) (skip : Bool) (start : Nat)
    (s_ : Part.sub [.free, .out, .start, .evt, .whl, .spn, .wrp, .ccp, .sht, .ply, .dst, .img] l_ = true) (k_ : Only l_ a_ d) :
    Only l_ a_ (schedule d k skip start) := by
  refine Only.of ?_ s_ k_
  unfold schedule
  try dsimp only
  repeat' (first
    | with_reducible exact Only.refl _ _ | exact rfl | intro _
    | with_reducible first
      | apply Dev.modWhl_only | apply Dev.modPly_only | apply settleAll_only | apply dropNoFit_only | apply applyPlan_only
      | apply tellCounters_only | apply Only.ite | apply Only.each)

theorem doDrainComplete_only {l_ : List Part} {a_ : Dev} (d : Dev)
    (s_ : Part.sub [.whl, .wrp, .ply] l_ = true) (k_ : Only l_ a_ d) :
    Only l_ a_ (doDrainComplete d) := by
  refine Only.of ?_ s_ k_
  unfold doDrainComplete
  try dsimp only
  repeat' (first
    | with_reducible exact Only.refl _ _ | exact rfl | intro _
    | with_reducible first
      | apply Dev.modWhl_only | apply Dev.modWrp_only | apply Dev.modPly_only | apply Only.ite | apply Only.each
      | apply OnlyO.some | apply OnlyO.none | apply OnlyO.getD | apply OnlyO.ite
    | with_reducible assumption
    | split)

theorem doScheduleComputation_only {l_ : List Part} {a_ : Dev} (d : Dev)
    (s_ : Part.sub [.free, .out, .start, .evt, .whl, .spn, .wrp, .ccp, .sht, .ply, .dst, .img] l_ = true) (k_ : Only l_ a_ d) :
    Only l_ a_ (doScheduleComputation d) := by
  refine Only.of ?_ s_ k_
  unfold doScheduleComputation
  try dsimp only
  repeat' (first
    | with_reducible exact Only.refl _ _ | exact rfl | intro _
    | with_reducible first
      | apply Dev.modWhl_only | apply Dev.modWrp_only | apply schedule_only | apply Only.ite | apply Only.each
      | apply OnlyO.some | apply OnlyO.none | apply OnlyO.getD | apply OnlyO.ite
    | with_reducible assumption
    | split)

theorem overrun_only {l_ : List Part} {a_ : Dev} (d : Dev) (ph : TickPhase) (k : Int)
    (s_ : Part.sub [.start, .evt, .whl] l_ = true) (k_ : Only l_ a_ d) :
    Only l_ a_ (overrun d ph k) := by
  refine Only.of ?_ s_ k_
  unfold overrun
  try dsimp only
  repeat' (first
    | with_reducible exact Only.refl _ _ | exact rfl | intro _
    | with_reducible first
      | apply report_only | apply Dev.modWhl_only)

theorem countSkipped_only {l_ : List Part} {a_ : Dev} (d : Dev) (k : Nat)
    (s_ : Part.sub [.whl] l_ = true) (k_ : Only l_ a_ d) :
    Only l_ a_ (countSkipped d k) := by
  refine Only.of ?_ s_ k_
  unfold countSkipped
  try dsimp only
  repeat' (first
    | with_reducible exact Only.refl _ _ | exact rfl | intro _
    | with_reducible apply Dev.modWhl_only)

theorem skipSlot_only {l_ : List Part} {a_ : Dev} (d : Dev) (b : TickWork)
    (s_ : Part.sub [.whl] l_ = true) (k_ : Only l_ a_ d) :
    Only l_ a_ (skipSlot d b) := by
  refine Only.of ?_ s_ k_
  unfold skipSlot
  try dsimp only
  repeat' (first
    | with_reducible exact Only.refl _ _ | exact rfl | intro _
    | with_reducible first
      | apply countSkipped_only | apply Only.ite)

theorem missPhase_only {l_ : List Part} {a_ : Dev} (d : Dev) (drain : Bool)
    (s_ : Part.sub [.start, .evt, .whl] l_ = true) (k_ : Only l_ a_ d) :
    Only l_ a_ (missPhase d drain) := by
  refine Only.of ?_ s_ k_
  unfold missPhase
  try dsimp only
  repeat' (first
    | with_reducible exact Only.refl _ _ | exact rfl | intro _
    | with_reducible first
      | apply Dev.modWhl_only | apply overrun_only | apply skipSlot_only | apply Only.ite | apply Only.each
      | apply OnlyO.some | apply OnlyO.none | apply OnlyO.getD | apply OnlyO.ite
    | with_reducible assumption
    | split)

theorem doPhaseDeadlineMiss_only {l_ : List Part} {a_ : Dev} (ph : TickPhase) (d : Dev)
    (s_ : Part.sub [.start, .evt, .whl] l_ = true) (k_ : Only l_ a_ d) :
    Only l_ a_ (doPhaseDeadlineMiss ph d) := by
  refine Only.of ?_ s_ k_
  unfold doPhaseDeadlineMiss
  try dsimp only
  repeat' (first
    | with_reducible exact Only.refl _ _ | exact rfl | intro _
    | with_reducible first
      | apply overrun_only | apply missPhase_only | apply Only.ite | apply Only.each | apply OnlyO.some | apply OnlyO.none
      | apply OnlyO.getD | apply OnlyO.ite
    | with_reducible assumption
    | split)

theorem countUnbound_only {l_ : List Part} {a_ : Dev} (d : Dev) (n : Fin 4) (c : CellRef)
    (s_ : Part.sub [.start, .evt, .spn, .wrp] l_ = true) (k_ : Only l_ a_ d) :
    Only l_ a_ (countUnbound d n c) := by
  refine Only.of ?_ s_ k_
  unfold countUnbound
  try dsimp only
  repeat' (first
    | with_reducible exact Only.refl _ _ | exact rfl | intro _
    | with_reducible first
      | apply report_only | apply countLost_only)

theorem countDrop_only {l_ : List Part} {a_ : Dev} (n : Fin 4) (cause : Option Lost) (d : Dev) (x : Drop)
    (s_ : Part.sub [.start, .evt, .spn, .wrp] l_ = true) (k_ : Only l_ a_ d) :
    Only l_ a_ (countDrop n cause d x) := by
  refine Only.of ?_ s_ k_
  unfold countDrop
  try dsimp only
  repeat' (first
    | with_reducible exact Only.refl _ _ | exact rfl | intro _
    | with_reducible first
      | apply countLost_only | apply countUnbound_only | apply Only.ite | apply Only.each | apply OnlyO.some
      | apply OnlyO.none | apply OnlyO.getD | apply OnlyO.ite
    | with_reducible assumption
    | split)

theorem doReceiveWindowStart_only {l_ : List Part} {a_ : Dev} (n : Fin 4) (d : Dev)
    (s_ : Part.sub [.start, .evt, .spn, .wrp] l_ = true) (k_ : Only l_ a_ d) :
    Only l_ a_ (doReceiveWindowStart n d) := by
  refine Only.of ?_ s_ k_
  unfold doReceiveWindowStart
  try dsimp only
  repeat' (first
    | with_reducible exact Only.refl _ _ | exact rfl | intro _
    | with_reducible first
      | apply Dev.modSpn_only | apply countLost_only | apply countUnbound_only | apply countDrop_only | apply Only.ite
      | apply Only.each | apply OnlyO.some | apply OnlyO.none | apply OnlyO.getD | apply OnlyO.ite
    | with_reducible assumption
    | split)

theorem clearCell_only {l_ : List Part} {a_ : Dev} (d : Dev) (n : Fin 4)
    (s_ : Part.sub [.spn] l_ = true) (k_ : Only l_ a_ d) :
    Only l_ a_ (clearCell d n) := by
  refine Only.of ?_ s_ k_
  unfold clearCell
  try dsimp only
  repeat' (first
    | with_reducible exact Only.refl _ _ | exact rfl | intro _
    | with_reducible apply Dev.modSpn_only)

theorem giveUp_only {l_ : List Part} {a_ : Dev} (d : Dev) (n : Fin 4) (k : AirKind)
    (s_ : Part.sub [.spn, .ply] l_ = true) (k_ : Only l_ a_ d) :
    Only l_ a_ (giveUp d n k) := by
  refine Only.of ?_ s_ k_
  unfold giveUp
  try dsimp only
  repeat' (first
    | with_reducible exact Only.refl _ _ | exact rfl | intro _
    | with_reducible first
      | apply loseRecord_only | apply clearCell_only)

theorem doTransmitLatch_only {l_ : List Part} {a_ : Dev} (n : Fin 4) (whole : Bool) (d : Dev)
    (s_ : Part.sub [.start, .evt, .whl, .spn, .wrp, .ply] l_ = true) (k_ : Only l_ a_ d) :
    Only l_ a_ (doTransmitLatch n whole d) := by
  refine Only.of ?_ s_ k_
  unfold doTransmitLatch
  try dsimp only
  repeat' (first
    | with_reducible exact Only.refl _ _ | exact rfl | intro _
    | with_reducible first
      | apply Dev.modSpn_only | apply countLost_only | apply beginTx_only | apply overrun_only | apply countSkipped_only
      | apply countUnbound_only | apply countDrop_only | apply clearCell_only | apply giveUp_only | apply Only.ite
      | apply Only.each | apply OnlyO.some | apply OnlyO.none | apply OnlyO.getD | apply OnlyO.ite
    | with_reducible assumption
    | split)

theorem doDioTrickleTimer_only {l_ : List Part} {a_ : Dev} (d : Dev)
    (s_ : Part.sub [.wrp] l_ = true) (k_ : Only l_ a_ d) :
    Only l_ a_ (doDioTrickleTimer d) := by
  refine Only.of ?_ s_ k_
  unfold doDioTrickleTimer
  try dsimp only
  repeat' (first
    | with_reducible exact Only.refl _ _ | exact rfl | intro _
    | with_reducible first
      | apply Dev.modWrp_only | apply armTrickle_only | apply Only.ite)

theorem doDisReceive_only {l_ : List Part} {a_ : Dev} (i : Nat) (d : Dev)
    (s_ : Part.sub [.out, .start, .evt, .sht, .ply, .dst] l_ = true) (k_ : Only l_ a_ d) :
    Only l_ a_ (doDisReceive i d) := by
  refine Only.of ?_ s_ k_
  unfold doDisReceive
  try dsimp only
  repeat' (first
    | with_reducible exact Only.refl _ _ | exact rfl | intro _
    | with_reducible first
      | apply submitRec_only | apply Only.ite | apply Only.each | apply OnlyO.some | apply OnlyO.none | apply OnlyO.getD
      | apply OnlyO.ite
    | with_reducible assumption
    | split)

theorem tellWhere_only {l_ : List Part} {a_ : Dev} (d : Dev) (x : Node) (serving : Nat)
    (s_ : Part.sub [.out, .start, .evt, .ply, .dst] l_ = true) (k_ : Only l_ a_ d) :
    Only l_ a_ (tellWhere d x serving) := by
  refine Only.of ?_ s_ k_
  unfold tellWhere
  try dsimp only
  repeat' (first
    | with_reducible exact Only.refl _ _ | exact rfl | intro _
    | with_reducible first
      | apply loomSend_only | apply Only.ite)

theorem removeNode_only {l_ : List Part} {a_ : Dev} (d : Dev) (i : Nat)
    (s_ : Part.sub [.out, .start, .evt, .whl, .wrp, .ccp, .ply, .dst, .img] l_ = true) (k_ : Only l_ a_ d) :
    Only l_ a_ (removeNode d i) := by
  refine Only.of ?_ s_ k_
  unfold removeNode
  try dsimp only
  repeat' (first
    | with_reducible exact Only.refl _ _ | exact rfl | intro _
    | with_reducible first
      | apply Dev.modWrp_only | apply Dev.modPly_only | apply recFailed_only | apply Only.ite | apply Only.each)

theorem releaseNode_only {l_ : List Part} {a_ : Dev} (d : Dev) (i : Nat)
    (s_ : Part.sub [.out, .start, .evt, .whl, .wrp, .ccp, .sht, .ply, .dst, .img] l_ = true) (k_ : Only l_ a_ d) :
    Only l_ a_ (releaseNode d i) := by
  refine Only.of ?_ s_ k_
  unfold releaseNode
  try dsimp only
  repeat' (first
    | with_reducible exact Only.refl _ _ | exact rfl | intro _
    | with_reducible first
      | apply streamDelta_only | apply removeNode_only)

theorem sleepNode_only {l_ : List Part} {a_ : Dev} (d : Dev) (i : Nat)
    (s_ : Part.sub [.wrp] l_ = true) (k_ : Only l_ a_ d) :
    Only l_ a_ (sleepNode d i) := by
  refine Only.of ?_ s_ k_
  unfold sleepNode
  try dsimp only
  repeat' (first
    | with_reducible exact Only.refl _ _ | exact rfl | intro _
    | with_reducible apply Dev.modNode_only)

theorem leaveNode_only {l_ : List Part} {a_ : Dev} (d : Dev) (i : Nat)
    (s_ : Part.sub [.out, .start, .evt, .wrp, .sht, .ply, .dst] l_ = true) (k_ : Only l_ a_ d) :
    Only l_ a_ (leaveNode d i) := by
  refine Only.of ?_ s_ k_
  unfold leaveNode
  try dsimp only
  repeat' (first
    | with_reducible exact Only.refl _ _ | exact rfl | intro _
    | with_reducible first
      | apply report_only | apply Dev.modNode_only | apply streamDelta_only | apply tellWhere_only | apply sleepNode_only
      | apply Only.ite | apply Only.each | apply OnlyO.some | apply OnlyO.none | apply OnlyO.getD | apply OnlyO.ite
    | with_reducible assumption
    | split)

theorem doDaoPathLapse_only {l_ : List Part} {a_ : Dev} (i : Nat) (d : Dev)
    (s_ : Part.sub [.out, .start, .evt, .wrp, .sht, .ply, .dst] l_ = true) (k_ : Only l_ a_ d) :
    Only l_ a_ (doDaoPathLapse i d) := by
  refine Only.of ?_ s_ k_
  unfold doDaoPathLapse
  try dsimp only
  repeat' (first
    | with_reducible exact Only.refl _ _ | exact rfl | intro _
    | with_reducible first
      | apply leaveNode_only | apply Only.ite | apply Only.each | apply OnlyO.some | apply OnlyO.none | apply OnlyO.getD
      | apply OnlyO.ite
    | with_reducible assumption
    | split)

theorem doDormantExpire_only {l_ : List Part} {a_ : Dev} (i : Nat) (d : Dev)
    (s_ : Part.sub [.out, .start, .evt, .whl, .wrp, .ccp, .sht, .ply, .dst, .img] l_ = true) (k_ : Only l_ a_ d) :
    Only l_ a_ (doDormantExpire i d) := by
  refine Only.of ?_ s_ k_
  unfold doDormantExpire
  try dsimp only
  repeat' (first
    | with_reducible exact Only.refl _ _ | exact rfl | intro _
    | with_reducible first
      | apply releaseNode_only | apply Only.ite | apply Only.each | apply OnlyO.some | apply OnlyO.none | apply OnlyO.getD
      | apply OnlyO.ite
    | with_reducible assumption
    | split)

theorem setPath_only {l_ : List Part} {a_ : Dev} (d : Dev) (i : Nat) (p : DaoPath)
    (s_ : Part.sub [.wrp] l_ = true) (k_ : Only l_ a_ d) :
    Only l_ a_ (setPath d i p) := by
  refine Only.of ?_ s_ k_
  unfold setPath
  try dsimp only
  repeat' (first
    | with_reducible exact Only.refl _ _ | exact rfl | intro _
    | with_reducible apply Dev.modNode_only)

theorem sendDaoAck_only {l_ : List Part} {a_ : Dev} (d : Dev) (i : Nat) (seq : BitVec 8)
    (s_ : Part.sub [.out, .start, .evt, .sht, .ply, .dst] l_ = true) (k_ : Only l_ a_ d) :
    Only l_ a_ (sendDaoAck d i seq) := by
  refine Only.of ?_ s_ k_
  unfold sendDaoAck
  try dsimp only
  repeat' (first
    | with_reducible exact Only.refl _ _ | exact rfl | intro _
    | with_reducible first
      | apply submitRec_only | apply Only.ite | apply Only.each | apply OnlyO.some | apply OnlyO.none | apply OnlyO.getD
      | apply OnlyO.ite
    | with_reducible assumption
    | split)

theorem takeIndex_only {l_ : List Part} {a_ : Dev} (d : Dev)
    (s_ : Part.sub [.out, .start, .evt, .whl, .wrp, .ccp, .sht, .ply, .dst, .img] l_ = true) (k_ : Only l_ a_ d) :
    Only l_ a_ (takeIndex d).2 := by
  refine Only.of ?_ s_ k_
  unfold takeIndex
  try dsimp only
  repeat' (first
    | with_reducible exact Only.refl _ _ | exact rfl | intro _
    | with_reducible first
      | apply releaseNode_only | apply Only.ite | apply Only.each | apply OnlyO.some | apply OnlyO.none | apply OnlyO.getD
      | apply OnlyO.ite
    | with_reducible assumption
    | split)

theorem joinNode_only {l_ : List Part} {a_ : Dev} (d : Dev) (eui : BitVec 64) (p : DaoPath) (visiting : Option (BitVec 32))
    (s_ : Part.sub [.out, .start, .evt, .whl, .wrp, .ccp, .sht, .ply, .dst, .img] l_ = true) (k_ : Only l_ a_ d) :
    Only l_ a_ (joinNode d eui p visiting) := by
  refine Only.of ?_ s_ k_
  unfold joinNode
  try dsimp only
  repeat' (first
    | with_reducible exact Only.refl _ _ | exact rfl | intro _
    | with_reducible first
      | apply report_only | apply Dev.modWrp_only | apply streamDelta_only | apply tellWhere_only | apply setPath_only
      | apply sendDaoAck_only | apply takeIndex_only | apply Only.ite | apply Only.each | apply OnlyO.some
      | apply OnlyO.none | apply OnlyO.getD | apply OnlyO.ite
    | with_reducible assumption
    | split
    | dsimp only
    | with_reducible refine Only.id ?_
    | refine OnlyO.get (by assumption) ?_
    | refine OnlyO.get1 (by assumption) ?_
    | refine Only.fst (by assumption) ?_
    | refine Only.snd (by assumption) ?_)

theorem ackLeaver_only {l_ : List Part} {a_ : Dev} (d : Dev) (eui : BitVec 64) (p : DaoPath)
    (s_ : Part.sub [.out, .start, .evt, .wrp, .sht, .ply, .dst] l_ = true) (k_ : Only l_ a_ d) :
    Only l_ a_ (ackLeaver d eui p) := by
  refine Only.of ?_ s_ k_
  unfold ackLeaver
  try dsimp only
  repeat' (first
    | with_reducible exact Only.refl _ _ | exact rfl | intro _
    | with_reducible first
      | apply Dev.modWrp_only | apply streamDelta_only | apply sleepNode_only | apply sendDaoAck_only | apply Only.ite)

theorem dropVisit_only {l_ : List Part} {a_ : Dev} (d : Dev) (eui : BitVec 64)
    (s_ : Part.sub [.wrp] l_ = true) (k_ : Only l_ a_ d) :
    Only l_ a_ (dropVisit d eui) := by
  refine Only.of ?_ s_ k_
  unfold dropVisit
  try dsimp only
  repeat' (first
    | with_reducible exact Only.refl _ _ | exact rfl | intro _
    | with_reducible apply Dev.modWrp_only)

theorem renewNode_only {l_ : List Part} {a_ : Dev} (d : Dev) (i : Nat) (x : Node) (p : DaoPath)
    (s_ : Part.sub [.out, .start, .evt, .wrp, .sht, .ply, .dst] l_ = true) (k_ : Only l_ a_ d) :
    Only l_ a_ (renewNode d i x p) := by
  refine Only.of ?_ s_ k_
  unfold renewNode
  try dsimp only
  repeat' (first
    | with_reducible exact Only.refl _ _ | exact rfl | intro _
    | with_reducible first
      | apply report_only | apply Dev.modNode_only | apply streamDelta_only | apply tellWhere_only | apply leaveNode_only
      | apply setPath_only | apply sendDaoAck_only | apply Only.ite)

theorem doDaoReceive_only {l_ : List Part} {a_ : Dev} (eui : BitVec 64) (p : DaoPath) (d : Dev)
    (s_ : Part.sub [.out, .start, .evt, .wrp, .sht, .ply, .dst] l_ = true) (k_ : Only l_ a_ d) :
    Only l_ a_ (doDaoReceive eui p d) := by
  refine Only.of ?_ s_ k_
  unfold doDaoReceive
  try dsimp only
  repeat' (first
    | with_reducible exact Only.refl _ _ | exact rfl | intro _
    | with_reducible first
      | apply report_only | apply Dev.modWrp_only | apply loomSend_only | apply ackLeaver_only | apply dropVisit_only
      | apply renewNode_only | apply Only.ite | apply Only.each | apply OnlyO.some | apply OnlyO.none | apply OnlyO.getD
      | apply OnlyO.ite
    | with_reducible assumption
    | split)

theorem declareFailed_only {l_ : List Part} {a_ : Dev} (d : Dev)
    (s_ : Part.sub [.start, .evt, .ply] l_ = true) (k_ : Only l_ a_ d) :
    Only l_ a_ (declareFailed d) := by
  refine Only.of ?_ s_ k_
  unfold declareFailed
  try dsimp only
  repeat' (first
    | with_reducible exact Only.refl _ _ | exact rfl | intro _
    | with_reducible first
      | apply report_only | apply Dev.modPly_only | apply Only.ite)

theorem countMisses_only {l_ : List Part} {a_ : Dev} (d : Dev)
    (s_ : Part.sub [.start, .evt, .ply] l_ = true) (k_ : Only l_ a_ d) :
    Only l_ a_ (countMisses d) := by
  refine Only.of ?_ s_ k_
  unfold countMisses
  try dsimp only
  repeat' (first
    | with_reducible exact Only.refl _ _ | exact rfl | intro _
    | with_reducible first
      | apply watchIf_only | apply Dev.modPly_only | apply declareFailed_only | apply Only.ite)

theorem alignTick_only {l_ : List Part} {a_ : Dev} (d : Dev)
    (s_ : Part.sub [.evt, .ply] l_ = true) (k_ : Only l_ a_ d) :
    Only l_ a_ (alignTick d) := by
  refine Only.of ?_ s_ k_
  unfold alignTick
  try dsimp only
  repeat' (first
    | with_reducible exact Only.refl _ _ | exact rfl | intro _
    | with_reducible first
      | apply watchIf_only | apply Dev.modPly_only)

theorem divergeTick_only {l_ : List Part} {a_ : Dev} (d : Dev)
    (s_ : Part.sub [.start, .evt, .ply] l_ = true) (k_ : Only l_ a_ d) :
    Only l_ a_ (divergeTick d) := by
  refine Only.of ?_ s_ k_
  unfold divergeTick
  try dsimp only
  repeat' (first
    | with_reducible exact Only.refl _ _ | exact rfl | intro _
    | with_reducible first
      | apply report_only | apply Dev.modPly_only | apply Only.ite)

theorem readyTick_only {l_ : List Part} {a_ : Dev} (d : Dev) (k : Int)
    (s_ : Part.sub [.ply] l_ = true) (k_ : Only l_ a_ d) :
    Only l_ a_ (readyTick d k) := by
  refine Only.of ?_ s_ k_
  unfold readyTick
  try dsimp only
  repeat' (first
    | with_reducible exact Only.refl _ _ | exact rfl | intro _
    | with_reducible apply Dev.modPly_only)

theorem askSnapshot_only {l_ : List Part} {a_ : Dev} (d : Dev)
    (s_ : Part.sub [.out, .start, .evt, .sht, .ply, .dst] l_ = true) (k_ : Only l_ a_ d) :
    Only l_ a_ (askSnapshot d) := by
  refine Only.of ?_ s_ k_
  unfold askSnapshot
  try dsimp only
  repeat' (first
    | with_reducible exact Only.refl _ _ | exact rfl | intro _
    | with_reducible first
      | apply Dev.modPly_only | apply plySend_only | apply Only.ite)

theorem spareTick_only {l_ : List Part} {a_ : Dev} (d : Dev) (k : Int)
    (s_ : Part.sub [.out, .start, .evt, .wrp, .sht, .ply, .dst] l_ = true) (k_ : Only l_ a_ d) :
    Only l_ a_ (spareTick d k) := by
  refine Only.of ?_ s_ k_
  unfold spareTick
  try dsimp only
  repeat' (first
    | with_reducible exact Only.refl _ _ | exact rfl | intro _
    | with_reducible first
      | apply Dev.modPly_only | apply setRole_only | apply readyTick_only | apply askSnapshot_only | apply Only.ite)

theorem pairedTick_only {l_ : List Part} {a_ : Dev} (d : Dev) (k : Int)
    (s_ : Part.sub [.out, .start, .evt, .wrp, .sht, .ply, .dst] l_ = true) (k_ : Only l_ a_ d) :
    Only l_ a_ (pairedTick d k) := by
  refine Only.of ?_ s_ k_
  unfold pairedTick
  try dsimp only
  repeat' (first
    | with_reducible exact Only.refl _ _ | exact rfl | intro _
    | with_reducible first
      | apply Dev.modPly_only | apply setRole_only | apply Only.ite)

theorem senderTick_only {l_ : List Part} {a_ : Dev} (d : Dev) (k : Int)
    (s_ : Part.sub [.out, .start, .evt, .wrp, .sht, .ply, .dst] l_ = true) (k_ : Only l_ a_ d) :
    Only l_ a_ (senderTick d k) := by
  refine Only.of ?_ s_ k_
  unfold senderTick
  try dsimp only
  repeat' (first
    | with_reducible exact Only.refl _ _ | exact rfl | intro _
    | with_reducible first
      | apply setRole_only | apply Only.ite)

theorem silentTick_only {l_ : List Part} {a_ : Dev} (d : Dev) (k : Int)
    (s_ : Part.sub [.out, .start, .evt, .wrp, .sht, .ply, .dst] l_ = true) (k_ : Only l_ a_ d) :
    Only l_ a_ (silentTick d k) := by
  refine Only.of ?_ s_ k_
  unfold silentTick
  try dsimp only
  repeat' (first
    | with_reducible exact Only.refl _ _ | exact rfl | intro _
    | with_reducible first
      | apply setRole_only | apply Only.ite)

theorem soloTick_only {l_ : List Part} {a_ : Dev} (d : Dev) (k : Int)
    (s_ : Part.sub [.out, .start, .evt, .wrp, .sht, .ply, .dst] l_ = true) (k_ : Only l_ a_ d) :
    Only l_ a_ (soloTick d k) := by
  refine Only.of ?_ s_ k_
  unfold soloTick
  try dsimp only
  repeat' (first
    | with_reducible exact Only.refl _ _ | exact rfl | intro _
    | with_reducible first
      | apply setRole_only | apply Only.ite)

theorem roleTick_only {l_ : List Part} {a_ : Dev} (d : Dev) (k : Int)
    (s_ : Part.sub [.out, .start, .evt, .wrp, .sht, .ply, .dst] l_ = true) (k_ : Only l_ a_ d) :
    Only l_ a_ (roleTick d k) := by
  refine Only.of ?_ s_ k_
  unfold roleTick
  try dsimp only
  repeat' (first
    | with_reducible exact Only.refl _ _ | exact rfl | intro _
    | with_reducible first
      | apply spareTick_only | apply pairedTick_only | apply senderTick_only | apply silentTick_only | apply soloTick_only
      | apply Only.ite | apply Only.each | apply OnlyO.some | apply OnlyO.none | apply OnlyO.getD | apply OnlyO.ite
    | with_reducible assumption
    | split)

theorem tellCountersIn_only {l_ : List Part} {a_ : Dev} (d : Dev)
    (s_ : Part.sub [.out, .start, .evt, .wrp, .sht, .ply, .dst] l_ = true) (k_ : Only l_ a_ d) :
    Only l_ a_ (tellCountersIn d) := by
  refine Only.of ?_ s_ k_
  unfold tellCountersIn
  try dsimp only
  repeat' (first
    | with_reducible exact Only.refl _ _ | exact rfl | intro _
    | with_reducible first
      | apply Dev.modWrp_only | apply streamDelta_only | apply Only.ite | apply Only.each | apply OnlyO.some
      | apply OnlyO.none | apply OnlyO.getD | apply OnlyO.ite
    | with_reducible assumption
    | split)

theorem plyTick_only {l_ : List Part} {a_ : Dev} (d : Dev) (k : Int)
    (s_ : Part.sub [.out, .start, .evt, .wrp, .sht, .ply, .dst] l_ = true) (k_ : Only l_ a_ d) :
    Only l_ a_ (plyTick d k) := by
  refine Only.of ?_ s_ k_
  unfold plyTick
  try dsimp only
  repeat' (first
    | with_reducible exact Only.refl _ _ | exact rfl | intro _
    | with_reducible first
      | apply Dev.modPly_only | apply countMisses_only | apply alignTick_only | apply divergeTick_only | apply roleTick_only
      | apply tellCountersIn_only | apply Only.ite)

theorem sendHeartbeat_only {l_ : List Part} {a_ : Dev} (d : Dev) (b : Heartbeat)
    (s_ : Part.sub [.out, .start, .evt, .sht, .ply, .dst] l_ = true) (k_ : Only l_ a_ d) :
    Only l_ a_ (sendHeartbeat d b) := by
  refine Only.of ?_ s_ k_
  unfold sendHeartbeat
  try dsimp only
  repeat' (first
    | with_reducible exact Only.refl _ _ | exact rfl | intro _
    | with_reducible first
      | apply invoke_only | apply plyOut_only | apply Only.ite)

theorem faultTick_only {l_ : List Part} {a_ : Dev} (d : Dev) (k : Int)
    (s_ : Part.sub [.out, .start, .evt, .sht, .ply, .dst] l_ = true) (k_ : Only l_ a_ d) :
    Only l_ a_ (faultTick d k) := by
  refine Only.of ?_ s_ k_
  unfold faultTick
  try dsimp only
  repeat' (first
    | with_reducible exact Only.refl _ _ | exact rfl | intro _
    | with_reducible first
      | apply Dev.modPly_only | apply sendHeartbeat_only | apply Only.ite | apply Only.each | apply OnlyO.some
      | apply OnlyO.none | apply OnlyO.getD | apply OnlyO.ite
    | with_reducible assumption
    | split)

theorem applyStep_only {l_ : List Part} {a_ : Dev} (d : Dev) (off : Int)
    (s_ : Part.sub [.whl, .spn, .wrp, .que, .crd, .ply] l_ = true) (k_ : Only l_ a_ d) :
    Only l_ a_ (applyStep d off) := by
  refine Only.of ?_ s_ k_
  unfold applyStep
  try dsimp only
  repeat' (first
    | with_reducible exact Only.refl _ _ | exact rfl | intro _
    | with_reducible first
      | apply Dev.modWhl_only | apply Dev.modWrp_only | apply Dev.modPly_only
    | fail_if_no_progress (with_reducible refine Only.rec_que_crd rfl ?_)
    | fail_if_no_progress (with_reducible refine Only.rec_spn rfl ?_))

theorem dueStep_only {l_ : List Part} {a_ : Dev} (d : Dev)
    (s_ : Part.sub [.start, .evt, .whl] l_ = true) (k_ : Only l_ a_ d) :
    Only l_ a_ (dueStep d).1 := by
  refine Only.of ?_ s_ k_
  unfold dueStep
  try dsimp only
  repeat' (first
    | with_reducible exact Only.refl _ _ | exact rfl | intro _
    | with_reducible first
      | apply report_only | apply Dev.modWhl_only | apply Only.ite | apply Only.each | apply OnlyO.some | apply OnlyO.none
      | apply OnlyO.getD | apply OnlyO.ite
    | with_reducible assumption
    | split)

theorem stepTick_only {l_ : List Part} {a_ : Dev} (d : Dev)
    (s_ : Part.sub [.start, .evt, .whl, .spn, .wrp, .que, .crd, .ply] l_ = true) (k_ : Only l_ a_ d) :
    Only l_ a_ (stepTick d).1 := by
  refine Only.of ?_ s_ k_
  unfold stepTick
  try dsimp only
  repeat' (first
    | with_reducible exact Only.refl _ _ | exact rfl | intro _
    | with_reducible first
      | apply report_only | apply applyStep_only | apply dueStep_only | apply Only.ite | apply Only.each | apply OnlyO.some
      | apply OnlyO.none | apply OnlyO.getD | apply OnlyO.ite
    | with_reducible assumption
    | split
    | dsimp only
    | with_reducible refine Only.id ?_
    | refine OnlyO.get (by assumption) ?_
    | refine OnlyO.get1 (by assumption) ?_
    | refine Only.fst (by assumption) ?_)

theorem whorlTick_only {l_ : List Part} {a_ : Dev} (d : Dev) (tcxo : Int)
    (s_ : Part.sub [.evt, .whl] l_ = true) (k_ : Only l_ a_ d) :
    Only l_ a_ (whorlTick d tcxo) := by
  refine Only.of ?_ s_ k_
  unfold whorlTick
  try dsimp only
  repeat' (first
    | with_reducible exact Only.refl _ _ | exact rfl | intro _
    | with_reducible first
      | apply Dev.modWhl_only | apply holdWatch_only | apply Only.ite)

theorem numberTick_only {l_ : List Part} {a_ : Dev} (d : Dev)
    (s_ : Part.sub [.whl] l_ = true) (k_ : Only l_ a_ d) :
    Only l_ a_ (numberTick d) := by
  refine Only.of ?_ s_ k_
  unfold numberTick
  try dsimp only
  repeat' (first
    | with_reducible exact Only.refl _ _ | exact rfl | intro _
    | with_reducible apply Dev.modWhl_only)

theorem trimTick_only {l_ : List Part} {a_ : Dev} (d : Dev) (n : Fin 4)
    (s_ : Part.sub [.evt, .spn] l_ = true) (k_ : Only l_ a_ d) :
    Only l_ a_ (trimTick d n) := by
  refine Only.of ?_ s_ k_
  unfold trimTick
  try dsimp only
  repeat' (first
    | with_reducible exact Only.refl _ _ | exact rfl | intro _
    | with_reducible first
      | apply watchIf_only | apply Dev.modSpn_only | apply Only.ite)

theorem calTempTick_only {l_ : List Part} {a_ : Dev} (d : Dev) (n : Fin 4)
    (s_ : Part.sub [.start, .evt, .spn] l_ = true) (k_ : Only l_ a_ d) :
    Only l_ a_ (calTempTick d n) := by
  refine Only.of ?_ s_ k_
  unfold calTempTick
  try dsimp only
  repeat' (first
    | with_reducible exact Only.refl _ _ | exact rfl | intro _
    | with_reducible first
      | apply report_only | apply Dev.modSpn_only | apply Only.ite)

theorem spindleTick_only {l_ : List Part} {a_ : Dev} (d : Dev) (k : Int) (stepped : Bool) (n : Fin 4)
    (s_ : Part.sub [.free, .start, .evt, .whl, .spn, .wrp, .ccp, .ply, .img, .bob] l_ = true) (k_ : Only l_ a_ d) :
    Only l_ a_ (spindleTick d k stepped n) := by
  refine Only.of ?_ s_ k_
  unfold spindleTick
  try dsimp only
  repeat' (first
    | with_reducible exact Only.refl _ _ | exact rfl | intro _
    | with_reducible first
      | apply Dev.modSpn_only | apply crossStore_only | apply endOfCell_only | apply trimTick_only | apply calTempTick_only)

theorem blankTick_only {l_ : List Part} {a_ : Dev} (d : Dev) (served : Four Bool)
    (s_ : Part.sub [.free, .start, .evt, .spn, .wrp, .ply, .bob] l_ = true) (k_ : Only l_ a_ d) :
    Only l_ a_ (blankTick d served) := by
  refine Only.of ?_ s_ k_
  unfold blankTick
  try dsimp only
  repeat' (first
    | with_reducible exact Only.refl _ _ | exact rfl | intro _
    | with_reducible first
      | apply startBlank_only | apply Only.ite | apply Only.each)

theorem strobe_only {l_ : List Part} {a_ : Dev} (tcxo : Int) (beacon : Bool) (d : Dev)
    (s_ : Part.sub [.free, .out, .start, .evt, .whl, .spn, .wrp, .ccp, .sht, .que, .crd, .ply, .dst, .img, .bob] l_ = true) (k_ : Only l_ a_ d) :
    Only l_ a_ (strobe tcxo beacon d) := by
  refine Only.of ?_ s_ k_
  unfold strobe
  try dsimp only
  repeat' (first
    | with_reducible exact Only.refl _ _ | exact rfl | intro _
    | with_reducible first
      | apply Dev.modWhl_only | apply Dev.modPly_only | apply gateDue_only | apply pulse_only | apply countSkipped_only
      | apply plyTick_only | apply faultTick_only | apply stepTick_only | apply whorlTick_only | apply numberTick_only
      | apply spindleTick_only | apply blankTick_only | apply Only.ite | apply Only.each)

end Sys2Proof.Machine
end

