-- ==== Sys2Proof/Laws/FramesPly.lean ====
section
/-! SUPPORT. What the commands of the ply link, the loom and the CCP may change. -/

namespace Sys2Proof.Machine

set_option Elab.async false
set_option linter.unusedTactic false

theorem plyReject_only {l_ : List Part} {a_ : Dev} (d : Dev)
    (s_ : Part.sub [.ply] l_ = true) (k_ : Only l_ a_ d) :
    Only l_ a_ (plyReject d) := by
  refine Only.of ?_ s_ k_
  unfold plyReject
  try dsimp only
  repeat' (first
    | with_reducible exact Only.refl _ _ | exact rfl | intro _
    | with_reducible apply Dev.modPly_only)

theorem linkTake_only {l_ : List Part} {a_ : Dev} (d : Dev) (s key : Nat) (h : LinkHeader)
    (s_ : Part.sub [.start, .evt, .ply, .dst] l_ = true) (k_ : Only l_ a_ d) :
    Only l_ a_ (linkTake d s key h).2 := by
  refine Only.of ?_ s_ k_
  unfold linkTake
  try dsimp only
  repeat' (first
    | with_reducible exact Only.refl _ _ | exact rfl | intro _
    | with_reducible first
      | apply Dev.modPly_only | apply invoke_only | apply plyReject_only | apply Only.ite | apply Only.each
      | apply OnlyO.some | apply OnlyO.none | apply OnlyO.getD | apply OnlyO.ite
    | with_reducible assumption
    | split)

theorem plinkIn_only {l_ : List Part} {a_ : Dev} {h : LinkHeader} {f : Dev → Dev} {d : Dev}
    (s_ : Part.sub [.start, .evt, .ply, .dst] l_ = true) (k_ : Only l_ a_ d)
    (h_ : ∀ e, Only l_ a_ e → Only l_ a_ (f e)) :
    Only l_ a_ (plinkIn d h f) := by
  have s1 : Part.sub [.start, .evt, .ply, .dst] l_ = true := Part.sub_trans rfl s_
  unfold plinkIn
  split
  · exact k_
  split
  · rename_i e
    exact h_ _ (Only.snd e (linkTake_only _ _ _ _ s1 k_))
  · rename_i e
    have := Only.snd e (linkTake_only _ _ _ _ s1 k_)
    exact report_only _ _ _ (Part.sub_trans (p := [.start, .evt]) rfl s_) this

theorem loomIn_only {l_ : List Part} {a_ : Dev} {h : LinkHeader} {ply : BitVec 8} {f : Dev → Dev} {d : Dev}
    (s_ : Part.sub [.start, .evt, .ply, .dst] l_ = true) (k_ : Only l_ a_ d)
    (h_ : ∀ e, Only l_ a_ e → Only l_ a_ (f e)) :
    Only l_ a_ (loomIn d h ply f) := by
  have s1 : Part.sub [.start, .evt, .ply, .dst] l_ = true := Part.sub_trans rfl s_
  unfold loomIn
  split
  · exact k_
  split
  · rename_i e
    exact h_ _ (Only.snd e (linkTake_only _ _ _ _ s1 k_))
  · rename_i e
    have := Only.snd e (linkTake_only _ _ _ _ s1 k_)
    exact this

theorem doHeartbeatSend_only {l_ : List Part} {a_ : Dev} (written : Bool) (d : Dev)
    (s_ : Part.sub [.free, .out, .start, .evt, .whl, .spn, .wrp, .ccp, .sht, .ply, .dst, .img, .bob] l_ = true) (k_ : Only l_ a_ d) :
    Only l_ a_ (doHeartbeatSend written d) := by
  refine Only.of ?_ s_ k_
  unfold doHeartbeatSend
  try dsimp only
  repeat' (first
    | with_reducible exact Only.refl _ _ | exact rfl | intro _
    | with_reducible first
      | apply Dev.modPly_only | apply allToStandby_only | apply atEndOfCell_only | apply sendHeartbeat_only | apply Only.ite
      | apply Only.each)

theorem comparePlaced_only {l_ : List Part} {a_ : Dev} (d : Dev) (b : Heartbeat)
    (s_ : Part.sub [.start, .evt, .wrp, .ply] l_ = true) (k_ : Only l_ a_ d) :
    Only l_ a_ (comparePlaced d b) := by
  refine Only.of ?_ s_ k_
  unfold comparePlaced
  try dsimp only
  repeat' (first
    | with_reducible exact Only.refl _ _ | exact rfl | intro _
    | with_reducible first
      | apply Dev.modPly_only | apply oweCounters_only | apply unsync_only | apply Only.ite | apply Only.each)

theorem takeOffset_only {l_ : List Part} {a_ : Dev} (d : Dev) (b : Heartbeat)
    (s_ : Part.sub [.whl, .ply] l_ = true) (k_ : Only l_ a_ d) :
    Only l_ a_ (takeOffset d b) := by
  refine Only.of ?_ s_ k_
  unfold takeOffset
  try dsimp only
  repeat' (first
    | with_reducible exact Only.refl _ _ | exact rfl | intro _
    | with_reducible first
      | apply Dev.modWhl_only | apply Dev.modPly_only | apply Only.ite)

theorem partnerHeard_only {l_ : List Part} {a_ : Dev} (d : Dev) (b : Heartbeat)
    (s_ : Part.sub [.out, .start, .evt, .wrp, .sht, .ply, .dst] l_ = true) (k_ : Only l_ a_ d) :
    Only l_ a_ (partnerHeard d b) := by
  refine Only.of ?_ s_ k_
  unfold partnerHeard
  try dsimp only
  repeat' (first
    | with_reducible exact Only.refl _ _ | exact rfl | intro _
    | with_reducible first
      | apply report_only | apply Dev.modPly_only | apply setRole_only | apply Only.ite)

theorem doHeartbeatReceive_only {l_ : List Part} {a_ : Dev} (path : Path) (h : LinkHeader) (b : Heartbeat) (d : Dev)
    (s_ : Part.sub [.out, .start, .evt, .whl, .wrp, .sht, .ply, .dst] l_ = true) (k_ : Only l_ a_ d) :
    Only l_ a_ (doHeartbeatReceive path h b d) := by
  refine Only.of ?_ s_ k_
  unfold doHeartbeatReceive
  try dsimp only
  repeat' (first
    | with_reducible exact Only.refl _ _ | exact rfl | intro _
    | with_reducible first
      | apply report_only | apply Dev.modPly_only | apply declareFailed_only | apply plinkIn_only | apply comparePlaced_only
      | apply takeOffset_only | apply partnerHeard_only | apply Only.ite | apply Only.each | apply OnlyO.some
      | apply OnlyO.none | apply OnlyO.getD | apply OnlyO.ite
    | with_reducible assumption
    | split)

theorem doOfferReceive_only {l_ : List Part} {a_ : Dev} (h : LinkHeader) (r : DownRec) (d : Dev)
    (s_ : Part.sub [.out, .start, .evt, .sht, .ply, .dst] l_ = true) (k_ : Only l_ a_ d) :
    Only l_ a_ (doOfferReceive h r d) := by
  refine Only.of ?_ s_ k_
  unfold doOfferReceive
  try dsimp only
  repeat' (first
    | with_reducible exact Only.refl _ _ | exact rfl | intro _
    | with_reducible first
      | apply masterTake_only | apply plinkIn_only | apply Only.ite | apply Only.each | apply OnlyO.some | apply OnlyO.none
      | apply OnlyO.getD | apply OnlyO.ite
    | with_reducible assumption)

theorem doMergeWaitExpire_only {l_ : List Part} {a_ : Dev} (hash : Nat) (d : Dev)
    (s_ : Part.sub [.out, .start, .evt, .sht, .ply, .dst] l_ = true) (k_ : Only l_ a_ d) :
    Only l_ a_ (doMergeWaitExpire hash d) := by
  refine Only.of ?_ s_ k_
  unfold doMergeWaitExpire
  try dsimp only
  repeat' (first
    | with_reducible exact Only.refl _ _ | exact rfl | intro _
    | with_reducible first
      | apply assignRec_only | apply Only.ite | apply Only.each | apply OnlyO.some | apply OnlyO.none | apply OnlyO.getD
      | apply OnlyO.ite
    | with_reducible assumption
    | split)

theorem doAssignReceive_only {l_ : List Part} {a_ : Dev} (h : LinkHeader) (r : DownRec) (d : Dev)
    (s_ : Part.sub [.start, .evt, .wrp, .ply, .dst] l_ = true) (k_ : Only l_ a_ d) :
    Only l_ a_ (doAssignReceive h r d) := by
  refine Only.of ?_ s_ k_
  unfold doAssignReceive
  try dsimp only
  repeat' (first
    | with_reducible exact Only.refl _ _ | exact rfl | intro _
    | with_reducible first
      | apply Dev.modPly_only | apply Dev.modNode_only | apply unsync_only | apply dropCorrection_only | apply plinkIn_only
      | apply Only.ite | apply Only.each | apply OnlyO.some | apply OnlyO.none | apply OnlyO.getD | apply OnlyO.ite
    | with_reducible assumption
    | split)

theorem adoptCounters_only {l_ : List Part} {a_ : Dev} (d : Dev) (dest : Option Nat) (dsn fc : Nat)
    (s_ : Part.sub [.wrp, .ply] l_ = true) (k_ : Only l_ a_ d) :
    Only l_ a_ (adoptCounters d dest dsn fc) := by
  refine Only.of ?_ s_ k_
  unfold adoptCounters
  try dsimp only
  repeat' (first
    | with_reducible exact Only.refl _ _ | exact rfl | intro _
    | with_reducible first
      | apply Dev.modWrp_only | apply Dev.modPly_only | apply Dev.modNode_only | apply Only.ite | apply Only.each
      | apply OnlyO.some | apply OnlyO.none | apply OnlyO.getD | apply OnlyO.ite
    | with_reducible assumption
    | split)

theorem doCountersReceive_only {l_ : List Part} {a_ : Dev} (h : LinkHeader) (dest : Option Nat) (dsn fc : Nat) (d : Dev)
    (s_ : Part.sub [.start, .evt, .wrp, .ply, .dst] l_ = true) (k_ : Only l_ a_ d) :
    Only l_ a_ (doCountersReceive h dest dsn fc d) := by
  refine Only.of ?_ s_ k_
  unfold doCountersReceive
  try dsimp only
  repeat' (first
    | with_reducible exact Only.refl _ _ | exact rfl | intro _
    | with_reducible first
      | apply plinkIn_only | apply adoptCounters_only | apply Only.ite | apply Only.each | apply OnlyO.some
      | apply OnlyO.none | apply OnlyO.getD | apply OnlyO.ite
    | with_reducible assumption)

theorem mirrorReg_only {l_ : List Part} {a_ : Dev} (d : Dev) (addr : Nat) (v : Word) (s_ : Part.sub [.wrp] l_ = true)
    (k_ : Only l_ a_ d) :
    Only l_ a_ (mirrorReg d addr v) := by
  unfold mirrorReg
  refine Only.ite ?_ (Only.ite ?_ (Only.ite ?_ ?_))
  · exact setWrpCtrl_only _ _ s_ k_
  · exact setTiming_only _ _ _ s_ k_
  · exact setTiming_only _ _ _ s_ k_
  generalize List.find? _ _ = o
  generalize hopIndex? _ = o2
  cases o with
  | some i =>
    dsimp only
    split
    · exact Dev.modWrp_only _ _ s_ k_
    · exact k_
  | none =>
    cases o2 with
    | some p => exact setHop_only _ _ _ _ s_ k_
    | none => exact k_

theorem mirrorJoin_only {l_ : List Part} {a_ : Dev} (d : Dev) (i : Nat) (eui : BitVec 64) (handle : BitVec 32) (home : Nat)
    (r : NodeRoute)
    (s_ : Part.sub [.out, .start, .evt, .whl, .wrp, .ccp, .ply, .dst, .img] l_ = true) (k_ : Only l_ a_ d) :
    Only l_ a_ (mirrorJoin d i eui handle home r) := by
  refine Only.of ?_ s_ k_
  unfold mirrorJoin
  try dsimp only
  repeat' (first
    | with_reducible exact Only.refl _ _ | exact rfl | intro _
    | with_reducible first
      | apply Dev.modWrp_only | apply Dev.modNode_only | apply removeNode_only | apply setPath_only | apply dropVisit_only
      | apply Only.ite | apply Only.each | apply OnlyO.some | apply OnlyO.none | apply OnlyO.getD | apply OnlyO.ite
    | with_reducible assumption
    | split)

theorem applyDelta_only {l_ : List Part} {a_ : Dev} (d : Dev) (x : Delta)
    (s_ : Part.sub [.out, .start, .evt, .whl, .wrp, .ccp, .ply, .dst, .img] l_ = true) (k_ : Only l_ a_ d) :
    Only l_ a_ (applyDelta d x) := by
  refine Only.of ?_ s_ k_
  unfold applyDelta
  try dsimp only
  repeat' (first
    | with_reducible exact Only.refl _ _ | exact rfl | intro _
    | with_reducible first
      | apply Dev.modNode_only | apply setCell_only | apply removeNode_only | apply sleepNode_only | apply mirrorReg_only
      | apply mirrorJoin_only | apply Only.ite | apply Only.each | apply OnlyO.some | apply OnlyO.none | apply OnlyO.getD
      | apply OnlyO.ite
    | with_reducible assumption
    | split)

theorem doDeltaReceive_only {l_ : List Part} {a_ : Dev} (h : LinkHeader) (epoch : BitVec 32) (x : Delta) (d : Dev)
    (s_ : Part.sub [.out, .start, .evt, .whl, .wrp, .ccp, .sht, .ply, .dst, .img] l_ = true) (k_ : Only l_ a_ d) :
    Only l_ a_ (doDeltaReceive h epoch x d) := by
  refine Only.of ?_ s_ k_
  unfold doDeltaReceive
  try dsimp only
  repeat' (first
    | with_reducible exact Only.refl _ _ | exact rfl | intro _
    | with_reducible first
      | apply Dev.modPly_only | apply streamDelta_only | apply plinkIn_only | apply applyDelta_only | apply Only.ite
      | apply Only.each | apply OnlyO.some | apply OnlyO.none | apply OnlyO.getD | apply OnlyO.ite
    | with_reducible assumption)

theorem doSnapReqReceive_only {l_ : List Part} {a_ : Dev} (h : LinkHeader) (node : Option Nat) (d : Dev)
    (s_ : Part.sub [.out, .start, .evt, .sht, .ply, .dst] l_ = true) (k_ : Only l_ a_ d) :
    Only l_ a_ (doSnapReqReceive h node d) := by
  refine Only.of ?_ s_ k_
  unfold doSnapReqReceive
  try dsimp only
  repeat' (first
    | with_reducible exact Only.refl _ _ | exact rfl | intro _
    | with_reducible first
      | apply plySend_only | apply plinkIn_only | apply Only.ite | apply Only.each | apply OnlyO.some | apply OnlyO.none
      | apply OnlyO.getD | apply OnlyO.ite
    | with_reducible assumption
    | split)

theorem putPolicy_only {l_ : List Part} {a_ : Dev} (d : Dev) (i : Nat) (l : List Byte)
    (s_ : Part.sub [.ccp] l_ = true) (k_ : Only l_ a_ d) :
    Only l_ a_ (putPolicy d i l) := by
  refine Only.of ?_ s_ k_
  unfold putPolicy
  try dsimp only
  repeat' (first
    | with_reducible exact Only.refl _ _ | exact rfl | intro _
    | with_reducible apply Dev.modCcp_only)

theorem snapNode_only {l_ : List Part} {a_ : Dev} (d : Dev) (x : NodeSnap)
    (s_ : Part.sub [.wrp] l_ = true) (k_ : Only l_ a_ d) :
    Only l_ a_ (snapNode d x) := by
  refine Only.of ?_ s_ k_
  unfold snapNode
  try dsimp only
  repeat' (first
    | with_reducible exact Only.refl _ _ | exact rfl | intro _
    | with_reducible apply Dev.modWrp_only)

theorem refetched_only {l_ : List Part} {a_ : Dev} (d : Dev) (x : NodeSnap)
    (s_ : Part.sub [.start, .evt, .wrp] l_ = true) (k_ : Only l_ a_ d) :
    Only l_ a_ (refetched d x) := by
  refine Only.of ?_ s_ k_
  unfold refetched
  try dsimp only
  repeat' (first
    | with_reducible exact Only.refl _ _ | exact rfl | intro _
    | with_reducible first
      | apply report_only | apply snapNode_only | apply Only.ite | apply Only.each | apply OnlyO.some | apply OnlyO.none
      | apply OnlyO.getD | apply OnlyO.ite
    | with_reducible assumption
    | split)

theorem clearMirror_only {l_ : List Part} {a_ : Dev} (d : Dev)
    (s_ : Part.sub [.wrp, .ccp] l_ = true) (k_ : Only l_ a_ d) :
    Only l_ a_ (clearMirror d) := by
  refine Only.of ?_ s_ k_
  unfold clearMirror
  try dsimp only
  repeat' (first
    | with_reducible exact Only.refl _ _ | exact rfl | intro _
    | with_reducible first
      | apply Dev.modWrp_only | apply Dev.modCcp_only)

theorem doSnapReceive_only {l_ : List Part} {a_ : Dev} (h : LinkHeader) (epoch : BitVec 32) (nodes : List NodeSnap)
    (cells : List (Nat × Nat × Word × Word)) (regs : List (Nat × Word)) (policy : List (Nat × BitVec 128))
    (polEpoch : BitVec 16) (last : Bool) (d : Dev)
    (s_ : Part.sub [.start, .evt, .wrp, .ccp, .ply, .dst] l_ = true) (k_ : Only l_ a_ d) :
    Only l_ a_ (doSnapReceive h epoch nodes cells regs policy polEpoch last d) := by
  refine Only.of ?_ s_ k_
  unfold doSnapReceive
  try dsimp only
  repeat' (first
    | with_reducible exact Only.refl _ _ | exact rfl | intro _
    | with_reducible first
      | apply Dev.modCcp_only | apply Dev.modPly_only | apply setCell_only | apply plinkIn_only | apply mirrorReg_only
      | apply putPolicy_only | apply snapNode_only | apply refetched_only | apply clearMirror_only | apply Only.ite
      | apply Only.each | apply OnlyO.some | apply OnlyO.none | apply OnlyO.getD | apply OnlyO.ite
    | with_reducible assumption
    | split)

theorem doTreadleTimeout_only {l_ : List Part} {a_ : Dev} (d : Dev)
    (s_ : Part.sub [.free, .start, .evt, .spn, .wrp, .ply, .bob] l_ = true) (k_ : Only l_ a_ d) :
    Only l_ a_ (doTreadleTimeout d) := by
  refine Only.of ?_ s_ k_
  unfold doTreadleTimeout
  try dsimp only
  repeat' (first
    | with_reducible exact Only.refl _ _ | exact rfl | intro _
    | with_reducible first
      | apply Dev.modPly_only | apply allToStandby_only | apply Only.ite)

theorem doTreadleStatusTimeout_only {l_ : List Part} {a_ : Dev} (d : Dev)
    (s_ : Part.sub [.pwr, .glb, .start, .evt] l_ = true) (k_ : Only l_ a_ d) :
    Only l_ a_ (doTreadleStatusTimeout d) := by
  refine Only.of ?_ s_ k_
  unfold doTreadleStatusTimeout
  try dsimp only
  repeat' (first
    | with_reducible exact Only.refl _ _ | exact rfl | intro _
    | with_reducible first
      | apply Dev.modPwr_only | apply selfTestLive_only | apply Only.ite)

theorem doTreadleStatusResume_only {l_ : List Part} {a_ : Dev} (d : Dev)
    (s_ : Part.sub [.pwr, .glb, .start, .evt, .ply] l_ = true) (k_ : Only l_ a_ d) :
    Only l_ a_ (doTreadleStatusResume d) := by
  refine Only.of ?_ s_ k_
  unfold doTreadleStatusResume
  try dsimp only
  repeat' (first
    | with_reducible exact Only.refl _ _ | exact rfl | intro _
    | with_reducible first
      | apply Dev.modPly_only | apply Dev.modPwr_only | apply selfTestLive_only | apply Only.ite)

theorem doTreadleLost_only {l_ : List Part} {a_ : Dev} (d : Dev)
    (s_ : Part.sub [.start, .evt, .ply] l_ = true) (k_ : Only l_ a_ d) :
    Only l_ a_ (doTreadleLost d) := by
  refine Only.of ?_ s_ k_
  unfold doTreadleLost
  try dsimp only
  repeat' (first
    | with_reducible exact Only.refl _ _ | exact rfl | intro _
    | with_reducible first
      | apply report_only | apply Dev.modPly_only | apply Only.ite)

theorem writePly_only {l_ : List Part} {a_ : Dev} (d : Dev) (o : Nat) (v : Word)
    (s_ : Part.sub [.ply] l_ = true) (k_ : Only l_ a_ d) :
    OnlyO l_ a_ (writePly d o v) := by
  refine OnlyO.of ?_ s_ k_
  unfold writePly
  try dsimp only
  repeat' (first
    | with_reducible exact Only.refl _ _ | exact rfl | intro _
    | with_reducible first
      | apply Dev.modPly_only | apply Only.ite | apply Only.each | apply OnlyO.some | apply OnlyO.none | apply OnlyO.getD
      | apply OnlyO.ite
    | with_reducible assumption
    | split)

theorem doLoomBeaconSend_only {l_ : List Part} {a_ : Dev} (d : Dev)
    (s_ : Part.sub [.out, .start, .evt, .ply, .dst] l_ = true) (k_ : Only l_ a_ d) :
    Only l_ a_ (doLoomBeaconSend d) := by
  refine Only.of ?_ s_ k_
  unfold doLoomBeaconSend
  try dsimp only
  repeat' (first
    | with_reducible exact Only.refl _ _ | exact rfl | intro _
    | with_reducible first
      | apply Dev.modPly_only | apply loomSend_only | apply Only.ite)

theorem doLoomBeaconReceive_only {l_ : List Part} {a_ : Dev} (h : LinkHeader) (ply : BitVec 8) (b : Beacon) (d : Dev)
    (s_ : Part.sub [.start, .evt, .ply, .dst] l_ = true) (k_ : Only l_ a_ d) :
    Only l_ a_ (doLoomBeaconReceive h ply b d) := by
  refine Only.of ?_ s_ k_
  unfold doLoomBeaconReceive
  try dsimp only
  repeat' (first
    | with_reducible exact Only.refl _ _ | exact rfl | intro _
    | with_reducible first
      | apply report_only | apply Dev.modPly_only | apply loomIn_only | apply Only.ite | apply Only.each | apply OnlyO.some
      | apply OnlyO.none | apply OnlyO.getD | apply OnlyO.ite
    | with_reducible assumption)

theorem doLoomEntryLapse_only {l_ : List Part} {a_ : Dev} (ply : BitVec 8) (side : Bool) (d : Dev)
    (s_ : Part.sub [.start, .evt, .ply] l_ = true) (k_ : Only l_ a_ d) :
    Only l_ a_ (doLoomEntryLapse ply side d) := by
  refine Only.of ?_ s_ k_
  unfold doLoomEntryLapse
  try dsimp only
  repeat' (first
    | with_reducible exact Only.refl _ _ | exact rfl | intro _
    | with_reducible first
      | apply report_only | apply Dev.modPly_only | apply Only.ite | apply Only.each)

theorem Dev.modIdent_only {l_ : List Part} {a_ : Dev} (d : Dev) (i : Nat) (f : IdentRun → IdentRun)
    (s_ : Part.sub [.ccp] l_ = true) (k_ : Only l_ a_ d) :
    Only l_ a_ (Dev.modIdent d i f) := by
  refine Only.of ?_ s_ k_
  unfold Dev.modIdent
  try dsimp only
  repeat' (first
    | with_reducible exact Only.refl _ _ | exact rfl | intro _
    | with_reducible apply Dev.modCcp_only)

theorem ccpSend_only {l_ : List Part} {a_ : Dev} (d : Dev) (i : Nat) (dst : BitVec 128) (port : BitVec 16) (mk : Nat → Output)
    (s_ : Part.sub [.out, .start, .evt, .ccp, .dst] l_ = true) (k_ : Only l_ a_ d) :
    Only l_ a_ (ccpSend d i dst port mk).2 := by
  refine Only.of ?_ s_ k_
  unfold ccpSend
  try dsimp only
  repeat' (first
    | with_reducible exact Only.refl _ _ | exact rfl | intro _
    | with_reducible first
      | apply Dev.emit_only | apply invoke_only | apply ccpEmit_only | apply Dev.modIdent_only | apply Only.ite
      | apply Only.each | apply OnlyO.some | apply OnlyO.none | apply OnlyO.getD | apply OnlyO.ite
    | with_reducible assumption
    | split)

theorem sendAck_only {l_ : List Part} {a_ : Dev} (d : Dev) (i : Nat) (src : BitVec 128) (sport : BitVec 16)
    (hseq hstatus epoch : Nat) (entries : List (Nat × Nat))
    (s_ : Part.sub [.out, .start, .evt, .ccp, .dst] l_ = true) (k_ : Only l_ a_ d) :
    Only l_ a_ (sendAck d i src sport hseq hstatus epoch entries) := by
  refine Only.of ?_ s_ k_
  unfold sendAck
  try dsimp only
  repeat' (first
    | with_reducible exact Only.refl _ _ | exact rfl | intro _
    | with_reducible first
      | apply Dev.modIdent_only | apply ccpSend_only | apply Only.ite | apply Only.each | apply OnlyO.some
      | apply OnlyO.none | apply OnlyO.getD | apply OnlyO.ite
    | with_reducible assumption
    | split
    | dsimp only
    | with_reducible refine Only.id ?_
    | refine OnlyO.get (by assumption) ?_
    | refine OnlyO.get1 (by assumption) ?_
    | refine Only.fst (by assumption) ?_
    | refine Only.snd (by assumption) ?_)

theorem ccpFormat_only {l_ : List Part} {a_ : Dev} (d : Dev)
    (s_ : Part.sub [.ccp] l_ = true) (k_ : Only l_ a_ d) :
    Only l_ a_ (ccpFormat d) := by
  refine Only.of ?_ s_ k_
  unfold ccpFormat
  try dsimp only
  repeat' (first
    | with_reducible exact Only.refl _ _ | exact rfl | intro _
    | with_reducible apply Dev.modCcp_only)

theorem ccpAuthFail_only {l_ : List Part} {a_ : Dev} (d : Dev)
    (s_ : Part.sub [.start, .evt, .ccp] l_ = true) (k_ : Only l_ a_ d) :
    Only l_ a_ (ccpAuthFail d) := by
  refine Only.of ?_ s_ k_
  unfold ccpAuthFail
  try dsimp only
  repeat' (first
    | with_reducible exact Only.refl _ _ | exact rfl | intro _
    | with_reducible first
      | apply report_only | apply Dev.modCcp_only)

theorem forwardHank_only {l_ : List Part} {a_ : Dev} (d : Dev) (p : CcpPacket)
    (s_ : Part.sub [.out, .start, .evt, .ply, .dst] l_ = true) (k_ : Only l_ a_ d) :
    Only l_ a_ (forwardHank d p) := by
  refine Only.of ?_ s_ k_
  unfold forwardHank
  try dsimp only
  repeat' (first
    | with_reducible exact Only.refl _ _ | exact rfl | intro _
    | with_reducible first
      | apply loomSend_only | apply plyReject_only | apply Only.ite)

theorem queueHank_only {l_ : List Part} {a_ : Dev} (d : Dev) (p : CcpPacket) (cmds : List CmdMsg) (via : Option Nat)
    (s_ : Part.sub [.ccp] l_ = true) (k_ : Only l_ a_ d) :
    Only l_ a_ (queueHank d p cmds via) := by
  refine Only.of ?_ s_ k_
  unfold queueHank
  try dsimp only
  repeat' (first
    | with_reducible exact Only.refl _ _ | exact rfl | intro _
    | with_reducible apply Dev.modCcp_only)

theorem arrive_only {l_ : List Part} {a_ : Dev} (d : Dev) (p : CcpPacket) (via : Option Nat)
    (s_ : Part.sub [.out, .start, .evt, .ccp, .dst] l_ = true) (k_ : Only l_ a_ d) :
    Only l_ a_ (arrive d p via) := by
  refine Only.of ?_ s_ k_
  unfold arrive
  try dsimp only
  repeat' (first
    | with_reducible exact Only.refl _ _ | exact rfl | intro _
    | with_reducible first
      | apply sendAck_only | apply queueHank_only | apply Only.ite | apply Only.each | apply OnlyO.some | apply OnlyO.none
      | apply OnlyO.getD | apply OnlyO.ite
    | with_reducible assumption
    | split)

theorem hankOverflow_only {l_ : List Part} {a_ : Dev} (d : Dev)
    (s_ : Part.sub [.start, .evt, .ccp] l_ = true) (k_ : Only l_ a_ d) :
    Only l_ a_ (hankOverflow d) := by
  refine Only.of ?_ s_ k_
  unfold hankOverflow
  try dsimp only
  repeat' (first
    | with_reducible exact Only.refl _ _ | exact rfl | intro _
    | with_reducible first
      | apply report_only | apply Dev.modCcp_only)

theorem takeHank_only {l_ : List Part} {a_ : Dev} (d : Dev) (p : CcpPacket)
    (s_ : Part.sub [.out, .start, .evt, .ccp, .ply, .dst] l_ = true) (k_ : Only l_ a_ d) :
    Only l_ a_ (takeHank d p) := by
  refine Only.of ?_ s_ k_
  unfold takeHank
  try dsimp only
  repeat' (first
    | with_reducible exact Only.refl _ _ | exact rfl | intro _
    | with_reducible first
      | apply report_only | apply Dev.modCcp_only | apply Dev.modIdent_only | apply ccpSend_only | apply sendAck_only
      | apply forwardHank_only | apply arrive_only | apply Only.ite | apply Only.each | apply OnlyO.some | apply OnlyO.none
      | apply OnlyO.getD | apply OnlyO.ite
    | with_reducible assumption
    | split)

theorem takeQuoteReq_only {l_ : List Part} {a_ : Dev} (d : Dev) (p : CcpPacket)
    (s_ : Part.sub [.out, .start, .evt, .ccp, .dst, .img] l_ = true) (k_ : Only l_ a_ d) :
    Only l_ a_ (takeQuoteReq d p) := by
  refine Only.of ?_ s_ k_
  unfold takeQuoteReq
  try dsimp only
  repeat' (first
    | with_reducible exact Only.refl _ _ | exact rfl | intro _
    | with_reducible first
      | apply Dev.modDst_only | apply answerQuote_only | apply ccpFormat_only | apply Only.ite)

theorem takePacket_only {l_ : List Part} {a_ : Dev} (d : Dev) (p : CcpPacket)
    (s_ : Part.sub [.out, .start, .evt, .ccp, .ply, .dst, .img] l_ = true) (k_ : Only l_ a_ d) :
    Only l_ a_ (takePacket d p) := by
  refine Only.of ?_ s_ k_
  unfold takePacket
  try dsimp only
  repeat' (first
    | with_reducible exact Only.refl _ _ | exact rfl | intro _
    | with_reducible first
      | apply invoke_only | apply ccpFormat_only | apply ccpAuthFail_only | apply hankOverflow_only | apply takeHank_only
      | apply takeQuoteReq_only | apply Only.ite | apply Only.each | apply OnlyO.some | apply OnlyO.none | apply OnlyO.getD
      | apply OnlyO.ite
    | with_reducible assumption
    | split)

theorem takeFragment_only {l_ : List Part} {a_ : Dev} (d : Dev) (src : BitVec 128) (f : Fragment)
    (s_ : Part.sub [.ccp] l_ = true) (k_ : Only l_ a_ d) :
    Only l_ a_ (takeFragment d src f).1 := by
  refine Only.of ?_ s_ k_
  unfold takeFragment
  try dsimp only
  repeat' (first
    | with_reducible exact Only.refl _ _ | exact rfl | intro _
    | with_reducible first
      | apply Dev.modCcp_only | apply Only.ite | apply Only.each | apply OnlyO.some | apply OnlyO.none | apply OnlyO.getD
      | apply OnlyO.ite
    | with_reducible assumption
    | split)

theorem doHankReceive_only {l_ : List Part} {a_ : Dev} (port : Port) (frag : Option Fragment) (p : CcpPacket) (d : Dev)
    (s_ : Part.sub [.out, .start, .evt, .ccp, .ply, .dst, .img] l_ = true) (k_ : Only l_ a_ d) :
    Only l_ a_ (doHankReceive port frag p d) := by
  refine Only.of ?_ s_ k_
  unfold doHankReceive
  try dsimp only
  repeat' (first
    | with_reducible exact Only.refl _ _ | exact rfl | intro _
    | with_reducible first
      | apply takePacket_only | apply takeFragment_only | apply Only.ite | apply Only.each | apply OnlyO.some
      | apply OnlyO.none | apply OnlyO.getD | apply OnlyO.ite
    | with_reducible assumption
    | split
    | dsimp only
    | with_reducible refine Only.id ?_
    | refine OnlyO.get (by assumption) ?_
    | refine OnlyO.get1 (by assumption) ?_
    | refine Only.fst (by assumption) ?_)

theorem doReassemblyTimeout_only {l_ : List Part} {a_ : Dev} (src : BitVec 128) (id : Nat) (d : Dev)
    (s_ : Part.sub [.ccp] l_ = true) (k_ : Only l_ a_ d) :
    Only l_ a_ (doReassemblyTimeout src id d) := by
  refine Only.of ?_ s_ k_
  unfold doReassemblyTimeout
  try dsimp only
  repeat' (first
    | with_reducible exact Only.refl _ _ | exact rfl | intro _
    | with_reducible apply Dev.modCcp_only)

theorem doQuoteReq_only {l_ : List Part} {a_ : Dev} (port : Port) (p : CcpPacket) (d : Dev)
    (s_ : Part.sub [.out, .start, .evt, .ccp, .dst, .img] l_ = true) (k_ : Only l_ a_ d) :
    Only l_ a_ (doQuoteReq port p d) := by
  refine Only.of ?_ s_ k_
  unfold doQuoteReq
  try dsimp only
  repeat' (first
    | with_reducible exact Only.refl _ _ | exact rfl | intro _
    | with_reducible first
      | apply ccpFormat_only | apply takeQuoteReq_only | apply Only.ite)

theorem holdThrow_only {l_ : List Part} {a_ : Dev} (d : Dev) (th g id l : Nat) (action : List Byte)
    (s_ : Part.sub [.out, .start, .evt, .whl, .sht, .ply, .dst] l_ = true) (k_ : Only l_ a_ d) :
    Only l_ a_ (holdThrow d th g id l action) := by
  refine Only.of ?_ s_ k_
  unfold holdThrow
  try dsimp only
  repeat' (first
    | with_reducible exact Only.refl _ _ | exact rfl | intro _
    | with_reducible first
      | apply Dev.modWhl_only | apply submitRec_only)

theorem takeThread_only {l_ : List Part} {a_ : Dev} (d : Dev) (w : WaitHank) (m : CmdMsg) (c : Cmd)
    (s_ : Part.sub [.out, .start, .evt, .whl, .ccp, .sht, .ply, .dst, .img] l_ = true) (k_ : Only l_ a_ d) :
    Only l_ a_ (takeThread d w m c).1 := by
  refine Only.of ?_ s_ k_
  unfold takeThread
  try dsimp only
  repeat' (first
    | with_reducible exact Only.refl _ _ | exact rfl | intro _
    | with_reducible first
      | apply Dev.modCcp_only | apply Dev.modImg_only | apply threadsWatch_only | apply holdThrow_only | apply Only.ite
      | apply Only.each | apply OnlyO.some | apply OnlyO.none | apply OnlyO.getD | apply OnlyO.ite
    | with_reducible assumption
    | split)

theorem admitNext_only {l_ : List Part} {a_ : Dev} (d : Dev) (w : WaitHank) (m : CmdMsg)
    (s_ : Part.sub [.out, .start, .evt, .whl, .ccp, .sht, .ply, .dst, .img] l_ = true) (k_ : Only l_ a_ d) :
    Only l_ a_ (admitNext d w m).1 := by
  refine Only.of ?_ s_ k_
  unfold admitNext
  try dsimp only
  repeat' (first
    | with_reducible exact Only.refl _ _ | exact rfl | intro _
    | with_reducible first
      | apply Dev.modCcp_only | apply takeThread_only | apply Only.ite | apply Only.each | apply OnlyO.some
      | apply OnlyO.none | apply OnlyO.getD | apply OnlyO.ite
    | with_reducible assumption
    | split)

theorem admitRest_only {l_ : List Part} {a_ : Dev} (d : Dev) (w : WaitHank)
    (s_ : Part.sub [.out, .start, .evt, .whl, .ccp, .sht, .ply, .dst, .img] l_ = true) (k_ : Only l_ a_ d) :
    Only l_ a_ (admitRest d w).1 := by
  unfold admitRest
  suffices h : ∀ (xs : List CmdMsg) (x : Dev × WaitHank), Only l_ a_ x.1 → Only l_ a_ (xs.foldl (fun x m => admitNext x.1 x.2 m) x).1 from h _ _ k_
  intro xs
  induction xs with
  | nil => exact fun _ h => h
  | cons i r ih => exact fun x h => ih _ (admitNext_only _ _ _ (Part.sub_trans (p := [.out, .start, .evt, .whl, .ccp, .sht, .ply, .dst, .img]) rfl s_) h)

theorem doHankAdmit_only {l_ : List Part} {a_ : Dev} (d : Dev)
    (s_ : Part.sub [.out, .start, .evt, .whl, .ccp, .sht, .ply, .dst, .img] l_ = true) (k_ : Only l_ a_ d) :
    Only l_ a_ (doHankAdmit d) := by
  refine Only.of ?_ s_ k_
  unfold doHankAdmit
  try dsimp only
  repeat' (first
    | with_reducible exact Only.refl _ _ | exact rfl | intro _
    | with_reducible first
      | apply Dev.modCcp_only | apply sendAck_only | apply admitRest_only | apply Only.ite | apply Only.each
      | apply OnlyO.some | apply OnlyO.none | apply OnlyO.getD | apply OnlyO.ite
    | with_reducible assumption
    | split)

theorem admitOne_only {l_ : List Part} {a_ : Dev} (op : Nat) (d : Dev)
    (s_ : Part.sub [.out, .start, .evt, .whl, .ccp, .sht, .ply, .dst, .img] l_ = true) (k_ : Only l_ a_ d) :
    Only l_ a_ (admitOne op d) := by
  refine Only.of ?_ s_ k_
  unfold admitOne
  try dsimp only
  repeat' (first
    | with_reducible exact Only.refl _ _ | exact rfl | intro _
    | with_reducible first
      | apply Dev.modCcp_only | apply admitNext_only | apply Only.ite | apply Only.each | apply OnlyO.some
      | apply OnlyO.none | apply OnlyO.getD | apply OnlyO.ite
    | with_reducible assumption
    | split)

theorem doThrowCmd_only {l_ : List Part} {a_ : Dev} (d : Dev)
    (s_ : Part.sub [.out, .start, .evt, .whl, .ccp, .sht, .ply, .dst, .img] l_ = true) (k_ : Only l_ a_ d) :
    Only l_ a_ (doThrowCmd d) := by
  refine Only.of ?_ s_ k_
  unfold doThrowCmd
  try dsimp only
  repeat' (first
    | with_reducible exact Only.refl _ _ | exact rfl | intro _
    | with_reducible apply admitOne_only)

theorem doReelActivate_only {l_ : List Part} {a_ : Dev} (d : Dev)
    (s_ : Part.sub [.out, .start, .evt, .whl, .ccp, .sht, .ply, .dst, .img] l_ = true) (k_ : Only l_ a_ d) :
    Only l_ a_ (doReelActivate d) := by
  refine Only.of ?_ s_ k_
  unfold doReelActivate
  try dsimp only
  repeat' (first
    | with_reducible exact Only.refl _ _ | exact rfl | intro _
    | with_reducible apply admitOne_only)

theorem doThreadTimeout_only {l_ : List Part} {a_ : Dev} (th : Nat) (d : Dev)
    (s_ : Part.sub [.whl, .ccp, .ply, .img] l_ = true) (k_ : Only l_ a_ d) :
    Only l_ a_ (doThreadTimeout th d) := by
  refine Only.of ?_ s_ k_
  unfold doThreadTimeout
  try dsimp only
  repeat' (first
    | with_reducible exact Only.refl _ _ | exact rfl | intro _
    | with_reducible first
      | apply finish_only | apply Only.ite | apply Only.each | apply OnlyO.some | apply OnlyO.none | apply OnlyO.getD
      | apply OnlyO.ite
    | with_reducible assumption
    | split)

theorem doThreadRetainExpire_only {l_ : List Part} {a_ : Dev} (th : Nat) (d : Dev)
    (s_ : Part.sub [.pra, .evt, .whl, .spn, .ccp, .img] l_ = true) (k_ : Only l_ a_ d) :
    Only l_ a_ (doThreadRetainExpire th d) := by
  refine Only.of ?_ s_ k_
  unfold doThreadRetainExpire
  try dsimp only
  repeat' (first
    | with_reducible exact Only.refl _ _ | exact rfl | intro _
    | with_reducible first
      | apply freeThread_only | apply Only.ite | apply Only.each | apply OnlyO.some | apply OnlyO.none | apply OnlyO.getD
      | apply OnlyO.ite
    | with_reducible assumption
    | split)

theorem doCompletionSend_only {l_ : List Part} {a_ : Dev} (d : Dev)
    (s_ : Part.sub [.out, .start, .pra, .evt, .whl, .spn, .ccp, .dst, .img] l_ = true) (k_ : Only l_ a_ d) :
    Only l_ a_ (doCompletionSend d) := by
  refine Only.of ?_ s_ k_
  unfold doCompletionSend
  try dsimp only
  repeat' (first
    | with_reducible exact Only.refl _ _ | exact rfl | intro _
    | with_reducible first
      | apply Dev.modCcp_only | apply Dev.modThread_only | apply freeThread_only | apply ccpSend_only | apply Only.ite
      | apply Only.each | apply OnlyO.some | apply OnlyO.none | apply OnlyO.getD | apply OnlyO.ite
    | with_reducible assumption
    | split)

theorem writeThrHwm_only {l_ : List Part} {a_ : Dev} (d : Dev) (v : Word)
    (s_ : Part.sub [.ccp] l_ = true) (k_ : Only l_ a_ d) :
    Only l_ a_ (writeThrHwm d v).1 := by
  refine Only.of ?_ s_ k_
  unfold writeThrHwm
  try dsimp only
  repeat' (first
    | with_reducible exact Only.refl _ _ | exact rfl | intro _
    | with_reducible first
      | apply Dev.modCcp_only | apply Only.ite)

theorem writeThr_only {l_ : List Part} {a_ : Dev} (d : Dev) (o : Nat) (v : Word)
    (s_ : Part.sub [.ccp] l_ = true) (k_ : Only l_ a_ d) :
    OnlyO l_ a_ (writeThr d o v) := by
  refine OnlyO.of ?_ s_ k_
  unfold writeThr
  try dsimp only
  repeat' (first
    | with_reducible exact Only.refl _ _ | exact rfl | intro _
    | with_reducible first
      | apply writeThrHwm_only | apply Only.ite | apply Only.each | apply OnlyO.some | apply OnlyO.none | apply OnlyO.getD
      | apply OnlyO.ite)

theorem doThrHwmClr_only {l_ : List Part} {a_ : Dev} (v : Word) (d : Dev)
    (s_ : Part.sub [.out, .ccp] l_ = true) (k_ : Only l_ a_ d) :
    Only l_ a_ (doThrHwmClr v d) := by
  refine Only.of ?_ s_ k_
  unfold doThrHwmClr
  try dsimp only
  repeat' (first
    | with_reducible exact Only.refl _ _ | exact rfl | intro _
    | with_reducible refine regRow_only (by beta_reduce; exact rfl) ?_ ?_ ?_
    | with_reducible apply writeThrHwm_only)

theorem writeCcp_only {l_ : List Part} {a_ : Dev} (d : Dev) (o : Nat)
    (s_ : Part.sub [] l_ = true) (k_ : Only l_ a_ d) :
    OnlyO l_ a_ (writeCcp d o) := by
  refine OnlyO.of ?_ s_ k_
  unfold writeCcp
  try dsimp only
  repeat' (first
    | with_reducible exact Only.refl _ _ | exact rfl | intro _
    | with_reducible first
      | apply Only.ite | apply Only.each | apply OnlyO.some | apply OnlyO.none | apply OnlyO.getD | apply OnlyO.ite)

theorem doVisitQReceive_only {l_ : List Part} {a_ : Dev} (h : LinkHeader) (ply : BitVec 8) (eui : BitVec 64) (d : Dev)
    (s_ : Part.sub [.out, .start, .evt, .ply, .dst] l_ = true) (k_ : Only l_ a_ d) :
    Only l_ a_ (doVisitQReceive h ply eui d) := by
  refine Only.of ?_ s_ k_
  unfold doVisitQReceive
  try dsimp only
  repeat' (first
    | with_reducible exact Only.refl _ _ | exact rfl | intro _
    | with_reducible first
      | apply loomSend_only | apply loomIn_only | apply Only.ite | apply Only.each | apply OnlyO.some | apply OnlyO.none
      | apply OnlyO.getD | apply OnlyO.ite
    | with_reducible assumption
    | split)

theorem doVisitAReceive_only {l_ : List Part} {a_ : Dev} (h : LinkHeader) (ply : BitVec 8) (eui : BitVec 64)
    (handle : BitVec 32) (d : Dev)
    (s_ : Part.sub [.out, .start, .evt, .whl, .wrp, .ccp, .sht, .ply, .dst, .img] l_ = true) (k_ : Only l_ a_ d) :
    Only l_ a_ (doVisitAReceive h ply eui handle d) := by
  refine Only.of ?_ s_ k_
  unfold doVisitAReceive
  try dsimp only
  repeat' (first
    | with_reducible exact Only.refl _ _ | exact rfl | intro _
    | with_reducible first
      | apply report_only | apply joinNode_only | apply dropVisit_only | apply loomIn_only | apply Only.ite
      | apply Only.each | apply OnlyO.some | apply OnlyO.none | apply OnlyO.getD | apply OnlyO.ite
    | with_reducible assumption
    | split)

theorem doVisitTimeout_only {l_ : List Part} {a_ : Dev} (eui : BitVec 64) (d : Dev)
    (s_ : Part.sub [.out, .start, .evt, .whl, .wrp, .ccp, .sht, .ply, .dst, .img] l_ = true) (k_ : Only l_ a_ d) :
    Only l_ a_ (doVisitTimeout eui d) := by
  refine Only.of ?_ s_ k_
  unfold doVisitTimeout
  try dsimp only
  repeat' (first
    | with_reducible exact Only.refl _ _ | exact rfl | intro _
    | with_reducible first
      | apply joinNode_only | apply dropVisit_only | apply Only.ite | apply Only.each | apply OnlyO.some | apply OnlyO.none
      | apply OnlyO.getD | apply OnlyO.ite
    | with_reducible assumption
    | split)

theorem doWhereReceive_only {l_ : List Part} {a_ : Dev} (h : LinkHeader) (ply : BitVec 8) (handle : BitVec 32)
    (serving : BitVec 8) (d : Dev)
    (s_ : Part.sub [.start, .evt, .wrp, .ply, .dst] l_ = true) (k_ : Only l_ a_ d) :
    Only l_ a_ (doWhereReceive h ply handle serving d) := by
  refine Only.of ?_ s_ k_
  unfold doWhereReceive
  try dsimp only
  repeat' (first
    | with_reducible exact Only.refl _ _ | exact rfl | intro _
    | with_reducible first
      | apply report_only | apply Dev.modNode_only | apply sleepNode_only | apply loomIn_only | apply Only.ite
      | apply Only.each | apply OnlyO.some | apply OnlyO.none | apply OnlyO.getD | apply OnlyO.ite
    | with_reducible assumption
    | split)

theorem doWhereRefresh_only {l_ : List Part} {a_ : Dev} (i : Nat) (d : Dev)
    (s_ : Part.sub [.out, .start, .evt, .wrp, .ply, .dst] l_ = true) (k_ : Only l_ a_ d) :
    Only l_ a_ (doWhereRefresh i d) := by
  refine Only.of ?_ s_ k_
  unfold doWhereRefresh
  try dsimp only
  repeat' (first
    | with_reducible exact Only.refl _ _ | exact rfl | intro _
    | with_reducible first
      | apply Dev.modNode_only | apply tellWhere_only | apply Only.ite | apply Only.each | apply OnlyO.some
      | apply OnlyO.none | apply OnlyO.getD | apply OnlyO.ite
    | with_reducible assumption
    | split)

theorem doHomeLeaseExpire_only {l_ : List Part} {a_ : Dev} (i : Nat) (d : Dev)
    (s_ : Part.sub [.out, .start, .evt, .whl, .wrp, .ccp, .sht, .ply, .dst, .img] l_ = true) (k_ : Only l_ a_ d) :
    Only l_ a_ (doHomeLeaseExpire i d) := by
  refine Only.of ?_ s_ k_
  unfold doHomeLeaseExpire
  try dsimp only
  repeat' (first
    | with_reducible exact Only.refl _ _ | exact rfl | intro _
    | with_reducible first
      | apply report_only | apply releaseNode_only | apply Only.ite | apply Only.each | apply OnlyO.some | apply OnlyO.none
      | apply OnlyO.getD | apply OnlyO.ite
    | with_reducible assumption
    | split)

theorem doFwdReceive_only {l_ : List Part} {a_ : Dev} (h : LinkHeader) (ply : BitVec 8) (p : CcpPacket) (d : Dev)
    (s_ : Part.sub [.out, .start, .evt, .ccp, .ply, .dst] l_ = true) (k_ : Only l_ a_ d) :
    Only l_ a_ (doFwdReceive h ply p d) := by
  refine Only.of ?_ s_ k_
  unfold doFwdReceive
  try dsimp only
  repeat' (first
    | with_reducible exact Only.refl _ _ | exact rfl | intro _
    | with_reducible first
      | apply plyReject_only | apply loomIn_only | apply ccpAuthFail_only | apply arrive_only | apply hankOverflow_only
      | apply Only.ite | apply Only.each | apply OnlyO.some | apply OnlyO.none | apply OnlyO.getD | apply OnlyO.ite
    | with_reducible assumption)

theorem doRelayReceive_only {l_ : List Part} {a_ : Dev} (h : LinkHeader) (ply : BitVec 8) (handle : BitVec 32)
    (dport : BitVec 16) (tag : Nat) (noReply : Bool) (data : List Byte) (d : Dev)
    (s_ : Part.sub [.out, .start, .evt, .sht, .ply, .dst] l_ = true) (k_ : Only l_ a_ d) :
    Only l_ a_ (doRelayReceive h ply handle dport tag noReply data d) := by
  refine Only.of ?_ s_ k_
  unfold doRelayReceive
  try dsimp only
  repeat' (first
    | with_reducible exact Only.refl _ _ | exact rfl | intro _
    | with_reducible first
      | apply Dev.modPly_only | apply loomSend_only | apply submitRec_only | apply loomIn_only | apply Only.ite
      | apply Only.each | apply OnlyO.some | apply OnlyO.none | apply OnlyO.getD | apply OnlyO.ite
    | with_reducible assumption
    | split)

theorem doRelayResReceive_only {l_ : List Part} {a_ : Dev} (h : LinkHeader) (ply : BitVec 8) (handle : BitVec 32) (tag : Nat)
    (status : BitVec 8) (data : List Byte) (d : Dev)
    (s_ : Part.sub [.start, .evt, .whl, .ccp, .ply, .dst, .img] l_ = true) (k_ : Only l_ a_ d) :
    Only l_ a_ (doRelayResReceive h ply handle tag status data d) := by
  refine Only.of ?_ s_ k_
  unfold doRelayResReceive
  try dsimp only
  repeat' (first
    | with_reducible exact Only.refl _ _ | exact rfl | intro _
    | with_reducible first
      | apply finish_only | apply plyReject_only | apply loomIn_only | apply Only.ite | apply Only.each | apply OnlyO.some
      | apply OnlyO.none | apply OnlyO.getD | apply OnlyO.ite
    | with_reducible assumption
    | split)

theorem writeSrc_only {l_ : List Part} {a_ : Dev} (d : Dev) (e : Nat) (v : Word)
    (s_ : Part.sub [.evt] l_ = true) (k_ : Only l_ a_ d) :
    Only l_ a_ (writeSrc d e v) := by
  refine Only.of ?_ s_ k_
  unfold writeSrc
  try dsimp only
  repeat' (first
    | with_reducible exact Only.refl _ _ | exact rfl | intro _
    | fail_if_no_progress (with_reducible refine Only.rec_evt rfl ?_)
    | with_reducible apply Only.ite)

theorem writeSticky_only {l_ : List Part} {a_ : Dev} (d : Dev) (w : Nat) (v : Word)
    (s_ : Part.sub [.evt] l_ = true) (k_ : Only l_ a_ d) :
    Only l_ a_ (writeSticky d w v) := by
  refine Only.of ?_ s_ k_
  unfold writeSticky
  try dsimp only
  repeat' (first
    | with_reducible exact Only.refl _ _ | exact rfl | intro _
    | fail_if_no_progress (with_reducible refine Only.rec_evt rfl ?_)
    | with_reducible first
      | apply Only.ite | apply Only.each)

theorem writeEvt_only {l_ : List Part} {a_ : Dev} (d : Dev) (o : Nat) (v : Word)
    (s_ : Part.sub [.evt] l_ = true) (k_ : Only l_ a_ d) :
    OnlyO l_ a_ (writeEvt d o v) := by
  refine OnlyO.of ?_ s_ k_
  unfold writeEvt
  try dsimp only
  repeat' (first
    | with_reducible exact Only.refl _ _ | exact rfl | intro _
    | with_reducible first
      | apply writeSrc_only | apply writeSticky_only | apply Only.ite | apply Only.each | apply OnlyO.some
      | apply OnlyO.none | apply OnlyO.getD | apply OnlyO.ite
    | with_reducible assumption
    | split)

theorem doEvtStickyClear_only {l_ : List Part} {a_ : Dev} (addr : Nat) (v : Word) (d : Dev)
    (s_ : Part.sub [.out, .evt] l_ = true) (k_ : Only l_ a_ d) :
    Only l_ a_ (doEvtStickyClear addr v d) := by
  refine Only.of ?_ s_ k_
  unfold doEvtStickyClear
  try dsimp only
  repeat' (first
    | with_reducible exact Only.refl _ _ | exact rfl | intro _
    | with_reducible refine regRow_only (by beta_reduce; exact rfl) ?_ ?_ ?_
    | with_reducible first
      | apply writeEvt_only | apply Only.ite | apply Only.each | apply OnlyO.some | apply OnlyO.none | apply OnlyO.getD
      | apply OnlyO.ite
    | with_reducible assumption
    | split
    | dsimp only
    | with_reducible refine Only.id ?_
    | refine OnlyO.get (by assumption) ?_)

theorem doPraInfo_only {l_ : List Part} {a_ : Dev} (th : Nat) (d : Dev)
    (s_ : Part.sub [.pra, .evt, .whl, .ccp, .ply, .img] l_ = true) (k_ : Only l_ a_ d) :
    Only l_ a_ (doPraInfo th d) := by
  refine Only.of ?_ s_ k_
  unfold doPraInfo
  try dsimp only
  repeat' (first
    | with_reducible exact Only.refl _ _ | exact rfl | intro _
    | with_reducible first
      | apply praDue_only | apply finish_only | apply runThread_only | apply Only.ite | apply Only.each | apply OnlyO.some
      | apply OnlyO.none | apply OnlyO.getD | apply OnlyO.ite
    | with_reducible assumption)

theorem doHealthSummary_only {l_ : List Part} {a_ : Dev} (th : Nat) (d : Dev)
    (s_ : Part.sub [.whl, .ccp, .ply, .img] l_ = true) (k_ : Only l_ a_ d) :
    Only l_ a_ (doHealthSummary th d) := by
  refine Only.of ?_ s_ k_
  unfold doHealthSummary
  try dsimp only
  repeat' (first
    | with_reducible exact Only.refl _ _ | exact rfl | intro _
    | with_reducible first
      | apply finish_only | apply runThread_only | apply Only.ite | apply Only.each | apply OnlyO.some | apply OnlyO.none
      | apply OnlyO.getD | apply OnlyO.ite
    | with_reducible assumption)

theorem doHealthLog_only {l_ : List Part} {a_ : Dev} (th : Nat) (d : Dev)
    (s_ : Part.sub [.whl, .ccp, .ply, .img] l_ = true) (k_ : Only l_ a_ d) :
    Only l_ a_ (doHealthLog th d) := by
  refine Only.of ?_ s_ k_
  unfold doHealthLog
  try dsimp only
  repeat' (first
    | with_reducible exact Only.refl _ _ | exact rfl | intro _
    | with_reducible first
      | apply finish_only | apply runThread_only | apply Only.ite | apply Only.each | apply OnlyO.some | apply OnlyO.none
      | apply OnlyO.getD | apply OnlyO.ite
    | with_reducible assumption)

theorem doThreadQuery_only {l_ : List Part} {a_ : Dev} (th : Nat) (d : Dev)
    (s_ : Part.sub [.whl, .ccp, .ply, .img] l_ = true) (k_ : Only l_ a_ d) :
    Only l_ a_ (doThreadQuery th d) := by
  refine Only.of ?_ s_ k_
  unfold doThreadQuery
  try dsimp only
  repeat' (first
    | with_reducible exact Only.refl _ _ | exact rfl | intro _
    | with_reducible first
      | apply finish_only | apply runThread_only | apply Only.ite | apply Only.each | apply OnlyO.some | apply OnlyO.none
      | apply OnlyO.getD | apply OnlyO.ite
    | with_reducible assumption
    | split)

theorem doCompleteAck_only {l_ : List Part} {a_ : Dev} (th : Nat) (d : Dev)
    (s_ : Part.sub [.pra, .evt, .whl, .spn, .ccp, .ply, .img] l_ = true) (k_ : Only l_ a_ d) :
    Only l_ a_ (doCompleteAck th d) := by
  refine Only.of ?_ s_ k_
  unfold doCompleteAck
  try dsimp only
  repeat' (first
    | with_reducible exact Only.refl _ _ | exact rfl | intro _
    | with_reducible first
      | apply finish_only | apply freeThread_only | apply runThread_only | apply Only.ite | apply Only.each
      | apply OnlyO.some | apply OnlyO.none | apply OnlyO.getD | apply OnlyO.ite
    | with_reducible assumption
    | split)

theorem doNodeReq_only {l_ : List Part} {a_ : Dev} (th : Nat) (d : Dev)
    (s_ : Part.sub [.out, .start, .evt, .whl, .ccp, .sht, .ply, .dst, .img] l_ = true) (k_ : Only l_ a_ d) :
    Only l_ a_ (doNodeReq th d) := by
  refine Only.of ?_ s_ k_
  unfold doNodeReq
  try dsimp only
  repeat' (first
    | with_reducible exact Only.refl _ _ | exact rfl | intro _
    | with_reducible first
      | apply Dev.modPly_only | apply Dev.modThread_only | apply finish_only | apply runThread_only | apply loomSend_only
      | apply submitRec_only | apply plyReject_only | apply Only.ite | apply Only.each | apply OnlyO.some | apply OnlyO.none
      | apply OnlyO.getD | apply OnlyO.ite
    | with_reducible assumption
    | split)

theorem doNodeReplyReceive_only {l_ : List Part} {a_ : Dev} (i tag : Nat) (data : List Byte) (d : Dev)
    (s_ : Part.sub [.out, .start, .evt, .whl, .ccp, .ply, .dst, .img] l_ = true) (k_ : Only l_ a_ d) :
    Only l_ a_ (doNodeReplyReceive i tag data d) := by
  refine Only.of ?_ s_ k_
  unfold doNodeReplyReceive
  try dsimp only
  repeat' (first
    | with_reducible exact Only.refl _ _ | exact rfl | intro _
    | with_reducible first
      | apply Dev.modPly_only | apply finish_only | apply loomSend_only | apply Only.ite | apply Only.each
      | apply OnlyO.some | apply OnlyO.none | apply OnlyO.getD | apply OnlyO.ite
    | with_reducible assumption
    | split)

theorem doThrowGroupSet_only {l_ : List Part} {a_ : Dev} (th : Nat) (d : Dev)
    (s_ : Part.sub [.out, .start, .evt, .whl, .wrp, .ccp, .sht, .ply, .dst, .img] l_ = true) (k_ : Only l_ a_ d) :
    Only l_ a_ (doThrowGroupSet th d) := by
  refine Only.of ?_ s_ k_
  unfold doThrowGroupSet
  try dsimp only
  repeat' (first
    | with_reducible exact Only.refl _ _ | exact rfl | intro _
    | with_reducible first
      | apply finish_only | apply runThread_only | apply Dev.modNode_only | apply streamDelta_only | apply Only.ite
      | apply Only.each | apply OnlyO.some | apply OnlyO.none | apply OnlyO.getD | apply OnlyO.ite
    | with_reducible assumption
    | split)

theorem objWatch_only {l_ : List Part} {a_ : Dev} (d : Dev)
    (s_ : Part.sub [.evt] l_ = true) (k_ : Only l_ a_ d) :
    Only l_ a_ (objWatch d) := by
  refine Only.of ?_ s_ k_
  unfold objWatch
  try dsimp only
  repeat' (first
    | with_reducible exact Only.refl _ _ | exact rfl | intro _
    | with_reducible apply watch_only)

theorem Dev.modObj_only {l_ : List Part} {a_ : Dev} (d : Dev) (o : Nat) (f : Obj → Obj)
    (s_ : Part.sub [.ccp] l_ = true) (k_ : Only l_ a_ d) :
    Only l_ a_ (Dev.modObj d o f) := by
  refine Only.of ?_ s_ k_
  unfold Dev.modObj
  try dsimp only
  repeat' (first
    | with_reducible exact Only.refl _ _ | exact rfl | intro _
    | with_reducible apply Dev.modCcp_only)

theorem doObjOpen_only {l_ : List Part} {a_ : Dev} (th : Nat) (d : Dev)
    (s_ : Part.sub [.evt, .whl, .ccp, .ply, .img] l_ = true) (k_ : Only l_ a_ d) :
    Only l_ a_ (doObjOpen th d) := by
  refine Only.of ?_ s_ k_
  unfold doObjOpen
  try dsimp only
  repeat' (first
    | with_reducible exact Only.refl _ _ | exact rfl | intro _
    | with_reducible first
      | apply Dev.modCcp_only | apply finish_only | apply runThread_only | apply objWatch_only | apply Only.ite
      | apply Only.each | apply OnlyO.some | apply OnlyO.none | apply OnlyO.getD | apply OnlyO.ite
    | with_reducible assumption)

theorem doObjWrite_only {l_ : List Part} {a_ : Dev} (th : Nat) (d : Dev)
    (s_ : Part.sub [.whl, .ccp, .ply, .img] l_ = true) (k_ : Only l_ a_ d) :
    Only l_ a_ (doObjWrite th d) := by
  refine Only.of ?_ s_ k_
  unfold doObjWrite
  try dsimp only
  repeat' (first
    | with_reducible exact Only.refl _ _ | exact rfl | intro _
    | with_reducible first
      | apply finish_only | apply runThread_only | apply Dev.modObj_only | apply Only.ite | apply Only.each
      | apply OnlyO.some | apply OnlyO.none | apply OnlyO.getD | apply OnlyO.ite
    | with_reducible assumption
    | split)

theorem doObjClose_only {l_ : List Part} {a_ : Dev} (th : Nat) (d : Dev)
    (s_ : Part.sub [.whl, .ccp, .ply, .img] l_ = true) (k_ : Only l_ a_ d) :
    Only l_ a_ (doObjClose th d) := by
  refine Only.of ?_ s_ k_
  unfold doObjClose
  try dsimp only
  repeat' (first
    | with_reducible exact Only.refl _ _ | exact rfl | intro _
    | with_reducible first
      | apply finish_only | apply runThread_only | apply Dev.modObj_only | apply Only.ite | apply Only.each
      | apply OnlyO.some | apply OnlyO.none | apply OnlyO.getD | apply OnlyO.ite
    | with_reducible assumption
    | split)

theorem doObjDelete_only {l_ : List Part} {a_ : Dev} (th : Nat) (d : Dev)
    (s_ : Part.sub [.evt, .whl, .ccp, .ply, .img] l_ = true) (k_ : Only l_ a_ d) :
    Only l_ a_ (doObjDelete th d) := by
  refine Only.of ?_ s_ k_
  unfold doObjDelete
  try dsimp only
  repeat' (first
    | with_reducible exact Only.refl _ _ | exact rfl | intro _
    | with_reducible first
      | apply Dev.modCcp_only | apply finish_only | apply runThread_only | apply objWatch_only | apply Only.ite
      | apply Only.each | apply OnlyO.some | apply OnlyO.none | apply OnlyO.getD | apply OnlyO.ite
    | with_reducible assumption)

theorem doObjSend_only {l_ : List Part} {a_ : Dev} (th corrected : Nat) (poisoned : List Nat) (d : Dev)
    (s_ : Part.sub [.out, .glb, .start, .evt, .whl, .ccp, .sht, .ply, .dst, .img] l_ = true) (k_ : Only l_ a_ d) :
    Only l_ a_ (doObjSend th corrected poisoned d) := by
  refine Only.of ?_ s_ k_
  unfold doObjSend
  try dsimp only
  repeat' (first
    | with_reducible exact Only.refl _ _ | exact rfl | intro _
    | with_reducible first
      | apply Dev.modGlb_only | apply Dev.modThread_only | apply finish_only | apply runThread_only | apply submitRec_only
      | apply Only.ite | apply Only.each | apply OnlyO.some | apply OnlyO.none | apply OnlyO.getD | apply OnlyO.ite
    | with_reducible assumption
    | split)

theorem doPolicyRead_only {l_ : List Part} {a_ : Dev} (th : Nat) (d : Dev)
    (s_ : Part.sub [.whl, .ccp, .ply, .img] l_ = true) (k_ : Only l_ a_ d) :
    Only l_ a_ (doPolicyRead th d) := by
  refine Only.of ?_ s_ k_
  unfold doPolicyRead
  try dsimp only
  repeat' (first
    | with_reducible exact Only.refl _ _ | exact rfl | intro _
    | with_reducible first
      | apply finish_only | apply runThread_only | apply Only.ite | apply Only.each | apply OnlyO.some | apply OnlyO.none
      | apply OnlyO.getD | apply OnlyO.ite
    | with_reducible assumption)

theorem revokeThrow_only {l_ : List Part} {a_ : Dev} (d : Dev) (th : Nat)
    (s_ : Part.sub [.out, .start, .evt, .whl, .sht, .ply, .dst] l_ = true) (k_ : Only l_ a_ d) :
    Only l_ a_ (revokeThrow d th) := by
  refine Only.of ?_ s_ k_
  unfold revokeThrow
  try dsimp only
  repeat' (first
    | with_reducible exact Only.refl _ _ | exact rfl | intro _
    | with_reducible first
      | apply Dev.modWhl_only | apply dropLaunch_only | apply submitRec_only | apply Only.ite | apply Only.each
      | apply OnlyO.some | apply OnlyO.none | apply OnlyO.getD | apply OnlyO.ite
    | with_reducible assumption
    | split)

theorem doPolicyWrite_only {l_ : List Part} {a_ : Dev} (th : Nat) (d : Dev)
    (s_ : Part.sub [.out, .start, .evt, .whl, .ccp, .sht, .ply, .dst, .img] l_ = true) (k_ : Only l_ a_ d) :
    Only l_ a_ (doPolicyWrite th d) := by
  refine Only.of ?_ s_ k_
  unfold doPolicyWrite
  try dsimp only
  repeat' (first
    | with_reducible exact Only.refl _ _ | exact rfl | intro _
    | with_reducible first
      | apply report_only | apply Dev.modCcp_only | apply markDone_only | apply settleFences_only | apply finish_only
      | apply runThread_only | apply putPolicy_only | apply revokeThrow_only | apply Only.ite | apply Only.each
      | apply OnlyO.some | apply OnlyO.none | apply OnlyO.getD | apply OnlyO.ite
    | with_reducible assumption)

theorem streamGen_only {l_ : List Part} {a_ : Dev} (d : Dev) (s gen : Nat) (district : Bool)
    (s_ : Part.sub [.out, .start, .evt, .sht, .ply, .dst] l_ = true) (k_ : Only l_ a_ d) :
    Only l_ a_ (streamGen d s gen district) := by
  refine Only.of ?_ s_ k_
  unfold streamGen
  try dsimp only
  repeat' (first
    | with_reducible exact Only.refl _ _ | exact rfl | intro _
    | with_reducible first
      | apply streamDelta_only | apply Only.ite)

theorem commitKey_only {l_ : List Part} {a_ : Dev} (d : Dev) (th s : Nat) (h : Half) (steps : Nat) (readBackOk verifyOk : Bool)
    (s_ : Part.sub [.free, .out, .start, .pra, .evt, .whl, .ccp, .sht, .ply, .dst, .img] l_ = true) (k_ : Only l_ a_ d) :
    Only l_ a_ (commitKey d th s h steps readBackOk verifyOk) := by
  refine Only.of ?_ s_ k_
  unfold commitKey
  try dsimp only
  repeat' (first
    | with_reducible exact Only.refl _ _ | exact rfl | intro _
    | with_reducible first
      | apply report_only | apply Dev.modDst_only | apply praFinish_only | apply loadHalf_only | apply dropCache_only
      | apply finish_only | apply streamGen_only | apply Only.ite | apply Only.each | apply OnlyO.some | apply OnlyO.none
      | apply OnlyO.getD | apply OnlyO.ite
    | with_reducible assumption
    | split
    | dsimp only
    | with_reducible refine Only.id ?_
    | refine OnlyO.get (by assumption) ?_
    | refine OnlyO.get1 (by assumption) ?_
    | refine Only.fst (by assumption) ?_)

theorem doKeyLoad_only {l_ : List Part} {a_ : Dev} (th : Nat) (unwrapOk readBackOk verifyOk : Bool) (steps : Nat) (d : Dev)
    (s_ : Part.sub [.free, .out, .start, .pra, .evt, .whl, .ccp, .sht, .ply, .dst, .img] l_ = true) (k_ : Only l_ a_ d) :
    Only l_ a_ (doKeyLoad th unwrapOk readBackOk verifyOk steps d) := by
  refine Only.of ?_ s_ k_
  unfold doKeyLoad
  try dsimp only
  repeat' (first
    | with_reducible exact Only.refl _ _ | exact rfl | intro _
    | with_reducible first
      | apply praDue_only | apply invoke_only | apply finish_only | apply runThread_only | apply commitKey_only
      | apply Only.ite | apply Only.each | apply OnlyO.some | apply OnlyO.none | apply OnlyO.getD | apply OnlyO.ite
    | with_reducible assumption
    | split)

theorem setAttr_only {l_ : List Part} {a_ : Dev} (d : Dev) (s : Nat) (attr : Word)
    (s_ : Part.sub [.dst] l_ = true) (k_ : Only l_ a_ d) :
    Only l_ a_ (setAttr d s attr) := by
  refine Only.of ?_ s_ k_
  unfold setAttr
  try dsimp only
  repeat' (first
    | with_reducible exact Only.refl _ _ | exact rfl | intro _
    | with_reducible apply Dev.modDst_only)

theorem doKeyAttr_only {l_ : List Part} {a_ : Dev} (th : Nat) (d : Dev)
    (s_ : Part.sub [.whl, .ccp, .ply, .dst, .img] l_ = true) (k_ : Only l_ a_ d) :
    Only l_ a_ (doKeyAttr th d) := by
  refine Only.of ?_ s_ k_
  unfold doKeyAttr
  try dsimp only
  repeat' (first
    | with_reducible exact Only.refl _ _ | exact rfl | intro _
    | with_reducible first
      | apply dropCache_only | apply finish_only | apply runThread_only | apply setAttr_only | apply Only.ite
      | apply Only.each | apply OnlyO.some | apply OnlyO.none | apply OnlyO.getD | apply OnlyO.ite
    | with_reducible assumption)

theorem eraseByCommand_only {l_ : List Part} {a_ : Dev} (d : Dev) (s : Nat) (verifyOk : Bool)
    (s_ : Part.sub [.out, .start, .pra, .evt, .sht, .ply, .dst] l_ = true) (k_ : Only l_ a_ d) :
    Only l_ a_ (eraseByCommand d s verifyOk).1 := by
  refine Only.of ?_ s_ k_
  unfold eraseByCommand
  try dsimp only
  repeat' (first
    | with_reducible exact Only.refl _ _ | exact rfl | intro _
    | with_reducible first
      | apply eraseSkein_only | apply streamGen_only)

theorem doKeyErase_only {l_ : List Part} {a_ : Dev} (th : Nat) (verifyOk : Bool) (d : Dev)
    (s_ : Part.sub [.out, .start, .pra, .evt, .whl, .ccp, .sht, .ply, .dst, .img] l_ = true) (k_ : Only l_ a_ d) :
    Only l_ a_ (doKeyErase th verifyOk d) := by
  refine Only.of ?_ s_ k_
  unfold doKeyErase
  try dsimp only
  repeat' (first
    | with_reducible exact Only.refl _ _ | exact rfl | intro _
    | with_reducible first
      | apply finish_only | apply runThread_only | apply eraseByCommand_only | apply Only.ite | apply Only.each
      | apply OnlyO.some | apply OnlyO.none | apply OnlyO.getD | apply OnlyO.ite
    | with_reducible assumption)

theorem heldKcv_only {l_ : List Part} {a_ : Dev} (d : Dev) (s : Nat)
    (s_ : Part.sub [.free] l_ = true) (k_ : Only l_ a_ d) :
    Only l_ a_ (heldKcv d s).2 := by
  refine Only.of ?_ s_ k_
  unfold heldKcv
  try dsimp only
  repeat' (first
    | with_reducible exact Only.refl _ _ | exact rfl | intro _
    | with_reducible first
      | apply Dev.draw_only | apply Only.ite | apply Only.each | apply OnlyO.some | apply OnlyO.none | apply OnlyO.getD
      | apply OnlyO.ite
    | with_reducible assumption
    | split)

theorem doKeyInfo_only {l_ : List Part} {a_ : Dev} (th : Nat) (d : Dev)
    (s_ : Part.sub [.free, .whl, .ccp, .ply, .img] l_ = true) (k_ : Only l_ a_ d) :
    Only l_ a_ (doKeyInfo th d) := by
  refine Only.of ?_ s_ k_
  unfold doKeyInfo
  try dsimp only
  repeat' (first
    | with_reducible exact Only.refl _ _ | exact rfl | intro _
    | with_reducible first
      | apply finish_only | apply runThread_only | apply heldKcv_only | apply Only.ite | apply Only.each | apply OnlyO.some
      | apply OnlyO.none | apply OnlyO.getD | apply OnlyO.ite
    | with_reducible assumption)

theorem doLifecycleSet_only {l_ : List Part} {a_ : Dev} (th : Nat) (verifyOk : Bool) (faults : List Nat) (upto : Option Nat)
    (d : Dev)
    (s_ : Part.sub [.out, .start, .pra, .evt, .whl, .ccp, .sht, .ply, .dst, .img] l_ = true) (k_ : Only l_ a_ d) :
    Only l_ a_ (doLifecycleSet th verifyOk faults upto d) := by
  refine Only.of ?_ s_ k_
  unfold doLifecycleSet
  try dsimp only
  repeat' (first
    | with_reducible exact Only.refl _ _ | exact rfl | intro _
    | with_reducible first
      | apply report_only | apply praOwn_only | apply finish_only | apply runThread_only | apply eraseByCommand_only
      | apply Only.ite | apply Only.each | apply OnlyO.some | apply OnlyO.none | apply OnlyO.getD | apply OnlyO.ite
    | with_reducible assumption
    | split
    | dsimp only
    | with_reducible refine Only.id ?_
    | refine OnlyO.get (by assumption) ?_
    | refine OnlyO.get1 (by assumption) ?_
    | refine Only.fst (by assumption) ?_)

theorem freshMask_only {l_ : List Part} {a_ : Dev} (d : Dev)
    (s_ : Part.sub [.free] l_ = true) (k_ : Only l_ a_ d) :
    Only l_ a_ (freshMask d).2 := by
  refine Only.of ?_ s_ k_
  unfold freshMask
  try dsimp only
  repeat' (first
    | with_reducible exact Only.refl _ _ | exact rfl | intro _
    | with_reducible apply Dev.draw_only)

theorem remaskSkein_only {l_ : List Part} {a_ : Dev} (d : Dev) (s : Nat)
    (s_ : Part.sub [.free, .dst] l_ = true) (k_ : Only l_ a_ d) :
    Only l_ a_ (remaskSkein d s) := by
  refine Only.of ?_ s_ k_
  unfold remaskSkein
  try dsimp only
  repeat' (first
    | with_reducible exact Only.refl _ _ | exact rfl | intro _
    | with_reducible first
      | apply Dev.modDst_only | apply freshMask_only | apply Only.ite | apply Only.each | apply OnlyO.some
      | apply OnlyO.none | apply OnlyO.getD | apply OnlyO.ite
    | with_reducible assumption
    | split)

theorem remaskRoot_only {l_ : List Part} {a_ : Dev} (d : Dev) (s : Nat)
    (s_ : Part.sub [.free, .dst] l_ = true) (k_ : Only l_ a_ d) :
    Only l_ a_ (remaskRoot d s) := by
  refine Only.of ?_ s_ k_
  unfold remaskRoot
  try dsimp only
  repeat' (first
    | with_reducible exact Only.refl _ _ | exact rfl | intro _
    | with_reducible first
      | apply Dev.modDst_only | apply freshMask_only)

theorem remaskCache_only {l_ : List Part} {a_ : Dev} (x : List Derived) (d : Dev) (s_ : Part.sub [.free] l_ = true)
    (k_ : Only l_ a_ d) :
    Only l_ a_ (remaskCache x d).2 := by
  induction x generalizing d with
  | nil => exact k_
  | cons e r ih => exact ih _ (Dev.draw_only _ (Part.sub_trans rfl s_) k_)

theorem doKeyRemask_only {l_ : List Part} {a_ : Dev} (d : Dev)
    (s_ : Part.sub [.free, .dst] l_ = true) (k_ : Only l_ a_ d) :
    Only l_ a_ (doKeyRemask d) := by
  refine Only.of ?_ s_ k_
  unfold doKeyRemask
  try dsimp only
  repeat' (first
    | with_reducible exact Only.refl _ _ | exact rfl | intro _
    | with_reducible first
      | apply Dev.modDst_only | apply remaskSkein_only | apply remaskRoot_only | apply remaskCache_only | apply Only.ite
      | apply Only.each)

theorem doRngHealthWindow_only {l_ : List Part} {a_ : Dev} (pass : Bool) (d : Dev)
    (s_ : Part.sub [.glb, .start, .evt, .dst] l_ = true) (k_ : Only l_ a_ d) :
    Only l_ a_ (doRngHealthWindow pass d) := by
  refine Only.of ?_ s_ k_
  unfold doRngHealthWindow
  try dsimp only
  repeat' (first
    | with_reducible exact Only.refl _ _ | exact rfl | intro _
    | with_reducible first
      | apply report_only | apply Dev.modDst_only | apply selfTestLive_only | apply Only.ite)

theorem imgFinish_only {l_ : List Part} {a_ : Dev} (d : Dev) (th : Nat) (st : Status) (res : List Byte)
    (s_ : Part.sub [.whl, .ccp, .ply, .img] l_ = true) (k_ : Only l_ a_ d) :
    Only l_ a_ (imgFinish d th st res) := by
  refine Only.of ?_ s_ k_
  unfold imgFinish
  try dsimp only
  repeat' (first
    | with_reducible exact Only.refl _ _ | exact rfl | intro _
    | with_reducible first
      | apply Dev.modImg_only | apply finish_only)

theorem setReel_only {l_ : List Part} {a_ : Dev} (d : Dev) (n : Nat) (r : Reel)
    (s_ : Part.sub [.start] l_ = true) (k_ : Only l_ a_ d) :
    Only l_ a_ (setReel d n r) := by
  refine Only.of ?_ s_ k_
  unfold setReel
  try dsimp only
  repeat' (first
    | with_reducible exact Only.refl _ _ | exact rfl | intro _
    | fail_if_no_progress (with_reducible refine Only.rec_start rfl ?_))

theorem stageBegin_only {l_ : List Part} {a_ : Dev} (d : Dev) (th n : Nat) (r : Reel) (st : Status)
    (s_ : Part.sub [.start, .whl, .ccp, .ply, .img] l_ = true) (k_ : Only l_ a_ d) :
    Only l_ a_ (stageBegin d th n r st) := by
  refine Only.of ?_ s_ k_
  unfold stageBegin
  try dsimp only
  repeat' (first
    | with_reducible exact Only.refl _ _ | exact rfl | intro _
    | with_reducible first
      | apply Dev.modImg_only | apply imgFinish_only | apply setReel_only | apply Only.ite)

theorem doReelStage_only {l_ : List Part} {a_ : Dev} (th : Nat) (card : Card) (verifyOk : Bool) (d : Dev)
    (s_ : Part.sub [.start, .pra, .evt, .whl, .ccp, .ply, .img] l_ = true) (k_ : Only l_ a_ d) :
    Only l_ a_ (doReelStage th card verifyOk d) := by
  refine Only.of ?_ s_ k_
  unfold doReelStage
  try dsimp only
  repeat' (first
    | with_reducible exact Only.refl _ _ | exact rfl | intro _
    | with_reducible first
      | apply Dev.modImg_only | apply praDue_only | apply praOwn_only | apply runThread_only | apply imgFinish_only
      | apply stageBegin_only | apply Only.ite | apply Only.each | apply OnlyO.some | apply OnlyO.none | apply OnlyO.getD
      | apply OnlyO.ite
    | with_reducible assumption
    | split)

theorem stageDone_only {l_ : List Part} {a_ : Dev} (d : Dev) (g : Stage) (verifyOk : Bool)
    (s_ : Part.sub [.start, .pra, .evt, .whl, .ccp, .ply, .img] l_ = true) (k_ : Only l_ a_ d) :
    Only l_ a_ (stageDone d g verifyOk) := by
  refine Only.of ?_ s_ k_
  unfold stageDone
  try dsimp only
  repeat' (first
    | with_reducible exact Only.refl _ _ | exact rfl | intro _
    | with_reducible first
      | apply report_only | apply Dev.modImg_only | apply praOwn_only | apply refreshBanks_only | apply stageFail_only
      | apply imgFinish_only | apply Only.ite | apply Only.each | apply OnlyO.some | apply OnlyO.none | apply OnlyO.getD
      | apply OnlyO.ite
    | with_reducible assumption
    | split
    | dsimp only
    | with_reducible refine Only.id ?_
    | refine OnlyO.get (by assumption) ?_
    | refine OnlyO.get1 (by assumption) ?_
    | refine Only.fst (by assumption) ?_)

theorem doReelStageBlock_only {l_ : List Part} {a_ : Dev} (cardOk blockOk flashOk bankSigOk bankBlocksOk verifyOk : Bool)
    (d : Dev)
    (s_ : Part.sub [.start, .pra, .evt, .whl, .ccp, .ply, .img] l_ = true) (k_ : Only l_ a_ d) :
    Only l_ a_ (doReelStageBlock cardOk blockOk flashOk bankSigOk bankBlocksOk verifyOk d) := by
  refine Only.of ?_ s_ k_
  unfold doReelStageBlock
  try dsimp only
  repeat' (first
    | with_reducible exact Only.refl _ _ | exact rfl | intro _
    | with_reducible first
      | apply Dev.modImg_only | apply stageFail_only | apply stageDone_only | apply Only.ite | apply Only.each
      | apply OnlyO.some | apply OnlyO.none | apply OnlyO.getD | apply OnlyO.ite
    | with_reducible assumption
    | split)

theorem activateNow_only {l_ : List Part} {a_ : Dev} (d : Dev) (th bank : Nat) (alone verifyOk : Bool)
    (s_ : Part.sub [.free, .out, .glb, .start, .pra, .evt, .whl, .spn, .wrp, .ccp, .sht, .ply, .dst, .img, .bob] l_ = true) (k_ : Only l_ a_ d) :
    Only l_ a_ (activateNow d th bank alone verifyOk) := by
  refine Only.of ?_ s_ k_
  unfold activateNow
  try dsimp only
  repeat' (first
    | with_reducible exact Only.refl _ _ | exact rfl | intro _
    | with_reducible first
      | apply report_only | apply Dev.modGlb_only | apply Dev.modImg_only | apply praOwn_only | apply changePower_only
      | apply imgFinish_only | apply Only.ite | apply Only.each | apply OnlyO.some | apply OnlyO.none | apply OnlyO.getD
      | apply OnlyO.ite
    | with_reducible assumption
    | split
    | dsimp only
    | with_reducible refine Only.id ?_
    | refine OnlyO.get (by assumption) ?_
    | refine OnlyO.get1 (by assumption) ?_
    | refine Only.fst (by assumption) ?_)

theorem doReelActivateExecute_only {l_ : List Part} {a_ : Dev} (verifyOk : Bool) (d : Dev)
    (s_ : Part.sub [.free, .out, .glb, .start, .pra, .evt, .whl, .spn, .wrp, .ccp, .sht, .ply, .dst, .img, .bob] l_ = true) (k_ : Only l_ a_ d) :
    Only l_ a_ (doReelActivateExecute verifyOk d) := by
  refine Only.of ?_ s_ k_
  unfold doReelActivateExecute
  try dsimp only
  repeat' (first
    | with_reducible exact Only.refl _ _ | exact rfl | intro _
    | with_reducible first
      | apply runThread_only | apply activateNow_only | apply Only.ite | apply Only.each | apply OnlyO.some
      | apply OnlyO.none | apply OnlyO.getD | apply OnlyO.ite
    | with_reducible assumption
    | split)

theorem doOwnerLock_only {l_ : List Part} {a_ : Dev} (th : Nat) (verifyOk : Bool) (d : Dev)
    (s_ : Part.sub [.start, .pra, .evt, .whl, .ccp, .ply, .img] l_ = true) (k_ : Only l_ a_ d) :
    Only l_ a_ (doOwnerLock th verifyOk d) := by
  refine Only.of ?_ s_ k_
  unfold doOwnerLock
  try dsimp only
  repeat' (first
    | with_reducible exact Only.refl _ _ | exact rfl | intro _
    | with_reducible first
      | apply report_only | apply praOwn_only | apply runThread_only | apply imgFinish_only | apply Only.ite
      | apply Only.each | apply OnlyO.some | apply OnlyO.none | apply OnlyO.getD | apply OnlyO.ite
    | with_reducible assumption
    | split
    | dsimp only
    | with_reducible refine Only.id ?_
    | refine OnlyO.get (by assumption) ?_
    | refine OnlyO.get1 (by assumption) ?_
    | refine Only.fst (by assumption) ?_)

end Sys2Proof.Machine
end

