-- ==== Sys2Proof/Laws/FramesAccess.lean ====
section
/-! SUPPORT. What register accesses, persistent writes, the service port, the picker and the configuration may change. -/

namespace Sys2Proof.Machine

set_option Elab.async false
set_option linter.unusedTactic false

theorem writeBob_only {l_ : List Part} {a_ : Dev} (d : Dev) (o : Nat) (v : Word)
    (s_ : Part.sub [.spn, .bob] l_ = true) (k_ : Only l_ a_ d) :
    OnlyO l_ a_ (writeBob d o v) := by
  refine OnlyO.of ?_ s_ k_
  unfold writeBob
  try dsimp only
  repeat' (first
    | with_reducible exact Only.refl _ _ | exact rfl | intro _
    | with_reducible first
      | apply writeBobCtrl_only | apply writeBobErr_only | apply writeBobHwm_only | apply Only.ite | apply Only.each
      | apply OnlyO.some | apply OnlyO.none | apply OnlyO.getD | apply OnlyO.ite
    | with_reducible assumption
    | split)

theorem writeRo_only {l_ : List Part} {a_ : Dev} (d : Dev) (r : Option Word)
    (s_ : Part.sub [] l_ = true) (k_ : Only l_ a_ d) :
    OnlyO l_ a_ (writeRo d r) := by
  refine OnlyO.of ?_ s_ k_
  unfold writeRo
  try dsimp only
  repeat' (first
    | with_reducible exact Only.refl _ _ | exact rfl | intro _
    | with_reducible first
      | apply Only.ite | apply Only.each | apply OnlyO.some | apply OnlyO.none | apply OnlyO.getD | apply OnlyO.ite)

theorem writeBlock_only {l_ : List Part} {a_ : Dev} (d : Dev) (b : Block) (o : Nat) (v : Word)
    (s_ : Part.sub [.free, .out, .start, .evt, .whl, .spn, .wrp, .ccp, .sht, .que, .crd, .ply, .dst, .img, .bob] l_ = true) (k_ : Only l_ a_ d) :
    OnlyO l_ a_ (writeBlock d b o v) := by
  refine OnlyO.of ?_ s_ k_
  unfold writeBlock
  try dsimp only
  repeat' (first
    | with_reducible exact Only.refl _ _ | exact rfl | intro _
    | with_reducible first
      | apply writeQue_only | apply writeCrd_only | apply writeSht_only | apply writeWhl_only | apply writeSpn_only
      | apply writeWrp_only | apply writePly_only | apply writeThr_only | apply writeCcp_only | apply writeEvt_only
      | apply writeBob_only | apply writeRo_only | apply Only.ite | apply Only.each | apply OnlyO.some | apply OnlyO.none
      | apply OnlyO.getD | apply OnlyO.ite
    | with_reducible assumption
    | split)

theorem unmapped_only {l_ : List Part} {a_ : Dev} (d : Dev) (a access : Nat)
    (s_ : Part.sub [.start, .evt] l_ = true) (k_ : Only l_ a_ d) :
    Only l_ a_ (unmapped d a access) := by
  refine Only.of ?_ s_ k_
  unfold unmapped
  try dsimp only
  repeat' (first
    | with_reducible exact Only.refl _ _ | exact rfl | intro _
    | with_reducible apply report_only)

theorem readAt_only {l_ : List Part} {a_ : Dev} (d : Dev) (a : Nat)
    (s_ : Part.sub [.start, .evt] l_ = true) (k_ : Only l_ a_ d) :
    Only l_ a_ (readAt d a).2 := by
  refine Only.of ?_ s_ k_
  unfold readAt
  try dsimp only
  repeat' (first
    | with_reducible exact Only.refl _ _ | exact rfl | intro _
    | with_reducible first
      | apply unmapped_only | apply Only.ite | apply Only.each | apply OnlyO.some | apply OnlyO.none | apply OnlyO.getD
      | apply OnlyO.ite
    | with_reducible assumption
    | split)

theorem writeAt_only {l_ : List Part} {a_ : Dev} (d : Dev) (a : Nat) (v : Word)
    (s_ : Part.sub [.free, .out, .start, .evt, .whl, .spn, .wrp, .ccp, .sht, .que, .crd, .ply, .dst, .img, .bob] l_ = true) (k_ : Only l_ a_ d) :
    Only l_ a_ (writeAt d a v).1 := by
  refine Only.of ?_ s_ k_
  unfold writeAt
  try dsimp only
  repeat' (first
    | with_reducible exact Only.refl _ _ | exact rfl | intro _
    | with_reducible first
      | apply writeBlock_only | apply unmapped_only | apply Only.ite | apply Only.each | apply OnlyO.some | apply OnlyO.none
      | apply OnlyO.getD | apply OnlyO.ite
    | with_reducible assumption
    | split
    | dsimp only
    | with_reducible refine Only.id ?_
    | refine OnlyO.get (by assumption) ?_)

theorem praAsk_only {l_ : List Part} {a_ : Dev} (d : Dev) (n : Nat) (v : Word) (w : PraWriter)
    (s_ : Part.sub [.pra] l_ = true) (k_ : Only l_ a_ d) :
    Only l_ a_ (praAsk d n v w) := by
  refine Only.of ?_ s_ k_
  unfold praAsk
  try dsimp only
  repeat' (first
    | with_reducible exact Only.refl _ _ | exact rfl | intro _
    | with_reducible apply Dev.modPra_only)

theorem doRegisterWrite_only {l_ : List Part} {a_ : Dev} (a : Nat) (v : Word) (d : Dev)
    (s_ : Part.sub [.free, .out, .start, .pra, .evt, .whl, .spn, .wrp, .ccp, .sht, .que, .crd, .ply, .dst, .img, .bob] l_ = true) (k_ : Only l_ a_ d) :
    Only l_ a_ (doRegisterWrite a v d) := by
  refine Only.of ?_ s_ k_
  unfold doRegisterWrite
  try dsimp only
  repeat' (first
    | with_reducible exact Only.refl _ _ | exact rfl | intro _
    | with_reducible refine regRow_only (by beta_reduce; exact rfl) ?_ ?_ ?_
    | with_reducible first
      | apply writeAt_only | apply praAsk_only | apply Only.ite | apply Only.each | apply OnlyO.some | apply OnlyO.none
      | apply OnlyO.getD | apply OnlyO.ite
    | with_reducible assumption
    | split)

theorem readRun_only {l_ : List Part} {a_ : Dev} (d : Dev) (a n : Nat) (s_ : Part.sub [.start, .evt] l_ = true)
    (k_ : Only l_ a_ d) :
    Only l_ a_ (readRun d a n).2 := by
  unfold readRun
  suffices h : ∀ (xs : List Nat) (x : List Byte × Dev), Only l_ a_ x.2 → Only l_ a_ (xs.foldl (fun x i => let (v, d) := readAt x.2 (a + 4 * i); (x.1 ++ octets 4 v.toNat, d)) x).2 from h _ _ k_
  intro xs
  induction xs with
  | nil => exact fun _ h => h
  | cons i r ih => exact fun x h => ih _ (readAt_only _ _ (Part.sub_trans (p := [.start, .evt]) rfl s_) h)

theorem doRegRead_only {l_ : List Part} {a_ : Dev} (th : Nat) (d : Dev)
    (s_ : Part.sub [.start, .evt, .whl, .ccp, .ply, .img] l_ = true) (k_ : Only l_ a_ d) :
    Only l_ a_ (doRegRead th d) := by
  refine Only.of ?_ s_ k_
  unfold doRegRead
  try dsimp only
  repeat' (first
    | with_reducible exact Only.refl _ _ | exact rfl | intro _
    | with_reducible first
      | apply finish_only | apply runThread_only | apply readRun_only | apply Only.ite | apply Only.each | apply OnlyO.some
      | apply OnlyO.none | apply OnlyO.getD | apply OnlyO.ite
    | with_reducible assumption)

theorem writePairs_only {l_ : List Part} {a_ : Dev} (th n : Nat) (x : List (Nat × Word)) (d : Dev)
    (s_ : Part.sub [.free, .out, .start, .pra, .evt, .whl, .spn, .wrp, .ccp, .sht, .que, .crd, .ply, .dst, .img, .bob] l_ = true) (k_ : Only l_ a_ d) :
    Only l_ a_ (writePairs th n x d) := by
  induction x generalizing n d with
  | nil => exact finish_only _ _ _ _ (Part.sub_trans (p := [.whl, .ccp, .ply, .img]) rfl s_) k_
  | cons x r ih =>
    have kw := writeAt_only d x.1 x.2 (Part.sub_trans (p := [.free, .out, .start, .evt, .whl, .spn, .wrp, .ccp, .sht, .que, .crd, .ply, .dst, .img, .bob]) rfl s_) k_
    unfold writePairs
    split
    · exact praAsk_only _ _ _ _ (Part.sub_trans (p := [.pra]) rfl s_) (Dev.modThread_only _ _ _ (Part.sub_trans (p := [.ccp]) rfl s_) k_)
    · split
      · rename_i e
        exact ih _ _ (Only.fst e kw)
      · rename_i e
        exact finish_only _ _ _ _ (Part.sub_trans (p := [.whl, .ccp, .ply, .img]) rfl s_) (Only.fst e kw)

theorem doRegWrite_only {l_ : List Part} {a_ : Dev} (th : Nat) (d : Dev)
    (s_ : Part.sub [.free, .out, .start, .pra, .evt, .whl, .spn, .wrp, .ccp, .sht, .que, .crd, .ply, .dst, .img, .bob] l_ = true) (k_ : Only l_ a_ d) :
    Only l_ a_ (doRegWrite th d) := by
  refine Only.of ?_ s_ k_
  unfold doRegWrite
  try dsimp only
  repeat' (first
    | with_reducible exact Only.refl _ _ | exact rfl | intro _
    | with_reducible first
      | apply runThread_only | apply writePairs_only | apply Only.ite | apply Only.each | apply OnlyO.some
      | apply OnlyO.none | apply OnlyO.getD | apply OnlyO.ite
    | with_reducible assumption)

theorem praAnswer_only {l_ : List Part} {a_ : Dev} (d : Dev) (w : PraWriter) (st : Status)
    (s_ : Part.sub [.free, .out, .start, .pra, .evt, .whl, .spn, .wrp, .ccp, .sht, .que, .crd, .ply, .dst, .img, .bob] l_ = true) (k_ : Only l_ a_ d) :
    Only l_ a_ (praAnswer d w st) := by
  refine Only.of ?_ s_ k_
  unfold praAnswer
  try dsimp only
  repeat' (first
    | with_reducible exact Only.refl _ _ | exact rfl | intro _
    | with_reducible first
      | apply Dev.emit_only | apply finish_only | apply svcReply_only | apply writePairs_only | apply Only.ite
      | apply Only.each | apply OnlyO.some | apply OnlyO.none | apply OnlyO.getD | apply OnlyO.ite
    | with_reducible assumption
    | split)

theorem doPraWriteBegin_only {l_ : List Part} {a_ : Dev} (d : Dev)
    (s_ : Part.sub [.free, .out, .start, .pra, .evt, .whl, .spn, .wrp, .ccp, .sht, .que, .crd, .ply, .dst, .img, .bob] l_ = true) (k_ : Only l_ a_ d) :
    Only l_ a_ (doPraWriteBegin d) := by
  refine Only.of ?_ s_ k_
  unfold doPraWriteBegin
  try dsimp only
  repeat' (first
    | with_reducible exact Only.refl _ _ | exact rfl | intro _
    | with_reducible first
      | apply Dev.modPra_only | apply praDue_only | apply praRefuse_only | apply praAnswer_only | apply Only.ite
      | apply Only.each | apply OnlyO.some | apply OnlyO.none | apply OnlyO.getD | apply OnlyO.ite
    | with_reducible assumption
    | split)

theorem doPraWriteComplete_only {l_ : List Part} {a_ : Dev} (verifyOk : Bool) (d : Dev)
    (s_ : Part.sub [.free, .out, .start, .pra, .evt, .whl, .spn, .wrp, .ccp, .sht, .que, .crd, .ply, .dst, .img, .bob] l_ = true) (k_ : Only l_ a_ d) :
    Only l_ a_ (doPraWriteComplete verifyOk d) := by
  refine Only.of ?_ s_ k_
  unfold doPraWriteComplete
  try dsimp only
  repeat' (first
    | with_reducible exact Only.refl _ _ | exact rfl | intro _
    | with_reducible first
      | apply Dev.modPra_only | apply praDue_only | apply praFinish_only | apply praAnswer_only | apply Only.ite
      | apply Only.each | apply OnlyO.some | apply OnlyO.none | apply OnlyO.getD | apply OnlyO.ite
    | with_reducible assumption
    | split)

theorem doPraTokenRefill_only {l_ : List Part} {a_ : Dev} (d : Dev)
    (s_ : Part.sub [.pra, .evt] l_ = true) (k_ : Only l_ a_ d) :
    Only l_ a_ (doPraTokenRefill d) := by
  refine Only.of ?_ s_ k_
  unfold doPraTokenRefill
  try dsimp only
  repeat' (first
    | with_reducible exact Only.refl _ _ | exact rfl | intro _
    | with_reducible first
      | apply praDue_only | apply Only.ite)

theorem doPraLifeUpdate_only {l_ : List Part} {a_ : Dev} (verifyOk : Bool) (d : Dev)
    (s_ : Part.sub [.start, .pra, .evt] l_ = true) (k_ : Only l_ a_ d) :
    Only l_ a_ (doPraLifeUpdate verifyOk d) := by
  refine Only.of ?_ s_ k_
  unfold doPraLifeUpdate
  try dsimp only
  repeat' (first
    | with_reducible exact Only.refl _ _ | exact rfl | intro _
    | with_reducible first
      | apply Dev.modPra_only | apply praDue_only | apply praSkip_only | apply Only.ite)

theorem svcRequest_only {l_ : List Part} {a_ : Dev} {type : Nat} {seq : BitVec 8} {rom firmware : Bool} {f : Dev → Dev}
    {d : Dev} (s_ : Part.sub [.out, .img] l_ = true) (k_ : Only l_ a_ d)
    (h_ : ∀ e, Only l_ a_ e → Only l_ a_ (f e)) :
    Only l_ a_ (svcRequest d type seq rom firmware f) := by
  have s1 : Part.sub [.out, .img] l_ = true := Part.sub_trans rfl s_
  have s2 : Part.sub [.img] l_ = true := Part.sub_trans rfl s_
  have s3 : Part.sub [.out] l_ = true := Part.sub_trans rfl s_
  have k1 := Dev.modImg_only d (fun i => { i with baudUntil := none }) s2 k_
  have fresh : ∀ e, Only l_ a_ e → Only l_ a_ (if (if e.phase = .recovery then rom else firmware) then f e else svcReply e type seq .unknownOp []) := by
    intro e he
    split <;> split <;> first | exact h_ _ he | exact svcReply_only _ _ _ _ _ s1 he
  unfold svcRequest
  split
  · exact k_
  dsimp only
  split
  · split
    · exact svcSend_only _ _ _ _ _ s3 k1
    · exact fresh _ k1
  · exact fresh _ k1

theorem doHello_only {l_ : List Part} {a_ : Dev} (seq : BitVec 8) (d : Dev)
    (s_ : Part.sub [.out, .img] l_ = true) (k_ : Only l_ a_ d) :
    Only l_ a_ (doHello seq d) := by
  refine Only.of ?_ s_ k_
  unfold doHello
  try dsimp only
  repeat' (first
    | with_reducible exact Only.refl _ _ | exact rfl | intro _
    | with_reducible first
      | apply svcReply_only | apply svcRequest_only | apply Only.ite | apply Only.each | apply OnlyO.some | apply OnlyO.none
      | apply OnlyO.getD | apply OnlyO.ite
    | with_reducible assumption)

theorem doSetBaud_only {l_ : List Part} {a_ : Dev} (seq : BitVec 8) (rate : Nat) (d : Dev)
    (s_ : Part.sub [.out, .img] l_ = true) (k_ : Only l_ a_ d) :
    Only l_ a_ (doSetBaud seq rate d) := by
  refine Only.of ?_ s_ k_
  unfold doSetBaud
  try dsimp only
  repeat' (first
    | with_reducible exact Only.refl _ _ | exact rfl | intro _
    | with_reducible first
      | apply Dev.modImg_only | apply svcReply_only | apply svcRequest_only | apply Only.ite | apply Only.each
      | apply OnlyO.some | apply OnlyO.none | apply OnlyO.getD | apply OnlyO.ite
    | with_reducible assumption)

theorem doSetBaudRevert_only {l_ : List Part} {a_ : Dev} (d : Dev)
    (s_ : Part.sub [.img] l_ = true) (k_ : Only l_ a_ d) :
    Only l_ a_ (doSetBaudRevert d) := by
  refine Only.of ?_ s_ k_
  unfold doSetBaudRevert
  try dsimp only
  repeat' (first
    | with_reducible exact Only.refl _ _ | exact rfl | intro _
    | with_reducible first
      | apply Dev.modImg_only | apply Only.ite | apply Only.each | apply OnlyO.some | apply OnlyO.none | apply OnlyO.getD
      | apply OnlyO.ite
    | with_reducible assumption
    | split)

theorem doSvcRegRead_only {l_ : List Part} {a_ : Dev} (seq : BitVec 8) (addr count : Nat) (d : Dev)
    (s_ : Part.sub [.out, .start, .evt, .img] l_ = true) (k_ : Only l_ a_ d) :
    Only l_ a_ (doSvcRegRead seq addr count d) := by
  refine Only.of ?_ s_ k_
  unfold doSvcRegRead
  try dsimp only
  repeat' (first
    | with_reducible exact Only.refl _ _ | exact rfl | intro _
    | with_reducible first
      | apply svcReply_only | apply readRun_only | apply svcRequest_only | apply Only.ite | apply Only.each
      | apply OnlyO.some | apply OnlyO.none | apply OnlyO.getD | apply OnlyO.ite
    | with_reducible assumption)

theorem doSvcRegWrite_only {l_ : List Part} {a_ : Dev} (seq : BitVec 8) (addr : Nat) (v : Word) (d : Dev)
    (s_ : Part.sub [.free, .out, .start, .pra, .evt, .whl, .spn, .wrp, .ccp, .sht, .que, .crd, .ply, .dst, .img, .bob] l_ = true) (k_ : Only l_ a_ d) :
    Only l_ a_ (doSvcRegWrite seq addr v d) := by
  refine Only.of ?_ s_ k_
  unfold doSvcRegWrite
  try dsimp only
  repeat' (first
    | with_reducible exact Only.refl _ _ | exact rfl | intro _
    | with_reducible first
      | apply svcReply_only | apply writeAt_only | apply praAsk_only | apply svcRequest_only | apply Only.ite
      | apply Only.each | apply OnlyO.some | apply OnlyO.none | apply OnlyO.getD | apply OnlyO.ite
    | with_reducible assumption
    | split)

theorem doQuote_only {l_ : List Part} {a_ : Dev} (seq : BitVec 8) (nonce : BitVec 256) (d : Dev)
    (s_ : Part.sub [.out, .start, .evt, .dst, .img] l_ = true) (k_ : Only l_ a_ d) :
    Only l_ a_ (doQuote seq nonce d) := by
  refine Only.of ?_ s_ k_
  unfold doQuote
  try dsimp only
  repeat' (first
    | with_reducible exact Only.refl _ _ | exact rfl | intro _
    | with_reducible first
      | apply Dev.modDst_only | apply answerQuote_only | apply svcRequest_only | apply Only.ite | apply Only.each
      | apply OnlyO.some | apply OnlyO.none | apply OnlyO.getD | apply OnlyO.ite
    | with_reducible assumption)

theorem doServiceFrameGap_only {l_ : List Part} {a_ : Dev} (d : Dev)
    (s_ : Part.sub [] l_ = true) (k_ : Only l_ a_ d) :
    Only l_ a_ (doServiceFrameGap d) := by
  refine Only.of ?_ s_ k_
  unfold doServiceFrameGap
  try dsimp only
  repeat' (first
    | with_reducible exact Only.refl _ _)

theorem clearInactive_only {l_ : List Part} {a_ : Dev} (d : Dev) (r : Reel) (verifyOk : Bool)
    (s_ : Part.sub [.pwr, .glb, .start, .pra, .evt, .whl] l_ = true) (k_ : Only l_ a_ d) :
    Only l_ a_ (clearInactive d r verifyOk).1 := by
  refine Only.of ?_ s_ k_
  unfold clearInactive
  try dsimp only
  repeat' (first
    | with_reducible exact Only.refl _ _ | exact rfl | intro _
    | with_reducible first
      | apply praWait_only | apply Only.ite | apply Only.each | apply OnlyO.some | apply OnlyO.none | apply OnlyO.getD
      | apply OnlyO.ite
    | with_reducible assumption
    | split)

theorem endTransfer_only {l_ : List Part} {a_ : Dev} (d : Dev)
    (s_ : Part.sub [.img] l_ = true) (k_ : Only l_ a_ d) :
    Only l_ a_ (endTransfer d) := by
  refine Only.of ?_ s_ k_
  unfold endTransfer
  try dsimp only
  repeat' (first
    | with_reducible exact Only.refl _ _ | exact rfl | intro _
    | with_reducible apply Dev.modImg_only)

theorem failTransfer_only {l_ : List Part} {a_ : Dev} (d : Dev) (type : Nat) (seq : BitVec 8) (st : Status)
    (s_ : Part.sub [.out, .img] l_ = true) (k_ : Only l_ a_ d) :
    Only l_ a_ (failTransfer d type seq st) := by
  refine Only.of ?_ s_ k_
  unfold failTransfer
  try dsimp only
  repeat' (first
    | with_reducible exact Only.refl _ _ | exact rfl | intro _
    | with_reducible first
      | apply svcReply_only | apply endTransfer_only)

theorem extendMd6_only {l_ : List Part} {a_ : Dev} (d : Dev) (item : BitVec 384)
    (s_ : Part.sub [.dst] l_ = true) (k_ : Only l_ a_ d) :
    Only l_ a_ (extendMd6 d item) := by
  refine Only.of ?_ s_ k_
  unfold extendMd6
  try dsimp only
  repeat' (first
    | with_reducible exact Only.refl _ _ | exact rfl | intro _
    | with_reducible apply Dev.modDst_only)

theorem acceptImage_only {l_ : List Part} {a_ : Dev} (d : Dev) (r : Reel) (verifyOk : Bool)
    (s_ : Part.sub [.pwr, .glb, .start, .pra, .evt, .whl, .dst, .img] l_ = true) (k_ : Only l_ a_ d) :
    Only l_ a_ (acceptImage d r verifyOk).1 := by
  refine Only.of ?_ s_ k_
  unfold acceptImage
  try dsimp only
  repeat' (first
    | with_reducible exact Only.refl _ _ | exact rfl | intro _
    | with_reducible first
      | apply Dev.modImg_only | apply praWait_only | apply extendMd6_only | apply Only.ite | apply Only.each
      | apply OnlyO.some | apply OnlyO.none | apply OnlyO.getD | apply OnlyO.ite
    | with_reducible assumption
    | split
    | dsimp only
    | with_reducible refine Only.id ?_
    | refine OnlyO.get (by assumption) ?_
    | refine OnlyO.get1 (by assumption) ?_
    | refine Only.fst (by assumption) ?_)

theorem doImgBegin_only {l_ : List Part} {a_ : Dev} (seq : BitVec 8) (size : Nat) (d : Dev)
    (s_ : Part.sub [.out, .img] l_ = true) (k_ : Only l_ a_ d) :
    Only l_ a_ (doImgBegin seq size d) := by
  refine Only.of ?_ s_ k_
  unfold doImgBegin
  try dsimp only
  repeat' (first
    | with_reducible exact Only.refl _ _ | exact rfl | intro _
    | with_reducible first
      | apply Dev.modImg_only | apply svcReply_only | apply svcRequest_only | apply Only.ite | apply Only.each
      | apply OnlyO.some | apply OnlyO.none | apply OnlyO.getD | apply OnlyO.ite
    | with_reducible assumption)

theorem takeHead_only {l_ : List Part} {a_ : Dev} (d : Dev) (seq : BitVec 8) (x : Transfer) (r : Reel) (flashOk verifyOk : Bool)
    (s_ : Part.sub [.out, .pwr, .glb, .start, .pra, .evt, .whl, .img] l_ = true) (k_ : Only l_ a_ d) :
    Only l_ a_ (takeHead d seq x r flashOk verifyOk) := by
  refine Only.of ?_ s_ k_
  unfold takeHead
  try dsimp only
  repeat' (first
    | with_reducible exact Only.refl _ _ | exact rfl | intro _
    | with_reducible first
      | apply Dev.modImg_only | apply svcReply_only | apply clearInactive_only | apply failTransfer_only | apply Only.ite
      | apply Only.each | apply OnlyO.some | apply OnlyO.none | apply OnlyO.getD | apply OnlyO.ite
    | with_reducible assumption
    | split
    | dsimp only
    | with_reducible refine Only.id ?_
    | refine OnlyO.get (by assumption) ?_
    | refine OnlyO.get1 (by assumption) ?_
    | refine Only.fst (by assumption) ?_)

theorem doImgData_only {l_ : List Part} {a_ : Dev} (seq : BitVec 8) (offset count : Nat) (head : Reel)
    (blockOk flashOk verifyOk : Bool) (d : Dev)
    (s_ : Part.sub [.out, .pwr, .glb, .start, .pra, .evt, .whl, .img] l_ = true) (k_ : Only l_ a_ d) :
    Only l_ a_ (doImgData seq offset count head blockOk flashOk verifyOk d) := by
  refine Only.of ?_ s_ k_
  unfold doImgData
  try dsimp only
  repeat' (first
    | with_reducible exact Only.refl _ _ | exact rfl | intro _
    | with_reducible first
      | apply Dev.modImg_only | apply svcReply_only | apply svcRequest_only | apply failTransfer_only | apply takeHead_only
      | apply Only.ite | apply Only.each | apply OnlyO.some | apply OnlyO.none | apply OnlyO.getD | apply OnlyO.ite
    | with_reducible assumption
    | split)

theorem doImgEnd_only {l_ : List Part} {a_ : Dev} (seq : BitVec 8) (sigOk blocksOk verifyOk : Bool) (d : Dev)
    (s_ : Part.sub [.out, .pwr, .glb, .start, .pra, .evt, .whl, .dst, .img] l_ = true) (k_ : Only l_ a_ d) :
    Only l_ a_ (doImgEnd seq sigOk blocksOk verifyOk d) := by
  refine Only.of ?_ s_ k_
  unfold doImgEnd
  try dsimp only
  repeat' (first
    | with_reducible exact Only.refl _ _ | exact rfl | intro _
    | with_reducible first
      | apply svcReply_only | apply svcRequest_only | apply endTransfer_only | apply failTransfer_only
      | apply acceptImage_only | apply Only.ite | apply Only.each | apply OnlyO.some | apply OnlyO.none | apply OnlyO.getD
      | apply OnlyO.ite
    | with_reducible assumption
    | split)

theorem doRecoveryCardRead_only {l_ : List Part} {a_ : Dev} (card : Card) (verifyOk : Bool) (d : Dev)
    (s_ : Part.sub [.pwr, .glb, .start, .pra, .evt, .whl, .dst, .img] l_ = true) (k_ : Only l_ a_ d) :
    Only l_ a_ (doRecoveryCardRead card verifyOk d) := by
  refine Only.of ?_ s_ k_
  unfold doRecoveryCardRead
  try dsimp only
  repeat' (first
    | with_reducible exact Only.refl _ _ | exact rfl | intro _
    | with_reducible first
      | apply Dev.modPwr_only | apply Dev.modImg_only | apply clearInactive_only | apply acceptImage_only | apply Only.ite
      | apply Only.each | apply OnlyO.some | apply OnlyO.none | apply OnlyO.getD | apply OnlyO.ite
    | with_reducible assumption
    | split
    | dsimp only
    | with_reducible refine Only.id ?_
    | refine OnlyO.get (by assumption) ?_
    | refine OnlyO.get1 (by assumption) ?_
    | refine Only.fst (by assumption) ?_)

theorem noticePacket_only {l_ : List Part} {a_ : Dev} (l : List LogEntry) (n lost : Nat) (x : Nat × Identity) (d : Dev) (j : Nat)
    (s_ : Part.sub [.out, .start, .evt, .ccp, .dst] l_ = true) (k_ : Only l_ a_ d) :
    Only l_ a_ (noticePacket l n lost x d j) := by
  refine Only.of ?_ s_ k_
  unfold noticePacket
  try dsimp only
  repeat' (first
    | with_reducible exact Only.refl _ _ | exact rfl | intro _
    | with_reducible apply ccpSend_only)

theorem doNoticeSend_only {l_ : List Part} {a_ : Dev} (d : Dev)
    (s_ : Part.sub [.out, .start, .evt, .ccp, .dst] l_ = true) (k_ : Only l_ a_ d) :
    Only l_ a_ (doNoticeSend d) := by
  refine Only.of ?_ s_ k_
  unfold doNoticeSend
  try dsimp only
  repeat' (first
    | with_reducible exact Only.refl _ _ | exact rfl | intro _
    | with_reducible first
      | apply report_only | apply noticePacket_only
    | fail_if_no_progress (with_reducible refine Only.rec_evt rfl ?_)
    | with_reducible first
      | apply Only.ite | apply Only.each | apply OnlyO.some | apply OnlyO.none | apply OnlyO.getD | apply OnlyO.ite
    | with_reducible assumption
    | split)

theorem rejoinNode_only {l_ : List Part} {a_ : Dev} (d : Dev) (i : Nat)
    (s_ : Part.sub [.out, .start, .evt, .wrp, .sht, .ply, .dst] l_ = true) (k_ : Only l_ a_ d) :
    Only l_ a_ (rejoinNode d i) := by
  refine Only.of ?_ s_ k_
  unfold rejoinNode
  try dsimp only
  repeat' (first
    | with_reducible exact Only.refl _ _ | exact rfl | intro _
    | with_reducible first
      | apply report_only | apply Dev.modNode_only | apply leaveNode_only)

theorem loseNode_only {l_ : List Part} {a_ : Dev} (d : Dev) (i : Nat)
    (s_ : Part.sub [.out, .start, .evt, .wrp, .sht, .ply, .dst] l_ = true) (k_ : Only l_ a_ d) :
    Only l_ a_ (loseNode d i) := by
  refine Only.of ?_ s_ k_
  unfold loseNode
  try dsimp only
  repeat' (first
    | with_reducible exact Only.refl _ _ | exact rfl | intro _
    | with_reducible first
      | apply plySend_only | apply Dev.modNode_only | apply rejoinNode_only | apply Only.ite | apply Only.each
      | apply OnlyO.some | apply OnlyO.none | apply OnlyO.getD | apply OnlyO.ite
    | with_reducible assumption
    | split)

theorem doNodeRefetchTimeout_only {l_ : List Part} {a_ : Dev} (i : Nat) (d : Dev)
    (s_ : Part.sub [.out, .start, .evt, .wrp, .sht, .ply, .dst] l_ = true) (k_ : Only l_ a_ d) :
    Only l_ a_ (doNodeRefetchTimeout i d) := by
  refine Only.of ?_ s_ k_
  unfold doNodeRefetchTimeout
  try dsimp only
  repeat' (first
    | with_reducible exact Only.refl _ _ | exact rfl | intro _
    | with_reducible first
      | apply rejoinNode_only | apply Only.ite | apply Only.each | apply OnlyO.some | apply OnlyO.none | apply OnlyO.getD
      | apply OnlyO.ite
    | with_reducible assumption
    | split)

theorem scrubUncorr_only {l_ : List Part} {a_ : Dev} (d : Dev) (addr : BitVec 32)
    (s_ : Part.sub [.free, .start, .evt] l_ = true) (k_ : Only l_ a_ d) :
    Only l_ a_ (scrubUncorr d addr) := by
  refine Only.of ?_ s_ k_
  unfold scrubUncorr
  try dsimp only
  repeat' (first
    | with_reducible exact Only.refl _ _ | exact rfl | intro _
    | with_reducible first
      | apply report_only | apply Dev.draw_only)

theorem loseForwarding_only {l_ : List Part} {a_ : Dev} (d : Dev) (shadow : Bool) (table index : Nat)
    (s_ : Part.sub [.start, .evt, .sht] l_ = true) (k_ : Only l_ a_ d) :
    Only l_ a_ (loseForwarding d shadow table index) := by
  refine Only.of ?_ s_ k_
  unfold loseForwarding
  try dsimp only
  repeat' (first
    | with_reducible exact Only.refl _ _ | exact rfl | intro _
    | with_reducible first
      | apply Dev.modSht_only | apply parityAt_only)

theorem loseHalf_only {l_ : List Part} {a_ : Dev} (d : Dev) (s : Nat)
    (s_ : Part.sub [.start, .evt, .dst] l_ = true) (k_ : Only l_ a_ d) :
    Only l_ a_ (loseHalf d s) := by
  refine Only.of ?_ s_ k_
  unfold loseHalf
  try dsimp only
  repeat' (first
    | with_reducible exact Only.refl _ _ | exact rfl | intro _
    | with_reducible first
      | apply Dev.modDst_only | apply disableSkein_only | apply Only.ite)

theorem loseOtherHalf_only {l_ : List Part} {a_ : Dev} (d : Dev) (s : Nat)
    (s_ : Part.sub [.start, .evt, .dst] l_ = true) (k_ : Only l_ a_ d) :
    Only l_ a_ (loseOtherHalf d s) := by
  refine Only.of ?_ s_ k_
  unfold loseOtherHalf
  try dsimp only
  repeat' (first
    | with_reducible exact Only.refl _ _ | exact rfl | intro _
    | with_reducible first
      | apply report_only | apply Dev.modDst_only | apply Only.ite)

theorem loseThread_only {l_ : List Part} {a_ : Dev} (d : Dev) (th : Nat)
    (s_ : Part.sub [.free, .whl, .ccp, .ply, .img] l_ = true) (k_ : Only l_ a_ d) :
    Only l_ a_ (loseThread d th) := by
  refine Only.of ?_ s_ k_
  unfold loseThread
  try dsimp only
  repeat' (first
    | with_reducible exact Only.refl _ _ | exact rfl | intro _
    | with_reducible first
      | apply Dev.draw_only | apply Dev.modThread_only | apply finish_only | apply Only.ite | apply Only.each
      | apply OnlyO.some | apply OnlyO.none | apply OnlyO.getD | apply OnlyO.ite
    | with_reducible assumption
    | split)

theorem loseObject_only {l_ : List Part} {a_ : Dev} (d : Dev) (o : Nat)
    (s_ : Part.sub [.whl, .ccp, .ply, .img] l_ = true) (k_ : Only l_ a_ d) :
    Only l_ a_ (loseObject d o) := by
  refine Only.of ?_ s_ k_
  unfold loseObject
  try dsimp only
  repeat' (first
    | with_reducible exact Only.refl _ _ | exact rfl | intro _
    | with_reducible first
      | apply finish_only | apply Dev.modObj_only | apply Only.ite | apply Only.each)

theorem poisonPacket_only {l_ : List Part} {a_ : Dev} (d : Dev) (p : Port) (c pos : Nat)
    (s_ : Part.sub [.sht] l_ = true) (k_ : Only l_ a_ d) :
    Only l_ a_ (poisonPacket d p c pos) := by
  refine Only.of ?_ s_ k_
  unfold poisonPacket
  try dsimp only
  repeat' (first
    | with_reducible exact Only.refl _ _ | exact rfl | intro _
    | with_reducible apply Dev.setQueue_only)

theorem retire_only {l_ : List Part} {a_ : Dev} (d : Dev) (kind loc : Nat)
    (s_ : Part.sub [.glb, .start, .evt] l_ = true) (k_ : Only l_ a_ d) :
    Only l_ a_ (retire d kind loc) := by
  refine Only.of ?_ s_ k_
  unfold retire
  try dsimp only
  repeat' (first
    | with_reducible exact Only.refl _ _ | exact rfl | intro _
    | with_reducible first
      | apply report_only | apply watchIf_only | apply Dev.modGlb_only)

theorem freeError_only {l_ : List Part} {a_ : Dev} {inUse : Dev → Dev} {d : Dev} {kind loc : Nat}
    (s_ : Part.sub [.out, .glb, .start, .evt, .que] l_ = true) (k_ : Only l_ a_ d)
    (h_ : ∀ e, Only l_ a_ e → Only l_ a_ (inUse e)) :
    Only l_ a_ (freeError inUse d kind loc) := by
  unfold freeError
  refine Only.ite k_ (Only.ite (Only.ite (h_ _ k_) ?_) ?_)
  · exact bufEval_only _ (Part.sub_trans (p := [.out, .evt, .que]) rfl s_) (objWatch_only _ (Part.sub_trans (p := [.evt]) rfl s_) (retire_only _ _ _ (Part.sub_trans (p := [.glb, .start, .evt]) rfl s_) k_))
  · exact report_only _ _ _ (Part.sub_trans (p := [.start, .evt]) rfl s_) (Dev.modGlb_only _ _ (Part.sub_trans (p := [.glb]) rfl s_) k_)

theorem uncorrectable_only {l_ : List Part} {a_ : Dev} (d : Dev) (addr : BitVec 32) (t : ScrubTarget)
    (s_ : Part.sub [.free, .out, .glb, .start, .pra, .evt, .whl, .spn, .wrp, .ccp, .sht, .que, .ply, .dst, .img] l_ = true) (k_ : Only l_ a_ d) :
    Only l_ a_ (uncorrectable d addr t) := by
  refine Only.of ?_ s_ k_
  unfold uncorrectable
  try dsimp only
  repeat' (first
    | with_reducible exact Only.refl _ _ | exact rfl | intro _
    | with_reducible first
      | apply Dev.modWrp_only | apply Dev.modCcp_only | apply Dev.modDst_only | apply Dev.modGlb_only
      | apply disableSkein_only | apply freeThread_only | apply loseNode_only | apply scrubUncorr_only
      | apply loseForwarding_only | apply loseHalf_only | apply loseOtherHalf_only | apply loseThread_only
      | apply loseObject_only | apply poisonPacket_only | apply freeError_only
    | fail_if_no_progress (with_reducible refine Only.rec_evt rfl ?_)
    | with_reducible first
      | apply Only.ite | apply Only.each | apply OnlyO.some | apply OnlyO.none | apply OnlyO.getD | apply OnlyO.ite
    | with_reducible assumption
    | split
    | dsimp only
    | with_reducible refine Only.id ?_)

theorem endPass_only {l_ : List Part} {a_ : Dev} (d : Dev) (m : ScrubMemory)
    (s_ : Part.sub [.glb, .evt] l_ = true) (k_ : Only l_ a_ d) :
    Only l_ a_ (endPass d m) := by
  refine Only.of ?_ s_ k_
  unfold endPass
  try dsimp only
  repeat' (first
    | with_reducible exact Only.refl _ _ | exact rfl | intro _
    | with_reducible first
      | apply watch_only | apply Dev.modGlb_only)

theorem doPickerScan_only {l_ : List Part} {a_ : Dev} (m : ScrubMemory) (t : ScrubTarget) (addr : BitVec 32) (r : ScrubResult)
    (passEnd : Bool) (d : Dev)
    (s_ : Part.sub [.free, .out, .glb, .start, .pra, .evt, .whl, .spn, .wrp, .ccp, .sht, .que, .ply, .dst, .img] l_ = true) (k_ : Only l_ a_ d) :
    Only l_ a_ (doPickerScan m t addr r passEnd d) := by
  refine Only.of ?_ s_ k_
  unfold doPickerScan
  try dsimp only
  repeat' (first
    | with_reducible exact Only.refl _ _ | exact rfl | intro _
    | with_reducible first
      | apply Dev.modGlb_only | apply uncorrectable_only | apply endPass_only | apply Only.ite | apply Only.each
      | apply OnlyO.some | apply OnlyO.none | apply OnlyO.getD | apply OnlyO.ite
    | with_reducible assumption
    | split)

theorem entryTiming_only {l_ : List Part} {a_ : Dev} (d : Dev) (v : Word)
    (s_ : Part.sub [.wrp] l_ = true) (k_ : Only l_ a_ d) :
    Only l_ a_ (entryTiming d v).1 := by
  refine Only.of ?_ s_ k_
  unfold entryTiming
  try dsimp only
  repeat' (first
    | with_reducible exact Only.refl _ _ | exact rfl | intro _
    | with_reducible first
      | apply setTiming_only | apply Only.ite | apply Only.each | apply OnlyO.some | apply OnlyO.none | apply OnlyO.getD
      | apply OnlyO.ite
    | with_reducible assumption
    | split)

theorem entryWrite_only {l_ : List Part} {a_ : Dev} (d : Dev) (a : Nat) (v : Word)
    (s_ : Part.sub [.free, .out, .start, .evt, .whl, .spn, .wrp, .ccp, .sht, .que, .crd, .ply, .dst, .img, .bob] l_ = true) (k_ : Only l_ a_ d) :
    Only l_ a_ (entryWrite d a v).1 := by
  refine Only.of ?_ s_ k_
  unfold entryWrite
  try dsimp only
  repeat' (first
    | with_reducible exact Only.refl _ _ | exact rfl | intro _
    | with_reducible first
      | apply writeSpn_only | apply writeWrp_only | apply writeBlock_only | apply entryTiming_only | apply Only.ite
      | apply Only.each | apply OnlyO.some | apply OnlyO.none | apply OnlyO.getD | apply OnlyO.ite
    | with_reducible assumption
    | split)

theorem applyRegion_only {l_ : List Part} {a_ : Dev} (d : Dev) (l : List Byte)
    (s_ : Part.sub [.spn, .region] l_ = true) (k_ : Only l_ a_ d) :
    Only l_ a_ (applyRegion d l) := by
  refine Only.of ?_ s_ k_
  unfold applyRegion
  try dsimp only
  repeat' (first
    | with_reducible exact Only.refl _ _ | exact rfl | intro _
    | with_reducible apply Dev.modSpn_only
    | fail_if_no_progress (with_reducible refine Only.rec_region rfl ?_)
    | with_reducible first
      | apply Only.ite | apply Only.each)

theorem applySlotframe_only {l_ : List Part} {a_ : Dev} (d : Dev) (l : List Byte)
    (s_ : Part.sub [.wrp] l_ = true) (k_ : Only l_ a_ d) :
    Only l_ a_ (applySlotframe d l) := by
  refine Only.of ?_ s_ k_
  unfold applySlotframe
  try dsimp only
  repeat' (first
    | with_reducible exact Only.refl _ _ | exact rfl | intro _
    | with_reducible first
      | apply Dev.modWrp_only | apply setHop_only | apply setCell_only | apply Only.ite | apply Only.each | apply OnlyO.some
      | apply OnlyO.none | apply OnlyO.getD | apply OnlyO.ite
    | with_reducible assumption
    | split)

theorem applyTable_only {l_ : List Part} {a_ : Dev} (d : Dev) (l : List Byte)
    (s_ : Part.sub [.sht] l_ = true) (k_ : Only l_ a_ d) :
    Only l_ a_ (applyTable d l) := by
  refine Only.of ?_ s_ k_
  unfold applyTable
  try dsimp only
  repeat' (first
    | with_reducible exact Only.refl _ _ | exact rfl | intro _
    | with_reducible first
      | apply Dev.modSht_only | apply Only.ite | apply Only.each | apply OnlyO.some | apply OnlyO.none | apply OnlyO.getD
      | apply OnlyO.ite
    | with_reducible assumption
    | split)

theorem applyPolicy_only {l_ : List Part} {a_ : Dev} (d : Dev) (l : List Byte)
    (s_ : Part.sub [.ccp] l_ = true) (k_ : Only l_ a_ d) :
    Only l_ a_ (applyPolicy d l) := by
  refine Only.of ?_ s_ k_
  unfold applyPolicy
  try dsimp only
  repeat' (first
    | with_reducible exact Only.refl _ _ | exact rfl | intro _
    | with_reducible first
      | apply putPolicy_only | apply Only.ite | apply Only.each)

theorem applyIdentity_only {l_ : List Part} {a_ : Dev} (d : Dev) (l : List Byte)
    (s_ : Part.sub [.ccp] l_ = true) (k_ : Only l_ a_ d) :
    Only l_ a_ (applyIdentity d l) := by
  refine Only.of ?_ s_ k_
  unfold applyIdentity
  try dsimp only
  repeat' (first
    | with_reducible exact Only.refl _ _ | exact rfl | intro _
    | with_reducible apply Dev.modCcp_only)

theorem applyPly_only {l_ : List Part} {a_ : Dev} (d : Dev) (l : List Byte)
    (s_ : Part.sub [.ply] l_ = true) (k_ : Only l_ a_ d) :
    Only l_ a_ (applyPly d l) := by
  refine Only.of ?_ s_ k_
  unfold applyPly
  try dsimp only
  repeat' (first
    | with_reducible exact Only.refl _ _ | exact rfl | intro _
    | with_reducible apply Dev.modPly_only)

theorem applyKeywrap_only {l_ : List Part} {a_ : Dev} (faults : List Nat) (d : Dev) (l : List Byte)
    (s_ : Part.sub [.free, .pwr, .glb, .start, .pra, .evt, .whl, .dst] l_ = true) (k_ : Only l_ a_ d) :
    Only l_ a_ (applyKeywrap faults d l) := by
  refine Only.of ?_ s_ k_
  unfold applyKeywrap
  try dsimp only
  repeat' (first
    | with_reducible exact Only.refl _ _ | exact rfl | intro _
    | with_reducible first
      | apply report_only | apply Dev.modDst_only | apply praWait_only | apply loadHalf_only | apply Only.ite
      | apply Only.each | apply OnlyO.some | apply OnlyO.none | apply OnlyO.getD | apply OnlyO.ite
    | with_reducible assumption
    | split
    | dsimp only
    | with_reducible refine Only.id ?_
    | refine OnlyO.get (by assumption) ?_
    | refine OnlyO.get1 (by assumption) ?_
    | refine Only.fst (by assumption) ?_)

theorem applyOwner_only {l_ : List Part} {a_ : Dev} (d : Dev) (r : ImgRecord)
    (s_ : Part.sub [.spn, .region, .wrp, .ccp, .sht, .ply] l_ = true) (k_ : Only l_ a_ d) :
    Only l_ a_ (applyOwner d r) := by
  refine Only.of ?_ s_ k_
  unfold applyOwner
  try dsimp only
  repeat' (first
    | with_reducible exact Only.refl _ _ | exact rfl | intro _
    | with_reducible first
      | apply applyRegion_only | apply applySlotframe_only | apply applyTable_only | apply applyPolicy_only
      | apply applyIdentity_only | apply applyPly_only | apply Only.ite | apply Only.each | apply OnlyO.some
      | apply OnlyO.none | apply OnlyO.getD | apply OnlyO.ite
    | with_reducible assumption
    | split)

theorem applyRecord_only {l_ : List Part} {a_ : Dev} (faults : List Nat) (d : Dev) (r : ImgRecord)
    (s_ : Part.sub [.free, .pwr, .glb, .start, .pra, .evt, .whl, .spn, .region, .wrp, .ccp, .sht, .ply, .dst] l_ = true) (k_ : Only l_ a_ d) :
    Only l_ a_ (applyRecord faults d r) := by
  refine Only.of ?_ s_ k_
  unfold applyRecord
  try dsimp only
  repeat' (first
    | with_reducible exact Only.refl _ _ | exact rfl | intro _
    | with_reducible first
      | apply applyKeywrap_only | apply applyOwner_only | apply Only.ite)

theorem measureImage_only {l_ : List Part} {a_ : Dev} (d : Dev) (image : List Byte)
    (s_ : Part.sub [.dst] l_ = true) (k_ : Only l_ a_ d) :
    Only l_ a_ (measureImage d image) := by
  refine Only.of ?_ s_ k_
  unfold measureImage
  try dsimp only
  repeat' (first
    | with_reducible exact Only.refl _ _ | exact rfl | intro _
    | with_reducible first
      | apply extendMdBy_only | apply Only.ite)

theorem rejectConfig_only {l_ : List Part} {a_ : Dev} (d : Dev) (f : CfgFail)
    (s_ : Part.sub [.phase, .start, .evt] l_ = true) (k_ : Only l_ a_ d) :
    Only l_ a_ (rejectConfig d f) := by
  refine Only.of ?_ s_ k_
  unfold rejectConfig
  try dsimp only
  repeat' (first
    | with_reducible exact Only.refl _ _ | exact rfl | intro _
    | with_reducible apply report_only
    | fail_if_no_progress (with_reducible refine Only.rec_phase_start rfl ?_))

theorem acceptConfig_only {l_ : List Part} {a_ : Dev} (d : Dev) (serial : Nat) (l : List ImgRecord)
    (skip : List (Nat × Nat × Nat))
    (s_ : Part.sub [.phase, .start, .evt] l_ = true) (k_ : Only l_ a_ d) :
    Only l_ a_ (acceptConfig d serial l skip) := by
  refine Only.of ?_ s_ k_
  unfold acceptConfig
  try dsimp only
  repeat' (first
    | with_reducible exact Only.refl _ _ | exact rfl | intro _
    | with_reducible apply report_only
    | fail_if_no_progress (with_reducible refine Only.rec_phase_start rfl ?_)
    | with_reducible first
      | apply Only.ite | apply Only.each)

theorem doConfigImageCheck_only {l_ : List Part} {a_ : Dev} (image : Option (List Byte)) (kwBad : List Nat) (d : Dev)
    (s_ : Part.sub [.phase, .start, .evt, .dst] l_ = true) (k_ : Only l_ a_ d) :
    Only l_ a_ (doConfigImageCheck image kwBad d) := by
  refine Only.of ?_ s_ k_
  unfold doConfigImageCheck
  try dsimp only
  repeat' (first
    | with_reducible exact Only.refl _ _ | exact rfl | intro _
    | with_reducible first
      | apply measureImage_only | apply rejectConfig_only | apply acceptConfig_only | apply Only.ite | apply Only.each
      | apply OnlyO.some | apply OnlyO.none | apply OnlyO.getD | apply OnlyO.ite
    | with_reducible assumption
    | split)

theorem measureArray_only {l_ : List Part} {a_ : Dev} (d : Dev)
    (s_ : Part.sub [.dst] l_ = true) (k_ : Only l_ a_ d) :
    Only l_ a_ (measureArray d) := by
  refine Only.of ?_ s_ k_
  unfold measureArray
  try dsimp only
  repeat' (first
    | with_reducible exact Only.refl _ _ | exact rfl | intro _
    | with_reducible apply extendMdBy_only)

theorem applyImage_only {l_ : List Part} {a_ : Dev} (faults : List Nat) (d : Dev)
    (s_ : Part.sub [.free, .out, .pwr, .glb, .start, .pra, .evt, .whl, .spn, .region, .wrp, .ccp, .sht, .que, .crd, .ply, .dst, .img, .bob] l_ = true) (k_ : Only l_ a_ d) :
    Only l_ a_ (applyImage faults d) := by
  refine Only.of ?_ s_ k_
  unfold applyImage
  try dsimp only
  repeat' (first
    | with_reducible exact Only.refl _ _ | exact rfl | intro _
    | with_reducible first
      | apply entryWrite_only | apply applyRecord_only | apply Only.ite | apply Only.each)

theorem applyAndPlan_only {l_ : List Part} {a_ : Dev} (faults : List Nat) (d : Dev)
    (s_ : Part.sub [.free, .out, .pwr, .glb, .start, .pra, .evt, .whl, .spn, .region, .wrp, .ccp, .sht, .que, .crd, .ply, .dst, .img, .bob] l_ = true) (k_ : Only l_ a_ d) :
    Only l_ a_ (applyAndPlan faults d) := by
  refine Only.of ?_ s_ k_
  unfold applyAndPlan
  try dsimp only
  repeat' (first
    | with_reducible exact Only.refl _ _ | exact rfl | intro _
    | with_reducible apply applyImage_only
    | fail_if_no_progress (with_reducible refine Only.rec_start rfl ?_)
    | with_reducible apply Only.ite)

theorem resetOn_only {l_ : List Part} {a_ : Dev} (faults : List Nat) (upto : Option Nat) (d : Dev)
    (s_ : Part.sub [.pwr, .glb, .start, .pra, .evt, .whl] l_ = true) (k_ : Only l_ a_ d) :
    Only l_ a_ (resetOn faults upto d) := by
  refine Only.of ?_ s_ k_
  unfold resetOn
  try dsimp only
  repeat' (first
    | with_reducible exact Only.refl _ _ | exact rfl | intro _
    | with_reducible first
      | apply report_only | apply praWaits_only
    | fail_if_no_progress (with_reducible refine Only.rec_start rfl ?_)
    | with_reducible first
      | apply Only.ite | apply Only.each | apply OnlyO.some | apply OnlyO.none | apply OnlyO.getD | apply OnlyO.ite
    | with_reducible assumption
    | split)

end Sys2Proof.Machine
end

