-- ==== Sys2Proof/Laws/Queues.lean ====
section
/-! SUPPORT. The shuttle and its queues: what each shared operation leaves as it was (R226, R242, R257). -/

namespace Sys2Proof.Machine

@[simp] theorem Dev.modQport_phase (d : Dev) (p : Port) (f : QPort → QPort) : (d.modQport p f).phase = d.phase := by
  cases p <;> rfl
@[simp] theorem Dev.modQport_free (d : Dev) (p : Port) (f : QPort → QPort) : (d.modQport p f).free = d.free := by
  cases p <;> rfl
@[simp] theorem Dev.modQport_pwr (d : Dev) (p : Port) (f : QPort → QPort) : (d.modQport p f).pwr = d.pwr := by
  cases p <;> rfl
@[simp] theorem Dev.modQport_glb (d : Dev) (p : Port) (f : QPort → QPort) : (d.modQport p f).glb = d.glb := by
  cases p <;> rfl
@[simp] theorem Dev.modQport_start (d : Dev) (p : Port) (f : QPort → QPort) : (d.modQport p f).start = d.start := by
  cases p <;> rfl
@[simp] theorem Dev.modQport_pra (d : Dev) (p : Port) (f : QPort → QPort) : (d.modQport p f).pra = d.pra := by
  cases p <;> rfl
@[simp] theorem Dev.modQport_whl (d : Dev) (p : Port) (f : QPort → QPort) : (d.modQport p f).whl = d.whl := by
  cases p <;> rfl
@[simp] theorem Dev.modQport_spn (d : Dev) (p : Port) (f : QPort → QPort) : (d.modQport p f).spn = d.spn := by
  cases p <;> rfl
@[simp] theorem Dev.modQport_region (d : Dev) (p : Port) (f : QPort → QPort) : (d.modQport p f).region = d.region := by
  cases p <;> rfl
@[simp] theorem Dev.modQport_wrp (d : Dev) (p : Port) (f : QPort → QPort) : (d.modQport p f).wrp = d.wrp := by
  cases p <;> rfl
@[simp] theorem Dev.modQport_ccp (d : Dev) (p : Port) (f : QPort → QPort) : (d.modQport p f).ccp = d.ccp := by
  cases p <;> rfl
@[simp] theorem Dev.modQport_sht (d : Dev) (p : Port) (f : QPort → QPort) : (d.modQport p f).sht = d.sht := by
  cases p <;> rfl
@[simp] theorem Dev.modQport_crd (d : Dev) (p : Port) (f : QPort → QPort) : (d.modQport p f).crd = d.crd := by
  cases p <;> rfl
@[simp] theorem Dev.modQport_ply (d : Dev) (p : Port) (f : QPort → QPort) : (d.modQport p f).ply = d.ply := by
  cases p <;> rfl
@[simp] theorem Dev.modQport_dst (d : Dev) (p : Port) (f : QPort → QPort) : (d.modQport p f).dst = d.dst := by
  cases p <;> rfl
@[simp] theorem Dev.modQport_img (d : Dev) (p : Port) (f : QPort → QPort) : (d.modQport p f).img = d.img := by
  cases p <;> rfl
@[simp] theorem Dev.modQport_bob (d : Dev) (p : Port) (f : QPort → QPort) : (d.modQport p f).bob = d.bob := by
  cases p <;> rfl
@[simp] theorem Dev.modQport_evt (d : Dev) (p : Port) (f : QPort → QPort) : (d.modQport p f).evt = d.evt := by
  cases p <;> rfl
@[simp] theorem Dev.modQport_out (d : Dev) (p : Port) (f : QPort → QPort) : (d.modQport p f).out = d.out := by
  cases p <;> rfl

@[simp] theorem fcLeave_phase (d : Dev) (p : Port) (x : FcFrame) : (fcLeave d p x).phase = d.phase := by
  simp [fcLeave]
@[simp] theorem fcLeave_free (d : Dev) (p : Port) (x : FcFrame) : (fcLeave d p x).free = d.free := by
  simp [fcLeave]
@[simp] theorem fcLeave_pwr (d : Dev) (p : Port) (x : FcFrame) : (fcLeave d p x).pwr = d.pwr := by
  simp [fcLeave]
@[simp] theorem fcLeave_glb (d : Dev) (p : Port) (x : FcFrame) : (fcLeave d p x).glb = d.glb := by
  simp [fcLeave]
@[simp] theorem fcLeave_start (d : Dev) (p : Port) (x : FcFrame) : (fcLeave d p x).start = d.start := by
  simp [fcLeave]
@[simp] theorem fcLeave_pra (d : Dev) (p : Port) (x : FcFrame) : (fcLeave d p x).pra = d.pra := by
  simp [fcLeave]
@[simp] theorem fcLeave_whl (d : Dev) (p : Port) (x : FcFrame) : (fcLeave d p x).whl = d.whl := by
  simp [fcLeave]
@[simp] theorem fcLeave_spn (d : Dev) (p : Port) (x : FcFrame) : (fcLeave d p x).spn = d.spn := by
  simp [fcLeave]
@[simp] theorem fcLeave_region (d : Dev) (p : Port) (x : FcFrame) : (fcLeave d p x).region = d.region := by
  simp [fcLeave]
@[simp] theorem fcLeave_wrp (d : Dev) (p : Port) (x : FcFrame) : (fcLeave d p x).wrp = d.wrp := by
  simp [fcLeave]
@[simp] theorem fcLeave_ccp (d : Dev) (p : Port) (x : FcFrame) : (fcLeave d p x).ccp = d.ccp := by
  simp [fcLeave]
@[simp] theorem fcLeave_sht (d : Dev) (p : Port) (x : FcFrame) : (fcLeave d p x).sht = d.sht := by
  simp [fcLeave]
@[simp] theorem fcLeave_crd (d : Dev) (p : Port) (x : FcFrame) : (fcLeave d p x).crd = d.crd := by
  simp [fcLeave]
@[simp] theorem fcLeave_ply (d : Dev) (p : Port) (x : FcFrame) : (fcLeave d p x).ply = d.ply := by
  simp [fcLeave]
@[simp] theorem fcLeave_dst (d : Dev) (p : Port) (x : FcFrame) : (fcLeave d p x).dst = d.dst := by
  simp [fcLeave]
@[simp] theorem fcLeave_img (d : Dev) (p : Port) (x : FcFrame) : (fcLeave d p x).img = d.img := by
  simp [fcLeave]
@[simp] theorem fcLeave_bob (d : Dev) (p : Port) (x : FcFrame) : (fcLeave d p x).bob = d.bob := by
  simp [fcLeave]
@[simp] theorem fcLeave_evt (d : Dev) (p : Port) (x : FcFrame) : (fcLeave d p x).evt = d.evt := by
  simp [fcLeave]

@[simp] theorem sendFc_phase (d : Dev) (p : Port) (l : KMap Nat) : (sendFc d p l).phase = d.phase := by
  unfold sendFc; dsimp only; repeat' split
  all_goals simp
@[simp] theorem sendFc_free (d : Dev) (p : Port) (l : KMap Nat) : (sendFc d p l).free = d.free := by
  unfold sendFc; dsimp only; repeat' split
  all_goals simp
@[simp] theorem sendFc_pwr (d : Dev) (p : Port) (l : KMap Nat) : (sendFc d p l).pwr = d.pwr := by
  unfold sendFc; dsimp only; repeat' split
  all_goals simp
@[simp] theorem sendFc_glb (d : Dev) (p : Port) (l : KMap Nat) : (sendFc d p l).glb = d.glb := by
  unfold sendFc; dsimp only; repeat' split
  all_goals simp
@[simp] theorem sendFc_start (d : Dev) (p : Port) (l : KMap Nat) : (sendFc d p l).start = d.start := by
  unfold sendFc; dsimp only; repeat' split
  all_goals simp
@[simp] theorem sendFc_pra (d : Dev) (p : Port) (l : KMap Nat) : (sendFc d p l).pra = d.pra := by
  unfold sendFc; dsimp only; repeat' split
  all_goals simp
@[simp] theorem sendFc_whl (d : Dev) (p : Port) (l : KMap Nat) : (sendFc d p l).whl = d.whl := by
  unfold sendFc; dsimp only; repeat' split
  all_goals simp
@[simp] theorem sendFc_spn (d : Dev) (p : Port) (l : KMap Nat) : (sendFc d p l).spn = d.spn := by
  unfold sendFc; dsimp only; repeat' split
  all_goals simp
@[simp] theorem sendFc_region (d : Dev) (p : Port) (l : KMap Nat) : (sendFc d p l).region = d.region := by
  unfold sendFc; dsimp only; repeat' split
  all_goals simp
@[simp] theorem sendFc_wrp (d : Dev) (p : Port) (l : KMap Nat) : (sendFc d p l).wrp = d.wrp := by
  unfold sendFc; dsimp only; repeat' split
  all_goals simp
@[simp] theorem sendFc_ccp (d : Dev) (p : Port) (l : KMap Nat) : (sendFc d p l).ccp = d.ccp := by
  unfold sendFc; dsimp only; repeat' split
  all_goals simp
@[simp] theorem sendFc_sht (d : Dev) (p : Port) (l : KMap Nat) : (sendFc d p l).sht = d.sht := by
  unfold sendFc; dsimp only; repeat' split
  all_goals simp
@[simp] theorem sendFc_crd (d : Dev) (p : Port) (l : KMap Nat) : (sendFc d p l).crd = d.crd := by
  unfold sendFc; dsimp only; repeat' split
  all_goals simp
@[simp] theorem sendFc_ply (d : Dev) (p : Port) (l : KMap Nat) : (sendFc d p l).ply = d.ply := by
  unfold sendFc; dsimp only; repeat' split
  all_goals simp
@[simp] theorem sendFc_dst (d : Dev) (p : Port) (l : KMap Nat) : (sendFc d p l).dst = d.dst := by
  unfold sendFc; dsimp only; repeat' split
  all_goals simp
@[simp] theorem sendFc_img (d : Dev) (p : Port) (l : KMap Nat) : (sendFc d p l).img = d.img := by
  unfold sendFc; dsimp only; repeat' split
  all_goals simp
@[simp] theorem sendFc_bob (d : Dev) (p : Port) (l : KMap Nat) : (sendFc d p l).bob = d.bob := by
  unfold sendFc; dsimp only; repeat' split
  all_goals simp
@[simp] theorem sendFc_evt (d : Dev) (p : Port) (l : KMap Nat) : (sendFc d p l).evt = d.evt := by
  unfold sendFc; dsimp only; repeat' split
  all_goals simp

@[simp] theorem fcEvalPort_phase (d : Dev) (p : Port) : (fcEvalPort d p).phase = d.phase := by
  unfold fcEvalPort; dsimp only; split <;> simp
@[simp] theorem fcEvalPort_free (d : Dev) (p : Port) : (fcEvalPort d p).free = d.free := by
  unfold fcEvalPort; dsimp only; split <;> simp
@[simp] theorem fcEvalPort_pwr (d : Dev) (p : Port) : (fcEvalPort d p).pwr = d.pwr := by
  unfold fcEvalPort; dsimp only; split <;> simp
@[simp] theorem fcEvalPort_glb (d : Dev) (p : Port) : (fcEvalPort d p).glb = d.glb := by
  unfold fcEvalPort; dsimp only; split <;> simp
@[simp] theorem fcEvalPort_start (d : Dev) (p : Port) : (fcEvalPort d p).start = d.start := by
  unfold fcEvalPort; dsimp only; split <;> simp
@[simp] theorem fcEvalPort_pra (d : Dev) (p : Port) : (fcEvalPort d p).pra = d.pra := by
  unfold fcEvalPort; dsimp only; split <;> simp
@[simp] theorem fcEvalPort_whl (d : Dev) (p : Port) : (fcEvalPort d p).whl = d.whl := by
  unfold fcEvalPort; dsimp only; split <;> simp
@[simp] theorem fcEvalPort_spn (d : Dev) (p : Port) : (fcEvalPort d p).spn = d.spn := by
  unfold fcEvalPort; dsimp only; split <;> simp
@[simp] theorem fcEvalPort_region (d : Dev) (p : Port) : (fcEvalPort d p).region = d.region := by
  unfold fcEvalPort; dsimp only; split <;> simp
@[simp] theorem fcEvalPort_wrp (d : Dev) (p : Port) : (fcEvalPort d p).wrp = d.wrp := by
  unfold fcEvalPort; dsimp only; split <;> simp
@[simp] theorem fcEvalPort_ccp (d : Dev) (p : Port) : (fcEvalPort d p).ccp = d.ccp := by
  unfold fcEvalPort; dsimp only; split <;> simp
@[simp] theorem fcEvalPort_sht (d : Dev) (p : Port) : (fcEvalPort d p).sht = d.sht := by
  unfold fcEvalPort; dsimp only; split <;> simp
@[simp] theorem fcEvalPort_crd (d : Dev) (p : Port) : (fcEvalPort d p).crd = d.crd := by
  unfold fcEvalPort; dsimp only; split <;> simp
@[simp] theorem fcEvalPort_ply (d : Dev) (p : Port) : (fcEvalPort d p).ply = d.ply := by
  unfold fcEvalPort; dsimp only; split <;> simp
@[simp] theorem fcEvalPort_dst (d : Dev) (p : Port) : (fcEvalPort d p).dst = d.dst := by
  unfold fcEvalPort; dsimp only; split <;> simp
@[simp] theorem fcEvalPort_img (d : Dev) (p : Port) : (fcEvalPort d p).img = d.img := by
  unfold fcEvalPort; dsimp only; split <;> simp
@[simp] theorem fcEvalPort_bob (d : Dev) (p : Port) : (fcEvalPort d p).bob = d.bob := by
  unfold fcEvalPort; dsimp only; split <;> simp
@[simp] theorem fcEvalPort_evt (d : Dev) (p : Port) : (fcEvalPort d p).evt = d.evt := by
  unfold fcEvalPort; dsimp only; split <;> simp

@[simp] theorem xoffWatch_phase (d : Dev) : (xoffWatch d).phase = d.phase := by
  simp [xoffWatch]
@[simp] theorem xoffWatch_free (d : Dev) : (xoffWatch d).free = d.free := by
  simp [xoffWatch]
@[simp] theorem xoffWatch_pwr (d : Dev) : (xoffWatch d).pwr = d.pwr := by
  simp [xoffWatch]
@[simp] theorem xoffWatch_glb (d : Dev) : (xoffWatch d).glb = d.glb := by
  simp [xoffWatch]
@[simp] theorem xoffWatch_start (d : Dev) : (xoffWatch d).start = d.start := by
  simp [xoffWatch]
@[simp] theorem xoffWatch_pra (d : Dev) : (xoffWatch d).pra = d.pra := by
  simp [xoffWatch]
@[simp] theorem xoffWatch_whl (d : Dev) : (xoffWatch d).whl = d.whl := by
  simp [xoffWatch]
@[simp] theorem xoffWatch_spn (d : Dev) : (xoffWatch d).spn = d.spn := by
  simp [xoffWatch]
@[simp] theorem xoffWatch_region (d : Dev) : (xoffWatch d).region = d.region := by
  simp [xoffWatch]
@[simp] theorem xoffWatch_wrp (d : Dev) : (xoffWatch d).wrp = d.wrp := by
  simp [xoffWatch]
@[simp] theorem xoffWatch_ccp (d : Dev) : (xoffWatch d).ccp = d.ccp := by
  simp [xoffWatch]
@[simp] theorem xoffWatch_sht (d : Dev) : (xoffWatch d).sht = d.sht := by
  simp [xoffWatch]
@[simp] theorem xoffWatch_crd (d : Dev) : (xoffWatch d).crd = d.crd := by
  simp [xoffWatch]
@[simp] theorem xoffWatch_ply (d : Dev) : (xoffWatch d).ply = d.ply := by
  simp [xoffWatch]
@[simp] theorem xoffWatch_dst (d : Dev) : (xoffWatch d).dst = d.dst := by
  simp [xoffWatch]
@[simp] theorem xoffWatch_img (d : Dev) : (xoffWatch d).img = d.img := by
  simp [xoffWatch]
@[simp] theorem xoffWatch_bob (d : Dev) : (xoffWatch d).bob = d.bob := by
  simp [xoffWatch]
@[simp] theorem xoffWatch_que (d : Dev) : (xoffWatch d).que = d.que := by
  simp [xoffWatch]
@[simp] theorem xoffWatch_out (d : Dev) : (xoffWatch d).out = d.out := by
  simp [xoffWatch]

@[simp] theorem bufWatch_phase (d : Dev) : (bufWatch d).phase = d.phase := by
  simp [bufWatch]
@[simp] theorem bufWatch_free (d : Dev) : (bufWatch d).free = d.free := by
  simp [bufWatch]
@[simp] theorem bufWatch_pwr (d : Dev) : (bufWatch d).pwr = d.pwr := by
  simp [bufWatch]
@[simp] theorem bufWatch_glb (d : Dev) : (bufWatch d).glb = d.glb := by
  simp [bufWatch]
@[simp] theorem bufWatch_start (d : Dev) : (bufWatch d).start = d.start := by
  simp [bufWatch]
@[simp] theorem bufWatch_pra (d : Dev) : (bufWatch d).pra = d.pra := by
  simp [bufWatch]
@[simp] theorem bufWatch_whl (d : Dev) : (bufWatch d).whl = d.whl := by
  simp [bufWatch]
@[simp] theorem bufWatch_spn (d : Dev) : (bufWatch d).spn = d.spn := by
  simp [bufWatch]
@[simp] theorem bufWatch_region (d : Dev) : (bufWatch d).region = d.region := by
  simp [bufWatch]
@[simp] theorem bufWatch_wrp (d : Dev) : (bufWatch d).wrp = d.wrp := by
  simp [bufWatch]
@[simp] theorem bufWatch_ccp (d : Dev) : (bufWatch d).ccp = d.ccp := by
  simp [bufWatch]
@[simp] theorem bufWatch_sht (d : Dev) : (bufWatch d).sht = d.sht := by
  simp [bufWatch]
@[simp] theorem bufWatch_crd (d : Dev) : (bufWatch d).crd = d.crd := by
  simp [bufWatch]
@[simp] theorem bufWatch_ply (d : Dev) : (bufWatch d).ply = d.ply := by
  simp [bufWatch]
@[simp] theorem bufWatch_dst (d : Dev) : (bufWatch d).dst = d.dst := by
  simp [bufWatch]
@[simp] theorem bufWatch_img (d : Dev) : (bufWatch d).img = d.img := by
  simp [bufWatch]
@[simp] theorem bufWatch_bob (d : Dev) : (bufWatch d).bob = d.bob := by
  simp [bufWatch]
@[simp] theorem bufWatch_que (d : Dev) : (bufWatch d).que = d.que := by
  simp [bufWatch]
@[simp] theorem bufWatch_out (d : Dev) : (bufWatch d).out = d.out := by
  simp [bufWatch]

@[simp] theorem bufEval_phase (d : Dev) : (bufEval d).phase = d.phase := by
  simp [bufEval]
@[simp] theorem bufEval_free (d : Dev) : (bufEval d).free = d.free := by
  simp [bufEval]
@[simp] theorem bufEval_pwr (d : Dev) : (bufEval d).pwr = d.pwr := by
  simp [bufEval]
@[simp] theorem bufEval_glb (d : Dev) : (bufEval d).glb = d.glb := by
  simp [bufEval]
@[simp] theorem bufEval_start (d : Dev) : (bufEval d).start = d.start := by
  simp [bufEval]
@[simp] theorem bufEval_pra (d : Dev) : (bufEval d).pra = d.pra := by
  simp [bufEval]
@[simp] theorem bufEval_whl (d : Dev) : (bufEval d).whl = d.whl := by
  simp [bufEval]
@[simp] theorem bufEval_spn (d : Dev) : (bufEval d).spn = d.spn := by
  simp [bufEval]
@[simp] theorem bufEval_region (d : Dev) : (bufEval d).region = d.region := by
  simp [bufEval]
@[simp] theorem bufEval_wrp (d : Dev) : (bufEval d).wrp = d.wrp := by
  simp [bufEval]
@[simp] theorem bufEval_ccp (d : Dev) : (bufEval d).ccp = d.ccp := by
  simp [bufEval]
@[simp] theorem bufEval_sht (d : Dev) : (bufEval d).sht = d.sht := by
  simp [bufEval]
@[simp] theorem bufEval_crd (d : Dev) : (bufEval d).crd = d.crd := by
  simp [bufEval]
@[simp] theorem bufEval_ply (d : Dev) : (bufEval d).ply = d.ply := by
  simp [bufEval]
@[simp] theorem bufEval_dst (d : Dev) : (bufEval d).dst = d.dst := by
  simp [bufEval]
@[simp] theorem bufEval_img (d : Dev) : (bufEval d).img = d.img := by
  simp [bufEval]
@[simp] theorem bufEval_bob (d : Dev) : (bufEval d).bob = d.bob := by
  simp [bufEval]

@[simp] theorem endXoff_phase (d : Dev) (p : Port) : (endXoff d p).phase = d.phase := by
  unfold endXoff; dsimp only; split <;> simp
@[simp] theorem endXoff_free (d : Dev) (p : Port) : (endXoff d p).free = d.free := by
  unfold endXoff; dsimp only; split <;> simp
@[simp] theorem endXoff_pwr (d : Dev) (p : Port) : (endXoff d p).pwr = d.pwr := by
  unfold endXoff; dsimp only; split <;> simp
@[simp] theorem endXoff_glb (d : Dev) (p : Port) : (endXoff d p).glb = d.glb := by
  unfold endXoff; dsimp only; split <;> simp
@[simp] theorem endXoff_start (d : Dev) (p : Port) : (endXoff d p).start = d.start := by
  unfold endXoff; dsimp only; split <;> simp
@[simp] theorem endXoff_pra (d : Dev) (p : Port) : (endXoff d p).pra = d.pra := by
  unfold endXoff; dsimp only; split <;> simp
@[simp] theorem endXoff_whl (d : Dev) (p : Port) : (endXoff d p).whl = d.whl := by
  unfold endXoff; dsimp only; split <;> simp
@[simp] theorem endXoff_spn (d : Dev) (p : Port) : (endXoff d p).spn = d.spn := by
  unfold endXoff; dsimp only; split <;> simp
@[simp] theorem endXoff_region (d : Dev) (p : Port) : (endXoff d p).region = d.region := by
  unfold endXoff; dsimp only; split <;> simp
@[simp] theorem endXoff_wrp (d : Dev) (p : Port) : (endXoff d p).wrp = d.wrp := by
  unfold endXoff; dsimp only; split <;> simp
@[simp] theorem endXoff_ccp (d : Dev) (p : Port) : (endXoff d p).ccp = d.ccp := by
  unfold endXoff; dsimp only; split <;> simp
@[simp] theorem endXoff_sht (d : Dev) (p : Port) : (endXoff d p).sht = d.sht := by
  unfold endXoff; dsimp only; split <;> simp
@[simp] theorem endXoff_crd (d : Dev) (p : Port) : (endXoff d p).crd = d.crd := by
  unfold endXoff; dsimp only; split <;> simp
@[simp] theorem endXoff_ply (d : Dev) (p : Port) : (endXoff d p).ply = d.ply := by
  unfold endXoff; dsimp only; split <;> simp
@[simp] theorem endXoff_dst (d : Dev) (p : Port) : (endXoff d p).dst = d.dst := by
  unfold endXoff; dsimp only; split <;> simp
@[simp] theorem endXoff_img (d : Dev) (p : Port) : (endXoff d p).img = d.img := by
  unfold endXoff; dsimp only; split <;> simp
@[simp] theorem endXoff_bob (d : Dev) (p : Port) : (endXoff d p).bob = d.bob := by
  unfold endXoff; dsimp only; split <;> simp
@[simp] theorem endXoff_evt (d : Dev) (p : Port) : (endXoff d p).evt = d.evt := by
  unfold endXoff; dsimp only; split <;> simp

@[simp] theorem pauseWatch_phase (d : Dev) : (pauseWatch d).phase = d.phase := by
  simp [pauseWatch]
@[simp] theorem pauseWatch_free (d : Dev) : (pauseWatch d).free = d.free := by
  simp [pauseWatch]
@[simp] theorem pauseWatch_pwr (d : Dev) : (pauseWatch d).pwr = d.pwr := by
  simp [pauseWatch]
@[simp] theorem pauseWatch_glb (d : Dev) : (pauseWatch d).glb = d.glb := by
  simp [pauseWatch]
@[simp] theorem pauseWatch_start (d : Dev) : (pauseWatch d).start = d.start := by
  simp [pauseWatch]
@[simp] theorem pauseWatch_pra (d : Dev) : (pauseWatch d).pra = d.pra := by
  simp [pauseWatch]
@[simp] theorem pauseWatch_whl (d : Dev) : (pauseWatch d).whl = d.whl := by
  simp [pauseWatch]
@[simp] theorem pauseWatch_spn (d : Dev) : (pauseWatch d).spn = d.spn := by
  simp [pauseWatch]
@[simp] theorem pauseWatch_region (d : Dev) : (pauseWatch d).region = d.region := by
  simp [pauseWatch]
@[simp] theorem pauseWatch_wrp (d : Dev) : (pauseWatch d).wrp = d.wrp := by
  simp [pauseWatch]
@[simp] theorem pauseWatch_ccp (d : Dev) : (pauseWatch d).ccp = d.ccp := by
  simp [pauseWatch]
@[simp] theorem pauseWatch_sht (d : Dev) : (pauseWatch d).sht = d.sht := by
  simp [pauseWatch]
@[simp] theorem pauseWatch_crd (d : Dev) : (pauseWatch d).crd = d.crd := by
  simp [pauseWatch]
@[simp] theorem pauseWatch_ply (d : Dev) : (pauseWatch d).ply = d.ply := by
  simp [pauseWatch]
@[simp] theorem pauseWatch_dst (d : Dev) : (pauseWatch d).dst = d.dst := by
  simp [pauseWatch]
@[simp] theorem pauseWatch_img (d : Dev) : (pauseWatch d).img = d.img := by
  simp [pauseWatch]
@[simp] theorem pauseWatch_bob (d : Dev) : (pauseWatch d).bob = d.bob := by
  simp [pauseWatch]
@[simp] theorem pauseWatch_que (d : Dev) : (pauseWatch d).que = d.que := by
  simp [pauseWatch]
@[simp] theorem pauseWatch_out (d : Dev) : (pauseWatch d).out = d.out := by
  simp [pauseWatch]

@[simp] theorem Dev.setQueue_phase (d : Dev) (p : Port) (c : Nat) (l : List QPkt) : (d.setQueue p c l).phase = d.phase := by
  rfl
@[simp] theorem Dev.setQueue_free (d : Dev) (p : Port) (c : Nat) (l : List QPkt) : (d.setQueue p c l).free = d.free := by
  rfl
@[simp] theorem Dev.setQueue_pwr (d : Dev) (p : Port) (c : Nat) (l : List QPkt) : (d.setQueue p c l).pwr = d.pwr := by
  rfl
@[simp] theorem Dev.setQueue_glb (d : Dev) (p : Port) (c : Nat) (l : List QPkt) : (d.setQueue p c l).glb = d.glb := by
  rfl
@[simp] theorem Dev.setQueue_start (d : Dev) (p : Port) (c : Nat) (l : List QPkt) : (d.setQueue p c l).start = d.start := by
  rfl
@[simp] theorem Dev.setQueue_pra (d : Dev) (p : Port) (c : Nat) (l : List QPkt) : (d.setQueue p c l).pra = d.pra := by
  rfl
@[simp] theorem Dev.setQueue_whl (d : Dev) (p : Port) (c : Nat) (l : List QPkt) : (d.setQueue p c l).whl = d.whl := by
  rfl
@[simp] theorem Dev.setQueue_spn (d : Dev) (p : Port) (c : Nat) (l : List QPkt) : (d.setQueue p c l).spn = d.spn := by
  rfl
@[simp] theorem Dev.setQueue_region (d : Dev) (p : Port) (c : Nat) (l : List QPkt) : (d.setQueue p c l).region = d.region := by
  rfl
@[simp] theorem Dev.setQueue_wrp (d : Dev) (p : Port) (c : Nat) (l : List QPkt) : (d.setQueue p c l).wrp = d.wrp := by
  rfl
@[simp] theorem Dev.setQueue_ccp (d : Dev) (p : Port) (c : Nat) (l : List QPkt) : (d.setQueue p c l).ccp = d.ccp := by
  rfl
@[simp] theorem Dev.setQueue_crd (d : Dev) (p : Port) (c : Nat) (l : List QPkt) : (d.setQueue p c l).crd = d.crd := by
  rfl
@[simp] theorem Dev.setQueue_ply (d : Dev) (p : Port) (c : Nat) (l : List QPkt) : (d.setQueue p c l).ply = d.ply := by
  rfl
@[simp] theorem Dev.setQueue_dst (d : Dev) (p : Port) (c : Nat) (l : List QPkt) : (d.setQueue p c l).dst = d.dst := by
  rfl
@[simp] theorem Dev.setQueue_img (d : Dev) (p : Port) (c : Nat) (l : List QPkt) : (d.setQueue p c l).img = d.img := by
  rfl
@[simp] theorem Dev.setQueue_bob (d : Dev) (p : Port) (c : Nat) (l : List QPkt) : (d.setQueue p c l).bob = d.bob := by
  rfl
@[simp] theorem Dev.setQueue_que (d : Dev) (p : Port) (c : Nat) (l : List QPkt) : (d.setQueue p c l).que = d.que := by
  rfl
@[simp] theorem Dev.setQueue_evt (d : Dev) (p : Port) (c : Nat) (l : List QPkt) : (d.setQueue p c l).evt = d.evt := by
  rfl
@[simp] theorem Dev.setQueue_out (d : Dev) (p : Port) (c : Nat) (l : List QPkt) : (d.setQueue p c l).out = d.out := by
  rfl

@[simp] theorem Dev.qport_modQport_same (d : Dev) (p : Port) (f : QPort → QPort) : (d.modQport p f).qport p = f (d.qport p) := by
  cases p <;> rfl
theorem Dev.qport_modQport_other (d : Dev) (p q : Port) (f : QPort → QPort) (h : p ≠ q) : (d.modQport p f).qport q = d.qport q := by
  cases p <;> cases q <;> first | rfl | exact absurd rfl h

/-- Flow control changes only the priorities in XOFF and the count of frames sent. -/
theorem Dev.modQport_pauses (d : Dev) (p r : Port) (f : QPort → QPort) (h : ∀ q, (f q).pauses = q.pauses) :
    ((d.modQport p f).qport r).pauses = (d.qport r).pauses := by
  by_cases hp : p = r
  · subst hp; simp [h]
  · rw [Dev.qport_modQport_other _ _ _ _ hp]
theorem fcLeave_pauses (d : Dev) (p r : Port) (x : FcFrame) : ((fcLeave d p x).qport r).pauses = (d.qport r).pauses :=
  Dev.modQport_pauses d p r _ (fun _ => rfl)
theorem sendFc_pauses (d : Dev) (p r : Port) (l : KMap Nat) : ((sendFc d p l).qport r).pauses = (d.qport r).pauses := by
  unfold sendFc; dsimp only; split
  · rfl
  · split
    · exact fcLeave_pauses d p r _
    · exact Dev.modQport_pauses d p r _ (fun _ => rfl)
theorem fcEvalPort_pauses (d : Dev) (p r : Port) : ((fcEvalPort d p).qport r).pauses = (d.qport r).pauses := by
  unfold fcEvalPort; dsimp only; split
  · rw [sendFc_pauses]; exact Dev.modQport_pauses d p r _ (fun _ => rfl)
  · rfl
@[simp] theorem bufWatch_qport (d : Dev) (q : Port) : (bufWatch d).qport q = d.qport q := by
  cases q <;> simp [Dev.qport]
@[simp] theorem xoffWatch_qport (d : Dev) (q : Port) : (xoffWatch d).qport q = d.qport q := by
  cases q <;> simp [Dev.qport]
@[simp] theorem pauseWatch_qport (d : Dev) (q : Port) : (pauseWatch d).qport q = d.qport q := by
  cases q <;> simp [Dev.qport]
theorem bufEval_pauses (d : Dev) (q : Port) : ((bufEval d).qport q).pauses = (d.qport q).pauses := by
  simp [bufEval, fcEvalPort_pauses]
@[simp] theorem Dev.queue_setQueue_same (d : Dev) (p : Port) (c : Nat) (l : List QPkt) : (d.setQueue p c l).queue p c = l := by
  simp [Dev.setQueue, Dev.queue, Dev.modSht]
theorem Dev.queue_sht (d d' : Dev) (h : d'.sht = d.sht) (p : Port) (c : Nat) : d'.queue p c = d.queue p c := by
  simp [Dev.queue, h]
@[simp] theorem bufEval_queue (d : Dev) (p : Port) (c : Nat) : (bufEval d).queue p c = d.queue p c :=
  Dev.queue_sht _ _ (bufEval_sht d) p c

end Sys2Proof.Machine
end

