-- ==== Sys2Proof/Laws/Runs.lean ====
section
/-! SUPPORT. How a statement about a command becomes one about its meaning. -/

namespace Sys2Proof.Machine

/-- A command whose meaning is `f` gives what `f` leaves, after the command's time has passed. -/
theorem gives_run {c : Instr} {s : State} {P : Dev → Prop} {dt : Nat} {f : Dev → Dev} (h : exec c s = run dt f s)
    (p : P (f (s.dev.elapse dt))) : Gives c s P := ⟨_, h, rfl, p⟩

end Sys2Proof.Machine
end

