-- ==== Sys2Proof/WellFormed.lean ====
section
/-! DEFINITION. Which commands are well formed: every operand lies in the range the field it stands for has. The
meanings are total; a command that is not well formed is no command the device's surroundings can send. -/

namespace Sys2Proof

/-- A node index (R3). -/
def nodeOk (n : Nat) : Bool := decide (n < 131072)

/-- A thread number (R202). -/
def threadOk (n : Nat) : Bool := decide (n < 131072)

/-- A byte address of 4 octets. -/
def addrOk (a : Nat) : Bool := decide (a < 2 ^ 32)

/-- A value of `n` bits. -/
def bitsOk (n v : Nat) : Bool := decide (v < 2 ^ n)

/-- A packet's numbers fit their fields (R225, R226). -/
def Packet.wf (p : Packet) : Bool :=
  decide (p.hop < 256) && decide (p.ipLen ≤ 65575) && decide (p.len ≤ 65575)

/-- What a received frame says fits its fields (R167, R315). -/
def MacInfo.wf (m : MacInfo) : Bool := decide (m.secLevel < 8) && bitsOk 32 m.fc && m.packet.wf

/-- A CCP packet's numbers fit the header of R189. -/
def CcpPacket.wf (p : CcpPacket) : Bool :=
  bitsOk 16 p.length && bitsOk 64 p.seq && decide (p.body.length ≤ 65535)

/-- A link header's count fits 6 octets (R269). -/
def LinkHeader.wf (h : LinkHeader) : Bool := bitsOk 48 h.seq

/-- A reel header's numbers fit their fields (R325). -/
def Reel.wf (r : Reel) : Bool := bitsOk 16 r.nblk && bitsOk 32 r.svn && bitsOk 32 r.version && bitsOk 32 r.size

/-- A heartbeat's numbers fit their fields (R271). -/
def Heartbeat.wf (b : Heartbeat) : Bool := bitsOk 40 b.asn && decide (b.acks.length ≤ 64)

/-- A downlink record names a node or a broadcast, by a hash of 8 octets (R276). -/
def DownRec.wf (r : DownRec) : Bool :=
  bitsOk 64 r.hash && (match r.dest with | some n => nodeOk n | none => true)

/-- An SD card's file has a length of a FAT file system (R329). -/
def Card.wf : Card → Bool
  | .none | .noFile => true
  | .file length reel => bitsOk 32 length && reel.wf

/-- Well-formed commands. -/
def Instr.wf : Instr → Bool
  | .registerWrite _ addr _ => addrOk addr
  | .svcRegWrite _ _ addr _ => addrOk addr
  | .svcRegRead _ _ addr count => addrOk addr && bitsOk 16 count
  | .shaperWrite _ addr _ | .policerWrite _ addr _ | .fcConfigWrite _ addr _ | .evtStickyClear _ addr _ => addrOk addr
  | .loaderCheck _ reel => reel.wf
  | .bankLoad _ a b _ => a.wf && b.wf
  | .firmwareStart _ tests faults => tests.all (fun t => decide (t.block ≤ 16)) && faults.all (bitsOk 13)
  | .configApply _ faults _ => faults.all (bitsOk 13)
  | .configImageCheck _ image kwBad =>
    (match image with | some l => decide (l.length ≤ 1048576) | none => true) && kwBad.all (fun s => bitsOk 8 s)
  | .supplyMeasure _ vhold _ rails => decide (vhold ≤ 100000) && decide (rails.length = 7)
  | .ptpSync _ _ m => decide (m.domain < 256)
  | .ptpAnnounce _ _ m => decide (m.domain < 256) && decide (m.priority1 < 256) && decide (m.priority2 < 256)
  | .ptpDelayResp _ _ m => decide (m.domain < 256)
  | .txEnd _ _ rl | .reflectionCheck _ _ rl => decide (rl < 0xFFFF)
  | .maskBlockCheck _ _ levels => decide (levels.length ≤ 16)
  | .preambleDetect _ _ _ corr _ _ foff _ => decide (corr ≤ 256) && decide (foff.natAbs ≤ 60000)
  | .frameEnd _ _ _ octets corrected _ => decide (octets.length ≤ 2047) && decide (corrected ≤ 2047)
  | .headerDecode _ _ _ (.sunFsk _ _ len) => decide (len < 2048)
  | .headerDecode _ _ _ (.oqpsk len) => decide (len < 128)
  | .headerDecode _ _ _ (.native octets) => decide (octets.length = 12)
  | .rxFrameProcess _ mac => mac.wf
  | .nodeOffsetLapse _ n | .correctionFrameExpire _ n | .disReceive _ n | .daoPathLapse _ n | .dormantExpire _ n
  | .whereRefresh _ n | .homeLeaseExpire _ n | .nodeRefetchTimeout _ n => nodeOk n
  | .throwConfirmReceive _ n id _ => nodeOk n && bitsOk 16 id
  | .nodeReplyReceive _ n tag data => nodeOk n && bitsOk 32 tag && decide (data.length ≤ 1228)
  | .hankReceive _ _ _ p | .quoteReq _ _ p => p.wf
  | .spindleHold _ th | .powerState _ th => threadOk th
  | .returnTest _ th | .test _ th | .bypass _ th | .unbypass _ th => threadOk th
  | .threadTimeout _ th | .threadRetainExpire _ th | .threadQuery _ th | .completeAck _ th => threadOk th
  | .regRead _ th | .regWrite _ th | .praInfo _ th => threadOk th
  | .healthSummary _ th | .healthLog _ th => threadOk th
  | .nodeReq _ th | .throwGroupSet _ th => threadOk th
  | .objOpen _ th | .objWrite _ th | .objClose _ th | .objDelete _ th => threadOk th
  | .objSend _ th corrected poisoned => threadOk th && bitsOk 32 corrected && poisoned.all (bitsOk 32)
  | .policyWrite _ th | .policyRead _ th => threadOk th
  | .keyLoad _ th _ _ _ steps => threadOk th && decide (steps ≤ 3)
  | .keyAttr _ th | .keyInfo _ th => threadOk th
  | .keyErase _ th _ | .ownerLock _ th _ => threadOk th
  | .lifecycleSet _ th _ faults upto => threadOk th && faults.all (bitsOk 13) && upto.all (fun n => decide (n ≤ 254))
  | .reelStage _ th card _ => threadOk th && card.wf
  | .recoveryCardRead _ card _ => card.wf
  | .imgBegin _ _ size => bitsOk 32 size
  | .imgData _ _ offset count head _ _ _ => bitsOk 32 offset && bitsOk 16 count && head.wf
  | .packetIngress _ _ p => p.wf
  | .heartbeatReceive _ _ h b => h.wf && b.wf
  | .offerReceive _ h r | .assignReceive _ h r => h.wf && r.wf
  | .countersReceive _ h dest _ _ => h.wf && (match dest with | some n => nodeOk n | none => true)
  | .deltaReceive _ h _ _ => h.wf
  | .snapReqReceive _ h node => h.wf && (match node with | some n => nodeOk n | none => true)
  | .snapReceive _ h _ nodes _ _ _ _ _ => h.wf && nodes.all (fun x => nodeOk x.index)
  | .loomBeaconReceive _ h _ _ | .visitQReceive _ h _ _ | .visitAReceive _ h _ _ _ | .whereReceive _ h _ _ _ => h.wf
  | .fwdReceive _ h _ p => h.wf && p.wf
  | .relayReceive _ h _ _ _ tag _ data => h.wf && bitsOk 32 tag && decide (data.length ≤ 1228)
  | .relayResReceive _ h _ _ tag _ data => h.wf && bitsOk 32 tag && decide (data.length ≤ 1228)
  | .holdupCheckStart _ v => decide (v ≤ 100000)
  | .holdupCheckEnd _ v _ => decide (v ≤ 100000)
  | .logicRailRise _ | .resetNRelease _ | .inputRise35V _ | .resetNAssert _ | .inputFall33V _ | .railInTolerance _
  | .railTimeout _ _ | .controlDieResetRelease _ _ _ _ _ | .sfdpDiscovery _ _ | .dramZeroFill _ _
  | .startHold _ _ _ | .praWriteBegin _ | .praWriteComplete _ _ | .praTokenRefill _ | .praLifeUpdate _ _
  | .learnedOffsetWrite _ _ | .tunerCodesWrite _ _ _ | .clockMonitorWindow _ _ _ _ _ _ | .pllLossOfLock _ _
  | .bobbinWordWrite _ _ _ _ | .bobbinWordRead _ _ _ _ | .bobbinFlushWrite _ _ _ | .bobbinFlushComplete _ _ | .bobErrClear _ _ _ | .bobHwmClr _ _ _
  | .temperatureSample _ _ _ | .watchdogExpire _ | .tickStrobe _ _ _ | .drainComplete _ | .scheduleComputation _
  | .phaseDeadlineMiss _ _ | .transmitLatch _ _ _ | .whlLatch _ _ | .whlCtrlWrite _ _ | .whlTodArm _
  | .whlTickPeriodWrite _ _ | .whlEpochWrite _ _ _ | .whlOvrClr _ _ | .ptpDelayReqSend _ _ | .ptpAnnounceTimeout _ _
  | .ppsInEdge _ _ _ | .ppsTimeout _ | .ref10mLoss _ | .ptpPreferenceTimer _ | .ppsOutSecond _ | .launchRelease _
  | .spnTargetWrite _ _ _ | .spindleStateReached _ _ _ | .spnWindowWrite _ _ _ | .spnBindWrite _ _ _ _ | .calStart _ _
  | .inhClr _ _ | .spnTuneWrite _ _ _ | .spnTrimWrite _ _ _ | .calPairEnd _ _ _ | .calBlankEnd _ _
  | .txsynCalPair _ _ _ | .cxRequest _ _ | .cxGrantSample _ _ _ | .cxGrantFall _ _ | .txSequenceStep _ _ _
  | .txStart _ _ | .txReleaseStep _ _ _ | .inhibitRetry _ _ | .receiveIdle _ _ | .holdEnd _ _ | .frameTooLong _ _ _
  | .cellRead _ _ | .cellWrite _ _ | .cellDelete _ _ | .sfArm _ _ _ _ | .sfDisarm _ _ _ _ | .sfSwitch _ _ _
  | .wrpHopWrite _ _ _ _ | .wrpTimingWrite _ _ _ | .dioTrickleTimer _ | .daoReceive _ _ _ _ _ _ _
  | .reassemblyTimeout _ _ _ | .hankAdmit _ | .completionSend _ | .powerOffRails _ | .wakeElapsed _
  | .spindleTestComplete _ _ _ | .throwCmd _ | .reelStageBlock _ _ _ _ _ _ _ | .reelActivate _
  | .reelActivateExecute _ _ | .activateReset _ | .packetIngressEnd _ _ _ | .egressSelect _ _ | .portLink _ _ _
  | .tableRead _ _ | .tableWrite _ _ | .tableDelete _ _ | .tableInsert _ _ | .tableFind _ _ | .tableLookup _ _
  | .bankSwap _ _ | .gateArm _ _ _ | .gateCancel _ _ _ | .gateSwitch _ _ | .gateEntryChange _ _ | .pauseReceive _ _ _
  | .pauseExpire _ _ _ | .pauseLong _ _ _ | .pfcRefresh _ _ _ | .heartbeatSend _ _ | .mergeWaitExpire _ _
  | .treadleTimeout _ | .treadleReset _ | .treadleStatusTimeout _ | .treadleLost _ | .loomBeaconSend _
  | .loomEntryLapse _ _ _ | .visitTimeout _ _ | .keyRemask _ | .rngHealthWindow _ _ | .hello _ _ | .setBaud _ _ _
  | .setBaudRevert _ | .quote _ _ _ | .serviceFrameGap _ | .imgEnd _ _ _ _ _ | .recoveryReset _ _ | .noticeSend _
  | .pickerScan _ _ _ _ _ _ | .thrHwmClr _ _ | .logicRailFall _ | .ref10mQualify _ _ _ | .pllRelock _ _
  | .treadleStatusResume _ | .receiveWindowStart _ _ => true

end Sys2Proof
end

