-- ==== Sys2Proof/Tests/Slice0.lean ====
section
/-! SUPPORT. Tests: a term that each check of WellFormed refuses; for every statement with hypotheses, states and operands that
meet them; and the effects of single commands, with the values the manual gives. -/

namespace Sys2Proof.Tests
open Sys2Proof.Machine

set_option Elab.async false
set_option exponentiation.threshold 400

/-- The state after reset with changes. -/
def mk (f : Dev → Dev) : State := { dev := f State.reset.dev, pending := [] }

/-- The same in a phase. -/
def inPhase (p : Phase) : State := mk fun d => { d with phase := p }

/-- The same with the firmware up. -/
def up (f : Dev → Dev) : State := mk fun d => f { d with phase := .up }

def reelOk (kind : BitVec 8) : Reel :=
  { magic := 0x5245454C, format := 1, kind := kind, keyid := 1, target := 0x4800, nblk := 1, svn := 0, version := 1, size := 1,
    build := 0, zeros := true, hcrcOk := true, headZeros := true, sigOk := true, blocksOk := true, digest := 0 }

/-! ## Starts, resets and the array: the hypotheses of the statements -/

theorem witness_RailSequence :
    (∃ s : State, s.dev.phase = .unpowered)
    ∧ (∃ s : State, s.dev.phase = .off ∧ s.dev.pwr.resetLow = false ∧ s.dev.pwr.inputOk = false ∧ s.dev.pwr.powerOn = true)
    ∧ (∃ (s : State) (dt k : Nat), k < 5 ∧ s.dev.phase = .rails k ∧ s.dev.pwr.t0 + (k + 1) * 1000000 < s.dev.pwr.wall + dt)
    ∧ ∃ (s : State) (dt k : Nat), k < 5 ∧ s.dev.phase = .rails k ∧ s.dev.pwr.t0 + (k + 1) * 1000000 = s.dev.pwr.wall + dt :=
  ⟨⟨inPhase .unpowered, rfl⟩,
   ⟨mk fun d => { d with phase := .off, pwr := { d.pwr with inputOk := false, powerOn := true } }, by decide⟩,
   ⟨inPhase (.rails 4), 5000001, 4, by decide⟩, ⟨inPhase (.rails 0), 1000000, 0, by decide⟩⟩

theorem witness_ResetsKeepWhatPersists :
    (∃ s : State, s.dev.phase.ctrlRuns = true)
    ∧ ∃ s : State, s.dev.phase = .off ∧ s.dev.pwr.resetLow = true ∧ s.dev.pwr.inputOk = true ∧ s.dev.pwr.powerOn = false :=
  ⟨⟨up id, rfl⟩, ⟨mk fun d => { d with phase := .off, pwr := { d.pwr with resetLow := true } }, by decide⟩⟩

/-- The device with PRA_BOOT and the cause of the start given, control die reset about to be released. -/
def booting (boot : Word) (cause : Nat) : State :=
  mk fun d => { d with phase := .rails 5, pwr := { d.pwr with cause := cause }, pra := { d.pra with words := [(2, boot)] } }

/-- FAILS as the ROM counts it (R41). -/
def failsOf (s : State) : Nat :=
  let b := s.dev.pra.word 2
  if bit b 7 && [5, 6, 7].contains s.dev.pwr.cause then min (fld b 3 0 + 1) 15 else fld b 3 0

theorem witness_RomCountsTheStart :
    (∃ s : State, s.dev.phase = .rails 5 ∧ failsOf s < 2) ∧ (∃ s : State, s.dev.phase = .rails 5 ∧ failsOf s = 1)
    ∧ (∃ s : State, s.dev.phase = .inReset ∧ failsOf s = 1) ∧ ∃ s : State, s.dev.phase = .rails 5 ∧ 2 ≤ failsOf s :=
  ⟨⟨booting 0 1, by decide⟩, ⟨booting 0x180 7, by decide⟩,
   ⟨mk fun d => { d with phase := .inReset, pwr := { d.pwr with cause := 5 }, pra := { d.pra with words := [(2, 0x180)] } }, by decide⟩,
   ⟨booting 0x181 7, by decide⟩⟩

def sfdpOk : Sfdp := { present := true, revB := true, fast114 := true, fast144 := false, fourByte := true, sizeMiB := 32 }

/-- All settings groups at the firmware's versions. -/
def grouped : KMap Word := (List.range 8).map fun g => (0x10 + g, 1)

/-- An image of one region, a ply, a key, an identity and a policy, laid out by R43 to R46 (R122, R196, R206, R264, R307). -/
def imageNat : List Nat :=
  [76, 82, 84, 89, 0, 1, 0, 0, 0, 0, 2, 112, 0, 6, 0, 0, 0, 0, 0, 0, 0, 0, 0, 7, 0, 0, 72, 0, 173, 242, 239, 20, 128, 1, 0, 1, 0, 0, 1, 100, 71, 124, 96, 80, 48, 32, 0, 200, 32, 32, 15, 0, 0, 0, 0, 0, 71, 124, 96, 80, 48, 32, 0, 200] ++
  [32, 32, 15, 0, 0, 0, 0, 0, 190, 195, 96, 80, 48, 32, 0, 200, 32, 32, 15, 0, 0, 0, 0, 0, 190, 195, 96, 80, 48, 32, 0, 200, 32, 32, 15, 0, 0, 0, 0, 0, 1, 1, 0, 0, 1, 0, 8, 0, 0, 13, 196, 56, 0, 200, 0, 129, 0, 10, 154, 0, 0, 0, 0, 0] ++
  [0, 0, 0, 0, 0, 0, 0, 0, 0, 0, 0, 0, 0, 0, 0, 0, 0, 0, 0, 0, 0, 0, 0, 0, 0, 0, 0, 0, 0, 0, 0, 0, 0, 0, 0, 0, 0, 0, 0, 0, 0, 0, 0, 0, 0, 0, 0, 0, 0, 0, 0, 0, 0, 0, 0, 0, 0, 0, 0, 0, 0, 0, 0, 0] ++
  [0, 0, 0, 0, 0, 0, 0, 0, 0, 0, 0, 0, 0, 0, 0, 0, 0, 0, 0, 0, 0, 0, 0, 0, 0, 0, 0, 0, 0, 0, 0, 0, 0, 0, 0, 0, 0, 0, 0, 0, 0, 0, 0, 0, 0, 0, 0, 0, 0, 0, 0, 0, 0, 0, 0, 0, 0, 0, 0, 0, 0, 0, 0, 0] ++
  [0, 0, 0, 0, 0, 0, 0, 0, 0, 0, 0, 0, 0, 0, 0, 0, 0, 0, 0, 0, 0, 0, 0, 0, 0, 0, 0, 0, 0, 0, 0, 0, 0, 0, 0, 0, 0, 0, 0, 0, 0, 0, 0, 0, 0, 0, 0, 0, 0, 0, 0, 0, 0, 0, 0, 0, 0, 0, 0, 0, 0, 0, 0, 0] ++
  [0, 0, 0, 0, 0, 0, 0, 0, 0, 0, 0, 0, 0, 0, 0, 0, 0, 0, 0, 0, 0, 0, 0, 0, 0, 0, 0, 0, 0, 0, 0, 0, 0, 0, 0, 0, 0, 0, 0, 0, 0, 0, 0, 0, 0, 0, 0, 0, 0, 0, 0, 0, 0, 0, 0, 0, 0, 0, 0, 0, 0, 0, 0, 0] ++
  [0, 0, 0, 0, 0, 0, 0, 0, 0, 0, 0, 0, 188, 32, 31, 126, 128, 7, 0, 1, 0, 0, 0, 64, 17, 0, 0, 0, 0, 0, 0, 0, 0, 0, 0, 0, 0, 0, 0, 0, 0, 0, 0, 0, 32, 1, 13, 184, 0, 0, 0, 0, 0, 0, 0, 0, 0, 0, 0, 16, 32, 1, 13, 184] ++
  [0, 1, 0, 0, 2, 2, 0, 0, 255, 5, 0, 0, 0, 0, 0, 0, 0, 0, 0, 0, 0, 0, 72, 0, 168, 64, 19, 81, 128, 5, 0, 1, 0, 0, 0, 56, 2, 0, 0, 0, 87, 198, 2, 0, 0, 0, 0, 1, 0, 40, 0, 0, 0, 0, 0, 0, 0, 0, 0, 0, 0, 0, 0, 0] ++
  [0, 0, 0, 0, 0, 0, 0, 0, 0, 0, 0, 0, 0, 0, 0, 0, 0, 0, 0, 0, 0, 0, 0, 0, 0, 0, 0, 0, 66, 82, 186, 140, 128, 6, 0, 1, 0, 0, 0, 24, 0, 2, 1, 0, 32, 1, 13, 184, 0, 0, 0, 0, 0, 0, 0, 0, 0, 0, 0, 1, 185, 240, 0, 0] ++
  [228, 100, 216, 27, 128, 4, 0, 1, 0, 0, 0, 20, 0, 0, 0, 1, 192, 0, 0, 1, 0, 0, 0, 0, 0, 0, 0, 0, 3, 255, 0, 0, 26, 194, 241, 30, 255, 255, 0, 1, 0, 0, 0, 0, 214, 61, 208, 204]

def image : List Byte := imageNat.map (BitVec.ofNat 8)

set_option maxRecDepth 100000

theorem test_image_accepted :
    (match checkImage (measureImage (inPhase .fwStarted).dev image) image [] with | .ok _ => true | .error _ => false) = true := by
  decide +kernel

theorem witness_StepsOfTheStart :
    (∃ (s : State) (f : Sfdp), s.dev.phase = .romBooted ∧ Sfdp.ok f = true)
    ∧ (∃ (s : State) (f : Sfdp), s.dev.phase = .romBooted ∧ Sfdp.ok f = false)
    ∧ (∃ (s : State) (r : Reel), s.dev.phase = .sfdpDone ∧ s.dev.dst.mdLocked = false ∧ Reel.good r 2 s.dev.pra.floor = true)
    ∧ (∃ s : State, s.dev.phase = .loaderDone)
    ∧ (∃ (s : State) (r : Reel), s.dev.phase = .dramDone ∧ s.dev.dst.mdLocked = false ∧ s.dev.pra.trial = false
        ∧ s.dev.pra.activeBank = 0 ∧ Reel.good r 1 s.dev.pra.floor = true)
    ∧ (∃ s : State, s.dev.phase = .bankLoaded ∧ s.dev.pra.lifecycle ≠ 4)
    ∧ (∃ (s : State) (image : List Byte) (keep : List (Nat × ImgRecord)) (skip : List (Nat × Nat × Nat)),
        s.dev.phase = .fwStarted ∧ checkImage (measureImage (s.dev.elapse 0) image) image [] = .ok (keep, skip))
    ∧ (∃ s : State, s.dev.phase = .imageChecked ∧ s.dev.pra.idle = true ∧ s.dev.start.configured = false
        ∧ s.dev.start.resetLeft = none ∧ resetPlan s.dev.pra = none)
    ∧ (∃ (s : State) (l : List (Nat × Word)) (g k : Nat), s.dev.phase = .imageChecked ∧ s.dev.pra.idle = true
        ∧ s.dev.start.resetLeft = some (l, g) ∧ k + 1 = l.length)
    ∧ (∃ s : State, s.dev.phase = .applied ∧ s.dev.pra.idle = true ∧ s.dev.pra.trial = false ∧ s.dev.dst.quoteWait = [])
    ∧ ∃ s : State, s.dev.phase = .applied ∧ s.dev.pra.idle = true ∧ s.dev.pra.trial = false ∧ s.dev.dst.quoteWait ≠ [] := by
  refine ⟨⟨inPhase .romBooted, sfdpOk, by decide⟩, ⟨inPhase .romBooted, { sfdpOk with sizeMiB := 16 }, by decide⟩,
    ⟨inPhase .sfdpDone, reelOk 2, by decide⟩, ⟨inPhase .loaderDone, rfl⟩, ⟨inPhase .dramDone, reelOk 1, by decide⟩,
    ⟨inPhase .bankLoaded, by decide⟩, ?_,
    ⟨mk fun d => { d with phase := .imageChecked, pra := { d.pra with words := (6, 0x80000000) :: grouped } }, by decide⟩,
    ⟨mk fun d => { d with phase := .imageChecked, start := { d.start with resetLeft := some ([(6, 0)], 1) } }, [(6, 0)], 1, 0, by decide⟩,
    ⟨inPhase .applied, by decide⟩,
    ⟨mk fun d => { d with phase := .applied, dst := { d.dst with quoteWait := [(none, 0, 0)] } }, by decide⟩⟩
  have h := test_image_accepted
  generalize hx : checkImage (measureImage (inPhase .fwStarted).dev image) image [] = x at h
  match x, h with
  | .ok (keep, skip), _ => exact ⟨inPhase .fwStarted, image, keep, skip, rfl, hx⟩

theorem witness_RecordsAreApplied :
    (∃ s : State, s.dev.phase = .imageChecked ∧ s.dev.pra.idle = true ∧ s.dev.start.configured = true
      ∧ s.dev.start.resetLeft = none ∧ allEntries s.dev.start.records = [] ∧ s.dev.start.records ≠ []
      ∧ resetPlan (s.dev.start.records.foldl (applyRecord []) (s.dev.elapse 0)).pra = none)
    ∧ (∃ r : ImgRecord, r.kind = tyRegion) ∧ (∃ (r : ImgRecord) (n : Fin 4), r.kind = tySlotframe ∧ (sfRecOf r.payload).spn = n.val)
    ∧ (∃ r : ImgRecord, r.kind = tyIdentity) ∧ (∃ r : ImgRecord, r.kind = tyPly)
    ∧ (∃ (d : Dev) (r : ImgRecord), r.kind = tyKeywrap ∧ commitHalf (d.pra.word (commitWord (keyWrapOf r.payload).skein)) ≠ 0)
    ∧ ∃ (d : Dev) (r : ImgRecord), r.kind = tyKeywrap ∧ commitHalf (d.pra.word (commitWord (keyWrapOf r.payload).skein)) = 0
      ∧ mayInstall d = true ∧ ([] : List Nat).contains (commitWord (keyWrapOf r.payload).skein) = false :=
  ⟨⟨mk fun d => { d with
      phase := .imageChecked, start := { d.start with configured := true, records := [⟨0x8006, 1, []⟩] },
      pra := { d.pra with words := (6, 0x80000000) :: grouped } }, by decide⟩,
   ⟨⟨0x8001, 1, []⟩, by decide⟩, ⟨⟨0x8002, 1, List.replicate 12 0⟩, 0, by decide⟩, ⟨⟨0x8006, 1, []⟩, by decide⟩,
   ⟨⟨0x8007, 1, []⟩, by decide⟩, ⟨State.reset.dev, ⟨0x8005, 1, []⟩, by decide⟩,
   ⟨State.reset.dev, ⟨0x8005, 1, 5 :: List.replicate 15 0⟩, by decide⟩⟩

theorem witness_RegisterAccesses :
    (∃ (s : State) (a : Nat), s.dev.phase.fwRuns = true ∧ persistentWord? a = none ∧ (block? a).isSome = true)
    ∧ (∃ (s : State) (a : Nat), s.dev.phase.fwRuns = true ∧ block? a = none)
    ∧ (∃ (s : State) (a n : Nat), s.dev.phase.fwRuns = true ∧ 0x400 = n ∧ a = 0x700000 + 4 * n)
    ∧ ∃ (s : State) (a n : Nat), s.dev.phase.fwRuns = true ∧ n + 1 = 0x2000 ∧ a = 0x700000 + 4 * n :=
  ⟨⟨up id, 0x10004, by decide⟩, ⟨up id, 0xC00000, by decide⟩, ⟨up id, 0x701000, 0x400, by decide⟩,
   ⟨up id, 0x707FFC, 0x1FFF, by decide⟩⟩

theorem witness_ArrayWritesAndRefill :
    (∃ (s : State) (q : PraReq) (rest : List PraReq), s.dev.phase.ctrlRuns = true ∧ s.dev.pra.busy = none ∧ s.dev.pra.queue = q :: rest
      ∧ 0 < (praDue (s.dev.elapse 0)).pra.tokens q.word)
    ∧ (∃ (s : State) (q : PraReq) (rest : List PraReq), s.dev.phase.fwRuns = true ∧ s.dev.pra.busy = none ∧ s.dev.pra.queue = q :: rest
      ∧ (praDue (s.dev.elapse 0)).pra.tokens q.word = 0 ∧ q.writer = .reg)
    ∧ (∃ (s : State) (q : PraReq), s.dev.pra.busy = some q ∧ q.writer = .firmware ∧ s.dev.phase.fwRuns = true)
    ∧ ∃ s : State, s.dev.phase.ctrlRuns = true ∧ s.dev.pra.wf = true ∧ s.dev.pra.budgetOk = true :=
  ⟨⟨up fun d => { d with pra := { d.pra with queue := [⟨0x400, 1, .reg⟩] } }, ⟨0x400, 1, .reg⟩, [], by decide⟩,
   ⟨up fun d => { d with pra := { d.pra with queue := [⟨0x400, 1, .reg⟩], spent := [(0x400, 4096)] } }, ⟨0x400, 1, .reg⟩, [], by decide⟩,
   ⟨up fun d => { d with pra := { d.pra with busy := some ⟨0x400, 1, .firmware⟩ } }, ⟨0x400, 1, .firmware⟩, by decide⟩,
   ⟨up fun d => { d with pra := { d.pra with spent := [(0, 4096)] } }, by decide⟩⟩

theorem witness_OwnWritesOfTheFirmware :
    (∃ s : State, s.dev.phase.fwRuns = true ∧ s.dev.pra.lifeDue ≤ (s.dev.elapse 0).glb.upNs ∧ s.dev.pra.idle = true
      ∧ 0 < (praDue (s.dev.elapse 0)).pra.tokens 5)
    ∧ (∃ s : State, s.dev.phase.fwRuns = true ∧ s.dev.pra.lifeDue ≤ (s.dev.elapse 0).glb.upNs ∧ s.dev.pra.idle = false
      ∧ 0 < (praDue (s.dev.elapse 0)).pra.tokens 5)
    ∧ (∃ s : State, s.dev.phase = .up ∧ (s.dev.elapse 0).whl.lockedFor 3600000000000 = true ∧ s.dev.pra.word 0x400 = 0x80000000
      ∧ s.dev.pra.learnedAt + 3600000000000 ≤ (s.dev.elapse 0).glb.upNs ∧ s.dev.pra.idle = true
      ∧ 0 < (praDue (s.dev.elapse 0)).pra.tokens 0x400)
    ∧ ∃ (s : State) (n : Fin 4), s.dev.phase = .up ∧ fld (s.dev.pra.word (0x440 + n.val)) 13 8 + 2 ≤ (s.dev.spn.get n).cs
      ∧ s.dev.pra.tunerAt.get n = 0 ∧ s.dev.pra.idle = true ∧ 0 < (praDue (s.dev.elapse 0)).pra.tokens (0x440 + n.val) :=
  ⟨⟨up fun d => { d with pra := { d.pra with lifeDue := 0 } }, by decide⟩,
   ⟨up fun d => { d with pra := { d.pra with lifeDue := 0, busy := some ⟨0x400, 1, .reg⟩ } }, by decide⟩,
   ⟨up fun d => { d with
      whl := { d.whl with lockedSince := some 0, time := 3600000000000 }, glb := { d.glb with upNs := 3600000000000 },
      pra := { d.pra with words := [(0x400, 0x80000000)], refillAt := 3608000000000 } }, by decide⟩,
   ⟨up fun d => { d with spn := d.spn.set 3 { cs := 2 } }, 3, by decide⟩⟩

/-- The device with one bobbin given. -/
def bobAt (b : Nat) (x : Bobbin) : State := up fun d => { d with bob := { d.bob with bobs := [(b, x)] } }

theorem witness_BobbinsAndTheirRegisters :
    (let x (s : State) (b : Fin 26) := (((s.dev.bob.get b).at_ b (s.dev.elapse 0).pwr.wall).showR 0).pump b (s.dev.elapse 0).pwr.wall
     (∃ (s : State) (b : Fin 26), (x s b).discard = false ∧ (x s b).flush = false ∧ (x s b).full b = false ∧ (x s b).waiting = [])
     ∧ (∃ (s : State) (b : Fin 26), (x s b).discard = false ∧ (x s b).flush = false ∧ (x s b).full b = true ∧ bobFree b = false)
     ∧ (∃ (s : State) (b : Fin 26), (x s b).discard = false ∧ (x s b).flush = false ∧ (x s b).full b = true ∧ bobFree b = true)
     ∧ ∃ (s : State) (b : Fin 26), (x s b).discard = false ∧ (x s b).flush = true)
    ∧ (let x (s : State) (b : Fin 26) := ((s.dev.bob.get b).at_ b (s.dev.elapse 0).pwr.wall).showW 1
       (∃ (s : State) (b : Fin 26) (w flip : BitVec 72) (rest : List (BitVec 72)), let v := w ^^^ flip
         (x s b).words = w :: rest ∧ (x s b).flush = false ∧ (x s b).empty = false ∧ psbOk v = true ∧ phiOk v = true ∧ ploOk v = true)
       ∧ (∃ (s : State) (b : Fin 26) (w flip : BitVec 72) (rest : List (BitVec 72)), let v := w ^^^ flip
         (x s b).words = w :: rest ∧ (x s b).flush = false ∧ (x s b).empty = false ∧ psbOk v = true ∧ (phiOk v && ploOk v) = false)
       ∧ ∃ (s : State) (b : Fin 26), (x s b).empty = true)
    ∧ (let x (s : State) (b : Fin 26) := (s.dev.bob.get b).at_ b (s.dev.elapse 0).pwr.wall
       (∃ (s : State) (b : Fin 26) (v : Word), s.dev.phase.fwRuns = true ∧ bit v 31 = false ∧ 0 < fld v 12 0 ∧ fld v 12 0 = bobDepth b)
       ∧ (∃ (s : State) (b : Fin 26) (v : Word), s.dev.phase.fwRuns = true ∧ bit v 31 = true ∧ 0 < fld v 12 0 ∧ fld v 12 0 = bobDepth b
         ∧ (x s b).flush = false ∧ (x s b).sawW = (x s b).wrote ∧ (x s b).ends.all (fun n => decide (n ≤ (x s b).sawW)) = true)
       ∧ (∃ (s : State) (b : Fin 26) (v : Word), s.dev.phase.fwRuns = true ∧ (fld v 12 0 = 0 ∨ bobDepth b < fld v 12 0))
       ∧ (∃ (s : State) (b : Fin 26) (v : Word), s.dev.phase.fwRuns = true ∧ bit v 31 = true
         ∧ (s.dev.bob.get b).parAt ≠ some (s.dev.elapse 0).pwr.wall)
       ∧ (∃ (s : State) (b : Fin 26) (v : Word), s.dev.phase.fwRuns = true ∧ bit v 31 = true ∧ (s.dev.bob.get b).par = true
         ∧ (s.dev.bob.get b).parAt = some (s.dev.elapse 0).pwr.wall)
       ∧ ∃ (s : State) (b : Fin 26), (s.dev.bob.get b).flush = true) :=
  let full : Bobbin := { wrote := 16 }
  let one : Bobbin := { words := [0x430000000000000000], wrote := 1 }
  ⟨⟨⟨up id, 0, by decide⟩, ⟨bobAt 25 full, 25, by decide⟩, ⟨bobAt 24 full, 24, by decide⟩, ⟨bobAt 0 { flush := true }, 0, by decide⟩⟩,
   ⟨⟨bobAt 4 one, 4, 0x430000000000000000, 0, [], by decide⟩, ⟨bobAt 4 one, 4, 0x430000000000000000, 1, [], by decide⟩,
    ⟨up id, 0, by decide⟩⟩,
   ⟨⟨up id, 25, 0x10, by decide⟩, ⟨up id, 25, 0x80000010, by decide⟩, ⟨up id, 25, 0x80000011, by decide⟩,
    ⟨bobAt 3 { par := true, parAt := some 5 }, 3, 0x80000000, by decide⟩, ⟨bobAt 3 { par := true, parAt := some 0 }, 3, 0x80000000, by decide⟩,
    ⟨bobAt 0 { flush := true }, 0, by decide⟩⟩⟩

theorem witness_ClockMonitor :
    (∃ (s : State) (rx : Int), s.dev.phase.ctrlRuns = true ∧ kgetD s.dev.bob.outRun clkBh0 0 = 1 ∧ s.dev.bob.clk.getLsbD clkBh0 = false
      ∧ 200000 < rx.natAbs)
    ∧ (∃ (s : State) (n : Fin 4), s.dev.phase.ctrlRuns = true ∧ s.dev.bob.clk.getLsbD n.val = false)
    ∧ ∃ (s : State) (n : Fin 4), s.dev.phase.ctrlRuns = true ∧ s.dev.bob.unlocked.getLsbD n.val = true :=
  ⟨⟨up fun d => { d with bob := { d.bob with outRun := [(clkBh0, 1)] } }, -200001, by decide⟩, ⟨up id, 3, by decide⟩,
   ⟨up fun d => { d with bob := { d.bob with unlocked := 8 } }, 3, by decide⟩⟩

/-! ## Power, the tick and the clock: the hypotheses -/

theorem witness_TemperatureSupplyAndHoldup :
    (∃ s : State, (s.dev.elapse 0).phase.ctrlRuns = true)
    ∧ (∃ (s : State) (t : Four Int) (i : Fin 4) (since : Nat), let e := s.dev.elapse 0
        e.phase.fwRuns = true ∧ e.glb.power = 3 ∧ t.get i = 1250 ∧ e.evt.liveAt evThermalTrip i.val = false
          ∧ kfind (e.evt.src evThermalTrip).dwell i.val = some since ∧ since + 500000000 = e.pwr.wall)
    ∧ (∃ (s : State) (since vhold : Nat), let e := s.dev.elapse 0
        vhold = 35500 ∧ e.phase.ctrlRuns = true ∧ e.pwr.lowSince = some since ∧ e.pwr.tripDone = false
          ∧ since + 10000000 = e.pwr.wall ∧ e.glb.power = 3)
    ∧ (∃ (s : State) (v1 t : Nat), let e := s.dev.elapse 0
        e.pwr.holdupDue = some t ∧ e.phase = .up ∧ t ≤ e.pwr.wall ∧ v1 = 40000 ∧ e.pwr.pwrfail = false ∧ e.pwr.holdupV1 = none)
    ∧ (∃ (s : State) (v1 v2 : Nat), let e := s.dev.elapse 0
        e.pwr.holdupV1 = some v1 ∧ v2 = 38000 ∧ v2 < v1 ∧ e.pwr.holdupFrom + 1000000 ≤ e.pwr.wall)
    ∧ ∃ (s : State) (v1 v2 : Nat), (s.dev.elapse 0).pwr.holdupV1 = some v1 ∧ v2 < 38000 :=
  ⟨⟨up id, rfl⟩,
   ⟨up fun d => { d with
      glb := { d.glb with power := 3 }, evt := { d.evt with srcs := [(evThermalTrip, { dwell := [(2, 0)] })] },
      pwr := { d.pwr with wall := 500000000 } }, ⟨0, 0, 1250, 0⟩, 2, 0, by decide⟩,
   ⟨up fun d => { d with glb := { d.glb with power := 3 }, pwr := { d.pwr with wall := 10000000, lowSince := some 0 } }, 0, 35500, by decide⟩,
   ⟨up fun d => { d with pwr := { d.pwr with holdupDue := some 0 } }, 40000, 0, by decide⟩,
   ⟨up fun d => { d with pwr := { d.pwr with holdupV1 := some 40000, wall := 1000000 } }, 40000, 38000, by decide⟩,
   ⟨up fun d => { d with pwr := { d.pwr with holdupV1 := some 40000 } }, 40000, 37999, by decide⟩⟩

/-- A planned transmit cell. -/
def cellA : CellRef := { slot := 0, index := 5, sf := 0, span := 1, profile := 0, chan := 3, node := none, type := 2 }

theorem witness_TheTickAndItsPhases :
    (let at_ (s : State) : Prop := let e := s.dev.elapse 0
        e.phase.ctrlRuns = true ∧ e.whl.slotPosAt e.whl.time = 0 ∧ (e.whl.radio = none ∨ e.whl.tickAt ≠ e.whl.time)
     (∃ s : State, at_ s ∧ (s.dev.elapse 0).glb.faultReset = true)
     ∧ (∃ s : State, at_ s ∧ (s.dev.elapse 0).glb.faultReset = false ∧ (s.dev.elapse 0).whl.step = none
        ∧ (s.dev.elapse 0).whl.stepPend = false)
     ∧ ∃ (s : State) (off : Int), at_ s ∧ (s.dev.elapse 0).glb.faultReset = false ∧ (s.dev.elapse 0).whl.step = some off
        ∧ (s.dev.elapse 0).whl.launches = [])
    ∧ (let late (s : State) (drain : Bool) : Prop := ∃ b ∈ (s.dev.elapse 0).whl.before, b.late drain (s.dev.elapse 0).whl.time = true
       let runs (s : State) : Prop := (s.dev.elapse 0).phase.fwRuns = true
       (∃ s : State, let e := s.dev.elapse 0
         runs s ∧ e.whl.drained = false ∧ (∀ b ∈ e.whl.before, b.drained = true) ∧ framesDue e = [])
       ∧ (∃ s : State, let e := s.dev.elapse 0
         runs s ∧ e.whl.before = [] ∧ e.whl.drained = true ∧ e.whl.scheduled = false)
       ∧ (∃ s : State, let e := s.dev.elapse 0
         runs s ∧ e.whl.drained = false ∧ e.whl.drainMissed = false ∧ e.whl.tickAt + 1500000 = e.whl.time ∧ ¬ late s true)
       ∧ (∃ s : State, let e := s.dev.elapse 0
         runs s ∧ e.whl.scheduled = false ∧ e.whl.schedMissed = false ∧ e.whl.tickAt + 2500000 = e.whl.time ∧ ¬ late s false)
       ∧ ∃ (s : State) (n : Fin 4), let e := s.dev.elapse 0
         runs s ∧ (e.spn.get n).nowPlan.isSome = true ∧ e.whl.prepMissed = false ∧ latchAt e e.whl.tickK ≤ (e.whl.time : Int)) :=
  ⟨⟨⟨up fun d => { d with glb := { d.glb with faultReset := true } }, by decide⟩, ⟨up id, by decide⟩,
    ⟨up fun d => { d with whl := { d.whl with step := some (-7) } }, -7, by decide⟩⟩,
   ⟨up fun d => { d with whl := { d.whl with drained := false } }, by decide⟩,
   ⟨up fun d => { d with whl := { d.whl with scheduled := false } }, by decide⟩,
   ⟨up fun d => { d with whl := { d.whl with drained := false, time := 1500000 } }, by decide⟩,
   ⟨up fun d => { d with whl := { d.whl with scheduled := false, time := 2500000 } }, by decide⟩,
   ⟨up fun d => { d with
      whl := { d.whl with time := 3000000, tickK := 0 }, spn := d.spn.set 1 { nowPlan := some (cellA, .beacon) } }, 1, by decide⟩⟩

/-- The device in the slot's transmit part, in a role that transmits, with one spindle given. -/
def cellAt (n : Fin 4) (x : Spn) : State := up fun d => { d with
  glb := { d.glb with power := 3 }, whl := { d.whl with time := 3000000, tickK := 0 }, ply := { d.ply with role := .solo },
  spn := d.spn.set n x }

theorem witness_CellsOfTheSlot :
    (let mine (s : State) (n : Fin 4) (c : CellRef) (f : AirKind) : Prop := let e := s.dev.elapse 0
       latchAt e e.whl.tickK ≤ (e.whl.time : Int) ∧ (e.spn.get n).nowPlan = some (c, f) ∧ e.ply.role.sends = true
         ∧ (e.spn.get n).nowDrops.filter (·.atLatch) = [] ∧ e.glb.power = 3 ∧ (e.spn.get n).tx = none
         ∧ (e.bob.get (4 + n.val)).full (4 + n.val) = false
     (∃ (s : State) (n : Fin 4) (c : CellRef) (f : AirKind), let e := s.dev.elapse 0
       mine s n c f ∧ latchCause e (e.spn.get n) = none ∧ (e.spn.get n).nowUnbound = false ∧ (e.spn.get n).bound c = true)
     ∧ ∃ (s : State) (n : Fin 4) (c : CellRef) (f : AirKind) (l : Lost), let e := s.dev.elapse 0
       mine s n c f ∧ latchCause e (e.spn.get n) = some l)
    ∧ (let window (s : State) (n : Fin 4) : Prop := let e := s.dev.elapse 0
         e.slotTx e.whl.tickK - (e.wrp.sel * 1000 : Nat) ≤ (e.whl.time : Int) ∧ (e.spn.get n).nowDrops = []
           ∧ (e.spn.get n).nowRx.filter (fun c => c.slot == e.whl.tickK) ≠ []
       (∃ (s : State) (n : Fin 4), let e := s.dev.elapse 0
         window s n ∧ lostCause e (e.spn.get n) = none
           ∧ ((e.spn.get n).nowRx.filter (fun c => c.slot == e.whl.tickK)).all (e.spn.get n).bound = true)
       ∧ ∃ (s : State) (n : Fin 4), let e := s.dev.elapse 0
         window s n ∧ lostCause e (e.spn.get n) = some .hold) :=
  let tx : Spn := { nowPlan := some (cellA, .beacon), fitted := true, target := 2, eff := 2, bindsEff := [(0, ⟨true, 0, 3⟩)] }
  let rx : Spn := { nowRx := [cellA], fitted := true, target := 2, eff := 2, bindsEff := [(0, ⟨true, 0, 3⟩)] }
  ⟨⟨⟨cellAt 1 tx, 1, cellA, .beacon, by decide⟩, ⟨cellAt 1 { tx with holdTail := 0 }, 1, cellA, .beacon, .hold, by decide⟩⟩,
   ⟨cellAt 2 rx, 2, by decide⟩, ⟨cellAt 2 { rx with holdTail := 0 }, 2, by decide⟩⟩

theorem witness_WhorlRegisters :
    (∃ (s : State) (v : Word), (s.dev.elapse 0).phase.fwRuns = true ∧ bit v 0 = true ∧ bit v 31 = true
      ∧ (s.dev.elapse 0).whl.enPtp0 = true ∧ bit v 1 = false)
    ∧ (∃ (s : State) (v : Word), (s.dev.elapse 0).phase.fwRuns = true ∧ periodOpen (s.dev.elapse 0) = true ∧ fld v 11 0 = 400)
    ∧ (∃ (s : State) (v : Word), (s.dev.elapse 0).phase.fwRuns = true ∧ periodOpen (s.dev.elapse 0) = true ∧ fld v 11 0 = 4000)
    ∧ (∃ (s : State) (v : Word), (s.dev.elapse 0).phase.fwRuns = true ∧ periodOpen (s.dev.elapse 0) = true ∧ fld v 11 0 = 399)
    ∧ (∃ (s : State) (v : Word), (s.dev.elapse 0).phase.fwRuns = true ∧ periodOpen (s.dev.elapse 0) = true ∧ fld v 11 0 = 4001)
    ∧ ∃ s : State, (s.dev.elapse 0).phase.fwRuns = true ∧ periodOpen (s.dev.elapse 0) = false :=
  ⟨⟨up id, 0x80000001, by decide⟩, ⟨up id, 400, by decide⟩, ⟨up id, 4000, by decide⟩, ⟨up id, 399, by decide⟩,
   ⟨up id, 4001, by decide⟩, ⟨up fun d => { d with glb := { d.glb with power := 3 } }, by decide⟩⟩

def announce : PtpAnnounce :=
  { domain := 0, via := .udp6 false, extra := .none, logInterval := 3, clockId := 7, priority1 := 128, clockClass := 6,
    accuracy := 0x21, variance := 0, priority2 := 128, stepsRemoved := 0, ptpTimescale := true }

/-- The device with BH0's link up and a PTP parent. -/
def ptpUp (p : PtpPort) : State := up fun d => { d with sht := { d.sht with link0 := true }, whl := { d.whl with ptp0 := p } }

theorem witness_PtpMessagesAndPreference :
    (∃ (s : State) (m : PtpAnnounce), let e := s.dev.elapse 0
      ptpRuns e false = true ∧ ptpOurs e m.domain m.via m.extra = true ∧ 0 ≤ m.logInterval ∧ m.logInterval = 3
        ∧ (e.whl.ptp false).parent = none)
    ∧ (∃ (s : State) (m a : PtpAnnounce), let e := s.dev.elapse 0
      ptpRuns e false = true ∧ ptpOurs e m.domain m.via m.extra = true ∧ 0 = m.logInterval ∧ m.logInterval ≤ 3
        ∧ (e.whl.ptp false).parent = some a ∧ a.clockId = m.clockId)
    ∧ (∃ (s : State) (m : PtpAnnounce), let e := s.dev.elapse 0
      ptpRuns e false = true ∧ ptpOurs e m.domain m.via m.extra = false)
    ∧ (∃ (s : State) (m : PtpSync) (a : PtpAnnounce), let e := s.dev.elapse 0
      ptpRuns e false = true ∧ ptpOurs e m.domain m.via m.extra = true ∧ -4 = m.logInterval ∧ m.logInterval ≤ 1
        ∧ (e.whl.ptp false).parent = some a ∧ a.clockId = m.clockId ∧ m.usable = true)
    ∧ (∃ (s : State) (a : PtpAnnounce), let e := s.dev.elapse 0
      ptpRuns e false = true ∧ (e.whl.ptp false).parent = some a ∧ a.via ≠ .udp4
        ∧ (e.whl.ptp false).delayReqDue = e.whl.time)
    ∧ (∃ (s : State) (m : PtpDelayResp) (a : PtpAnnounce) (t1 t2 t3 : Nat), let e := s.dev.elapse 0
      ptpRuns e false = true ∧ ptpOurs e m.domain m.via m.extra = true ∧ (e.whl.ptp false).parent = some a
        ∧ (e.whl.ptp false).delayReqAt = some t3 ∧ (e.whl.ptp false).lastT1T2 = some (t1, t2) ∧ a.clockId = m.clockId)
    ∧ (∃ (s : State) (a : PtpAnnounce), let e := s.dev.elapse 0
      (e.whl.ptp false).parent = some a ∧ e.phase.fwRuns = true
        ∧ ((e.whl.ptp false).lastAnnounce + e.whl.annTmo * logNs a.logInterval ≤ e.whl.time
          ∨ (e.whl.ptp false).lastSync + 16 * logNs (e.whl.ptp false).syncInterval ≤ e.whl.time))
    ∧ ∃ s : State, let e := s.dev.elapse 0
      e.whl.state = .locked ∧ e.whl.src = .pps ∧ e.whl.ptpReady false = true ∧ e.whl.ptpReady true = false
        ∧ (e.whl.ptp false).qualSince + 60000000000 = e.whl.time ∧ e.phase.fwRuns = true :=
  ⟨⟨ptpUp {}, announce, by decide⟩, ⟨ptpUp { parent := some announce }, { announce with logInterval := 0 }, announce, by decide⟩,
   ⟨ptpUp {}, { announce with domain := 1 }, by decide⟩,
   ⟨ptpUp { parent := some announce },
      { domain := 0, via := .udp6 false, extra := .none, logInterval := -4, clockId := 7, t1 := 0, usable := true }, announce, by decide⟩,
   ⟨ptpUp { parent := some announce }, announce, by decide⟩,
   ⟨ptpUp { parent := some announce, delayReqAt := some 3, lastT1T2 := some (1, 2) },
      { domain := 0, via := .udp6 false, extra := .none, clockId := 7, logMinDelayReq := 0, t4 := 4 }, announce, 1, 2, 3, by decide⟩,
   ⟨up fun d => { d with whl := { d.whl with time := 16000000000, ptp0 := { parent := some announce } } }, announce, by decide⟩,
   ⟨up fun d => { d with whl := { d.whl with
      time := 60000000000, state := .locked, src := .pps, ptp0 := { parent := some announce, qual := true } } }, by decide⟩⟩

theorem witness_PpsAndReference :
    (∃ (s : State) (rising : Bool), let e := s.dev.elapse 0
      sourcesRun e = true ∧ rising ≠ e.whl.inEdge ∧ e.whl.src ≠ .pps ∧ e.whl.ppsQual = false ∧ e.whl.todArm = true)
    ∧ (∃ (s : State) (rising : Bool), let e := s.dev.elapse 0
      sourcesRun e = true ∧ rising ≠ e.whl.inEdge ∧ e.whl.src ≠ .pps ∧ ¬ (e.whl.state = .locked ∨ e.whl.state = .holdover)
        ∧ e.whl.todArm = false)
    ∧ (∃ (s : State) (rising : Bool), let e := s.dev.elapse 0
      let t : Int := (e.whl.time : Int) - settingInt e.pra 0x401
      sourcesRun e = true ∧ rising ≠ e.whl.inEdge ∧ e.whl.src ≠ .pps ∧ e.whl.state = .holdover ∧ e.whl.ppsQual = true
        ∧ ((t + 500000000) / 1000000000 * 1000000000 - t).natAbs = 1001)
    ∧ (∃ (s : State) (rising : Bool), rising = (s.dev.elapse 0).whl.inEdge)
    ∧ (∃ (s : State) (t : Nat), let e := s.dev.elapse 0
      e.phase.fwRuns = true ∧ e.whl.ppsLast = some t ∧ t + 2000000000 = e.whl.time)
    ∧ (∃ s : State, (s.dev.elapse 0).phase.fwRuns = true ∧ (s.dev.elapse 0).whl.refQual = true)
    ∧ (∃ (s : State) (edge : Nat) (rate : Int), sourcesRun (s.dev.elapse 0) = true ∧ (s.dev.elapse 0).whl.enRef = true ∧ 50 = edge
      ∧ edge ≤ 150 ∧ rate.natAbs = 110000)
    ∧ (∃ (s : State) (rate : Int), sourcesRun (s.dev.elapse 0) = true ∧ (s.dev.elapse 0).whl.enRef = true ∧ 110000 < rate.natAbs)
    ∧ ∃ s : State, let e := s.dev.elapse 0
      e.phase.ctrlRuns = true ∧ e.whl.time % 1000000000 = 0 ∧ e.whl.outMode = 1 :=
  ⟨⟨up fun d => { d with whl := { d.whl with todArm := true } }, true, by decide⟩, ⟨up id, true, by decide⟩,
   ⟨up fun d => { d with whl := { d.whl with time := 3000001001, state := .holdover, ppsQual := true } }, true, by decide⟩,
   ⟨up id, false, by decide⟩,
   ⟨up fun d => { d with whl := { d.whl with ppsLast := some 0, time := 2000000000 } }, 0, by decide⟩,
   ⟨up fun d => { d with whl := { d.whl with refQual := true } }, by decide⟩,
   ⟨up fun d => { d with whl := { d.whl with enRef := true } }, 50, -110000, by decide⟩,
   ⟨up fun d => { d with whl := { d.whl with enRef := true } }, 110001, by decide⟩,
   ⟨up fun d => { d with whl := { d.whl with outMode := 1, time := 2000000000 } }, by decide⟩⟩

/-- A thread with a command of an opcode. -/
def thr (op : Nat) (c : Cmd) (st : ThrState) (node : BitVec 32 := 0) : Thread :=
  { st := st, msg := { opcode := op, fence := 0, tmo := 0, tag := 9, node := node, cmd := some c }, cmd := c, ident := 1, hseq := 1,
    idx := 0, epoch := 0, adm := 0, admAt := 0, tmoAt := none, src := 0, sport := 0 }

/-- The device with one thread, number 3. -/
def withThr (op : Nat) (c : Cmd) (st : ThrState := .ready) (node : BitVec 32 := 0) (f : Dev → Dev := id) : State :=
  up fun d => f { d with ccp := { d.ccp with threads := [(3, thr op c st node)] } }

def throwAt (t : Nat) : Launch :=
  { at_ := t, throwId := 1, group := 0, action := [], th := 3, members := [], absent := [], armed := [], refused := [], extra := [],
    copies := ⟨0, 0, 0, 0⟩, lastCopy := ⟨none, none, none, none⟩, leadHop := 150, admitted := 0 }

theorem witness_LaunchRelease :
    ∃ (s : State) (l : Launch) (t : Thread), let e := s.dev.elapse 0
      e.phase = .up ∧ e.whl.launches.filter (fun l => decide (l.at_ ≤ e.whl.time)) ≠ [] ∧ (∀ p ∈ e.ccp.threads, p.2.st ≠ .fenced)
        ∧ (e.whl.launches.map (·.throwId)).Nodup ∧ e.whl.launches = [l] ∧ e.thread? l.th = some t ∧ t.st = .running :=
  ⟨withThr 0x22 (.throw 0 1 0 []) .running 0 fun d => { d with whl := { d.whl with launches := [throwAt 0] } }, throwAt 0,
    thr 0x22 (.throw 0 1 0 []) .running, by decide⟩

/-! ## Spindles and reception: the hypotheses -/

/-- A 902 MHz profile of 50 kb/s FSK with no FEC. -/
def prof : Profile :=
  { wave := 1, opts := 0, pre := 8, mask := 0, f0 := 902200, spacing := 200, nchan := 129, ramp := 0, captureDb := 10,
    thresh := 154, coef := [] }

/-- The device with one profile and one spindle given. -/
def spnAt (n : Fin 4) (x : Spn) (f : Dev → Dev := id) : State :=
  up fun d => f { d with region := { profiles := [prof], masks := [[(-400, -300), (400, -300)]] }, spn := d.spn.set n x }

def fitted0 : Spn := { fitted := true, target := 2, eff := 2, window := 18300, windowEff := 18300 }

theorem witness_SpindleRegisters :
    (∃ (s : State) (v : Word), (s.dev.elapse 0).phase.fwRuns = true ∧ fld v 31 30 = 3)
    ∧ (∃ (s : State) (n : Fin 4) (v : Word), (s.dev.elapse 0).phase.fwRuns = true ∧ fld v 31 30 < 3
      ∧ ((s.dev.elapse 0).spn.get n).fitted = false ∧ fld v 31 30 ≠ ((s.dev.elapse 0).spn.get n).target)
    ∧ (∃ (s : State) (n : Fin 4) (v : Word), (s.dev.elapse 0).phase.fwRuns = true ∧ fld v 31 30 < 3
      ∧ ((s.dev.elapse 0).spn.get n).fitted = true ∧ ((s.dev.elapse 0).spn.get n).servesNow = true)
    ∧ (∃ (s : State) (n : Fin 4), (s.dev.elapse 0).phase.fwRuns = true ∧ ((s.dev.elapse 0).spn.get n).target < 3
      ∧ ((s.dev.elapse 0).spn.get n).servesNow = true)
    ∧ (∃ (s : State) (n : Fin 4), (s.dev.elapse 0).phase.fwRuns = true ∧ is24 n = true)
    ∧ (∃ (s : State) (n : Fin 4) (v : Word), (s.dev.elapse 0).phase.fwRuns = true ∧ is24 n = false
      ∧ (fld v 15 0 = 15899 ∨ 18880 < fld v 15 0))
    ∧ (∃ (s : State) (n : Fin 4) (v : Word), (s.dev.elapse 0).phase.fwRuns = true ∧ is24 n = false ∧ 15900 = fld v 15 0
      ∧ fld v 15 0 ≤ 18880
      ∧ bindsOk n (s.dev.elapse 0).region (fld v 15 0) ((s.dev.elapse 0).spn.get n).binds = true
      ∧ ((s.dev.elapse 0).spn.get n).servesNow = false)
    ∧ (∃ (s : State) (n : Fin 4) (v : Word), (s.dev.elapse 0).phase.fwRuns = true ∧ is24 n = false ∧ 15900 ≤ fld v 15 0
      ∧ fld v 15 0 = 18880
      ∧ bindsOk n (s.dev.elapse 0).region (fld v 15 0) ((s.dev.elapse 0).spn.get n).binds = true
      ∧ ((s.dev.elapse 0).spn.get n).servesNow = true)
    ∧ (∃ (s : State) (n : Fin 4) (i : Fin 16) (v : Word) (p : Profile), let e := s.dev.elapse 0
      let x := e.spn.get n
      let b : Bind := { en := bit v 31, profile := fld v 14 12, chan := fld v 9 0 }
      e.phase.fwRuns = true ∧ bit v 31 = true ∧ e.region.profile? b.profile = some p ∧ b.chan < p.nchan
        ∧ bindsOk n e.region x.window (ksetD x.binds i.val b {}) = true)
    ∧ (∃ (s : State) (n : Fin 4), (s.dev.elapse 0).phase.fwRuns = true ∧ ((s.dev.elapse 0).spn.get n).tuneEn = true)
    ∧ ∃ (s : State) (n : Fin 4), (s.dev.elapse 0).phase.fwRuns = true ∧ ((s.dev.elapse 0).spn.get n).tuneEn = false :=
  ⟨⟨up id, 0xC0000000, by decide⟩, ⟨up id, 3, 0x40000000, by decide⟩,
   ⟨spnAt 0 { fitted0 with nowTx := true }, 0, 0x80000000, by decide⟩, ⟨spnAt 0 { fitted0 with nowTx := true }, 0, by decide⟩,
   ⟨up id, 2, by decide⟩, ⟨up id, 1, 15899, by decide⟩, ⟨spnAt 1 fitted0, 1, 15900, by decide⟩,
   ⟨spnAt 1 { fitted0 with nowTx := true }, 1, 18880, by decide⟩,
   ⟨spnAt 0 fitted0, 0, 15, 0x80000040, prof, by decide⟩, ⟨spnAt 0 { fitted0 with tuneEn := true }, 0, by decide⟩,
   ⟨spnAt 0 fitted0, 0, by decide⟩⟩

theorem witness_SpindleStatesAndHolds :
    (∃ (s : State) (n : Fin 4) (m : SpnMode) (t : Nat), ((s.dev.elapse 0).spn.get n).trans = some (m, t))
    ∧ (∃ (s : State) (n : Fin 4) (th : Nat) (t : Thread) (dur : Nat), let e := s.dev.elapse 0
      e.phase = .up ∧ e.thread? th = some t ∧ t.st = .ready ∧ t.cmd = .spindleHold n.val dur ∧ (e.spn.get n).holdPend = none
        ∧ dur = 0xFFFF ∧ (e.spn.get n).servesNow = false)
    ∧ (∃ (s : State) (n : Fin 4) (th : Nat) (t : Thread) (dur : Nat), let e := s.dev.elapse 0
      e.phase = .up ∧ e.thread? th = some t ∧ t.st = .ready ∧ t.cmd = .spindleHold n.val dur ∧ (e.spn.get n).holdPend = none
        ∧ dur = 0)
    ∧ ∃ (s : State) (n : Fin 4) (f t : Nat), let e := s.dev.elapse 0
      (e.spn.get n).hold.map (fun h => (h.from_, h.until_)) = some (f, some t) ∧ t = e.whl.time ∧ e.phase.fwRuns = true :=
  ⟨⟨spnAt 0 { fitted0 with trans := some (.rx, 5) }, 0, .rx, 5, by decide⟩,
   ⟨withThr 0x11 (.spindleHold 2 0xFFFF), 2, 3, thr 0x11 (.spindleHold 2 0xFFFF) .ready, 0xFFFF, by decide⟩,
   ⟨withThr 0x11 (.spindleHold 2 0), 2, 3, thr 0x11 (.spindleHold 2 0) .ready, 0, by decide⟩,
   ⟨spnAt 3 { hold := some ⟨0, some 9⟩ } fun d => { d with whl := { d.whl with time := 9 } }, 3, 0, 9, by decide⟩⟩

/-- A transmission under way. -/
def run : TxRun := { kind := .beacon, cell := some cellA, profile := 0, chan := 3, ts := 0, pri := false, df := 0 }

/-- The device with a transmission on spindle 0. -/
def txAt (t : TxRun) (f : Spn → Spn := id) (g : Dev → Dev := id) : State := spnAt 0 (f { fitted0 with tx := some t }) g

def pairOk : CalPair :=
  { kind := .txsyn, first := { band := 7, v1 := 100, v2 := 0, v3 := 0, steps := [] },
    second := { band := 7, v1 := 97, v2 := 0, v3 := 0, steps := [] } }

theorem witness_Calibration :
    (∃ (s : State) (n : Fin 4) (t : TxRun) (pair : CalPair), ((s.dev.elapse 0).spn.get n).tx = some t ∧ t.chanDone = false
      ∧ t.granted = false ∧ t.ended = none ∧ pair.kind = .txsyn ∧ CalPair.agrees pair = true)
    ∧ (∃ (s : State) (n : Fin 4), let x := (s.dev.elapse 0).spn.get n
      x.blank = true ∧ x.calPairs = 3 ∧ x.blankFrom + (10 + 6 * x.calPairs) * 1000000 ≤ (s.dev.elapse 0).whl.time)
    ∧ (∃ (s : State) (n : Fin 4), let x := (s.dev.elapse 0).spn.get n
      x.blank = true ∧ x.blankFrom + 30000000 = (s.dev.elapse 0).whl.time ∧ x.calOpen ≠ [] ∧ (s.dev.elapse 0).phase.fwRuns = true)
    ∧ ∃ (s : State) (n : Fin 4), let x := (s.dev.elapse 0).spn.get n
      x.blank = true ∧ x.blankFrom + 30000000 = (s.dev.elapse 0).whl.time ∧ x.calOpen = [] ∧ x.calRepeats ≠ 0 :=
  ⟨⟨txAt run, 0, run, pairOk, by decide⟩,
   ⟨spnAt 1 { blank := true, calPairs := 3 } fun d => { d with whl := { d.whl with time := 28000000 } }, 1, by decide⟩,
   ⟨spnAt 1 { blank := true, calOpen := [.rxdc] } fun d => { d with whl := { d.whl with time := 30000000 } }, 1, by decide⟩,
   ⟨spnAt 1 { blank := true, calRepeats := 1 } fun d => { d with whl := { d.whl with time := 30000000 } }, 1, by decide⟩⟩

theorem witness_Coexistence :
    (∃ (s : State) (n : Fin 4) (t : TxRun), let e := s.dev.elapse 0
      (e.spn.get n).tx = some t ∧ t.ended = none ∧ t.requested = false ∧ t.ts = e.whl.time + reqLeadNs e (e.spn.get n) t)
    ∧ (∃ (s : State) (n : Fin 4) (t : TxRun) (grant : Bool), let e := s.dev.elapse 0
      (e.spn.get n).tx = some t ∧ t.ended = none ∧ t.granted = false ∧ samplePoint e (e.spn.get n) t ≤ e.whl.time
        ∧ ((e.spn.get n).cxEn = false ∨ grant = true) ∧ t.chanDone = true)
    ∧ (∃ (s : State) (n : Fin 4) (t : TxRun) (grant : Bool), let e := s.dev.elapse 0
      (e.spn.get n).tx = some t ∧ t.ended = none ∧ t.granted = false ∧ samplePoint e (e.spn.get n) t ≤ e.whl.time
        ∧ (e.spn.get n).cxEn = true ∧ grant = false ∧ e.phase.fwRuns = true)
    ∧ ∃ (s : State) (n : Fin 4) (t : TxRun) (pair : Bool), let e := s.dev.elapse 0
      (e.spn.get n).tx = some t ∧ t.ended = none ∧ is24 n = pair ∧ t.granted = true ∧ (e.spn.get n).cxEn = true
        ∧ (e.spn.get n).cxAbort = true :=
  ⟨⟨txAt { run with ts := 140000 }, 0, { run with ts := 140000 }, by decide⟩,
   ⟨txAt { run with chanDone := true }, 0, { run with chanDone := true }, false, by decide⟩,
   ⟨txAt run (fun x => { x with cxEn := true }), 0, run, false, by decide⟩,
   ⟨txAt { run with granted := true } (fun x => { x with cxEn := true, cxAbort := true }), 0, { run with granted := true }, false,
      by decide⟩⟩

theorem witness_TransmitSequence :
    (∃ (s : State) (n : Fin 4) (t : TxRun) (st : TxStep), let e := s.dev.elapse 0
      (e.spn.get n).tx = some t ∧ t.granted = true ∧ t.ended = none ∧ t.released = 0 ∧ t.step = TxStep.num st
        ∧ t.ts = e.whl.time + TxStep.lead st (t.rampNs e))
    ∧ (∃ (s : State) (n : Fin 4) (t : TxRun), let e := s.dev.elapse 0
      (e.spn.get n).tx = some t ∧ t.step = 5 ∧ t.started = false ∧ t.ended = none ∧ t.ts ≤ e.radioNow)
    ∧ (∃ (s : State) (n : Fin 4) (t : TxRun), ((s.dev.elapse 0).spn.get n).tx = some t ∧ t.started = true ∧ t.ended = none)
    ∧ (∃ (s : State) (n : Fin 4) (t : TxRun) (te : Nat), let e := s.dev.elapse 0
      (e.spn.get n).tx = some t ∧ t.ended = some te ∧ t.released = 0 ∧ te + TxRelease.delay .trsw (t.rampNs e) = e.whl.time)
    ∧ (∃ (s : State) (n : Fin 4) (t : TxRun) (te : Nat), let e := s.dev.elapse 0
      (e.spn.get n).tx = some t ∧ t.ended = some te ∧ t.released = 1 ∧ te + TxRelease.delay .bias (t.rampNs e) = e.whl.time
        ∧ (e.spn.get n).mode = .tx)
    ∧ ∃ (s : State) (n : Fin 4) (t : TxRun) (te : Nat), let e := s.dev.elapse 0
      (e.spn.get n).tx = some t ∧ t.ended = some te ∧ t.released = 2 ∧ te + TxRelease.delay .rx (t.rampNs e) = e.whl.time
        ∧ (e.spn.get n).mode = .synth ∧ (e.spn.get n).mayReceive = true :=
  ⟨⟨txAt { run with granted := true, ts := 120000 }, 0, { run with granted := true, ts := 120000 }, .blank, by decide⟩,
   ⟨txAt { run with step := 5 }, 0, { run with step := 5 }, rfl, rfl, rfl, rfl, Nat.zero_le _⟩,
   ⟨txAt { run with started := true }, 0, { run with started := true }, by decide⟩,
   ⟨txAt { run with ended := some 0 } id (fun d => { d with whl := { d.whl with time := 20000 } }), 0, { run with ended := some 0 }, 0,
      by decide⟩,
   ⟨txAt { run with ended := some 0, released := 1 } (fun x => { x with mode := .tx })
        (fun d => { d with whl := { d.whl with time := 30000 } }), 0, { run with ended := some 0, released := 1 }, 0, by decide⟩,
   ⟨txAt { run with ended := some 0, released := 2 } (fun x => { x with mode := .synth })
        (fun d => { d with whl := { d.whl with time := 120000 } }), 0, { run with ended := some 0, released := 2 }, 0, by decide⟩⟩

theorem witness_ReflectionMaskAndTuner :
    (∃ (s : State) (n : Fin 4) (t : TxRun) (rl : Nat), let e := s.dev.elapse 0
      (e.spn.get n).tx = some t ∧ t.started = true ∧ t.granted = true ∧ t.ended = none ∧ t.checked = false ∧ t.ts + 20000 = e.whl.time
        ∧ t.retry = true ∧ 95 = rl)
    ∧ (∃ (s : State) (n : Fin 4) (t : TxRun) (rl : Nat), let e := s.dev.elapse 0
      (e.spn.get n).tx = some t ∧ t.started = true ∧ t.granted = true ∧ t.ended = none ∧ t.checked = false ∧ t.ts + 20000 = e.whl.time
        ∧ rl = 59 ∧ e.phase.fwRuns = true)
    ∧ (∃ (s : State) (n : Fin 4) (r : Nat), let x := (s.dev.elapse 0).spn.get n
      x.retryAt = some r ∧ x.inhibit = true ∧ x.inhRetry = true ∧ r = (s.dev.elapse 0).whl.time)
    ∧ (let measured (s : State) (n : Fin 4) (t : TxRun) : Prop := let e := s.dev.elapse 0
         (e.spn.get n).tx = some t ∧ t.started = true ∧ t.ended = none ∧ t.granted = true
       let block (s : State) (t : TxRun) : Nat := ((s.dev.elapse 0).whl.time - t.ts) / 100000
       let breach (s : State) (t : TxRun) (levels : List Int) : List Nat :=
         let margins := List.zipWith (fun (p : Int × Int) l => p.2 - l) (maskPoints (s.dev.elapse 0) t.profile) levels
         (List.range margins.length).filter (fun i => decide (margins.getD i 0 < 0))
       (∃ (s : State) (n : Fin 4) (t : TxRun) (levels : List Int), measured s n t ∧ t.blocks < block s t ∧ block s t = t.blocks + 1
         ∧ breach s t levels ≠ [] ∧ (breach s t levels).any (fun i => t.breach.contains i) = false)
       ∧ (∃ (s : State) (n : Fin 4) (t : TxRun) (levels : List Int), measured s n t ∧ t.blocks < block s t ∧ block s t ≠ t.blocks + 1
         ∧ (breach s t levels).any (fun i => t.breach.contains i) = true)
       ∧ ∃ (s : State) (n : Fin 4) (t : TxRun) (levels : List Int), measured s n t ∧ t.blocks < block s t ∧ block s t = t.blocks + 1
         ∧ (breach s t levels).any (fun i => t.breach.contains i) = true)
    ∧ ∃ (s : State) (n : Fin 4) (cs cp : Nat), let e := s.dev.elapse 0
      receiveIdle e (e.spn.get n) = true ∧ (e.spn.get n).tuneWrite = some (cs, cp) :=
  let t : TxRun := { run with started := true, granted := true }
  let at_ (k : Nat) := fun d : Dev => { d with whl := { d.whl with time := k } }
  let late := at_ 20000
  ⟨⟨txAt { t with retry := true } id late, 0, { t with retry := true }, 95, by decide⟩, ⟨txAt t id late, 0, t, 59, by decide⟩,
   ⟨spnAt 1 { retryAt := some 0, inhibit := true, inhRetry := true }, 1, 0, by decide⟩,
   ⟨⟨txAt { t with breach := [1] } id (at_ 100000), 0, { t with breach := [1] }, [-299, -300], by decide⟩,
    ⟨txAt { t with breach := [0] } id (at_ 200000), 0, { t with breach := [0] }, [-299, -300], by decide⟩,
    ⟨txAt { t with breach := [0] } id (at_ 199999), 0, { t with breach := [0] }, [-299, -300], by decide⟩⟩,
   ⟨spnAt 1 { mode := .rx, tuneWrite := some (3, 4) }, 1, 3, 4, by decide⟩⟩

/-- A frame in reception. -/
def rxRun : RxRun := { ts := 0, rssi := -900, snr := 100, foff := 0, profile := 0, chan := 64, slot := 0 }

/-- The device with a frame in reception on binding 15 of spindle 0. -/
def rxAt (r : RxRun) : State := spnAt 0 { fitted0 with mode := .rx, demods := [(15, r)] }

theorem witness_FrameReception :
    (∃ (s : State) (n : Fin 4) (b : Fin 16) (c : Bind) (p : Profile) (corr : Nat) (foff : Int), let e := s.dev.elapse 0
      let x := e.spn.get n
      x.mode = .rx ∧ kfind x.demods b.val = none ∧ kgetD x.bindsEff b.val {} = c ∧ c.en = true
        ∧ e.region.profile? c.profile = some p ∧ p.thresh = corr ∧ foff.natAbs = 60000
        ∧ kgetD x.bindFrom b.val 0 + p.corrNs ≤ e.whl.time ∧ x.validFrom + p.corrNs ≤ e.whl.time)
    ∧ (let getting (s : State) (n : Fin 4) (b : Fin 16) (r : RxRun) (p : Profile) : Prop := let e := s.dev.elapse 0
         (e.spn.get n).silenced = false ∧ kfind (e.spn.get n).demods b.val = some r ∧ e.region.profile? r.profile = some p
           ∧ r.dropped = false ∧ e.whl.slot ≤ r.slot
       (∃ (s : State) (n : Fin 4) (b : Fin 16) (r : RxRun) (p : Profile) (hdr : RxHeader) (len fixed : Nat),
         getting s n b r p ∧ r.len = none ∧ readHeader p.wave hdr = .inl (len, fixed)
           ∧ ((s.dev.elapse 0).spn.get n).storeUsed + 32 + len ≤ 65536)
       ∧ (∃ (s : State) (n : Fin 4) (b : Fin 16) (r : RxRun) (p : Profile) (hdr : RxHeader) (st : Nat),
         getting s n b r p ∧ r.len = none ∧ readHeader p.wave hdr = .inr st ∧ ((s.dev.elapse 0).spn.get n).storeUsed + 32 ≤ 65536)
       ∧ (∃ (s : State) (n : Fin 4) (b : Fin 16) (r : RxRun) (p : Profile) (len : Nat),
         let o := frameOutcome p.wave len [1, 2, 3, 4, 5] 0 true
         let pay := if o.1 = 0 then o.2.2 else []
         getting s n b r p ∧ r.len = some len ∧ r.tooLong (s.dev.elapse 0).region = false ∧ pay ≠ []
           ∧ ((s.dev.elapse 0).spn.get n).storeUsed + (32 + pay.length) ≤ 65536)
       ∧ ∃ (s : State) (n : Fin 4) (b : Fin 16) (r : RxRun) (p : Profile) (len : Nat),
         getting s n b r p ∧ r.len = some len ∧ r.tooLong (s.dev.elapse 0).region = true
           ∧ ((s.dev.elapse 0).spn.get n).storeUsed + 32 ≤ 65536) :=
  let long : Profile := { prof with pre := 4000 }
  let full : RxRun := { rxRun with len := some 2047 }
  ⟨⟨spnAt 0 { fitted0 with mode := .rx, bindsEff := [(15, ⟨true, 0, 64⟩)] } fun d => { d with whl := { d.whl with time := 1000000 } },
      0, 15, ⟨true, 0, 64⟩, prof, 154, -60000, by decide⟩,
   ⟨rxAt rxRun, 0, 15, rxRun, prof, .sunFsk false false 4, 4, 0, by decide⟩,
   ⟨rxAt rxRun, 0, 15, rxRun, prof, .sunFsk false false 3, 1, by decide⟩,
   ⟨rxAt { rxRun with len := some 5 }, 0, 15, { rxRun with len := some 5 }, prof, 5, by decide⟩,
   ⟨up fun d => { d with region := { profiles := [long] }, spn := d.spn.set 0 { demods := [(0, full)] } }, 0, 0, full, long, 2047, by decide⟩⟩

/-! ## Received frames, the warp and the root: the hypotheses -/

/-- An attribute word that allows every master and use in every state of the lifecycle, TYPE AES-256. -/
def attrAll : Word := 0x77EF0200

def skeinAll : Skein := { attr := attrAll, gen := 1, district := 7, s0 := List.replicate 32 0, s1 := List.replicate 32 1 }

def node5 : Node := { eui := 0x55, handle := 0x40005, home := 1, district := 7 }

/-- The device with one node, index 5, and one skein, number 2. -/
def withNode (x : Node) (f : Dev → Dev := id) : State :=
  up fun d => f { d with
    wrp := { d.wrp with nodes := [(5, x)], outsideAccept := true }, dst := { d.dst with skeins := [(2, skeinAll)], rngOk := true } }

def desc (st : Nat) : Descriptor :=
  { ts := 0, profile := 0, chan := 3, bind := 0, status := st, rssi := 0, snr := 0, foff := 0, corr := 0, payload := [], tsEnd := 0,
    slot := 0 }

def packet : Packet :=
  { ipv6 := true, ptp := false, plink := false, src := 1, dst := 2, dscp := 0, ecn := 0, flow := 0, nextHdr := 17, sport := 1,
    dport := 2, frag := false, hop := 64, ipLen := 100, len := 118, poison := false }

def mac : MacInfo :=
  { eui := 0x55, district := 7, keyIndex := 2, secLevel := 5, micOk := true, fc := 1, ackReq := false, kind := .data,
    packet := packet }

/-- A frame with FCF 0x2000, frame version 0b10. -/
def framed : Descriptor := { desc 0 with payload := [0, 0x20] }

theorem witness_ReceivedFrames :
    (∃ (s : State) (f : RxItem) (rest : List RxItem), (s.dev.elapse 0).wrp.rxq = f :: rest ∧ f.d.status ≠ 0 ∧ f.d.late = none)
    ∧ (∃ (s : State) (f : RxItem) (rest : List RxItem) (m : MacInfo) (i : Nat) (v : Node) (k g : Nat), let e := s.dev.elapse 0
      e.wrp.rxq = f :: rest ∧ f.d.status = 0 ∧ (macHeader f.d.payload).version = 2 ∧ m.kind = .data ∧ e.nodeByEui m.eui = some (i, v) ∧ linkCheck e v m = .accepted k g
        ∧ (invoke e k masterLink useDerive).1 = true ∧ m.micOk = true ∧ e.wrp.outsideAccept = true)
    ∧ (∃ (s : State) (i : Nat) (x : Node) (o : Int) (t : Nat), let e := s.dev.elapse 0
      e.node? i = some x ∧ x.offset = some (o, t) ∧ t + 600000000000 = e.glb.upNs)
    ∧ (∃ (s : State) (i : Nat) (x : Node) (tc : Int) (t : Nat), let e := s.dev.elapse 0
      e.node? i = some x ∧ x.corr = some (tc, t) ∧ t = e.whl.time)
    ∧ ∃ st : BitVec 8, st.toNat = 2 :=
  ⟨⟨withNode node5 fun d => { d with wrp := { d.wrp with rxq := [⟨0, desc 7⟩] } }, ⟨0, desc 7⟩, [], by decide⟩,
   ⟨withNode node5 fun d => { d with wrp := { d.wrp with rxq := [⟨0, framed⟩] } }, ⟨0, framed⟩, [], mac, 5, node5, 2, 1, by decide⟩,
   ⟨withNode { node5 with offset := some (3, 0) } fun d => { d with glb := { d.glb with upNs := 600000000000 } }, 5,
      { node5 with offset := some (3, 0) }, 3, 0, by decide⟩,
   ⟨withNode { node5 with corr := some (3, 0) }, 5, { node5 with corr := some (3, 0) }, 3, 0, by decide⟩, ⟨2, by decide⟩⟩

theorem witness_CellsSlotframesAndHops :
    (∃ (s : State) (v : Word), let e := s.dev.elapse 0
      e.phase.fwRuns = true ∧ cellRefusedNow e (ccmdSpn v) (fld v 13 0) (e.wrp.cstg0, e.wrp.cstg1) = none)
    ∧ (∃ (s : State) (v : Word) (st : Status), let e := s.dev.elapse 0
      e.phase.fwRuns = true ∧ cellRefusedNow e (ccmdSpn v) (fld v 13 0) (e.wrp.cstg0, e.wrp.cstg1) = some st)
    ∧ (∃ (s : State) (n : Fin 4) (h : Fin 8) (v : Word), let e := s.dev.elapse 0
      e.phase.fwRuns = true ∧ e.whl.hasAsn = true ∧ e.whl.asn + 2 = (e.wrp.sf n h.val).actHi.toNat * 2 ^ 32 + v.toNat)
    ∧ (∃ (s : State) (n : Fin 4) (h : Fin 8) (v : Word), let e := s.dev.elapse 0
      e.phase.fwRuns = true ∧ (e.wrp.sf n h.val).actHi.toNat * 2 ^ 32 + v.toNat = e.whl.asn + 1)
    ∧ (∃ (s : State) (n : Fin 4) (h : Fin 8), let e := s.dev.elapse 0
      e.phase.fwRuns = true ∧ (e.wrp.sf n h.val).armed = true ∧ e.whl.hasAsn = true ∧ (e.wrp.sf n h.val).act = e.whl.asn)
    ∧ (∃ (s : State) (t : Fin 8), (s.dev.elapse 0).phase.fwRuns = true ∧ (s.dev.elapse 0).wrp.hopBusy t.val = true)
    ∧ (∃ (s : State) (t : Fin 8) (v : Word), (s.dev.elapse 0).phase.fwRuns = true ∧ (s.dev.elapse 0).wrp.hopBusy t.val = false
      ∧ fld v 7 0 = 128)
    ∧ (∃ (s : State) (v : Word), let e := s.dev.elapse 0
      e.phase.fwRuns = true ∧ e.glb.power = 1 ∧ timingOk e.whl.period (fld v 31 16) (fld v 15 0) = true)
    ∧ (∃ (s : State) (v : Word), (s.dev.elapse 0).phase.fwRuns = true ∧ (s.dev.elapse 0).glb.power = 1 ∧ acktOk v = true)
    ∧ ∃ s : State, (s.dev.elapse 0).phase.fwRuns = true ∧ (s.dev.elapse 0).glb.power ≠ 1 :=
  ⟨⟨spnAt 0 fitted0 fun d => { d with wrp := { d.wrp with sfs := [(0, { cfg := 0x80000065 })], hlens := [(0, 4)], cstg0 := 0x80000000, cstg1 := 5 } }, 0, by decide⟩,
   ⟨spnAt 0 fitted0 fun d => { d with wrp := { d.wrp with cstg0 := 0xFFFFFFFF, cstg1 := 0xFFFFFFFF } }, 0, .range, by decide⟩,
   ⟨up id, 3, 7, 2, by decide⟩, ⟨up id, 3, 7, 1, by decide⟩,
   ⟨up fun d => { d with wrp := { d.wrp with sfs := [(0, { armed := true })] } }, 0, 0, by decide⟩,
   ⟨up fun d => { d with wrp := { d.wrp with sfs := [(0, { cfg := 0xFFFFFFFF })] } }, 7, by decide⟩, ⟨up id, 7, 128, by decide⟩,
   ⟨up id, 0x0848044C, by decide⟩, ⟨up id, 0x07D003E8, by decide⟩, ⟨up fun d => { d with glb := { d.glb with power := 2 } }, by decide⟩⟩

theorem witness_RplRoot :
    (∃ s : State, let e := s.dev.elapse 0
      rplRuns e = true ∧ e.ply.role.sends = true ∧ 0 < e.wrp.trickleI ∧ e.wrp.trickleAt = e.whl.time)
    ∧ (∃ (s : State) (i : Nat) (x : Node), rplRuns (s.dev.elapse 0) = true ∧ (s.dev.elapse 0).node? i = some x
      ∧ (s.dev.elapse 0).ply.master = true)
    ∧ (∃ (s : State) (i : Nat) (x : Node), rplRuns (s.dev.elapse 0) = true ∧ (s.dev.elapse 0).node? i = some x
      ∧ (s.dev.elapse 0).ply.master = false)
    ∧ (∃ (s : State) (eui : BitVec 64) (lifetime i : Nat) (x : Node), let e := s.dev.elapse 0
      rplRuns e = true ∧ lifetime = 1 ∧ e.nodeByEui eui = some (i, x) ∧ e.node? i = some x ∧ x.lost = none)
    ∧ (∃ (s : State) (eui : BitVec 64), let e := s.dev.elapse 0
      rplRuns e = true ∧ e.nodeByEui eui = none ∧ e.ply.master = false)
    ∧ (∃ (s : State) (i t : Nat) (x : Node), let e := s.dev.elapse 0
      e.node? i = some x ∧ x.path = some t ∧ x.dormantSince = none ∧ t = e.glb.upNs)
    ∧ ∃ (s : State) (i t : Nat) (x : Node), let e := s.dev.elapse 0
      e.node? i = some x ∧ x.dormantSince = some t ∧ e.ply.master = true ∧ t + dormantNs e = e.glb.upNs :=
  let solo := fun d : Dev => { d with ply := { d.ply with role := .solo, master := true } }
  let paired := fun d : Dev => { d with ply := { d.ply with role := .paired } }
  ⟨⟨up fun d => { solo d with wrp := { d.wrp with trickleI := 8 } }, by decide⟩, ⟨withNode node5 solo, 5, node5, by decide⟩,
   ⟨withNode node5 paired, 5, node5, by decide⟩, ⟨withNode node5 paired, 0x55, 1, 5, node5, by decide⟩,
   ⟨up paired, 0x55, by decide⟩,
   ⟨withNode { node5 with path := some 0 }, 5, 0, { node5 with path := some 0 }, by decide⟩,
   ⟨withNode { node5 with dormantSince := some 0 } fun d =>
      { solo d with glb := { d.glb with upNs := dormantNs d } }, 5, 0, { node5 with dormantSince := some 0 }, by decide⟩⟩

/-! ## The CCP: the hypotheses -/

def ident1 : Identity := { skein := 2, notice := true, addr := 9, port := 47600 }

/-- The device with identity 1 under skein 2, and every command allowed to it. -/
def ccpUp (f : Dev → Dev := id) : State :=
  up fun d => f { d with
    glb := { d.glb with power := 3 },
    ccp := { d.ccp with
      idents := [(1, ident1)],
      policy := [(0, { valid := true, dev := true, ply := 0, idmask := 0xFFFF, lo := 0, hi := 0, classes := 0x3FF }),
                 (1, { valid := true, dev := false, ply := 0, idmask := 0xFFFF, lo := 0, hi := 131071, classes := 0x3FF })] },
    dst := { d.dst with skeins := [(2, skeinAll)], rngOk := true } }

/-- THREAD_QUERY of thread 0, in a packet of identity 1. -/
def hankPkt : CcpPacket :=
  { dst := linkLocal State.reset.dev, src := 9, sport := 47600, datagram := 56, ver := 1, type := 1, ident := 1, flags := 0, length := 56, dply := 0, dside := 0,
    boot := 0, seq := 5, tagOk := true, body := [0, 5, 0, 0, 0, 4, 0, 0, 0, 0, 0, 9, 0, 0, 0, 0, 0, 0, 0, 0] }

theorem witness_HankReceipt :
    (∃ (s : State) (port : Port) (p : CcpPacket), let e := s.dev.elapse 0
      e.phase = .up ∧ ccpHears e port p = true ∧ p.type = 1 ∧ e.ccp.waiting.length < 256 ∧ packetOk p = false)
    ∧ (∃ (s : State) (port : Port) (p : CcpPacket) (x : Identity), let e := s.dev.elapse 0
      e.phase = .up ∧ ccpHears e port p = true ∧ p.type = 1 ∧ e.ccp.waiting.length < 256 ∧ packetOk p = true
        ∧ kfind e.ccp.idents p.ident.toNat = some x ∧ (invoke e x.skein masterCcp useDecrypt).1 = true ∧ p.tagOk = false)
    ∧ (∃ (s : State) (port : Port) (p : CcpPacket) (x : Identity), let e := s.dev.elapse 0
      e.phase = .up ∧ ccpHears e port p = true ∧ p.type = 1 ∧ e.ccp.waiting.length < 256 ∧ packetOk p = true
        ∧ kfind e.ccp.idents p.ident.toNat = some x ∧ (invoke e x.skein masterCcp useDecrypt).1 = true ∧ p.tagOk = true
        ∧ p.seq + 1 = 2 ^ 63 ∧ p.boot ≠ e.ccp.boot ∧ (invoke e x.skein masterCcp useEncrypt).1 = true)
    ∧ ∃ (s : State) (port : Port) (p : CcpPacket) (x : Identity) (cmds : List CmdMsg), let e := s.dev.elapse 0
      e.phase = .up ∧ ccpHears e port p = true ∧ p.type = 1 ∧ e.ccp.waiting.length < 256 ∧ packetOk p = true
        ∧ kfind e.ccp.idents p.ident.toNat = some x ∧ (invoke e x.skein masterCcp useDecrypt).1 = true ∧ p.tagOk = true
        ∧ p.seq < 2 ^ 63 ∧ p.boot = e.ccp.boot ∧ (kgetD e.ccp.runs p.ident.toNat {}).fresh p.seq = true
        ∧ (p.dply = 0 ∨ p.dply.toNat = e.ply.ply) ∧ p.dside.toNat = b2n e.ply.side ∧ parseBody 256 p.body = some cmds :=
  ⟨⟨ccpUp, .bh1, { hankPkt with length := 57 }, by decide⟩, ⟨ccpUp, .bh0, { hankPkt with tagOk := false }, ident1, by decide⟩,
   ⟨ccpUp, .bh0, { hankPkt with boot := 0x100, seq := 2 ^ 63 - 1 }, ident1, by decide⟩,
   ⟨ccpUp, .bh0, hankPkt, ident1, [{ opcode := 5, fence := 0, tmo := 0, tag := 9, node := 0, cmd := some (.threadQuery 0) }], by decide⟩⟩

def hank (m : CmdMsg) : WaitHank := { ident := 1, hseq := 5, src := 9, sport := 47600, cmds := [m] }
def query : CmdMsg := { opcode := 5, fence := 0, tmo := 0, tag := 9, node := 0, cmd := some (.threadQuery 0) }
def throwMsg : CmdMsg := { opcode := 0x22, fence := 0, tmo := 0, tag := 9, node := 0, cmd := some (.throw 3 4 20000000000 []) }
def activateMsg : CmdMsg := { opcode := 0x61, fence := 0, tmo := 0, tag := 9, node := 0, cmd := some (.reelActivate 1 true) }

theorem witness_HankAdmission :
    (∃ (s : State) (w : WaitHank) (rest : List WaitHank) (m : CmdMsg) (st : Status), let e := s.dev.elapse 0
      e.phase = .up ∧ e.ccp.waiting = w :: rest ∧ w.cmds = [m] ∧ w.next = 0 ∧ admission e w.ident m = .inl st)
    ∧ (∃ (s : State) (w : WaitHank) (rest : List WaitHank) (m : CmdMsg) (c : Cmd), let e := s.dev.elapse 0
      e.phase = .up ∧ e.ccp.waiting = w :: rest ∧ w.cmds = [m] ∧ w.next = 0 ∧ admission e w.ident m = .inr c)
    ∧ (∃ (s : State) (w : WaitHank) (rest : List WaitHank) (m : CmdMsg) (g id l : Nat) (action : List Byte), let e := s.dev.elapse 0
      e.phase = .up ∧ e.ccp.waiting = w :: rest ∧ w.cmds[w.next]? = some m ∧ m.opcode = 0x22
        ∧ admission e w.ident m = .inr (.throw g id l action))
    ∧ ∃ (s : State) (w : WaitHank) (rest : List WaitHank) (m : CmdMsg) (bank : Nat) (alone : Bool), let e := s.dev.elapse 0
      e.phase = .up ∧ e.ccp.waiting = w :: rest ∧ w.cmds[w.next]? = some m ∧ m.opcode = 0x61
        ∧ admission e w.ident m = .inr (.reelActivate bank alone) :=
  ⟨⟨ccpUp fun d => { d with ccp := { d.ccp with waiting := [hank { query with opcode := 7 }] } }, hank { query with opcode := 7 }, [],
      { query with opcode := 7 }, .unknownOp, by decide⟩,
   ⟨ccpUp fun d => { d with ccp := { d.ccp with waiting := [hank query] } }, hank query, [], query, .threadQuery 0, by decide⟩,
   ⟨ccpUp fun d => { d with
      ccp := { d.ccp with waiting := [hank throwMsg] },
      whl := { d.whl with state := .locked }, wrp := { d.wrp with nodes := [(5, { node5 with groups := [3], path := some 1 })] } },
      hank throwMsg, [], throwMsg, 3, 4,
      20000000000, [], by decide⟩,
   ⟨ccpUp fun d => { d with
      ccp := { d.ccp with waiting := [hank activateMsg] }, pra := { d.pra with words := [(1, 1), (3, 0x40000000)] },
      pwr := { d.pwr with vhold := 48000, holdupPassed := true } }, hank activateMsg, [], activateMsg, 1, true, by decide⟩⟩

theorem witness_ThreadsInTime :
    (∃ (s : State) (th : Nat) (t : Thread) (x : Nat), let e := s.dev.elapse 0
      e.thread? th = some t ∧ t.tmoAt = some x ∧ t.st ≠ .done ∧ x = e.glb.upNs)
    ∧ (∃ (s : State) (th : Nat) (t : Thread), let e := s.dev.elapse 0
      e.thread? th = some t ∧ t.st = .done ∧ t.doneUp + t.retain * 1000000000 = e.glb.upNs)
    ∧ ∃ (s : State) (th : Nat) (t : Thread) (x : Identity) (rest : List Nat), let e := s.dev.elapse 0
      e.thread? th = some t ∧ e.ccp.doneQ = th :: rest ∧ kfind e.ccp.idents t.ident = some x
        ∧ (invoke e x.skein masterCcp useEncrypt).1 = true ∧ (completionRecord th t).length ≤ 8156
        ∧ ∀ k ∈ e.ccp.doneQ, ∃ u, e.thread? k = some u ∧ u.silent = false :=
  let t := thr 5 (.threadQuery 0) .done
  ⟨⟨ccpUp fun d => { d with ccp := { d.ccp with threads := [(3, { t with st := .running, tmoAt := some 0 })] } }, 3,
      { t with st := .running, tmoAt := some 0 }, 0, by decide⟩,
   ⟨ccpUp fun d => { d with ccp := { d.ccp with threads := [(3, t)] }, glb := { d.glb with upNs := t.retain * 1000000000 } }, 3, t,
      by decide⟩,
   ⟨ccpUp fun d => { d with ccp := { d.ccp with threads := [(3, t)], doneQ := [3] } }, 3, t, ident1, [], by decide, by decide, by decide,
      by decide, by decide, fun k hk => ⟨t, by
        have : k = 3 := by simpa [ccpUp, up, mk, Dev.elapse, Dev.pass, Phase.ctrlRuns] using hk
        subst this; decide⟩⟩⟩

/-! ## Commands of threads: the hypotheses -/

/-- A thread ready with a command meets ReadyFor. -/
theorem witness_ReadyFor (op : Nat) (c : Cmd) (node : BitVec 32) :
    ReadyFor ((withThr op c .ready node).dev.elapse 0) 3 (thr op c .ready node) c := ⟨rfl, rfl, rfl, rfl⟩

theorem witness_QueryAndRegisterCommands :
    (∃ (s : State) (th : Nat) (t : Thread) (f n : Nat), ReadyFor (s.dev.elapse 0) th t (.praInfo f n))
    ∧ (∃ (s : State) (th : Nat) (t : Thread), ReadyFor (s.dev.elapse 0) th t .healthSummary)
    ∧ (∃ (s : State) (th : Nat) (t : Thread) (n f : Nat), ReadyFor (s.dev.elapse 0) th t (.healthLog n f))
    ∧ (∃ (s : State) (th n : Nat) (t : Thread), n ≠ th ∧ ReadyFor (s.dev.elapse 0) th t (.threadQuery n)
      ∧ (s.dev.elapse 0).thread? n = none)
    ∧ (∃ (s : State) (th n : Nat) (t x : Thread), n ≠ th ∧ ReadyFor (s.dev.elapse 0) th t (.threadQuery n)
      ∧ (s.dev.elapse 0).thread? n = some x ∧ x.ident ≠ t.ident)
    ∧ (∃ (s : State) (th n : Nat) (t x : Thread), ReadyFor (s.dev.elapse 0) th t (.completeAck [n])
      ∧ (s.dev.elapse 0).thread? n = some x ∧ x.st = .done ∧ x.ident = t.ident)
    ∧ (∃ (s : State) (th : Nat) (t : Thread) (f n : Nat), ReadyFor (s.dev.elapse 0) th t (.policyRead f n))
    ∧ (∃ (s : State) (th : Nat) (t : Thread) (a n : Nat), ReadyFor (s.dev.elapse 0) th t (.regRead a n))
    ∧ (∃ (s : State) (th : Nat) (t : Thread) (a : Nat) (v : Word), let e := s.dev.elapse 0
      let b := e.modThread th (fun _ => t.begun)
      ReadyFor e th t (.regWrite [(a, v)]) ∧ persistentWord? a = none ∧ (writeAt b a v).1.thread? th = some t.begun)
    ∧ ∃ (s : State) (th w : Nat) (t : Thread) (a : Nat) (v : Word), ReadyFor (s.dev.elapse 0) th t (.regWrite [(a, v)])
      ∧ persistentWord? a = some w :=
  let two (x : Thread) (c : Cmd) : State := up fun d => { d with ccp := { d.ccp with threads := [(3, thr 5 c .ready), (4, x)] } }
  ⟨⟨_, 3, _, 0, 8192, witness_ReadyFor 3 _ 0⟩, ⟨_, 3, _, witness_ReadyFor 4 _ 0⟩, ⟨_, 3, _, 250, 0, witness_ReadyFor 4 _ 0⟩,
   ⟨_, 3, 4, _, by decide, witness_ReadyFor 5 _ 0, rfl⟩,
   ⟨two { thr 5 (.threadQuery 0) .done with ident := 2 } (.threadQuery 4), 3, 4, thr 5 (.threadQuery 4) .ready, _, by decide,
      ⟨rfl, rfl, rfl, rfl⟩, rfl, by decide⟩,
   ⟨two (thr 5 (.threadQuery 0) .done) (.completeAck [4]), 3, 4, thr 5 (.completeAck [4]) .ready, thr 5 (.threadQuery 0) .done,
      ⟨rfl, rfl, rfl, rfl⟩, rfl, rfl, rfl⟩,
   ⟨_, 3, _, 960, 64, witness_ReadyFor 0x41 _ 0⟩, ⟨_, 3, _, 0x10000, 256, witness_ReadyFor 1 _ 0⟩,
   ⟨_, 3, _, 0x10008, 1, witness_ReadyFor 2 _ 0, by decide, by decide⟩,
   ⟨_, 3, 0x400, _, 0x701000, 1, witness_ReadyFor 2 _ 0, by decide⟩⟩

theorem witness_NodeAndObjectCommands :
    (∃ (s : State) (th : Nat) (t : Thread) (data : List Byte), ReadyFor (s.dev.elapse 0) th t (.nodeReq 5683 false data)
      ∧ (s.dev.elapse 0).nodeByHandle t.msg.node = none)
    ∧ (∃ (s : State) (th i : Nat) (t : Thread) (data : List Byte) (x : Node), ReadyFor (s.dev.elapse 0) th t (.nodeReq 5683 false data)
      ∧ (s.dev.elapse 0).nodeByHandle t.msg.node = some (i, x) ∧ x.away = none)
    ∧ (∃ (s : State) (th i : Nat) (t : Thread) (x : Node), let e := s.dev.elapse 0
      e.node? i = some x ∧ e.thread? th = some t ∧ t.st = .running ∧ t.msg.opcode = 0x20 ∧ t.msg.node = x.handle
        ∧ t.wantsReply = true ∧ t.relayed = false)
    ∧ (∃ (s : State) (th i g : Nat) (t : Thread) (x : Node), let e := s.dev.elapse 0
      ReadyFor e th t (.throwGroupSet g true) ∧ e.nodeByHandle t.msg.node = some (i, x) ∧ e.node? i = some x
        ∧ x.groups.contains g = false ∧ x.groups.length = 7)
    ∧ (∃ (s : State) (th i g : Nat) (t : Thread) (x : Node), let e := s.dev.elapse 0
      ReadyFor e th t (.throwGroupSet g true) ∧ e.nodeByHandle t.msg.node = some (i, x) ∧ e.node? i = some x
        ∧ x.groups.contains g = false ∧ x.groups.length = 8)
    ∧ (∃ (s : State) (th i g : Nat) (t : Thread) (x : Node), let e := s.dev.elapse 0
      ReadyFor e th t (.throwGroupSet g false) ∧ e.nodeByHandle t.msg.node = some (i, x) ∧ e.node? i = some x
        ∧ x.groups.contains g = true)
    ∧ (∃ (s : State) (th o n : Nat) (t : Thread), let e := s.dev.elapse 0
      ReadyFor e th t (.objOpen o n 0) ∧ kfind e.ccp.objs o = none ∧ e.ccp.objs.length < 64 ∧ n = bulkFree e)
    ∧ (∃ (s : State) (th o n : Nat) (t : Thread), ReadyFor (s.dev.elapse 0) th t (.objOpen o n 0)
      ∧ (kfind (s.dev.elapse 0).ccp.objs o).isSome = true)
    ∧ (∃ (s : State) (th o off : Nat) (t : Thread) (x : Obj) (l : List Byte), let e := s.dev.elapse 0
      kfind e.ccp.objs o = some x ∧ ReadyFor e th t (.objWrite o off l) ∧ x.closed = false ∧ off + l.length = x.size)
    ∧ (∃ (s : State) (th o : Nat) (t : Thread) (x : Obj), let e := s.dev.elapse 0
      kfind e.ccp.objs o = some x ∧ ReadyFor e th t (.objClose o) ∧ Config.sha384 (x.octets_ 0 x.size) = x.digest)
    ∧ (∃ (s : State) (th o : Nat) (t : Thread) (x : Obj), let e := s.dev.elapse 0
      kfind e.ccp.objs o = some x ∧ ReadyFor e th t (.objClose o) ∧ Config.sha384 (x.octets_ 0 x.size) ≠ x.digest)
    ∧ (∃ (s : State) (th o : Nat) (t : Thread), let e := s.dev.elapse 0
      ReadyFor e th t (.objDelete o) ∧ e.ccp.threads.any (fun p => p.2.uses o) = false)
    ∧ ∃ (s : State) (th o i blk : Nat) (t : Thread) (x : Obj) (y : Node), let e := s.dev.elapse 0
      kfind e.ccp.objs o = some x ∧ x.closed = true ∧ ReadyFor e th t (.objSend o 9 blk)
        ∧ e.nodeByHandle t.msg.node = some (i, y) := by
  let nd (x : Node) (op : Nat) (c : Cmd) (st : ThrState := .ready) : State :=
    withThr op c st 0x40005 fun d => { d with wrp := { d.wrp with nodes := [(5, x)] } }
  let ob (x : Obj) (op : Nat) (c : Cmd) : State := withThr op c .ready 0 fun d => { d with ccp := { d.ccp with objs := [(1, x)] } }
  let dig : BitVec 384 := Config.sha384 [0]
  refine ⟨⟨_, 3, _, [1], witness_ReadyFor 0x20 _ 0x40005, rfl⟩,
    ⟨nd node5 0x20 (.nodeReq 5683 false []), 3, 5, _, [], node5, ⟨rfl, rfl, rfl, rfl⟩, rfl, rfl⟩,
    ⟨nd node5 0x20 (.nodeReq 5683 false []) .running, 3, 5, _, node5, rfl, rfl, rfl, rfl, rfl, rfl, rfl⟩,
    ⟨nd { node5 with groups := [1, 2, 3, 4, 5, 6, 7] } 0x21 (.throwGroupSet 9 true), 3, 5, 9, _, _, ⟨rfl, rfl, rfl, rfl⟩, rfl, rfl, rfl, rfl⟩,
    ⟨nd { node5 with groups := [1, 2, 3, 4, 5, 6, 7, 8] } 0x21 (.throwGroupSet 9 true), 3, 5, 9, _, _, ⟨rfl, rfl, rfl, rfl⟩, rfl, rfl, rfl,
      rfl⟩,
    ⟨nd { node5 with groups := [9] } 0x21 (.throwGroupSet 9 false), 3, 5, 9, _, _, ⟨rfl, rfl, rfl, rfl⟩, rfl, rfl, rfl⟩,
    ⟨withThr 0x30 (.objOpen 1 (bulkFree State.reset.dev) 0), 3, 1, _, _, witness_ReadyFor 0x30 _ 0, rfl, by decide, by decide⟩,
    ⟨ob { size := 1, digest := 0 } 0x30 (.objOpen 1 4 0), 3, 1, 4, _, ⟨rfl, rfl, rfl, rfl⟩, rfl⟩,
    ⟨ob { size := 4, digest := 0 } 0x31 (.objWrite 1 3 [7]), 3, 1, 3, _, _, [7], rfl, ⟨rfl, rfl, rfl, rfl⟩, rfl, rfl⟩,
    ⟨ob { size := 1, digest := dig } 0x32 (.objClose 1), 3, 1, _, _, rfl, ⟨rfl, rfl, rfl, rfl⟩, rfl⟩,
    ⟨ob { size := 1, digest := dig + 1 } 0x32 (.objClose 1), 3, 1, _, _, rfl, ⟨rfl, rfl, rfl, rfl⟩, fun h => ?_⟩,
    ⟨_, 3, 1, _, witness_ReadyFor 0x33 _ 0, rfl⟩,
    ⟨withThr 0x34 (.objSend 1 9 64) .ready 0x40005 fun d => { d with
        ccp := { d.ccp with objs := [(1, { size := 65, digest := 0, closed := true })] }, wrp := { d.wrp with nodes := [(5, node5)] } },
      3, 1, 5, 64, _, _, node5, rfl, rfl, ⟨rfl, rfl, rfl, rfl⟩, rfl⟩⟩
  have h2 : dig = dig + 1 := h
  have h3 : (1 : BitVec 384) = 0 := by
    have := congrArg (fun y => y - dig) h2
    simpa [BitVec.add_comm dig 1] using this.symm
  exact absurd h3 (by decide)

theorem witness_PolicyWrite :
    (∃ (s : State) (th i : Nat) (t : Thread) (entry : List Byte), policyTurn (s.dev.elapse 0) th = true
      ∧ ReadyFor (s.dev.elapse 0) th t (.policyWrite i false entry))
    ∧ ∃ (s : State) (th i k : Nat) (t u : Thread) (entry : List Byte), let e := s.dev.elapse 0
      policyTurn e th = true ∧ ReadyFor e th t (.policyWrite i true entry) ∧ k ≠ th ∧ e.thread? k = some u ∧ u.st ≠ .done
        ∧ epochOlder u.epoch ((e.ccp.epoch + 1) % 65536) = true
        ∧ allowed (putPolicy e i entry) u.ident u.msg.opcode u.msg.node = false :=
  ⟨⟨_, 3, 1023, _, List.replicate 16 0, by decide, witness_ReadyFor 0x40 _ 0⟩,
   ⟨up fun d => { d with ccp := { d.ccp with
      epoch := 65535,
      threads := [(3, thr 0x40 (.policyWrite 0 true (List.replicate 16 0)) .ready),
                  (4, { thr 1 (.regRead 0 1) .running with epoch := 65535 })] } }, 3, 0, 4, thr 0x40 (.policyWrite 0 true (List.replicate 16 0)) .ready,
      { thr 1 (.regRead 0 1) .running with epoch := 65535 }, List.replicate 16 0, by decide, ⟨rfl, rfl, rfl, rfl⟩, by decide, rfl, by decide,
      by decide, by decide⟩⟩

/-- Where no spindle has a hold or a change of service pending, nothing that waits on one is a thread's. -/
theorem untied {d : Dev} (h : ∀ n : Fin 4, (d.spn.get n).holdPend = none ∧ (d.spn.get n).oosPend = none) (th : Nat) :
    Untied d th := fun n =>
  ⟨fun p hp => (by rw [(h n).1] at hp; cases hp), fun p hp => (by rw [(h n).2] at hp; cases hp)⟩

theorem witness_PowerStatesAndTests :
    (∃ (s : State) (th st wake : Nat) (t : Thread) (x : Status), ReadyFor (s.dev.elapse 0) th t (.powerState st wake)
      ∧ powerRefused (s.dev.elapse 0) st wake = some x)
    ∧ (∃ (s : State) (th st wake : Nat) (t : Thread), ReadyFor (s.dev.elapse 0) th t (.powerState st wake)
      ∧ powerRefused (s.dev.elapse 0) st wake = none ∧ st = 0 ∧ wake = 604800)
    ∧ (∃ (s : State) (th st wake : Nat) (t : Thread), ReadyFor (s.dev.elapse 0) th t (.powerState st wake)
      ∧ powerRefused (s.dev.elapse 0) st wake = none ∧ st = 3 ∧ Untied (s.dev.elapse 0) th)
    ∧ (∃ (s : State) (k : Nat), let e := s.dev.elapse 0
      e.pwr.offDue = some k ∧ e.phase.ctrlRuns = true ∧ k = e.pwr.wall)
    ∧ (∃ (s : State) (k : Nat), let e := s.dev.elapse 0
      e.pwr.offAt = some k ∧ e.phase = .off ∧ e.pwr.wake = 1 ∧ k + e.pwr.wake * 1000000000 = e.pwr.wall ∧ e.pwr.resetLow = false
        ∧ e.pwr.inputOk = true ∧ e.pwr.powerOn = false)
    ∧ (∃ (s : State) (th : Nat) (t : Thread) (n : Fin 4), let e := s.dev.elapse 0
      ReadyFor e th t (.spindleTest n.val opTest) ∧ Untied e th ∧ testRefused e n true = none ∧ (e.spn.get n).servesNow = false)
    ∧ (∃ (s : State) (th : Nat) (t : Thread) (n : Fin 4) (st : Status), let e := s.dev.elapse 0
      ReadyFor e th t (.spindleTest n.val opTest) ∧ Untied e th ∧ testRefused e n true = some st)
    ∧ (∃ (s : State) (th : Nat) (t : Thread) (n : Fin 4), let e := s.dev.elapse 0
      ReadyFor e th t (.spindleTest n.val opBypass) ∧ Untied e th ∧ testRefused e n false = none ∧ (e.spn.get n).servesNow = false)
    ∧ (∃ (s : State) (th : Nat) (t : Thread) (n : Fin 4), let e := s.dev.elapse 0
      ReadyFor e th t (.spindleTest n.val opReturn) ∧ (e.spn.get n).oos = .test)
    ∧ (∃ (s : State) (th : Nat) (t : Thread) (n : Fin 4), let e := s.dev.elapse 0
      ReadyFor e th t (.spindleTest n.val opUnbypass) ∧ Untied e th ∧ (e.spn.get n).oosPend = none ∧ (e.spn.get n).oos = .bypass)
    ∧ ∃ (s : State) (th : Nat) (t : Thread) (n : Fin 4), let e := s.dev.elapse 0
      (e.spn.get n).testTh = some th ∧ e.thread? th = some t ∧ t.st = .running :=
  let on (x : Spn) (op : Nat) (f : Dev → Dev := id) (st : ThrState := .ready) : State :=
    withThr 0x12 (.spindleTest 1 op) st 0 fun d => f { d with spn := d.spn.set 1 x }
  let runs := fun d : Dev => { d with glb := { d.glb with power := 3 }, pwr := { d.pwr with vhold := 36000 } }
  ⟨⟨_, 3, 4, 0, _, .range, witness_ReadyFor 0x10 _ 0, by decide⟩, ⟨_, 3, 0, 604800, _, witness_ReadyFor 0x10 _ 0, by decide, rfl, rfl⟩,
   ⟨withThr 0x10 (.powerState 3 0) .ready 0 runs, 3, 3, 0, _, ⟨rfl, rfl, rfl, rfl⟩, by decide, rfl, untied (by decide) 3⟩,
   ⟨up fun d => { d with pwr := { d.pwr with offDue := some 0 } }, 0, by decide⟩,
   ⟨mk fun d => { d with phase := .off, pwr := { d.pwr with offAt := some 0, wake := 1, wall := 1000000000 } }, 0, by decide⟩,
   ⟨on fitted0 opTest runs, 3, _, 1, ⟨rfl, rfl, rfl, rfl⟩, untied (by decide) 3, by decide, by decide⟩,
   ⟨withThr 0x12 (.spindleTest 1 opTest), 3, _, 1, .state, ⟨rfl, rfl, rfl, rfl⟩, untied (by decide) 3, by decide⟩,
   ⟨on fitted0 opBypass, 3, _, 1, ⟨rfl, rfl, rfl, rfl⟩, untied (by decide) 3, by decide, by decide⟩,
   ⟨on { fitted0 with oos := .test } opReturn, 3, _, 1, ⟨rfl, rfl, rfl, rfl⟩, rfl⟩,
   ⟨on { fitted0 with oos := .bypass } opUnbypass, 3, _, 1, ⟨rfl, rfl, rfl, rfl⟩, untied (by decide) 3, rfl, rfl⟩,
   ⟨on { fitted0 with testTh := some 3 } opTest id .running, 3, _, 1, rfl, rfl, rfl⟩⟩

/-! ## Keys, images, the service port, recovery, events: the hypotheses -/

/-- The device with a command ready in thread 3, skein 2, RNG_OK and supply. -/
def keysUp (op : Nat) (c : Cmd) (f : Dev → Dev := id) : State :=
  withThr op c .ready 0 fun d => f { d with
    dst := { d.dst with skeins := [(2, skeinAll)], rngOk := true }, pwr := { d.pwr with vhold := 48000, holdupPassed := true } }

/-- An attribute word for the CCP, TYPE AES-256, every state of the lifecycle. -/
def attrCcp : Word := 0x17C60200

/-- A command ready in thread 3 of `keysUp` meets ReadyFor. -/
theorem ready {op : Nat} {c : Cmd} {f : Dev → Dev} (h : f = id := by rfl) :
    ReadyFor ((keysUp op c f).dev.elapse 0) 3 (thr op c .ready) c := by subst h; exact ⟨rfl, rfl, rfl, rfl⟩

theorem witness_KeyCommands :
    (∃ (s : State) (th k w g : Nat) (t : Thread) (a : Word) (st : Status), let e := s.dev.elapse 0
      inTurn e th isKeyCommand = true ∧ writeTurn e = true ∧ ReadyFor e th t (.keyLoad k w 7 a g []) ∧ keyLoadRefused e k a g = some st)
    ∧ (∃ (s : State) (th k w g : Nat) (t : Thread) (a : Word) (l : List Byte), let e := s.dev.elapse 0
      inTurn e th isKeyCommand = true ∧ writeTurn e = true ∧ ReadyFor e th t (.keyLoad k w 7 a g l) ∧ keyLoadRefused e k a g = none
        ∧ attrType (skeinAttr e w) = 2 ∧ (invoke e w masterCcp useWrap).1 = true ∧ 0 < (praDue e).pra.tokens (commitWord k)
        ∧ l.length = wrapLen (attrType a) ∧ 0 < wrapLen (attrType a))
    ∧ (∃ (s : State) (th k : Nat) (t : Thread) (a : Word), let e := s.dev.elapse 0
      inTurn e th isKeyCommand = true ∧ ReadyFor e th t (.keyAttr k a) ∧ 2 = k ∧ attrConsistent a = true
        ∧ attrType a = attrType (skeinAttr e k) ∧ attrAdds a (skeinAttr e k) = false)
    ∧ (∃ (s : State) (th k : Nat) (t : Thread) (a : Word), let e := s.dev.elapse 0
      inTurn e th isKeyCommand = true ∧ ReadyFor e th t (.keyAttr k a) ∧ 2 ≤ k ∧ attrConsistent a = true
        ∧ attrType a = attrType (skeinAttr e k) ∧ attrAdds a (skeinAttr e k) = true)
    ∧ (∃ (s : State) (th k : Nat) (t : Thread), let e := s.dev.elapse 0
      inTurn e th isKeyCommand = true ∧ writeTurn e = true ∧ ReadyFor e th t (.keyErase k) ∧ 2 ≤ k ∧ e.dst.rngOk = true
        ∧ 0 < (praDue e).pra.tokens (commitWord k))
    ∧ (∃ (s : State) (th k : Nat) (t : Thread) (y : Skein), let e := s.dev.elapse 0
      inTurn e th isKeyCommand = true ∧ ReadyFor e th t (.keyInfo k) ∧ 2 ≤ k ∧ kfind e.dst.skeins k = some y)
    ∧ (∃ (s : State) (th l : Nat) (t : Thread), ReadyFor (s.dev.elapse 0) th t (.lifecycleSet l) ∧ writeTurn (s.dev.elapse 0) = true
      ∧ lifecycleStep (s.dev.elapse 0).pra.lifecycle l = false)
    ∧ (∃ (s : State) (th l : Nat) (t : Thread), let e := s.dev.elapse 0
      ReadyFor e th t (.lifecycleSet l) ∧ writeTurn e = true ∧ lifecycleStep e.pra.lifecycle l = true ∧ l ≠ 4
        ∧ 0 < (praDue e).pra.tokens 1)
    ∧ ∃ (s : State) (k : Nat) (y : Skein), let e := s.dev.elapse 0
      e.dst.rngOk = true ∧ e.phase.ctrlRuns = true ∧ 2 ≤ k ∧ kfind e.dst.skeins k = some y ∧ y.s0.length ≤ 64
        ∧ y.s1.length = y.s0.length
        ∧ let r := kgetD e.dst.root 1 ([], [])
          r.1.length ≤ 64 ∧ r.2.length = r.1.length :=
  ⟨⟨keysUp 0x50 (.keyLoad 1 2 7 attrCcp 2 []), 3, 1, 2, 2, _, attrCcp, .range, by decide, by decide, ready, by decide⟩,
   ⟨keysUp 0x50 (.keyLoad 3 2 7 attrCcp 2 (List.replicate 40 0)), 3, 3, 2, 2, _, attrCcp, _, by decide, by decide, ready, by decide⟩,
   ⟨keysUp 0x51 (.keyAttr 2 attrCcp), 3, 2, _, attrCcp, by decide, ready, by decide⟩,
   ⟨keysUp 0x51 (.keyAttr 2 0x1FC60200), 3, 2, _, 0x1FC60200, by decide, ready, by decide⟩,
   ⟨keysUp 0x52 (.keyErase 2), 3, 2, _, by decide, by decide, ready, by decide⟩,
   ⟨keysUp 0x53 (.keyInfo 2), 3, 2, _, skeinAll, by decide, ready, by decide⟩,
   ⟨keysUp 0x54 (.lifecycleSet 3), 3, 3, _, ready, by decide⟩, ⟨keysUp 0x54 (.lifecycleSet 2), 3, 2, _, ready, by decide⟩,
   ⟨keysUp 0x53 (.keyInfo 2), 2, skeinAll, by decide⟩⟩

theorem witness_AttributeWordsAreConsistent :
    (∃ a : Word, attrType a ≤ 3 ∧ attrConsistent a = true) ∧ (∃ a : Word, attrType a = 3 ∧ attrConsistent a = true)
    ∧ ∃ (s : State) (th k : Nat) (t : Thread) (a : Word), let e := s.dev.elapse 0
      attrType a ≤ 3 ∧ attrConsistent a = false ∧ inTurn e th isKeyCommand = true ∧ ReadyFor e th t (.keyAttr k a) :=
  ⟨⟨attrCcp, by decide⟩, ⟨0x97D00300, by decide⟩,
   ⟨keysUp 0x51 (.keyAttr 2 0x8200), 3, 2, _, 0x8200, by decide, by decide, by decide, ⟨rfl, rfl, rfl, rfl⟩⟩⟩

theorem witness_PacketsAreNumbered :
    ∃ (d : Dev) (i : Nat) (x : Identity), kfind d.ccp.idents i = some x ∧ invoke d x.skein masterCcp useEncrypt = (true, d) :=
  ⟨ccpUp.dev, 1, ident1, rfl, by rw [invoke]; rfl⟩

def quotePkt : CcpPacket := { hankPkt with type := 5, length := 52, datagram := 52, body := List.replicate 32 0 }

theorem witness_ImageCommands :
    (∃ (s : State) (th : Nat) (t : Thread) (st : Status), let e := s.dev.elapse 0
      imageTurn e th = true ∧ writeTurn e = true ∧ stageRefused (praDue e) = some st ∧ ReadyFor e th t .reelStage)
    ∧ (∃ (s : State) (th : Nat) (t : Thread) (card : Card) (r : Reel), let e := s.dev.elapse 0
      imageTurn e th = true ∧ writeTurn e = true ∧ stageRefused (praDue e) = none ∧ cardRefused e.pra.floor card = .inr r
        ∧ ReadyFor e th t .reelStage)
    ∧ (let staging (s : State) (g : Stage) (u : Thread) : Prop := let e := s.dev.elapse 0
         e.img.stage = some g ∧ e.phase = .up ∧ writeTurn e = true ∧ e.thread? g.th = some u ∧ u.st = .running
       (∃ (s : State) (g : Stage) (u : Thread), staging s g u ∧ g.done + 2 = g.reel.nblk)
       ∧ ∃ (s : State) (g : Stage) (u : Thread), staging s g u ∧ g.reel.nblk = g.done + 1 ∧ 0 < (praDue (s.dev.elapse 0)).pra.tokens 3)
    ∧ (∃ (s : State) (th bank : Nat) (t : Thread) (alone : Bool) (rest : List (Nat × Nat × Bool)), let e := s.dev.elapse 0
      (e.img.act = (th, bank, alone) :: rest ∧ activateTick e t = true ∧ imageTurn e th = true ∧ writeTurn e = true
        ∧ e.img.actReset = none ∧ (alone = true ∨ e.ply.partnered = false) ∧ 0 < (praDue e).pra.tokens 3)
      ∧ ReadyFor e th t (.reelActivate bank alone) ∧ Untied e th)
    ∧ (∃ (s : State) (k : Nat), (s.dev.elapse 0).img.actReset = some k ∧ k = (s.dev.elapse 0).glb.upNs)
    ∧ (∃ (s : State) (th : Nat) (t : Thread), let e := s.dev.elapse 0
      (imageTurn e th = true ∧ writeTurn e = true ∧ ownerLocked e = true ∧ fld (e.pra.word 4) 3 0 ≠ t.ident)
      ∧ ReadyFor e th t (.ownerLock false))
    ∧ (∃ (s : State) (th : Nat) (t : Thread), let e := s.dev.elapse 0
      (imageTurn e th = true ∧ writeTurn e = true ∧ e.pra.word 4 ≠ ownerWord true t.ident ∧ 0 < (praDue e).pra.tokens 4)
      ∧ ReadyFor e th t (.ownerLock true))
    ∧ (∃ (s : State) (port : Port) (p : CcpPacket), let e := s.dev.elapse 0
      ccpHears e port p = true ∧ packetOk p = true ∧ p.type = 5 ∧ p.length = 52 ∧ e.phase = .up ∧ e.dst.rngOk = true
        ∧ quoteRoom e = true ∧ (invoke e 1 masterCcp useSign).1 = true)
    ∧ ∃ (s : State) (port : Port) (p : CcpPacket), let e := s.dev.elapse 0
      ccpHears e port p = true ∧ packetOk p = true ∧ p.type = 5 ∧ p.length = 52 ∧ e.phase = .applied :=
  let staging (n : Nat) : State := withThr 0x60 .reelStage .running 0 fun d => { d with
    img := { d.img with stage := some ⟨3, 1, { reelOk 1 with nblk := n }, 0⟩ } }
  ⟨⟨withThr 0x60 .reelStage, 3, _, .supply, by decide, by decide, by decide, rfl, rfl, rfl, rfl⟩,
   ⟨keysUp 0x60 .reelStage, 3, _, .file 131072 (reelOk 1), reelOk 1, by decide, by decide, by decide, by decide, ready⟩,
   ⟨⟨staging 2, ⟨3, 1, { reelOk 1 with nblk := 2 }, 0⟩, thr 0x60 .reelStage .running, by decide⟩,
    ⟨staging 1, ⟨3, 1, { reelOk 1 with nblk := 1 }, 0⟩, thr 0x60 .reelStage .running, by decide⟩⟩,
   ⟨keysUp 0x61 (.reelActivate 1 true) fun d => { d with
      img := { d.img with act := [(3, 1, true)] }, whl := { d.whl with tickK := 2, tickAt := 1, time := 1 } }, 3, 1,
      thr 0x61 (.reelActivate 1 true) .ready, true, [], by decide, ⟨rfl, rfl, rfl, rfl⟩, untied (by decide) 3⟩,
   ⟨up fun d => { d with img := { d.img with actReset := some 0 } }, 0, by decide⟩,
   ⟨keysUp 0x62 (.ownerLock false) fun d => { d with pra := { d.pra with words := [(1, 1), (4, 0x80000002)] } }, 3,
      thr 0x62 (.ownerLock false) .ready, by decide, ⟨rfl, rfl, rfl, rfl⟩⟩,
   ⟨keysUp 0x62 (.ownerLock true), 3, thr 0x62 (.ownerLock true) .ready, by decide, ready⟩,
   ⟨ccpUp, .bh0, quotePkt, by decide⟩, ⟨inPhase .applied, .bh1, quotePkt, by decide⟩⟩

theorem newRequest {d : Dev} (h : d.img.prev = none) (type : Nat) (seq : BitVec 8) : NewRequest d type seq := fun o ho => by
  rw [h] at ho; cases ho

theorem witness_ServicePort :
    (∃ (s : State) (seq : BitVec 8), svcServed (s.dev.elapse 0) = true ∧ ∀ type, NewRequest (s.dev.elapse 0) type seq)
    ∧ (∃ (s : State) (seq : BitVec 8) (st : Status) (l : List Byte), svcServed (s.dev.elapse 0) = true
      ∧ (s.dev.elapse 0).img.prev = some (1, seq, st, l))
    ∧ (∃ (s : State) (k : Nat), let e := s.dev.elapse 0
      svcServed e = true ∧ e.img.baudUntil = some k ∧ k = e.glb.upNs)
    ∧ (∃ (s : State) (seq : BitVec 8) (a : Nat), let e := s.dev.elapse 0
      svcServed e = true ∧ e.phase.fwRuns = true ∧ NewRequest e 4 seq ∧ e.pra.lifecycle = 3 ∧ persistentWord? a = none)
    ∧ (∃ (s : State) (seq : BitVec 8) (a w : Nat), let e := s.dev.elapse 0
      svcServed e = true ∧ e.phase.fwRuns = true ∧ NewRequest e 4 seq ∧ e.pra.lifecycle = 2 ∧ persistentWord? a = some w)
    ∧ (∃ (s : State) (seq : BitVec 8), let e := s.dev.elapse 0
      NewRequest e 5 seq ∧ svcServed e = true ∧ e.phase = .up ∧ e.dst.rngOk = true ∧ quoteRoom e = true
        ∧ (invoke e 1 masterCcp useSign).1 = true)
    ∧ ∃ (s : State) (seq : BitVec 8), let e := s.dev.elapse 0
      NewRequest e 5 seq ∧ svcServed e = true ∧ e.phase = .recovery ∧ e.dst.rngOk = true ∧ quoteRoom e = true
        ∧ (invoke e 1 masterRom useSign).1 = true :=
  let life (n : Word) : State := up fun d => { d with pra := { d.pra with words := [(1, n)] } }
  ⟨⟨up id, 0, rfl, fun _ => newRequest rfl _ _⟩,
   ⟨up fun d => { d with img := { d.img with prev := some (1, 7, .ok, []) } }, 7, .ok, [], rfl, rfl⟩,
   ⟨up fun d => { d with img := { d.img with baudUntil := some 0 } }, 0, rfl, rfl, rfl⟩,
   ⟨life 3, 0, 0x10004, rfl, rfl, newRequest rfl _ _, by decide, by decide⟩,
   ⟨life 2, 0, 0x701000, 0x400, rfl, rfl, newRequest rfl _ _, by decide, by decide⟩,
   ⟨ccpUp, 0, newRequest rfl _ _, by decide⟩,
   ⟨mk fun d => { d with phase := .recovery, dst := { d.dst with rngOk := true } }, 0, newRequest rfl _ _, by decide⟩⟩

/-- The device in recovery, with a transfer. -/
def recovering (x : Option Transfer) (f : Dev → Dev := id) : State :=
  mk fun d => f { d with phase := .recovery, img := { d.img with xfer := x }, pwr := { d.pwr with vhold := 48000 } }

theorem witness_RecoveryMode :
    (∃ (s : State) (seq : BitVec 8), let e := s.dev.elapse 0
      e.phase = .recovery ∧ e.pwr.vsd33 = false ∧ NewRequest e 0x10 seq)
    ∧ (∃ (s : State) (seq : BitVec 8) (x : Transfer) (off n : Nat), let e := s.dev.elapse 0
      e.phase = .recovery ∧ e.pwr.vsd33 = false ∧ NewRequest e 0x11 seq ∧ e.img.xfer = some x ∧ 1 ≤ n ∧ n = 4092 ∧ off = x.got
        ∧ x.got + n ≤ x.size ∧ (x.got + n) / 65536 = x.got / 65536)
    ∧ (∃ (s : State) (seq : BitVec 8) (x : Transfer) (off n : Nat) (head : Reel), let e := s.dev.elapse 0
      e.phase = .recovery ∧ e.pwr.vsd33 = false ∧ NewRequest e 0x11 seq ∧ e.img.xfer = some x ∧ 1 ≤ n ∧ n ≤ 4092 ∧ off = x.got
        ∧ x.got + n ≤ x.size ∧ (x.got + n) / 65536 ≠ x.got / 65536 ∧ 40000 ≤ e.pwr.vhold ∧ x.got < 65536
        ∧ headRefused e.pra.floor head = none ∧ x.size = (1 + head.nblk) * 65536
        ∧ head.kind = 1 ∧ 0 < (praDue e).pra.tokens 3)
    ∧ (∃ (s : State) (seq : BitVec 8) (x : Transfer) (off n : Nat), let e := s.dev.elapse 0
      e.phase = .recovery ∧ e.pwr.vsd33 = false ∧ NewRequest e 0x11 seq ∧ e.img.xfer = some x ∧ 1 ≤ n ∧ n ≤ 4092 ∧ off = x.got
        ∧ x.got + n ≤ x.size ∧ (x.got + n) / 65536 ≠ x.got / 65536 ∧ 40000 ≤ e.pwr.vhold ∧ 65536 ≤ x.got)
    ∧ (∃ (s : State) (seq : BitVec 8) (size : Nat) (r : Reel), let e := s.dev.elapse 0
      e.phase = .recovery ∧ e.pwr.vsd33 = false ∧ NewRequest e 0x12 seq
        ∧ e.img.xfer = some { size := size, got := size, reel := some r } ∧ r.kind = 1 ∧ 0 < (praDue e).pra.tokens 3
        ∧ 0 < (praDue e).pra.tokens 2)
    ∧ (∃ (s : State) (k : Nat), let e := s.dev.elapse 0
      e.phase = .recovery ∧ e.img.recReset = some k ∧ k = e.glb.upNs)
    ∧ (∃ (s : State) (card : Card), let e := s.dev.elapse 0
      e.phase = .recovery ∧ e.pwr.vsd33 = true ∧ cardReel e.pra.floor card = none)
    ∧ ∃ (s : State) (card : Card) (r : Reel), let e := s.dev.elapse 0
      e.phase = .recovery ∧ e.pwr.vsd33 = true ∧ cardReel e.pra.floor card = some r ∧ r.kind ≠ 1 ∧ 40000 ≤ e.pwr.vhold :=
  let x (got : Nat) : Transfer := { size := 131072, got := got, reel := none }
  let full : Transfer := { size := 131072, got := 131072, reel := some (reelOk 1) }
  ⟨⟨recovering none, 0, rfl, rfl, newRequest rfl _ _⟩,
   ⟨recovering (some (x 0)), 0, x 0, 0, 4092, rfl, rfl, newRequest rfl _ _, by decide⟩,
   ⟨recovering (some (x 65532)), 0, x 65532, 65532, 4, reelOk 1, rfl, rfl, newRequest rfl _ _, by decide⟩,
   ⟨recovering (some (x 131068)), 0, x 131068, 131068, 4, rfl, rfl, newRequest rfl _ _, by decide⟩,
   ⟨recovering (some full), 0, 131072, reelOk 1, rfl, rfl, newRequest rfl _ _, by decide⟩,
   ⟨recovering none fun d => { d with img := { d.img with recReset := some 0 } }, 0, by decide⟩,
   ⟨recovering none fun d => { d with pwr := { d.pwr with vsd33 := true } }, .none, by decide⟩,
   ⟨recovering none fun d => { d with pwr := { d.pwr with vsd33 := true } }, .file 131072 (reelOk 2), reelOk 2, by decide⟩⟩

def entry (i : Nat) : LogEntry :=
  { index := i, time := 0, src := 5, deferred := false, kind := 0, count := 1, reps := 0, level := 1, spn := 0xF, payload := [], slot := 0 }

theorem witness_EventsAndPicker :
    (∃ (s : State) (v : Word), (s.dev.elapse 0).phase.fwRuns = true ∧ bit v 31 = true)
    ∧ (∃ (s : State) (l : LogEntry) (rest : List LogEntry) (x : Nat) (y : Identity), let e := s.dev.elapse 0
      let wait := e.evt.log.reverse.filter (fun a => decide (e.evt.noticed ≤ a.index))
      let batch := wait.takeWhile (fun a => a.slot == l.slot)
      e.phase = .up ∧ wait = l :: rest ∧ l.slot ≠ e.whl.slot ∧ noticeIdents e = [(x, y)] ∧ batch.length ≤ 254
        ∧ (∀ a ∈ batch, (e.evt.src a.src).noticeEn = true) ∧ kfind e.ccp.idents x = some y
        ∧ (invoke e y.skein masterCcp useEncrypt).1 = true)
    ∧ (∃ s : State, (s.dev.elapse 0).phase.ctrlRuns = true)
    ∧ ∃ (s : State) (i : Nat) (p : Policy), (s.dev.elapse 0).phase.ctrlRuns = true ∧ kfind (s.dev.elapse 0).ccp.policy i = some p :=
  ⟨⟨up id, 0x80000000, by decide⟩,
   ⟨ccpUp fun d => { d with evt := { d.evt with log := [entry 1, entry 0] }, whl := { d.whl with time := 10000000 } }, entry 0, [entry 1], 1,
      ident1, by decide⟩, ⟨up id, rfl⟩, ⟨ccpUp, 0, _, rfl, rfl⟩⟩

/-! ## The shuttle: the hypotheses -/

/-- The device with every link up. -/
def shtUp (f : Dev → Dev := id) : State :=
  up fun d => f { d with sht := { d.sht with link0 := true, link1 := true, linkp := true }, ply := { d.ply with devAddr := 2 } }

/-- A table entry of MAM index 0 that matches every destination, and its hit. -/
def toNode : TEntry := { pre := 0, len := 0, result := 0x80000005, valid := true }
def mamHit : Hit := { level := 1, index := 0, e := toNode }
def routed (f : Dev → Dev := id) : State := shtUp fun d => f { d with sht := { d.sht with bank := { mam := [(0, toNode)] } } }

def queued (p : Packet) (port : Port) (whole : Bool) : QPkt :=
  { p := p, inPort := port, inClass := 0, minCells := 1, shared := 0, head := 0, node := none, whole := whole }

set_option maxRecDepth 100000 in
theorem witness_PacketsEnter :
    (let enters (s : State) (port : Port) (k : Packet) : Prop := let e := s.dev.elapse 0
       shuttleRuns e port = true ∧ k.ipv6 = true ∧ (e.crd.selOf (qkey port (dscpClass e k.dscp))).1 = false
     let mine (s : State) (port : Port) (k : Packet) (r : Option (Nat × Nat × Nat) × Bool) : Prop := let e := s.dev.elapse 0
       enters s port k ∧ ownAddr e port k.dst = true ∧ k.ipLen ≤ 1280
         ∧ drawCells e .cpu (dscpClass e k.dscp) ((k.len + 255) / 256) port (dscpClass e k.dscp) = r
     let toMesh (s : State) (port : Port) (k : Packet) (h : Hit) : Prop := let e := s.dev.elapse 0
       enters s port k ∧ ownAddr e port k.dst = false ∧ lookup e false k.dst = (e, some h) ∧ fld h.e.result 31 29 = 4 ∧ port ≠ .mesh
     (∃ (s : State) (port : Port) (k : Packet), shuttleRuns (s.dev.elapse 0) port = true ∧ k.ipv6 = false
       ∧ ¬ (isBh port = true ∧ (k.ptp = true ∨ k.plink = true)))
     ∧ (∃ (s : State) (port : Port) (k : Packet) (m h : Nat), mine s port k (some (m, h, 0), false) ∧ k.ipLen = 1280
         ∧ (s.dev.elapse 0).sht.ecnEn = false)
     ∧ (∃ (s : State) (port : Port) (k : Packet) (hdrm : Bool), mine s port k (none, hdrm))
     ∧ (∃ (s : State) (port : Port) (k : Packet), let e := s.dev.elapse 0
         enters s port k ∧ ownAddr e port k.dst = false ∧ lookup e false k.dst = (e, none) ∧ e.sht.missAct = 0)
     ∧ (∃ (s : State) (port : Port) (k : Packet) (h : Hit), toMesh s port k h ∧ k.hop = 1)
     ∧ (∃ (s : State) (port : Port) (k : Packet) (h : Hit), toMesh s port k h ∧ 1 < k.hop ∧ k.ipLen = 1281 ∧ splits port k = false)
     ∧ (∃ (s : State) (port : Port) (k : Packet) (h : Hit) (n : Nat), let e := s.dev.elapse 0
         toMesh s port k h ∧ k.hop = 2 ∧ k.ipLen ≤ 1280 ∧ meshNode e h.e.result k.dst = some n ∧ e.present n = false)
     ∧ (∃ (s : State) (port : Port) (g : Ingress), let e := s.dev.elapse 0
         kfind e.sht.ingress port.num = some g ∧ (e.queue g.port g.cls).any (·.arriving port) = true ∧ cutsNow e g.port port = false)
     ∧ ∃ (s : State) (port : Port) (g : Ingress), let e := s.dev.elapse 0
         kfind e.sht.ingress port.num = some g ∧ cutsNow e g.port port = true) :=
  let far : Packet := { packet with dst := 7 }
  let entering (q : List QPkt) (x : QPort) : State := shtUp fun d => { d with
    sht := { d.sht with ingress := [(0, ⟨.plk, 0⟩)], queues := [(qkey .plk 0, q)] }, que := { d.que with p2 := x } }
  ⟨⟨shtUp, .bh0, { packet with ipv6 := false }, by decide +kernel⟩, ⟨shtUp, .bh0, { packet with ipLen := 1280 }, 1, 0, by decide +kernel⟩,
   ⟨shtUp fun d => { d with sht := { d.sht with qcfg := [(qkey .cpu 0, (0, 0, 0))], queues := [(qkey .cpu 0,
      [{ queued packet .bh1 true with shared := 65536 }])] } }, .bh0, packet, false, by decide +kernel⟩,
   ⟨shtUp, .bh0, far, by decide +kernel⟩, ⟨routed, .plk, { far with hop := 1 }, mamHit, by decide +kernel⟩,
   ⟨routed, .plk, { far with ipLen := 1281 }, mamHit, by decide +kernel⟩, ⟨routed, .plk, { far with hop := 2 }, mamHit, 5, by decide +kernel⟩,
   ⟨entering [queued packet .bh0 false] {}, .bh0, ⟨.plk, 0⟩, by decide +kernel⟩,
   ⟨entering [] { sending := some (0, queued packet .bh0 false), freeAt := 1 }, .bh0, ⟨.plk, 0⟩, by decide +kernel⟩⟩

/-- A Neighbor Solicitation for the link-local address (RFC 4861). -/
def solicitation : Packet :=
  { packet with nextHdr := 58, hop := 255, data := [135, 0, 0, 0, 0, 0, 0, 0] ++ octets 16 (linkLocal State.reset.dev).toNat }

theorem witness_EgressAndLinks :
    (∃ (s : State) (p : Port), hasLine p = true ∧ (s.dev.elapse 0).whl.time < ((s.dev.elapse 0).qport p).freeAt)
    ∧ (let sends (s : State) (c : Nat) (k : QPkt) (rest : List QPkt) : Prop := let e := s.dev.elapse 0
         c = 3 ∧ e.phase.fwRuns = true ∧ e.sht.cpuWaiting = 1023 ∧ e.que.p4.shaper.en = false ∧ (e.que.p4.shaperOf c).en = false
           ∧ (e.queue .cpu 0 = [] ∧ e.queue .cpu 1 = [] ∧ e.queue .cpu 2 = []) ∧ e.queue .cpu c = k :: rest ∧ k.whole = true
           ∧ k.p.poison = false ∧ k.node = none
       (∃ (s : State) (c : Nat) (k : QPkt) (rest : List QPkt), sends s c k rest ∧ solicits (s.dev.elapse 0) k = none)
       ∧ ∃ (s : State) (c : Nat) (k : QPkt) (rest : List QPkt), sends s c k rest ∧ (solicits (s.dev.elapse 0) k).isSome = true)
    ∧ (∃ (s : State) (p : Port) (f : FcFrame) (r : List FcFrame), let e := s.dev.elapse 0
      hasLine p = true ∧ e.phase.fwRuns = true ∧ txFree e p = true ∧ (e.qport p).fcq = f :: r)
    ∧ (∃ (s : State) (p : Port) (up : Bool), (s.dev.elapse 0).linkUp p = up)
    ∧ (∃ (s : State) (p : Port), let e := s.dev.elapse 0
      hasLine p = true ∧ e.linkUp p = false ∧ e.phase = .up ∧ heldDown e p = false)
    ∧ (∃ (s : State) (p : Port), heldDown (s.dev.elapse 0) p = true)
    ∧ ∃ (s : State) (p : Port), hasLine p = true ∧ (s.dev.elapse 0).linkUp p = true :=
  let waits (k : QPkt) : State := shtUp fun d => { d with sht := { d.sht with cpuWaiting := 1023, queues := [(qkey .cpu 3, [k])] } }
  let f : FcFrame := { pfc := true, times := [(0, 1)] }
  ⟨⟨shtUp fun d => { d with que := { d.que with p0 := { d.que.p0 with freeAt := 1 } } }, .bh0, by decide⟩,
   ⟨⟨waits (queued packet .bh0 true), 3, queued packet .bh0 true, [], by decide⟩,
    ⟨waits (queued solicitation .bh0 true), 3, queued solicitation .bh0 true, [], by decide +kernel⟩⟩,
   ⟨shtUp fun d => { d with que := { d.que with p1 := { fcq := [f] } } }, .bh1, f, [], by decide⟩,
   ⟨shtUp, .plk, true, by decide⟩, ⟨up id, .bh1, by decide⟩,
   ⟨up fun d => { d with bob := { d.bob with clk := 0x100 } }, .bh0, by decide⟩, ⟨shtUp, .plk, by decide⟩⟩

set_option maxRecDepth 100000 in
theorem witness_TableOperations :
    (let op (s : State) (v : Word) (o t : Nat) : Prop := (s.dev.elapse 0).phase.fwRuns = true ∧ fld v 27 25 = o ∧ fld v 24 23 = t
     let bank (s : State) (v : Word) : Bank := (s.dev.elapse 0).sht.bankAt (bit v 22)
     let staged (s : State) (v : Word) : Sht :=
       { (s.dev.elapse 0).sht with tcTable := fld v 24 23, tcBank := bit v 22, tcIndex := fld v 17 0 }
     (∃ (s : State) (v : Word), op s v 1 0 ∧ fld v 17 0 = 4095)
     ∧ (∃ (s : State) (v : Word), op s v 1 0 ∧ 4096 = fld v 17 0)
     ∧ (∃ (s : State) (v : Word), op s v 1 1 ∧ fld v 17 0 = 262143)
     ∧ (∃ (s : State) (v : Word), let m := staged s v
         op s v 2 0 ∧ fld v 17 0 = 4095 ∧ stagedOk m 0 64 = true ∧ m.stgValid = false)
     ∧ (∃ (s : State) (v : Word), let m := staged s v
         op s v 2 0 ∧ fld v 17 0 = 4095 ∧ stagedOk m 0 64 = true ∧ m.stgValid = true ∧ m.stgLen = 64
           ∧ mamOrder (bank s v).mam (fld v 17 0) m.stgLen = true)
     ∧ (∃ (s : State) (v : Word), let m := staged s v
         op s v 2 0 ∧ fld v 17 0 < 4096 ∧ stagedOk m 0 64 = true ∧ m.stgValid = true
           ∧ mamOrder (bank s v).mam (fld v 17 0) m.stgLen = false)
     ∧ (∃ (s : State) (v : Word), let m := staged s v
         let x := (bank s v).entry 2 (fld v 17 0)
         op s v 2 1 ∧ fld m.stgResult 31 29 ≠ 7 ∧ x.valid = true ∧ x.pre = m.stgPre ∧ x.len = m.stgLen)
     ∧ (∃ (s : State) (v : Word), op s v 3 0 ∧ fld v 17 0 < 4096) ∧ (∃ (s : State) (v : Word), op s v 3 1)
     ∧ (∃ (s : State) (v : Word) (k : Nat) (b' : Bank), op s v 4 1 ∧ hashInsert (bank s v) (staged s v).staged = .inl (k, b'))
     ∧ (∃ (s : State) (v : Word) (st : Nat), op s v 4 1 ∧ hashInsert (bank s v) (staged s v).staged = .inr st)
     ∧ (∃ (s : State) (v : Word) (k : Nat), op s v 5 1 ∧ hashFind (bank s v) (staged s v).stgPre (staged s v).stgLen = some k)
     ∧ (∃ (s : State) (v : Word), op s v 5 1 ∧ hashFind (bank s v) (staged s v).stgPre (staged s v).stgLen = none)
     ∧ (∃ (s : State) (v : Word) (h : Hit), let f := { s.dev.elapse 0 with sht := staged s v }
         op s v 6 0 ∧ lookup f (bit v 22) (s.dev.elapse 0).sht.stgPre = (f, some h))
     ∧ ∃ (s : State) (v : Word), (s.dev.elapse 0).phase.fwRuns = true ∧ bit v 31 = true) :=
  let stage (len : Nat) (valid : Bool) (b : Bank) : State := shtUp fun d => { d with sht := { d.sht with
    stgPre := 0, stgLen := len, stgResult := 0, stgValid := valid, bank := b } }
  let e128 : TEntry := { pre := 0, len := 128, result := 0, valid := true }
  let at4 : Bank := { hash := [(4 * bucketOf 0 128, e128)] }
  ⟨⟨routed, 0x02000FFF, by decide⟩, ⟨routed, 0x02001000, by decide⟩, ⟨routed, 0x0283FFFF, by decide⟩,
   ⟨stage 64 false {}, 0x04000FFF, by decide⟩, ⟨stage 64 true {}, 0x04000FFF, by decide⟩,
   ⟨stage 64 true { mam := [(0, toNode)] }, 0x04000001, by decide⟩,
   ⟨stage 128 true { hash := [(0, e128)] }, 0x04800000, by decide⟩, ⟨routed, 0x06000000, by decide⟩, ⟨routed, 0x06800000, by decide⟩,
   ⟨stage 128 true {}, 0x08800000, 4 * bucketOf 0 128, at4, by decide +kernel⟩, ⟨stage 64 true {}, 0x08800000, 1, by decide +kernel⟩,
   ⟨stage 128 true at4, 0x0A800000, 4 * bucketOf 0 128, by decide +kernel⟩, ⟨stage 128 true {}, 0x0A800000, by decide +kernel⟩,
   ⟨routed, 0x0C000000, mamHit, by decide +kernel⟩, ⟨routed, 0x80000000, by decide⟩⟩

theorem witness_BucketsAndGates :
    (∃ (s : State) (addr : Nat) (v : Word), (s.dev.elapse 0).phase.fwRuns = true ∧ block? addr = some (.que, 0x100)
      ∧ 1 ≤ fld v 20 0 ∧ fld v 20 0 = 1250000)
    ∧ (∃ (s : State) (addr : Nat) (v : Word), (s.dev.elapse 0).phase.fwRuns = true ∧ block? addr = some (.que, 0x100)
      ∧ 1250000 < fld v 20 0)
    ∧ (∃ (s : State) (addr i : Nat) (v : Word), (s.dev.elapse 0).phase.fwRuns = true ∧ i = 511
      ∧ block? addr = some (.crd, 0x1000 + 16 * i + 4) ∧ fld v 20 0 = 1048576)
    ∧ (∃ (s : State) (addr i : Nat) (v : Word), (s.dev.elapse 0).phase.fwRuns = true ∧ i < 512
      ∧ block? addr = some (.crd, 0x1000 + 16 * i + 4) ∧ 1048576 < fld v 20 0)
    ∧ (∃ (s : State) (p : Fin 3) (v : Word), let e := s.dev.elapse 0
      let q := e.qport (linePort p)
      e.phase.fwRuns = true ∧ bit v 31 = true ∧ q.gates.pending = false ∧ e.whl.todValid = true
        ∧ { q.gates.admin with en := bit v 27, len := fld v 6 0 }.ok = true)
    ∧ (∃ (s : State) (v : Word), (s.dev.elapse 0).phase.fwRuns = true ∧ bit v 31 = false ∧ bit v 30 = true)
    ∧ ∃ (s : State) (p : Fin 3), let e := s.dev.elapse 0
      e.phase.fwRuns = true ∧ (e.qport (linePort p)).gates.pending = true ∧ (e.qport (linePort p)).gates.cct = e.whl.time :=
  ⟨⟨up id, 0x300100, 1250000, by decide⟩, ⟨up id, 0x300100, 1250001, by decide⟩, ⟨up id, 0x342FF4, 511, 0x100000, by decide⟩,
   ⟨up id, 0x341004, 0, 0x100001, by decide⟩, ⟨up fun d => { d with whl := { d.whl with todValid := true } }, 2, 0x88000040, by decide⟩,
   ⟨up id, 0x40000001, by decide⟩,
   ⟨up fun d => { d with que := { d.que with p2 := { d.que.p2 with gates := { d.que.p2.gates with pending := true } } } }, 2, by decide⟩⟩

theorem witness_FlowControl :
    (∃ (s : State) (t : Nat), (s.dev.elapse 0).que.p0.fcMode = 1 ∧ 0 < t)
    ∧ (∃ (s : State) (port : Bool) (c : Fin 16) (u v : Nat), let e := s.dev.elapse 0
      kfind (e.qport (bhPort port)).pauses c.val = some (u, v) ∧ u = e.whl.time)
    ∧ (∃ (s : State) (port : Bool) (c : Fin 16) (u v : Nat), let e := s.dev.elapse 0
      kfind (e.qport (bhPort port)).pauses c.val = some (u, v) ∧ e.phase.fwRuns = true ∧ e.whl.time < u ∧ v + 100000000 = e.whl.time)
    ∧ (let off (s : State) (i : Fin 8) (due : Nat) : Prop := let e := s.dev.elapse 0
         e.que.p1.xoff = [(i.val, some due)] ∧ 0 < e.que.p1.quantaTx
       let free (s : State) : Prop := (s.dev.elapse 0).que.p1.freeAt ≤ (s.dev.elapse 0).whl.time ∧ (s.dev.elapse 0).que.p1.fcq = []
       (∃ (s : State) (i : Fin 8) (due : Nat), off s i due ∧ due = (s.dev.elapse 0).whl.time ∧ free s)
       ∧ (∃ (s : State) (i : Fin 8) (due : Nat), off s i due ∧ due = (s.dev.elapse 0).whl.time ∧ ¬ free s)
       ∧ ∃ (s : State) (i : Fin 8) (due : Nat), off s i due ∧ (s.dev.elapse 0).whl.time < due)
    ∧ (∃ (s : State) (addr : Nat) (v : Word), (s.dev.elapse 0).phase.fwRuns = true ∧ block? addr = some (.que, 0x11C)
      ∧ 4096 < fld v 28 16)
    ∧ ∃ (s : State) (addr : Nat) (v : Word), (s.dev.elapse 0).phase.fwRuns = true ∧ block? addr = some (.que, 0x11C)
      ∧ fld v 28 16 = 4096 ∧ (s.dev.elapse 0).que.p0.fcMode = 0 :=
  let p0 (q : QPort) (t : Nat) : State := up fun d => { d with que := { d.que with p0 := q }, whl := { d.whl with time := t } }
  let p1 (due free : Nat) : State := up fun d => { d with que := { d.que with p1 := { xoff := [(7, some due)], freeAt := free } } }
  ⟨⟨p0 { fcMode := 1 } 0, 1, by decide⟩, ⟨p0 { pauses := [(15, (0, 0))] } 0, false, 15, 0, 0, by decide⟩,
   ⟨p0 { pauses := [(15, (100000001, 0))] } 100000000, false, 15, 100000001, 0, by decide⟩,
   ⟨⟨p1 0 0, 7, 0, by decide⟩, ⟨p1 0 1, 7, 0, by decide⟩, ⟨p1 1 0, 7, 1, by decide⟩⟩,
   ⟨up id, 0x30011C, 0x10010000, by decide⟩, ⟨up id, 0x30011C, 0x10000000, by decide⟩⟩

/-! ## The ply and the loom: the hypotheses -/

def hb : Heartbeat :=
  { asn := 0, role := 5, master := true, fault := false, ready := true, power := 3, whorl := 0, mepoch := 0, mdigest := 0, pdigest := 0,
    spn := 0, parent := 0, t1 := 0, t3echo := 0, t4rx := 0, acks := [] }

def linkHdr : LinkHeader := { ver := 1, side := 0, boot := 0x100, seq := 1, tagOk := true }

/-- The device with a partner, skein 2 for the ply link and the loom. -/
def plyUp (f : Ply → Ply := id) (g : Dev → Dev := id) : State :=
  up fun d => g { d with
    ply := f { d.ply with partnered := true, plySkein := 2, loomSkein := 2, side := true, ply := 3 },
    dst := { d.dst with skeins := [(2, skeinAll)], rngOk := true }, sht := { d.sht with linkp := true } }

/-- A frame that is taken, and an invocation that is served. -/
theorem took {e : Dev} {sk key : Nat} {h : LinkHeader} (h1 : (linkTake e sk key h).1 = true) :
    linkTake e sk key h = (true, (linkTake e sk key h).2) := Prod.ext h1 rfl

theorem served {e : Dev} {sk m u : Nat} (h : (invoke e sk m u).1 = true) : invoke e sk m u = (true, e) := by
  simp only [invoke] at h ⊢
  split at h <;> simp_all

theorem witness_HeartbeatsAndTreadle :
    (let due (e : Dev) : Prop :=
       e.phase = .up ∧ e.ply.faultTicks = none ∧ e.ply.hbTick ≠ some e.whl.tickK ∧ e.whl.tickAt + 2600000 = e.whl.time
     let still (e : Dev) : Prop := ∀ n : Fin 4, (e.spn.get n).tx = none ∧ (e.spn.get n).demods = []
     let heard (e : Dev) (path : Path) (h : LinkHeader) (ok : Bool) (a : Dev) : Prop :=
       linkTake (if path = .b then takeCpu e else e) e.ply.plySkein h.side.toNat h = (ok, a)
     (∃ s : State, let e := s.dev.elapse 0
       invoke e e.ply.plySkein masterLoom useEncrypt = (true, e) ∧ due e ∧ e.ply.partnered = true ∧ e.ply.pathBEn = false
         ∧ e.sht.linkp = true ∧ e.ply.quiet = false)
     ∧ (∃ s : State, let e := s.dev.elapse 0
       invoke e e.ply.plySkein masterLoom useEncrypt = (true, e) ∧ due e ∧ e.ply.partnered = true ∧ pathB e ≠ []
         ∧ e.sht.linkp = false ∧ e.ply.quiet = false)
     ∧ (∃ s : State, due (s.dev.elapse 0) ∧ (s.dev.elapse 0).ply.omitted ≠ 7)
     ∧ (∃ s : State, due (s.dev.elapse 0) ∧ (s.dev.elapse 0).ply.omitted = 7 ∧ still (s.dev.elapse 0))
     ∧ (∃ (s : State) (path : Path) (h : LinkHeader) (a : Dev), let e := s.dev.elapse 0
       heard e path h false a ∧ e.phase = .up ∧ e.ply.partnered = true)
     ∧ (∃ (s : State) (path : Path) (h : LinkHeader) (b : Heartbeat) (a : Dev), let e := s.dev.elapse 0
       heard e path h true a ∧ e.phase = .up ∧ e.ply.partnered = true ∧ a.ply.pfail = false ∧ b.fault = true
         ∧ (∀ x, a.ply.last = some x → x.fault = false))
     ∧ (∃ (s : State) (path : Path) (h : LinkHeader) (b : Heartbeat) (a : Dev), let e := s.dev.elapse 0
       heard e path h true a ∧ path = .b ∧ e.phase = .up ∧ e.ply.partnered = true ∧ a.ply.pfail = false ∧ b.fault = false)
     ∧ (∀ side : Bool, ∃ (s : State) (path : Path) (h : LinkHeader) (b : Heartbeat) (a : Dev), let e := s.dev.elapse 0
       heard e path h true a ∧ e.phase = .up ∧ e.ply.partnered = true ∧ b.fault = false ∧ a.ply.pfail = true ∧ a.ply.role = .solo
         ∧ roleOf b.role.toNat = some .solo ∧ a.ply.side = side ∧ (b.asn : Int) ≠ a.whl.tickK % (2 ^ 40 : Nat))
     ∧ (∃ s : State, let e := s.dev.elapse 0
       e.phase = .up ∧ 2000000000 = e.glb.upNs ∧ e.ply.faultTicks = none
         ∧ e.ply.beaconAt + fTreadleTmo.get e.pra * 1000000 ≤ e.glb.upNs ∧ still e)
     ∧ (∃ (s : State) (n : Nat), (s.dev.elapse 0).ply.faultTicks = some n ∧ fFaultHold.get (s.dev.elapse 0).pra = n)
     ∧ (∃ (s : State) (n : Nat), (s.dev.elapse 0).ply.faultTicks = some n ∧ n < fFaultHold.get (s.dev.elapse 0).pra)
     ∧ ∃ s : State, (s.dev.elapse 0).phase.fwRuns = true ∧ (s.dev.elapse 0).ply.treadleLost = false) :=
  let late := fun d : Dev => { d with whl := { d.whl with time := 2600000 } }
  let down := fun d : Dev => { late d with sht := { d.sht with linkp := false, link0 := true, link1 := true } }
  let solo (side : Bool) := fun p : Ply => { p with pfail := true, role := .solo, side := side }
  ⟨⟨plyUp id late, served (by decide), by decide +kernel⟩,
   ⟨plyUp (fun p => { p with pathBEn := true }) down, served (by decide), by decide +kernel⟩,
   ⟨plyUp (fun p => { p with omitted := 6 }) late, by decide +kernel⟩, ⟨plyUp (fun p => { p with omitted := 7 }) late, by decide +kernel⟩,
   ⟨plyUp, .plk, { linkHdr with ver := 2 }, _, rfl, by decide +kernel⟩,
   ⟨plyUp, .plk, linkHdr, { hb with fault := true }, _, took (by decide), rfl, rfl, rfl, rfl, fun x hx => by cases hx⟩,
   ⟨plyUp, .b, linkHdr, hb, _, took (by decide), by decide +kernel⟩,
   fun side => ⟨plyUp (solo side), .plk, linkHdr, hb, _, took (by cases side <;> decide), by cases side <;> decide +kernel⟩,
   ⟨plyUp id fun d => { d with glb := { d.glb with upNs := 2000000000 } }, by decide +kernel⟩,
   ⟨plyUp fun p => { p with faultTicks := some (fFaultHold.get State.reset.dev.pra) }, _, by rfl, by decide +kernel⟩,
   ⟨plyUp fun p => { p with faultTicks := some 0 }, 0, by decide +kernel⟩, ⟨plyUp, by decide +kernel⟩⟩

def rec1 (k : RecKind) : DownRec :=
  { kind := k, dest := some 5, hash := 1, oneSide := false, payload := List.replicate 50 0, ackReq := true, share := some 9, retries := 0 }

theorem witness_RecordsAndCounters :
    (let heard (e : Dev) (h : LinkHeader) (a : Dev) : Prop :=
       linkTake (if e.sht.linkp then e else takeCpu e) e.ply.plySkein h.side.toNat h = (true, a)
     let fresh (e : Dev) (r : DownRec) (a : Dev) : Prop :=
       e.phase = .up ∧ e.ply.partnered = true ∧ a.ply.recs.any (fun x => x.hash == r.hash) = false
     let late (r : DownRec) (a : Dev) : Bool := scheduleBegun a (r.share.getD 0 : Nat)
     (∃ (s : State) (h : LinkHeader) (r : DownRec) (a : Dev), let e := s.dev.elapse 0
       heard e h a ∧ fresh e r a ∧ a.ply.master = true ∧ a.ply.waiting.find? (fun q => q.1.hash == r.hash) = none
         ∧ RecKind.byCommand r.kind = true)
     ∧ (∃ (s : State) (h : LinkHeader) (r : DownRec) (a : Dev), let e := s.dev.elapse 0
       heard e h a ∧ fresh e r a ∧ a.ply.master = true ∧ a.ply.waiting.find? (fun q => q.1.hash == r.hash) = none
         ∧ RecKind.byCommand r.kind = false)
     ∧ (∃ (s : State) (h : LinkHeader) (r x : DownRec) (w : Option Nat) (a : Dev), let e := s.dev.elapse 0
       heard e h a ∧ fresh e r a ∧ a.ply.master = true ∧ a.ply.waiting.find? (fun q => q.1.hash == r.hash) = some (x, w))
     ∧ (∃ (s : State) (h : LinkHeader) (r : DownRec) (a : Dev), let e := s.dev.elapse 0
       heard e h a ∧ (∀ tc, r.kind ≠ .correction tc) ∧ fresh e r a ∧ a.ply.master = false ∧ late r a = false)
     ∧ (∃ (s : State) (h : LinkHeader) (r : DownRec) (a : Dev), let e := s.dev.elapse 0
       heard e h a ∧ (∀ tc, r.kind ≠ .correction tc) ∧ fresh e r a ∧ a.ply.master = false ∧ late r a = true)
     ∧ (∃ (s : State) (hash t : Nat) (r : DownRec), let e := s.dev.elapse 0
       e.ply.waiting = [(r, some t)] ∧ r.hash = hash ∧ e.ply.master = true ∧ t = e.glb.upNs)
     ∧ (∃ (s : State) (hash t : Nat) (r : DownRec), let e := s.dev.elapse 0
       e.ply.waiting = [(r, some t)] ∧ r.hash = hash ∧ e.ply.master = true ∧ e.glb.upNs < t)
     ∧ ∃ (s : State) (h : LinkHeader) (a : Dev), let e := s.dev.elapse 0
       heard e h a ∧ e.phase = .up ∧ e.ply.partnered = true ∧ e.sht.linkp = false ∧ a.ply.master = false) :=
  let m := fun p : Ply => { p with master := true }
  let at9 := fun d : Dev => { d with whl := { d.whl with tickK := 9 } }
  let down := fun d : Dev => { d with sht := { d.sht with linkp := false } }
  let w (t : Nat) := fun p : Ply => { p with master := true, waiting := [(rec1 .packet, some t)] }
  ⟨⟨plyUp m, linkHdr, rec1 (.cancel 1), _, took (by decide), by decide +kernel⟩,
   ⟨plyUp m, linkHdr, rec1 .packet, _, took (by decide), by decide +kernel⟩,
   ⟨plyUp (w 0), linkHdr, rec1 .packet, rec1 .packet, some 0, _, took (by decide), by decide +kernel⟩,
   ⟨plyUp, linkHdr, rec1 .packet, _, took (by decide), (fun _ h => by cases h), by decide +kernel⟩,
   ⟨plyUp id at9, linkHdr, rec1 .packet, _, took (by decide), (fun _ h => by cases h), by decide +kernel⟩,
   ⟨plyUp (w 0), 1, 0, rec1 .packet, by decide +kernel⟩, ⟨plyUp (w 1), 1, 1, rec1 .packet, by decide +kernel⟩,
   ⟨plyUp id down, linkHdr, _, took (by decide), by decide +kernel⟩⟩

theorem witness_MirrorAndSnapshots :
    (let heard (e : Dev) (h : LinkHeader) (a : Dev) : Prop :=
       linkTake (if e.sht.linkp then e else takeCpu e) e.ply.plySkein h.side.toNat h = (true, a)
     let pair (e : Dev) : Prop := e.phase = .up ∧ e.ply.partnered = true
     (∃ (s : State) (h : LinkHeader) (a : Dev), heard (s.dev.elapse 0) h a
       ∧ invoke a a.ply.plySkein masterLoom useEncrypt = (true, a) ∧ pair (s.dev.elapse 0) ∧ a.ply.master = true ∧ plyReach a = true)
     ∧ (∃ (s : State) (h : LinkHeader) (a : Dev) (i : Nat) (x : Node), heard (s.dev.elapse 0) h a
       ∧ invoke a a.ply.plySkein masterLoom useEncrypt = (true, a) ∧ pair (s.dev.elapse 0) ∧ plyReach a = true
       ∧ a.node? i = some x ∧ x.lost = none)
     ∧ (∃ (s : State) (h : LinkHeader) (a : Dev) (ep : BitVec 32), heard (s.dev.elapse 0) h a ∧ pair (s.dev.elapse 0)
       ∧ a.ply.master = false ∧ a.ply.role ≠ .spare ∧ epochAfter ep.toNat a.ply.mepoch = true)
     ∧ (∃ (s : State) (h : LinkHeader) (a : Dev) (ep : BitVec 32), heard (s.dev.elapse 0) h a ∧ pair (s.dev.elapse 0)
       ∧ a.ply.master = false ∧ a.ply.role ≠ .spare ∧ epochAfter ep.toNat a.ply.mepoch = false)
     ∧ (∀ half : Bool, ∃ (s : State) (h : LinkHeader) (a : Dev), heard (s.dev.elapse 0) h a ∧ pair (s.dev.elapse 0)
       ∧ a.ply.role = .spare ∧ a.ply.snapping = true ∧ a.ply.snapped = false ∧ halfAdmitted a = half)
     ∧ (∃ (s : State) (h : LinkHeader) (a : Dev), heard (s.dev.elapse 0) h a ∧ pair (s.dev.elapse 0) ∧ a.ply.role ≠ .spare)
     ∧ (∃ (s : State) (i t : Nat) (x : Node), let e := s.dev.elapse 0
       e.node? i = some x ∧ x.lost = some t ∧ e.glb.upNs + 1 = t + 8 * e.whl.periodNs)
     ∧ ∃ (s : State) (i t : Nat) (x : Node), let e := s.dev.elapse 0
       e.node? i = some x ∧ x.lost = some t ∧ t + 8 * e.whl.periodNs = e.glb.upNs) :=
  let m := fun p : Ply => { p with master := true }
  let sp := fun p : Ply => { p with role := .spare, snapping := true }
  let half (b : Bool) := fun d : Dev => { d with ccp := { d.ccp with waiting := [{ hank query with next := if b then 1 else 0 }] } }
  let nodes := fun d : Dev => { d with wrp := { d.wrp with nodes := [(5, node5)] } }
  let lost (t : Nat) : State := withNode { node5 with lost := some 0 } fun d => { d with glb := { d.glb with upNs := t } }
  ⟨⟨plyUp m, linkHdr, _, took (by decide), served (by decide), by decide +kernel⟩,
   ⟨plyUp id nodes, linkHdr, _, 5, node5, took (by decide), served (by decide), by decide +kernel⟩,
   ⟨plyUp, linkHdr, _, 0x7FFFFFFF, took (by decide), by decide +kernel⟩,
   ⟨plyUp, linkHdr, _, 0x80000000, took (by decide), by decide +kernel⟩,
   fun b => ⟨plyUp sp (half b), linkHdr, _, took (by cases b <;> decide), by cases b <;> decide +kernel⟩,
   ⟨plyUp, linkHdr, _, took (by decide), by decide +kernel⟩,
   ⟨lost 79999999, 5, 0, { node5 with lost := some 0 }, by decide +kernel⟩,
   ⟨lost 80000000, 5, 0, { node5 with lost := some 0 }, by decide +kernel⟩⟩

def beaconA : Beacon :=
  { eui := 0x77, devAddr := 0, meshPrefix := 0, epoch := 0, period := 1000, role := 5, prole := 5, nodes := 0, free := 0 }

theorem witness_LoomTable :
    (let heard (e : Dev) (h : LinkHeader) (ply : BitVec 8) (a : Dev) : Prop :=
       linkTake (takeCpu e) e.ply.loomSkein (256 * ply.toNat + h.side.toNat) h = (true, a)
     let entry (ply : BitVec 8) (side : Bool) (b : Beacon) (t : Nat) : LoomEntry := { ply := ply.toNat, side := side, b := b, at_ := t }
     let lapse (e : Dev) (t : Nat) : Nat := t + fLoomLapse.get e.pra * (fLoomPeriod.get e.pra * 1000000)
     (∃ s : State, let e := s.dev.elapse 0
       invoke e e.ply.loomSkein masterLoom useEncrypt = (true, e) ∧ e.phase = .up ∧ e.start.configured = true
         ∧ e.ply.loomNext = e.glb.upNs)
     ∧ (∃ s : State, let e := s.dev.elapse 0
       e.phase = .up ∧ e.start.configured = true ∧ e.glb.upNs < e.ply.loomNext)
     ∧ (∃ (s : State) (h : LinkHeader) (ply : BitVec 8) (a : Dev),
       heard (s.dev.elapse 0) h ply a ∧ (s.dev.elapse 0).phase = .up ∧ a.ply.loom = [] ∧ ply.toNat ≠ a.ply.ply)
     ∧ (∃ (s : State) (h : LinkHeader) (ply : BitVec 8) (b old : Beacon) (t : Nat) (a : Dev),
       heard (s.dev.elapse 0) h ply a ∧ (s.dev.elapse 0).phase = .up ∧ a.ply.loom = [entry ply (h.side.getLsbD 0) old t]
         ∧ ply.toNat ≠ a.ply.ply ∧ old.eui = b.eui ∧ sameTime a b = true)
     ∧ (∃ (s : State) (h : LinkHeader) (ply : BitVec 8) (b : Beacon) (a : Dev),
       heard (s.dev.elapse 0) h ply a ∧ (s.dev.elapse 0).phase = .up ∧ plyConflict a ply.toNat (h.side.getLsbD 0) b.eui = true)
     ∧ (∃ (s : State) (ply : BitVec 8) (side : Bool) (b : Beacon) (t : Nat), let e := s.dev.elapse 0
       e.ply.loom = [entry ply side b t] ∧ e.phase.fwRuns = true ∧ lapse e t = e.glb.upNs)
     ∧ ∃ (s : State) (ply : BitVec 8) (side : Bool) (b : Beacon) (t : Nat), let e := s.dev.elapse 0
       e.ply.loom = [entry ply side b t] ∧ e.phase.fwRuns = true ∧ e.glb.upNs < lapse e t) :=
  let cfg := fun d : Dev => { d with start := { d.start with configured := true } }
  let one := fun p : Ply => { p with loom := [{ ply := 9, side := false, b := beaconA, at_ := 0 }] }
  let zero := fun p : Ply => { p with side := false }
  ⟨⟨plyUp id cfg, served (by decide), by decide +kernel⟩, ⟨plyUp (fun p => { p with loomNext := 1 }) cfg, by decide +kernel⟩,
   ⟨plyUp, linkHdr, 9, _, took (by decide), by decide +kernel⟩,
   ⟨plyUp one, linkHdr, 9, beaconA, beaconA, 0, _, took (by decide), by decide +kernel⟩,
   ⟨plyUp zero, linkHdr, 3, beaconA, _, took (by decide), by decide +kernel⟩,
   ⟨plyUp one fun d => { d with glb := { d.glb with upNs := fLoomLapse.get d.pra * (fLoomPeriod.get d.pra * 1000000) } }, 9, false, beaconA, 0,
      by decide +kernel⟩,
   ⟨plyUp one, 9, false, beaconA, 0, by decide +kernel⟩⟩

def visitor (t : Nat) : Visit := { eui := 0x55, path := { route := 0, lifetime := 1, band := false, district := 0, seq := 0 }, since := t }

theorem witness_VisitorsAndRelays :
    (let heard (e : Dev) (h : LinkHeader) (ply : BitVec 8) (a : Dev) : Prop :=
       linkTake (takeCpu e) e.ply.loomSkein (256 * ply.toNat + h.side.toNat) h = (true, a)
     let sealed (a : Dev) : Prop := invoke a a.ply.loomSkein masterLoom useEncrypt = (true, a)
     let lease (e : Dev) (t : Nat) : Nat := t + fHomeLease.get e.pra * 86400000000000
     (∃ (s : State) (h : LinkHeader) (ply : BitVec 8) (a : Dev) (i : Nat) (x : Node), heard (s.dev.elapse 0) h ply a ∧ sealed a
       ∧ (s.dev.elapse 0).phase = .up ∧ a.nodeByEui 0x55 = some (i, x) ∧ a.ply.master = true ∧ x.visitor = false ∧ ply.toNat ≠ a.ply.ply
       ∧ a.nodeByHandle 0x40005 = some (i, x) ∧ kfind a.wrp.nodes i = some x ∧ a.nodeByEui 1 = none ∧ a.nodeByHandle 1 = none)
     ∧ (∃ (s : State) (h : LinkHeader) (ply : BitVec 8) (a : Dev) (v : Visit), heard (s.dev.elapse 0) h ply a
       ∧ (s.dev.elapse 0).phase = .up ∧ a.ply.master = true ∧ handleOk 0x40005 = true ∧ a.wrp.visits = [v] ∧ v.eui = 0x55
       ∧ a.glb.upNs = v.since + 2000000000 ∧ a.wrp.nodes = [])
     ∧ (∃ (s : State) (h : LinkHeader) (ply : BitVec 8) (a : Dev) (p : CcpPacket) (cmds : List CmdMsg),
       heard (s.dev.elapse 0) h ply a ∧ (s.dev.elapse 0).phase = .up ∧ p.type = 1 ∧ p.dply.toNat = a.ply.ply
       ∧ a.ccp.waiting.length = 255 ∧ (kfind a.ccp.idents p.ident.toNat).isSome = true ∧ p.dside.toNat = b2n a.ply.side
       ∧ parseBody 256 p.body = some cmds)
     ∧ (∃ (s : State) (h : LinkHeader) (ply : BitVec 8) (a : Dev) (th : Nat) (t : Thread), heard (s.dev.elapse 0) h ply a
       ∧ (s.dev.elapse 0).phase = .up ∧ nodeReqThreads a 0x40005 9 (·.relayed) = [th] ∧ a.thread? th = some t ∧ t.st = .running
       ∧ statusOf 0x0F = some .timeout ∧ statusOf 0xFF = none)
     ∧ (∃ (s : State) (v : Visit), let e := s.dev.elapse 0
       e.wrp.visits = [v] ∧ e.ply.master = true ∧ e.wrp.nodes = [] ∧ v.since + 2000000000 = e.glb.upNs)
     ∧ (∃ (s : State) (v : Visit), let e := s.dev.elapse 0
       e.wrp.visits = [v] ∧ e.ply.master = true ∧ e.wrp.nodes = [] ∧ e.glb.upNs < v.since + 2000000000)
     ∧ (∃ (s : State) (i : Nat) (x : Node), let e := s.dev.elapse 0
       sealed e ∧ e.node? i = some x ∧ e.ply.master = true ∧ x.visitor = true ∧ x.present e.glb.upNs = true ∧ x.whereAt = e.glb.upNs)
     ∧ (∃ (s : State) (i k t : Nat) (x : Node), let e := s.dev.elapse 0
       e.node? i = some x ∧ x.away = some (k, t) ∧ e.ply.master = true ∧ lease e t = e.glb.upNs
         ∧ e.ply.recs.all (fun r => r.dest != some i) = true)
     ∧ ∃ (s : State) (i k t : Nat) (x : Node), let e := s.dev.elapse 0
       e.node? i = some x ∧ x.away = some (k, t) ∧ e.ply.master = true ∧ e.glb.upNs < lease e t) :=
  let m := fun p : Ply => { p with master := true }
  let nodes (x : Node) := fun d : Dev => { d with wrp := { d.wrp with nodes := [(5, x)] } }
  let visits (up : Nat) := fun d : Dev => { d with wrp := { d.wrp with visits := [visitor 0] }, glb := { d.glb with upNs := up } }
  let full := fun d : Dev => { d with ccp := { d.ccp with idents := [(1, ident1)], waiting := List.replicate 255 (hank query) } }
  let asked : Thread := { thr 0x20 (.nodeReq 9 false []) .running 0x40005 with relayed := true }
  let relaying := fun d : Dev => { d with ccp := { d.ccp with threads := [(3, asked)] } }
  let gone : Node := { node5 with away := some (7, 0) }
  let guest : Node := { node5 with visitor := true, path := some 1 }
  ⟨⟨plyUp m (nodes node5), linkHdr, 9, _, 5, node5, took (by decide), served (by decide), by decide +kernel⟩,
   ⟨plyUp m (visits 2000000000), linkHdr, 9, _, visitor 0, took (by decide), by decide +kernel⟩,
   ⟨plyUp id full, linkHdr, 9, _, { hankPkt with dply := 3, dside := 1 }, [query], took (by decide), by decide +kernel⟩,
   ⟨plyUp id relaying, linkHdr, 9, _, 3, asked, took (by decide), by decide +kernel⟩,
   ⟨plyUp m (visits 2000000000), visitor 0, by decide +kernel⟩, ⟨plyUp m (visits 1999999999), visitor 0, by decide +kernel⟩,
   ⟨plyUp m (nodes guest), 5, guest, served (by decide), by decide +kernel⟩,
   ⟨plyUp m (fun d => { nodes gone d with glb := { d.glb with upNs := fHomeLease.get d.pra * 86400000000000 } }), 5, 7, 0, gone,
      by decide +kernel⟩,
   ⟨plyUp m (nodes gone), 5, 7, 0, gone, by decide +kernel⟩⟩

theorem witness_EveryStepKeepsTheArray : ∃ s t : State,
    s.dev.pra.wf = true ∧ s.dev.pra.budgetOk = true ∧ s.pending = [.praTokenRefill 8000000000] ∧ step s = .next t :=
  ⟨{ up (fun d => { d with pra := { d.pra with spent := [(7, 4096)] } }) with pending := [.praTokenRefill 8000000000] }, _,
   by decide, by decide, rfl, rfl⟩

theorem witness_AsBuiltStays :
    (∃ s t : State, s.pending = [.logicRailRise 0] ∧ step s = .next t)
    ∧ ∃ d : Dev, ∀ k, let r := kgetD d.dst.root k ([], []); r.1.length = r.2.length ∧ r.1.length ≤ 64 :=
  ⟨⟨{ State.reset with pending := [.logicRailRise 0] }, _, rfl, rfl⟩, State.reset.dev, fun k =>
    match k with
    | 0 => by decide
    | 1 => by decide
    | _ + 2 => ⟨rfl, Nat.zero_le _⟩⟩

/-! ## Every check of WellFormed refuses something -/

def badPacket : Packet := { packet with hop := 256 }

/-- Terms with one operand out of its range. -/
def illFormed : List Instr := [
    .registerWrite 0 (2 ^ 32) 0, .svcRegWrite 0 0 (2 ^ 32) 0, .svcRegRead 0 0 0 65536, .policerWrite 0 (2 ^ 32) 0,
    .loaderCheck 0 { reelOk 2 with nblk := 65536 }, .bankLoad 0 (reelOk 1) { reelOk 1 with svn := 2 ^ 32 } true,
    .firmwareStart 0 [⟨17, 0⟩] [], .firmwareStart 0 [] [8192], .configApply 0 [8192] none, .configImageCheck 0 none [256],
    .supplyMeasure 0 48000 0 [], .supplyMeasure 0 100001 0 (List.replicate 7 0), .ptpAnnounce 0 false { announce with domain := 256 },
    .ptpAnnounce 0 false { announce with priority1 := 256 }, .txEnd 0 0 0xFFFF, .reflectionCheck 0 0 0xFFFF,
    .maskBlockCheck 0 0 (List.replicate 17 0), .preambleDetect 0 0 0 257 0 0 0 false, .preambleDetect 0 0 0 256 0 0 60001 false,
    .frameEnd 0 0 0 [] 2048 true, .headerDecode 0 0 0 (.native []), .headerDecode 0 0 0 (.oqpsk 128),
    .headerDecode 0 0 0 (.sunFsk false false 2048), .rxFrameProcess 0 { mac with secLevel := 8 }] ++ [
    .nodeOffsetLapse 0 131072, .throwConfirmReceive 0 5 65536 0, .nodeReplyReceive 0 5 0 (List.replicate 1229 0),
    .hankReceive 0 .bh0 none { hankPkt with length := 65536 }, .quoteReq 0 .bh0 { hankPkt with seq := 2 ^ 64 }, .spindleHold 0 131072,
    .test 0 131072, .threadTimeout 0 131072, .regRead 0 131072, .healthSummary 0 131072, .nodeReq 0 131072, .objOpen 0 131072,
    .objSend 0 3 (2 ^ 32) [], .objSend 0 3 0 [2 ^ 32], .policyWrite 0 131072, .keyLoad 0 3 true true true 4, .keyAttr 0 131072,
    .ownerLock 0 131072 true, .lifecycleSet 0 3 true [] (some 255), .reelStage 0 3 (.file (2 ^ 32) (reelOk 1)) true,
    .recoveryCardRead 0 (.file (2 ^ 32) (reelOk 1)) true, .imgBegin 0 0 (2 ^ 32), .imgData 0 0 0 65536 (reelOk 1) true true true] ++ [
    .packetIngress 0 .bh0 badPacket, .heartbeatReceive 0 .plk linkHdr { hb with asn := 2 ^ 40 },
    .offerReceive 0 { linkHdr with seq := 2 ^ 48 } (rec1 .packet), .assignReceive 0 linkHdr { rec1 .packet with dest := some 131072 },
    .countersReceive 0 linkHdr (some 131072) 0 0, .deltaReceive 0 { linkHdr with seq := 2 ^ 48 } 0 (.leave 0),
    .snapReqReceive 0 linkHdr (some 131072), .whereReceive 0 { linkHdr with seq := 2 ^ 48 } 0 0 0,
    .fwdReceive 0 linkHdr 0 { hankPkt with length := 65536 }, .relayReceive 0 linkHdr 0 0 0 (2 ^ 32) false [],
    .relayResReceive 0 linkHdr 0 0 0 0 (List.replicate 1229 0), .holdupCheckStart 0 100001, .holdupCheckEnd 0 100001 0]

theorem test_wf_refuses : illFormed.all (fun c => !c.wf) = true := by decide +kernel

theorem test_wf_admits : [
    Instr.registerWrite 0 0 0, .regRead 0 131071, .packetIngress 0 .bh0 packet, .hankReceive 0 .bh0 none hankPkt,
    .offerReceive 0 linkHdr (rec1 .packet), .loaderCheck 0 (reelOk 2), .tickStrobe 0 0 true, .keyLoad 0 3 true true true 3,
    .frameEnd 0 0 0 (List.replicate 2047 0) 0 true].all Instr.wf = true := by decide +kernel

/-! ## Effects, with the values the manual gives -/

/-- No row of the table gives bits. -/
theorem test_no_word_spells_a_command : decodeTableWord 32 0x12345678 = none := rfl

/-- An empty queue leaves the block idle; a waiting command leaves the queue. -/
theorem test_step_idle : step State.reset = .next State.reset := rfl
theorem test_step_front : (match step { inPhase .unpowered with pending := [.logicRailRise 0, .tickStrobe 0 0 true] } with
    | .next t => decide (t.pending = [.tickStrobe 0 0 true]) && decide (t.dev.phase = .off) | _ => false) = true := by decide +kernel

/-- The example of R3: node 70,000 of ply 17. -/
theorem test_node_handle : handleOf 17 70000 = 0x00451170 ∧ handlePly 0x00451170 = 17 ∧ handleIndex 0x00451170 = 70000
    ∧ handleOk 0x00451170 = true ∧ handleOk 0x00471170 = false := by decide

/-- The example of R54: an empty bucket refuses, and eight seconds bring one token. -/
theorem test_bucket : let p : Pra := { State.reset.dev.pra with spent := [(0x900, 4096)], refillAt := 8000000000 }
    p.tokens 0x900 = 0 ∧ p.refillsDue 7999999999 = 0 ∧ (p.refill (p.refillsDue 8000000000)).tokens 0x900 = 1
      ∧ (p.charge 0x900).tokens 0x900 = 0 := by decide +kernel

/-- PRA_TOKENS_LOW rises when a bucket goes from 256 to 255 (R57). -/
theorem test_bucket_low : ({ State.reset.dev.pra with spent := [(1, 3840)] } : Pra).low = false
    ∧ (({ State.reset.dev.pra with spent := [(1, 3840)] } : Pra).charge 1).low = true := by decide +kernel

/-- The example of R89: 3,603.000025 s after the loom's start is slot 360,300, 25 µs in. -/
theorem test_launch_instant : let w : Whl := { State.reset.dev.whl with epoch := 1800000000000000000, period := 1000 }
    w.asnAt (1800000000000000000 + 3603000025000) = 0x57F6C ∧ w.slotPosAt (1800000000000000000 + 3603000025000) = 25000 := by
  decide +kernel

/-- The example of R136: 1,280 octets in Long-Reach are six codewords, and 1,472 octets coded. -/
theorem test_codewords : dataLens 5 1280 = [214, 214, 213, 213, 213, 213] ∧ nativeLen 5 1280 = 1472 := by decide +kernel

/-- The example of R139: the order of the interleaver, and airtimes. -/
theorem test_interleave : (interleave ((List.range 136).map (BitVec.ofNat 8))).take 10 = [0, 17, 34, 51, 68, 85, 102, 119, 1, 18] := by
  decide +kernel

def longReach : Profile :=
  { wave := 5, opts := 0, pre := 8, mask := 0, f0 := 902200, spacing := 200, nchan := 1, ramp := 15, captureDb := 3, thresh := 128, coef := [] }

theorem test_airtime : longReach.airNs 100 = 51200000 ∧ { longReach with wave := 6 }.airNs 100 = 3840000
    ∧ (longReach.syncNs = 3840000) := by decide +kernel

/-- A word with 16 octets wrong is corrected; its parity has 32 octets (R135). -/
theorem test_reed_solomon : let c := rsEncode 32 [1, 2, 3, 4]
    c.length = 36 ∧ rsSyndromes 32 c = List.replicate 32 0
      ∧ rsDecode 32 ((c.take 16).map (· ^^^ 0x5A) ++ c.drop 16) = some (c, 16) := by decide +kernel

/-- The example of R148: 12.4 ppm at 902.2 MHz is 4,692 steps. -/
theorem test_node_offset : dfSteps 12400 902200 = 4692 := by decide +kernel

/-- The example of R166: the frame needs six slots of 10 ms. -/
theorem test_cell_span : 2120000 + longReach.airNs 100 + 500000 ≤ 6 * 10000000 ∧ ¬ 2120000 + longReach.airNs 100 + 500000 ≤ 5 * 10000000 := by
  decide +kernel

/-- The example of R242: each start of a weighted queue adds 1u, 4u or 2u to its tag. -/
theorem test_weighted_tags : let q : QPort := { weights := [(4, 4), (5, 1), (6, 2)] }
    kgetD (startQueue q 4 1024 0).tags 4 0 = 1048576 ∧ kgetD (startQueue q 5 1024 0).tags 5 0 = 4 * 1048576
      ∧ kgetD (startQueue q 6 1024 0).tags 6 0 = 2 * 1048576 ∧ tagBefore 0 1 = true ∧ tagBefore 0 0 = false
      ∧ tagBefore (2 ^ 48 - 1) 0 = true := by decide +kernel

/-- The example of R227: with 41,984 cells of pool a queue of α 1 takes packets while S is below 20,992. -/
theorem test_pool : let at_ (sh : Nat) : Dev := (up fun d => { d with
      que := { d.que with p0 := { d.que.p0 with fcMode := 2, pfcEn := 0xF, headroom := 256 }, p1 := { d.que.p1 with fcMode := 2, pfcEn := 0xF, headroom := 256 } }
      sht := { d.sht with queues := [(qkey .bh0 6, [{ queued packet .plk true with minCells := 64, shared := sh }])] } }).dev
    (at_ 0).freeCells = 41984 ∧ drawCells (at_ 20990) .bh0 6 6 .plk 6 = (some (0, 6, 0), false)
      ∧ drawCells (at_ 20996) .bh0 6 6 .plk 6 = (none, false) := by decide +kernel

/-- The example of R311: district skein 40. -/
theorem test_commit_word : commitWord 40 = 0x48 ∧ commitHalf 0x40000006 = 1 ∧ commitGen 0x40000006 = 6 := by decide +kernel

/-- The Key Index of generations 7, 255 and 254 (R315). -/
theorem test_key_index : keyIndex 7 = 0x08 ∧ keyIndex 255 = 0x01 ∧ keyIndex 254 = 0xFF := by decide

/-- The example of R325: 3,000,000 octets are 46 blocks. -/
theorem test_reel_blocks : Reel.headOk { reelOk 1 with nblk := 46, size := 3000000 } 1 = true
    ∧ Reel.headOk { reelOk 1 with nblk := 47, size := 3000000 } 1 = false ∧ Reel.headOk { reelOk 1 with nblk := 45, size := 3000000 } 1 = false := by
  decide +kernel

end Sys2Proof.Tests
end

section
/-! PROOFS. What persists: every reset keeps it (O4), and the array after reset is good (O54). -/

namespace Sys2Proof.Machine

/-! ## Resets -/

/-- The passing of time changes nothing that persists. -/
theorem elapse_kept (d : Dev) (dt : Nat) : Kept d (d.elapse dt) := by simp [Kept]

/-- Every reset goes by `Dev.fresh`, which keeps what persists. -/
theorem Kept.fresh {a d : Dev} (h : Kept a d) (ph : Phase) (p : Pwr) : Kept a (d.fresh ph p) := h

theorem Phase.ctrlRuns_ne_unpowered {p : Phase} (h : p.ctrlRuns = true) : p ≠ .unpowered := by
  rintro rfl; cases h

theorem dropRails_running {d : Dev} (h : d.phase.ctrlRuns = true) : dropRails d = railsOff d .off := by
  unfold dropRails
  cases hp : d.phase <;> simp_all [Phase.ctrlRuns]

theorem doResetNAssert_running {d : Dev} (h : d.phase.ctrlRuns = true) :
    doResetNAssert d = railsOff (d.modPwr (fun p => { p with resetLow := true })) .off := by
  rw [doResetNAssert, if_neg (Phase.ctrlRuns_ne_unpowered h)]
  exact dropRails_running h

theorem doInputFall33V_running {d : Dev} (h : d.phase.ctrlRuns = true) :
    doInputFall33V d = railsOff (d.modPwr (fun p => { p with inputOk := false, pwrfail := true })) .off := by
  rw [doInputFall33V, if_neg (Phase.ctrlRuns_ne_unpowered h)]
  exact dropRails_running h

/-- With the logic rail up and the input above the lockout, the release of RESET_N begins a start (R38). -/
theorem doResetNRelease_off {d : Dev} (off : d.phase = .off) (low : d.pwr.resetLow = true) (input : d.pwr.inputOk = true)
    (cold : d.pwr.powerOn = false) :
    doResetNRelease d = d.fresh (.rails 0) { d.pwr with
      resetLow := false, cause := 2, rail := 0, powerOn := false, failsafeRail := false, t0 := d.pwr.wall, vhold := 0, pin := 0,
      temps := ⟨0, 0, 0, 0⟩, wake := 0, offAt := none } := by
  simp only [doResetNRelease, beginStart, Dev.modPwr_phase, Dev.modPwr_pwr, off, low, input, cold, Phase.canStart, and_self,
    ne_eq, reduceCtorEq, not_false_eq_true, if_true, Bool.false_eq_true, if_false]
  rfl

/-- Settles O4: each of these resets goes by `Dev.fresh`. -/
theorem resetsKeepWhatPersists : Obligations.ResetsKeepWhatPersists := by
  unfold Obligations.ResetsKeepWhatPersists
  intro s dt
  have kept := elapse_kept s.dev dt
  refine ⟨fun runs => ?_, fun off low input cold => gives_run rfl ?_, gives_run rfl ⟨rfl, rfl, rfl, rfl, kept.fresh ..⟩⟩
  · have hr : (s.dev.elapse dt).phase.ctrlRuns = true := by rwa [Dev.elapse_phase, Dev.pass_phase]
    refine ⟨gives_run rfl ?_, gives_run rfl ?_, gives_run rfl ?_⟩
    · rw [doResetNAssert_running hr]
      exact ⟨rfl, rfl, rfl, rfl, rfl, rfl, rfl, kept.fresh ..⟩
    · rw [doInputFall33V_running hr]
      exact ⟨rfl, rfl, rfl, rfl, rfl, rfl, rfl, kept.fresh ..⟩
    · rw [doWatchdogExpire, if_pos hr]
      exact ⟨rfl, rfl, rfl, rfl, rfl, rfl, kept.fresh ..⟩
  · rw [doResetNRelease_off (by simpa using off) (by simpa using low) (by simpa using input) (by simpa using cold)]
    exact ⟨rfl, rfl, rfl, by simp [Dev.fresh], kept.fresh ..⟩

/-- Settles O54. -/
theorem resetArrayIsGood : Obligations.ResetArrayIsGood := by
  unfold Obligations.ResetArrayIsGood
  exact ⟨rfl, rfl⟩

end Sys2Proof.Machine
end

section
/-! PROOFS. What is as built (R10, R298): every state of the device has it, every function keeps it, and a re-mask
changes the shares of a root key and not the key (O56). -/

namespace Sys2Proof.Machine

/-! ## What is as built -/

/-- What is as built (R10, R298). -/
structure AsBuilt where
  eui : BitVec 64
  ctrlStep : BitVec 4
  radioStep : BitVec 4
  powerStep : BitVec 4
  root : KMap (List Byte × List Byte)

def Dev.asBuilt (d : Dev) : AsBuilt := ⟨d.glb.eui, d.glb.ctrlStep, d.glb.radioStep, d.glb.powerStep, d.dst.root⟩

/-- The components of the device that hold nothing as built. -/
def Part.notBuilt : List Part :=
  [.phase, .free, .out, .pwr, .start, .pra, .evt, .whl, .spn, .region, .wrp, .ccp, .sht, .que, .crd, .ply, .img, .bob]

/-- What changes no component that holds what is as built leaves that as it was. -/
theorem Only.asBuilt {a b : Dev} (h : Only Part.notBuilt a b) : b.asBuilt = a.asBuilt := by
  have hg : b.glb = a.glb := h.same .glb (by decide)
  have hd : b.dst = a.dst := h.same .dst (by decide)
  simp [Dev.asBuilt, hg, hd]

@[simp] theorem Dev.asBuilt_out (x : Dev) (v : List Output) : { x with out := v }.asBuilt = x.asBuilt := rfl

@[simp] theorem Dev.asBuilt_free (x : Dev) (v : Nat) : { x with free := v }.asBuilt = x.asBuilt := rfl

@[simp] theorem Dev.asBuilt_evt (x : Dev) (v : Evt) : { x with evt := v }.asBuilt = x.asBuilt := rfl

@[simp] theorem Dev.asBuilt_start (x : Dev) (v : Start) : { x with start := v }.asBuilt = x.asBuilt := rfl

@[simp] theorem Dev.asBuilt_ccp (x : Dev) (v : Ccp) : { x with ccp := v }.asBuilt = x.asBuilt := rfl

@[simp] theorem Dev.asBuilt_phase (x : Dev) (v : Phase) : { x with phase := v }.asBuilt = x.asBuilt := rfl

@[simp] theorem Dev.asBuilt_pwr (x : Dev) (v : Pwr) : { x with pwr := v }.asBuilt = x.asBuilt := rfl

@[simp] theorem Dev.asBuilt_whl (x : Dev) (v : Whl) : { x with whl := v }.asBuilt = x.asBuilt := rfl

@[simp] theorem Dev.asBuilt_pra (x : Dev) (v : Pra) : { x with pra := v }.asBuilt = x.asBuilt := rfl

@[simp] theorem Dev.asBuilt_img (x : Dev) (v : Img) : { x with img := v }.asBuilt = x.asBuilt := rfl

@[simp] theorem Dev.asBuilt_ply (x : Dev) (v : Ply) : { x with ply := v }.asBuilt = x.asBuilt := rfl

@[simp] theorem Dev.asBuilt_sht (x : Dev) (v : Sht) : { x with sht := v }.asBuilt = x.asBuilt := rfl

@[simp] theorem Dev.asBuilt_spn (x : Dev) (v : Four Spn) : { x with spn := v }.asBuilt = x.asBuilt := rfl

@[simp] theorem Dev.asBuilt_wrp (x : Dev) (v : Wrp) : { x with wrp := v }.asBuilt = x.asBuilt := rfl

theorem OnlyO.asBuilt {a : Dev} {o : Option (Dev × Status)} (h : OnlyO Part.notBuilt a o) :
    ∀ r ∈ o, r.1.asBuilt = a.asBuilt :=
  fun r e => (h.only r e).asBuilt

theorem getD_asBuilt {a : Dev} {o : Option (Dev × Status)} {x : Dev × Status} (h : ∀ r ∈ o, r.1.asBuilt = a.asBuilt)
    (hx : x.1.asBuilt = a.asBuilt) : (o.getD x).1.asBuilt = a.asBuilt := by
  cases o with
  | none => exact hx
  | some r => exact h r rfl

@[simp] theorem Dst.putHalf_root (x : Dst) (code s : Nat) (h : Half) : (x.putHalf code s h).root = x.root := by
  unfold Dst.putHalf; split <;> rfl

@[simp] theorem Dst.dropHalf_root (x : Dst) (code s : Nat) : (x.dropHalf code s).root = x.root := by
  unfold Dst.dropHalf; split <;> rfl

@[simp] theorem Dev.modDst_asBuilt (d : Dev) (f : Dst → Dst) (h : ∀ x, (f x).root = x.root) :
    (d.modDst f).asBuilt = d.asBuilt := by
  simp [Dev.asBuilt, h]

@[simp] theorem Dev.modGlb_asBuilt (d : Dev) (f : Glb → Glb) (he : ∀ g, (f g).eui = g.eui)
    (hc : ∀ g, (f g).ctrlStep = g.ctrlStep) (hr : ∀ g, (f g).radioStep = g.radioStep)
    (hp : ∀ g, (f g).powerStep = g.powerStep) :
    (d.modGlb f).asBuilt = d.asBuilt := by simp [Dev.asBuilt, he, hc, hr, hp]

theorem fst_asBuilt {α : Type} {r : Dev × α} {y : Dev} {x : α} (h : r = (y, x)) : y.asBuilt = r.1.asBuilt := by rw [h]

theorem snd_asBuilt {α : Type} {r : α × Dev} {y : Dev} {x : α} (h : r = (x, y)) : y.asBuilt = r.2.asBuilt := by rw [h]

theorem Dev.asBuilt_of {a b : Dev} {c : AsBuilt} (hg : b.glb = a.glb) (hd : b.dst = a.dst) (h : a.asBuilt = c) :
    b.asBuilt = c := by
  rw [← h]; simp [Dev.asBuilt, hg, hd]

@[simp] theorem Dev.pass_asBuilt (d : Dev) (ns : Nat) : (d.pass ns).asBuilt = d.asBuilt := by
  simp only [Dev.asBuilt, Dev.pass_glb_eui, Dev.pass_glb_ctrlStep, Dev.pass_glb_radioStep,
    Dev.pass_glb_powerStep, Dev.pass_dst]

@[simp] theorem Dev.elapse_asBuilt (d : Dev) (dt : Nat) : (d.elapse dt).asBuilt = d.asBuilt := Dev.pass_asBuilt d dt

@[simp] theorem each_asBuilt {α : Type} {l : List α} {f : Dev → α → Dev} {d : Dev}
    (h : ∀ e x, (f e x).asBuilt = e.asBuilt) : (each l f d).asBuilt = d.asBuilt := by
  induction l generalizing d with
  | nil => rfl
  | cons x r ih => exact ih.trans (h d x)

theorem Dev.asBuilt_up (x : Dev) (ph : Phase) (n : Nat) (p : Pwr) :
    { x with phase := ph, dst := { x.dst with mdLocked := true }, glb := { x.glb with power := n }, pwr := p }.asBuilt
      = x.asBuilt := rfl

theorem regRow_asBuilt {f : Dev → Dev × Status} {d : Dev} (h : (f d).1.asBuilt = d.asBuilt) :
    (regRow f d).asBuilt = d.asBuilt := by
  unfold regRow; split
  · exact h
  · rfl

/-! ## The functions of the model

A function that leaves the two components alone does so by its `_only` lemma. For the others the proof follows the
function's branches. -/

@[simp] theorem report_asBuilt (d : Dev) (e : Nat) (payload : List Byte) : (report d e payload).asBuilt = d.asBuilt :=
  (report_only d e payload rfl (.refl _ _)).asBuilt

@[simp] theorem watch_asBuilt (d : Dev) (e i : Nat) (set clear : Bool) (payload : List Byte) :
    (watch d e i set clear payload).asBuilt = d.asBuilt :=
  (watch_only d e i set clear payload rfl (.refl _ _)).asBuilt

@[simp] theorem watchIf_asBuilt (d : Dev) (e : Nat) (on : Bool) : (watchIf d e on).asBuilt = d.asBuilt :=
  (watchIf_only d e on rfl (.refl _ _)).asBuilt

@[simp] theorem watchDwell_asBuilt (d : Dev) (e i : Nat) (set clear : Bool) (dwellSet dwellClear now : Nat)
    (payload : List Byte) :
    (watchDwell d e i set clear dwellSet dwellClear now payload).asBuilt = d.asBuilt :=
  (watchDwell_only d e i set clear dwellSet dwellClear now payload rfl (.refl _ _)).asBuilt

@[simp] theorem Dev.emit_asBuilt (d : Dev) (o : Output) : (Dev.emit d o).asBuilt = d.asBuilt :=
  (Dev.emit_only d o rfl (.refl _ _)).asBuilt

@[simp] theorem Dev.draw_asBuilt (d : Dev) : (Dev.draw d).2.asBuilt = d.asBuilt :=
  (Dev.draw_only d rfl (.refl _ _)).asBuilt

@[simp] theorem Dev.modSpn_asBuilt (d : Dev) (n : Fin 4) (f : Spn → Spn) : (Dev.modSpn d n f).asBuilt = d.asBuilt :=
  (Dev.modSpn_only d n f rfl (.refl _ _)).asBuilt

@[simp] theorem Dev.modWhl_asBuilt (d : Dev) (f : Whl → Whl) : (Dev.modWhl d f).asBuilt = d.asBuilt :=
  (Dev.modWhl_only d f rfl (.refl _ _)).asBuilt

@[simp] theorem Dev.modWrp_asBuilt (d : Dev) (f : Wrp → Wrp) : (Dev.modWrp d f).asBuilt = d.asBuilt :=
  (Dev.modWrp_only d f rfl (.refl _ _)).asBuilt

@[simp] theorem Dev.modCcp_asBuilt (d : Dev) (f : Ccp → Ccp) : (Dev.modCcp d f).asBuilt = d.asBuilt :=
  (Dev.modCcp_only d f rfl (.refl _ _)).asBuilt

@[simp] theorem Dev.modPly_asBuilt (d : Dev) (f : Ply → Ply) : (Dev.modPly d f).asBuilt = d.asBuilt :=
  (Dev.modPly_only d f rfl (.refl _ _)).asBuilt

@[simp] theorem Dev.modPwr_asBuilt (d : Dev) (f : Pwr → Pwr) : (Dev.modPwr d f).asBuilt = d.asBuilt :=
  (Dev.modPwr_only d f rfl (.refl _ _)).asBuilt

@[simp] theorem Dev.modImg_asBuilt (d : Dev) (f : Img → Img) : (Dev.modImg d f).asBuilt = d.asBuilt :=
  (Dev.modImg_only d f rfl (.refl _ _)).asBuilt

@[simp] theorem Dev.modPra_asBuilt (d : Dev) (f : Pra → Pra) : (Dev.modPra d f).asBuilt = d.asBuilt :=
  (Dev.modPra_only d f rfl (.refl _ _)).asBuilt

@[simp] theorem praLow_asBuilt (d : Dev) : (praLow d).asBuilt = d.asBuilt :=
  (praLow_only d rfl (.refl _ _)).asBuilt

@[simp] theorem praDue_asBuilt (d : Dev) : (praDue d).asBuilt = d.asBuilt :=
  (praDue_only d rfl (.refl _ _)).asBuilt

@[simp] theorem praRefuse_asBuilt (d : Dev) (n : Nat) : (praRefuse d n).asBuilt = d.asBuilt :=
  (praRefuse_only d n rfl (.refl _ _)).asBuilt

@[simp] theorem praFinish_asBuilt (d : Dev) (n : Nat) (v : Word) (verifyOk : Bool) :
    (praFinish d n v verifyOk).1.asBuilt = d.asBuilt :=
  (praFinish_only d n v verifyOk rfl (.refl _ _)).asBuilt

@[simp] theorem praOwn_asBuilt (d : Dev) (n : Nat) (v : Word) (verifyOk : Bool) :
    (praOwn d n v verifyOk).1.asBuilt = d.asBuilt :=
  (praOwn_only d n v verifyOk rfl (.refl _ _)).asBuilt

@[simp] theorem praWait_asBuilt (d : Dev) (n : Nat) (v : Word) (verifyOk : Bool) :
    (praWait d n v verifyOk).1.asBuilt = d.asBuilt := by
  unfold praWait; dsimp only; split <;> simp

@[simp] theorem praWaits_asBuilt (faults : List Nat) (l : List (Nat × Word)) (d : Dev) :
    (praWaits faults l d).asBuilt = d.asBuilt := by simp [praWaits]

@[simp] theorem praSkip_asBuilt (d : Dev) (n : Nat) (v : Word) (verifyOk : Bool) :
    (praSkip d n v verifyOk).asBuilt = d.asBuilt :=
  (praSkip_only d n v verifyOk rfl (.refl _ _)).asBuilt

@[simp] theorem refuseKey_asBuilt (d : Dev) (s : Nat) : (refuseKey d s).asBuilt = d.asBuilt := by
  unfold refuseKey; dsimp only; repeat' split
  all_goals simp

@[simp] theorem invoke_asBuilt (d : Dev) (s master use : Nat) : (invoke d s master use).2.asBuilt = d.asBuilt := by
  unfold invoke; dsimp only; split <;> simp

@[simp] theorem disableSkein_asBuilt (d : Dev) (s cause : Nat) : (disableSkein d s cause).asBuilt = d.asBuilt := by
  refine (report_asBuilt ..).trans (Dev.modDst_asBuilt _ _ fun x => ?_)
  repeat' split
  all_goals rfl

@[simp] theorem splitKey_asBuilt (d : Dev) (key : List Byte) : (splitKey d key).2.2.asBuilt = d.asBuilt :=
  (splitKey_only d key rfl (.refl _ _)).asBuilt

@[simp] theorem loadHalf_asBuilt (d : Dev) (s : Nat) (h : Half) :
    (loadHalf d s h).asBuilt = d.asBuilt := by simp [loadHalf]

@[simp] theorem loadSkein_asBuilt (d : Dev) (s : Nat) : (loadSkein d s).asBuilt = d.asBuilt := by
  unfold loadSkein; dsimp only; repeat' split
  all_goals simp

@[simp] theorem dropCache_asBuilt (d : Dev) (s : Nat) : (dropCache d s).asBuilt = d.asBuilt := by simp [dropCache]

@[simp] theorem eraseSkein_asBuilt (d : Dev) (s : Nat) (verifyOk : Bool) :
    (eraseSkein d s verifyOk).1.asBuilt = d.asBuilt := by
  unfold eraseSkein; dsimp only; repeat' split
  all_goals simp

@[simp] theorem cacheWatch_asBuilt (d : Dev) : (cacheWatch d).asBuilt = d.asBuilt :=
  (cacheWatch_only d rfl (.refl _ _)).asBuilt

@[simp] theorem deriveKey_asBuilt (d : Dev) (s : Nat) (eui : BitVec 64) (gen : Nat) :
    (deriveKey d s eui gen).asBuilt = d.asBuilt := by
  unfold deriveKey; dsimp only; repeat' split
  all_goals simp

@[simp] theorem extendMd_asBuilt (d : Dev) (i : Nat) (item : BitVec 384) :
    (extendMd d i item).asBuilt = d.asBuilt := by
  unfold extendMd; split <;> simp

@[simp] theorem extendMdBy_asBuilt (d : Dev) (i : Nat) (l : List Byte) :
    (extendMdBy d i l).asBuilt = d.asBuilt := by simp [extendMdBy]

@[simp] theorem quoteStamp_asBuilt (d : Dev) : (quoteStamp d).asBuilt = d.asBuilt := by simp [quoteStamp]

@[simp] theorem quoteDrop_asBuilt (d : Dev) : (quoteDrop d).asBuilt = d.asBuilt := by simp [quoteDrop]

@[simp] theorem ccpEmit_asBuilt (d : Dev) (dst : BitVec 128) (port : BitVec 16) (octs : List Byte) :
    (ccpEmit d dst port octs).asBuilt = d.asBuilt :=
  (ccpEmit_only d dst port octs rfl (.refl _ _)).asBuilt

@[simp] theorem threadsWatch_asBuilt (d : Dev) : (threadsWatch d).asBuilt = d.asBuilt :=
  (threadsWatch_only d rfl (.refl _ _)).asBuilt

@[simp] theorem Dev.modThread_asBuilt (d : Dev) (th : Nat) (f : Thread → Thread) :
    (Dev.modThread d th f).asBuilt = d.asBuilt :=
  (Dev.modThread_only d th f rfl (.refl _ _)).asBuilt

@[simp] theorem markDone_asBuilt (d : Dev) (th : Nat) (st : Status) (res : List Byte) :
    (markDone d th st res).asBuilt = d.asBuilt :=
  (markDone_only d th st res rfl (.refl _ _)).asBuilt

@[simp] theorem dropLaunch_asBuilt (d : Dev) (l : Launch) : (dropLaunch d l).asBuilt = d.asBuilt :=
  (dropLaunch_only d l rfl (.refl _ _)).asBuilt

@[simp] theorem settleFences_asBuilt (d : Dev) : (settleFences d).asBuilt = d.asBuilt :=
  (settleFences_only d rfl (.refl _ _)).asBuilt

@[simp] theorem finish_asBuilt (d : Dev) (th : Nat) (st : Status) (res : List Byte) :
    (finish d th st res).asBuilt = d.asBuilt :=
  (finish_only d th st res rfl (.refl _ _)).asBuilt

@[simp] theorem freeThread_asBuilt (d : Dev) (th : Nat) : (freeThread d th).asBuilt = d.asBuilt :=
  (freeThread_only d th rfl (.refl _ _)).asBuilt

@[simp] theorem runThread_asBuilt {α : Type} {th : Nat} {pick : Cmd → Option α} {f : Dev → Thread → α → Dev} {d : Dev}
    (h : ∀ e t x, (f e t x).asBuilt = e.asBuilt) : (runThread d th pick f).asBuilt = d.asBuilt := by
  unfold runThread; repeat' split
  all_goals simp [h]

@[simp] theorem drainBobbin_asBuilt (d : Dev) (n : Fin 4) : (drainBobbin d n).asBuilt = d.asBuilt :=
  (drainBobbin_only d n rfl (.refl _ _)).asBuilt

@[simp] theorem syncReset_asBuilt (d : Dev) (n : Fin 4) : (syncReset d n).asBuilt = d.asBuilt :=
  (syncReset_only d n rfl (.refl _ _)).asBuilt

@[simp] theorem Dev.modCnt_asBuilt (d : Dev) (n : Fin 4) (f : WrpCnt → WrpCnt) :
    (Dev.modCnt d n f).asBuilt = d.asBuilt :=
  (Dev.modCnt_only d n f rfl (.refl _ _)).asBuilt

@[simp] theorem loseRecord_asBuilt (d : Dev) (k : AirKind) : (loseRecord d k).asBuilt = d.asBuilt :=
  (loseRecord_only d k rfl (.refl _ _)).asBuilt

@[simp] theorem dropTx_asBuilt (d : Dev) (n : Fin 4) (c : Lost) : (dropTx d n c).asBuilt = d.asBuilt :=
  (dropTx_only d n c rfl (.refl _ _)).asBuilt

@[simp] theorem maskWatch_asBuilt (d : Dev) (n : Fin 4) : (maskWatch d n).asBuilt = d.asBuilt :=
  (maskWatch_only d n rfl (.refl _ _)).asBuilt

@[simp] theorem allToStandby_asBuilt (d : Dev) : (allToStandby d).asBuilt = d.asBuilt :=
  (allToStandby_only d rfl (.refl _ _)).asBuilt

@[simp] theorem enterRecovery_asBuilt (d : Dev) : (enterRecovery d).asBuilt = d.asBuilt := rfl

@[simp] theorem romBoot_asBuilt (d : Dev) (recoveryLow verifyOk : Bool) :
    (romBoot d recoveryLow verifyOk).asBuilt = d.asBuilt := by
  unfold romBoot; dsimp only; repeat' split
  all_goals simp

@[simp] theorem doControlDieResetRelease_asBuilt (recoveryLow : Bool) (straps : BitVec 5) (bhref verifyOk : Bool)
    (d : Dev) :
    (doControlDieResetRelease recoveryLow straps bhref verifyOk d).asBuilt = d.asBuilt := by
  unfold doControlDieResetRelease; dsimp only; split
  · split
    · exact romBoot_asBuilt ..
    · rfl
  · rfl

@[simp] theorem doSfdpDiscovery_asBuilt (f : Sfdp) (d : Dev) : (doSfdpDiscovery f d).asBuilt = d.asBuilt := by
  unfold doSfdpDiscovery; repeat' split
  all_goals simp

@[simp] theorem doLoaderCheck_asBuilt (r : Reel) (d : Dev) : (doLoaderCheck r d).asBuilt = d.asBuilt := by
  unfold doLoaderCheck; dsimp only; repeat' split
  all_goals simp

@[simp] theorem selfTest_asBuilt (d : Dev) (b : Nat) (code : BitVec 2) : (selfTest d b code).asBuilt = d.asBuilt := by
  unfold selfTest; split <;> simp

@[simp] theorem doDramZeroFill_asBuilt (code : BitVec 2) (d : Dev) : (doDramZeroFill code d).asBuilt = d.asBuilt := by
  unfold doDramZeroFill; split <;> simp

@[simp] theorem loadBank_asBuilt (d : Dev) (bank : Nat) (r0 r1 : Reel) :
    (loadBank d bank r0 r1).asBuilt = d.asBuilt := Dev.asBuilt_of rfl rfl (extendMd_asBuilt ..)

@[simp] theorem bankFallback_asBuilt (d : Dev) (bank : Nat) (r0 r1 : Reel) (verifyOk : Bool) :
    (bankFallback d bank r0 r1 verifyOk).asBuilt = d.asBuilt := by
  unfold bankFallback; dsimp only; repeat' split
  all_goals simp

@[simp] theorem doBankLoad_asBuilt (r0 r1 : Reel) (verifyOk : Bool) (d : Dev) :
    (doBankLoad r0 r1 verifyOk d).asBuilt = d.asBuilt := by
  unfold doBankLoad; dsimp only; repeat' split
  all_goals simp

@[simp] theorem eraseReturned_asBuilt (faults : List Nat) (d : Dev) :
    (eraseReturned faults d).asBuilt = d.asBuilt := by
  refine each_asBuilt fun _ _ => ?_
  split <;> simp

@[simp] theorem doFirmwareStart_asBuilt (tests : List SelfTest) (faults : List Nat) (d : Dev) :
    (doFirmwareStart tests faults d).asBuilt = d.asBuilt := by
  unfold doFirmwareStart; split
  · have loaded (e : Dev) : (each tests (fun d t => selfTest d t.block t.code) (each operatorSkeins loadSkein e)).asBuilt
        = e.asBuilt := by simp
    refine (praLow_asBuilt _).trans ((loaded _).trans ?_)
    dsimp only; repeat' split
    all_goals simp
  · rfl

@[simp] theorem refreshBanks_asBuilt (d : Dev) : (refreshBanks d).asBuilt = d.asBuilt :=
  (refreshBanks_only d rfl (.refl _ _)).asBuilt

@[simp] theorem reelCommit_asBuilt (d : Dev) (verifyOk : Bool) : (reelCommit d verifyOk).asBuilt = d.asBuilt := by
  unfold reelCommit; dsimp only; repeat' split
  all_goals simp

@[simp] theorem logDeferred_asBuilt (d : Dev) : (logDeferred d).asBuilt = d.asBuilt :=
  (logDeferred_only d rfl (.refl _ _)).asBuilt

@[simp] theorem svcReply_asBuilt (d : Dev) (type : Nat) (seq : BitVec 8) (st : Status) (payload : List Byte) :
    (svcReply d type seq st payload).asBuilt = d.asBuilt :=
  (svcReply_only d type seq st payload rfl (.refl _ _)).asBuilt

@[simp] theorem answerQuote_asBuilt (master : Nat) (d : Dev)
    (q : Option (BitVec 128 × BitVec 16) × BitVec 8 × BitVec 256) :
    (answerQuote master d q).asBuilt = d.asBuilt := by
  unfold answerQuote; dsimp only; split
  · split <;> simp
  · split
    · split
      next e => split <;> simpa using snd_asBuilt e
      next e => split <;> simpa using snd_asBuilt e
    · simp

@[simp] theorem reportStartChange_asBuilt (d : Dev) : (reportStartChange d).asBuilt = d.asBuilt :=
  (reportStartChange_only d rfl (.refl _ _)).asBuilt

@[simp] theorem doStartHold_asBuilt (bootOk bankOk : Bool) (d : Dev) :
    (doStartHold bootOk bankOk d).asBuilt = d.asBuilt := by
  unfold doStartHold; split
  · refine (each_asBuilt fun _ _ => answerQuote_asBuilt ..).trans ((Dev.modDst_asBuilt _ _ fun _ => rfl).trans ?_)
    rw [report_asBuilt, reportStartChange_asBuilt, logDeferred_asBuilt]
    exact (Dev.asBuilt_up ..).trans (by simp)
  · rfl

@[simp] theorem plyOut_asBuilt (d : Dev) (o : Output) (b : Bool) : (plyOut d o b).asBuilt = d.asBuilt :=
  (plyOut_only d o b rfl (.refl _ _)).asBuilt

@[simp] theorem plySend_asBuilt (d : Dev) (o : Output) : (plySend d o).asBuilt = d.asBuilt := by
  unfold plySend; dsimp only; repeat' split
  all_goals simp

@[simp] theorem loomSend_asBuilt (d : Dev) (x : LoomTo) (o : Output) : (loomSend d x o).asBuilt = d.asBuilt := by
  unfold loomSend; dsimp only; split <;> simp

@[simp] theorem Dev.modNode_asBuilt (d : Dev) (i : Nat) (f : Node → Node) : (Dev.modNode d i f).asBuilt = d.asBuilt :=
  (Dev.modNode_only d i f rfl (.refl _ _)).asBuilt

@[simp] theorem assignRec_asBuilt (d : Dev) (r : DownRec) : (assignRec d r).asBuilt = d.asBuilt := by simp [assignRec]

@[simp] theorem masterTake_asBuilt (d : Dev) (r : DownRec) : (masterTake d r).asBuilt = d.asBuilt := by
  unfold masterTake; dsimp only; repeat' split
  all_goals simp

@[simp] theorem submitRec_asBuilt (d : Dev) (r : DownRec) : (submitRec d r).asBuilt = d.asBuilt := by
  unfold submitRec; split <;> simp

@[simp] theorem adoptWaiting_asBuilt (d : Dev) : (adoptWaiting d).asBuilt = d.asBuilt := by simp [adoptWaiting]

@[simp] theorem discardNodes_asBuilt (d : Dev) : (discardNodes d).asBuilt = d.asBuilt :=
  (discardNodes_only d rfl (.refl _ _)).asBuilt

@[simp] theorem armTrickle_asBuilt (d : Dev) (from_ i : Nat) : (armTrickle d from_ i).asBuilt = d.asBuilt :=
  (armTrickle_only d from_ i rfl (.refl _ _)).asBuilt

@[simp] theorem setRole_asBuilt (d : Dev) (r : Role) (m : Bool) : (setRole d r m).asBuilt = d.asBuilt := by
  unfold setRole; dsimp only; repeat' split
  all_goals simp

@[simp] theorem streamDelta_asBuilt (d : Dev) (x : Delta) : (streamDelta d x).asBuilt = d.asBuilt := by
  unfold streamDelta; split <;> simp

@[simp] theorem oweCounters_asBuilt (d : Dev) (dest : Option Nat) : (oweCounters d dest).asBuilt = d.asBuilt :=
  (oweCounters_only d dest rfl (.refl _ _)).asBuilt

@[simp] theorem unsync_asBuilt (d : Dev) (dest : Option Nat) : (unsync d dest).asBuilt = d.asBuilt :=
  (unsync_only d dest rfl (.refl _ _)).asBuilt

@[simp] theorem Dev.setQueue_asBuilt (d : Dev) (p : Port) (c : Nat) (l : List QPkt) :
    (Dev.setQueue d p c l).asBuilt = d.asBuilt :=
  (Dev.setQueue_only d p c l rfl (.refl _ _)).asBuilt

@[simp] theorem Dev.modQport_asBuilt (d : Dev) (p : Port) (f : QPort → QPort) :
    (Dev.modQport d p f).asBuilt = d.asBuilt :=
  (Dev.modQport_only d p f rfl (.refl _ _)).asBuilt

@[simp] theorem bufEval_asBuilt (d : Dev) : (bufEval d).asBuilt = d.asBuilt :=
  (bufEval_only d rfl (.refl _ _)).asBuilt

@[simp] theorem gateDue_asBuilt (d : Dev) (p : Port) : (gateDue d p).asBuilt = d.asBuilt :=
  (gateDue_only d p rfl (.refl _ _)).asBuilt

@[simp] theorem police_asBuilt (d : Dev) (i l : Nat) : (police d i l).2.asBuilt = d.asBuilt :=
  (police_only d i l rfl (.refl _ _)).asBuilt

@[simp] theorem lookup_asBuilt (d : Dev) (shadow : Bool) (dst : BitVec 128) :
    (lookup d shadow dst).1.asBuilt = d.asBuilt :=
  (lookup_only d shadow dst rfl (.refl _ _)).asBuilt

@[simp] theorem bhEntry_asBuilt (d : Dev) (p : Packet) : (bhEntry d p).2.asBuilt = d.asBuilt :=
  (bhEntry_only d p rfl (.refl _ _)).asBuilt

@[simp] theorem dropBuf_asBuilt (d : Dev) : (dropBuf d).asBuilt = d.asBuilt :=
  (dropBuf_only d rfl (.refl _ _)).asBuilt

@[simp] theorem dropMiss_asBuilt (d : Dev) : (dropMiss d).asBuilt = d.asBuilt :=
  (dropMiss_only d rfl (.refl _ _)).asBuilt

@[simp] theorem dropNonip_asBuilt (d : Dev) : (dropNonip d).asBuilt = d.asBuilt :=
  (dropNonip_only d rfl (.refl _ _)).asBuilt

@[simp] theorem dropHop_asBuilt (d : Dev) : (dropHop d).asBuilt = d.asBuilt :=
  (dropHop_only d rfl (.refl _ _)).asBuilt

@[simp] theorem dropMtu_asBuilt (d : Dev) : (dropMtu d).asBuilt = d.asBuilt :=
  (dropMtu_only d rfl (.refl _ _)).asBuilt

@[simp] theorem dropNoport_asBuilt (d : Dev) : (dropNoport d).asBuilt = d.asBuilt :=
  (dropNoport_only d rfl (.refl _ _)).asBuilt

@[simp] theorem dropNonode_asBuilt (d : Dev) : (dropNonode d).asBuilt = d.asBuilt :=
  (dropNonode_only d rfl (.refl _ _)).asBuilt

@[simp] theorem enterQueue_asBuilt (d : Dev) (inPort : Port) (inClass : Nat) (p : Port) (c : Nat) (k : Packet)
    (node : Option Nat) :
    (enterQueue d inPort inClass p c k node).asBuilt = d.asBuilt :=
  (enterQueue_only d inPort inClass p c k node rfl (.refl _ _)).asBuilt

@[simp] theorem forwardFit_asBuilt (d : Dev) (inPort : Port) (inClass : Nat) (p : Port) (c : Nat) (node : Option Nat)
    (k : Packet) :
    (forwardFit d inPort inClass p c node k).asBuilt = d.asBuilt := by
  unfold forwardFit; repeat' split
  all_goals simp

@[simp] theorem forward_asBuilt (d : Dev) (inPort : Port) (inClass : Nat) (p : Port) (c : Nat) (k : Packet)
    (node : Option Nat) :
    (forward d inPort inClass p c k node).asBuilt = d.asBuilt := by
  unfold forward; dsimp only; repeat' split
  all_goals simp

@[simp] theorem forwardBh_asBuilt (d : Dev) (inPort : Port) (inClass c : Nat) (k : Packet) :
    (forwardBh d inPort inClass c k).asBuilt = d.asBuilt := by
  unfold forwardBh; dsimp only; repeat' split
  all_goals simp

@[simp] theorem routePacket_asBuilt (d : Dev) (inPort : Port) (c : Nat) (k : Packet) :
    (routePacket d inPort c k).asBuilt = d.asBuilt := by
  unfold routePacket; split
  · simp
  · split
    next e => split <;> [skip; split] <;> simpa using fst_asBuilt e
    next e => dsimp only; split <;> simpa using fst_asBuilt e

@[simp] theorem ingressPacket_asBuilt (d : Dev) (port : Port) (k : Packet) :
    (ingressPacket d port k).asBuilt = d.asBuilt := by
  unfold ingressPacket; dsimp only; repeat' split
  all_goals simp

@[simp] theorem doPacketIngress_asBuilt (port : Port) (k : Packet) (d : Dev) :
    (doPacketIngress port k d).asBuilt = d.asBuilt := by
  unfold doPacketIngress; split <;> simp

@[simp] theorem dropOversize_asBuilt (d : Dev) (p : Port) (c : Nat) : (dropOversize d p c).asBuilt = d.asBuilt :=
  (dropOversize_only d p c rfl (.refl _ _)).asBuilt

@[simp] theorem meshRecord_asBuilt (d : Dev) (k : QPkt) : (meshRecord d k).asBuilt = d.asBuilt := by
  unfold meshRecord; split <;> simp

@[simp] theorem toFirmware_asBuilt (d : Dev) (k : QPkt) : (toFirmware d k).asBuilt = d.asBuilt :=
  (toFirmware_only d k rfl (.refl _ _)).asBuilt

@[simp] theorem stampDelayReq_asBuilt (d : Dev) (p : Port) (k : QPkt) : (stampDelayReq d p k).asBuilt = d.asBuilt :=
  (stampDelayReq_only d p k rfl (.refl _ _)).asBuilt

theorem dequeueDrop_asBuilt {d : Dev} {p : Port} {k : QPkt} {f : Dev → Dev} (h : dequeueDrop d p k = some f) (e : Dev) :
    (f e).asBuilt = e.asBuilt := by
  unfold dequeueDrop at h; repeat' split at h
  all_goals cases h
  all_goals simp

@[simp] theorem selectLoop_asBuilt (n : Nat) (d : Dev) (p : Port) : (selectLoop n d p).asBuilt = d.asBuilt := by
  induction n generalizing d with
  | zero => rfl
  | succ n ih =>
    unfold selectLoop; split
    · rfl
    · split
      · rfl
      · split
        next e => simp [ih, dequeueDrop_asBuilt e]
        next => dsimp only; repeat' split
                all_goals simp

@[simp] theorem fcNext_asBuilt (d : Dev) (p : Port) : (fcNext d p).asBuilt = d.asBuilt :=
  (fcNext_only d p rfl (.refl _ _)).asBuilt

@[simp] theorem selectPort_asBuilt (d : Dev) (p : Port) : (selectPort d p).asBuilt = d.asBuilt := by
  unfold selectPort; split <;> simp

@[simp] theorem doEgressSelect_asBuilt (p : Port) (d : Dev) : (doEgressSelect p d).asBuilt = d.asBuilt := by
  unfold doEgressSelect; dsimp only; repeat' split
  all_goals simp

@[simp] theorem seek_asBuilt (d : Dev) : (seek d).asBuilt = d.asBuilt :=
  (seek_only d rfl (.refl _ _)).asBuilt

@[simp] theorem measured_asBuilt (d : Dev) (off : Int) : (measured d off).asBuilt = d.asBuilt :=
  (measured_only d off rfl (.refl _ _)).asBuilt

@[simp] theorem ptpDrop_asBuilt (d : Dev) : (ptpDrop d).asBuilt = d.asBuilt := by simp [ptpDrop]

@[simp] theorem doPtpSync_asBuilt (port : Bool) (m : PtpSync) (d : Dev) :
    (doPtpSync port m d).asBuilt = d.asBuilt := by
  unfold doPtpSync; dsimp only; repeat' split
  all_goals simp

@[simp] theorem doPtpAnnounce_asBuilt (port : Bool) (m : PtpAnnounce) (d : Dev) :
    (doPtpAnnounce port m d).asBuilt = d.asBuilt := by
  unfold doPtpAnnounce; dsimp only; repeat' split
  all_goals simp

@[simp] theorem doPtpDelayResp_asBuilt (port : Bool) (m : PtpDelayResp) (d : Dev) :
    (doPtpDelayResp port m d).asBuilt = d.asBuilt := by
  unfold doPtpDelayResp; dsimp only; repeat' split
  all_goals simp

@[simp] theorem pulse_asBuilt (d : Dev) (mode us : Nat) : (pulse d mode us).asBuilt = d.asBuilt :=
  (pulse_only d mode us rfl (.refl _ _)).asBuilt

@[simp] theorem atEndOfCell_asBuilt (d : Dev) (n : Fin 4) : (atEndOfCell d n).asBuilt = d.asBuilt :=
  (atEndOfCell_only d n rfl (.refl _ _)).asBuilt

@[simp] theorem reportCal_asBuilt (d : Dev) (n : Fin 4) (fails : List CalKind) (repeats : Nat) :
    (reportCal d n fails repeats).asBuilt = d.asBuilt :=
  (reportCal_only d n fails repeats rfl (.refl _ _)).asBuilt

@[simp] theorem reachSynth_asBuilt (d : Dev) (n : Fin 4) (pairs : List CalPair) :
    (reachSynth d n pairs).asBuilt = d.asBuilt := by simp [reachSynth]

@[simp] theorem doSpindleStateReached_asBuilt (n : Fin 4) (pairs : List CalPair) (d : Dev) :
    (doSpindleStateReached n pairs d).asBuilt = d.asBuilt := by
  unfold doSpindleStateReached; dsimp only; repeat' split
  all_goals simp

@[simp] theorem setTiming_asBuilt (d : Dev) (ackt : Bool) (v : Word) : (setTiming d ackt v).asBuilt = d.asBuilt :=
  (setTiming_only d ackt v rfl (.refl _ _)).asBuilt

@[simp] theorem setWrpCtrl_asBuilt (d : Dev) (v : Word) : (setWrpCtrl d v).asBuilt = d.asBuilt :=
  (setWrpCtrl_only d v rfl (.refl _ _)).asBuilt

@[simp] theorem writeTiming_asBuilt (d : Dev) (ackt : Bool) (v : Word) :
    (writeTiming d ackt v).1.asBuilt = d.asBuilt := by
  unfold writeTiming; dsimp only; repeat' split
  all_goals simp

@[simp] theorem doWrpTimingWrite_asBuilt (ackt : Bool) (v : Word) (d : Dev) :
    (doWrpTimingWrite ackt v d).asBuilt = d.asBuilt := regRow_asBuilt (by simp)

@[simp] theorem setHop_asBuilt (d : Dev) (t : Nat) (i : Option Nat) (v : Word) :
    (setHop d t i v).asBuilt = d.asBuilt :=
  (setHop_only d t i v rfl (.refl _ _)).asBuilt

@[simp] theorem writeHop_asBuilt (d : Dev) (t : Nat) (i : Option Nat) (v : Word) :
    (writeHop d t i v).1.asBuilt = d.asBuilt := by
  unfold writeHop; repeat' split
  all_goals simp

@[simp] theorem doWrpHopWrite_asBuilt (t : Fin 8) (i : Option (Fin 128)) (v : Word) (d : Dev) :
    (doWrpHopWrite t i v d).asBuilt = d.asBuilt := regRow_asBuilt (by simp)

@[simp] theorem writeSfNew_asBuilt (d : Dev) (n : Fin 4) (h : Nat) (v : Word) :
    (writeSfNew d n h v).1.asBuilt = d.asBuilt :=
  (writeSfNew_only d n h v rfl (.refl _ _)).asBuilt

@[simp] theorem writeSfHi_asBuilt (d : Dev) (n : Fin 4) (h : Nat) (v : Word) :
    (writeSfHi d n h v).1.asBuilt = d.asBuilt :=
  (writeSfHi_only d n h v rfl (.refl _ _)).asBuilt

@[simp] theorem writeSfLo_asBuilt (d : Dev) (n : Fin 4) (h : Nat) (v : Word) :
    (writeSfLo d n h v).1.asBuilt = d.asBuilt :=
  (writeSfLo_only d n h v rfl (.refl _ _)).asBuilt

@[simp] theorem doSfSwitch_asBuilt (n : Fin 4) (h : Fin 8) (d : Dev) : (doSfSwitch n h d).asBuilt = d.asBuilt := by
  unfold doSfSwitch; dsimp only; split <;> simp

@[simp] theorem setCell_asBuilt (d : Dev) (n : Fin 4) (i : Nat) (c : Option (Word × Word)) :
    (setCell d n i c).asBuilt = d.asBuilt :=
  (setCell_only d n i c rfl (.refl _ _)).asBuilt

@[simp] theorem ccmdKeep_asBuilt (d : Dev) (v : Word) : (ccmdKeep d v).asBuilt = d.asBuilt :=
  (ccmdKeep_only d v rfl (.refl _ _)).asBuilt

@[simp] theorem ccmdRead_asBuilt (d : Dev) (v : Word) : (ccmdRead d v).asBuilt = d.asBuilt :=
  (ccmdRead_only d v rfl (.refl _ _)).asBuilt

@[simp] theorem ccmdWrite_asBuilt (d : Dev) (v : Word) : (ccmdWrite d v).asBuilt = d.asBuilt := by
  unfold ccmdWrite; dsimp only; split <;> simp

@[simp] theorem ccmdDelete_asBuilt (d : Dev) (v : Word) : (ccmdDelete d v).asBuilt = d.asBuilt := by
  unfold ccmdDelete; dsimp only; split <;> simp

@[simp] theorem doCellWrite_asBuilt (v : Word) (d : Dev) :
    (doCellWrite v d).asBuilt = d.asBuilt := regRow_asBuilt (by simp)

@[simp] theorem doCellDelete_asBuilt (v : Word) (d : Dev) :
    (doCellDelete v d).asBuilt = d.asBuilt := regRow_asBuilt (by simp)

@[simp] theorem writeCcmd_asBuilt (d : Dev) (v : Word) : (writeCcmd d v).1.asBuilt = d.asBuilt := by
  unfold writeCcmd; split <;> simp

theorem writeWrp_asBuilt (d : Dev) (o : Nat) (v : Word) : ∀ r ∈ writeWrp d o v, r.1.asBuilt = d.asBuilt := by
  unfold writeWrp; dsimp only; repeat' split
  all_goals simp

@[simp] theorem changePower_asBuilt (d : Dev) (new cause : Nat) : (changePower d new cause).asBuilt = d.asBuilt := by
  unfold changePower; dsimp only; split
  · rfl
  · repeat' split
    all_goals simp
    all_goals
      refine (each_asBuilt fun _ _ => ?_).trans (by simp)
      repeat' split
      all_goals simp

@[simp] theorem protectiveTrip_asBuilt (d : Dev) (thermal : Bool) :
    (protectiveTrip d thermal).asBuilt = d.asBuilt := by
  unfold protectiveTrip; dsimp only; repeat' split
  all_goals simp

@[simp] theorem doPowerState_asBuilt (th : Nat) (d : Dev) : (doPowerState th d).asBuilt = d.asBuilt := by
  refine runThread_asBuilt fun _ _ _ => ?_
  repeat' split
  all_goals simp

@[simp] theorem selfTestLive_asBuilt (d : Dev) (b : Nat) (ok : Bool) : (selfTestLive d b ok).asBuilt = d.asBuilt := by
  unfold selfTestLive; dsimp only; repeat' split
  all_goals simp

@[simp] theorem thermalWatch_asBuilt (d : Dev) (e i : Nat) (t theta : Int) :
    (thermalWatch d e i t theta).asBuilt = d.asBuilt :=
  (thermalWatch_only d e i t theta rfl (.refl _ _)).asBuilt

@[simp] theorem doTemperatureSample_asBuilt (t : Four Int) (paired : Bool) (d : Dev) :
    (doTemperatureSample t paired d).asBuilt = d.asBuilt := by
  unfold doTemperatureSample; dsimp only; split
  · split <;> simp [apply_ite Dev.asBuilt]
  · rfl

@[simp] theorem railWatch_asBuilt (d : Dev) (i v : Nat) (lim : Nat × Nat × Nat) :
    (railWatch d i v lim).asBuilt = d.asBuilt :=
  (railWatch_only d i v lim rfl (.refl _ _)).asBuilt

@[simp] theorem inputTrip_asBuilt (d : Dev) (vhold : Nat) : (inputTrip d vhold).asBuilt = d.asBuilt := by
  unfold inputTrip; dsimp only; repeat' split
  all_goals simp

@[simp] theorem pwrfailWatch_asBuilt (d : Dev) (vhold : Nat) : (pwrfailWatch d vhold).asBuilt = d.asBuilt :=
  (pwrfailWatch_only d vhold rfl (.refl _ _)).asBuilt

@[simp] theorem stageFail_asBuilt (d : Dev) (st : Status) : (stageFail d st).asBuilt = d.asBuilt :=
  (stageFail_only d st rfl (.refl _ _)).asBuilt

@[simp] theorem doSupplyMeasure_asBuilt (vhold pin : Nat) (rails : List Nat) (d : Dev) :
    (doSupplyMeasure vhold pin rails d).asBuilt = d.asBuilt := by
  unfold doSupplyMeasure; dsimp only; repeat' split
  all_goals simp

@[simp] theorem holdupPass_asBuilt (d : Dev) (v1 v2 p : Nat) : (holdupPass d v1 v2 p).2.asBuilt = d.asBuilt :=
  (holdupPass_only d v1 v2 p rfl (.refl _ _)).asBuilt

@[simp] theorem doHoldupCheckEnd_asBuilt (v2 p : Nat) (d : Dev) : (doHoldupCheckEnd v2 p d).asBuilt = d.asBuilt := by
  unfold doHoldupCheckEnd; dsimp only; repeat' split
  all_goals simp

@[simp] theorem doSpindleTestComplete_asBuilt (n : Fin 4) (r : TestResult) (d : Dev) :
    (doSpindleTestComplete n r d).asBuilt = d.asBuilt := by
  unfold doSpindleTestComplete; split <;> simp

@[simp] theorem dropCorrection_asBuilt (d : Dev) (i : Nat) : (dropCorrection d i).asBuilt = d.asBuilt :=
  (dropCorrection_only d i rfl (.refl _ _)).asBuilt

@[simp] theorem correctNode_asBuilt (d : Dev) (i : Nat) (e : Int) (ts : Nat) (gen : Option Nat) :
    (correctNode d i e ts gen).asBuilt = d.asBuilt := by
  unfold correctNode; dsimp only; repeat' split
  all_goals simp

@[simp] theorem takeFoff_asBuilt (d : Dev) (n : Fin 4) (i : Nat) (foff : Int) :
    (takeFoff d n i foff).asBuilt = d.asBuilt :=
  (takeFoff_only d n i foff rfl (.refl _ _)).asBuilt

@[simp] theorem driftRun_asBuilt (d : Dev) (i : Nat) (cls : Nat) (e : Int) :
    (driftRun d i cls e).asBuilt = d.asBuilt :=
  (driftRun_only d i cls e rfl (.refl _ _)).asBuilt

@[simp] theorem countClass_asBuilt (d : Dev) (n : Fin 4) (cls : Nat) : (countClass d n cls).asBuilt = d.asBuilt :=
  (countClass_only d n cls rfl (.refl _ _)).asBuilt

@[simp] theorem sendHint_asBuilt (d : Dev) (i gen used : Nat) : (sendHint d i gen used).asBuilt = d.asBuilt := by
  unfold sendHint; dsimp only; repeat' split
  all_goals simp

@[simp] theorem linkKey_asBuilt (d : Dev) (x : Node) (s gen : Nat) : (linkKey d x s gen).2.asBuilt = d.asBuilt := by
  unfold linkKey; dsimp only; split <;> simp

@[simp] theorem linkSecure_asBuilt (d : Dev) (i : Nat) (x : Node) (m : MacInfo) :
    (linkSecure d i x m).2.asBuilt = d.asBuilt := by
  unfold linkSecure; dsimp only; repeat' split
  all_goals simp

@[simp] theorem takeAck_asBuilt (d : Dev) (i hash : Nat) (start : Int) :
    (takeAck d i hash start).asBuilt = d.asBuilt :=
  (takeAck_only d i hash start rfl (.refl _ _)).asBuilt

@[simp] theorem takeLate_asBuilt (d : Dev) (n : Fin 4) (x : Descriptor) (l : LateInfo) :
    (takeLate d n x l).asBuilt = d.asBuilt := by
  unfold takeLate; dsimp only; repeat' split
  all_goals simp

@[simp] theorem takeData_asBuilt (d : Dev) (n : Fin 4) (x : Descriptor) (m : MacInfo) :
    (takeData d n x m).asBuilt = d.asBuilt := by
  unfold takeData; dsimp only; split
  · simp
  · split
    next e => simpa using snd_asBuilt e
    next e =>
      have k := snd_asBuilt e
      repeat' split
      all_goals simpa using k

@[simp] theorem takeFrame_asBuilt (m : MacInfo) (d : Dev) : (takeFrame m d).asBuilt = d.asBuilt := by
  unfold takeFrame; split
  · rfl
  · dsimp only; split
    · split <;> simp
    · split
      · simp
      · split
        · simp
        · simp
        · split
          · simp
          · split <;> next e => simpa using snd_asBuilt e

@[simp] theorem doRxFrameProcess_asBuilt (m : MacInfo) (d : Dev) : (doRxFrameProcess m d).asBuilt = d.asBuilt := by
  unfold doRxFrameProcess; repeat' split
  all_goals simp

@[simp] theorem threadDelivered_asBuilt (r : DownRec) (d : Dev) (th : Nat) :
    (threadDelivered r d th).asBuilt = d.asBuilt :=
  (threadDelivered_only r d th rfl (.refl _ _)).asBuilt

@[simp] theorem relayDelivered_asBuilt (d : Dev) (r : DownRec) (st : Status) :
    (relayDelivered d r st).asBuilt = d.asBuilt := by
  unfold relayDelivered; split <;> simp

@[simp] theorem recDelivered_asBuilt (d : Dev) (r : DownRec) :
    (recDelivered d r).asBuilt = d.asBuilt := by simp [recDelivered]

@[simp] theorem recFailed_asBuilt (d : Dev) (r : DownRec) : (recFailed d r).asBuilt = d.asBuilt := by simp [recFailed]

@[simp] theorem shFail_asBuilt (d : Dev) (dest : Option Nat) : (shFail d dest).asBuilt = d.asBuilt :=
  (shFail_only d dest rfl (.refl _ _)).asBuilt

@[simp] theorem shReset_asBuilt (d : Dev) (dest : Option Nat) (shared : Bool) :
    (shReset d dest shared).asBuilt = d.asBuilt :=
  (shReset_only d dest shared rfl (.refl _ _)).asBuilt

@[simp] theorem settleOne_asBuilt (d : Dev) (a : Await) : (settleOne d a).asBuilt = d.asBuilt := by
  unfold settleOne; dsimp only; repeat' split
  all_goals simp

@[simp] theorem settleAll_asBuilt (d : Dev) (start : Nat) :
    (settleAll d start).asBuilt = d.asBuilt := by simp [settleAll]

@[simp] theorem advance_asBuilt (d : Dev) (dest : Option Nat) : (advance d dest).asBuilt = d.asBuilt :=
  (advance_only d dest rfl (.refl _ _)).asBuilt

@[simp] theorem countCopy_asBuilt (d : Dev) (n : Fin 4) (k : Int) (r : DownRec) :
    (countCopy d n k r).asBuilt = d.asBuilt :=
  (countCopy_only d n k r rfl (.refl _ _)).asBuilt

@[simp] theorem recKey_asBuilt (d : Dev) (r : DownRec) : (recKey d r).2.asBuilt = d.asBuilt := by
  unfold recKey; repeat' split
  all_goals simp

@[simp] theorem placeRec_asBuilt (d : Dev) (n : Fin 4) (k : Int) (c : CellRef) (r : DownRec) :
    (placeRec d n k c r).1.asBuilt = d.asBuilt := by
  unfold placeRec; dsimp only; split <;> simp

@[simp] theorem dropBcast_asBuilt (k : Int) (d : Dev) (n : Fin 4) : (dropBcast k d n).asBuilt = d.asBuilt :=
  (dropBcast_only k d n rfl (.refl _ _)).asBuilt

@[simp] theorem dropNoFit_asBuilt (d : Dev) (k : Int) : (dropNoFit d k).asBuilt = d.asBuilt := by
  refine (each_asBuilt fun _ _ => dropBcast_asBuilt ..).trans (each_asBuilt fun _ _ => ?_)
  split <;> simp

@[simp] theorem passShared_asBuilt (d : Dev) (n : Fin 4) (k : Int) : (passShared d n k).asBuilt = d.asBuilt :=
  (passShared_only d n k rfl (.refl _ _)).asBuilt

@[simp] theorem placePlan_asBuilt (d : Dev) (n : Fin 4) (k : Int) (pl : Plan) :
    (placePlan d n k pl).1.asBuilt = d.asBuilt := by
  unfold placePlan; split <;> simp

@[simp] theorem applyPlan_asBuilt (d : Dev) (n : Fin 4) (k : Int) (skip : Bool) :
    (applyPlan d n k skip).asBuilt = d.asBuilt := by
  unfold applyPlan; dsimp only; repeat' split
  all_goals simp

@[simp] theorem tellCounters_asBuilt (d : Dev) : (tellCounters d).asBuilt = d.asBuilt := by
  unfold tellCounters; split
  · rfl
  · refine each_asBuilt fun _ _ => ?_
    repeat' split
    all_goals simp

@[simp] theorem schedule_asBuilt (d : Dev) (k : Int) (skip : Bool) (start : Nat) :
    (schedule d k skip start).asBuilt = d.asBuilt := by
  unfold schedule; dsimp only; repeat' split
  all_goals simp

@[simp] theorem doScheduleComputation_asBuilt (d : Dev) : (doScheduleComputation d).asBuilt = d.asBuilt := by
  unfold doScheduleComputation; dsimp only; repeat' split
  all_goals simp

@[simp] theorem countSkipped_asBuilt (d : Dev) (k : Nat) : (countSkipped d k).asBuilt = d.asBuilt :=
  (countSkipped_only d k rfl (.refl _ _)).asBuilt

@[simp] theorem doDisReceive_asBuilt (i : Nat) (d : Dev) : (doDisReceive i d).asBuilt = d.asBuilt := by
  unfold doDisReceive; repeat' split
  all_goals simp

@[simp] theorem tellWhere_asBuilt (d : Dev) (x : Node) (serving : Nat) :
    (tellWhere d x serving).asBuilt = d.asBuilt := by
  unfold tellWhere; split <;> simp

@[simp] theorem removeNode_asBuilt (d : Dev) (i : Nat) : (removeNode d i).asBuilt = d.asBuilt := by simp [removeNode]

@[simp] theorem releaseNode_asBuilt (d : Dev) (i : Nat) :
    (releaseNode d i).asBuilt = d.asBuilt := by simp [releaseNode]

@[simp] theorem sleepNode_asBuilt (d : Dev) (i : Nat) : (sleepNode d i).asBuilt = d.asBuilt :=
  (sleepNode_only d i rfl (.refl _ _)).asBuilt

@[simp] theorem leaveNode_asBuilt (d : Dev) (i : Nat) : (leaveNode d i).asBuilt = d.asBuilt := by
  unfold leaveNode; dsimp only; repeat' split
  all_goals simp

@[simp] theorem doDaoPathLapse_asBuilt (i : Nat) (d : Dev) : (doDaoPathLapse i d).asBuilt = d.asBuilt := by
  unfold doDaoPathLapse; repeat' split
  all_goals simp

@[simp] theorem doDormantExpire_asBuilt (i : Nat) (d : Dev) : (doDormantExpire i d).asBuilt = d.asBuilt := by
  unfold doDormantExpire; repeat' split
  all_goals simp

@[simp] theorem setPath_asBuilt (d : Dev) (i : Nat) (p : DaoPath) : (setPath d i p).asBuilt = d.asBuilt :=
  (setPath_only d i p rfl (.refl _ _)).asBuilt

@[simp] theorem sendDaoAck_asBuilt (d : Dev) (i : Nat) (seq : BitVec 8) :
    (sendDaoAck d i seq).asBuilt = d.asBuilt := by
  unfold sendDaoAck; split <;> simp

@[simp] theorem takeIndex_asBuilt (d : Dev) : (takeIndex d).2.asBuilt = d.asBuilt := by
  unfold takeIndex; dsimp only; repeat' split
  all_goals simp

@[simp] theorem joinNode_asBuilt (d : Dev) (eui : BitVec 64) (p : DaoPath) (visiting : Option (BitVec 32)) :
    (joinNode d eui p visiting).asBuilt = d.asBuilt := by
  unfold joinNode; split
  next e => simpa using snd_asBuilt e
  next e => dsimp only; split <;> simpa using snd_asBuilt e

@[simp] theorem ackLeaver_asBuilt (d : Dev) (eui : BitVec 64) (p : DaoPath) :
    (ackLeaver d eui p).asBuilt = d.asBuilt := by
  unfold ackLeaver; dsimp only; split <;> simp

@[simp] theorem dropVisit_asBuilt (d : Dev) (eui : BitVec 64) : (dropVisit d eui).asBuilt = d.asBuilt :=
  (dropVisit_only d eui rfl (.refl _ _)).asBuilt

@[simp] theorem renewNode_asBuilt (d : Dev) (i : Nat) (x : Node) (p : DaoPath) :
    (renewNode d i x p).asBuilt = d.asBuilt := by
  unfold renewNode; dsimp only; repeat' split
  all_goals simp

@[simp] theorem doDaoReceive_asBuilt (eui : BitVec 64) (p : DaoPath) (d : Dev) :
    (doDaoReceive eui p d).asBuilt = d.asBuilt := by
  unfold doDaoReceive; dsimp only; repeat' split
  all_goals simp

@[simp] theorem declareFailed_asBuilt (d : Dev) : (declareFailed d).asBuilt = d.asBuilt :=
  (declareFailed_only d rfl (.refl _ _)).asBuilt

@[simp] theorem countMisses_asBuilt (d : Dev) : (countMisses d).asBuilt = d.asBuilt :=
  (countMisses_only d rfl (.refl _ _)).asBuilt

@[simp] theorem alignTick_asBuilt (d : Dev) : (alignTick d).asBuilt = d.asBuilt :=
  (alignTick_only d rfl (.refl _ _)).asBuilt

@[simp] theorem divergeTick_asBuilt (d : Dev) : (divergeTick d).asBuilt = d.asBuilt :=
  (divergeTick_only d rfl (.refl _ _)).asBuilt

@[simp] theorem readyTick_asBuilt (d : Dev) (k : Int) : (readyTick d k).asBuilt = d.asBuilt :=
  (readyTick_only d k rfl (.refl _ _)).asBuilt

@[simp] theorem askSnapshot_asBuilt (d : Dev) : (askSnapshot d).asBuilt = d.asBuilt := by
  unfold askSnapshot; dsimp only; repeat' split
  all_goals simp

@[simp] theorem spareTick_asBuilt (d : Dev) (k : Int) : (spareTick d k).asBuilt = d.asBuilt := by
  unfold spareTick; dsimp only; repeat' split
  all_goals simp

@[simp] theorem pairedTick_asBuilt (d : Dev) (k : Int) : (pairedTick d k).asBuilt = d.asBuilt := by
  unfold pairedTick; dsimp only; repeat' split
  all_goals simp

@[simp] theorem senderTick_asBuilt (d : Dev) (k : Int) : (senderTick d k).asBuilt = d.asBuilt := by
  unfold senderTick; repeat' split
  all_goals simp

@[simp] theorem silentTick_asBuilt (d : Dev) (k : Int) : (silentTick d k).asBuilt = d.asBuilt := by
  unfold silentTick; dsimp only; repeat' split
  all_goals simp

@[simp] theorem soloTick_asBuilt (d : Dev) (k : Int) : (soloTick d k).asBuilt = d.asBuilt := by
  unfold soloTick; repeat' split
  all_goals simp

@[simp] theorem roleTick_asBuilt (d : Dev) (k : Int) : (roleTick d k).asBuilt = d.asBuilt := by
  unfold roleTick; split <;> simp

@[simp] theorem tellCountersIn_asBuilt (d : Dev) : (tellCountersIn d).asBuilt = d.asBuilt := by
  refine each_asBuilt fun _ _ => ?_
  split <;> simp

@[simp] theorem plyTick_asBuilt (d : Dev) (k : Int) : (plyTick d k).asBuilt = d.asBuilt := by
  unfold plyTick; dsimp only; split <;> simp

@[simp] theorem sendHeartbeat_asBuilt (d : Dev) (b : Heartbeat) : (sendHeartbeat d b).asBuilt = d.asBuilt := by
  unfold sendHeartbeat; dsimp only; repeat' split
  all_goals simp

@[simp] theorem faultTick_asBuilt (d : Dev) (k : Int) : (faultTick d k).asBuilt = d.asBuilt := by
  unfold faultTick; repeat' split
  all_goals simp

@[simp] theorem stepTick_asBuilt (d : Dev) : (stepTick d).1.asBuilt = d.asBuilt :=
  (stepTick_only d rfl (.refl _ _)).asBuilt

@[simp] theorem whorlTick_asBuilt (d : Dev) (tcxo : Int) : (whorlTick d tcxo).asBuilt = d.asBuilt :=
  (whorlTick_only d tcxo rfl (.refl _ _)).asBuilt

@[simp] theorem numberTick_asBuilt (d : Dev) : (numberTick d).asBuilt = d.asBuilt :=
  (numberTick_only d rfl (.refl _ _)).asBuilt

@[simp] theorem spindleTick_asBuilt (d : Dev) (k : Int) (stepped : Bool) (n : Fin 4) :
    (spindleTick d k stepped n).asBuilt = d.asBuilt :=
  (spindleTick_only d k stepped n rfl (.refl _ _)).asBuilt

@[simp] theorem blankTick_asBuilt (d : Dev) (served : Four Bool) : (blankTick d served).asBuilt = d.asBuilt :=
  (blankTick_only d served rfl (.refl _ _)).asBuilt

@[simp] theorem strobe_asBuilt (tcxo : Int) (beacon : Bool) (d : Dev) :
    (strobe tcxo beacon d).asBuilt = d.asBuilt := by
  unfold strobe; dsimp only; repeat' split
  all_goals simp

@[simp] theorem plyReject_asBuilt (d : Dev) : (plyReject d).asBuilt = d.asBuilt :=
  (plyReject_only d rfl (.refl _ _)).asBuilt

@[simp] theorem linkTake_asBuilt (d : Dev) (s key : Nat) (h : LinkHeader) :
    (linkTake d s key h).2.asBuilt = d.asBuilt := by
  unfold linkTake; dsimp only; repeat' split
  all_goals simp

@[simp] theorem plinkIn_asBuilt {h : LinkHeader} {f : Dev → Dev} {d : Dev}
    (k : ∀ e, (f e).asBuilt = e.asBuilt) : (plinkIn d h f).asBuilt = d.asBuilt := by
  unfold plinkIn; split
  · rfl
  · split
    next e => simp [k, snd_asBuilt e]
    next e => simp [snd_asBuilt e]

@[simp] theorem loomIn_asBuilt {h : LinkHeader} {ply : BitVec 8} {f : Dev → Dev} {d : Dev}
    (k : ∀ e, (f e).asBuilt = e.asBuilt) : (loomIn d h ply f).asBuilt = d.asBuilt := by
  unfold loomIn; split
  · rfl
  · split
    next e => simp [k, snd_asBuilt e]
    next e => simp [snd_asBuilt e]

@[simp] theorem doHeartbeatSend_asBuilt (written : Bool) (d : Dev) :
    (doHeartbeatSend written d).asBuilt = d.asBuilt := by
  unfold doHeartbeatSend; dsimp only; repeat' split
  all_goals simp

@[simp] theorem comparePlaced_asBuilt (d : Dev) (b : Heartbeat) : (comparePlaced d b).asBuilt = d.asBuilt :=
  (comparePlaced_only d b rfl (.refl _ _)).asBuilt

@[simp] theorem takeOffset_asBuilt (d : Dev) (b : Heartbeat) : (takeOffset d b).asBuilt = d.asBuilt :=
  (takeOffset_only d b rfl (.refl _ _)).asBuilt

@[simp] theorem partnerHeard_asBuilt (d : Dev) (b : Heartbeat) : (partnerHeard d b).asBuilt = d.asBuilt := by
  unfold partnerHeard; dsimp only; repeat' split
  all_goals simp

@[simp] theorem doHeartbeatReceive_asBuilt (path : Path) (h : LinkHeader) (b : Heartbeat) (d : Dev) :
    (doHeartbeatReceive path h b d).asBuilt = d.asBuilt := by
  refine plinkIn_asBuilt fun _ => ?_
  dsimp only; repeat' split
  all_goals simp

@[simp] theorem doOfferReceive_asBuilt (h : LinkHeader) (r : DownRec) (d : Dev) :
    (doOfferReceive h r d).asBuilt = d.asBuilt := by
  refine plinkIn_asBuilt fun _ => ?_
  split <;> simp

@[simp] theorem doMergeWaitExpire_asBuilt (hash : Nat) (d : Dev) :
    (doMergeWaitExpire hash d).asBuilt = d.asBuilt := by
  unfold doMergeWaitExpire; dsimp only; repeat' split
  all_goals simp

@[simp] theorem doAssignReceive_asBuilt (h : LinkHeader) (r : DownRec) (d : Dev) :
    (doAssignReceive h r d).asBuilt = d.asBuilt := by
  refine plinkIn_asBuilt fun _ => ?_
  dsimp only; repeat' split
  all_goals simp

@[simp] theorem adoptCounters_asBuilt (d : Dev) (dest : Option Nat) (dsn fc : Nat) :
    (adoptCounters d dest dsn fc).asBuilt = d.asBuilt :=
  (adoptCounters_only d dest dsn fc rfl (.refl _ _)).asBuilt

@[simp] theorem doCountersReceive_asBuilt (h : LinkHeader) (dest : Option Nat) (dsn fc : Nat) (d : Dev) :
    (doCountersReceive h dest dsn fc d).asBuilt = d.asBuilt := by
  refine plinkIn_asBuilt fun _ => ?_
  split <;> simp

@[simp] theorem mirrorReg_asBuilt (d : Dev) (addr : Nat) (v : Word) : (mirrorReg d addr v).asBuilt = d.asBuilt :=
  (mirrorReg_only d addr v rfl (.refl _ _)).asBuilt

@[simp] theorem mirrorJoin_asBuilt (d : Dev) (i : Nat) (eui : BitVec 64) (handle : BitVec 32) (home : Nat)
    (r : NodeRoute) :
    (mirrorJoin d i eui handle home r).asBuilt = d.asBuilt := by
  unfold mirrorJoin; dsimp only; repeat' split
  all_goals simp

@[simp] theorem applyDelta_asBuilt (d : Dev) (x : Delta) : (applyDelta d x).asBuilt = d.asBuilt := by
  unfold applyDelta; repeat' split
  all_goals simp

@[simp] theorem doDeltaReceive_asBuilt (h : LinkHeader) (epoch : BitVec 32) (x : Delta) (d : Dev) :
    (doDeltaReceive h epoch x d).asBuilt = d.asBuilt := by
  refine plinkIn_asBuilt fun _ => ?_
  repeat' split
  all_goals simp

@[simp] theorem doSnapReqReceive_asBuilt (h : LinkHeader) (node : Option Nat) (d : Dev) :
    (doSnapReqReceive h node d).asBuilt = d.asBuilt := by
  refine plinkIn_asBuilt fun _ => ?_
  repeat' split
  all_goals simp

@[simp] theorem putPolicy_asBuilt (d : Dev) (i : Nat) (l : List Byte) : (putPolicy d i l).asBuilt = d.asBuilt :=
  (putPolicy_only d i l rfl (.refl _ _)).asBuilt

@[simp] theorem snapNode_asBuilt (d : Dev) (x : NodeSnap) : (snapNode d x).asBuilt = d.asBuilt :=
  (snapNode_only d x rfl (.refl _ _)).asBuilt

@[simp] theorem refetched_asBuilt (d : Dev) (x : NodeSnap) : (refetched d x).asBuilt = d.asBuilt :=
  (refetched_only d x rfl (.refl _ _)).asBuilt

@[simp] theorem clearMirror_asBuilt (d : Dev) : (clearMirror d).asBuilt = d.asBuilt :=
  (clearMirror_only d rfl (.refl _ _)).asBuilt

@[simp] theorem doSnapReceive_asBuilt (h : LinkHeader) (epoch : BitVec 32) (nodes : List NodeSnap)
    (cells : List (Nat × Nat × Word × Word)) (regs : List (Nat × Word)) (policy : List (Nat × BitVec 128))
    (polEpoch : BitVec 16) (last : Bool) (d : Dev) :
    (doSnapReceive h epoch nodes cells regs policy polEpoch last d).asBuilt = d.asBuilt := by
  refine plinkIn_asBuilt fun _ => ?_
  dsimp only; repeat' split
  all_goals simp
  all_goals
    refine (each_asBuilt fun _ _ => ?_).trans (by simp)
    split <;> simp

@[simp] theorem doTreadleStatusTimeout_asBuilt (d : Dev) : (doTreadleStatusTimeout d).asBuilt = d.asBuilt := by
  unfold doTreadleStatusTimeout; dsimp only; split <;> simp

@[simp] theorem doTreadleStatusResume_asBuilt (d : Dev) : (doTreadleStatusResume d).asBuilt = d.asBuilt := by
  unfold doTreadleStatusResume; dsimp only; split <;> simp

@[simp] theorem doLoomBeaconSend_asBuilt (d : Dev) : (doLoomBeaconSend d).asBuilt = d.asBuilt := by
  unfold doLoomBeaconSend; split <;> simp

@[simp] theorem doLoomBeaconReceive_asBuilt (h : LinkHeader) (ply : BitVec 8) (b : Beacon) (d : Dev) :
    (doLoomBeaconReceive h ply b d).asBuilt = d.asBuilt := by
  refine loomIn_asBuilt fun _ => ?_
  dsimp only; repeat' split
  all_goals simp

@[simp] theorem Dev.modIdent_asBuilt (d : Dev) (i : Nat) (f : IdentRun → IdentRun) :
    (Dev.modIdent d i f).asBuilt = d.asBuilt :=
  (Dev.modIdent_only d i f rfl (.refl _ _)).asBuilt

@[simp] theorem ccpSend_asBuilt (d : Dev) (i : Nat) (dst : BitVec 128) (port : BitVec 16) (mk : Nat → Output) :
    (ccpSend d i dst port mk).2.asBuilt = d.asBuilt := by
  unfold ccpSend; dsimp only; repeat' split
  all_goals simp

@[simp] theorem sendAck_asBuilt (d : Dev) (i : Nat) (src : BitVec 128) (sport : BitVec 16) (hseq hstatus epoch : Nat)
    (entries : List (Nat × Nat)) :
    (sendAck d i src sport hseq hstatus epoch entries).asBuilt = d.asBuilt := by
  unfold sendAck; split <;> next e => simpa using snd_asBuilt e

@[simp] theorem ccpFormat_asBuilt (d : Dev) : (ccpFormat d).asBuilt = d.asBuilt :=
  (ccpFormat_only d rfl (.refl _ _)).asBuilt

@[simp] theorem ccpAuthFail_asBuilt (d : Dev) : (ccpAuthFail d).asBuilt = d.asBuilt :=
  (ccpAuthFail_only d rfl (.refl _ _)).asBuilt

@[simp] theorem forwardHank_asBuilt (d : Dev) (p : CcpPacket) : (forwardHank d p).asBuilt = d.asBuilt := by
  unfold forwardHank; split <;> simp

@[simp] theorem queueHank_asBuilt (d : Dev) (p : CcpPacket) (cmds : List CmdMsg) (via : Option Nat) :
    (queueHank d p cmds via).asBuilt = d.asBuilt :=
  (queueHank_only d p cmds via rfl (.refl _ _)).asBuilt

@[simp] theorem arrive_asBuilt (d : Dev) (p : CcpPacket) (via : Option Nat) :
    (arrive d p via).asBuilt = d.asBuilt := by
  unfold arrive; dsimp only; repeat' split
  all_goals simp

@[simp] theorem hankOverflow_asBuilt (d : Dev) : (hankOverflow d).asBuilt = d.asBuilt :=
  (hankOverflow_only d rfl (.refl _ _)).asBuilt

@[simp] theorem takeHank_asBuilt (d : Dev) (p : CcpPacket) : (takeHank d p).asBuilt = d.asBuilt := by
  unfold takeHank; dsimp only; repeat' split
  all_goals simp

@[simp] theorem takeQuoteReq_asBuilt (d : Dev) (p : CcpPacket) : (takeQuoteReq d p).asBuilt = d.asBuilt := by
  unfold takeQuoteReq; dsimp only; repeat' split
  all_goals simp

@[simp] theorem takePacket_asBuilt (d : Dev) (p : CcpPacket) : (takePacket d p).asBuilt = d.asBuilt := by
  unfold takePacket; dsimp only; repeat' split
  all_goals simp

@[simp] theorem takeFragment_asBuilt (d : Dev) (src : BitVec 128) (f : Fragment) :
    (takeFragment d src f).1.asBuilt = d.asBuilt :=
  (takeFragment_only d src f rfl (.refl _ _)).asBuilt

@[simp] theorem doHankReceive_asBuilt (port : Port) (frag : Option Fragment) (p : CcpPacket) (d : Dev) :
    (doHankReceive port frag p d).asBuilt = d.asBuilt := by
  unfold doHankReceive; split
  · rfl
  · split
    · simp
    · split <;> next e => simpa using fst_asBuilt e

@[simp] theorem doQuoteReq_asBuilt (port : Port) (p : CcpPacket) (d : Dev) :
    (doQuoteReq port p d).asBuilt = d.asBuilt := by
  unfold doQuoteReq; repeat' split
  all_goals simp

@[simp] theorem holdThrow_asBuilt (d : Dev) (th g id l : Nat) (action : List Byte) :
    (holdThrow d th g id l action).asBuilt = d.asBuilt := by simp [holdThrow]

@[simp] theorem takeThread_asBuilt (d : Dev) (w : WaitHank) (m : CmdMsg) (c : Cmd) :
    (takeThread d w m c).1.asBuilt = d.asBuilt := by
  unfold takeThread; dsimp only; split <;> simp

@[simp] theorem admitNext_asBuilt (d : Dev) (w : WaitHank) (m : CmdMsg) :
    (admitNext d w m).1.asBuilt = d.asBuilt := by
  unfold admitNext; dsimp only; repeat' split
  all_goals simp

@[simp] theorem admitRest_asBuilt (d : Dev) (w : WaitHank) : (admitRest d w).1.asBuilt = d.asBuilt := by
  exact List.foldlRecOn (motive := fun (x : Dev × WaitHank) => x.1.asBuilt = d.asBuilt) _ _ rfl
    fun x h m _ => (admitNext_asBuilt x.1 x.2 m).trans h

@[simp] theorem doHankAdmit_asBuilt (d : Dev) : (doHankAdmit d).asBuilt = d.asBuilt := by
  unfold doHankAdmit; dsimp only; repeat' split
  all_goals simp

@[simp] theorem admitOne_asBuilt (op : Nat) (d : Dev) : (admitOne op d).asBuilt = d.asBuilt := by
  unfold admitOne; dsimp only; repeat' split
  all_goals simp

@[simp] theorem doThrowCmd_asBuilt (d : Dev) : (doThrowCmd d).asBuilt = d.asBuilt := by simp [doThrowCmd]

@[simp] theorem doReelActivate_asBuilt (d : Dev) : (doReelActivate d).asBuilt = d.asBuilt := by simp [doReelActivate]

@[simp] theorem doCompletionSend_asBuilt (d : Dev) : (doCompletionSend d).asBuilt = d.asBuilt := by
  unfold doCompletionSend; dsimp only; repeat' split
  all_goals simp

@[simp] theorem doVisitQReceive_asBuilt (h : LinkHeader) (ply : BitVec 8) (eui : BitVec 64) (d : Dev) :
    (doVisitQReceive h ply eui d).asBuilt = d.asBuilt := by
  refine loomIn_asBuilt fun _ => ?_
  repeat' split
  all_goals simp

@[simp] theorem doVisitAReceive_asBuilt (h : LinkHeader) (ply : BitVec 8) (eui : BitVec 64) (handle : BitVec 32)
    (d : Dev) :
    (doVisitAReceive h ply eui handle d).asBuilt = d.asBuilt := by
  refine loomIn_asBuilt fun _ => ?_
  repeat' split
  all_goals simp

@[simp] theorem doVisitTimeout_asBuilt (eui : BitVec 64) (d : Dev) : (doVisitTimeout eui d).asBuilt = d.asBuilt := by
  unfold doVisitTimeout; repeat' split
  all_goals simp

@[simp] theorem doWhereReceive_asBuilt (h : LinkHeader) (ply : BitVec 8) (handle : BitVec 32) (serving : BitVec 8)
    (d : Dev) :
    (doWhereReceive h ply handle serving d).asBuilt = d.asBuilt := by
  refine loomIn_asBuilt fun _ => ?_
  dsimp only; repeat' split
  all_goals simp

@[simp] theorem doWhereRefresh_asBuilt (i : Nat) (d : Dev) : (doWhereRefresh i d).asBuilt = d.asBuilt := by
  unfold doWhereRefresh; repeat' split
  all_goals simp

@[simp] theorem doHomeLeaseExpire_asBuilt (i : Nat) (d : Dev) : (doHomeLeaseExpire i d).asBuilt = d.asBuilt := by
  unfold doHomeLeaseExpire; repeat' split
  all_goals simp

@[simp] theorem doFwdReceive_asBuilt (h : LinkHeader) (ply : BitVec 8) (p : CcpPacket) (d : Dev) :
    (doFwdReceive h ply p d).asBuilt = d.asBuilt := by
  refine loomIn_asBuilt fun _ => ?_
  repeat' split
  all_goals simp

@[simp] theorem doRelayReceive_asBuilt (h : LinkHeader) (ply : BitVec 8) (handle : BitVec 32) (dport : BitVec 16)
    (tag : Nat) (noReply : Bool) (data : List Byte) (d : Dev) :
    (doRelayReceive h ply handle dport tag noReply data d).asBuilt = d.asBuilt := by
  refine loomIn_asBuilt fun _ => ?_
  split <;> simp

@[simp] theorem doRelayResReceive_asBuilt (h : LinkHeader) (ply : BitVec 8) (handle : BitVec 32) (tag : Nat)
    (status : BitVec 8) (data : List Byte) (d : Dev) :
    (doRelayResReceive h ply handle tag status data d).asBuilt = d.asBuilt := by
  unfold doRelayResReceive; repeat' split
  all_goals simp

@[simp] theorem doNodeReq_asBuilt (th : Nat) (d : Dev) : (doNodeReq th d).asBuilt = d.asBuilt := by
  refine runThread_asBuilt fun _ _ _ => ?_
  repeat' split
  all_goals simp

@[simp] theorem doNodeReplyReceive_asBuilt (i tag : Nat) (data : List Byte) (d : Dev) :
    (doNodeReplyReceive i tag data d).asBuilt = d.asBuilt := by
  unfold doNodeReplyReceive; split <;> simp

@[simp] theorem doThrowGroupSet_asBuilt (th : Nat) (d : Dev) : (doThrowGroupSet th d).asBuilt = d.asBuilt := by
  refine runThread_asBuilt fun _ _ _ => ?_
  repeat' split
  all_goals simp

@[simp] theorem objWatch_asBuilt (d : Dev) : (objWatch d).asBuilt = d.asBuilt :=
  (objWatch_only d rfl (.refl _ _)).asBuilt

@[simp] theorem doObjSend_asBuilt (th corrected : Nat) (poisoned : List Nat) (d : Dev) :
    (doObjSend th corrected poisoned d).asBuilt = d.asBuilt := by
  refine runThread_asBuilt fun _ _ _ => ?_
  repeat' split
  all_goals simp

@[simp] theorem revokeThrow_asBuilt (d : Dev) (th : Nat) : (revokeThrow d th).asBuilt = d.asBuilt := by
  unfold revokeThrow; split <;> simp

@[simp] theorem doPolicyWrite_asBuilt (th : Nat) (d : Dev) : (doPolicyWrite th d).asBuilt = d.asBuilt := by
  unfold doPolicyWrite; repeat' split
  all_goals simp

@[simp] theorem streamGen_asBuilt (d : Dev) (s gen : Nat) (district : Bool) :
    (streamGen d s gen district).asBuilt = d.asBuilt := by
  unfold streamGen; split <;> simp

@[simp] theorem commitKey_asBuilt (d : Dev) (th s : Nat) (h : Half) (steps : Nat) (readBackOk verifyOk : Bool) :
    (commitKey d th s h steps readBackOk verifyOk).asBuilt = d.asBuilt := by
  unfold commitKey; dsimp only; split
  · simp
  · split
    · simp
    · split
      · simp
      · split <;> next e => simpa using fst_asBuilt e

@[simp] theorem doKeyLoad_asBuilt (th : Nat) (unwrapOk readBackOk verifyOk : Bool) (steps : Nat) (d : Dev) :
    (doKeyLoad th unwrapOk readBackOk verifyOk steps d).asBuilt = d.asBuilt := by
  unfold doKeyLoad; split
  · rfl
  · refine (runThread_asBuilt fun _ _ _ => ?_).trans (praDue_asBuilt d)
    dsimp only; repeat' split
    all_goals simp

@[simp] theorem setAttr_asBuilt (d : Dev) (s : Nat) (attr : Word) : (setAttr d s attr).asBuilt = d.asBuilt := by
  refine Dev.modDst_asBuilt _ _ fun x => ?_
  dsimp only; split <;> simp

@[simp] theorem doKeyAttr_asBuilt (th : Nat) (d : Dev) : (doKeyAttr th d).asBuilt = d.asBuilt := by
  unfold doKeyAttr; split
  · rfl
  · refine runThread_asBuilt fun _ _ _ => ?_
    dsimp only; repeat' split
    all_goals simp

@[simp] theorem eraseByCommand_asBuilt (d : Dev) (s : Nat) (verifyOk : Bool) :
    (eraseByCommand d s verifyOk).1.asBuilt = d.asBuilt := by
  unfold eraseByCommand; split <;> simp

@[simp] theorem doKeyErase_asBuilt (th : Nat) (verifyOk : Bool) (d : Dev) :
    (doKeyErase th verifyOk d).asBuilt = d.asBuilt := by
  unfold doKeyErase; split
  · rfl
  · refine runThread_asBuilt fun _ _ _ => ?_
    dsimp only; repeat' split
    all_goals simp

@[simp] theorem doLifecycleSet_asBuilt (th : Nat) (verifyOk : Bool) (faults : List Nat) (upto : Option Nat) (d : Dev) :
    (doLifecycleSet th verifyOk faults upto d).asBuilt = d.asBuilt := by
  unfold doLifecycleSet; split
  · rfl
  · refine runThread_asBuilt fun _ _ _ => ?_
    split
    · simp
    · split
      next e => dsimp only; split <;> split <;> simpa using fst_asBuilt e
      next e => simpa using fst_asBuilt e

@[simp] theorem freshMask_asBuilt (d : Dev) : (freshMask d).2.asBuilt = d.asBuilt :=
  (freshMask_only d rfl (.refl _ _)).asBuilt

@[simp] theorem remaskSkein_asBuilt (d : Dev) (s : Nat) : (remaskSkein d s).asBuilt = d.asBuilt := by
  unfold remaskSkein; split <;> simp

@[simp] theorem remaskCache_asBuilt (x : List Derived) (d : Dev) : (remaskCache x d).2.asBuilt = d.asBuilt :=
  (remaskCache_only x d rfl (.refl _ _)).asBuilt

@[simp] theorem doRngHealthWindow_asBuilt (pass : Bool) (d : Dev) :
    (doRngHealthWindow pass d).asBuilt = d.asBuilt := by
  unfold doRngHealthWindow; dsimp only; repeat' split
  all_goals simp

@[simp] theorem imgFinish_asBuilt (d : Dev) (th : Nat) (st : Status) (res : List Byte) :
    (imgFinish d th st res).asBuilt = d.asBuilt :=
  (imgFinish_only d th st res rfl (.refl _ _)).asBuilt

@[simp] theorem activateNow_asBuilt (d : Dev) (th bank : Nat) (alone verifyOk : Bool) :
    (activateNow d th bank alone verifyOk).asBuilt = d.asBuilt := by
  unfold activateNow; split
  · simp
  · dsimp only; split <;> next e => simpa using fst_asBuilt e

@[simp] theorem doReelActivateExecute_asBuilt (verifyOk : Bool) (d : Dev) :
    (doReelActivateExecute verifyOk d).asBuilt = d.asBuilt := by
  unfold doReelActivateExecute; repeat' split
  all_goals simp

theorem writeBlock_asBuilt (d : Dev) (b : Block) (o : Nat) (v : Word) :
    ∀ r ∈ writeBlock d b o v, r.1.asBuilt = d.asBuilt := by
  cases b with
  | glb | dst | pra | pwr | img => exact (writeRo_only d _ rfl (.refl _ _)).asBuilt
  | whl => exact (writeWhl_only d o v rfl (.refl _ _)).asBuilt
  | spn n =>
    change ∀ r ∈ (if rwlRefused d n o v then some (d, Status.state) else writeSpn d n o v), r.1.asBuilt = d.asBuilt
    split
    · simp
    · exact (writeSpn_only d n o v rfl (.refl _ _)).asBuilt
  | wrp => exact writeWrp_asBuilt d o v
  | sht => exact (writeSht_only d o v rfl (.refl _ _)).asBuilt
  | que => exact (writeQue_only d o v rfl (.refl _ _)).asBuilt
  | crd => exact (writeCrd_only d o v rfl (.refl _ _)).asBuilt
  | thr => exact (writeThr_only d o v rfl (.refl _ _)).asBuilt
  | ccp => exact (writeCcp_only d o rfl (.refl _ _)).asBuilt
  | ply => exact (writePly_only d o v rfl (.refl _ _)).asBuilt
  | evt => exact (writeEvt_only d o v rfl (.refl _ _)).asBuilt
  | bob => exact (writeBob_only d o v rfl (.refl _ _)).asBuilt

@[simp] theorem unmapped_asBuilt (d : Dev) (a access : Nat) : (unmapped d a access).asBuilt = d.asBuilt :=
  (unmapped_only d a access rfl (.refl _ _)).asBuilt

@[simp] theorem writeAt_asBuilt (d : Dev) (a : Nat) (v : Word) : (writeAt d a v).1.asBuilt = d.asBuilt := by
  unfold writeAt; split
  next b o _ =>
    split
    next e => exact writeBlock_asBuilt d b o v _ e
    next => simp
  next => simp

@[simp] theorem praAsk_asBuilt (d : Dev) (n : Nat) (v : Word) (w : PraWriter) :
    (praAsk d n v w).asBuilt = d.asBuilt :=
  (praAsk_only d n v w rfl (.refl _ _)).asBuilt

@[simp] theorem doRegisterWrite_asBuilt (a : Nat) (v : Word) (d : Dev) :
    (doRegisterWrite a v d).asBuilt = d.asBuilt := by
  unfold doRegisterWrite; split
  · split <;> simp
  · exact regRow_asBuilt (by simp)

@[simp] theorem writePairs_asBuilt (th n : Nat) (l : List (Nat × Word)) (d : Dev) :
    (writePairs th n l d).asBuilt = d.asBuilt := by
  induction l generalizing n d with
  | nil => simp [writePairs]
  | cons p r ih =>
    unfold writePairs; split
    · simp
    · split
      next e => simpa [ih] using fst_asBuilt e
      next e => simpa using fst_asBuilt e

@[simp] theorem doRegWrite_asBuilt (th : Nat) (d : Dev) :
    (doRegWrite th d).asBuilt = d.asBuilt := by simp [doRegWrite]

@[simp] theorem praAnswer_asBuilt (d : Dev) (w : PraWriter) (st : Status) :
    (praAnswer d w st).asBuilt = d.asBuilt := by
  unfold praAnswer; repeat' split
  all_goals simp

@[simp] theorem doPraWriteBegin_asBuilt (d : Dev) : (doPraWriteBegin d).asBuilt = d.asBuilt := by
  unfold doPraWriteBegin; dsimp only; repeat' split
  all_goals simp

@[simp] theorem doPraWriteComplete_asBuilt (verifyOk : Bool) (d : Dev) :
    (doPraWriteComplete verifyOk d).asBuilt = d.asBuilt := by
  unfold doPraWriteComplete; split <;> simp

@[simp] theorem svcSend_asBuilt (d : Dev) (type : Nat) (seq : BitVec 8) (st : Status) (l : List Byte) :
    (svcSend d type seq st l).asBuilt = d.asBuilt := rfl

@[simp] theorem svcRequest_asBuilt {type : Nat} {seq : BitVec 8} {rom firmware : Bool} {f : Dev → Dev} {d : Dev}
    (h : ∀ e, (f e).asBuilt = e.asBuilt) : (svcRequest d type seq rom firmware f).asBuilt = d.asBuilt := by
  unfold svcRequest; dsimp only; repeat' split
  all_goals simp [h]

@[simp] theorem doSvcRegWrite_asBuilt (seq : BitVec 8) (addr : Nat) (v : Word) (d : Dev) :
    (doSvcRegWrite seq addr v d).asBuilt = d.asBuilt := by
  refine svcRequest_asBuilt fun _ => ?_
  dsimp only; repeat' split
  all_goals simp

@[simp] theorem doQuote_asBuilt (seq : BitVec 8) (nonce : BitVec 256) (d : Dev) :
    (doQuote seq nonce d).asBuilt = d.asBuilt := by
  refine svcRequest_asBuilt fun _ => ?_
  repeat' split
  all_goals simp

@[simp] theorem clearInactive_asBuilt (d : Dev) (r : Reel) (verifyOk : Bool) :
    (clearInactive d r verifyOk).1.asBuilt = d.asBuilt := by
  unfold clearInactive; split <;> simp

@[simp] theorem endTransfer_asBuilt (d : Dev) : (endTransfer d).asBuilt = d.asBuilt :=
  (endTransfer_only d rfl (.refl _ _)).asBuilt

@[simp] theorem failTransfer_asBuilt (d : Dev) (type : Nat) (seq : BitVec 8) (st : Status) :
    (failTransfer d type seq st).asBuilt = d.asBuilt :=
  (failTransfer_only d type seq st rfl (.refl _ _)).asBuilt

@[simp] theorem extendMd6_asBuilt (d : Dev) (item : BitVec 384) :
    (extendMd6 d item).asBuilt = d.asBuilt := by simp [extendMd6]

@[simp] theorem acceptImage_asBuilt (d : Dev) (r : Reel) (verifyOk : Bool) :
    (acceptImage d r verifyOk).1.asBuilt = d.asBuilt := by
  unfold acceptImage; dsimp only; split
  · split
    next e =>
      split
      next e' => simpa [fst_asBuilt e] using fst_asBuilt e'
      · simp [fst_asBuilt e]
    · simp
  · simp

@[simp] theorem takeHead_asBuilt (d : Dev) (seq : BitVec 8) (x : Transfer) (r : Reel) (flashOk verifyOk : Bool) :
    (takeHead d seq x r flashOk verifyOk).asBuilt = d.asBuilt := by
  unfold takeHead; split
  · simp
  · split
    · simp
    · split
      next e => split <;> simpa using fst_asBuilt e
      next e => simpa using fst_asBuilt e

@[simp] theorem doImgData_asBuilt (seq : BitVec 8) (offset count : Nat) (head : Reel)
    (blockOk flashOk verifyOk : Bool) (d : Dev) :
    (doImgData seq offset count head blockOk flashOk verifyOk d).asBuilt = d.asBuilt := by
  refine svcRequest_asBuilt fun _ => ?_
  dsimp only; repeat' split
  all_goals simp

@[simp] theorem doImgEnd_asBuilt (seq : BitVec 8) (sigOk blocksOk verifyOk : Bool) (d : Dev) :
    (doImgEnd seq sigOk blocksOk verifyOk d).asBuilt = d.asBuilt := by
  refine svcRequest_asBuilt fun _ => ?_
  dsimp only; repeat' split
  all_goals simp

@[simp] theorem doRecoveryCardRead_asBuilt (card : Card) (verifyOk : Bool) (d : Dev) :
    (doRecoveryCardRead card verifyOk d).asBuilt = d.asBuilt := by
  unfold doRecoveryCardRead; dsimp only; split
  · split
    · simp
    · split
      · split <;> next e => simpa using fst_asBuilt e
      · simp
  · rfl

@[simp] theorem noticePacket_asBuilt (l : List LogEntry) (n lost : Nat) (x : Nat × Identity) (d : Dev) (j : Nat) :
    (noticePacket l n lost x d j).asBuilt = d.asBuilt := by simp [noticePacket]

@[simp] theorem doNoticeSend_asBuilt (d : Dev) : (doNoticeSend d).asBuilt = d.asBuilt := by
  unfold doNoticeSend; dsimp only; repeat' split
  all_goals simp

@[simp] theorem rejoinNode_asBuilt (d : Dev) (i : Nat) : (rejoinNode d i).asBuilt = d.asBuilt := by simp [rejoinNode]

@[simp] theorem loseNode_asBuilt (d : Dev) (i : Nat) : (loseNode d i).asBuilt = d.asBuilt := by
  unfold loseNode; dsimp only; repeat' split
  all_goals simp

@[simp] theorem doNodeRefetchTimeout_asBuilt (i : Nat) (d : Dev) :
    (doNodeRefetchTimeout i d).asBuilt = d.asBuilt := by
  unfold doNodeRefetchTimeout; repeat' split
  all_goals simp

@[simp] theorem scrubUncorr_asBuilt (d : Dev) (addr : BitVec 32) : (scrubUncorr d addr).asBuilt = d.asBuilt :=
  (scrubUncorr_only d addr rfl (.refl _ _)).asBuilt

@[simp] theorem loseForwarding_asBuilt (d : Dev) (shadow : Bool) (table index : Nat) :
    (loseForwarding d shadow table index).asBuilt = d.asBuilt :=
  (loseForwarding_only d shadow table index rfl (.refl _ _)).asBuilt

@[simp] theorem loseHalf_asBuilt (d : Dev) (s : Nat) : (loseHalf d s).asBuilt = d.asBuilt := by
  unfold loseHalf; dsimp only; split
  · refine (disableSkein_asBuilt ..).trans (Dev.modDst_asBuilt _ _ fun x => ?_)
    split <;> simp
  · rfl

@[simp] theorem loseOtherHalf_asBuilt (d : Dev) (s : Nat) : (loseOtherHalf d s).asBuilt = d.asBuilt := by
  unfold loseOtherHalf; dsimp only; repeat' split
  all_goals simp

@[simp] theorem loseThread_asBuilt (d : Dev) (th : Nat) : (loseThread d th).asBuilt = d.asBuilt :=
  (loseThread_only d th rfl (.refl _ _)).asBuilt

@[simp] theorem loseObject_asBuilt (d : Dev) (o : Nat) : (loseObject d o).asBuilt = d.asBuilt :=
  (loseObject_only d o rfl (.refl _ _)).asBuilt

@[simp] theorem poisonPacket_asBuilt (d : Dev) (p : Port) (c pos : Nat) :
    (poisonPacket d p c pos).asBuilt = d.asBuilt :=
  (poisonPacket_only d p c pos rfl (.refl _ _)).asBuilt

@[simp] theorem retire_asBuilt (d : Dev) (kind loc : Nat) :
    (retire d kind loc).asBuilt = d.asBuilt := by simp [retire]

@[simp] theorem freeError_asBuilt {inUse : Dev → Dev} {d : Dev} {kind loc : Nat} (h : ∀ e, (inUse e).asBuilt = e.asBuilt) :
    (freeError inUse d kind loc).asBuilt = d.asBuilt := by
  unfold freeError; repeat' split
  all_goals simp [h]

@[simp] theorem uncorrectable_asBuilt (d : Dev) (addr : BitVec 32) (t : ScrubTarget) :
    (uncorrectable d addr t).asBuilt = d.asBuilt := by
  unfold uncorrectable; repeat' split
  all_goals simp

@[simp] theorem endPass_asBuilt (d : Dev) (m : ScrubMemory) : (endPass d m).asBuilt = d.asBuilt := by simp [endPass]

@[simp] theorem doPickerScan_asBuilt (m : ScrubMemory) (t : ScrubTarget) (addr : BitVec 32) (r : ScrubResult)
    (passEnd : Bool) (d : Dev) :
    (doPickerScan m t addr r passEnd d).asBuilt = d.asBuilt := by
  unfold doPickerScan; dsimp only; repeat' split
  all_goals simp

@[simp] theorem entryTiming_asBuilt (d : Dev) (v : Word) : (entryTiming d v).1.asBuilt = d.asBuilt :=
  (entryTiming_only d v rfl (.refl _ _)).asBuilt

@[simp] theorem entryWrite_asBuilt (d : Dev) (a : Nat) (v : Word) : (entryWrite d a v).1.asBuilt = d.asBuilt := by
  unfold entryWrite; split
  next n o _ => exact getD_asBuilt (writeSpn_only d n o _ rfl (.refl _ _)).asBuilt rfl
  next o _ =>
    split
    · simp
    · exact getD_asBuilt (writeWrp_asBuilt d o v) rfl
  next b o _ _ _ => exact getD_asBuilt (writeBlock_asBuilt d b o _) rfl
  next => rfl

@[simp] theorem applyKeywrap_asBuilt (faults : List Nat) (d : Dev) (l : List Byte) :
    (applyKeywrap faults d l).asBuilt = d.asBuilt := by
  unfold applyKeywrap; dsimp only; split
  · rfl
  · split
    · simp
    · split <;> next e => simpa using fst_asBuilt e

@[simp] theorem applyOwner_asBuilt (d : Dev) (r : ImgRecord) : (applyOwner d r).asBuilt = d.asBuilt :=
  (applyOwner_only d r rfl (.refl _ _)).asBuilt

@[simp] theorem applyRecord_asBuilt (faults : List Nat) (d : Dev) (r : ImgRecord) :
    (applyRecord faults d r).asBuilt = d.asBuilt := by
  unfold applyRecord; split <;> simp

@[simp] theorem measureImage_asBuilt (d : Dev) (image : List Byte) : (measureImage d image).asBuilt = d.asBuilt := by
  unfold measureImage; dsimp only; split <;> simp

@[simp] theorem rejectConfig_asBuilt (d : Dev) (f : CfgFail) : (rejectConfig d f).asBuilt = d.asBuilt :=
  (rejectConfig_only d f rfl (.refl _ _)).asBuilt

@[simp] theorem acceptConfig_asBuilt (d : Dev) (serial : Nat) (l : List ImgRecord) (skip : List (Nat × Nat × Nat)) :
    (acceptConfig d serial l skip).asBuilt = d.asBuilt :=
  (acceptConfig_only d serial l skip rfl (.refl _ _)).asBuilt

@[simp] theorem doConfigImageCheck_asBuilt (image : Option (List Byte)) (kwBad : List Nat) (d : Dev) :
    (doConfigImageCheck image kwBad d).asBuilt = d.asBuilt := by
  unfold doConfigImageCheck; dsimp only; repeat' split
  all_goals simp

@[simp] theorem measureArray_asBuilt (d : Dev) : (measureArray d).asBuilt = d.asBuilt := by simp [measureArray]

@[simp] theorem applyImage_asBuilt (faults : List Nat) (d : Dev) : (applyImage faults d).asBuilt = d.asBuilt := by
  unfold applyImage; split <;> simp

@[simp] theorem applyAndPlan_asBuilt (faults : List Nat) (d : Dev) : (applyAndPlan faults d).asBuilt = d.asBuilt := by
  unfold applyAndPlan; split <;> simp

@[simp] theorem resetOn_asBuilt (faults : List Nat) (upto : Option Nat) (d : Dev) :
    (resetOn faults upto d).asBuilt = d.asBuilt := by
  unfold resetOn; dsimp only; repeat' split
  all_goals simp

/-! ## Resets -/

@[simp] theorem beginStart_asBuilt (d : Dev) (cause : Nat) : (beginStart d cause).asBuilt = d.asBuilt := by
  unfold beginStart; dsimp only; split <;> rfl

@[simp] theorem railsOff_asBuilt (d : Dev) (ph : Phase) : (railsOff d ph).asBuilt = d.asBuilt := rfl

@[simp] theorem controlReset_asBuilt (d : Dev) (cause : Nat) : (controlReset d cause).asBuilt = d.asBuilt := rfl

@[simp] theorem dropRails_asBuilt (d : Dev) : (dropRails d).asBuilt = d.asBuilt := by
  unfold dropRails; split <;> rfl

theorem doResetNRelease_asBuilt (d : Dev) : (doResetNRelease d).asBuilt = d.asBuilt := by
  unfold doResetNRelease; split <;> simp

theorem doInputRise35V_asBuilt (d : Dev) : (doInputRise35V d).asBuilt = d.asBuilt := by
  unfold doInputRise35V; dsimp only; repeat' split
  all_goals simp

theorem doResetNAssert_asBuilt (d : Dev) : (doResetNAssert d).asBuilt = d.asBuilt := by
  unfold doResetNAssert; split <;> simp

theorem doInputFall33V_asBuilt (d : Dev) : (doInputFall33V d).asBuilt = d.asBuilt := by
  unfold doInputFall33V; split <;> simp

theorem doLogicRailFall_asBuilt (d : Dev) : (doLogicRailFall d).asBuilt = d.asBuilt := rfl

theorem doRailTimeout_asBuilt (board : Bool) (d : Dev) : (doRailTimeout board d).asBuilt = d.asBuilt := by
  unfold doRailTimeout; split
  · split <;> simp
  all_goals rfl

theorem doWatchdogExpire_asBuilt (d : Dev) : (doWatchdogExpire d).asBuilt = d.asBuilt := by
  unfold doWatchdogExpire; split <;> simp

theorem doPowerOffRails_asBuilt (d : Dev) : (doPowerOffRails d).asBuilt = d.asBuilt := by
  unfold doPowerOffRails; split
  · rfl
  · split <;> simp

theorem doWakeElapsed_asBuilt (d : Dev) : (doWakeElapsed d).asBuilt = d.asBuilt := by
  unfold doWakeElapsed; split
  · rfl
  · split <;> simp

theorem doActivateReset_asBuilt (d : Dev) : (doActivateReset d).asBuilt = d.asBuilt := by
  unfold doActivateReset; split
  · rfl
  · split <;> simp

theorem doTreadleReset_asBuilt (d : Dev) : (doTreadleReset d).asBuilt = d.asBuilt := by
  unfold doTreadleReset; split
  · split <;> simp
  · rfl

theorem doRecoveryReset_asBuilt (low : Bool) (d : Dev) : (doRecoveryReset low d).asBuilt = d.asBuilt := by
  unfold doRecoveryReset; split
  · rfl
  · dsimp only; repeat' split
    all_goals simp

theorem doTickStrobe_asBuilt (tcxo : Int) (beacon : Bool) (d : Dev) : (doTickStrobe tcxo beacon d).asBuilt = d.asBuilt := by
  unfold doTickStrobe; dsimp only; repeat' split
  all_goals simp

theorem doConfigApply_asBuilt (faults : List Nat) (upto : Option Nat) (d : Dev) :
    (doConfigApply faults upto d).asBuilt = d.asBuilt := by
  unfold doConfigApply; dsimp only; repeat' split
  · exact (Dev.asBuilt_phase ..).trans (by simp)
  all_goals simp

/-! ## Every command but the re-mask -/

theorem run_asBuilt {dt : Nat} {f : Dev → Dev} {s t : State} (h : ∀ d, (f d).asBuilt = d.asBuilt)
    (r : run dt f s = .next t) : t.dev.asBuilt = s.dev.asBuilt := by
  cases r; exact (h _).trans (Dev.elapse_asBuilt _ _)

theorem run_only_asBuilt {dt : Nat} {f : Dev → Dev} {s t : State} (h : ∀ d, Only Part.notBuilt d (f d))
    (r : run dt f s = .next t) : t.dev.asBuilt = s.dev.asBuilt :=
  run_asBuilt (fun d => (h d).asBuilt) r

theorem takeCpu_asBuilt (d : Dev) : (takeCpu d).asBuilt = d.asBuilt := rfl

theorem runCpu_asBuilt {dt : Nat} {f : Dev → Dev} {s t : State} (h : ∀ d, (f d).asBuilt = d.asBuilt)
    (r : runCpu dt f s = .next t) : t.dev.asBuilt = s.dev.asBuilt :=
  run_asBuilt (fun d => (h _).trans (takeCpu_asBuilt d)) r

theorem runLink_asBuilt {dt : Nat} {f : Dev → Dev} {s t : State} (h : ∀ d, (f d).asBuilt = d.asBuilt)
    (r : runLink dt f s = .next t) : t.dev.asBuilt = s.dev.asBuilt :=
  run_asBuilt (fun d => (h _).trans (by split <;> rfl)) r

theorem execHeartbeatReceive_asBuilt {dt : Nat} {path : Path} {l : LinkHeader} {b : Heartbeat} {s t : State}
    (r : execHeartbeatReceive dt path l b s = .next t) : t.dev.asBuilt = s.dev.asBuilt := by
  unfold execHeartbeatReceive at r
  exact run_asBuilt (fun _ => (doHeartbeatReceive_asBuilt ..).trans (by split <;> rfl)) r

theorem exec_asBuilt {c : Instr} {s t : State} (hc : ∀ dt, c ≠ .keyRemask dt) (h : exec c s = .next t) :
    t.dev.asBuilt = s.dev.asBuilt := by
  cases c with
  | registerWrite => exact run_asBuilt (fun _ => doRegisterWrite_asBuilt ..) h
  | logicRailRise => exact run_only_asBuilt (fun _ => doLogicRailRise_only (s_ := rfl) (k_ := .refl _ _) ..) h
  | resetNRelease => exact run_asBuilt (fun _ => doResetNRelease_asBuilt ..) h
  | inputRise35V => exact run_asBuilt (fun _ => doInputRise35V_asBuilt ..) h
  | resetNAssert => exact run_asBuilt (fun _ => doResetNAssert_asBuilt ..) h
  | inputFall33V => exact run_asBuilt (fun _ => doInputFall33V_asBuilt ..) h
  | railInTolerance => exact run_only_asBuilt (fun _ => doRailInTolerance_only (s_ := rfl) (k_ := .refl _ _) ..) h
  | railTimeout => exact run_asBuilt (fun _ => doRailTimeout_asBuilt ..) h
  | controlDieResetRelease => exact run_asBuilt (fun _ => doControlDieResetRelease_asBuilt ..) h
  | sfdpDiscovery => exact run_asBuilt (fun _ => doSfdpDiscovery_asBuilt ..) h
  | loaderCheck => exact run_asBuilt (fun _ => doLoaderCheck_asBuilt ..) h
  | dramZeroFill => exact run_asBuilt (fun _ => doDramZeroFill_asBuilt ..) h
  | bankLoad => exact run_asBuilt (fun _ => doBankLoad_asBuilt ..) h
  | firmwareStart => exact run_asBuilt (fun _ => doFirmwareStart_asBuilt ..) h
  | configImageCheck => exact run_asBuilt (fun _ => doConfigImageCheck_asBuilt ..) h
  | configApply => exact run_asBuilt (fun _ => doConfigApply_asBuilt ..) h
  | startHold => exact run_asBuilt (fun _ => doStartHold_asBuilt ..) h
  | praWriteBegin => exact run_asBuilt (fun _ => doPraWriteBegin_asBuilt ..) h
  | praWriteComplete => exact run_asBuilt (fun _ => doPraWriteComplete_asBuilt ..) h
  | praTokenRefill => exact run_only_asBuilt (fun _ => doPraTokenRefill_only (s_ := rfl) (k_ := .refl _ _) ..) h
  | praLifeUpdate => exact run_only_asBuilt (fun _ => doPraLifeUpdate_only (s_ := rfl) (k_ := .refl _ _) ..) h
  | learnedOffsetWrite => exact run_only_asBuilt (fun _ => doLearnedOffsetWrite_only (s_ := rfl) (k_ := .refl _ _) ..) h
  | tunerCodesWrite => exact run_only_asBuilt (fun _ => doTunerCodesWrite_only (s_ := rfl) (k_ := .refl _ _) ..) h
  | clockMonitorWindow => exact run_only_asBuilt (fun _ => doClockMonitorWindow_only (s_ := rfl) (k_ := .refl _ _) ..) h
  | pllLossOfLock => exact run_only_asBuilt (fun _ => doPllLossOfLock_only (s_ := rfl) (k_ := .refl _ _) ..) h
  | bobbinWordWrite => exact run_only_asBuilt (fun _ => doBobbinWordWrite_only (s_ := rfl) (k_ := .refl _ _) ..) h
  | bobbinWordRead => exact run_only_asBuilt (fun _ => doBobbinWordRead_only (s_ := rfl) (k_ := .refl _ _) ..) h
  | bobbinFlushWrite => exact run_only_asBuilt (fun _ => doBobbinFlushWrite_only (s_ := rfl) (k_ := .refl _ _) ..) h
  | bobbinFlushComplete => exact run_only_asBuilt (fun _ => doBobbinFlushComplete_only (s_ := rfl) (k_ := .refl _ _) ..) h
  | bobErrClear => exact run_only_asBuilt (fun _ => doBobErrClear_only (s_ := rfl) (k_ := .refl _ _) ..) h
  | bobHwmClr => exact run_only_asBuilt (fun _ => doBobHwmClr_only (s_ := rfl) (k_ := .refl _ _) ..) h
  | temperatureSample => exact run_asBuilt (fun _ => doTemperatureSample_asBuilt ..) h
  | supplyMeasure => exact run_asBuilt (fun _ => doSupplyMeasure_asBuilt ..) h
  | watchdogExpire => exact run_asBuilt (fun _ => doWatchdogExpire_asBuilt ..) h
  | tickStrobe => exact run_asBuilt (fun _ => doTickStrobe_asBuilt ..) h
  | drainComplete => exact run_only_asBuilt (fun _ => doDrainComplete_only (s_ := rfl) (k_ := .refl _ _) ..) h
  | scheduleComputation => exact run_asBuilt (fun _ => doScheduleComputation_asBuilt ..) h
  | phaseDeadlineMiss => exact run_only_asBuilt (fun _ => doPhaseDeadlineMiss_only (s_ := rfl) (k_ := .refl _ _) ..) h
  | transmitLatch => exact run_only_asBuilt (fun _ => doTransmitLatch_only (s_ := rfl) (k_ := .refl _ _) ..) h
  | whlLatch => exact run_only_asBuilt (fun _ => doWhlLatch_only (s_ := rfl) (k_ := .refl _ _) ..) h
  | whlCtrlWrite => exact run_only_asBuilt (fun _ => doWhlCtrlWrite_only (s_ := rfl) (k_ := .refl _ _) ..) h
  | whlTodArm => exact run_only_asBuilt (fun _ => doWhlTodArm_only (s_ := rfl) (k_ := .refl _ _) ..) h
  | whlTickPeriodWrite => exact run_only_asBuilt (fun _ => doWhlTickPeriodWrite_only (s_ := rfl) (k_ := .refl _ _) ..) h
  | whlEpochWrite => exact run_only_asBuilt (fun _ => doWhlEpochWrite_only (s_ := rfl) (k_ := .refl _ _) ..) h
  | whlOvrClr => exact run_only_asBuilt (fun _ => doWhlOvrClr_only (s_ := rfl) (k_ := .refl _ _) ..) h
  | ptpSync => exact runCpu_asBuilt (fun _ => doPtpSync_asBuilt ..) h
  | ptpAnnounce => exact runCpu_asBuilt (fun _ => doPtpAnnounce_asBuilt ..) h
  | ptpDelayReqSend => exact run_only_asBuilt (fun _ => doPtpDelayReqSend_only (s_ := rfl) (k_ := .refl _ _) ..) h
  | ptpDelayResp => exact runCpu_asBuilt (fun _ => doPtpDelayResp_asBuilt ..) h
  | ptpAnnounceTimeout => exact run_only_asBuilt (fun _ => doPtpAnnounceTimeout_only (s_ := rfl) (k_ := .refl _ _) ..) h
  | ppsInEdge => exact run_only_asBuilt (fun _ => doPpsInEdge_only (s_ := rfl) (k_ := .refl _ _) ..) h
  | ppsTimeout => exact run_only_asBuilt (fun _ => doPpsTimeout_only (s_ := rfl) (k_ := .refl _ _) ..) h
  | ref10mLoss => exact run_only_asBuilt (fun _ => doRef10mLoss_only (s_ := rfl) (k_ := .refl _ _) ..) h
  | ptpPreferenceTimer => exact run_only_asBuilt (fun _ => doPtpPreferenceTimer_only (s_ := rfl) (k_ := .refl _ _) ..) h
  | ppsOutSecond => exact run_only_asBuilt (fun _ => doPpsOutSecond_only (s_ := rfl) (k_ := .refl _ _) ..) h
  | launchRelease => exact run_only_asBuilt (fun _ => doLaunchRelease_only (s_ := rfl) (k_ := .refl _ _) ..) h
  | spnTargetWrite => exact run_only_asBuilt (fun _ => doSpnTargetWrite_only (s_ := rfl) (k_ := .refl _ _) ..) h
  | spindleStateReached => exact run_asBuilt (fun _ => doSpindleStateReached_asBuilt ..) h
  | spnWindowWrite => exact run_only_asBuilt (fun _ => doSpnWindowWrite_only (s_ := rfl) (k_ := .refl _ _) ..) h
  | spnBindWrite => exact run_only_asBuilt (fun _ => doSpnBindWrite_only (s_ := rfl) (k_ := .refl _ _) ..) h
  | calStart => exact run_only_asBuilt (fun _ => doCalStart_only (s_ := rfl) (k_ := .refl _ _) ..) h
  | inhClr => exact run_only_asBuilt (fun _ => doInhClr_only (s_ := rfl) (k_ := .refl _ _) ..) h
  | spnTuneWrite => exact run_only_asBuilt (fun _ => doSpnTuneWrite_only (s_ := rfl) (k_ := .refl _ _) ..) h
  | spnTrimWrite => exact run_only_asBuilt (fun _ => doSpnTrimWrite_only (s_ := rfl) (k_ := .refl _ _) ..) h
  | calPairEnd => exact run_only_asBuilt (fun _ => doCalPairEnd_only (s_ := rfl) (k_ := .refl _ _) ..) h
  | calBlankEnd => exact run_only_asBuilt (fun _ => doCalBlankEnd_only (s_ := rfl) (k_ := .refl _ _) ..) h
  | txsynCalPair => exact run_only_asBuilt (fun _ => doTxsynCalPair_only (s_ := rfl) (k_ := .refl _ _) ..) h
  | cxRequest => exact run_only_asBuilt (fun _ => doCxRequest_only (s_ := rfl) (k_ := .refl _ _) ..) h
  | cxGrantSample => exact run_only_asBuilt (fun _ => doCxGrantSample_only (s_ := rfl) (k_ := .refl _ _) ..) h
  | cxGrantFall => exact run_only_asBuilt (fun _ => doCxGrantFall_only (s_ := rfl) (k_ := .refl _ _) ..) h
  | txSequenceStep => exact run_only_asBuilt (fun _ => doTxSequenceStep_only (s_ := rfl) (k_ := .refl _ _) ..) h
  | txStart => exact run_only_asBuilt (fun _ => doTxStart_only (s_ := rfl) (k_ := .refl _ _) ..) h
  | txEnd => exact run_only_asBuilt (fun _ => doTxEnd_only (s_ := rfl) (k_ := .refl _ _) ..) h
  | txReleaseStep => exact run_only_asBuilt (fun _ => doTxReleaseStep_only (s_ := rfl) (k_ := .refl _ _) ..) h
  | reflectionCheck => exact run_only_asBuilt (fun _ => doReflectionCheck_only (s_ := rfl) (k_ := .refl _ _) ..) h
  | inhibitRetry => exact run_only_asBuilt (fun _ => doInhibitRetry_only (s_ := rfl) (k_ := .refl _ _) ..) h
  | maskBlockCheck => exact run_only_asBuilt (fun _ => doMaskBlockCheck_only (s_ := rfl) (k_ := .refl _ _) ..) h
  | receiveIdle => exact run_only_asBuilt (fun _ => doReceiveIdle_only (s_ := rfl) (k_ := .refl _ _) ..) h
  | spindleHold => exact run_only_asBuilt (fun _ => doSpindleHold_only (s_ := rfl) (k_ := .refl _ _) ..) h
  | holdEnd => exact run_only_asBuilt (fun _ => doHoldEnd_only (s_ := rfl) (k_ := .refl _ _) ..) h
  | preambleDetect => exact run_only_asBuilt (fun _ => doPreambleDetect_only (s_ := rfl) (k_ := .refl _ _) ..) h
  | headerDecode => exact run_only_asBuilt (fun _ => doHeaderDecode_only (s_ := rfl) (k_ := .refl _ _) ..) h
  | frameEnd => exact run_only_asBuilt (fun _ => doFrameEnd_only (s_ := rfl) (k_ := .refl _ _) ..) h
  | frameTooLong => exact run_only_asBuilt (fun _ => doFrameTooLong_only (s_ := rfl) (k_ := .refl _ _) ..) h
  | rxFrameProcess => exact run_asBuilt (fun _ => doRxFrameProcess_asBuilt ..) h
  | nodeOffsetLapse => exact run_only_asBuilt (fun _ => doNodeOffsetLapse_only (s_ := rfl) (k_ := .refl _ _) ..) h
  | correctionFrameExpire => exact run_only_asBuilt (fun _ => doCorrectionFrameExpire_only (s_ := rfl) (k_ := .refl _ _) ..) h
  | cellRead => exact run_only_asBuilt (fun _ => doCellRead_only (s_ := rfl) (k_ := .refl _ _) ..) h
  | cellWrite => exact run_asBuilt (fun _ => doCellWrite_asBuilt ..) h
  | cellDelete => exact run_asBuilt (fun _ => doCellDelete_asBuilt ..) h
  | sfArm => exact run_only_asBuilt (fun _ => doSfArm_only (s_ := rfl) (k_ := .refl _ _) ..) h
  | sfDisarm => exact run_only_asBuilt (fun _ => doSfDisarm_only (s_ := rfl) (k_ := .refl _ _) ..) h
  | sfSwitch => exact run_asBuilt (fun _ => doSfSwitch_asBuilt ..) h
  | wrpHopWrite => exact run_asBuilt (fun _ => doWrpHopWrite_asBuilt ..) h
  | wrpTimingWrite => exact run_asBuilt (fun _ => doWrpTimingWrite_asBuilt ..) h
  | dioTrickleTimer => exact run_only_asBuilt (fun _ => doDioTrickleTimer_only (s_ := rfl) (k_ := .refl _ _) ..) h
  | disReceive => exact runCpu_asBuilt (fun _ => doDisReceive_asBuilt ..) h
  | daoReceive => exact runCpu_asBuilt (fun _ => doDaoReceive_asBuilt ..) h
  | daoPathLapse => exact run_asBuilt (fun _ => doDaoPathLapse_asBuilt ..) h
  | dormantExpire => exact run_asBuilt (fun _ => doDormantExpire_asBuilt ..) h
  | throwConfirmReceive =>
    exact runCpu_asBuilt (fun _ => (doThrowConfirmReceive_only (s_ := rfl) (k_ := .refl _ _) ..).asBuilt) h
  | hankReceive => exact runCpu_asBuilt (fun _ => doHankReceive_asBuilt ..) h
  | reassemblyTimeout => exact run_only_asBuilt (fun _ => doReassemblyTimeout_only (s_ := rfl) (k_ := .refl _ _) ..) h
  | hankAdmit => exact run_asBuilt (fun _ => doHankAdmit_asBuilt ..) h
  | threadTimeout => exact run_only_asBuilt (fun _ => doThreadTimeout_only (s_ := rfl) (k_ := .refl _ _) ..) h
  | threadRetainExpire => exact run_only_asBuilt (fun _ => doThreadRetainExpire_only (s_ := rfl) (k_ := .refl _ _) ..) h
  | completionSend => exact run_asBuilt (fun _ => doCompletionSend_asBuilt ..) h
  | regRead => exact run_only_asBuilt (fun _ => doRegRead_only (s_ := rfl) (k_ := .refl _ _) ..) h
  | regWrite => exact run_asBuilt (fun _ => doRegWrite_asBuilt ..) h
  | praInfo => exact run_only_asBuilt (fun _ => doPraInfo_only (s_ := rfl) (k_ := .refl _ _) ..) h
  | healthSummary => exact run_only_asBuilt (fun _ => doHealthSummary_only (s_ := rfl) (k_ := .refl _ _) ..) h
  | healthLog => exact run_only_asBuilt (fun _ => doHealthLog_only (s_ := rfl) (k_ := .refl _ _) ..) h
  | threadQuery => exact run_only_asBuilt (fun _ => doThreadQuery_only (s_ := rfl) (k_ := .refl _ _) ..) h
  | completeAck => exact run_only_asBuilt (fun _ => doCompleteAck_only (s_ := rfl) (k_ := .refl _ _) ..) h
  | powerState => exact run_asBuilt (fun _ => doPowerState_asBuilt ..) h
  | powerOffRails => exact run_asBuilt (fun _ => doPowerOffRails_asBuilt ..) h
  | wakeElapsed => exact run_asBuilt (fun _ => doWakeElapsed_asBuilt ..) h
  | returnTest => exact run_only_asBuilt (fun _ => doReturnTest_only (s_ := rfl) (k_ := .refl _ _) ..) h
  | test => exact run_only_asBuilt (fun _ => doTest_only (s_ := rfl) (k_ := .refl _ _) ..) h
  | spindleTestComplete => exact run_asBuilt (fun _ => doSpindleTestComplete_asBuilt ..) h
  | bypass => exact run_only_asBuilt (fun _ => doBypass_only (s_ := rfl) (k_ := .refl _ _) ..) h
  | unbypass => exact run_only_asBuilt (fun _ => doUnbypass_only (s_ := rfl) (k_ := .refl _ _) ..) h
  | nodeReq => exact run_asBuilt (fun _ => doNodeReq_asBuilt ..) h
  | nodeReplyReceive => exact runCpu_asBuilt (fun _ => doNodeReplyReceive_asBuilt ..) h
  | throwGroupSet => exact run_asBuilt (fun _ => doThrowGroupSet_asBuilt ..) h
  | throwCmd => exact run_asBuilt (fun _ => doThrowCmd_asBuilt ..) h
  | objOpen => exact run_only_asBuilt (fun _ => doObjOpen_only (s_ := rfl) (k_ := .refl _ _) ..) h
  | objWrite => exact run_only_asBuilt (fun _ => doObjWrite_only (s_ := rfl) (k_ := .refl _ _) ..) h
  | objClose => exact run_only_asBuilt (fun _ => doObjClose_only (s_ := rfl) (k_ := .refl _ _) ..) h
  | objDelete => exact run_only_asBuilt (fun _ => doObjDelete_only (s_ := rfl) (k_ := .refl _ _) ..) h
  | objSend => exact run_asBuilt (fun _ => doObjSend_asBuilt ..) h
  | policyWrite => exact run_asBuilt (fun _ => doPolicyWrite_asBuilt ..) h
  | policyRead => exact run_only_asBuilt (fun _ => doPolicyRead_only (s_ := rfl) (k_ := .refl _ _) ..) h
  | keyLoad => exact run_asBuilt (fun _ => doKeyLoad_asBuilt ..) h
  | keyAttr => exact run_asBuilt (fun _ => doKeyAttr_asBuilt ..) h
  | keyErase => exact run_asBuilt (fun _ => doKeyErase_asBuilt ..) h
  | keyInfo => exact run_only_asBuilt (fun _ => doKeyInfo_only (s_ := rfl) (k_ := .refl _ _) ..) h
  | lifecycleSet => exact run_asBuilt (fun _ => doLifecycleSet_asBuilt ..) h
  | reelStage => exact run_only_asBuilt (fun _ => doReelStage_only (s_ := rfl) (k_ := .refl _ _) ..) h
  | reelStageBlock => exact run_only_asBuilt (fun _ => doReelStageBlock_only (s_ := rfl) (k_ := .refl _ _) ..) h
  | reelActivate => exact run_asBuilt (fun _ => doReelActivate_asBuilt ..) h
  | reelActivateExecute => exact run_asBuilt (fun _ => doReelActivateExecute_asBuilt ..) h
  | activateReset => exact run_asBuilt (fun _ => doActivateReset_asBuilt ..) h
  | ownerLock => exact run_only_asBuilt (fun _ => doOwnerLock_only (s_ := rfl) (k_ := .refl _ _) ..) h
  | quoteReq => exact runCpu_asBuilt (fun _ => doQuoteReq_asBuilt ..) h
  | packetIngress => exact run_asBuilt (fun _ => doPacketIngress_asBuilt ..) h
  | packetIngressEnd => exact run_only_asBuilt (fun _ => doPacketIngressEnd_only (s_ := rfl) (k_ := .refl _ _) ..) h
  | egressSelect => exact run_asBuilt (fun _ => doEgressSelect_asBuilt ..) h
  | portLink => exact run_only_asBuilt (fun _ => doPortLink_only (s_ := rfl) (k_ := .refl _ _) ..) h
  | tableRead => exact run_only_asBuilt (fun _ => doTableRead_only (s_ := rfl) (k_ := .refl _ _) ..) h
  | tableWrite => exact run_only_asBuilt (fun _ => doTableWrite_only (s_ := rfl) (k_ := .refl _ _) ..) h
  | tableDelete => exact run_only_asBuilt (fun _ => doTableDelete_only (s_ := rfl) (k_ := .refl _ _) ..) h
  | tableInsert => exact run_only_asBuilt (fun _ => doTableInsert_only (s_ := rfl) (k_ := .refl _ _) ..) h
  | tableFind => exact run_only_asBuilt (fun _ => doTableFind_only (s_ := rfl) (k_ := .refl _ _) ..) h
  | tableLookup => exact run_only_asBuilt (fun _ => doTableLookup_only (s_ := rfl) (k_ := .refl _ _) ..) h
  | bankSwap => exact run_only_asBuilt (fun _ => doBankSwap_only (s_ := rfl) (k_ := .refl _ _) ..) h
  | shaperWrite => exact run_only_asBuilt (fun _ => doShaperWrite_only (s_ := rfl) (k_ := .refl _ _) ..) h
  | policerWrite => exact run_only_asBuilt (fun _ => doPolicerWrite_only (s_ := rfl) (k_ := .refl _ _) ..) h
  | gateArm => exact run_only_asBuilt (fun _ => doGateArm_only (s_ := rfl) (k_ := .refl _ _) ..) h
  | gateCancel => exact run_only_asBuilt (fun _ => doGateCancel_only (s_ := rfl) (k_ := .refl _ _) ..) h
  | gateSwitch => exact run_only_asBuilt (fun _ => doGateSwitch_only (s_ := rfl) (k_ := .refl _ _) ..) h
  | gateEntryChange => exact run_only_asBuilt (fun _ => doGateEntryChange_only (s_ := rfl) (k_ := .refl _ _) ..) h
  | pauseReceive => exact run_only_asBuilt (fun _ => doPauseReceive_only (s_ := rfl) (k_ := .refl _ _) ..) h
  | pauseExpire => exact run_only_asBuilt (fun _ => doPauseExpire_only (s_ := rfl) (k_ := .refl _ _) ..) h
  | pauseLong => exact run_only_asBuilt (fun _ => doPauseLong_only (s_ := rfl) (k_ := .refl _ _) ..) h
  | pfcRefresh => exact run_only_asBuilt (fun _ => doPfcRefresh_only (s_ := rfl) (k_ := .refl _ _) ..) h
  | fcConfigWrite => exact run_only_asBuilt (fun _ => doFcConfigWrite_only (s_ := rfl) (k_ := .refl _ _) ..) h
  | heartbeatSend => exact run_asBuilt (fun _ => doHeartbeatSend_asBuilt ..) h
  | heartbeatReceive _ _ _ _ => exact execHeartbeatReceive_asBuilt h
  | offerReceive => exact runLink_asBuilt (fun _ => doOfferReceive_asBuilt ..) h
  | mergeWaitExpire => exact run_asBuilt (fun _ => doMergeWaitExpire_asBuilt ..) h
  | assignReceive => exact runLink_asBuilt (fun _ => doAssignReceive_asBuilt ..) h
  | countersReceive => exact runLink_asBuilt (fun _ => doCountersReceive_asBuilt ..) h
  | deltaReceive => exact runLink_asBuilt (fun _ => doDeltaReceive_asBuilt ..) h
  | snapReqReceive => exact runLink_asBuilt (fun _ => doSnapReqReceive_asBuilt ..) h
  | snapReceive => exact runLink_asBuilt (fun _ => doSnapReceive_asBuilt ..) h
  | treadleTimeout => exact run_only_asBuilt (fun _ => doTreadleTimeout_only (s_ := rfl) (k_ := .refl _ _) ..) h
  | treadleReset => exact run_asBuilt (fun _ => doTreadleReset_asBuilt ..) h
  | treadleStatusTimeout => exact run_asBuilt (fun _ => doTreadleStatusTimeout_asBuilt ..) h
  | treadleLost => exact run_only_asBuilt (fun _ => doTreadleLost_only (s_ := rfl) (k_ := .refl _ _) ..) h
  | loomBeaconSend => exact run_asBuilt (fun _ => doLoomBeaconSend_asBuilt ..) h
  | loomBeaconReceive => exact runCpu_asBuilt (fun _ => doLoomBeaconReceive_asBuilt ..) h
  | loomEntryLapse => exact run_only_asBuilt (fun _ => doLoomEntryLapse_only (s_ := rfl) (k_ := .refl _ _) ..) h
  | visitQReceive => exact runCpu_asBuilt (fun _ => doVisitQReceive_asBuilt ..) h
  | visitAReceive => exact runCpu_asBuilt (fun _ => doVisitAReceive_asBuilt ..) h
  | visitTimeout => exact run_asBuilt (fun _ => doVisitTimeout_asBuilt ..) h
  | whereReceive => exact runCpu_asBuilt (fun _ => doWhereReceive_asBuilt ..) h
  | whereRefresh => exact run_asBuilt (fun _ => doWhereRefresh_asBuilt ..) h
  | homeLeaseExpire => exact run_asBuilt (fun _ => doHomeLeaseExpire_asBuilt ..) h
  | fwdReceive => exact runCpu_asBuilt (fun _ => doFwdReceive_asBuilt ..) h
  | relayReceive => exact runCpu_asBuilt (fun _ => doRelayReceive_asBuilt ..) h
  | relayResReceive => exact runCpu_asBuilt (fun _ => doRelayResReceive_asBuilt ..) h
  | nodeRefetchTimeout => exact run_asBuilt (fun _ => doNodeRefetchTimeout_asBuilt ..) h
  | keyRemask dt => exact absurd rfl (hc dt)
  | rngHealthWindow => exact run_asBuilt (fun _ => doRngHealthWindow_asBuilt ..) h
  | hello => exact run_only_asBuilt (fun _ => doHello_only (s_ := rfl) (k_ := .refl _ _) ..) h
  | setBaud => exact run_only_asBuilt (fun _ => doSetBaud_only (s_ := rfl) (k_ := .refl _ _) ..) h
  | setBaudRevert => exact run_only_asBuilt (fun _ => doSetBaudRevert_only (s_ := rfl) (k_ := .refl _ _) ..) h
  | svcRegRead => exact run_only_asBuilt (fun _ => doSvcRegRead_only (s_ := rfl) (k_ := .refl _ _) ..) h
  | svcRegWrite => exact run_asBuilt (fun _ => doSvcRegWrite_asBuilt ..) h
  | quote => exact run_asBuilt (fun _ => doQuote_asBuilt ..) h
  | serviceFrameGap => exact run_only_asBuilt (fun _ => doServiceFrameGap_only (s_ := rfl) (k_ := .refl _ _) ..) h
  | imgBegin => exact run_only_asBuilt (fun _ => doImgBegin_only (s_ := rfl) (k_ := .refl _ _) ..) h
  | imgData => exact run_asBuilt (fun _ => doImgData_asBuilt ..) h
  | imgEnd => exact run_asBuilt (fun _ => doImgEnd_asBuilt ..) h
  | recoveryReset => exact run_asBuilt (fun _ => doRecoveryReset_asBuilt ..) h
  | recoveryCardRead => exact run_asBuilt (fun _ => doRecoveryCardRead_asBuilt ..) h
  | evtStickyClear => exact run_only_asBuilt (fun _ => doEvtStickyClear_only (s_ := rfl) (k_ := .refl _ _) ..) h
  | noticeSend => exact run_asBuilt (fun _ => doNoticeSend_asBuilt ..) h
  | pickerScan => exact run_asBuilt (fun _ => doPickerScan_asBuilt ..) h
  | thrHwmClr => exact run_only_asBuilt (fun _ => doThrHwmClr_only (s_ := rfl) (k_ := .refl _ _) ..) h
  | holdupCheckStart => exact run_only_asBuilt (fun _ => doHoldupCheckStart_only (s_ := rfl) (k_ := .refl _ _) ..) h
  | holdupCheckEnd => exact run_asBuilt (fun _ => doHoldupCheckEnd_asBuilt ..) h
  | logicRailFall => exact run_asBuilt (fun _ => doLogicRailFall_asBuilt ..) h
  | ref10mQualify => exact run_only_asBuilt (fun _ => doRef10mQualify_only (s_ := rfl) (k_ := .refl _ _) ..) h
  | pllRelock => exact run_only_asBuilt (fun _ => doPllRelock_only (s_ := rfl) (k_ := .refl _ _) ..) h
  | treadleStatusResume => exact run_asBuilt (fun _ => doTreadleStatusResume_asBuilt ..) h
  | receiveWindowStart => exact run_only_asBuilt (fun _ => doReceiveWindowStart_only (s_ := rfl) (k_ := .refl _ _) ..) h

/-! ## The re-mask -/

/-- Shares `k` of the root keys. -/
def AsBuilt.shares (b : AsBuilt) (k : Nat) : List Byte × List Byte := kgetD b.root k ([], [])

/-- The shares of each root key are of one length, at most that of the longest key. -/
def AsBuilt.Good (b : AsBuilt) : Prop := ∀ k, (b.shares k).1.length = (b.shares k).2.length ∧ (b.shares k).1.length ≤ 64

/-- The key that shares `k` hold. -/
def AsBuilt.key (b : AsBuilt) (k : Nat) : List Byte := joinShares (b.shares k).1 (b.shares k).2

/-- `b` is as built as `a` is, up to a change of mask. -/
structure AsBuilt.Same (a b : AsBuilt) : Prop where
  eui : b.eui = a.eui
  ctrlStep : b.ctrlStep = a.ctrlStep
  radioStep : b.radioStep = a.radioStep
  powerStep : b.powerStep = a.powerStep
  keys : a.Good → b.Good ∧ ∀ k, b.key k = a.key k

theorem AsBuilt.Same.of_eq {a b : AsBuilt} (h : b = a) : a.Same b := by
  subst h; exact ⟨rfl, rfl, rfl, rfl, fun g => ⟨g, fun _ => rfl⟩⟩

theorem AsBuilt.Same.trans {a b c : AsBuilt} (h : a.Same b) (k : b.Same c) : a.Same c where
  eui := k.eui.trans h.eui
  ctrlStep := k.ctrlStep.trans h.ctrlStep
  radioStep := k.radioStep.trans h.radioStep
  powerStep := k.powerStep.trans h.powerStep
  keys g :=
    have ⟨gb, hb⟩ := h.keys g
    have ⟨gc, hc⟩ := k.keys gb
    ⟨gc, fun i => (hc i).trans (hb i)⟩

theorem joinShares_length {a m : List Byte} (h : a.length ≤ m.length) : (joinShares a m).length = a.length := by
  simp [joinShares, h]

/-- The mask falls out of the key. -/
theorem joinShares_remask {a b m : List Byte} (ha : a.length ≤ m.length) (hb : b.length ≤ m.length) :
    joinShares (joinShares a m) (joinShares b m) = joinShares a b := by
  induction m generalizing a b with
  | nil => simp_all [joinShares]
  | cons z m ih =>
    match a, b with
    | [], _ => simp [joinShares]
    | _ :: _, [] => simp [joinShares]
    | x :: a, y :: b =>
      have octet : (x ^^^ z) ^^^ (y ^^^ z) = x ^^^ y := by
        rw [BitVec.xor_comm y z, BitVec.xor_assoc, ← BitVec.xor_assoc z z y, BitVec.xor_self, BitVec.zero_xor]
      have rest := ih (a := a) (b := b) (by simpa using ha) (by simpa using hb)
      simpa [joinShares, octet] using rest

theorem octets_length (n v : Nat) : (octets n v).length = n := by
  induction n with
  | zero => rfl
  | succ k ih => simp [octets, ih]

theorem freshMask_length (d : Dev) : (freshMask d).1.length = 64 := by
  simp only [freshMask, List.length_append, octets_length]

/-- Where skein `s` has a root key, its shares are the old ones under the fresh mask. -/
theorem remaskRoot_shares (d : Dev) (s : Nat) {v : List Byte × List Byte} (h : kfind d.dst.root s = some v) (k : Nat) :
    (remaskRoot d s).asBuilt.shares k = if s = k then (joinShares v.1 (freshMask d).1, joinShares v.2 (freshMask d).1)
      else d.asBuilt.shares k := by
  have root : (remaskRoot d s).asBuilt.root
      = kput d.dst.root s (joinShares v.1 (freshMask d).1, joinShares v.2 (freshMask d).1) := by
    change kadj d.dst.root s _ = _
    simp only [kadj, h]
    rfl
  unfold AsBuilt.shares; rw [root]; split
  next e => subst e; exact kgetD_kput_same ..
  next e => exact kgetD_kput_other _ _ _ _ _ e

theorem remaskRoot_same (d : Dev) (s : Nat) : d.asBuilt.Same (remaskRoot d s).asBuilt := by
  cases h : kfind d.dst.root s with
  | none =>
    have root : (remaskRoot d s).dst.root = d.dst.root := by
      change kadj d.dst.root s _ = _
      simp only [kadj, h]
    exact .of_eq (congrArg (AsBuilt.mk d.glb.eui d.glb.ctrlStep d.glb.radioStep d.glb.powerStep) root)
  | some v =>
    refine ⟨rfl, rfl, rfl, rfl, fun g => ?_⟩
    have old : d.asBuilt.shares s = v := by simp [AsBuilt.shares, Dev.asBuilt, kgetD, h]
    have gs := g s
    rw [old] at gs
    have fits : v.1.length ≤ (freshMask d).1.length := by rw [freshMask_length]; exact gs.2
    have fits' : v.2.length ≤ (freshMask d).1.length := gs.1 ▸ fits
    refine ⟨fun k => ?_, fun k => ?_⟩
    · rw [remaskRoot_shares d s h k]; split
      · simp only [joinShares_length fits, joinShares_length fits']; exact gs
      · exact g k
    · rw [AsBuilt.key, remaskRoot_shares d s h k]; split
      next e => subst e; rw [AsBuilt.key, old]; exact joinShares_remask fits fits'
      · rfl

theorem doKeyRemask_same (d : Dev) : d.asBuilt.Same (doKeyRemask d).asBuilt := by
  unfold doKeyRemask; split
  · refine .trans ((remaskRoot_same d 0).trans (remaskRoot_same _ 1)) (.of_eq ?_)
    change (Dev.modDst _ _).asBuilt = (each [0, 1] remaskRoot d).asBuilt
    simp
  · exact .of_eq rfl

/-! ## Every step -/

theorem exec_same {c : Instr} {s t : State} (h : exec c s = .next t) : s.dev.asBuilt.Same t.dev.asBuilt := by
  by_cases hc : ∃ dt, c = .keyRemask dt
  · obtain ⟨dt, rfl⟩ := hc
    obtain rfl : { s with dev := doKeyRemask (s.dev.elapse dt) } = t := by injection h
    exact .trans (.of_eq (Dev.elapse_asBuilt ..)) (doKeyRemask_same _)
  · exact .of_eq (exec_asBuilt (fun dt e => hc ⟨dt, e⟩) h)

theorem step_same {s t : State} (h : step s = .next t) : s.dev.asBuilt.Same t.dev.asBuilt := by
  unfold step at h; split at h
  · cases h; exact .of_eq rfl
  next c rest _ => exact exec_same (s := { s with pending := rest }) h

/-- Settles O56: every command but `keyRemask` keeps what is as built word for word (`exec_asBuilt`), and `keyRemask`
puts one mask over both shares of a root key, which falls out of the key (`joinShares_remask`). -/
theorem asBuiltStays : Obligations.AsBuiltStays := by
  unfold Obligations.AsBuiltStays
  intro shares good s t h
  obtain ⟨eui, ctrl, radio, power, keys⟩ := step_same h
  exact ⟨eui, ctrl, radio, power, keys⟩

end Sys2Proof.Machine
end

section
/-! PROOFS. Register accesses (O8). -/

namespace Sys2Proof.Machine

/-- A report of the running firmware touches nothing but the events. -/
theorem report_running {d : Dev} (h : d.phase.fwRuns = true) (e : Nat) (l : List Byte) :
    report d e l = { d with evt := (report d e l).evt } := by
  obtain ⟨runs, now⟩ := Phase.fwRuns_ctrlRuns h
  simp only [report, now, runs, if_true, Bool.false_eq_true, if_false]
  unfold reportNow; dsimp only; split <;> rfl

theorem persistentWord?_unmapped {a : Nat} (h : block? a = none) : persistentWord? a = none := by
  simp [persistentWord?, h]

theorem writeAt_unmapped {d : Dev} {a : Nat} (v : Word) (h : block? a = none) : writeAt d a v = (unmapped d a 1, .ok) := by
  simp [writeAt, h]

theorem readAt_unmapped {d : Dev} {a : Nat} (h : block? a = none) : readAt d a = (0, unmapped d a 0) := by
  simp [readAt, h]

/-- The address of word `n` of the array (R12). -/
theorem block?_pra {n : Nat} (h : n < 0x2000) : block? (0x700000 + 4 * n) = some (.pra, 4 * n) := by
  unfold block?
  repeat rw [if_neg (by omega)]
  rw [if_pos (by omega)]
  simp

theorem persistentWord?_operator {n : Nat} (lo : 0x400 ≤ n) (hi : n < 0x2000) : persistentWord? (0x700000 + 4 * n) = some n := by
  simp [persistentWord?, block?_pra hi, operatorWord, lo]

theorem doRegisterWrite_block {d : Dev} {a : Nat} (v : Word) (h : d.phase.fwRuns = true) (hp : persistentWord? a = none) :
    doRegisterWrite a v d = (writeAt d a v).1.emit (.status (writeAt d a v).2) := by
  simp only [doRegisterWrite, hp, regRow, h, if_true]

theorem unmapped_sticky {d : Dev} (h : d.phase.fwRuns = true) (a access : Nat) :
    (unmapped d a access).evt.sticky evAddrUnmapped = true := report_sticky d _ _ h

/-- Settles O8. -/
theorem registerAccesses : Obligations.RegisterAccesses := by
  unfold Obligations.RegisterAccesses
  refine ⟨fun s dt a v runs => ?_, fun d a v free runs => ?_⟩
  · have hr : (s.dev.elapse dt).phase.fwRuns = true := by simpa using runs
    refine ⟨fun volatile _ => gives_run rfl (doRegisterWrite_block v hr volatile), fun free => gives_run rfl ?_, fun n lo hi e => gives_run rfl ?_⟩
    · rw [doRegisterWrite_block v hr (persistentWord?_unmapped free), writeAt_unmapped v free]
      refine ⟨?_, unmapped_sticky hr a 1⟩
      conv_lhs => rw [unmapped, report_running hr]
      rfl
    · subst e
      simp only [doRegisterWrite, persistentWord?_operator lo hi, hr, if_true]
      rfl
  · rw [readAt_unmapped free, writeAt_unmapped v free]
    exact ⟨rfl, unmapped_sticky runs a 0, report_running runs .., report_running runs .., unmapped_sticky runs a 1⟩

end Sys2Proof.Machine
end

section
/-! PROOFS. The commands that only read, COMPLETE_ACK, and the register commands (O33). The end of a command changes its own
thread and those FENCED on it, and leaves every other as it was. -/

namespace Sys2Proof.Machine

/-! ## Tables -/

theorem kfind_kadj_same {α : Type} {m : KMap α} {k : Nat} {v : α} (f : α → α) (h : kfind m k = some v) :
    kfind (kadj m k f) k = some (f v) := by
  simp [kadj, h]

theorem kfind_kadj_other {α : Type} (m : KMap α) {k j : Nat} (f : α → α) (h : k ≠ j) :
    kfind (kadj m k f) j = kfind m j := by
  unfold kadj; split
  · exact kfind_kput_other _ _ _ _ h
  · rfl

theorem kfind_kmap {α : Type} (m : KMap α) (f : Nat → α → α) (k : Nat) :
    kfind (kmap m f) k = (kfind m k).map (f k) := by
  induction m with
  | nil => rfl
  | cons p r ih =>
    obtain ⟨j, v⟩ := p
    by_cases h : j = k
    · subst h; simp [kmap, kfind]
    · simpa [kmap, kfind, h] using ih

theorem mem_kput {α : Type} {m : KMap α} {k : Nat} {v : α} {p : Nat × α} (h : p ∈ kput m k v) :
    p = (k, v) ∨ p ∈ m := by
  induction m with
  | nil => simpa [kput] using h
  | cons q r ih =>
    unfold kput at h; grind

theorem mem_kadj {α : Type} {m : KMap α} {k : Nat} {f : α → α} {p : Nat × α} (h : p ∈ kadj m k f) :
    p ∈ m ∨ ∃ v, p.2 = f v := by
  unfold kadj at h; split at h
  · rcases mem_kput h with rfl | h
    · exact .inr ⟨_, rfl⟩
    · exact .inl h
  · exact .inl h

/-! ## One thread -/

theorem modThread_thread?_same {d : Dev} {th : Nat} {t : Thread} (f : Thread → Thread) (h : d.thread? th = some t) :
    (d.modThread th f).thread? th = some (f t) := kfind_kadj_same f h

theorem modThread_thread?_other (d : Dev) {th k : Nat} (f : Thread → Thread) (h : th ≠ k) :
    (d.modThread th f).thread? k = d.thread? k := kfind_kadj_other _ f h

/-- A READY thread's command runs on the device with the thread RUNNING. -/
theorem runThread_ready {α : Type} {d : Dev} {th : Nat} {t : Thread} {c : Cmd} {pick : Cmd → Option α} {a : α}
    (f : Dev → Thread → α → Dev) (h : ReadyFor d th t c) (hp : pick c = some a) :
    runThread d th pick f = f (d.modThread th (fun _ => t.begun)) t.begun a := by
  obtain ⟨up, found, ready, rfl⟩ := h
  simp only [runThread, found, ready, up, hp, and_self, if_true]
  rfl

/-! ## Threads that are not FENCED -/

/-- From `a` to `b` no thread has come, and a thread that was not FENCED is as it was. -/
structure KeepsUnfenced (a b : Dev) : Prop where
  absent : ∀ {k}, a.thread? k = none → b.thread? k = none
  unfenced : ∀ {k u}, a.thread? k = some u → u.st ≠ .fenced → b.thread? k = some u

theorem KeepsUnfenced.refl (d : Dev) : KeepsUnfenced d d := ⟨id, fun h _ => h⟩

theorem KeepsUnfenced.trans {a b c : Dev} (h : KeepsUnfenced a b) (k : KeepsUnfenced b c) : KeepsUnfenced a c :=
  ⟨fun n => k.absent (h.absent n), fun s u => k.unfenced (h.unfenced s u) u⟩

theorem KeepsUnfenced.of_ccp {a b : Dev} (h : b.ccp = a.ccp) : KeepsUnfenced a b :=
  have same (k : Nat) : b.thread? k = a.thread? k := congrArg (fun c : Ccp => kfind c.threads k) h
  ⟨fun n => (same _).trans n, fun s _ => (same _).trans s⟩

/-- Ending thread `n` changes no other thread but a FENCED one. -/
theorem markDone_thread?_other {d : Dev} {n k : Nat} (st : Status) (res : List Byte) (h : n ≠ k) :
    (d.thread? k = none → (markDone d n st res).thread? k = none)
    ∧ ∀ u, d.thread? k = some u → u.st ≠ .fenced → (markDone d n st res).thread? k = some u := by
  unfold markDone; split
  · exact ⟨id, fun _ s _ => s⟩
  · split
    · exact ⟨id, fun _ s _ => s⟩
    · simp only [Dev.thread?, Dev.modCcp_ccp, Dev.modImg_ccp, kfind_kmap, kfind_kput_other _ _ _ _ h]
      exact ⟨fun n => by simp [n], fun u s f => by simp [s, f]⟩

theorem markDone_thread?_same {d : Dev} {th : Nat} {t : Thread} (st : Status) (res : List Byte) (h : d.thread? th = some t)
    (hd : t.st ≠ .done) : EndedWith (markDone d th st res) th st res := by
  unfold markDone; rw [h]
  simp only [hd, if_false, EndedWith, Dev.thread?, Dev.modCcp_ccp, kfind_kmap, kfind_kput_same]
  exact ⟨_, rfl, by simp⟩

theorem markDone_keepsUnfenced {d : Dev} {n : Nat} {t : Thread} (st : Status) (res : List Byte)
    (found : d.thread? n = some t) (fenced : t.st = .fenced) : KeepsUnfenced d (markDone d n st res) := by
  constructor
  · intro k none
    have other : n ≠ k := by rintro rfl; simp [found] at none
    exact (markDone_thread?_other st res other).1 none
  · intro k u some uf
    have other : n ≠ k := by rintro rfl; simp_all
    exact (markDone_thread?_other st res other).2 u some uf

theorem modThread_keepsUnfenced {d : Dev} {n : Nat} {t : Thread} (f : Thread → Thread) (found : d.thread? n = some t)
    (fenced : t.st = .fenced) : KeepsUnfenced d (d.modThread n f) := by
  constructor
  · intro k none
    have other : n ≠ k := by rintro rfl; simp [found] at none
    rwa [modThread_thread?_other d f other]
  · intro k u some uf
    have other : n ≠ k := by rintro rfl; simp_all
    rwa [modThread_thread?_other d f other]

theorem settleFence_keepsUnfenced (d : Dev) (n : Nat) : KeepsUnfenced d (settleFence d n) := by
  unfold settleFence; split
  · exact .refl d
  next t found =>
    split
    next fenced =>
      split
      · split
        next l _ => exact .trans (.of_ccp (b := dropLaunch d l) rfl) (markDone_keepsUnfenced _ _ found fenced.1)
        next => exact markDone_keepsUnfenced _ _ found fenced.1
      · exact modThread_keepsUnfenced _ found fenced.1
    next => exact .refl d

theorem settleFences_keepsUnfenced (d : Dev) : KeepsUnfenced d (settleFences d) := by
  unfold settleFences
  induction d.ccp.fencedInOrder generalizing d with
  | nil => exact .refl d
  | cons n l ih => exact (settleFence_keepsUnfenced d n).trans (ih _)

/-! ## The end of a command -/

theorem finish_ended {d : Dev} {th : Nat} {t : Thread} (st : Status) (res : List Byte) (h : d.thread? th = some t)
    (hd : t.st ≠ .done) : EndedWith (finish d th st res) th st res := by
  obtain ⟨u, found, done, status, result⟩ := markDone_thread?_same st res h hd
  exact ⟨u, (settleFences_keepsUnfenced _).unfenced found (by simp [done]), done, status, result⟩

/-- No thread is FENCED. -/
def NoFence (d : Dev) : Prop := ∀ p ∈ d.ccp.threads, p.2.st ≠ .fenced

theorem NoFence.modThread {d : Dev} (h : NoFence d) (th : Nat) {t : Thread} (ht : t.st ≠ .fenced) :
    NoFence (d.modThread th (fun _ => t)) := by
  intro p hp
  rcases mem_kadj hp with old | ⟨v, new⟩
  · exact h p old
  · rw [new]; exact ht

theorem NoFence.settleFences {d : Dev} (h : NoFence d) : settleFences d = d := by
  have none : d.ccp.threads.filter (fun p => p.2.st == .fenced) = [] := by
    simpa [List.filter_eq_nil_iff] using fun a b hab => h (a, b) hab
  unfold Machine.settleFences Ccp.fencedInOrder
  rw [none]; rfl

theorem mem_kmap {α : Type} {m : KMap α} {f : Nat → α → α} {p : Nat × α} (h : p ∈ kmap m f) :
    ∃ q ∈ m, p = (q.1, f q.1 q.2) := by
  simpa [kmap, eq_comm] using h

theorem NoFence.markDone {d : Dev} (h : NoFence d) (th : Nat) (st : Status) (res : List Byte) :
    NoFence (markDone d th st res) := by
  unfold Machine.markDone; split
  · exact h
  · split
    · exact h
    · intro p hp
      simp only [Dev.modCcp_ccp] at hp
      obtain ⟨q, hq, rfl⟩ := mem_kmap hp
      have hf : q.2.st ≠ .fenced := by
        rcases mem_kput hq with rfl | old
        · simp
        · exact h q old
      simp [hf]

theorem ThreadsOnly.finish (d : Dev) (th : Nat) (st : Status) (res : List Byte) : ThreadsOnly d (finish d th st res) := by
  refine ⟨finish_only d th st res rfl (.refl _ _), fun unfenced => ?_⟩
  unfold Machine.finish
  rw [(NoFence.markDone unfenced th st res).settleFences]
  exact markDone_only d th st res rfl (.refl _ _)

theorem ThreadsOnly.begin_finish (d : Dev) (th : Nat) (t : Thread) (st : Status) (res : List Byte) :
    ThreadsOnly d (Machine.finish (d.modThread th (fun _ => t.begun)) th st res) := by
  have begin : Only [.ccp] d (d.modThread th (fun _ => t.begun)) := Dev.modThread_only d th _ rfl (.refl _ _)
  obtain ⟨some, unfenced⟩ := ThreadsOnly.finish (d.modThread th (fun _ => t.begun)) th st res
  exact ⟨(begin.mono rfl).trans some, fun h =>
    (begin.mono rfl).trans (unfenced (NoFence.modThread h th (by simp [Thread.begun])))⟩

theorem ReadyFor.begun {d : Dev} {th : Nat} {t : Thread} {c : Cmd} (h : ReadyFor d th t c) :
    (d.modThread th (fun _ => t.begun)).thread? th = some t.begun := modThread_thread?_same _ h.2.1

/-- A command that only reads ends its thread with the result, and nothing else changes. -/
theorem ended_threadsOnly {d : Dev} {th : Nat} {t : Thread} {c : Cmd} (h : ReadyFor d th t c) (st : Status)
    (res : List Byte) : EndedWith (finish (d.modThread th (fun _ => t.begun)) th st res) th st res
    ∧ ThreadsOnly d (finish (d.modThread th (fun _ => t.begun)) th st res) :=
  ⟨finish_ended st res h.begun (by simp [Thread.begun]), .begin_finish ..⟩

/-! ## PRA_INFO -/

theorem watchIf_modCcp (d : Dev) (f : Ccp → Ccp) (n : Nat) (on : Bool) :
    watchIf (d.modCcp f) n on = (watchIf d n on).modCcp f := by
  unfold watchIf watch
  simp only [apply_ite (fun x : Dev => x.modCcp f)]
  rfl

/-- The refill does not read the threads. -/
theorem praDue_modCcp (d : Dev) (f : Ccp → Ccp) : praDue (d.modCcp f) = (praDue d).modCcp f := by
  unfold praDue
  simp only [apply_ite (fun x : Dev => x.modCcp f), praLow, ← watchIf_modCcp]
  rfl

theorem praDue_thread? (d : Dev) (th : Nat) : (praDue d).thread? th = d.thread? th :=
  have ccp : (praDue d).ccp = d.ccp := (praDue_only d rfl (.refl [.pra, .evt] _)).same .ccp (by decide)
  congrArg (fun c : Ccp => kfind c.threads th) ccp

theorem forgetThread_ccp (d : Dev) (th : Nat) : (forgetThread d th).ccp = d.ccp := rfl

theorem threadsWatch_ccp (d : Dev) : (threadsWatch d).ccp = d.ccp :=
  (threadsWatch_only d rfl (.refl [.evt] _)).same .ccp (by decide)

theorem freeThread_thread?_same (d : Dev) (th : Nat) : (freeThread d th).thread? th = none := by
  simp [freeThread, Dev.thread?, threadsWatch_ccp, forgetThread_ccp]

theorem freeThread_thread?_other (d : Dev) {th n : Nat} (h : th ≠ n) : (freeThread d th).thread? n = d.thread? n := by
  simp [freeThread, Dev.thread?, threadsWatch_ccp, forgetThread_ccp, kfind_kdel_other _ _ _ h]

/-- COMPLETE_ACK of thread `n` by identity `i` (R205). -/
def ackThread (i : Nat) (d : Dev) (n : Nat) : Dev :=
  match d.thread? n with
  | some x => if x.st = .done ∧ x.ident = i then freeThread d n else d
  | none => d

theorem ackThread_same {i : Nat} {d : Dev} {n : Nat} {x : Thread} (h : d.thread? n = some x) (hd : x.st = .done)
    (hi : x.ident = i) : (ackThread i d n).thread? n = none := by
  simp only [ackThread, h, hd, hi, and_self, if_true]
  exact freeThread_thread?_same d n

theorem ackThread_thread? (i : Nat) (d : Dev) (n k : Nat) :
    (ackThread i d n).thread? k = none ∨ (ackThread i d n).thread? k = d.thread? k := by
  unfold ackThread; split
  · split
    · by_cases e : n = k
      · subst e; exact .inl (freeThread_thread?_same d n)
      · exact .inr (freeThread_thread?_other d e)
    · exact .inr rfl
  · exact .inr rfl

theorem acks_absent {i : Nat} {l : List Nat} {d : Dev} {k : Nat} (h : d.thread? k = none) :
    (each l (ackThread i) d).thread? k = none := by
  induction l generalizing d with
  | nil => exact h
  | cons n l ih => exact ih (by rcases ackThread_thread? i d n k with e | e <;> simp [e, h])

/-- A DONE thread of the identity that the list names is freed. -/
theorem acks_named {i : Nat} {l : List Nat} {d : Dev} {n : Nat} {x : Thread} (named : n ∈ l) (h : d.thread? n = some x)
    (hd : x.st = .done) (hi : x.ident = i) : (each l (ackThread i) d).thread? n = none := by
  induction l generalizing d with
  | nil => simp at named
  | cons m l ih =>
    rcases ackThread_thread? i d m n with gone | kept
    · exact acks_absent (l := l) gone
    · by_cases e : m = n
      · subst e; exact acks_absent (l := l) (ackThread_same h hd hi)
      · have later : n ∈ l := by simpa [Ne.symm e] using named
        exact ih later (kept.trans h)

theorem finish_absent {d : Dev} {th k : Nat} (st : Status) (res : List Byte) (h : d.thread? k = none) :
    (finish d th st res).thread? k = none := by
  refine (settleFences_keepsUnfenced _).absent ?_
  by_cases e : th = k
  · subst e; rw [markDone, h]; exact h
  · exact (markDone_thread?_other st res e).1 h

theorem freeThread_absent {d : Dev} {th k : Nat} (h : d.thread? k = none) : (freeThread d th).thread? k = none := by
  by_cases e : th = k
  · subst e; exact freeThread_thread?_same d th
  · exact (freeThread_thread?_other d e).trans h

/-! ## REG_WRITE -/

theorem writePairs_volatile {th n : Nat} {a : Nat} {v : Word} (d : Dev) (h : persistentWord? a = none) :
    writePairs th n [(a, v)] d = if (writeAt d a v).2 = .ok then finish (writeAt d a v).1 th .ok (pairsResult (n + 1))
      else finish (writeAt d a v).1 th (writeAt d a v).2 (pairsResult n) := by
  unfold writePairs; rw [h]; dsimp only
  generalize writeAt d a v = r
  obtain ⟨e, st⟩ := r
  split
  next ok => cases ok; rfl
  next no e => cases e; simp_all

theorem writePairs_persistent {th n w : Nat} {a : Nat} {v : Word} (d : Dev) (h : persistentWord? a = some w) :
    writePairs th n [(a, v)] d
      = praAsk (d.modThread th (fun t => { t with pairsLeft := [], pairsDone := n })) w v (.thread th) := by
  unfold writePairs; rw [h]

theorem readRun_thread? (d : Dev) (a n th : Nat) : (readRun d a n).2.thread? th = d.thread? th :=
  have ccp : (readRun d a n).2.ccp = d.ccp := (readRun_only d a n rfl (.refl [.start, .evt] _)).same .ccp (by decide)
  congrArg (fun c : Ccp => kfind c.threads th) ccp

/-! ## The commands -/

section
variable {d : Dev} {th : Nat} {t : Thread}

theorem doPraInfo_ready {f n : Nat} (h : ReadyFor d th t (.praInfo f n)) :
    doPraInfo th d = finish ((praDue d).modThread th (fun _ => t.begun)) th .ok
      ((List.range n).map (fun i => wearRecord (praDue d) (f + i))).flatten := by
  have due : praDue (d.modThread th (fun _ => t.begun)) = (praDue d).modThread th (fun _ => t.begun) := praDue_modCcp ..
  refine (runThread_ready (a := (f, n)) _ h (by rfl)).trans ?_
  dsimp only; rw [due]; rfl

theorem doHealthSummary_ready (h : ReadyFor d th t .healthSummary) :
    doHealthSummary th d = finish (d.modThread th (fun _ => t.begun)) th .ok (healthSummary d) :=
  runThread_ready (a := ()) _ h (by rfl)

theorem doHealthLog_ready {n f : Nat} (h : ReadyFor d th t (.healthLog n f)) :
    doHealthLog th d = finish (d.modThread th (fun _ => t.begun)) th .ok (healthLog d.evt n f) :=
  runThread_ready (a := (n, f)) _ h (by rfl)

theorem doThreadQuery_absent {n : Nat} (h : ReadyFor d th t (.threadQuery n)) (other : n ≠ th)
    (absent : d.thread? n = none) :
    doThreadQuery th d = finish (d.modThread th (fun _ => t.begun)) th .ok (octets 4 0) := by
  refine (runThread_ready (a := n) _ h (by rfl)).trans ?_
  rw [modThread_thread?_other d _ other.symm, absent]

theorem doThreadQuery_found {n : Nat} {x : Thread} (h : ReadyFor d th t (.threadQuery n)) (other : n ≠ th)
    (found : d.thread? n = some x) :
    doThreadQuery th d = if x.ident ≠ t.ident then finish (d.modThread th (fun _ => t.begun)) th .denied []
      else finish (d.modThread th (fun _ => t.begun)) th .ok
        (octets 1 (ThrState.num x.st) ++ octets 3 0 ++ (if x.st = .done then completionRecord n x else [])) := by
  refine (runThread_ready (a := n) _ h (by rfl)).trans ?_
  rw [modThread_thread?_other d _ other.symm, found]
  rfl

theorem doCompleteAck_ready {l : List Nat} (h : ReadyFor d th t (.completeAck l)) :
    doCompleteAck th d
      = freeThread (finish (each l (ackThread t.ident) (d.modThread th (fun _ => t.begun))) th .ok []) th :=
  runThread_ready (a := l) _ h (by rfl)

theorem doPolicyRead_ready {f n : Nat} (h : ReadyFor d th t (.policyRead f n)) :
    doPolicyRead th d = finish (d.modThread th (fun _ => t.begun)) th .ok
      (octets 2 d.ccp.epoch ++ octets 2 0 ++ ((List.range n).map (fun i =>
         match kfind d.ccp.policy (f + i) with | some p => policyOctets p | none => List.replicate 16 0)).flatten) :=
  runThread_ready (a := (f, n)) _ h (by rfl)

theorem doRegRead_ready {a n : Nat} (h : ReadyFor d th t (.regRead a n)) :
    doRegRead th d = finish (readRun (d.modThread th (fun _ => t.begun)) a n).2 th .ok
      (readRun (d.modThread th (fun _ => t.begun)) a n).1 :=
  runThread_ready (a := (a, n)) _ h (by rfl)

theorem doRegWrite_ready {l : List (Nat × Word)} (h : ReadyFor d th t (.regWrite l)) :
    doRegWrite th d = writePairs th 0 l (d.modThread th (fun _ => t.begun)) := runThread_ready (a := l) _ h (by rfl)

end

/-- COMPLETE_ACK frees the DONE threads of its identity that it names, and its own. -/
theorem doCompleteAck_frees {d : Dev} {th : Nat} {t : Thread} {l : List Nat} (h : ReadyFor d th t (.completeAck l)) :
    (doCompleteAck th d).thread? th = none ∧ ∀ n ∈ l, ∀ x, d.thread? n = some x → x.st = .done → x.ident = t.ident →
      (doCompleteAck th d).thread? n = none := by
  rw [doCompleteAck_ready h]
  refine ⟨freeThread_thread?_same .., fun n named x found done ident => freeThread_absent (finish_absent _ _ ?_)⟩
  have other : th ≠ n := by
    obtain ⟨_, own, ready, _⟩ := h
    rintro rfl; simp_all
  exact acks_named named ((modThread_thread?_other d _ other).trans found) done ident

/-- Settles O33: a READY thread's command runs on the device with the thread RUNNING (`runThread_ready`), and `finish` ends
that thread and settles the fences on it (`ended_threadsOnly`). -/
theorem queryAndRegisterCommands : Obligations.QueryAndRegisterCommands := by
  unfold Obligations.QueryAndRegisterCommands
  constructor
  · intro s dt th t e same a
    refine ⟨fun f n r => gives_run rfl ?_, fun r => gives_run rfl ?_, fun n f r => gives_run rfl ?_,
      fun n other r => ⟨fun absent => gives_run rfl ?_, fun x found => gives_run rfl ?_⟩,
      fun l r => gives_run rfl (doCompleteAck_frees r), fun f n r => gives_run rfl ?_⟩
    · rw [doPraInfo_ready r]
      have begun : (a.modThread th (fun _ => t.begun)).thread? th = some t.begun :=
        modThread_thread?_same _ (praDue_thread? e th ▸ r.2.1)
      exact ⟨finish_ended _ _ begun (by simp [Thread.begun]), .begin_finish ..⟩
    · rw [doHealthSummary_ready r]
      exact ended_threadsOnly r .ok _
    · rw [doHealthLog_ready r]
      exact ended_threadsOnly r .ok _
    · rw [doThreadQuery_absent r other absent]
      exact ended_threadsOnly r .ok _
    · rw [doThreadQuery_found r other found]
      split
      · exact (ended_threadsOnly r .denied _).symm
      · exact (ended_threadsOnly r .ok _).symm
    · rw [doPolicyRead_ready r]
      exact (ended_threadsOnly r .ok _).symm
  · intro s dt th t e b
    refine ⟨fun a n r => gives_run rfl ?_, fun a v r =>
      ⟨fun volatile kept => gives_run rfl ?_, fun w word => gives_run rfl ?_⟩⟩
    · rw [doRegRead_ready r]
      exact ⟨finish_ended _ _ ((readRun_thread? ..).trans r.begun) (by simp [Thread.begun]), .finish ..⟩
    · rw [doRegWrite_ready r, writePairs_volatile _ volatile]
      have running : t.begun.st ≠ .done := by simp [Thread.begun]
      split
      · exact ⟨.finish .., finish_ended _ _ kept running⟩
      · exact ⟨.finish .., finish_ended _ _ kept running⟩
    · rw [doRegWrite_ready r, writePairs_persistent _ word]
      have begun := modThread_thread?_same (fun u => { u with pairsLeft := [], pairsDone := 0 }) r.begun
      exact ⟨rfl, congrArg (Option.map (·.st)) begun, rfl, rfl⟩

end Sys2Proof.Machine
end

section
/-! PROOFS. Events, NOTICEs and the picker (O41). -/

namespace Sys2Proof.Machine

/-! ## STICKY cleared by ones -/

/-- Bit `j` of a write of EVT_STICKYw. -/
def Evt.clearBit (now w : Nat) (v : Word) (x : Evt) (j : Nat) : Evt := if bit v j then x.clearSticky now (32 * w + j) else x

theorem Evt.clearBit_sticky (now w : Nat) (v : Word) (x : Evt) (j : Nat) :
    (x.clearBit now w v j).sticky (32 * w + j)
      = (x.sticky (32 * w + j) && (!bit v j || (x.src (32 * w + j)).setAt == some now)) := by
  unfold clearBit; split
  next one => simp [Evt.sticky, clearSticky, one]
  next zero => simp [zero]

theorem Evt.clearBit_src_other {now w : Nat} {v : Word} {x : Evt} {j k : Nat} (h : 32 * w + j ≠ k) :
    (x.clearBit now w v j).src k = x.src k := by
  unfold clearBit; split
  · exact Evt.src_modSrc_other _ _ _ _ h
  · rfl

theorem Evt.clearBit_log (now w : Nat) (v : Word) (x : Evt) (j : Nat) : (x.clearBit now w v j).log = x.log := by
  unfold clearBit; split <;> rfl

theorem Evt.clearBits_log (now w : Nat) (v : Word) (l : List Nat) (x : Evt) :
    (l.foldl (clearBit now w v) x).log = x.log := by
  induction l generalizing x with
  | nil => rfl
  | cons j l ih => exact (ih _).trans (clearBit_log ..)

theorem Evt.clearBits_src_other {now w : Nat} {v : Word} {l : List Nat} {k : Nat} (x : Evt)
    (h : ∀ j ∈ l, 32 * w + j ≠ k) : (l.foldl (clearBit now w v) x).src k = x.src k := by
  induction l generalizing x with
  | nil => rfl
  | cons j l ih =>
    exact (ih _ fun i hi => h i (.tail _ hi)).trans (clearBit_src_other (h j (.head _)))

/-- Each bit acts on its own source. -/
theorem Evt.clearBits_sticky (now w : Nat) (v : Word) {l : List Nat} {j : Nat} (x : Evt) (distinct : l.Nodup)
    (hj : j ∈ l) : (l.foldl (clearBit now w v) x).sticky (32 * w + j)
      = (x.sticky (32 * w + j) && (!bit v j || (x.src (32 * w + j)).setAt == some now)) := by
  induction l generalizing x with
  | nil => simp at hj
  | cons i l ih =>
    obtain ⟨fresh, distinct⟩ := List.nodup_cons.1 distinct
    by_cases e : i = j
    · subst e
      have rest : ((i :: l).foldl (clearBit now w v) x).src (32 * w + i) = (x.clearBit now w v i).src (32 * w + i) :=
        clearBits_src_other _ fun k hk (same : 32 * w + k = 32 * w + i) => fresh (by rwa [Nat.add_left_cancel same] at hk)
      exact (congrArg SrcSt.sticky rest).trans (clearBit_sticky ..)
    · have first : (x.clearBit now w v i).src (32 * w + j) = x.src (32 * w + j) := clearBit_src_other (by omega)
      have later : j ∈ l := by simpa [Ne.symm e] using hj
      rw [List.foldl_cons, ih _ distinct later]
      simp only [Evt.sticky, first]

theorem writeSticky_eq (d : Dev) (w : Nat) (v : Word) :
    writeSticky d w v = { d with evt := (List.range 32).foldl (Evt.clearBit d.pwr.wall w v) d.evt } := by
  unfold writeSticky
  generalize List.range 32 = l
  induction l generalizing d with
  | nil => rfl
  | cons j l ih =>
    have first : (if bit v j then { d with evt := d.evt.clearSticky d.pwr.wall (32 * w + j) } else d)
        = { d with evt := d.evt.clearBit d.pwr.wall w v j } := by
      unfold Evt.clearBit; split <;> rfl
    exact (congrArg (each l _) first).trans (ih _)

/-- The address of EVT_STICKYw (R8). -/
theorem block?_evtSticky {w : Nat} (h : w < 16) : block? (0x800100 + 4 * w) = some (.evt, 0x100 + 4 * w) := by
  unfold block?
  repeat rw [if_neg (by omega)]
  rw [if_pos (by omega)]
  rw [show 0x800100 + 4 * w - 0x800000 = 0x100 + 4 * w by omega]

theorem index?_evtSticky {w : Nat} (h : w < 16) : index? (0x100 + 4 * w) 0x100 4 16 = some w := by
  unfold index?
  rw [if_pos (by omega)]
  congr 1; omega

theorem doEvtStickyClear_eq {d : Dev} {w : Nat} (v : Word) (h : w < 16) (runs : d.phase.fwRuns = true) :
    doEvtStickyClear (0x800100 + 4 * w) v d
      = { d with evt := (List.range 32).foldl (Evt.clearBit d.pwr.wall w v) d.evt, out := d.out ++ [.status .ok] } := by
  simp only [doEvtStickyClear, block?_evtSticky h, index?_evtSticky h, writeEvt, regRow, runs, writeSticky_eq]
  rfl

theorem doThrHwmClr_eq {d : Dev} {v : Word} (runs : d.phase.fwRuns = true) (clear : bit v 31 = true) :
    doThrHwmClr v d = (d.modCcp (fun c => { c with hwm := c.inUse })).emit (.status .ok) := by
  simp only [doThrHwmClr, regRow, writeThrHwm, runs, clear, if_true]

/-! ## NOTICE -/

theorem invoke_allowed {d : Dev} {s m u : Nat} (h : (invoke d s m u).1 = true) : invoke d s m u = (true, d) := by
  unfold invoke at h ⊢; dsimp only at h ⊢; split at h
  next ok => rw [if_pos ok]
  next => simp at h

/-- An identity that may encrypt has its packet sent, after the frame that carries it. -/
theorem ccpSend_sent {d : Dev} {i : Nat} {x : Identity} (dst : BitVec 128) (port : BitVec 16) (mk : Nat → Output)
    (known : kfind d.ccp.idents i = some x) (allowed : (invoke d x.skein masterCcp useEncrypt).1 = true) :
    (ccpSend d i dst port mk).2.out.drop (d.out.length + 1) = [mk (2 ^ 63 + (kgetD d.ccp.runs i {}).sent)]
    ∧ (ccpSend d i dst port mk).2.evt = d.evt := by
  have same : invoke d x.skein masterCcp useEncrypt = (true, d) := invoke_allowed allowed
  simp [ccpSend, known, same, ccpEmit, Dev.emit, Dev.modIdent]

theorem noticePacket_one {d : Dev} {l : LogEntry} {rest : List LogEntry} {x : Nat} {y : Identity}
    (known : kfind d.ccp.idents x = some y) (allowed : (invoke d y.skein masterCcp useEncrypt).1 = true)
    (short : (l :: rest).length ≤ 254) :
    (noticePacket (l :: rest) 1 0 (x, y) d 0).out.drop (d.out.length + 1)
      = [.notice y.addr y.port x (2 ^ 63 + (kgetD d.ccp.runs x {}).sent) l.index 0 (l :: rest)]
    ∧ (noticePacket (l :: rest) 1 0 (x, y) d 0).evt = d.evt := by
  have whole : ((l :: rest).drop (254 * 0)).take 254 = l :: rest := List.take_of_length_le short
  unfold noticePacket; rw [whole]
  exact ccpSend_sent _ _ _ known allowed

/-- Where every entry of the batch asks for a NOTICE and one packet holds it, one identity is sent one NOTICE. -/
theorem doNoticeSend_one {d : Dev} {l : LogEntry} {rest b : List LogEntry} {x : Nat} {y : Identity}
    (up : d.phase = .up) (past : l.slot ≠ d.whl.slot) (to_ : noticeIdents d = [(x, y)])
    (waiting : d.evt.log.reverse.filter (fun a => decide (d.evt.noticed ≤ a.index)) = l :: rest)
    (batch : (l :: rest).takeWhile (fun a => a.slot == l.slot) = b)
    (asked : ∀ a ∈ b, (d.evt.src a.src).noticeEn = true) (some : 1 ≤ b.length) (short : b.length ≤ 254) :
    doNoticeSend d = { noticePacket b 1 0 (x, y) d 0 with
      evt := { (noticePacket b 1 0 (x, y) d 0).evt with noticed := l.index + b.length } } := by
  have all : b.filter (fun a => (d.evt.src a.src).noticeEn) = b := List.filter_eq_self.2 asked
  have one : (min b.length 1016 + 253) / 254 = 1 := by omega
  have lost : b.length - 1016 = 0 := by omega
  have whole : b.take 1016 = b := List.take_of_length_le (by omega)
  unfold doNoticeSend
  simp [waiting, batch, all, to_, up, past, one, lost, whole, each]

/-! ## The picker -/

theorem endPass_counts (d : Dev) (m : ScrubMemory) :
    (endPass d m).glb.sramPass = (if m = .dram then d.glb.sramPass else inc32 d.glb.sramPass)
    ∧ (endPass d m).glb.dramPass = (if m = .dram then inc32 d.glb.dramPass else d.glb.dramPass)
    ∧ (endPass d m).glb.corr = d.glb.corr := by
  simp [endPass]

theorem scrubUncorr_sticky {d : Dev} (addr : BitVec 32) (h : d.phase.fwRuns = true) :
    (scrubUncorr d addr).evt.sticky evScrubUncorr = true := report_sticky _ _ _ h

theorem scrubUncorr_glb (d : Dev) (addr : BitVec 32) : (scrubUncorr d addr).glb = d.glb :=
  (scrubUncorr_only d addr rfl (.refl [.free, .start, .evt] _)).same .glb (by decide)

theorem scrubUncorr_ccp (d : Dev) (addr : BitVec 32) : (scrubUncorr d addr).ccp = d.ccp :=
  (scrubUncorr_only d addr rfl (.refl [.free, .start, .evt] _)).same .ccp (by decide)

section
variable {d : Dev} (m : ScrubMemory) (t : ScrubTarget) (addr : BitVec 32) (runs : d.phase.ctrlRuns = true)
include runs

theorem doPickerScan_clean : doPickerScan m t addr .clean false d = d := by
  simp [doPickerScan, runs]

theorem doPickerScan_end : doPickerScan m t addr .clean true d = endPass d m := by
  simp [doPickerScan, runs]

theorem doPickerScan_correctable : doPickerScan m t addr .correctable false d = d.modGlb (fun g =>
    { g with corr := inc32 g.corr, passCorr := g.passCorr.set (ScrubMemory.num m) (g.passCorr.get (ScrubMemory.num m) + 1) }) := by
  simp [doPickerScan, runs]

theorem doPickerScan_uncorrectable : doPickerScan m t addr .uncorrectable false d
    = uncorrectable (d.modGlb (fun g => { g with uncorr := inc32 g.uncorr })) addr t := by
  simp [doPickerScan, runs]

end

/-- Settles O41: STICKY is cleared bit by bit, each bit on its own source (`Evt.clearBits_sticky`); a NOTICE of one packet is
`ccpSend`'s one output; and a scan is its result's action, followed at a pass's end by `endPass`. -/
theorem eventsAndPicker : Obligations.EventsAndPicker := by
  unfold Obligations.EventsAndPicker
  intro s dt v e
  refine ⟨fun runs => ⟨fun w hw => gives_run rfl ?_, fun clear => gives_run rfl ?_⟩, ?_, fun runs =>
    ⟨fun m tgt addr => ⟨gives_run rfl (doPickerScan_clean m tgt addr runs), gives_run rfl ?_, gives_run rfl ?_⟩,
      fun m addr => ⟨gives_run rfl ?_, fun i p found => gives_run rfl ?_⟩⟩⟩
  · rw [doEvtStickyClear_eq v hw runs]
    exact ⟨rfl, fun j hj => Evt.clearBits_sticky _ w v _ List.nodup_range (List.mem_range.2 hj),
      fun k out => Evt.clearBits_src_other _ fun j hj => by have := List.mem_range.1 hj; omega,
      Evt.clearBits_log ..⟩
  · rw [doThrHwmClr_eq runs clear]; rfl
  · intro l rest x y wait batch up waiting past to_ short asked known allowed
    have batch_eq : batch = l :: rest.takeWhile (fun a => a.slot == l.slot) := by
      simp [batch, waiting]
    obtain ⟨sent, evt⟩ := noticePacket_one (l := l) known allowed (batch_eq ▸ short)
    refine gives_run rfl ?_
    rw [doNoticeSend_one up past to_ waiting (b := batch) (by rw [← waiting]) asked (by simp [batch_eq]) short, batch_eq]
    exact ⟨sent, by rw [evt]⟩
  · rw [doPickerScan_end m tgt addr runs]
    obtain ⟨sram, dram, corr⟩ := endPass_counts e m
    exact ⟨sram, dram, corr, watch_wrp .., watch_ccp .., watch_dst ..⟩
  · rw [doPickerScan_correctable m tgt addr runs]
    exact ⟨rfl, rfl, rfl⟩
  · rw [doPickerScan_uncorrectable m _ addr runs, uncorrectable]
    exact ⟨by rw [scrubUncorr_glb]; rfl, by rw [scrubUncorr_glb]; rfl, fun fw => scrubUncorr_sticky addr fw⟩
  · rw [doPickerScan_uncorrectable m _ addr runs, uncorrectable, scrubUncorr_ccp]
    exact ⟨kfind_kadj_same _ found, fun k ne => kfind_kadj_other _ _ ne.symm⟩

end Sys2Proof.Machine
end

section
/-! PROOFS. Bobbins and their registers (O11). The laws of one bobbin come first (R25 to R33); `Dev.modBob` then carries each
to the device, where no other bobbin changes. -/

namespace Sys2Proof.Machine

/-! ## A word reaches a bobbin -/

section
variable {x : Bobbin} {b : Nat} (now : Nat) (w : BitVec 72) (taking : x.discard = false)
include taking

theorem Bobbin.put_room (open_ : x.flush = false) (room : x.full b = false) (free : x.waiting = []) :
    x.put b now w = { x with
      words := x.words ++ [w], wrote := x.wrote + 1, newW := x.newW ++ [now], inPkt := !wordEop w,
      ends := if wordEop w then x.ends ++ [x.wrote + 1] else x.ends } := by
  simp [put, taking, open_, room, free]

theorem Bobbin.put_held (open_ : x.flush = false) (full : x.full b = true) (controlled : bobFree b = false) :
    x.put b now w = { x with waiting := x.waiting ++ [w] } := by
  simp [put, taking, open_, full, controlled]

theorem Bobbin.put_lost (open_ : x.flush = false) (full : x.full b = true) (running : bobFree b = true) :
    x.put b now w = { x with discard := !wordEop w, inPkt := !wordEop w, dropped := add32 x.dropped 1, overflow := true,
                             overAt := some now } := by
  simp [put, taking, open_, full, running]

theorem Bobbin.put_flushed (flushing : x.flush = true) :
    x.put b now w = { x with discard := !wordEop w, inPkt := !wordEop w, dropped := add32 x.dropped 1 } := by
  simp [put, taking, flushing]

end

/-! ## AFULL_MARK moves no word -/

def Bobbin.withMark (x : Bobbin) (m : Option Nat) : Bobbin := { x with mark := m }

theorem Bobbin.put_withMark (b now : Nat) (x : Bobbin) (m : Option Nat) (w : BitVec 72) :
    (x.withMark m).put b now w = (x.put b now w).withMark m := by
  have full : (x.withMark m).full b = x.full b := rfl
  simp only [put, full, apply_ite (withMark · m)]
  rfl

theorem Bobbin.pump_withMark (b now : Nat) (x : Bobbin) (m : Option Nat) :
    (x.withMark m).pump b now = (x.pump b now).withMark m := by
  have puts (l : List (BitVec 72)) (y : Bobbin) : l.foldl (put b now) (y.withMark m) = (l.foldl (put b now) y).withMark m := by
    induction l generalizing y with
    | nil => rfl
    | cons w l ih => rw [List.foldl_cons, put_withMark, ih, List.foldl_cons]
  exact puts x.waiting { x with waiting := [] }

theorem Bobbin.at_withMark (b now : Nat) (x : Bobbin) (m : Option Nat) :
    (x.withMark m).at_ b now = (x.at_ b now).withMark m := pump_withMark b now (x.settle b now) m

/-! ## A flush of a bobbin whose reader has been shown every word -/

theorem Bobbin.flushStart_shown {x : Bobbin} (idle : x.flush = false) (shown : x.sawW = x.wrote)
    (ended : ∀ n ∈ x.ends, n ≤ x.sawW) :
    x.flushStart.words = [] ∧ x.flushStart.flush = true ∧ x.flushStart.mark = x.mark
      ∧ x.flushStart.dropped = add32 x.dropped (x.ends.length + b2n (x.inPkt && !x.discard)) := by
  have all : x.ends.filter (fun n => decide (n ≤ x.sawW)) = x.ends := List.filter_eq_self.2 (by simpa using ended)
  have none_ : x.ends.filter (fun n => decide (x.sawW < n)) = [] :=
    List.filter_eq_nil_iff.2 (by simpa using ended)
  have stop : x.ends.getLast?.getD x.sawW ≤ x.sawW := by
    cases h : x.ends.getLast? with
    | none => exact Nat.le_refl _
    | some n => exact ended n (List.mem_of_getLast? h)
  have last : (if (x.inPkt && !x.discard) = true then max x.sawW (x.ends.getLast?.getD x.sawW) else x.wrote) = x.sawW := by
    split
    · exact Nat.max_eq_left stop
    · exact shown.symm
  simp only [flushStart, idle, Bool.false_eq_true, if_false, none_, List.head?_nil, Option.getD_none, ite_self, last, all,
    List.drop_take_self, and_self]

/-! ## One bobbin of the device -/

@[simp] theorem Dev.modBob_get_same (d : Dev) (b : Nat) (f : Bobbin → Bobbin) :
    (d.modBob b f).bob.get b = f (d.bob.get b) := kgetD_ksetD_same ..

theorem Dev.modBob_get_other (d : Dev) {b k : Nat} (f : Bobbin → Bobbin) (h : k ≠ b) :
    (d.modBob b f).bob.get k = d.bob.get k := kgetD_ksetD_other _ _ _ _ _ _ h.symm

theorem frameIn_bob (d : Dev) (n : Fin 4) (l : List (BitVec 72)) (poison : Bool) : (frameIn d n l poison).bob = d.bob :=
  (frameIn_only d n l poison rfl (.refl [.spn, .wrp] _)).same .bob (by decide)

theorem keepCrossing_bob (d : Dev) (b : Nat) : (keepCrossing d b).bob = d.bob :=
  (keepCrossing_only d b rfl (.refl [.spn] _)).same .bob (by decide)

theorem flushBobbin_bob (d : Dev) (b : Nat) :
    (flushBobbin d b).bob = (d.modBob b (fun x => (x.at_ b d.pwr.wall).flushStart)).bob := keepCrossing_bob ..

theorem flushBobbin_out (d : Dev) (b : Nat) : (flushBobbin d b).out = d.out :=
  (flushBobbin_only d b rfl (.refl [.spn, .bob] _)).same .out (by decide)

/-! ## Writing -/

section
variable {d : Dev} {b : Fin 26} (w : BitVec 72) {seen : Nat} {x : Bobbin}
  (found : (((d.bob.get b).at_ b d.pwr.wall).showR seen).pump b d.pwr.wall = x)
include found

theorem doBobbinWordWrite_quiet (quiet : (bobFree b && x.full b && !x.flush && !x.discard) = false) :
    doBobbinWordWrite b w seen d = d.modBob b (fun _ => x.put b d.pwr.wall w) := by
  simp [doBobbinWordWrite, found, quiet]

theorem doBobbinWordWrite_overflow (running : bobFree b = true) (full : x.full b = true) (open_ : x.flush = false)
    (taking : x.discard = false) :
    doBobbinWordWrite b w seen d = report (d.modBob b (fun _ => x.put b d.pwr.wall w)) evBobOverflow [] := by
  simp [doBobbinWordWrite, found, running, full, open_, taking]

end

/-! ## Reading -/

/-- The end of a packet at the reader changes of the bobbins only the count of poisoned packets. -/
theorem packetOut_keeps (d : Dev) (b : Nat) (l : List (BitVec 72)) :
    (∃ n, (packetOut d b l).bob.get b = { d.bob.get b with poisoned := n })
    ∧ (∀ k, k ≠ b → (packetOut d b l).bob.get k = d.bob.get k) := by
  have frame : (packetOut d b l).bob
      = (if l.any wordPoison then d.modBob b (fun x => { x with poisoned := inc32 x.poisoned }) else d).bob := by
    unfold packetOut; dsimp only
    cases spindle? b with
    | none => rfl
    | some n => exact frameIn_bob ..
  rw [frame]; split
  · exact ⟨⟨_, Dev.modBob_get_same ..⟩, fun k other => Dev.modBob_get_other _ _ other⟩
  · exact ⟨⟨_, rfl⟩, fun _ _ => rfl⟩

theorem packetOut_out (d : Dev) (b : Nat) (l : List (BitVec 72)) : (packetOut d b l).out = d.out :=
  (packetOut_only d b l rfl (.refl [.spn, .wrp, .bob] _)).same .out (by decide)

/-- From `a` to `c` bobbin `b` becomes `y` but for its count of poisoned packets, and no other bobbin changes and nothing
is sent. -/
structure Reads (a : Dev) (b : Nat) (y : Bobbin) (c : Dev) : Prop where
  here : ∃ n, c.bob.get b = { y with poisoned := n }
  others : ∀ k, k ≠ b → c.bob.get k = a.bob.get k
  out : c.out = a.out

theorem Reads.modBob (d : Dev) (b : Nat) (y : Bobbin) : Reads d b y (d.modBob b (fun _ => y)) :=
  ⟨⟨_, Dev.modBob_get_same ..⟩, fun _ other => Dev.modBob_get_other _ _ other, rfl⟩

theorem Reads.report {a d : Dev} {b : Nat} {y : Bobbin} (h : Reads a b y d) (e : Nat) (l : List Byte) :
    Reads a b y (report d e l) :=
  ⟨by simpa using h.here, by simpa using h.others, by simpa using h.out⟩

/-- Where the word that was read ends a packet, the packet goes on to its consumer. -/
theorem Reads.packetOut {a d : Dev} {b : Nat} {y : Bobbin} (h : Reads a b y d) (eop : Bool) (l : List (BitVec 72)) :
    Reads a b y (if eop then packetOut d b l else d) := by
  split
  · obtain ⟨⟨n, here⟩, others⟩ := packetOut_keeps d b l
    obtain ⟨m, now⟩ := h.here
    exact ⟨⟨n, by rw [here, now]⟩, fun k other => (others k other).trans (h.others k other), (packetOut_out ..).trans h.out⟩
  · exact h

section
variable {d : Dev} {b : Nat} {flip w : BitVec 72} {rest : List (BitVec 72)} (head : (d.bob.get b).words = w :: rest)
  (open_ : (d.bob.get b).flush = false) (shown : (d.bob.get b).empty = false) (psb : psbOk (w ^^^ flip) = true)
include head open_ shown psb

theorem takeWord_good (good : phiOk (w ^^^ flip) = true ∧ ploOk (w ^^^ flip) = true) :
    (takeWord b flip d).1 = some (w ^^^ flip) ∧ ∃ y : Bobbin, Reads d b y (takeWord b flip d).2 ∧ y.words = rest
      ∧ y.took = (d.bob.get b).took + 1 ∧ y.parCount = (d.bob.get b).parCount := by
  obtain ⟨phi, plo⟩ := good
  simp only [takeWord, head, open_, shown, psb, phi, plo, Bool.or_self, Bool.and_self, Bool.not_true, Bool.false_eq_true,
    if_false, if_true]
  exact ⟨trivial, _, (Reads.modBob ..).packetOut .., rfl, rfl, rfl⟩

theorem takeWord_bad (bad : (phiOk (w ^^^ flip) && ploOk (w ^^^ flip)) = false) :
    (takeWord b flip d).1 = some (poisonWord false (w ^^^ flip)) ∧ ∃ y : Bobbin, Reads d b y (takeWord b flip d).2
      ∧ y.words = rest ∧ y.took = (d.bob.get b).took + 1 ∧ y.par = true
      ∧ y.parCount = sat 0xFFFF ((d.bob.get b).parCount + 1) := by
  simp only [takeWord, head, open_, shown, psb, bad, Bool.or_self, Bool.not_false, Bool.false_eq_true,
    if_false, if_true]
  exact ⟨trivial, _, ((Reads.modBob ..).report ..).packetOut .., rfl, rfl, rfl, rfl⟩

end

theorem takeWord_empty {d : Dev} {b : Nat} (flip : BitVec 72) (empty : (d.bob.get b).empty = true) :
    takeWord b flip d = (none, d) := by
  unfold takeWord; dsimp only
  split
  · rfl
  · simp [empty]

theorem doBobbinWordRead_none {b : Fin 26} {flip : BitVec 72} {seen : Nat} {d a : Dev}
    (h : takeWord b flip (d.modBob b (fun x => (x.at_ b d.pwr.wall).showW seen)) = (none, a)) :
    doBobbinWordRead b flip seen d = a := by
  simp [doBobbinWordRead, h]

theorem doBobbinWordRead_some {b : Fin 26} {flip v : BitVec 72} {seen : Nat} {d : Dev}
    (h : (takeWord b flip (d.modBob b (fun x => (x.at_ b d.pwr.wall).showW seen))).1 = some v) :
    doBobbinWordRead b flip seen d
      = (takeWord b flip (d.modBob b (fun x => (x.at_ b d.pwr.wall).showW seen))).2.emit (.word b v) := by
  unfold doBobbinWordRead; dsimp only
  split
  next h' => simp [h'] at h
  next h' => simp only [h', Option.some.injEq] at h; rw [h', h]

/-! ## Registers -/

section
variable {d : Dev} {b : Fin 26} {v : Word} (runs : d.phase.fwRuns = true)
include runs

theorem doBobbinFlushWrite_range (out_ : fld v 12 0 = 0 ∨ bobDepth b < fld v 12 0) :
    doBobbinFlushWrite b v d = d.emit (.status .range) := by
  simp [doBobbinFlushWrite, regRow_runs _ _ runs, writeBobCtrl, out_]

theorem doBobbinFlushWrite_mark (low : 0 < fld v 12 0) (high : fld v 12 0 ≤ bobDepth b) :
    ∃ m : Option Nat, (∀ x : Bobbin, (x.withMark m).markOf b = fld v 12 0) ∧ doBobbinFlushWrite b v d
      = (if bit v 31 then flushBobbin (d.modBob b (·.withMark m)) b else d.modBob b (·.withMark m)).emit (.status .ok) := by
  refine ⟨if fld v 12 0 = bobDepth b * 3 / 4 then none else some (fld v 12 0), fun x => ?_, ?_⟩
  · simp only [Bobbin.markOf, Bobbin.withMark]
    split
    next default_ => exact default_.symm
    next => rfl
  · have ok : ¬ (fld v 12 0 = 0 ∨ bobDepth b < fld v 12 0) := by omega
    simp only [doBobbinFlushWrite, regRow_runs _ _ runs, writeBobCtrl, ok, if_false]
    rfl

theorem doBobErrClear_eq : doBobErrClear b v d = (writeBobErr d b v).1.emit (.status .ok) := regRow_runs _ _ runs

theorem doBobHwmClr_eq (one : bit v 31 = true) : doBobHwmClr b v d
    = (d.modBob b (fun x => { x.at_ b d.pwr.wall with hwm := (x.at_ b d.pwr.wall).fill })).emit (.status .ok) := by
  simp [doBobHwmClr, regRow_runs _ _ runs, writeBobHwm, one]

end

/-- Settles O11: `Bobbin.put` says where a word written goes, `takeWord` what a word read does to its bobbin (`Reads`), and a
flush, with every word shown, leaves none (`Bobbin.flushStart_shown`). -/
theorem bobbinsAndTheirRegisters : Obligations.BobbinsAndTheirRegisters := by
  unfold Obligations.BobbinsAndTheirRegisters
  constructor
  · intro s dt seen b w e others
    have bob : s.dev.bob = e.bob := by simp [e]
    have other (f : Bobbin → Bobbin) : others (e.modBob b f) := fun k ne => by rw [bob]; exact Dev.modBob_get_other _ _ ne
    constructor
    · intro x taking
      have found : (((e.bob.get b).at_ b e.pwr.wall).showR seen).pump b e.pwr.wall = x := by rw [← bob]
      refine ⟨fun open_ room free => gives_run rfl ?_, fun open_ full controlled => gives_run rfl ?_,
        fun open_ full running => gives_run rfl ?_, fun flushing => gives_run rfl ?_⟩
      · rw [doBobbinWordWrite_quiet w found (by simp [room]), Bobbin.put_room _ w taking open_ room free,
          Dev.modBob_get_same]
        exact ⟨rfl, rfl, rfl, other _, rfl⟩
      · rw [doBobbinWordWrite_quiet w found (by simp [controlled]), Bobbin.put_held _ w taking open_ full controlled,
          Dev.modBob_get_same]
        exact ⟨rfl, rfl, other _, rfl⟩
      · rw [doBobbinWordWrite_overflow w found running full open_ taking, Bobbin.put_lost _ w taking open_ full running,
          report_bob, Dev.modBob_get_same]
        exact ⟨rfl, rfl, rfl, rfl, by simpa [others] using other _, fun fw => report_sticky _ _ _ fw⟩
      · rw [doBobbinWordWrite_quiet w found (by simp [flushing]), Bobbin.put_flushed _ w taking flushing,
          Dev.modBob_get_same]
        exact ⟨rfl, rfl, other _, rfl⟩
    · intro x flip
      have here : (e.modBob b (fun x => (x.at_ b e.pwr.wall).showW seen)).bob.get b = x := by
        rw [Dev.modBob_get_same, ← bob]
      refine ⟨fun rest => ?_, fun empty => gives_run rfl ?_⟩
      · intro v head open_ shown psb
        refine ⟨fun phi plo => gives_run rfl ?_, fun bad => gives_run rfl ?_⟩
        · obtain ⟨word, z, ⟨⟨n, now⟩, rest_, out⟩, words, took, count⟩ :=
            takeWord_good (here.symm ▸ head) (here.symm ▸ open_) (here.symm ▸ shown) psb ⟨phi, plo⟩
          rw [doBobbinWordRead_some word, Dev.emit_bob, now, Dev.emit_out, out]
          rw [here] at took count
          exact ⟨words, took, count, rfl, fun k ne => (rest_ k ne).trans (other _ k ne)⟩
        · obtain ⟨word, z, ⟨⟨n, now⟩, rest_, out⟩, words, took, par, count⟩ :=
            takeWord_bad (here.symm ▸ head) (here.symm ▸ open_) (here.symm ▸ shown) psb bad
          rw [doBobbinWordRead_some word, Dev.emit_bob, now, Dev.emit_out, out]
          rw [here] at took count
          exact ⟨words, took, par, count, rfl, fun k ne => (rest_ k ne).trans (other _ k ne)⟩
      · rw [doBobbinWordRead_none (takeWord_empty flip (here.symm ▸ empty))]
        exact ⟨here, other _, rfl⟩
  · intro s dt b v e y x others
    have bob : s.dev.bob = e.bob := by simp [e]
    have own : e.bob.get b = y := by rw [← bob]
    have other (f : Bobbin → Bobbin) : others (e.modBob b f) := fun k ne => by rw [bob]; exact Dev.modBob_get_other _ _ ne
    have answered (f : Bobbin → Bobbin) (o : Output) : others ((e.modBob b f).emit o) := other f
    refine ⟨fun fw => ?_, fun flushing => gives_run rfl ?_⟩
    · have runs : e.phase.fwRuns = true := by simpa [e] using fw
      refine ⟨fun low high => ?_, fun out_ => gives_run rfl ?_, fun one late => gives_run rfl ?_,
        fun one par now => gives_run rfl ?_, fun one => gives_run rfl ?_⟩
      · obtain ⟨m, mark, eq⟩ := doBobbinFlushWrite_mark runs low high
        refine ⟨fun zero => gives_run rfl ?_, fun one idle shown ended => gives_run rfl ?_⟩
        · rw [eq, zero, if_neg (by decide), Dev.emit_bob, Dev.modBob_get_same, own]
          exact ⟨mark _, rfl, rfl, rfl, answered _ _⟩
        · obtain ⟨words, flush, kept, dropped⟩ := Bobbin.flushStart_shown (x := x.withMark m) idle shown
            fun n hn => of_decide_eq_true (List.all_eq_true.1 ended n hn)
          have after : (flushBobbin (e.modBob b (·.withMark m)) b).bob.get b = (x.withMark m).flushStart := by
            rw [flushBobbin_bob, Dev.modBob_get_same, Dev.modBob_get_same, Bobbin.at_withMark, own]; rfl
          rw [eq, if_pos one, Dev.emit_bob, after]
          refine ⟨words, flush, ?_, dropped, ?_, fun k ne => ?_⟩
          · rw [← mark x, Bobbin.markOf, kept]; rfl
          · rw [Dev.emit_out, flushBobbin_out]; rfl
          · rw [Dev.emit_bob, flushBobbin_bob, Dev.modBob_get_other _ _ ne]
            exact other _ k ne
      · rw [doBobbinFlushWrite_range runs out_]; rfl
      · rw [doBobErrClear_eq runs, Dev.emit_bob, writeBobErr, Dev.modBob_get_same, own]
        refine ⟨?_, ?_, rfl, rfl, answered _ _⟩ <;> simp [w1c, one, late, b2n]
      · rw [doBobErrClear_eq runs, Dev.emit_bob, writeBobErr, Dev.modBob_get_same, own]
        refine ⟨?_, ?_, rfl, answered _ _⟩ <;> simp [w1c, one, par, now, b2n]
      · rw [doBobHwmClr_eq runs one, Dev.emit_bob, Dev.modBob_get_same, own]
        exact ⟨rfl, rfl, rfl, answered _ _⟩
    · rw [doBobbinFlushComplete, Dev.modBob_get_same, own, if_pos flushing]
      exact ⟨rfl, rfl, other _, rfl⟩

end Sys2Proof.Machine
end

section
/-! PROOFS. Egress of the CPU port, generated flow control, and links (O43). -/

namespace Sys2Proof.Machine

/-! ## What an operation sends stays sent -/

theorem fcLeave_out (d : Dev) (p : Port) (f : FcFrame) :
    (fcLeave d p f).out = d.out ++ [.macCtl (p == .bh1) f.ctl f.octets_] := by
  simp [fcLeave]

theorem sendFc_out (d : Dev) (p : Port) (l : KMap Nat) : d.out <+: (sendFc d p l).out := by
  unfold sendFc; dsimp only; split
  · exact List.prefix_rfl
  · split
    · exact fcLeave_out d p _ ▸ List.prefix_append ..
    · simp

theorem fcEvalPort_out (d : Dev) (p : Port) : d.out <+: (fcEvalPort d p).out := by
  unfold fcEvalPort; dsimp only; split
  · exact (by simp : d.out <+: _).trans (sendFc_out ..)
  · exact List.prefix_rfl

theorem bufEval_out (d : Dev) : d.out <+: (bufEval d).out := by
  have first := fcEvalPort_out (bufWatch d) .bh0
  rw [bufWatch_out] at first
  rw [bufEval, xoffWatch_out]
  exact first.trans (fcEvalPort_out ..)

/-! ## Ports and the parts of the device they stand in -/

theorem Dev.qport_que {a b : Dev} (h : b.que = a.que) (p : Port) : b.qport p = a.qport p := by
  cases p <;> simp [Dev.qport, h]

/-- The shuttle's links and its active bank. -/
def Sht.steady (s : Sht) : Bool × Bool × Bool × Bank := (s.link0, s.link1, s.linkp, s.bank)

theorem Sht.bank_of_steady {s t : Sht} (h : t.steady = s.steady) : t.bank = s.bank := congrArg (·.2.2.2) h

theorem Dev.linkUp_of_steady {a b : Dev} (h : b.sht.steady = a.sht.steady) (p : Port) : b.linkUp p = a.linkUp p := by
  simp only [Sht.steady, Prod.mk.injEq] at h
  obtain ⟨link0, link1, linkp, -⟩ := h
  cases p <;> simp [Dev.linkUp, link0, link1, linkp]

/-- The shuttle with the link of a port set. -/
def Sht.withLink (s : Sht) (p : Port) (up : Bool) : Sht :=
  match p with
  | .bh0 => { s with link0 := up }
  | .bh1 => { s with link1 := up }
  | .plk => { s with linkp := up }
  | .mesh | .cpu => s

theorem Sht.withLink_bank (s : Sht) (p : Port) (up : Bool) : (s.withLink p up).bank = s.bank := by cases p <;> rfl

theorem Sht.withLink_queues (s : Sht) (p : Port) (up : Bool) : (s.withLink p up).queues = s.queues := by cases p <;> rfl

theorem Dev.linkUp_withLink_same (d : Dev) {p : Port} (line : hasLine p = true) (up : Bool) :
    (d.modSht (·.withLink p up)).linkUp p = up := by
  cases p
  case mesh | cpu => cases line
  all_goals rfl

theorem Dev.linkUp_withLink_other (d : Dev) {p q : Port} (other : p ≠ q) (up : Bool) :
    (d.modSht (·.withLink p up)).linkUp q = d.linkUp q := by
  cases p <;> cases q <;> first | rfl | exact absurd rfl other

theorem Dev.withLink_present {d : Dev} {p : Port} {up : Bool} (h : d.linkUp p = up) : d.sht.withLink p up = d.sht := by
  subst h; cases p <;> rfl

/-! ## A transmitter that is busy, and a generated frame that waits -/

theorem txFree_busy {d : Dev} {p : Port} (line : hasLine p = true) (busy : d.whl.time < (d.qport p).freeAt) :
    txFree d p = false := by
  cases p
  case mesh | cpu => cases line
  all_goals simp [txFree, busy]

theorem doEgressSelect_busy {d : Dev} {p : Port} (busy : txFree d p = false) : doEgressSelect p d = d := by
  simp [doEgressSelect, busy]

theorem txFree_freeAt {d : Dev} {p : Port} (line : hasLine p = true) (free : txFree d p = true) :
    (d.qport p).freeAt ≤ d.whl.time := by
  by_contra busy
  rw [txFree_busy line (Nat.lt_of_not_le busy)] at free
  cases free

theorem lineNs_fcLine_pos (d : Dev) (p : Port) : 0 < d.lineNs p fcLine := by
  unfold Dev.lineNs fcLine; split <;> omega

theorem fcLeave_freeAt (d : Dev) (p : Port) (f : FcFrame) :
    ((fcLeave d p f).qport p).freeAt = d.whl.time + d.lineNs p fcLine :=
  congrArg QPort.freeAt ((Dev.qport_que rfl p).trans (Dev.qport_modQport_same ..))

/-- Frame `f` is the first of the generated frames that wait at port `p`, whose transmitter is busy until `t`. -/
structure FcWaits (d : Dev) (p : Port) (f : FcFrame) (t : Nat) : Prop where
  first : ∃ r, (d.qport p).fcq = f :: r
  freeAt : (d.qport p).freeAt = t

section
variable {d : Dev} {p : Port} {f : FcFrame} {t : Nat}

theorem FcWaits.of_qport {e : Dev} (h : FcWaits d p f t) (same : e.qport p = d.qport p) : FcWaits e p f t :=
  ⟨same ▸ h.first, same ▸ h.freeAt⟩

theorem FcWaits.modQport (h : FcWaits d p f t) (r : Port) {g : QPort → QPort} (more : ∀ q, q.fcq <+: (g q).fcq)
    (freeAt : ∀ q, (g q).freeAt = q.freeAt) : FcWaits (d.modQport r g) p f t := by
  by_cases same : r = p
  · subst same
    obtain ⟨l, first⟩ := h.first
    obtain ⟨k, rest⟩ := more (d.qport r)
    exact ⟨⟨l ++ k, by simp [← rest, first]⟩, by simp [freeAt, h.freeAt]⟩
  · exact h.of_qport (Dev.qport_modQport_other _ _ _ _ same)

/-- A frame waits, so another one waits behind it. -/
theorem FcWaits.sendFc (h : FcWaits d p f t) (r : Port) (l : KMap Nat) : FcWaits (sendFc d r l) p f t := by
  unfold Machine.sendFc; dsimp only; split
  · exact h
  · split
    next now =>
      have other : r ≠ p := by
        rintro rfl
        obtain ⟨k, first⟩ := h.first
        simp [first] at now
      exact h.of_qport ((Dev.qport_que rfl p).trans (Dev.qport_modQport_other _ _ _ _ other))
    next => exact h.modQport r (fun q => List.prefix_append ..) (fun _ => rfl)

theorem FcWaits.fcEvalPort (h : FcWaits d p f t) (r : Port) : FcWaits (fcEvalPort d r) p f t := by
  unfold Machine.fcEvalPort; dsimp only; split
  · refine FcWaits.sendFc (FcWaits.modQport h r ?_ ?_) ..
    · exact fun _ => List.prefix_rfl
    · exact fun _ => rfl
  · exact h

theorem FcWaits.bufEval (h : FcWaits d p f t) : FcWaits (bufEval d) p f t :=
  (((h.of_qport (bufWatch_qport d p)).fcEvalPort .bh0).fcEvalPort .bh1).of_qport (xoffWatch_qport _ p)

end

/-- A selection sends the generated frame that waits first, and then the transmitter is busy. -/
theorem doEgressSelect_fc {d : Dev} {p : Port} {f : FcFrame} {r : List FcFrame} (line : hasLine p = true)
    (runs : d.phase.fwRuns = true) (free : txFree d p = true) (waits : (d.qport p).fcq = f :: r) :
    ∃ x : Dev, doEgressSelect p d = fcLeave x p f ∧ x.sht = d.sht ∧ x.whl = d.whl ∧ x.ply = d.ply := by
  have settled : FcWaits (bufEval (d.modQport p (fun q => { q with sending := none }))) p f (d.qport p).freeAt := by
    refine (FcWaits.modQport ⟨⟨r, waits⟩, rfl⟩ p ?_ ?_).bufEval
    · exact fun _ => List.prefix_rfl
    · exact fun _ => rfl
  obtain ⟨⟨k, first⟩, freeAt⟩ := settled
  generalize eval : bufEval (d.modQport p (fun q => { q with sending := none })) = a at first freeAt
  have whl : a.whl = d.whl := by simp [← eval]
  have now : (a.qport p).freeAt ≤ a.whl.time := by rw [freeAt, whl]; exact txFree_freeAt line free
  have next : fcNext a p = fcLeave (a.modQport p (fun q => { q with fcq := k })) p f := by simp [fcNext, first, now]
  have busy : txFree (fcLeave (a.modQport p (fun q => { q with fcq := k })) p f) p = false := by
    refine txFree_busy line ?_
    rw [fcLeave_freeAt, fcLeave_whl]
    exact Nat.lt_add_of_pos_right (lineNs_fcLine_pos _ p)
  refine ⟨a.modQport p (fun q => { q with fcq := k }), ?_, by simp [← eval], by simp [whl], by simp [← eval]⟩
  simp only [doEgressSelect, runs, free, line, and_self, if_true, eval, next, busy, Bool.false_eq_true, if_false]

/-! ## Selection among the strict queues (R242) -/

theorem selectQueue_strict {d : Dev} {p : Port} {c : Nat} (shaper : (d.qport p).shaper.en = false) (strict : c < 4)
    (above : ∀ j, j < c → d.queue p j = []) (may : eligible d p c = true) : selectQueue d p = some c := by
  have allows : (d.qport p).shaper.allows d.whl.time = true := by simp [Bucket.allows, shaper]
  have no (j : Nat) (h : j < c) : eligible d p j = false := by simp [eligible, above j h]
  have first : [0, 1, 2, 3].find? (eligible d p) = some c := by
    interval_cases c <;> simp_all
  simp only [selectQueue, allows, if_true, first]

theorem eligible_cpu {d : Dev} {c : Nat} {k : QPkt} {rest : List QPkt} (shaper : (d.que.p4.shaperOf c).en = false)
    (head : d.queue .cpu c = k :: rest) (whole : k.whole = true) : eligible d .cpu c = true := by
  have shaper' : ((d.qport .cpu).shaperOf c).en = false := shaper
  simp [eligible, head, QPkt.ready, whole, Bucket.allows, shaper', hasLine, isBh]

/-! ## The CPU port (R242, R265) -/

/-- The device as the packet at the head of queue (CPU, `c`) leaves it. -/
def leftCpu (d : Dev) (c : Nat) (k : QPkt) (rest : List QPkt) : Dev :=
  ((d.setQueue .cpu c rest).modQport .cpu (fun q => startQueue q c (shapedLen (d.qport .cpu) k) d.whl.time)).emit
    (.egress .cpu c k.p)

theorem selectLoop_cpu {d : Dev} {c : Nat} {k : QPkt} {rest : List QPkt} (n : Nat) (chosen : selectQueue d .cpu = some c)
    (head : d.queue .cpu c = k :: rest) (stays : dequeueDrop d .cpu k = none) :
    selectLoop (n + 1) d .cpu = bufEval (toFirmware (leftCpu d c k rest) k) := by
  simp only [selectLoop, chosen, head, stays]
  rfl

theorem solicits_congr {a b : Dev} (glb : b.glb = a.glb) (ply : b.ply = a.ply) (start : b.start = a.start) (k : QPkt) :
    solicits b k = solicits a k := by
  simp only [solicits, linkLocal, meshAddr, glb, ply, start]
  rfl

theorem toFirmware_none {d : Dev} {k : QPkt} (h : solicits d k = none) :
    toFirmware d k = d.modSht (fun s => { s with cpuWaiting := s.cpuWaiting + b2n (fwTakes k.p) }) := by
  simp only [toFirmware, h]
  split
  next takes => simp [takes, b2n]
  next leaves => simp [leaves, b2n, Dev.modSht]

theorem toFirmware_some {d : Dev} {k : QPkt} {target : BitVec 128} (h : solicits d k = some target) :
    toFirmware d k = advertise d k target := by
  simp only [toFirmware, h]

theorem toFirmware_answers {d : Dev} {k : QPkt} (h : (solicits d k).isSome = true) :
    ∃ l, Output.advert k.inPort l ∈ (toFirmware d k).out := by
  obtain ⟨target, own⟩ := Option.isSome_iff_exists.1 h
  rw [toFirmware_some own]
  exact ⟨_, List.mem_append_right _ List.mem_cons_self⟩

/-- The firmware's part is a packet that waits for it or an answer sent. -/
theorem toFirmware_frame (d : Dev) (k : QPkt) : (toFirmware d k).sht.queues = d.sht.queues
    ∧ (toFirmware d k).sht.bank = d.sht.bank ∧ d.out <+: (toFirmware d k).out
    ∧ (toFirmware d k).whl = d.whl ∧ (toFirmware d k).ply = d.ply := by
  cases h : solicits d k with
  | none => rw [toFirmware_none h]; exact ⟨rfl, rfl, List.prefix_rfl, rfl, rfl⟩
  | some target => rw [toFirmware_some h]; exact ⟨rfl, rfl, List.prefix_append .., rfl, rfl⟩

theorem doEgressSelect_cpu {d : Dev} {c : Nat} {k : QPkt} {rest : List QPkt} (runs : d.phase.fwRuns = true)
    (room : d.sht.cpuWaiting < 1024) (chosen : selectQueue d .cpu = some c) (head : d.queue .cpu c = k :: rest)
    (stays : dequeueDrop d .cpu k = none) : doEgressSelect .cpu d = bufEval (toFirmware (leftCpu d c k rest) k) := by
  have free : txFree d .cpu = true := by simp [txFree, room]
  have noLine : hasLine .cpu = false := rfl
  simp only [doEgressSelect, selectPort, runs, free, noLine, and_self, if_true, Bool.false_eq_true, if_false]
  exact selectLoop_cpu _ chosen head stays

/-! ## Links -/

theorem bufEval_src (d : Dev) {e : Nat} (low : e ≠ evBufLow) (xoff : e ≠ evXoffTx) :
    (bufEval d).evt.src e = d.evt.src e := by
  rw [bufEval, xoffWatch, watchIf, watch_src_other _ _ _ _ _ _ _ xoff.symm, fcEvalPort_evt, fcEvalPort_evt, bufWatch,
    watch_src_other _ _ _ _ _ _ _ low.symm]

/-- A port whose link is down generates no flow control, and that of another port is its own. -/
theorem fcEvalPort_qport_down {d : Dev} {p : Port} (down : d.linkUp p = false) (r : Port) :
    (fcEvalPort d r).qport p = d.qport p := by
  by_cases same : r = p
  · subst same
    simp [fcEvalPort, down]
  · have other (a : Dev) (f : QPort → QPort) : (a.modQport r f).qport p = a.qport p := Dev.qport_modQport_other _ _ _ _ same
    unfold fcEvalPort sendFc fcLeave; dsimp only
    repeat' split
    · exact other ..
    · exact ((Dev.qport_que rfl p).trans (other ..)).trans (other ..)
    · exact (other ..).trans (other ..)
    · rfl

theorem bufEval_qport_down {d : Dev} {p : Port} (down : d.linkUp p = false) : (bufEval d).qport p = d.qport p := by
  have same {a : Dev} (h : a.sht = d.sht) : a.linkUp p = false :=
    (Dev.linkUp_of_steady (congrArg Sht.steady h) p).trans down
  rw [bufEval, xoffWatch_qport, fcEvalPort_qport_down (same (by simp)), fcEvalPort_qport_down (same (by simp)), bufWatch_qport]

theorem endIngress_steady (d : Dev) (p : Port) (ok : Bool) : (endIngress d p ok).sht.steady = d.sht.steady := by
  unfold endIngress; split
  · rfl
  · dsimp only; repeat' split
    all_goals simp [Dev.setQueue, Sht.steady]

/-- The pauses of a port, generated and received. -/
def QPort.pausing (q : QPort) : KMap (Option Nat) × KMap (Nat × Nat) := (q.xoff, q.pauses)

theorem Dev.modQport_pausing (d : Dev) (r p : Port) {f : QPort → QPort} (h : ∀ q, (f q).pausing = q.pausing) :
    ((d.modQport r f).qport p).pausing = (d.qport p).pausing := by
  by_cases same : r = p
  · subst same; simp [h]
  · rw [Dev.qport_modQport_other _ _ _ _ same]

theorem endIngress_pausing {d : Dev} {p : Port} (down : d.linkUp p = false) (r : Port) :
    ((endIngress d r false).qport p).pausing = (d.qport p).pausing := by
  unfold endIngress; split
  · rfl
  · dsimp only
    rw [if_neg (by decide)]
    split
    · rw [bufEval_qport_down (by simpa [Dev.linkUp, Dev.setQueue] using down), Dev.qport_que (report_que ..)]
      exact Dev.modQport_pausing _ _ _ fun _ => rfl
    · rw [bufEval_qport_down (by simpa [Dev.linkUp, Dev.setQueue] using down)]
      rfl

theorem endXoff_down {d : Dev} {p : Port} (down : d.linkUp p = false) :
    (endXoff d p).qport p = { d.qport p with xoff := [], fcq := [] } := by
  have still : (d.modQport p (fun q => { q with xoff := [] })).linkUp p = false :=
    (Dev.linkUp_of_steady (by simp) p).trans down
  simp [endXoff, still]

/-- The frame that leaves a port ends with its link (R229). -/
def cutFrame (d : Dev) (p : Port) : Dev :=
  if (d.qport p).sending.isSome ∧ d.whl.time < (d.qport p).freeAt then
    dropNoport (d.modQport p (fun q => { q with sending := none, freeAt := d.whl.time }))
  else d

theorem cutFrame_steady (d : Dev) (p : Port) : (cutFrame d p).sht.steady = d.sht.steady := by
  unfold cutFrame; split
  · simp [dropNoport, Dev.shtCount, Sht.steady]
  · rfl

/-- A link that goes down, as far as the end of the frame that arrives there. -/
def linkFallen (d : Dev) (p : Port) : Dev :=
  endXoff ((cutFrame (report (d.modSht (·.withLink p false)) evPortLink []) p).modQport p (fun q => { q with pauses := [] })) p

theorem setLink_same {d : Dev} {p : Port} {up : Bool} (h : d.linkUp p = up) : setLink d p up = d := by
  simp [setLink, h]

theorem setLink_up {d : Dev} {p : Port} (line : hasLine p = true) (down : d.linkUp p = false) :
    setLink d p true = bufEval (report (d.modSht (·.withLink p true)) evPortLink []) := by
  simp only [setLink, line, down, Bool.false_eq_true, Bool.true_eq_false, or_self, if_false, if_true]
  cases p <;> rfl

theorem doPortLink_up {d : Dev} {p : Port} (up : d.phase = .up) (ranged : heldDown d p = false) :
    doPortLink p true d = setLink d p true := by
  simp [doPortLink, up, ranged]

theorem setLink_down {d : Dev} {p : Port} (line : hasLine p = true) (up : d.linkUp p = true) :
    setLink d p false = bufEval (pauseWatch (endIngress (linkFallen d p) p false)) := by
  simp only [setLink, line, up, Bool.false_eq_true, Bool.true_eq_false, or_self, if_false]
  cases p <;> rfl

theorem linkFallen_steady (d : Dev) (p : Port) : (linkFallen d p).sht.steady = (d.sht.withLink p false).steady := by
  rw [linkFallen, endXoff_sht, Dev.modQport_sht, cutFrame_steady, report_sht, Dev.modSht_sht]

/-- A link that changes leaves every other link and the active bank. -/
theorem setLink_steady (d : Dev) {p : Port} (line : hasLine p = true) (up : Bool) :
    (setLink d p up).sht.steady = (d.sht.withLink p up).steady := by
  by_cases same : d.linkUp p = up
  · rw [setLink_same same, Dev.withLink_present same]
  · cases up with
    | true => rw [setLink_up line (by simpa using same), bufEval_sht, report_sht, Dev.modSht_sht]
    | false =>
      rw [setLink_down line (by simpa using same), bufEval_sht, pauseWatch_sht, endIngress_steady, linkFallen_steady]

theorem setLink_linkUp (d : Dev) {p : Port} (line : hasLine p = true) (up : Bool) : (setLink d p up).linkUp p = up :=
  (Dev.linkUp_of_steady (a := d.modSht (·.withLink p up)) (setLink_steady d line up) p).trans
    (Dev.linkUp_withLink_same d line up)

theorem setLink_linkUp_other (d : Dev) {p q : Port} (line : hasLine p = true) (up : Bool) (other : p ≠ q) :
    (setLink d p up).linkUp q = d.linkUp q :=
  (Dev.linkUp_of_steady (a := d.modSht (·.withLink p up)) (setLink_steady d line up) q).trans
    (Dev.linkUp_withLink_other d other up)

/-- No pause outlives the link (R256, R257). -/
theorem setLink_down_pausing {d : Dev} {p : Port} (line : hasLine p = true) (up : d.linkUp p = true) :
    ((setLink d p false).qport p).pausing = ([], []) := by
  have down : (linkFallen d p).linkUp p = false :=
    (Dev.linkUp_of_steady (a := d.modSht (·.withLink p false)) (linkFallen_steady d p) p).trans
      (Dev.linkUp_withLink_same d line false)
  have ended : (pauseWatch (endIngress (linkFallen d p) p false)).linkUp p = false :=
    (Dev.linkUp_of_steady (by rw [pauseWatch_sht, endIngress_steady]) p).trans down
  rw [setLink_down line up, bufEval_qport_down ended, pauseWatch_qport, endIngress_pausing down]
  have fallen : ((cutFrame (report (d.modSht (·.withLink p false)) evPortLink []) p).modQport p
      (fun q => { q with pauses := [] })).linkUp p = false :=
    (Dev.linkUp_of_steady (a := d.modSht (·.withLink p false))
      (by rw [Dev.modQport_sht, cutFrame_steady, report_sht]) p).trans (Dev.linkUp_withLink_same d line false)
  rw [linkFallen, endXoff_down fallen, Dev.qport_modQport_same]
  rfl

theorem setLink_whl (d : Dev) (p : Port) (up : Bool) : (setLink d p up).whl = d.whl :=
  (setLink_only d p up rfl (.refl [.out, .start, .evt, .sht, .que] _)).same .whl (by decide)

theorem setLink_ply (d : Dev) (p : Port) (up : Bool) : (setLink d p up).ply = d.ply :=
  (setLink_only d p up rfl (.refl [.out, .start, .evt, .sht, .que] _)).same .ply (by decide)

/-- Settles O43: the strict queue is found by `selectQueue_strict`, a generated frame stays first through the evaluation
before it (`FcWaits`), and a port whose link is down generates nothing that could end its silence
(`setLink_down_pausing`). -/
theorem egressAndLinks : Obligations.EgressAndLinks := by
  unfold Obligations.EgressAndLinks
  intro s dt e
  refine ⟨fun p line busy => gives_run rfl ?_, fun c k rest strict runs room port queue above head whole good here =>
      gives_run rfl ?_, fun p f r line runs free waits => gives_run rfl ?_, fun p up same => gives_run rfl ?_,
    fun p line down up ranged => gives_run rfl ?_, fun p held => gives_run rfl ?_, fun p line up => gives_run rfl ?_⟩
  · exact doEgressSelect_busy (txFree_busy line busy)
  · have chosen := selectQueue_strict (p := .cpu) port strict above (eligible_cpu queue head whole)
    have stays : dequeueDrop e .cpu k = none := by simp [dequeueDrop, good, here, Dev.linkUp]
    rw [doEgressSelect_cpu runs room chosen head stays]
    have asks : solicits (leftCpu e c k rest) k = solicits e k := solicits_congr rfl rfl rfl k
    obtain ⟨queues, bank, out, whl, ply⟩ := toFirmware_frame (leftCpu e c k rest) k
    have sent := bufEval_out (toFirmware (leftCpu e c k rest) k)
    refine ⟨?_, (out.trans sent).subset (by simp [leftCpu]), fun none_ => ?_, fun some_ => ?_, ?_, ?_, ?_⟩
    · rw [bufEval_queue, Dev.queue, queues]
      exact Dev.queue_setQueue_same e .cpu c rest
    · rw [bufEval_sht, toFirmware_none (asks.trans none_)]; rfl
    · obtain ⟨l, answer⟩ := toFirmware_answers (d := leftCpu e c k rest) (by rwa [asks])
      exact ⟨l, sent.subset answer⟩
    · rw [bufEval_whl, whl]; rfl
    · rw [bufEval_ply, ply]; rfl
    · rw [bufEval_sht, bank]; rfl
  · obtain ⟨x, eq, sht, whl, ply⟩ := doEgressSelect_fc line runs free waits
    rw [eq, fcLeave_out, fcLeave_sht, fcLeave_whl, fcLeave_ply, sht]
    exact ⟨List.mem_append_right _ (List.mem_singleton.2 rfl), rfl, whl, ply⟩
  · rw [doPortLink, setLink_same same, ite_self]
  · have fw : e.phase.fwRuns = true := by rw [up]; rfl
    rw [doPortLink_up up ranged]
    refine ⟨setLink_linkUp e line true, ?_, ?_, ?_, setLink_whl .., setLink_ply ..⟩
    · rw [setLink_up line down, bufEval_sht, report_sht, Dev.modSht_sht, Sht.withLink_queues]
    · rw [Sht.bank_of_steady (setLink_steady e line true), Sht.withLink_bank]
    · rw [setLink_up line down, bufEval_src _ (by decide) (by decide)]
      exact report_sticky _ _ _ fw
  · rw [doPortLink, if_pos ⟨rfl, .inr held⟩]
  · rw [doPortLink, if_neg (by simp)]
    obtain ⟨xoff, pauses⟩ := Prod.mk.inj (setLink_down_pausing line up)
    refine ⟨setLink_linkUp e line false, xoff, pauses, ?_, setLink_whl .., setLink_ply ..⟩
    rw [Sht.bank_of_steady (setLink_steady e line false), Sht.withLink_bank]

end Sys2Proof.Machine
end

section
/-! PROOFS. The clock monitor (O12). A judgement on one clock leaves the bits and the run counts of the others, and only BH0's
own takes its link down. -/

namespace Sys2Proof.Machine

/-! ## The bits of BOB_CLKMON -/

@[simp] theorem setClock_clk_same (d : Dev) {k : Nat} (h : k < 11) : (setClock d k true).bob.clk.getLsbD k = true := by
  simp [setClock, h]

theorem setClock_clk_other (d : Dev) {k j : Nat} (out : Bool) (h : j ≠ k) :
    (setClock d k out).bob.clk.getLsbD j = d.bob.clk.getLsbD j := by
  by_cases listed : j < 11
  · obtain below | past : j < k ∨ j - k ≠ 0 := by omega
    · cases out <;> simp [setClock, listed, below]
    · cases out <;> simp [setClock, listed, past]
  · simp [BitVec.getLsbD_of_ge _ _ (Nat.le_of_not_lt listed)]

/-! ## What follows a clock's change leaves the monitor -/

/-- What an action leaves at each of its steps, it leaves. -/
theorem each_keeps {α β : Type} (g : Dev → β) {l : List α} {f : Dev → α → Dev} {d : Dev} (h : ∀ e x, g (f e x) = g e) :
    g (each l f d) = g d := by
  induction l generalizing d with
  | nil => rfl
  | cons x r ih => exact (ih (d := f d x)).trans (h d x)

/-- The bobbins' block without the bobbins: the clock monitor. -/
def Dev.monitor (d : Dev) : Bob := { d.bob with bobs := [] }

theorem Dev.monitor_of_bob {a b : Dev} (h : b.bob = a.bob) : b.monitor = a.monitor := by rw [monitor, h, monitor]

theorem flushBobbin_monitor (d : Dev) (b : Nat) : (flushBobbin d b).monitor = d.monitor :=
  (Dev.monitor_of_bob (flushBobbin_bob d b)).trans rfl

theorem deliver_monitor (d : Dev) (n : Fin 4) (e : Descriptor) : (deliver d n e).monitor = d.monitor := by
  have watched (a : Dev) : (errWatch a n).monitor = a.monitor :=
    Dev.monitor_of_bob ((errWatch_only a n rfl (.refl [.evt] _)).same .bob (by decide))
  unfold deliver; dsimp only; repeat' split
  · exact watched _
  · exact watched _
  · exact Dev.monitor_of_bob ((storeFull_only d n rfl (.refl [.start, .evt, .spn] _)).same .bob (by decide))

theorem syncReset_monitor (d : Dev) (n : Fin 4) : (syncReset d n).monitor = d.monitor := by
  refine each_keeps Dev.monitor fun e p => ?_
  split
  · rfl
  · exact deliver_monitor ..

theorem resyncStart_monitor (d : Dev) (n : Fin 4) : (resyncStart d n).monitor = d.monitor :=
  (each_keeps Dev.monitor flushBobbin_monitor).trans (Dev.monitor_of_bob
    ((abortTx_only d n .resync none rfl (.refl [.free, .evt, .spn, .wrp, .ply] _)).same .bob (by decide)))

theorem resyncT1_monitor (d : Dev) (n : Fin 4) : (resyncT1 d n).monitor = d.monitor := by
  unfold resyncT1; dsimp only; split
  · exact syncReset_monitor d n
  · rfl

theorem rxClockOut_monitor (d : Dev) (p : Port) (b : Nat) : (rxClockOut d p b).monitor = d.monitor :=
  (flushBobbin_monitor ..).trans (Dev.monitor_of_bob
    ((setLink_only d p false rfl (.refl [.out, .start, .evt, .sht, .que] _)).same .bob (by decide)))

theorem holdReference_monitor (d : Dev) : (holdReference d).monitor = d.monitor :=
  Dev.monitor_of_bob ((holdReference_only d rfl (.refl [.start, .evt, .whl] _)).same .bob (by decide))

theorem clockWatch_monitor (d : Dev) (k : Nat) : (clockWatch d k).monitor = d.monitor :=
  Dev.monitor_of_bob ((clockWatch_only d k rfl (.refl [.evt] _)).same .bob (by decide))

theorem clockLeaves_monitor (d : Dev) (k : Nat) : (clockLeaves d k).monitor = d.monitor := by
  unfold clockLeaves; repeat' split
  · exact resyncStart_monitor ..
  · exact (holdReference_monitor _).trans (each_keeps Dev.monitor resyncStart_monitor)
  · exact rxClockOut_monitor ..
  · exact rxClockOut_monitor ..
  · exact rxClockOut_monitor ..
  · rfl

theorem clockReturns_monitor (d : Dev) (k : Nat) : (clockReturns d k).monitor = d.monitor := by
  unfold clockReturns; repeat' split
  · exact resyncT1_monitor ..
  · exact (holdReference_monitor _).trans (each_keeps Dev.monitor resyncT1_monitor)
  · rfl

/-! ## One judgement (R20) -/

/-- What the monitor holds of clock `j`: its bit, and its windows in a row out of range. -/
def Dev.clock (d : Dev) (j : Nat) : Bool × Nat := (d.monitor.clk.getLsbD j, kgetD d.monitor.outRun j 0)

theorem Dev.clock_of_monitor {a b : Dev} (h : b.monitor = a.monitor) (j : Nat) : b.clock j = a.clock j := by
  rw [clock, h, clock]

theorem setClock_clock_other (d : Dev) {k j : Nat} (out : Bool) (h : j ≠ k) : (setClock d k out).clock j = d.clock j :=
  Prod.ext (setClock_clk_other d out h) rfl

/-- Windows in a row out of, and back in, range, this window counted. -/
def outRuns (d : Dev) (k : Nat) (bad : Bool) : Nat := if bad then min 2 (kgetD d.bob.outRun k 0 + 1) else 0
def inRuns (d : Dev) (k : Nat) (bad : Bool) : Nat := if bad then 0 else min 2 (kgetD d.bob.inRun k 0 + 1)

def countRun (d : Dev) (k : Nat) (bad : Bool) : Dev :=
  { d with bob := { d.bob with
    outRun := ksetD d.bob.outRun k (outRuns d k bad) 0, inRun := ksetD d.bob.inRun k (inRuns d k bad) 0 } }

theorem judgeClock_eq (d : Dev) (k : Nat) (bad : Bool) : judgeClock d k bad =
    if d.bob.clk.getLsbD k then
      if inRuns d k bad = 2 then clockReturns (clockWatch (setClock (countRun d k bad) k false) k) k
      else clockWatch (countRun d k bad) k
    else if outRuns d k bad = 2 then clockLeaves (clockWatch (setClock (countRun d k bad) k true) k) k
    else clockWatch (countRun d k bad) k := rfl

theorem countRun_clock_other (d : Dev) {k j : Nat} (bad : Bool) (h : j ≠ k) : (countRun d k bad).clock j = d.clock j :=
  Prod.ext rfl (kgetD_ksetD_other _ _ _ _ _ _ h.symm)

/-- A judgement ends in one of three ways: the clock returns, it leaves, or its sources are evaluated. -/
theorem judgeClock_cases (d : Dev) (k : Nat) (bad : Bool) :
    judgeClock d k bad = clockReturns (clockWatch (setClock (countRun d k bad) k false) k) k
    ∨ judgeClock d k bad = clockLeaves (clockWatch (setClock (countRun d k bad) k true) k) k
    ∨ judgeClock d k bad = clockWatch (countRun d k bad) k := by
  rw [judgeClock_eq]; repeat' split
  · exact .inl rfl
  · exact .inr (.inr rfl)
  · exact .inr (.inl rfl)
  · exact .inr (.inr rfl)

theorem judgeClock_clock_other (d : Dev) {k j : Nat} (bad : Bool) (h : j ≠ k) :
    (judgeClock d k bad).clock j = d.clock j := by
  have set_ (out : Bool) : (clockWatch (setClock (countRun d k bad) k out) k).clock j = d.clock j :=
    (Dev.clock_of_monitor (clockWatch_monitor ..) j).trans
      ((setClock_clock_other _ out h).trans (countRun_clock_other d bad h))
  obtain eq | eq | eq := judgeClock_cases d k bad <;> rw [eq]
  · exact (Dev.clock_of_monitor (clockReturns_monitor ..) j).trans (set_ false)
  · exact (Dev.clock_of_monitor (clockLeaves_monitor ..) j).trans (set_ true)
  · exact (Dev.clock_of_monitor (clockWatch_monitor ..) j).trans (countRun_clock_other d bad h)

/-- The second window in a row outside the limit takes the clock out. -/
theorem judgeClock_second {d : Dev} {k : Nat} (h : d.clock k = (false, 1)) :
    judgeClock d k true = clockLeaves (clockWatch (setClock (countRun d k true) k true) k) k := by
  obtain ⟨within, once⟩ := Prod.mk.inj h
  have was : d.bob.clk.getLsbD k = false := within
  have run : kgetD d.bob.outRun k 0 = 1 := once
  have second : outRuns d k true = 2 := by simp [outRuns, run]
  rw [judgeClock_eq, was, second, if_neg (by decide), if_pos rfl]

/-! ## Links (R21) -/

theorem rxClockOut_linkUp (d : Dev) (p q : Port) (b : Nat) : (rxClockOut d p b).linkUp q = (setLink d p false).linkUp q :=
  Dev.linkUp_of_steady (congrArg Sht.steady
    ((flushBobbin_only (setLink d p false) b rfl (.refl [.spn, .bob] _)).same .sht (by decide))) q

theorem clockWatch_linkUp (d : Dev) (k : Nat) (p : Port) : (clockWatch d k).linkUp p = d.linkUp p :=
  Dev.linkUp_of_steady (congrArg Sht.steady ((clockWatch_only d k rfl (.refl [.evt] _)).same .sht (by decide))) p

theorem clockReturns_linkUp (d : Dev) (k : Nat) (p : Port) : (clockReturns d k).linkUp p = d.linkUp p :=
  Dev.linkUp_of_steady (congrArg Sht.steady
    ((clockReturns_only d k rfl (.refl [.start, .evt, .whl, .spn, .bob] _)).same .sht (by decide))) p

theorem clockLeaves_bh0 (d : Dev) : clockLeaves d clkBh0 = rxClockOut d .bh0 16 := rfl

theorem clockLeaves_linkUp_bh0 (d : Dev) {k : Nat} (h : k ≠ clkBh0) : (clockLeaves d k).linkUp .bh0 = d.linkUp .bh0 := by
  have spindle {a : Dev} (only : Only [.free, .start, .evt, .whl, .spn, .wrp, .ply, .bob] d a) :
      a.linkUp .bh0 = d.linkUp .bh0 := Dev.linkUp_of_steady (congrArg Sht.steady (only.same .sht (by decide))) .bh0
  have other (p : Port) (line : hasLine p = true) (ne : p ≠ .bh0) (b : Nat) :
      (rxClockOut d p b).linkUp .bh0 = d.linkUp .bh0 :=
    (rxClockOut_linkUp ..).trans (setLink_linkUp_other d line false ne)
  unfold clockLeaves; repeat' split
  · exact spindle (resyncStart_only d _ rfl (.refl _ _))
  · exact spindle (holdReference_only _ rfl (.each (.refl _ _) fun e n => resyncStart_only e n rfl (.refl _ _)))
  · exact other .bh1 rfl (by decide) 18
  · exact other .plk rfl (by decide) 20
  · rfl

theorem judgeClock_linkUp_bh0 (d : Dev) {k : Nat} (bad : Bool) (h : k ≠ clkBh0) :
    (judgeClock d k bad).linkUp .bh0 = d.linkUp .bh0 := by
  obtain eq | eq | eq := judgeClock_cases d k bad <;> rw [eq]
  · exact (clockReturns_linkUp ..).trans (clockWatch_linkUp ..)
  · exact (clockLeaves_linkUp_bh0 _ h).trans (clockWatch_linkUp ..)
  · exact clockWatch_linkUp ..

/-- The second window in a row outside the limit takes BH0's receive clock out and its link down. -/
theorem judgeClock_bh0_second {d : Dev} (h : d.clock clkBh0 = (false, 1)) :
    ((judgeClock d clkBh0 true).clock clkBh0).1 = true ∧ (judgeClock d clkBh0 true).linkUp .bh0 = false := by
  rw [judgeClock_second h]
  constructor
  · rw [Dev.clock_of_monitor (clockLeaves_monitor ..), Dev.clock_of_monitor (clockWatch_monitor ..)]
    exact setClock_clk_same _ (by decide)
  · rw [clockLeaves_bh0, rxClockOut_linkUp]
    exact setLink_linkUp _ rfl false

/-! ## The rows -/

/-- The spindles' clocks and the independent ones judged. -/
def judgeOwn (indep spn : Four Int) (d : Dev) : Dev :=
  each spindles (fun a n => judgeClock a n.val (spnBad d.bob spn n))
    (each spindles (fun a n => judgeClock a (4 + n.val) (indepBad indep n)) d)

theorem judgeOwn_clock_bh0 (indep spn : Four Int) (d : Dev) : (judgeOwn indep spn d).clock clkBh0 = d.clock clkBh0 :=
  (each_keeps (Dev.clock · clkBh0) fun a n => judgeClock_clock_other a _ (by unfold clkBh0; omega)).trans
    (each_keeps (Dev.clock · clkBh0) fun a n => judgeClock_clock_other a _ (by unfold clkBh0; omega))

theorem doClockMonitorWindow_bh0_out {d : Dev} (indep spn : Four Int) {rx0 : Int} (rx1 rxp : Int)
    (runs : d.phase.ctrlRuns = true) (h : d.clock clkBh0 = (false, 1)) (far : 200000 < rx0.natAbs) :
    (doClockMonitorWindow indep spn rx0 rx1 rxp d).bob.clk.getLsbD clkBh0 = true
    ∧ (doClockMonitorWindow indep spn rx0 rx1 rxp d).sht.link0 = false
    ∧ (doClockMonitorWindow indep spn rx0 rx1 rxp d).bob.windowFrom = d.pwr.wall := by
  obtain ⟨out_, down⟩ := judgeClock_bh0_second ((judgeOwn_clock_bh0 indep spn d).trans h)
  have wall : (doClockMonitorWindow indep spn rx0 rx1 rxp d).pwr = d.pwr :=
    (doClockMonitorWindow_only indep spn rx0 rx1 rxp d rfl
      (.refl [.free, .out, .start, .evt, .whl, .spn, .wrp, .sht, .que, .ply, .bob] _)).same .pwr (by decide)
  have eq : ∃ bad1 badp : Bool, doClockMonitorWindow indep spn rx0 rx1 rxp d =
      let a := judgeClock (judgeClock (judgeClock (judgeOwn indep spn d) clkBh0 true) clkBh1 bad1) clkPlk badp
      { a with bob := { a.bob with windowFrom := a.pwr.wall } } := by
    refine ⟨decide (200000 < rx1.natAbs), decide (200000 < rxp.natAbs), ?_⟩
    simp only [doClockMonitorWindow, runs, if_true, far, decide_true]
    rfl
  obtain ⟨bad1, badp, eq⟩ := eq
  rw [eq] at wall ⊢
  refine ⟨?_, ?_, congrArg Pwr.wall wall⟩
  · exact (congrArg Prod.fst ((judgeClock_clock_other _ badp (by decide)).trans
      (judgeClock_clock_other _ bad1 (by decide)))).trans out_
  · exact ((judgeClock_linkUp_bh0 _ badp (by decide)).trans (judgeClock_linkUp_bh0 _ bad1 (by decide))).trans down

@[simp] theorem Spn.syncWires_resync (s : Spn) : s.syncWires.resync = s.resync := by
  unfold syncWires; dsimp only; split <;> rfl

theorem resyncStart_resync (d : Dev) (n : Fin 4) : ((resyncStart d n).spn.get n).resync = true := by
  unfold resyncStart; dsimp only
  rw [Dev.modSpn, Four.get_set_same, Spn.syncWires_resync]
  split <;> rfl

theorem clockLeaves_spindle (d : Dev) (n : Fin 4) : clockLeaves d n.val = resyncStart d n := by
  simp [clockLeaves, spindle?]

/-- The device with the PLL of spindle `n` noted as unlocked. -/
def unlockPll (d : Dev) (n : Fin 4) : Dev :=
  { d with bob := { d.bob with unlocked := d.bob.unlocked ||| (1#4 <<< n.val), inRun := kdel d.bob.inRun n.val } }

theorem unlockPll_unlocked (d : Dev) (n : Fin 4) : (unlockPll d n).bob.unlocked.getLsbD n.val = true := by
  simp [unlockPll, n.isLt]

theorem doPllLossOfLock_in_range {d : Dev} {n : Fin 4} (runs : d.phase.ctrlRuns = true)
    (within : d.bob.clk.getLsbD n.val = false) :
    doPllLossOfLock n d = resyncStart (clockWatch (setClock (unlockPll d n) n.val true) n.val) n := by
  rw [← clockLeaves_spindle]
  simp only [doPllLossOfLock, runs, within, if_true, Bool.false_eq_true, if_false]
  rfl

theorem doPllRelock_unlocked {d : Dev} {n : Fin 4} (h : d.bob.unlocked.getLsbD n.val = true) :
    doPllRelock n d = { d with bob := { d.bob with
      unlocked := d.bob.unlocked &&& ~~~(1#4 <<< n.val), relockAt := d.bob.relockAt.set n d.pwr.wall } } := by
  simp only [doPllRelock, h, if_true]

/-- Settles O12: BH0's clock comes to its judgement as the window found it (`judgeOwn_clock_bh0`), and the judgements after it
change neither its bit nor its link; a PLL's loss of lock is the leaving of its spindle's clock. -/
theorem clockMonitor : Obligations.ClockMonitor := by
  unfold Obligations.ClockMonitor
  intro s dt ctrl e
  have bob : s.dev.bob = e.bob := by simp [e]
  have runs : e.phase.ctrlRuns = true := by simpa [e] using ctrl
  have wall : e.pwr.wall = s.dev.pwr.wall + dt := by simp [e]
  rw [bob, ← wall]
  refine ⟨fun indep spn rx0 rx1 rxp once within far => gives_run rfl ?_, fun n within => gives_run rfl ?_,
    fun n unlocked => gives_run rfl ?_⟩
  · exact doClockMonitorWindow_bh0_out indep spn rx1 rxp runs (Prod.ext within once) far
  · rw [doPllLossOfLock_in_range runs within]
    have kept : (resyncStart (clockWatch (setClock (unlockPll e n) n.val true) n.val) n).monitor
        = (setClock (unlockPll e n) n.val true).monitor := (resyncStart_monitor ..).trans (clockWatch_monitor ..)
    refine ⟨?_, ?_, resyncStart_resync ..⟩
    · exact (congrArg (fun b : Bob => b.clk.getLsbD n.val) kept).trans (setClock_clk_same _ (by omega))
    · exact (congrArg (fun b : Bob => b.unlocked.getLsbD n.val) kept).trans (unlockPll_unlocked e n)
  · rw [doPllRelock_unlocked unlocked]
    exact ⟨rfl, by simp, by simp⟩

end Sys2Proof.Machine
end

section
/-! PROOFS. The persistent array (O55): every command leaves it canonical and within its budget. What never reaches the array
leaves it as it is (`Only.array`); the others are taken one by one. -/

namespace Sys2Proof.Machine

/-- The components of the device other than the array. -/
def Part.notPra : List Part :=
  [.phase, .free, .out, .pwr, .glb, .start, .evt, .whl, .spn, .region, .wrp, .ccp, .sht, .que, .crd, .ply, .dst, .img, .bob]

/-- What changes no component but these leaves the array as it is. -/
theorem Only.array {a b : Dev} (h : Only Part.notPra a b) : b.pra = a.pra := h.same .pra (by decide)

theorem Only.good {a b : Dev} (h : Only Part.notPra a b) (g : a.pra.Good) : b.pra.Good := h.array ▸ g

/-! ## Functions that never reach the array -/

@[simp] theorem invoke_pra (d : Dev) (s master use : Nat) : (invoke d s master use).2.pra = d.pra :=
  (invoke_only d s master use rfl (.refl _ _)).array

@[simp] theorem disableSkein_pra (d : Dev) (s cause : Nat) : (disableSkein d s cause).pra = d.pra :=
  (disableSkein_only d s cause rfl (.refl _ _)).array

@[simp] theorem loadHalf_pra (d : Dev) (s : Nat) (h : Half) : (loadHalf d s h).pra = d.pra :=
  (loadHalf_only d s h rfl (.refl _ _)).array

@[simp] theorem loadSkein_pra (d : Dev) (s : Nat) : (loadSkein d s).pra = d.pra :=
  (loadSkein_only d s rfl (.refl _ _)).array

@[simp] theorem dropCache_pra (d : Dev) (s : Nat) : (dropCache d s).pra = d.pra := rfl

@[simp] theorem extendMd_pra (d : Dev) (i : Nat) (item : BitVec 384) : (extendMd d i item).pra = d.pra :=
  (extendMd_only d i item rfl (.refl _ _)).array

@[simp] theorem threadsWatch_pra (d : Dev) : (threadsWatch d).pra = d.pra :=
  (threadsWatch_only d rfl (.refl _ _)).array

@[simp] theorem Dev.modThread_pra (d : Dev) (th : Nat) (f : Thread → Thread) : (d.modThread th f).pra = d.pra := rfl

@[simp] theorem finish_pra (d : Dev) (th : Nat) (st : Status) (res : List Byte) : (finish d th st res).pra = d.pra :=
  (finish_only d th st res rfl (.refl _ _)).array

@[simp] theorem enterRecovery_pra (d : Dev) : (enterRecovery d).pra = d.pra := rfl

@[simp] theorem selfTest_pra (d : Dev) (b : Nat) (code : BitVec 2) : (selfTest d b code).pra = d.pra :=
  (selfTest_only d b code rfl (.refl _ _)).array

@[simp] theorem loadBank_pra (d : Dev) (bank : Nat) (r0 r1 : Reel) : (loadBank d bank r0 r1).pra = d.pra :=
  (loadBank_only d bank r0 r1 rfl (.refl _ _)).array

@[simp] theorem refreshBanks_pra (d : Dev) : (refreshBanks d).pra = d.pra :=
  (refreshBanks_only d rfl (.refl _ _)).array

@[simp] theorem logDeferred_pra (d : Dev) : (logDeferred d).pra = d.pra :=
  (logDeferred_only d rfl (.refl _ _)).array

@[simp] theorem svcSend_pra (d : Dev) (type : Nat) (seq : BitVec 8) (st : Status) (l : List Byte) :
    (svcSend d type seq st l).pra = d.pra := rfl

@[simp] theorem svcReply_pra (d : Dev) (type : Nat) (seq : BitVec 8) (st : Status) (l : List Byte) :
    (svcReply d type seq st l).pra = d.pra := rfl

@[simp] theorem answerQuote_pra (master : Nat) (d : Dev) (q : Option (BitVec 128 × BitVec 16) × BitVec 8 × BitVec 256) :
    (answerQuote master d q).pra = d.pra := (answerQuote_only master d q rfl (.refl _ _)).array

@[simp] theorem reportStartChange_pra (d : Dev) : (reportStartChange d).pra = d.pra :=
  (reportStartChange_only d rfl (.refl _ _)).array

@[simp] theorem changePower_pra (d : Dev) (new cause : Nat) : (changePower d new cause).pra = d.pra :=
  (changePower_only d new cause rfl (.refl _ _)).array

@[simp] theorem ccpSend_pra (d : Dev) (i : Nat) (dst : BitVec 128) (port : BitVec 16) (mk : Nat → Output) :
    (ccpSend d i dst port mk).2.pra = d.pra := (ccpSend_only d i dst port mk rfl (.refl _ _)).array

@[simp] theorem streamGen_pra (d : Dev) (s gen : Nat) (district : Bool) : (streamGen d s gen district).pra = d.pra :=
  (streamGen_only d s gen district rfl (.refl _ _)).array

@[simp] theorem imgFinish_pra (d : Dev) (th : Nat) (st : Status) (res : List Byte) : (imgFinish d th st res).pra = d.pra :=
  (imgFinish_only d th st res rfl (.refl _ _)).array

@[simp] theorem stageBegin_pra (d : Dev) (th n : Nat) (r : Reel) (st : Status) : (stageBegin d th n r st).pra = d.pra :=
  (stageBegin_only d th n r st rfl (.refl _ _)).array

@[simp] theorem stageFail_pra (d : Dev) (st : Status) : (stageFail d st).pra = d.pra :=
  (stageFail_only d st rfl (.refl _ _)).array

@[simp] theorem writeAt_pra (d : Dev) (a : Nat) (v : Word) : (writeAt d a v).1.pra = d.pra :=
  (writeAt_only d a v rfl (.refl _ _)).array

@[simp] theorem endTransfer_pra (d : Dev) : (endTransfer d).pra = d.pra :=
  (endTransfer_only d rfl (.refl _ _)).array

@[simp] theorem failTransfer_pra (d : Dev) (type : Nat) (seq : BitVec 8) (st : Status) :
    (failTransfer d type seq st).pra = d.pra := (failTransfer_only d type seq st rfl (.refl _ _)).array

@[simp] theorem extendMd6_pra (d : Dev) (item : BitVec 384) : (extendMd6 d item).pra = d.pra := rfl

@[simp] theorem entryWrite_pra (d : Dev) (a : Nat) (v : Word) : (entryWrite d a v).1.pra = d.pra :=
  (entryWrite_only d a v rfl (.refl _ _)).array

@[simp] theorem applyOwner_pra (d : Dev) (r : ImgRecord) : (applyOwner d r).pra = d.pra :=
  (applyOwner_only d r rfl (.refl _ _)).array

@[simp] theorem measureArray_pra (d : Dev) : (measureArray d).pra = d.pra :=
  (measureArray_only d rfl (.refl _ _)).array

@[simp] theorem uncorrectable_pra (d : Dev) (addr : BitVec 32) (t : ScrubTarget) : (uncorrectable d addr t).pra = d.pra := by
  have scrub (e : Dev) : (scrubUncorr e addr).pra = e.pra := (scrubUncorr_only e addr rfl (.refl _ _)).array
  cases t with
  | forwarding => exact (loseForwarding_only _ _ _ _ rfl (.refl _ _)).array
  | node i => exact (loseNode_only d i rfl (.refl _ _)).array
  | skeinShare => unfold uncorrectable; dsimp only; split <;> simp
  | halfInForce s => exact (loseHalf_only d s rfl (.refl _ _)).array
  | halfOther s => exact (loseOtherHalf_only d s rfl (.refl _ _)).array
  | cacheEntry | cell | policy | logEntry | working => exact scrub _
  | bufferCell p c pos => exact (scrub _).trans (poisonPacket_only d p c.val pos rfl (.refl _ _)).array
  | thread th => exact (scrub _).trans (loseThread_only d th rfl (.refl _ _)).array
  | object o => exact (scrub _).trans (loseObject_only d o rfl (.refl _ _)).array
  | freeBuffer | freePage => exact (freeError_only rfl (.refl _ _) fun _ h => h).array
  | freeThread l => exact (freeError_only rfl (.refl _ _) fun e h => scrubUncorr_only _ addr rfl (loseThread_only e l rfl h)).array
  | freeNode l => exact (freeError_only rfl (.refl _ _) fun e h => loseNode_only e l rfl h).array

/-! ## The writes and the queue of the array -/

theorem each_good {α : Type} {l : List α} {f : Dev → α → Dev} {d : Dev} (h : d.pra.Good)
    (k : ∀ e x, e.pra.Good → (f e x).pra.Good) : (each l f d).pra.Good := by
  unfold each
  induction l generalizing d with
  | nil => exact h
  | cons x r ih => exact ih (k d x h)

/-- A `match` on what an operation answers goes on with the device it answers. -/
theorem good_fst {α : Type} {r : Dev × α} {y : Dev} {x : α} (e : r = (y, x)) (h : r.1.pra.Good) : y.pra.Good := by
  subst e; exact h

theorem runThread_good {α : Type} {th : Nat} {pick : Cmd → Option α} {f : Dev → Thread → α → Dev} {d : Dev} (h : d.pra.Good)
    (k : ∀ e t x, e.pra.Good → (f e t x).pra.Good) : (runThread d th pick f).pra.Good := by
  unfold runThread; split
  · exact h
  · split
    · split
      · exact k _ _ _ h
      · exact h
    · exact h

theorem svcRequest_good {type : Nat} {seq : BitVec 8} {rom firmware : Bool} {f : Dev → Dev} {d : Dev} (h : d.pra.Good)
    (k : ∀ e, e.pra.Good → (f e).pra.Good) : (svcRequest d type seq rom firmware f).pra.Good := by
  have ran : (f (d.modImg fun i => { i with baudUntil := none })).pra.Good := k _ h
  unfold svcRequest; dsimp only; repeat' split
  all_goals simp [h, ran]

/-- The queue, the write in progress and the instants of the firmware's own writes are not part of the form. -/
theorem modPra_good {d : Dev} (h : d.pra.Good) {f : Pra → Pra} (hw : (f d.pra).words = d.pra.words)
    (hr : (f d.pra).wear = d.pra.wear) (hs : (f d.pra).spent = d.pra.spent) : (d.modPra f).pra.Good := h.of_eq hw hr hs

theorem praWaits_good {d : Dev} (h : d.pra.Good) (faults : List Nat) (l : List (Nat × Word)) : (praWaits faults l d).pra.Good :=
  each_good h fun _ _ g => g.praWait ..

theorem praAsk_good {d : Dev} (h : d.pra.Good) (n : Nat) (v : Word) (w : PraWriter) : (praAsk d n v w).pra.Good :=
  modPra_good h rfl rfl rfl

theorem forgetThread_good {d : Dev} (h : d.pra.Good) (th : Nat) : (forgetThread d th).pra.Good := h.of_eq rfl rfl rfl

theorem freeThread_good {d : Dev} (h : d.pra.Good) (th : Nat) : (freeThread d th).pra.Good := by
  rw [freeThread, threadsWatch_pra]; exact forgetThread_good h th

/-- Every reset empties the buckets' counts and keeps words and wear (R10, R51). -/
theorem fresh_good {d : Dev} (h : d.pra.Good) (ph : Phase) (p : Pwr) : (d.fresh ph p).pra.Good := by
  rw [Pra.good_iff] at *
  obtain ⟨sorted, nonzero, wearSorted, wearNonzero, -, -⟩ := h
  exact ⟨sorted, nonzero, wearSorted, wearNonzero, rfl, rfl⟩

theorem eraseSkein_good {d : Dev} (h : d.pra.Good) (s : Nat) (ok : Bool) : (eraseSkein d s ok).1.pra.Good := by
  unfold eraseSkein; dsimp only
  rw [report_pra]
  have due (e : Dev) (g : e.pra = d.pra) : (praDue e).pra.Good := Pra.Good.praDue (g ▸ h)
  split
  · split <;> exact due _ rfl
  · have g := fun e he => (due e he).praFinish (commitWord s) 0 ok
    split <;> exact g _ rfl

/-! ## The meanings that reach the array -/

theorem romBoot_good {d : Dev} (h : d.pra.Good) (low ok : Bool) : (romBoot d low ok).pra.Good := by
  have counted (v : Word) : (praWait d 2 v ok).1.pra.Good := h.praWait ..
  unfold romBoot; dsimp only; repeat' split
  all_goals simp [h, counted]

theorem doControlDieResetRelease_good {d : Dev} (h : d.pra.Good) (low : Bool) (straps : BitVec 5) (bhref ok : Bool) :
    (doControlDieResetRelease low straps bhref ok d).pra.Good := by
  unfold doControlDieResetRelease; dsimp only; split
  · split
    · exact romBoot_good (d := { d with phase := _, pwr := _, pra := d.pra.initBuckets }) h.initBuckets low ok
    · exact h
  · exact h

theorem bankFallback_good {d : Dev} (h : d.pra.Good) (bank : Nat) (r0 r1 : Reel) (ok : Bool) :
    (bankFallback d bank r0 r1 ok).pra.Good := by
  have skipped (w : Word) : (praSkip d 3 w ok).pra.Good := h.praSkip ..
  unfold bankFallback; dsimp only; repeat' split
  all_goals simp [h, skipped]

theorem doBankLoad_good {d : Dev} (h : d.pra.Good) (r0 r1 : Reel) (ok : Bool) : (doBankLoad r0 r1 ok d).pra.Good := by
  unfold doBankLoad; dsimp only; split
  · have moved (w : Word) : (praWait d 3 w ok).1.pra.Good := h.praWait ..
    repeat' split
    all_goals simp [h, moved, bankFallback_good]
  · exact h

theorem eraseReturned_good {d : Dev} (h : d.pra.Good) (faults : List Nat) : (eraseReturned faults d).pra.Good := by
  refine each_good h fun e s g => ?_
  split
  · exact g
  · exact eraseSkein_good g ..

theorem doFirmwareStart_good {d : Dev} (h : d.pra.Good) (tests : List SelfTest) (faults : List Nat) :
    (doFirmwareStart tests faults d).pra.Good := by
  unfold doFirmwareStart; dsimp only; split
  · rw [praLow_pra]
    refine each_good (each_good ?_ fun e s g => ?_) fun e t g => ?_
    · repeat' split
      all_goals simp [h, eraseReturned_good]
    · rwa [loadSkein_pra]
    · rwa [selfTest_pra]
  · exact h

theorem reelCommit_good {d : Dev} (h : d.pra.Good) (ok : Bool) : (reelCommit d ok).pra.Good := by
  unfold reelCommit; split
  · split
    · exact h
    · dsimp only; rw [report_pra]; exact h.praWait ..
  · exact h

theorem doStartHold_good {d : Dev} (h : d.pra.Good) (bootOk bankOk : Bool) : (doStartHold bootOk bankOk d).pra.Good := by
  unfold doStartHold; dsimp only; split
  · refine each_good ?_ fun e q g => by rwa [answerQuote_pra]
    have g := reelCommit_good (h.praWait 2 (bootWord (fld (d.pra.word 2) 31 8) false 0) bootOk) bankOk
    simpa using g
  · exact h

theorem doLearnedOffsetWrite_good {d : Dev} (h : d.pra.Good) (ok : Bool) : (doLearnedOffsetWrite ok d).pra.Good := by
  unfold doLearnedOffsetWrite; dsimp only; split
  · exact (modPra_good h rfl rfl rfl).praSkip ..
  · exact h

theorem doTunerCodesWrite_good {d : Dev} (h : d.pra.Good) (n : Fin 4) (ok : Bool) : (doTunerCodesWrite n ok d).pra.Good := by
  unfold doTunerCodesWrite; dsimp only; split
  · exact (modPra_good h rfl rfl rfl).praSkip ..
  · exact h

theorem doPraLifeUpdate_good {d : Dev} (h : d.pra.Good) (ok : Bool) : (doPraLifeUpdate ok d).pra.Good := by
  unfold doPraLifeUpdate; dsimp only; split
  · have g : (praDue (d.modPra (fun p => { p with lifeDue := p.lifeDue + 3600000000000 }))).pra.Good :=
      (modPra_good h rfl rfl rfl).praDue
    split
    · exact g
    · exact (modPra_good g rfl rfl rfl).praSkip ..
  · exact h

theorem doPraTokenRefill_good {d : Dev} (h : d.pra.Good) : (doPraTokenRefill d).pra.Good := by
  unfold doPraTokenRefill; split
  · exact h.praDue
  · exact h

theorem doThreadRetainExpire_good {d : Dev} (h : d.pra.Good) (th : Nat) : (doThreadRetainExpire th d).pra.Good := by
  unfold doThreadRetainExpire; split
  · exact h
  · split
    · exact freeThread_good h th
    · exact h

theorem doCompletionSend_good {d : Dev} (h : d.pra.Good) : (doCompletionSend d).pra.Good := by
  unfold doCompletionSend; dsimp only
  have g := each_good h (l := d.ccp.doneQ.filter fun th => match d.thread? th with | some t => t.silent | none => true)
    fun e th k => freeThread_good k th
  split
  · exact g
  · split
    · exact g
    · rw [Dev.modCcp_pra]
      exact each_good (by rwa [ccpSend_pra]) fun e th k => k

theorem doPraInfo_good {d : Dev} (h : d.pra.Good) (th : Nat) : (doPraInfo th d).pra.Good :=
  runThread_good h fun e t a g => by rw [finish_pra]; exact g.praDue

theorem doCompleteAck_good {d : Dev} (h : d.pra.Good) (th : Nat) : (doCompleteAck th d).pra.Good := by
  refine runThread_good h fun e t l g => freeThread_good ?_ th
  rw [finish_pra]
  refine each_good g fun e n g => ?_
  split
  · split
    · exact freeThread_good g n
    · exact g
  · exact g

theorem commitKey_good {d : Dev} (h : d.pra.Good) (th s : Nat) (x : Half) (steps : Nat) (back ok : Bool) :
    (commitKey d th s x steps back ok).pra.Good := by
  unfold commitKey; dsimp only; split
  · exact h
  · split
    · simpa using h
    · split
      · exact h
      · split <;> next e => simpa using good_fst e (Pra.Good.praFinish (by exact h) ..)

theorem doKeyLoad_good {d : Dev} (h : d.pra.Good) (th : Nat) (unwrapOk back ok : Bool) (steps : Nat) :
    (doKeyLoad th unwrapOk back ok steps d).pra.Good := by
  unfold doKeyLoad; split
  · exact h
  · refine runThread_good h.praDue fun e t p g => ?_
    dsimp only; split
    · simpa using g
    · repeat' split
      all_goals simp [g, commitKey_good]

theorem eraseByCommand_good {d : Dev} (h : d.pra.Good) (s : Nat) (ok : Bool) : (eraseByCommand d s ok).1.pra.Good := by
  unfold eraseByCommand; dsimp only
  rw [streamGen_pra]; exact eraseSkein_good h s ok

theorem doKeyErase_good {d : Dev} (h : d.pra.Good) (th : Nat) (ok : Bool) : (doKeyErase th ok d).pra.Good := by
  unfold doKeyErase; split
  · exact h
  · refine runThread_good h fun e t s g => ?_
    dsimp only; repeat' split
    all_goals simp [g, eraseByCommand_good]

theorem doLifecycleSet_good {d : Dev} (h : d.pra.Good) (th : Nat) (ok : Bool) (faults : List Nat) (upto : Option Nat) :
    (doLifecycleSet th ok faults upto d).pra.Good := by
  unfold doLifecycleSet; split
  · exact h
  · refine runThread_good h fun e t l g => ?_
    split
    · simpa using g
    · split
      next e' =>
        have k := good_fst e' (g.praOwn ..)
        rw [← report_pra _ evLifecycleChange []] at k
        have erase (x : Dev) (s : Nat) (gx : x.pra.Good) := eraseByCommand_good gx s (!faults.contains (commitWord s))
        dsimp only; split <;> [skip; rw [finish_pra]]
        all_goals split <;> [exact each_good k erase; exact k]
      next e' => simpa using good_fst e' (g.praOwn ..)

theorem doReelStage_good {d : Dev} (h : d.pra.Good) (th : Nat) (card : Card) (ok : Bool) :
    (doReelStage th card ok d).pra.Good := by
  unfold doReelStage; split
  · exact h
  · refine runThread_good h.praDue fun e t _ g => ?_
    split
    · simpa using g
    · dsimp only; split
      · simpa using g
      · rw [stageBegin_pra]; exact Pra.Good.praOwn (by exact g) ..

theorem stageDone_good {d : Dev} (h : d.pra.Good) (g : Stage) (ok : Bool) : (stageDone d g ok).pra.Good := by
  unfold stageDone; split <;> next e => simpa using good_fst e (h.praOwn ..)

theorem doReelStageBlock_good {d : Dev} (h : d.pra.Good) (cardOk blockOk flashOk sigOk blocksOk ok : Bool) :
    (doReelStageBlock cardOk blockOk flashOk sigOk blocksOk ok d).pra.Good := by
  have done (f f' : Img → Img) (g : Stage) : (stageDone ((d.modImg f).modImg f') g ok).pra.Good :=
    stageDone_good (d := (d.modImg f).modImg f') h g ok
  unfold doReelStageBlock; dsimp only; repeat' split
  all_goals simp [h, done]

theorem activateNow_good {d : Dev} (h : d.pra.Good) (th bank : Nat) (alone ok : Bool) :
    (activateNow d th bank alone ok).pra.Good := by
  unfold activateNow; split
  · simpa using h
  · dsimp only; split <;> next e => simpa using good_fst e (Pra.Good.praOwn (by simpa using h) ..)

theorem doReelActivateExecute_good {d : Dev} (h : d.pra.Good) (ok : Bool) : (doReelActivateExecute ok d).pra.Good := by
  unfold doReelActivateExecute; split
  · exact h
  · split
    · exact h
    · split
      · exact runThread_good h fun e t _ g => activateNow_good g ..
      · exact h

theorem doOwnerLock_good {d : Dev} (h : d.pra.Good) (th : Nat) (ok : Bool) : (doOwnerLock th ok d).pra.Good := by
  unfold doOwnerLock; split
  · exact h
  · refine runThread_good h fun e t set g => ?_
    dsimp only; split
    · simpa using g
    · generalize (if set = true then ownerWord true t.ident else 0) = w
      split
      · simpa using g
      · split <;> next e' => simpa using good_fst e' (g.praOwn ..)

theorem regRow_good {f : Dev → Dev × Status} {d : Dev} (h : d.pra.Good) (k : (f d).1.pra.Good) : (regRow f d).pra.Good := by
  unfold regRow; split
  · exact k
  · exact h

theorem doRegisterWrite_good {d : Dev} (h : d.pra.Good) (a : Nat) (v : Word) : (doRegisterWrite a v d).pra.Good := by
  unfold doRegisterWrite; split
  · split
    · exact praAsk_good h ..
    · exact h
  · exact regRow_good h (by rwa [writeAt_pra])

theorem writePairs_good {d : Dev} (h : d.pra.Good) (th n : Nat) (l : List (Nat × Word)) : (writePairs th n l d).pra.Good := by
  induction l generalizing n d with
  | nil => rw [writePairs, finish_pra]; exact h
  | cons p r ih =>
    unfold writePairs; split
    · exact praAsk_good (by exact h) ..
    · split
      next e => exact ih (good_fst e (by rwa [writeAt_pra])) _
      next e => rw [finish_pra]; exact good_fst e (by rwa [writeAt_pra])

theorem doRegWrite_good {d : Dev} (h : d.pra.Good) (th : Nat) : (doRegWrite th d).pra.Good :=
  runThread_good h fun _ _ l g => writePairs_good g th 0 l

theorem praAnswer_good {d : Dev} (h : d.pra.Good) (w : PraWriter) (st : Status) : (praAnswer d w st).pra.Good := by
  cases w with
  | reg | svc | firmware => exact h
  | thread th =>
    unfold praAnswer; dsimp only; split
    · split
      · split
        · exact writePairs_good h ..
        · rwa [finish_pra]
      · exact h
    · exact h

theorem doPraWriteBegin_good {d : Dev} (h : d.pra.Good) : (doPraWriteBegin d).pra.Good := by
  unfold doPraWriteBegin; split
  · split
    · dsimp only
      have g : ((praDue d).modPra fun p => { p with queue := _ }).pra.Good := modPra_good h.praDue rfl rfl rfl
      split
      · refine praAnswer_good ?_ ..
        rw [praRefuse, report_pra]; exact g
      · exact modPra_good g rfl rfl rfl
    · exact h
  · exact h

theorem doPraWriteComplete_good {d : Dev} (h : d.pra.Good) (ok : Bool) : (doPraWriteComplete ok d).pra.Good := by
  unfold doPraWriteComplete; split
  · exact h
  · exact praAnswer_good (Pra.Good.praFinish (modPra_good h.praDue rfl rfl rfl) ..) ..

theorem doSvcRegWrite_good {d : Dev} (h : d.pra.Good) (seq : BitVec 8) (a : Nat) (v : Word) :
    (doSvcRegWrite seq a v d).pra.Good := by
  refine svcRequest_good h fun e g => ?_
  split
  · exact g
  · split
    · exact praAsk_good g ..
    · dsimp only; rwa [svcReply_pra, writeAt_pra]

theorem clearInactive_good {d : Dev} (h : d.pra.Good) (r : Reel) (ok : Bool) : (clearInactive d r ok).1.pra.Good := by
  unfold clearInactive; split
  · exact h.praWait ..
  · exact h

theorem acceptImage_good {d : Dev} (h : d.pra.Good) (r : Reel) (ok : Bool) : (acceptImage d r ok).1.pra.Good := by
  have g : (extendMd6 d r.digest).pra.Good := h
  unfold acceptImage; dsimp only; split
  · split
    next e =>
      have k := good_fst e (g.praWait ..)
      split
      next e' =>
        have k' := good_fst e' (k.praWait ..)
        exact k'
      · exact k.praWait ..
    · exact g.praWait ..
  · exact g

theorem takeHead_good {d : Dev} (h : d.pra.Good) (seq : BitVec 8) (x : Transfer) (r : Reel) (flashOk ok : Bool) :
    (takeHead d seq x r flashOk ok).pra.Good := by
  unfold takeHead; split
  · simpa using h
  · split
    · simpa using h
    · split
      next e => split <;> simpa using good_fst e (clearInactive_good h ..)
      next e => simpa using good_fst e (clearInactive_good h ..)

theorem doImgData_good {d : Dev} (h : d.pra.Good) (seq : BitVec 8) (offset count : Nat) (head : Reel)
    (blockOk flashOk ok : Bool) : (doImgData seq offset count head blockOk flashOk ok d).pra.Good := by
  refine svcRequest_good h fun e g => ?_
  dsimp only; repeat' split
  all_goals simp [g, takeHead_good]

theorem doImgEnd_good {d : Dev} (h : d.pra.Good) (seq : BitVec 8) (sigOk blocksOk ok : Bool) :
    (doImgEnd seq sigOk blocksOk ok d).pra.Good := by
  refine svcRequest_good h fun e g => ?_
  have k (r : Reel) : (acceptImage (endTransfer e) r ok).1.pra.Good := acceptImage_good (by rwa [endTransfer_pra]) ..
  dsimp only; repeat' split
  all_goals simp [g, k]

theorem doRecoveryCardRead_good {d : Dev} (h : d.pra.Good) (card : Card) (ok : Bool) :
    (doRecoveryCardRead card ok d).pra.Good := by
  unfold doRecoveryCardRead; dsimp only; split
  · split
    · exact h
    · split
      · have k := fun r => clearInactive_good (d := d.modImg fun i => { i with media := cardAnswers card }) h r ok
        split
        next e => exact acceptImage_good (good_fst e (k _)) ..
        next e =>
          have k := good_fst e (k _)
          exact k
      · exact h
  · exact h

theorem doPickerScan_good {d : Dev} (h : d.pra.Good) (m : ScrubMemory) (t : ScrubTarget) (addr : BitVec 32) (r : ScrubResult)
    (passEnd : Bool) : (doPickerScan m t addr r passEnd d).pra.Good := by
  unfold doPickerScan; dsimp only; repeat' split
  all_goals simpa [endPass] using h

theorem applyKeywrap_good {d : Dev} (h : d.pra.Good) (faults : List Nat) (l : List Byte) :
    (applyKeywrap faults d l).pra.Good := by
  unfold applyKeywrap; dsimp only; split
  · exact h
  · split
    · simpa using h
    · split <;> next e => simpa using good_fst e (Pra.Good.praWait (by exact h) ..)

theorem applyRecord_good {d : Dev} (h : d.pra.Good) (faults : List Nat) (r : ImgRecord) :
    (applyRecord faults d r).pra.Good := by
  unfold applyRecord; split
  · exact applyKeywrap_good h ..
  · rwa [applyOwner_pra]

theorem applyImage_good {d : Dev} (h : d.pra.Good) (faults : List Nat) : (applyImage faults d).pra.Good := by
  unfold applyImage; split
  · exact each_good (each_good h fun _ r g => applyRecord_good g faults r) fun _ p g => by rwa [entryWrite_pra]
  · exact h

theorem applyAndPlan_good {d : Dev} (h : d.pra.Good) (faults : List Nat) : (applyAndPlan faults d).pra.Good := by
  unfold applyAndPlan; split
  · exact h
  · exact applyImage_good h faults

theorem resetOn_good {d : Dev} (h : d.pra.Good) (faults : List Nat) (upto : Option Nat) : (resetOn faults upto d).pra.Good := by
  unfold resetOn; split
  · exact h
  next l groups _ =>
    have g := praWaits_good h faults (l.take (upto.getD l.length))
    dsimp only; split
    · rw [report_pra]; exact g
    · exact g

theorem doConfigApply_good {d : Dev} (h : d.pra.Good) (faults : List Nat) (upto : Option Nat) :
    (doConfigApply faults upto d).pra.Good := by
  have g := resetOn_good (applyAndPlan_good h faults) faults upto
  unfold doConfigApply; dsimp only; split
  · split
    · exact (measureArray_pra _).symm ▸ g
    · exact g
  · exact h

/-! ## Resets -/

theorem beginStart_good {d : Dev} (h : d.pra.Good) (cause : Nat) : (beginStart d cause).pra.Good := by
  unfold beginStart; dsimp only; split
  · exact fresh_good h (.rails 0) {}
  · exact h

theorem dropRails_good {d : Dev} (h : d.pra.Good) : (dropRails d).pra.Good := by
  have off : (railsOff d .off).pra.Good := fresh_good h .off {}
  unfold dropRails; split
  all_goals assumption

theorem doResetNRelease_good {d : Dev} (h : d.pra.Good) : (doResetNRelease d).pra.Good := by
  unfold doResetNRelease; split
  · exact beginStart_good (d := d.modPwr _) h 2
  · exact h

theorem doInputRise35V_good {d : Dev} (h : d.pra.Good) : (doInputRise35V d).pra.Good := by
  unfold doInputRise35V; dsimp only; repeat' split
  · exact h
  · exact beginStart_good (by simpa using h) 3
  · simpa using h

theorem doResetNAssert_good {d : Dev} (h : d.pra.Good) : (doResetNAssert d).pra.Good := by
  unfold doResetNAssert; split
  · exact h
  · exact dropRails_good h

theorem doInputFall33V_good {d : Dev} (h : d.pra.Good) : (doInputFall33V d).pra.Good := by
  unfold doInputFall33V; split
  · exact h
  · exact dropRails_good h

theorem doLogicRailFall_good {d : Dev} (h : d.pra.Good) : (doLogicRailFall d).pra.Good := fresh_good h .unpowered {}

theorem doRailTimeout_good {d : Dev} (h : d.pra.Good) (board : Bool) : (doRailTimeout board d).pra.Good := by
  unfold doRailTimeout; split
  · split
    · exact fresh_good h .railFailed {}
    · exact h
  all_goals exact h

theorem controlReset_good {d : Dev} (h : d.pra.Good) (cause : Nat) : (controlReset d cause).pra.Good :=
  fresh_good h .inReset {}

theorem doWatchdogExpire_good {d : Dev} (h : d.pra.Good) : (doWatchdogExpire d).pra.Good := by
  unfold doWatchdogExpire; split
  · exact controlReset_good h 7
  · exact h

theorem doPowerOffRails_good {d : Dev} (h : d.pra.Good) : (doPowerOffRails d).pra.Good := by
  unfold doPowerOffRails; repeat' split
  · exact h
  · exact fresh_good h .off {}
  · exact h

theorem doWakeElapsed_good {d : Dev} (h : d.pra.Good) : (doWakeElapsed d).pra.Good := by
  unfold doWakeElapsed; repeat' split
  · exact h
  · exact beginStart_good h 10
  · exact h

theorem doActivateReset_good {d : Dev} (h : d.pra.Good) : (doActivateReset d).pra.Good := by
  unfold doActivateReset; repeat' split
  · exact h
  · exact controlReset_good h 8
  · exact h

theorem doTreadleReset_good {d : Dev} (h : d.pra.Good) : (doTreadleReset d).pra.Good := by
  unfold doTreadleReset; repeat' split
  · exact controlReset_good h 5
  · exact h
  · exact h

theorem doRecoveryReset_good {d : Dev} (h : d.pra.Good) (low : Bool) : (doRecoveryReset low d).pra.Good := by
  unfold doRecoveryReset; dsimp only; repeat' split
  · exact h
  · exact h
  · exact controlReset_good h 9
  · exact h

theorem doTickStrobe_good {d : Dev} (h : d.pra.Good) (tcxo : Int) (beacon : Bool) : (doTickStrobe tcxo beacon d).pra.Good := by
  unfold doTickStrobe; dsimp only; repeat' split
  · exact h
  · exact controlReset_good h 6
  · exact (strobe_only tcxo beacon d rfl (.refl _ _)).good h

/-! ## Every command -/

theorem run_good {dt : Nat} {f : Dev → Dev} {s t : State} (g : s.dev.pra.Good) (r : run dt f s = .next t)
    (h : ∀ d, d.pra.Good → (f d).pra.Good) : t.dev.pra.Good := by
  cases r; exact h _ (by simpa using g)

theorem run_only_good {dt : Nat} {f : Dev → Dev} {s t : State} (g : s.dev.pra.Good) (r : run dt f s = .next t)
    (h : ∀ d, Only Part.notPra d (f d)) : t.dev.pra.Good :=
  run_good g r fun d k => (h d).good k

theorem runCpu_only_good {dt : Nat} {f : Dev → Dev} {s t : State} (g : s.dev.pra.Good) (r : runCpu dt f s = .next t)
    (h : ∀ d, Only Part.notPra d (f d)) : t.dev.pra.Good :=
  run_good g r fun d k => (h (takeCpu d)).good k

theorem runLink_only_good {dt : Nat} {f : Dev → Dev} {s t : State} (g : s.dev.pra.Good) (r : runLink dt f s = .next t)
    (h : ∀ d, Only Part.notPra d (f d)) : t.dev.pra.Good :=
  run_good g r fun d k => (h _).good (by split <;> exact k)

theorem execHeartbeatReceive_good {dt : Nat} {path : Path} {l : LinkHeader} {b : Heartbeat} {s t : State}
    (g : s.dev.pra.Good) (r : execHeartbeatReceive dt path l b s = .next t) : t.dev.pra.Good := by
  unfold execHeartbeatReceive at r
  exact run_good g r fun _ k => (doHeartbeatReceive_only path l b _ rfl (.refl _ _)).good (by split <;> exact k)

theorem exec_good {c : Instr} {s t : State} (g : s.dev.pra.Good) (h : exec c s = .next t) : t.dev.pra.Good := by
  cases c with
  | registerWrite => exact run_good g h fun _ k => doRegisterWrite_good k ..
  | logicRailRise => exact run_only_good g h fun _ => doLogicRailRise_only (s_ := rfl) (k_ := .refl _ _) ..
  | resetNRelease => exact run_good g h fun _ k => doResetNRelease_good k ..
  | inputRise35V => exact run_good g h fun _ k => doInputRise35V_good k ..
  | resetNAssert => exact run_good g h fun _ k => doResetNAssert_good k ..
  | inputFall33V => exact run_good g h fun _ k => doInputFall33V_good k ..
  | railInTolerance => exact run_only_good g h fun _ => doRailInTolerance_only (s_ := rfl) (k_ := .refl _ _) ..
  | railTimeout => exact run_good g h fun _ k => doRailTimeout_good k ..
  | controlDieResetRelease => exact run_good g h fun _ k => doControlDieResetRelease_good k ..
  | sfdpDiscovery => exact run_only_good g h fun _ => doSfdpDiscovery_only (s_ := rfl) (k_ := .refl _ _) ..
  | loaderCheck => exact run_only_good g h fun _ => doLoaderCheck_only (s_ := rfl) (k_ := .refl _ _) ..
  | dramZeroFill => exact run_only_good g h fun _ => doDramZeroFill_only (s_ := rfl) (k_ := .refl _ _) ..
  | bankLoad => exact run_good g h fun _ k => doBankLoad_good k ..
  | firmwareStart => exact run_good g h fun _ k => doFirmwareStart_good k ..
  | configImageCheck => exact run_only_good g h fun _ => doConfigImageCheck_only (s_ := rfl) (k_ := .refl _ _) ..
  | configApply => exact run_good g h fun _ k => doConfigApply_good k ..
  | startHold => exact run_good g h fun _ k => doStartHold_good k ..
  | praWriteBegin => exact run_good g h fun _ k => doPraWriteBegin_good k ..
  | praWriteComplete => exact run_good g h fun _ k => doPraWriteComplete_good k ..
  | praTokenRefill => exact run_good g h fun _ k => doPraTokenRefill_good k ..
  | praLifeUpdate => exact run_good g h fun _ k => doPraLifeUpdate_good k ..
  | learnedOffsetWrite => exact run_good g h fun _ k => doLearnedOffsetWrite_good k ..
  | tunerCodesWrite => exact run_good g h fun _ k => doTunerCodesWrite_good k ..
  | clockMonitorWindow => exact run_only_good g h fun _ => doClockMonitorWindow_only (s_ := rfl) (k_ := .refl _ _) ..
  | pllLossOfLock => exact run_only_good g h fun _ => doPllLossOfLock_only (s_ := rfl) (k_ := .refl _ _) ..
  | bobbinWordWrite => exact run_only_good g h fun _ => doBobbinWordWrite_only (s_ := rfl) (k_ := .refl _ _) ..
  | bobbinWordRead => exact run_only_good g h fun _ => doBobbinWordRead_only (s_ := rfl) (k_ := .refl _ _) ..
  | bobbinFlushWrite => exact run_only_good g h fun _ => doBobbinFlushWrite_only (s_ := rfl) (k_ := .refl _ _) ..
  | bobbinFlushComplete => exact run_only_good g h fun _ => doBobbinFlushComplete_only (s_ := rfl) (k_ := .refl _ _) ..
  | bobErrClear => exact run_only_good g h fun _ => doBobErrClear_only (s_ := rfl) (k_ := .refl _ _) ..
  | bobHwmClr => exact run_only_good g h fun _ => doBobHwmClr_only (s_ := rfl) (k_ := .refl _ _) ..
  | temperatureSample => exact run_only_good g h fun _ => doTemperatureSample_only (s_ := rfl) (k_ := .refl _ _) ..
  | supplyMeasure => exact run_only_good g h fun _ => doSupplyMeasure_only (s_ := rfl) (k_ := .refl _ _) ..
  | watchdogExpire => exact run_good g h fun _ k => doWatchdogExpire_good k ..
  | tickStrobe => exact run_good g h fun _ k => doTickStrobe_good k ..
  | drainComplete => exact run_only_good g h fun _ => doDrainComplete_only (s_ := rfl) (k_ := .refl _ _) ..
  | scheduleComputation => exact run_only_good g h fun _ => doScheduleComputation_only (s_ := rfl) (k_ := .refl _ _) ..
  | phaseDeadlineMiss => exact run_only_good g h fun _ => doPhaseDeadlineMiss_only (s_ := rfl) (k_ := .refl _ _) ..
  | transmitLatch => exact run_only_good g h fun _ => doTransmitLatch_only (s_ := rfl) (k_ := .refl _ _) ..
  | whlLatch => exact run_only_good g h fun _ => doWhlLatch_only (s_ := rfl) (k_ := .refl _ _) ..
  | whlCtrlWrite => exact run_only_good g h fun _ => doWhlCtrlWrite_only (s_ := rfl) (k_ := .refl _ _) ..
  | whlTodArm => exact run_only_good g h fun _ => doWhlTodArm_only (s_ := rfl) (k_ := .refl _ _) ..
  | whlTickPeriodWrite => exact run_only_good g h fun _ => doWhlTickPeriodWrite_only (s_ := rfl) (k_ := .refl _ _) ..
  | whlEpochWrite => exact run_only_good g h fun _ => doWhlEpochWrite_only (s_ := rfl) (k_ := .refl _ _) ..
  | whlOvrClr => exact run_only_good g h fun _ => doWhlOvrClr_only (s_ := rfl) (k_ := .refl _ _) ..
  | ptpSync => exact runCpu_only_good g h fun _ => doPtpSync_only (s_ := rfl) (k_ := .refl _ _) ..
  | ptpAnnounce => exact runCpu_only_good g h fun _ => doPtpAnnounce_only (s_ := rfl) (k_ := .refl _ _) ..
  | ptpDelayReqSend => exact run_only_good g h fun _ => doPtpDelayReqSend_only (s_ := rfl) (k_ := .refl _ _) ..
  | ptpDelayResp => exact runCpu_only_good g h fun _ => doPtpDelayResp_only (s_ := rfl) (k_ := .refl _ _) ..
  | ptpAnnounceTimeout => exact run_only_good g h fun _ => doPtpAnnounceTimeout_only (s_ := rfl) (k_ := .refl _ _) ..
  | ppsInEdge => exact run_only_good g h fun _ => doPpsInEdge_only (s_ := rfl) (k_ := .refl _ _) ..
  | ppsTimeout => exact run_only_good g h fun _ => doPpsTimeout_only (s_ := rfl) (k_ := .refl _ _) ..
  | ref10mLoss => exact run_only_good g h fun _ => doRef10mLoss_only (s_ := rfl) (k_ := .refl _ _) ..
  | ptpPreferenceTimer => exact run_only_good g h fun _ => doPtpPreferenceTimer_only (s_ := rfl) (k_ := .refl _ _) ..
  | ppsOutSecond => exact run_only_good g h fun _ => doPpsOutSecond_only (s_ := rfl) (k_ := .refl _ _) ..
  | launchRelease => exact run_only_good g h fun _ => doLaunchRelease_only (s_ := rfl) (k_ := .refl _ _) ..
  | spnTargetWrite => exact run_only_good g h fun _ => doSpnTargetWrite_only (s_ := rfl) (k_ := .refl _ _) ..
  | spindleStateReached => exact run_only_good g h fun _ => doSpindleStateReached_only (s_ := rfl) (k_ := .refl _ _) ..
  | spnWindowWrite => exact run_only_good g h fun _ => doSpnWindowWrite_only (s_ := rfl) (k_ := .refl _ _) ..
  | spnBindWrite => exact run_only_good g h fun _ => doSpnBindWrite_only (s_ := rfl) (k_ := .refl _ _) ..
  | calStart => exact run_only_good g h fun _ => doCalStart_only (s_ := rfl) (k_ := .refl _ _) ..
  | inhClr => exact run_only_good g h fun _ => doInhClr_only (s_ := rfl) (k_ := .refl _ _) ..
  | spnTuneWrite => exact run_only_good g h fun _ => doSpnTuneWrite_only (s_ := rfl) (k_ := .refl _ _) ..
  | spnTrimWrite => exact run_only_good g h fun _ => doSpnTrimWrite_only (s_ := rfl) (k_ := .refl _ _) ..
  | calPairEnd => exact run_only_good g h fun _ => doCalPairEnd_only (s_ := rfl) (k_ := .refl _ _) ..
  | calBlankEnd => exact run_only_good g h fun _ => doCalBlankEnd_only (s_ := rfl) (k_ := .refl _ _) ..
  | txsynCalPair => exact run_only_good g h fun _ => doTxsynCalPair_only (s_ := rfl) (k_ := .refl _ _) ..
  | cxRequest => exact run_only_good g h fun _ => doCxRequest_only (s_ := rfl) (k_ := .refl _ _) ..
  | cxGrantSample => exact run_only_good g h fun _ => doCxGrantSample_only (s_ := rfl) (k_ := .refl _ _) ..
  | cxGrantFall => exact run_only_good g h fun _ => doCxGrantFall_only (s_ := rfl) (k_ := .refl _ _) ..
  | txSequenceStep => exact run_only_good g h fun _ => doTxSequenceStep_only (s_ := rfl) (k_ := .refl _ _) ..
  | txStart => exact run_only_good g h fun _ => doTxStart_only (s_ := rfl) (k_ := .refl _ _) ..
  | txEnd => exact run_only_good g h fun _ => doTxEnd_only (s_ := rfl) (k_ := .refl _ _) ..
  | txReleaseStep => exact run_only_good g h fun _ => doTxReleaseStep_only (s_ := rfl) (k_ := .refl _ _) ..
  | reflectionCheck => exact run_only_good g h fun _ => doReflectionCheck_only (s_ := rfl) (k_ := .refl _ _) ..
  | inhibitRetry => exact run_only_good g h fun _ => doInhibitRetry_only (s_ := rfl) (k_ := .refl _ _) ..
  | maskBlockCheck => exact run_only_good g h fun _ => doMaskBlockCheck_only (s_ := rfl) (k_ := .refl _ _) ..
  | receiveIdle => exact run_only_good g h fun _ => doReceiveIdle_only (s_ := rfl) (k_ := .refl _ _) ..
  | spindleHold => exact run_only_good g h fun _ => doSpindleHold_only (s_ := rfl) (k_ := .refl _ _) ..
  | holdEnd => exact run_only_good g h fun _ => doHoldEnd_only (s_ := rfl) (k_ := .refl _ _) ..
  | preambleDetect => exact run_only_good g h fun _ => doPreambleDetect_only (s_ := rfl) (k_ := .refl _ _) ..
  | headerDecode => exact run_only_good g h fun _ => doHeaderDecode_only (s_ := rfl) (k_ := .refl _ _) ..
  | frameEnd => exact run_only_good g h fun _ => doFrameEnd_only (s_ := rfl) (k_ := .refl _ _) ..
  | frameTooLong => exact run_only_good g h fun _ => doFrameTooLong_only (s_ := rfl) (k_ := .refl _ _) ..
  | rxFrameProcess => exact run_only_good g h fun _ => doRxFrameProcess_only (s_ := rfl) (k_ := .refl _ _) ..
  | nodeOffsetLapse => exact run_only_good g h fun _ => doNodeOffsetLapse_only (s_ := rfl) (k_ := .refl _ _) ..
  | correctionFrameExpire => exact run_only_good g h fun _ => doCorrectionFrameExpire_only (s_ := rfl) (k_ := .refl _ _) ..
  | cellRead => exact run_only_good g h fun _ => doCellRead_only (s_ := rfl) (k_ := .refl _ _) ..
  | cellWrite => exact run_only_good g h fun _ => doCellWrite_only (s_ := rfl) (k_ := .refl _ _) ..
  | cellDelete => exact run_only_good g h fun _ => doCellDelete_only (s_ := rfl) (k_ := .refl _ _) ..
  | sfArm => exact run_only_good g h fun _ => doSfArm_only (s_ := rfl) (k_ := .refl _ _) ..
  | sfDisarm => exact run_only_good g h fun _ => doSfDisarm_only (s_ := rfl) (k_ := .refl _ _) ..
  | sfSwitch => exact run_only_good g h fun _ => doSfSwitch_only (s_ := rfl) (k_ := .refl _ _) ..
  | wrpHopWrite => exact run_only_good g h fun _ => doWrpHopWrite_only (s_ := rfl) (k_ := .refl _ _) ..
  | wrpTimingWrite => exact run_only_good g h fun _ => doWrpTimingWrite_only (s_ := rfl) (k_ := .refl _ _) ..
  | dioTrickleTimer => exact run_only_good g h fun _ => doDioTrickleTimer_only (s_ := rfl) (k_ := .refl _ _) ..
  | disReceive => exact runCpu_only_good g h fun _ => doDisReceive_only (s_ := rfl) (k_ := .refl _ _) ..
  | daoReceive => exact runCpu_only_good g h fun _ => doDaoReceive_only (s_ := rfl) (k_ := .refl _ _) ..
  | daoPathLapse => exact run_only_good g h fun _ => doDaoPathLapse_only (s_ := rfl) (k_ := .refl _ _) ..
  | dormantExpire => exact run_only_good g h fun _ => doDormantExpire_only (s_ := rfl) (k_ := .refl _ _) ..
  | throwConfirmReceive => exact runCpu_only_good g h fun _ => doThrowConfirmReceive_only (s_ := rfl) (k_ := .refl _ _) ..
  | hankReceive => exact runCpu_only_good g h fun _ => doHankReceive_only (s_ := rfl) (k_ := .refl _ _) ..
  | reassemblyTimeout => exact run_only_good g h fun _ => doReassemblyTimeout_only (s_ := rfl) (k_ := .refl _ _) ..
  | hankAdmit => exact run_only_good g h fun _ => doHankAdmit_only (s_ := rfl) (k_ := .refl _ _) ..
  | threadTimeout => exact run_only_good g h fun _ => doThreadTimeout_only (s_ := rfl) (k_ := .refl _ _) ..
  | threadRetainExpire => exact run_good g h fun _ k => doThreadRetainExpire_good k ..
  | completionSend => exact run_good g h fun _ k => doCompletionSend_good k ..
  | regRead => exact run_only_good g h fun _ => doRegRead_only (s_ := rfl) (k_ := .refl _ _) ..
  | regWrite => exact run_good g h fun _ k => doRegWrite_good k ..
  | praInfo => exact run_good g h fun _ k => doPraInfo_good k ..
  | healthSummary => exact run_only_good g h fun _ => doHealthSummary_only (s_ := rfl) (k_ := .refl _ _) ..
  | healthLog => exact run_only_good g h fun _ => doHealthLog_only (s_ := rfl) (k_ := .refl _ _) ..
  | threadQuery => exact run_only_good g h fun _ => doThreadQuery_only (s_ := rfl) (k_ := .refl _ _) ..
  | completeAck => exact run_good g h fun _ k => doCompleteAck_good k ..
  | powerState => exact run_only_good g h fun _ => doPowerState_only (s_ := rfl) (k_ := .refl _ _) ..
  | powerOffRails => exact run_good g h fun _ k => doPowerOffRails_good k ..
  | wakeElapsed => exact run_good g h fun _ k => doWakeElapsed_good k ..
  | returnTest => exact run_only_good g h fun _ => doReturnTest_only (s_ := rfl) (k_ := .refl _ _) ..
  | test => exact run_only_good g h fun _ => doTest_only (s_ := rfl) (k_ := .refl _ _) ..
  | spindleTestComplete => exact run_only_good g h fun _ => doSpindleTestComplete_only (s_ := rfl) (k_ := .refl _ _) ..
  | bypass => exact run_only_good g h fun _ => doBypass_only (s_ := rfl) (k_ := .refl _ _) ..
  | unbypass => exact run_only_good g h fun _ => doUnbypass_only (s_ := rfl) (k_ := .refl _ _) ..
  | nodeReq => exact run_only_good g h fun _ => doNodeReq_only (s_ := rfl) (k_ := .refl _ _) ..
  | nodeReplyReceive => exact runCpu_only_good g h fun _ => doNodeReplyReceive_only (s_ := rfl) (k_ := .refl _ _) ..
  | throwGroupSet => exact run_only_good g h fun _ => doThrowGroupSet_only (s_ := rfl) (k_ := .refl _ _) ..
  | throwCmd => exact run_only_good g h fun _ => doThrowCmd_only (s_ := rfl) (k_ := .refl _ _) ..
  | objOpen => exact run_only_good g h fun _ => doObjOpen_only (s_ := rfl) (k_ := .refl _ _) ..
  | objWrite => exact run_only_good g h fun _ => doObjWrite_only (s_ := rfl) (k_ := .refl _ _) ..
  | objClose => exact run_only_good g h fun _ => doObjClose_only (s_ := rfl) (k_ := .refl _ _) ..
  | objDelete => exact run_only_good g h fun _ => doObjDelete_only (s_ := rfl) (k_ := .refl _ _) ..
  | objSend => exact run_only_good g h fun _ => doObjSend_only (s_ := rfl) (k_ := .refl _ _) ..
  | policyWrite => exact run_only_good g h fun _ => doPolicyWrite_only (s_ := rfl) (k_ := .refl _ _) ..
  | policyRead => exact run_only_good g h fun _ => doPolicyRead_only (s_ := rfl) (k_ := .refl _ _) ..
  | keyLoad => exact run_good g h fun _ k => doKeyLoad_good k ..
  | keyAttr => exact run_only_good g h fun _ => doKeyAttr_only (s_ := rfl) (k_ := .refl _ _) ..
  | keyErase => exact run_good g h fun _ k => doKeyErase_good k ..
  | keyInfo => exact run_only_good g h fun _ => doKeyInfo_only (s_ := rfl) (k_ := .refl _ _) ..
  | lifecycleSet => exact run_good g h fun _ k => doLifecycleSet_good k ..
  | reelStage => exact run_good g h fun _ k => doReelStage_good k ..
  | reelStageBlock => exact run_good g h fun _ k => doReelStageBlock_good k ..
  | reelActivate => exact run_only_good g h fun _ => doReelActivate_only (s_ := rfl) (k_ := .refl _ _) ..
  | reelActivateExecute => exact run_good g h fun _ k => doReelActivateExecute_good k ..
  | activateReset => exact run_good g h fun _ k => doActivateReset_good k ..
  | ownerLock => exact run_good g h fun _ k => doOwnerLock_good k ..
  | quoteReq => exact runCpu_only_good g h fun _ => doQuoteReq_only (s_ := rfl) (k_ := .refl _ _) ..
  | packetIngress => exact run_only_good g h fun _ => doPacketIngress_only (s_ := rfl) (k_ := .refl _ _) ..
  | packetIngressEnd => exact run_only_good g h fun _ => doPacketIngressEnd_only (s_ := rfl) (k_ := .refl _ _) ..
  | egressSelect => exact run_only_good g h fun _ => doEgressSelect_only (s_ := rfl) (k_ := .refl _ _) ..
  | portLink => exact run_only_good g h fun _ => doPortLink_only (s_ := rfl) (k_ := .refl _ _) ..
  | tableRead => exact run_only_good g h fun _ => doTableRead_only (s_ := rfl) (k_ := .refl _ _) ..
  | tableWrite => exact run_only_good g h fun _ => doTableWrite_only (s_ := rfl) (k_ := .refl _ _) ..
  | tableDelete => exact run_only_good g h fun _ => doTableDelete_only (s_ := rfl) (k_ := .refl _ _) ..
  | tableInsert => exact run_only_good g h fun _ => doTableInsert_only (s_ := rfl) (k_ := .refl _ _) ..
  | tableFind => exact run_only_good g h fun _ => doTableFind_only (s_ := rfl) (k_ := .refl _ _) ..
  | tableLookup => exact run_only_good g h fun _ => doTableLookup_only (s_ := rfl) (k_ := .refl _ _) ..
  | bankSwap => exact run_only_good g h fun _ => doBankSwap_only (s_ := rfl) (k_ := .refl _ _) ..
  | shaperWrite => exact run_only_good g h fun _ => doShaperWrite_only (s_ := rfl) (k_ := .refl _ _) ..
  | policerWrite => exact run_only_good g h fun _ => doPolicerWrite_only (s_ := rfl) (k_ := .refl _ _) ..
  | gateArm => exact run_only_good g h fun _ => doGateArm_only (s_ := rfl) (k_ := .refl _ _) ..
  | gateCancel => exact run_only_good g h fun _ => doGateCancel_only (s_ := rfl) (k_ := .refl _ _) ..
  | gateSwitch => exact run_only_good g h fun _ => doGateSwitch_only (s_ := rfl) (k_ := .refl _ _) ..
  | gateEntryChange => exact run_only_good g h fun _ => doGateEntryChange_only (s_ := rfl) (k_ := .refl _ _) ..
  | pauseReceive => exact run_only_good g h fun _ => doPauseReceive_only (s_ := rfl) (k_ := .refl _ _) ..
  | pauseExpire => exact run_only_good g h fun _ => doPauseExpire_only (s_ := rfl) (k_ := .refl _ _) ..
  | pauseLong => exact run_only_good g h fun _ => doPauseLong_only (s_ := rfl) (k_ := .refl _ _) ..
  | pfcRefresh => exact run_only_good g h fun _ => doPfcRefresh_only (s_ := rfl) (k_ := .refl _ _) ..
  | fcConfigWrite => exact run_only_good g h fun _ => doFcConfigWrite_only (s_ := rfl) (k_ := .refl _ _) ..
  | heartbeatSend => exact run_only_good g h fun _ => doHeartbeatSend_only (s_ := rfl) (k_ := .refl _ _) ..
  | heartbeatReceive => exact execHeartbeatReceive_good g h
  | offerReceive => exact runLink_only_good g h fun _ => doOfferReceive_only (s_ := rfl) (k_ := .refl _ _) ..
  | mergeWaitExpire => exact run_only_good g h fun _ => doMergeWaitExpire_only (s_ := rfl) (k_ := .refl _ _) ..
  | assignReceive => exact runLink_only_good g h fun _ => doAssignReceive_only (s_ := rfl) (k_ := .refl _ _) ..
  | countersReceive => exact runLink_only_good g h fun _ => doCountersReceive_only (s_ := rfl) (k_ := .refl _ _) ..
  | deltaReceive => exact runLink_only_good g h fun _ => doDeltaReceive_only (s_ := rfl) (k_ := .refl _ _) ..
  | snapReqReceive => exact runLink_only_good g h fun _ => doSnapReqReceive_only (s_ := rfl) (k_ := .refl _ _) ..
  | snapReceive => exact runLink_only_good g h fun _ => doSnapReceive_only (s_ := rfl) (k_ := .refl _ _) ..
  | treadleTimeout => exact run_only_good g h fun _ => doTreadleTimeout_only (s_ := rfl) (k_ := .refl _ _) ..
  | treadleReset => exact run_good g h fun _ k => doTreadleReset_good k ..
  | treadleStatusTimeout => exact run_only_good g h fun _ => doTreadleStatusTimeout_only (s_ := rfl) (k_ := .refl _ _) ..
  | treadleLost => exact run_only_good g h fun _ => doTreadleLost_only (s_ := rfl) (k_ := .refl _ _) ..
  | loomBeaconSend => exact run_only_good g h fun _ => doLoomBeaconSend_only (s_ := rfl) (k_ := .refl _ _) ..
  | loomBeaconReceive => exact runCpu_only_good g h fun _ => doLoomBeaconReceive_only (s_ := rfl) (k_ := .refl _ _) ..
  | loomEntryLapse => exact run_only_good g h fun _ => doLoomEntryLapse_only (s_ := rfl) (k_ := .refl _ _) ..
  | visitQReceive => exact runCpu_only_good g h fun _ => doVisitQReceive_only (s_ := rfl) (k_ := .refl _ _) ..
  | visitAReceive => exact runCpu_only_good g h fun _ => doVisitAReceive_only (s_ := rfl) (k_ := .refl _ _) ..
  | visitTimeout => exact run_only_good g h fun _ => doVisitTimeout_only (s_ := rfl) (k_ := .refl _ _) ..
  | whereReceive => exact runCpu_only_good g h fun _ => doWhereReceive_only (s_ := rfl) (k_ := .refl _ _) ..
  | whereRefresh => exact run_only_good g h fun _ => doWhereRefresh_only (s_ := rfl) (k_ := .refl _ _) ..
  | homeLeaseExpire => exact run_only_good g h fun _ => doHomeLeaseExpire_only (s_ := rfl) (k_ := .refl _ _) ..
  | fwdReceive => exact runCpu_only_good g h fun _ => doFwdReceive_only (s_ := rfl) (k_ := .refl _ _) ..
  | relayReceive => exact runCpu_only_good g h fun _ => doRelayReceive_only (s_ := rfl) (k_ := .refl _ _) ..
  | relayResReceive => exact runCpu_only_good g h fun _ => doRelayResReceive_only (s_ := rfl) (k_ := .refl _ _) ..
  | nodeRefetchTimeout => exact run_only_good g h fun _ => doNodeRefetchTimeout_only (s_ := rfl) (k_ := .refl _ _) ..
  | keyRemask => exact run_only_good g h fun _ => doKeyRemask_only (s_ := rfl) (k_ := .refl _ _) ..
  | rngHealthWindow => exact run_only_good g h fun _ => doRngHealthWindow_only (s_ := rfl) (k_ := .refl _ _) ..
  | hello => exact run_only_good g h fun _ => doHello_only (s_ := rfl) (k_ := .refl _ _) ..
  | setBaud => exact run_only_good g h fun _ => doSetBaud_only (s_ := rfl) (k_ := .refl _ _) ..
  | setBaudRevert => exact run_only_good g h fun _ => doSetBaudRevert_only (s_ := rfl) (k_ := .refl _ _) ..
  | svcRegRead => exact run_only_good g h fun _ => doSvcRegRead_only (s_ := rfl) (k_ := .refl _ _) ..
  | svcRegWrite => exact run_good g h fun _ k => doSvcRegWrite_good k ..
  | quote => exact run_only_good g h fun _ => doQuote_only (s_ := rfl) (k_ := .refl _ _) ..
  | serviceFrameGap => exact run_only_good g h fun _ => doServiceFrameGap_only (s_ := rfl) (k_ := .refl _ _) ..
  | imgBegin => exact run_only_good g h fun _ => doImgBegin_only (s_ := rfl) (k_ := .refl _ _) ..
  | imgData => exact run_good g h fun _ k => doImgData_good k ..
  | imgEnd => exact run_good g h fun _ k => doImgEnd_good k ..
  | recoveryReset => exact run_good g h fun _ k => doRecoveryReset_good k ..
  | recoveryCardRead => exact run_good g h fun _ k => doRecoveryCardRead_good k ..
  | evtStickyClear => exact run_only_good g h fun _ => doEvtStickyClear_only (s_ := rfl) (k_ := .refl _ _) ..
  | noticeSend => exact run_only_good g h fun _ => doNoticeSend_only (s_ := rfl) (k_ := .refl _ _) ..
  | pickerScan => exact run_good g h fun _ k => doPickerScan_good k ..
  | thrHwmClr => exact run_only_good g h fun _ => doThrHwmClr_only (s_ := rfl) (k_ := .refl _ _) ..
  | holdupCheckStart => exact run_only_good g h fun _ => doHoldupCheckStart_only (s_ := rfl) (k_ := .refl _ _) ..
  | holdupCheckEnd => exact run_only_good g h fun _ => doHoldupCheckEnd_only (s_ := rfl) (k_ := .refl _ _) ..
  | logicRailFall => exact run_good g h fun _ k => doLogicRailFall_good k ..
  | ref10mQualify => exact run_only_good g h fun _ => doRef10mQualify_only (s_ := rfl) (k_ := .refl _ _) ..
  | pllRelock => exact run_only_good g h fun _ => doPllRelock_only (s_ := rfl) (k_ := .refl _ _) ..
  | treadleStatusResume => exact run_only_good g h fun _ => doTreadleStatusResume_only (s_ := rfl) (k_ := .refl _ _) ..
  | receiveWindowStart => exact run_only_good g h fun _ => doReceiveWindowStart_only (s_ := rfl) (k_ := .refl _ _) ..

theorem step_good {s t : State} (g : s.dev.pra.Good) (h : step s = .next t) : t.dev.pra.Good := by
  unfold step at h; split at h
  · cases h; exact g
  next c rest _ => exact exec_good (s := { s with pending := rest }) g h

/-- Settles O55: a command either leaves the array as it is, or changes it by refills, writes and the passage of the queue,
each of which keeps the form and the budget, or is a reset, which empties the counts of the buckets. -/
theorem everyStepKeepsTheArray : Obligations.EveryStepKeepsTheArray := by
  unfold Obligations.EveryStepKeepsTheArray
  intro s t wf budget h
  exact step_good ⟨wf, budget⟩ h

end Sys2Proof.Machine
end

section
/-! PROOFS. The supply and the rail sequence (O3). -/

namespace Sys2Proof.Machine

theorem doLogicRailRise_unpowered {d : Dev} (h : d.phase = .unpowered) :
    doLogicRailRise d = { d with
      phase := .off, pwr := { wall := d.pwr.wall, cause := 1, powerOn := true, inputOk := false, pwrfail := true } } :=
  if_pos h

/-- While the firmware does not run, no source is evaluated (R348). -/
theorem watchIf_stopped {d : Dev} (e : Nat) (on : Bool) (h : d.phase.fwRuns = false) : watchIf d e on = d := by
  simp [watchIf, watch, h]

/-- The first rise of the input after a rise of the logic rail begins a start with cause POWER_ON (R38, R346). -/
theorem doInputRise35V_powerOn {d : Dev} (off : d.phase = .off) (high : d.pwr.resetLow = false) (low : d.pwr.inputOk = false)
    (cold : d.pwr.powerOn = true) :
    doInputRise35V d = d.fresh (.rails 0) { d.pwr with
      inputOk := true, pwrfail := false, cause := 1, rail := 0, powerOn := false, failsafeRail := false, t0 := d.pwr.wall,
      vhold := 0, pin := 0, temps := ⟨0, 0, 0, 0⟩, wake := 0, offAt := none } := by
  have still := watchIf_stopped (d := d.modPwr fun p => { p with inputOk := true, pwrfail := false }) evPwrfail false
    (by simp [off, Phase.fwRuns])
  simp only [doInputRise35V, still, beginStart, Dev.modPwr_phase, Dev.modPwr_pwr, off, high, low, cold, Phase.canStart,
    and_self, if_true, Bool.not_false, reduceCtorEq, if_false]
  rfl

theorem doRailInTolerance_inTime {d : Dev} {k : Nat} (step : k < 5) (h : d.phase = .rails k)
    (inTime : d.pwr.wall ≤ d.pwr.t0 + (k + 1) * 1000000) : doRailInTolerance d = { d with phase := .rails (k + 1) } := by
  simp [doRailInTolerance, h, step, railInTime, inTime]

theorem doRailInTolerance_late {d : Dev} {k : Nat} (h : d.phase = .rails k)
    (late : d.pwr.t0 + (k + 1) * 1000000 < d.pwr.wall) : doRailInTolerance d = d := by
  simp [doRailInTolerance, h, railInTime, late]

theorem doRailTimeout_missed {d : Dev} {k : Nat} (board : Bool) (step : k < 5) (h : d.phase = .rails k)
    (missed : d.pwr.t0 + (k + 1) * 1000000 ≤ d.pwr.wall) :
    doRailTimeout board d
      = railsOff (d.modPwr fun p => { p with cause := 4, rail := railOfStep k board, failsafeRail := true }) .railFailed := by
  simp [doRailTimeout, h, step, missed]

/-- Settles O3. -/
theorem railSequence : Obligations.RailSequence := by
  unfold Obligations.RailSequence
  intro s dt e
  have kept : Kept s.dev e := elapse_kept s.dev dt
  have wall : e.pwr.wall = s.dev.pwr.wall + dt := by simp [e]
  refine ⟨fun down => gives_run rfl ?_, fun off high low cold => gives_run rfl ?_, fun k step rails => ?_⟩
  · rw [doLogicRailRise_unpowered (by simpa using down), wall]
  · rw [doInputRise35V_powerOn (by simpa using off) (by simpa using high) (by simpa using low) (by simpa using cold)]
    exact ⟨rfl, rfl, wall, rfl, rfl, rfl, rfl, kept.fresh ..⟩
  · have rails' : e.phase = .rails k := by simpa [e] using rails
    have t0 : e.pwr.t0 = s.dev.pwr.t0 := by simp [e]
    rw [← wall, ← t0]
    refine ⟨fun inTime => gives_run rfl (doRailInTolerance_inTime step rails' inTime),
      fun late => gives_run rfl (doRailInTolerance_late rails' late), fun board missed => gives_run rfl ?_⟩
    rw [doRailTimeout_missed board step rails' missed]
    exact ⟨rfl, rfl, rfl, rfl, kept.fresh ..⟩

end Sys2Proof.Machine
end

section
/-! PROOFS. Release of control die reset (O5). -/

namespace Sys2Proof.Machine

@[simp] theorem Pra.initBuckets_words (p : Pra) : p.initBuckets.words = p.words := rfl

/-- A write of the ROM or of the firmware at a start whose verify fails leaves every word as it was (R53). -/
theorem praWait_fault_word (d : Dev) (n m : Nat) (v : Word) : (praWait d n v false).1.pra.word m = d.pra.word m := by
  simp only [praWait, praFinish_fault_word]
  split <;> simp

@[simp] theorem praWait_straps (d : Dev) (n : Nat) (v : Word) (ok : Bool) : (praWait d n v ok).1.pwr.straps = d.pwr.straps := by
  simp only [praWait, praFinish_pwr]
  split <;> simp

/-- FAILS as the ROM counts it (R41). -/
def Dev.failedStarts (d : Dev) : Nat :=
  if bit (d.pra.word 2) 7 && [5, 6, 7].contains d.pwr.cause then min (fld (d.pra.word 2) 3 0 + 1) 15
  else fld (d.pra.word 2) 3 0

theorem romBoot_low (d : Dev) (ok : Bool) : romBoot d true ok = enterRecovery d := rfl

theorem romBoot_failed {d : Dev} (ok : Bool) (h : 2 ≤ d.failedStarts) : romBoot d false ok = enterRecovery d := by
  simp only [Dev.failedStarts] at h
  simp only [romBoot, Bool.false_eq_true, if_false, h, if_true]

theorem romBoot_counts {d : Dev} (ok : Bool) (h : d.failedStarts < 2) :
    romBoot d false ok = (praWait d 2 (bootWord (fld (d.pra.word 2) 31 8 + 1) true d.failedStarts) ok).1 := by
  have few : ¬2 ≤ d.failedStarts := by omega
  simp only [Dev.failedStarts] at few ⊢
  simp only [romBoot, Bool.false_eq_true, if_false, few]

/-- The control die as its reset is released: the straps are sampled and the buckets are set (R55, R386). -/
def Dev.released (d : Dev) (low : Bool) (straps : BitVec 5) : Dev :=
  { d.modPwr (fun p => { p with straps := straps, recoveryLow := low, treadleLapse := false }) with
    phase := .romBooted, pra := d.pra.initBuckets }

section
variable {d : Dev} (low : Bool) (straps : BitVec 5) (ok : Bool) (h : d.phase = .rails 5 ∨ d.phase = .inReset)
include h

theorem doControlDieResetRelease_clocked :
    doControlDieResetRelease low straps true ok d = romBoot (d.released low straps) low ok := by
  simp only [doControlDieResetRelease, h, if_true]
  rfl

theorem doControlDieResetRelease_unclocked :
    doControlDieResetRelease low straps false ok d
      = { d.modPwr (fun p => { p with straps := straps, recoveryLow := low, treadleLapse := false }) with
            phase := .inReset } := by
  simp only [doControlDieResetRelease, h, if_true, Bool.false_eq_true, if_false]

end

/-- Settles O5: the buckets as they are set leave the words that the ROM reads, so it counts what the reset left. -/
theorem romCountsTheStart : Obligations.RomCountsTheStart := by
  unfold Obligations.RomCountsTheStart
  intro s dt straps reset b fails
  have reset' : (s.dev.elapse dt).phase = .rails 5 ∨ (s.dev.elapse dt).phase = .inReset := by simpa using reset
  have words (low : Bool) : ((s.dev.elapse dt).released low straps).pra.words = s.dev.pra.words := by simp [Dev.released]
  have word (low : Bool) (n : Nat) : ((s.dev.elapse dt).released low straps).pra.word n = s.dev.pra.word n := by
    simp only [Pra.word, words]
  have counted (low : Bool) : ((s.dev.elapse dt).released low straps).failedStarts = fails := by
    simp only [Dev.failedStarts, word]
    simp [Dev.released, fails, b]
  refine ⟨fun ok few => gives_run rfl ?_, fun ok many => gives_run rfl ?_, fun ok => gives_run rfl ?_,
    fun low ok => gives_run rfl ?_⟩
  · rw [doControlDieResetRelease_clocked _ _ _ reset', romBoot_counts _ (by rwa [counted]), word, counted]
    refine ⟨by rw [praWait_phase]; rfl, ?_, by rw [praWait_straps]; rfl, fun n other => ?_⟩
    · cases ok
      · rw [praWait_fault_word, word]; rfl
      · exact praWait_word_same ..
    · rw [praWait_word_other _ _ _ _ _ other.symm, word]
  · rw [doControlDieResetRelease_clocked _ _ _ reset', romBoot_failed _ (by rwa [counted])]
    exact ⟨rfl, rfl, words false⟩
  · rw [doControlDieResetRelease_clocked _ _ _ reset', romBoot_low]
    exact ⟨rfl, rfl, words true⟩
  · rw [doControlDieResetRelease_unclocked _ _ _ reset']
    exact ⟨rfl, elapse_kept s.dev dt⟩

end Sys2Proof.Machine
end

section
/-! PROOFS. The array's refills and writes (O9), and the firmware's own writes (O10). First what a refill leaves in a bucket and
what the end of a write leaves in a word, then the rows. -/

namespace Sys2Proof.Machine

/-! ## Sparse tables -/

theorem kfind_of_lt {α : Type} {m : KMap α} {lo k : Nat} (h : ksortedFrom lo m = true) (below : k < lo) : kfind m k = none := by
  induction m generalizing lo with
  | nil => rfl
  | cons p r ih =>
    obtain ⟨j, v⟩ := p
    simp only [ksortedFrom, Bool.and_eq_true, decide_eq_true_eq] at h
    have ne : j ≠ k := by omega
    simpa [kfind, ne] using ih h.2 (by omega)

/-- In a table with rising keys, an entry that reads as an unlisted one may be left out. -/
theorem kgetD_filter_ne_zero {m : KMap Nat} {lo : Nat} (h : ksortedFrom lo m = true) (k : Nat) :
    kgetD (m.filter fun q => q.2 != 0) k 0 = kgetD m k 0 := by
  induction m generalizing lo with
  | nil => rfl
  | cons p r ih =>
    obtain ⟨j, v⟩ := p
    simp only [ksortedFrom, Bool.and_eq_true, decide_eq_true_eq] at h
    have rest := ih h.2
    by_cases hv : v = 0
    · by_cases hj : j = k
      · have none_ := kfind_of_lt h.2 (k := k) (by omega)
        simpa [kgetD, kfind, hv, hj, none_] using rest
      · simpa [kgetD, kfind, hv, hj] using rest
    · by_cases hj : j = k
      · simp [kgetD, kfind, hv, hj]
      · simpa [kgetD, kfind, hv, hj] using rest

theorem kgetD_map_sub (m : KMap Nat) (c k : Nat) : kgetD (m.map fun q => (q.1, q.2 - c)) k 0 = kgetD m k 0 - c := by
  induction m with
  | nil => simp [kgetD, kfind]
  | cons p r ih =>
    obtain ⟨j, v⟩ := p
    by_cases hj : j = k
    · simp [kgetD, kfind, hj]
    · simpa [kgetD, kfind, hj] using ih

theorem kgetD_le {m : KMap Nat} {c : Nat} (h : m.all (fun q => decide (q.2 ≤ c)) = true) (k : Nat) : kgetD m k 0 ≤ c := by
  induction m with
  | nil => simp [kgetD, kfind]
  | cons p r ih =>
    obtain ⟨j, v⟩ := p
    simp only [List.all_cons, Bool.and_eq_true, decide_eq_true_eq] at h
    by_cases hj : j = k
    · simpa [kgetD, kfind, hj] using h.1
    · simpa [kgetD, kfind, hj] using ih h.2

/-! ## Refills -/

/-- Each refill adds a token to a bucket that is not full (R54). -/
theorem Pra.Good.refill_tokens {p : Pra} (h : p.Good) (c n : Nat) : (p.refill c).tokens n = min 4096 (p.tokens n + c) := by
  obtain ⟨-, -, -, -, sorted, budget⟩ := p.good_iff.1 h
  have left : kgetD (p.refill c).spent n 0 = kgetD p.spent n 0 - c := by
    rw [Pra.refill, kgetD_filter_ne_zero (ksortedFrom_map _ 0 (fun q => q.2 - c) sorted), kgetD_map_sub]
  have most := kgetD_le budget n
  simp only [Pra.tokens, left]
  omega

/-- Once the refills fallen due are taken, none is due. -/
theorem Pra.refillsDue_refill (p : Pra) (up : Nat) : (p.refill (p.refillsDue up)).refillsDue up = 0 := by
  unfold refillsDue refill; dsimp only
  by_cases due : p.refillAt ≤ up
  · rw [if_pos due, if_neg (by omega)]
  · rw [if_neg due, if_neg (by omega)]

theorem praDue_pra (d : Dev) : (praDue d).pra
    = if d.pra.refillsDue d.glb.upNs = 0 then d.pra else d.pra.refill (d.pra.refillsDue d.glb.upNs) := by
  unfold praDue; dsimp only; split <;> simp

theorem praDue_current {d : Dev} (h : d.pra.refillsDue d.glb.upNs = 0) : praDue d = d := if_pos h

theorem praDue_refillsDue (d : Dev) : (praDue d).pra.refillsDue d.glb.upNs = 0 := by
  rw [praDue_pra]; split
  · assumption
  · exact Pra.refillsDue_refill ..

/-- Refills change the buckets and the instant of the next refill, and nothing else of the array. -/
theorem praDue_fields (d : Dev) : (praDue d).pra.words = d.pra.words ∧ (praDue d).pra.wear = d.pra.wear
    ∧ (praDue d).pra.queue = d.pra.queue ∧ (praDue d).pra.busy = d.pra.busy ∧ (praDue d).pra.lifeAt = d.pra.lifeAt := by
  rw [praDue_pra]; split <;> exact ⟨rfl, rfl, rfl, rfl, rfl⟩

@[simp] theorem praDue_queue (d : Dev) : (praDue d).pra.queue = d.pra.queue := (praDue_fields d).2.2.1
@[simp] theorem praDue_busy (d : Dev) : (praDue d).pra.busy = d.pra.busy := (praDue_fields d).2.2.2.1
@[simp] theorem praDue_lifeAt (d : Dev) : (praDue d).pra.lifeAt = d.pra.lifeAt := (praDue_fields d).2.2.2.2
@[simp] theorem praDue_wearOf (d : Dev) (n : Nat) : (praDue d).pra.wearOf n = d.pra.wearOf n := by
  simp only [Pra.wearOf, (praDue_fields d).2.1]
@[simp] theorem praDue_idle (d : Dev) : (praDue d).pra.idle = d.pra.idle := by simp [Pra.idle]

/-- The buckets after refills depend on the buckets, the next refill instant and up-time alone. -/
theorem praDue_tokens_congr {a b : Dev} (spent : a.pra.spent = b.pra.spent) (at_ : a.pra.refillAt = b.pra.refillAt)
    (up : a.glb.upNs = b.glb.upNs) (n : Nat) : (praDue a).pra.tokens n = (praDue b).pra.tokens n := by
  have due : a.pra.refillsDue a.glb.upNs = b.pra.refillsDue b.glb.upNs := by simp only [Pra.refillsDue, at_, up]
  simp only [praDue_pra, due]
  split <;> simp only [Pra.tokens, Pra.refill, spent]

theorem praDue_modPra_tokens (d : Dev) (f : Pra → Pra) (spent : (f d.pra).spent = d.pra.spent)
    (at_ : (f d.pra).refillAt = d.pra.refillAt) (n : Nat) : (praDue (d.modPra f)).pra.tokens n = (praDue d).pra.tokens n :=
  praDue_tokens_congr (a := d.modPra f) (b := d) spent at_ rfl n

/-! ## The end of a write -/

theorem Pra.charge_tokens (p : Pra) (n : Nat) : (p.charge n).tokens n = p.tokens n - 1 := by
  simp only [charge, tokens, kgetD_kput_same]; omega

theorem Pra.charge_wearOf (p : Pra) (n : Nat) : (p.charge n).wearOf n = inc32 (p.wearOf n) := by
  simp only [charge, wearOf, kgetD_ksetD_same]

/-- Whatever the verify says, a token is taken and the wear counted (R53); the word alone depends on it. -/
theorem praFinish_pra (d : Dev) (n : Nat) (v : Word) (ok : Bool) :
    (praFinish d n v ok).1.pra = if ok then d.pra.commit n v else d.pra.charge n := by
  cases ok <;> simp [praFinish]

theorem praFinish_busy (d : Dev) (n : Nat) (v : Word) (ok : Bool) : (praFinish d n v ok).1.pra.busy = d.pra.busy := by
  rw [praFinish_pra]; split <;> rfl

theorem praFinish_wearOf (d : Dev) (n : Nat) (v : Word) (ok : Bool) :
    (praFinish d n v ok).1.pra.wearOf n = inc32 (d.pra.wearOf n) := by
  rw [← Pra.charge_wearOf, praFinish_pra]; split <;> rfl

theorem praFinish_tokens_same (d : Dev) (n : Nat) (v : Word) (ok : Bool) :
    (praFinish d n v ok).1.pra.tokens n = d.pra.tokens n - 1 := by
  rw [← Pra.charge_tokens, praFinish_pra]; split <;> rfl

theorem praFinish_tokens_other (d : Dev) {n m : Nat} (v : Word) (ok : Bool) (h : n ≠ m) :
    (praFinish d n v ok).1.pra.tokens m = d.pra.tokens m := by
  rw [← Pra.charge_tokens_other d.pra n m h, praFinish_pra]; split <;> rfl

theorem praFinish_word (d : Dev) (n : Nat) (v : Word) (ok : Bool) :
    (praFinish d n v ok).1.pra.word n = if ok then v else d.pra.word n := by
  cases ok
  · exact praFinish_fault_word d n n v
  · exact praFinish_ok_word d n v

theorem praFinish_status (d : Dev) (n : Nat) (v : Word) (ok : Bool) :
    (praFinish d n v ok).2 = if ok then .ok else .writeFault := by
  cases ok <;> rfl

/-- A verify that fails is reported (R53). -/
theorem praFinish_fault_sticky {d : Dev} (n : Nat) (v : Word) (h : d.phase.fwRuns = true) :
    (praFinish d n v false).1.evt.sticky evPraWriteFault = true := by
  have sticky := report_sticky (d.modPra fun p => p.charge n) evPraWriteFault (octets 2 n) h
  simp only [praFinish, Bool.false_eq_true, if_false, praLow, watchIf, Evt.sticky]
  rwa [watch_src_other _ _ _ _ _ _ _ (by decide)]

/-- The writers of registers and the firmware learn a status at once; the firmware's own writes have no one to answer (R51). -/
theorem praAnswer_local {w : PraWriter} (h : w = .reg ∨ w = .firmware) (d : Dev) (st : Status) :
    praAnswer d w st = { d with out := d.out ++ if w = .reg then [.status st] else [] } := by
  obtain rfl | rfl := h
  · rfl
  · simp [praAnswer]

/-! ## The rows of the array -/

section
variable {d : Dev} {q : PraReq} {rest : List PraReq}

theorem doPraWriteBegin_token (runs : d.phase.ctrlRuns = true) (free : d.pra.busy = none) (next : d.pra.queue = q :: rest)
    (token : 0 < (praDue d).pra.tokens q.word) :
    doPraWriteBegin d = { praDue d with pra := { (praDue d).pra with queue := rest, busy := some q } } := by
  have some_ : ¬Pra.tokens { (praDue d).pra with queue := rest } q.word = 0 := Nat.pos_iff_ne_zero.1 token
  simp only [doPraWriteBegin, free, next, runs, if_true, Dev.modPra_pra, some_, if_false]
  rfl

theorem doPraWriteBegin_empty (runs : d.phase.ctrlRuns = true) (free : d.pra.busy = none) (next : d.pra.queue = q :: rest)
    (token : (praDue d).pra.tokens q.word = 0) :
    doPraWriteBegin d
      = praAnswer (praRefuse ((praDue d).modPra fun p => { p with queue := rest }) q.word) q.writer .noToken := by
  have none_ : Pra.tokens { (praDue d).pra with queue := rest } q.word = 0 := token
  simp only [doPraWriteBegin, free, next, runs, if_true, Dev.modPra_pra, none_]

theorem doPraWriteComplete_busy (ok : Bool) (busy : d.pra.busy = some q) :
    doPraWriteComplete ok d
      = praAnswer (praFinish ((praDue d).modPra fun p => { p with busy := none }) q.word q.value ok).1 q.writer
        (if ok then .ok else .writeFault) := by
  rw [← praFinish_status ((praDue d).modPra fun p => { p with busy := none }) q.word q.value ok]
  simp only [doPraWriteComplete, busy]

end

/-- Settles O9: what the refills fallen due leave is the array on which the write is begun, refused or ended. -/
theorem arrayWritesAndRefill : Obligations.ArrayWritesAndRefill := by
  unfold Obligations.ArrayWritesAndRefill
  constructor
  · intro s dt e a
    have phase : e.phase = s.dev.phase := by simp [e]
    have pra : e.pra = s.dev.pra := by simp [e]
    have out : a.out = [] := by simp [a, e]
    refine ⟨fun q rest runs free next => ?_, fun q busy writer ok => gives_run rfl ?_⟩
    · rw [← phase] at runs ⊢
      rw [← pra] at free next
      refine ⟨fun token => gives_run rfl (doPraWriteBegin_token runs free next token), fun empty writer => gives_run rfl ?_⟩
      rw [doPraWriteBegin_empty runs free next empty, praAnswer_local writer]
      exact ⟨report_pra .., by simp [praRefuse, ← out, a], fun fw => report_sticky _ _ _ (by simpa using fw)⟩
    · rw [doPraWriteComplete_busy ok (by rw [pra]; exact busy), praAnswer_local writer]
      have old (n : Nat) : a.pra.word n = s.dev.pra.word n := by simp [a, pra]
      have worn : a.pra.wearOf q.word = s.dev.pra.wearOf q.word := by simp [a, pra]
      rw [← old, ← worn]
      refine ⟨praFinish_busy .., praFinish_word .., praFinish_wearOf .., praFinish_tokens_same .., by simp [← out, a], ?_,
        fun n other => ⟨?_, praFinish_tokens_other _ _ _ other.symm⟩⟩
      · rintro rfl fw
        exact praFinish_fault_sticky _ _ (by simpa [a, phase] using fw)
      · rw [← old]; exact praFinish_word_other _ _ _ _ _ other.symm
  · intro s dt runs wf budget e k
    have good : s.dev.pra.Good := ⟨wf, budget⟩
    refine gives_run rfl ?_
    have due : (doPraTokenRefill e).pra = if k = 0 then s.dev.pra else s.dev.pra.refill k := by
      have phase : e.phase = s.dev.phase := by simp [e]
      have pra : e.pra = s.dev.pra := by simp [e]
      rw [doPraTokenRefill, if_pos (phase ▸ runs), praDue_pra, pra]
    rw [due]; split
    next none_ => 
      have most (n : Nat) : s.dev.pra.tokens n ≤ 4096 := Nat.sub_le ..
      simp [none_, most]
    · exact ⟨fun n => good.refill_tokens k n, rfl, rfl, rfl⟩

/-! ## The firmware's own writes -/

theorem praSkip_word_other (d : Dev) {n m : Nat} (v : Word) (ok : Bool) (h : m ≠ n) :
    (praSkip d n v ok).pra.word m = d.pra.word m := by
  unfold praSkip; dsimp only; repeat' split
  · exact praDue_word d m
  · rw [praFinish_word_other _ _ _ _ _ h.symm, praDue_word]
  · exact praDue_word d m

section
variable {d : Dev} {n : Nat} (v : Word) (ok : Bool) (token : 0 < (praDue d).pra.tokens n)
include token

/-- With no write before it, the firmware's own write is made whole (R55, R56). -/
theorem praSkip_idle_word (idle : d.pra.idle = true) : (praSkip d n v ok).pra.word n = if ok then v else d.pra.word n := by
  have some_ : (praDue d).pra.tokens n ≠ 0 := Nat.pos_iff_ne_zero.1 token
  simp only [praSkip, some_, if_false, praDue_idle, idle, if_true, praFinish_word, praDue_word]

/-- Behind other writes, the firmware's own waits its turn (R51, R58). -/
theorem praSkip_busy_queue (busy : d.pra.idle = false) :
    (praSkip d n v ok).pra.queue = d.pra.queue ++ [{ word := n, value := v, writer := .firmware }] := by
  have some_ : (praDue d).pra.tokens n ≠ 0 := Nat.pos_iff_ne_zero.1 token
  simp only [praSkip, some_, if_false, praDue_idle, busy, Bool.false_eq_true, Dev.modPra_pra, praDue_queue]

/-- What the firmware's own write of word `n` does, where the words, the queue and the write in progress are `p`'s. -/
theorem praSkip_writes {p : Pra} (words : d.pra.words = p.words) (queue : d.pra.queue = p.queue) (busy : d.pra.busy = p.busy) :
    (∀ m, m ≠ n → (praSkip d n v ok).pra.word m = p.word m)
    ∧ (p.idle = true → (praSkip d n v ok).pra.word n = if ok then v else p.word n)
    ∧ (p.idle = false → (praSkip d n v ok).pra.queue = p.queue ++ [{ word := n, value := v, writer := .firmware }]) := by
  have word (m : Nat) : p.word m = d.pra.word m := by simp only [Pra.word, words]
  have idle : p.idle = d.pra.idle := by simp only [Pra.idle, queue, busy]
  simp only [word, idle, ← queue]
  exact ⟨fun m => praSkip_word_other d v ok, praSkip_idle_word v ok token, praSkip_busy_queue v ok token⟩

end

/-- The next update of PRA_LIFE is set (R55). -/
def Pra.lifeNext (p : Pra) : Pra := { p with lifeDue := p.lifeDue + 3600000000000 }

/-- `ns` of running are counted as added to PRA_LIFE (R55). -/
def Pra.lifeAdded (ns : Nat) (p : Pra) : Pra := { p with lifeAt := p.lifeAt + ns }

/-- The device as an update of PRA_LIFE by `ns` of running leaves it to the write of the word. -/
def Dev.lifeCounted (d : Dev) (ns : Nat) : Dev := (praDue (d.modPra Pra.lifeNext)).modPra (Pra.lifeAdded ns)

theorem lifeCounted_fields (d : Dev) (ns : Nat) : (d.lifeCounted ns).pra.words = d.pra.words
    ∧ (d.lifeCounted ns).pra.queue = d.pra.queue ∧ (d.lifeCounted ns).pra.busy = d.pra.busy := by
  obtain ⟨words, -, queue, busy, -⟩ := praDue_fields (d.modPra Pra.lifeNext)
  exact ⟨words, queue, busy⟩

theorem lifeNext_tokens (d : Dev) (n : Nat) : (praDue (d.modPra Pra.lifeNext)).pra.tokens n = (praDue d).pra.tokens n :=
  praDue_modPra_tokens d Pra.lifeNext rfl rfl n

theorem lifeCounted_tokens (d : Dev) (ns n : Nat) : (praDue (d.lifeCounted ns)).pra.tokens n = (praDue d).pra.tokens n := by
  have none_ := praDue_refillsDue (d.modPra Pra.lifeNext)
  rw [← lifeNext_tokens d, Dev.lifeCounted, praDue_modPra_tokens _ (Pra.lifeAdded ns) rfl rfl, praDue_current (d := praDue _)]
  simpa using none_

theorem doPraLifeUpdate_due {d : Dev} (ok : Bool) (runs : d.phase.fwRuns = true) (due : d.pra.lifeDue ≤ d.glb.upNs)
    (token : 0 < (praDue d).pra.tokens 5) :
    let k := (d.glb.upNs - d.pra.lifeAt) / 1000000000
    doPraLifeUpdate ok d = praSkip (d.lifeCounted (k * 1000000000)) 5 (d.pra.word 5 + BitVec.ofNat 32 k) ok := by
  intro k
  have next : (d.modPra fun p => { p with lifeDue := p.lifeDue + 3600000000000 }) = d.modPra Pra.lifeNext := rfl
  have some_ : (praDue (d.modPra Pra.lifeNext)).pra.tokens 5 ≠ 0 := by rw [lifeNext_tokens]; omega
  have seconds : ((praDue (d.modPra Pra.lifeNext)).glb.upNs - (praDue (d.modPra Pra.lifeNext)).pra.lifeAt) / 1000000000 = k := by
    rw [praDue_glb, praDue_lifeAt]; rfl
  have word : (d.lifeCounted (k * 1000000000)).pra.word 5 = d.pra.word 5 := by simp only [Pra.word, lifeCounted_fields]
  unfold doPraLifeUpdate; dsimp only
  rw [if_pos ⟨runs, due⟩, next, if_neg some_, seconds, ← word]
  rfl

theorem doLearnedOffsetWrite_first {d : Dev} (ok : Bool) (up : d.phase = .up) (locked : d.whl.lockedFor 3600000000000 = true)
    (none_ : d.pra.word 0x400 = 0x80000000) (due : d.pra.learnedAt + 3600000000000 ≤ d.glb.upNs) :
    doLearnedOffsetWrite ok d = praSkip (d.modPra fun p => { p with learnedAt := d.glb.upNs }) 0x400
      (BitVec.ofNat 32 (toTwos 32 d.whl.learnedTcxo)) ok := by
  simp [doLearnedOffsetWrite, up, locked, none_, due]

theorem doTunerCodesWrite_first {d : Dev} (n : Fin 4) (ok : Bool) (up : d.phase = .up)
    (moved : fld (d.pra.word (0x440 + n.val)) 13 8 + 2 ≤ (d.spn.get n).cs) (first : d.pra.tunerAt.get n = 0) :
    doTunerCodesWrite n ok d = praSkip (d.modPra fun p => { p with tunerAt := p.tunerAt.set n d.glb.upNs }) (0x440 + n.val)
      (tunerWord (d.spn.get n).cs (d.spn.get n).cp) ok := by
  simp [doTunerCodesWrite, up, moved, first]

/-- Settles O10: each row is one `praSkip`, on a device whose words and queue are those the command found. -/
theorem ownWritesOfTheFirmware : Obligations.OwnWritesOfTheFirmware := by
  unfold Obligations.OwnWritesOfTheFirmware
  intro s dt ok e a
  have pra : e.pra = s.dev.pra := by simp [e]
  have phase : e.phase = s.dev.phase := by simp [e]
  have spn : e.spn = s.dev.spn := by simp [e]
  have learned : e.whl.learnedTcxo = s.dev.whl.learnedTcxo := by simp [e]
  rw [← pra, ← phase, ← spn, ← learned]
  refine ⟨fun runs due token => gives_run rfl ?_, fun up locked none_ due token => gives_run rfl ?_,
    fun n up moved first token => gives_run rfl ?_⟩
  · rw [doPraLifeUpdate_due ok runs due token]
    obtain ⟨words, queue, busy⟩ := lifeCounted_fields e _
    exact praSkip_writes _ ok (by rwa [lifeCounted_tokens]) words queue busy
  · rw [doLearnedOffsetWrite_first ok up locked none_ due]
    exact praSkip_writes _ ok (by rwa [praDue_modPra_tokens e _ rfl rfl]) rfl rfl rfl
  · rw [doTunerCodesWrite_first n ok up moved first]
    exact praSkip_writes _ ok (by rwa [praDue_modPra_tokens e _ rfl rfl]) rfl rfl rfl

end Sys2Proof.Machine
end

section
/-! PROOFS. The steps of a start (O6). -/

namespace Sys2Proof.Machine

/-- What holds of a device and is kept by an action at each step holds after all of them. -/
theorem each_holds {α : Type} {P : Dev → Prop} {l : List α} {f : Dev → α → Dev} {d : Dev} (h : P d)
    (k : ∀ e x, P e → P (f e x)) : P (each l f d) :=
  List.foldlRecOn l f h fun e he x _ => k e x he

/-- The upper field of a register of a number of starts and eight free bits (R192). -/
theorem fld_pack_starts (w : Word) (r : BitVec 8) : fld (pack [(8, fld w 31 8), (0, r.toNat)]) 31 8 = fld w 31 8 := by
  have low := r.isLt
  simp only [fld, pack, List.foldl_cons, List.foldl_nil, BitVec.toNat_ofNat, Nat.shiftRight_eq_div_pow]
  omega

/-! ## What reports leave of the start while the firmware runs -/

/-- `d` is at the phase `p`, with the bookkeeping `t` of its start. -/
def Dev.AtStart (d : Dev) (p : Phase) (t : Start) : Prop := d.phase = p ∧ d.start = t

section
variable {d : Dev} {p : Phase} {t : Start}

theorem Dev.AtStart.report (h : d.AtStart p t) (runs : p.fwRuns = true) (e : Nat) (l : List Byte) :
    (Machine.report d e l).AtStart p t := by
  obtain ⟨rfl, rfl⟩ := h
  rw [report_running runs]
  exact ⟨rfl, rfl⟩

theorem Dev.AtStart.selfTest (h : d.AtStart p t) (runs : p.fwRuns = true) (b : Nat) (code : BitVec 2) :
    (Machine.selfTest d b code).AtStart p t := by
  have kept : (d.modGlb fun g => { g with selftest := ksetD g.selftest b code 0 }).AtStart p t := h
  simp only [Machine.selfTest]
  split
  · exact kept.report runs _ _
  · exact kept

theorem Dev.AtStart.disableSkein (h : d.AtStart p t) (runs : p.fwRuns = true) (s cause : Nat) :
    (Machine.disableSkein d s cause).AtStart p t :=
  Dev.AtStart.report (d := d.modDst _) h runs _ _

theorem Dev.AtStart.loadSkein (h : d.AtStart p t) (runs : p.fwRuns = true) (s : Nat) : (Machine.loadSkein d s).AtStart p t := by
  have half : ∀ o : Option Half, Dev.AtStart (match o with
      | some x => if x.intact ∧ x.skein = s ∧ x.gen = commitGen (d.pra.word (commitWord s)) then loadHalf d s x
        else Machine.disableSkein d s 2
      | none => Machine.disableSkein d s 2) p t := by
    rintro (_ | x)
    · exact h.disableSkein runs s 2
    · dsimp only
      split
      · exact h
      · exact h.disableSkein runs s 2
  simp only [Machine.loadSkein]
  split
  · exact h
  · split
    · exact h.disableSkein runs s 1
    · split
      · split
        · exact Dev.AtStart.report (d := Dev.modDst _ _) (half _) runs _ _
        · exact half _
      · exact half _

end

/-! ## The loader's part -/

theorem doSfdpDiscovery_ok {d : Dev} {f : Sfdp} (h : d.phase = .romBooted) (ok : Sfdp.ok f = true) :
    doSfdpDiscovery f d = { d with phase := .sfdpDone } := by
  simp only [doSfdpDiscovery, h, ok, if_true]

theorem doSfdpDiscovery_bad {d : Dev} {f : Sfdp} (h : d.phase = .romBooted) (bad : Sfdp.ok f = false) :
    doSfdpDiscovery f d = enterRecovery d := by
  simp only [doSfdpDiscovery, h, bad, Bool.false_eq_true, if_false, if_true]

/-- Digest `i` of measurements extended by an item whose SHA-384 is given (R318). -/
def Dst.extended (x : Dst) (i : Nat) (item : BitVec 384) : List (BitVec 384) :=
  x.md.set i (Config.sha384 (octets 48 (x.md.getD i 0).toNat ++ octets 48 item.toNat))

theorem extendMd_unlocked {d : Dev} (i : Nat) (item : BitVec 384) (h : d.dst.mdLocked = false) :
    extendMd d i item = { d with dst := { d.dst with md := d.dst.extended i item } } := by
  rw [extendMd, if_neg (by simp [h])]
  rfl

theorem doLoaderCheck_good {d : Dev} {r : Reel} (h : d.phase = .sfdpDone) (good : Reel.good r 2 d.pra.floor = true)
    (unlocked : d.dst.mdLocked = false) :
    doLoaderCheck r d = { d with phase := .loaderDone, dst := { d.dst with md := d.dst.extended 0 r.digest } } := by
  simp only [doLoaderCheck, h, good, if_true, extendMd_unlocked _ _ unlocked]

theorem doDramZeroFill_done {d : Dev} (code : BitVec 2) (h : d.phase = .loaderDone) :
    doDramZeroFill code d = { selfTest d 3 code with phase := .dramDone } := by
  simp only [doDramZeroFill, h, if_true]

theorem kgetD_ksetD_selftest (d : Dev) (b : Nat) (code : BitVec 2) : kgetD (selfTest d b code).glb.selftest b 0 = code := by
  simp only [selfTest]
  split
  · rw [report_glb]; exact kgetD_ksetD_same ..
  · exact kgetD_ksetD_same ..

/-- While the ROM or the loader runs, a self-test that fails is reported later (R354, R368). -/
theorem selfTest_deferred {d : Dev} (b : Nat) (code : BitVec 2) (h : d.phase.deferring = true) :
    (selfTest d b code).start.deferred
      = d.start.deferred ++ (if code = 2 then [(evSelftestFail, octets 1 b)] else []) := by
  have later : (d.modGlb fun g => { g with selftest := ksetD g.selftest b code 0 }).phase.deferring = true := h
  simp only [selfTest]
  split
  · simp only [report, later, if_true]; rfl
  · exact (List.append_nil _).symm

theorem doBankLoad_loads {d : Dev} {r0 r1 : Reel} (ok : Bool) (h : d.phase = .dramDone) (regular : d.pra.trial = false)
    (good : Reel.good (if d.pra.activeBank = 0 then r0 else r1) 1 d.pra.floor = true) :
    doBankLoad r0 r1 ok d = loadBank d d.pra.activeBank r0 r1 := by
  have back : decide (d.pra.trial = true ∧ 1 ≤ fld (d.pra.word 2) 3 0
      ∧ d.pra.bankValid (1 - d.pra.activeBank) = true) = false := by simp [regular]
  simp only [doBankLoad, h, back, Bool.false_eq_true, if_false, if_true, good]

theorem loadBank_unlocked {d : Dev} (bank : Nat) (r0 r1 : Reel) (h : d.dst.mdLocked = false) :
    loadBank d bank r0 r1 = { d with
      phase := .bankLoaded, start := { d.start with bank := bank, reels := some (r0, r1) },
      dst := { d.dst with md := d.dst.extended 1 (if bank = 0 then r0 else r1).digest } } := by
  simp only [loadBank, extendMd_unlocked _ _ h]

/-! ## FIRMWARE_START -/

/-- The device with the skeins loaded and the self-tests of the start recorded. -/
def Dev.fwTested (d : Dev) (tests : List SelfTest) : Dev :=
  each tests (fun d t => selfTest d t.block t.code) (each operatorSkeins loadSkein
    (if fld (d.pra.word 1) 3 0 = d.pra.lifecycle then { d with phase := .fwStarted }
      else report { d with phase := .fwStarted } evLifecycleInvalid []))

theorem Dev.fwTested_atStart (d : Dev) (tests : List SelfTest) : (d.fwTested tests).AtStart .fwStarted d.start := by
  refine each_holds (P := fun e => e.AtStart .fwStarted d.start)
    (each_holds (P := fun e => e.AtStart .fwStarted d.start) ?_ fun _ s h => h.loadSkein rfl s)
    fun _ t h => h.selfTest rfl t.block t.code
  split
  · exact ⟨rfl, rfl⟩
  · exact Dev.AtStart.report ⟨rfl, rfl⟩ rfl _ _

@[simp] theorem Dev.fwTested_pra (d : Dev) (tests : List SelfTest) : (d.fwTested tests).pra = d.pra := by
  rw [Dev.fwTested, each_keeps Dev.pra fun _ _ => selfTest_pra .., each_keeps Dev.pra fun _ _ => loadSkein_pra ..]
  split
  · rfl
  · exact report_pra ..

/-- BOOT, the beacon and the running bank are set on the device whose tests are recorded (R192, R338). -/
def Dev.fwSet (d : Dev) : Dev :=
  { d with
    free := d.free + 1, ply := { d.ply with beaconAt := d.glb.upNs }, img := { d.img with running := d.start.bank },
    ccp := { d.ccp with boot := pack [(8, fld (d.pra.word 2) 31 8), (0, ((Config.freeBits d.free).setWidth 8 : BitVec 8).toNat)] } }

theorem doFirmwareStart_live {d : Dev} (tests : List SelfTest) (faults : List Nat) (h : d.phase = .bankLoaded)
    (live : d.pra.lifecycle ≠ 4) : doFirmwareStart tests faults d = praLow (d.fwTested tests).fwSet := by
  have kept : (if fld (d.pra.word 1) 3 0 = d.pra.lifecycle then { d with phase := .fwStarted }
      else report { d with phase := .fwStarted } evLifecycleInvalid []).pra.lifecycle ≠ 4 := by
    split
    · exact live
    · rwa [report_pra]
  simp only [doFirmwareStart, h, if_true]
  rw [if_neg kept]
  rfl

/-! ## CONFIG_IMAGE_CHECK -/

theorem doConfigImageCheck_none {d : Dev} (kwBad : List Nat) (h : d.phase = .fwStarted) :
    doConfigImageCheck none kwBad d = rejectConfig d ⟨9, noRecord, noOffset⟩ := by
  simp only [doConfigImageCheck, h, if_true]

theorem doConfigImageCheck_accepts {d : Dev} {image : List Byte} {kwBad : List Nat} {keep : List (Nat × ImgRecord)}
    {skip : List (Nat × Nat × Nat)} (h : d.phase = .fwStarted)
    (accepts : checkImage (measureImage d image) image kwBad = .ok (keep, skip)) :
    doConfigImageCheck (some image) kwBad d
      = acceptConfig (measureImage d image) (natAt image 0x10 8) (keep.map (·.2)) skip := by
  simp only [doConfigImageCheck, h, if_true, accepts]

/-! ## CONFIG_APPLY -/

theorem measureArray_same (d : Dev) {p : Part} (h : p ≠ .dst) : p.same d (measureArray d) :=
  (measureArray_only d (l_ := [.dst]) rfl (.refl _ _)).same p (by simpa using h)

theorem praWaits_phase (faults : List Nat) (l : List (Nat × Word)) (d : Dev) : (praWaits faults l d).phase = d.phase :=
  each_keeps Dev.phase fun _ _ => praWait_phase ..

/-- A settings reset with nothing left to write changes no more than its own record (R62). -/
theorem doConfigApply_unreset {d : Dev} (faults : List Nat) (upto : Option Nat) (h : d.phase = .imageChecked)
    (idle : d.pra.idle = true) (first : d.start.resetLeft = none) (done : resetPlan (applyImage faults d).pra = none) :
    doConfigApply faults upto d = { measureArray { applyImage faults d with
      start := { (applyImage faults d).start with resetLeft := some ([], 0) } } with phase := .applied } := by
  have planned : applyAndPlan faults d = { applyImage faults d with
      start := { (applyImage faults d).start with resetLeft := some ([], 0) } } := by
    simp only [applyAndPlan, first, done, Option.isSome_none, Bool.false_eq_true, if_false, Option.getD_none]
  have rest (e : Dev) (left : e.start.resetLeft = some ([], 0)) : resetOn faults upto e = e := by
    simp only [resetOn, left, List.take_nil, List.drop_nil, ne_eq, not_true_eq_false, false_and, if_false]
    show { e with start := { e.start with resetLeft := some ([], 0) } } = e
    rw [← left]
  simp only [doConfigApply, h, idle, and_self, if_true, planned]
  rw [rest _ rfl]
  rfl

theorem applyImage_rejected {d : Dev} (faults : List Nat) (h : d.start.configured = false) : applyImage faults d = d := by
  simp only [applyImage, h, Bool.false_eq_true, if_false]

/-- A settings reset cut short again keeps what is left (R62). -/
theorem doConfigApply_cut {d : Dev} {l : List (Nat × Word)} {g k : Nat} (h : d.phase = .imageChecked) (idle : d.pra.idle = true)
    (left : d.start.resetLeft = some (l, g)) (short : k < l.length) : doConfigApply [] (some k) d
      = { praWaits [] (l.take k) d with start := { (praWaits [] (l.take k) d).start with resetLeft := some (l.drop k, g) } } := by
  have more : (l.drop k).isEmpty = false := by simpa using short
  have planned : applyAndPlan [] d = d := by simp only [applyAndPlan, left, Option.isSome_some, if_true]
  have unfinished : ¬(l ≠ [] ∧ l.length ≤ k) := fun h => absurd h.2 (by omega)
  simp only [doConfigApply, h, idle, and_self, if_true, planned, resetOn, left, Option.getD_some, unfinished, if_false,
    Option.all_some, more, Bool.false_eq_true]

/-! ## START_HOLD -/

/-- HOLD is entered with the digests locked and nothing left to report (R38, R318). -/
def Dev.Held (d : Dev) : Prop := d.phase = .up ∧ d.dst.mdLocked = true ∧ d.start.deferred = []

theorem Dev.Held.report {d : Dev} (h : d.Held) (e : Nat) (l : List Byte) : (Machine.report d e l).Held := by
  obtain ⟨up, locked, logged⟩ := h
  rw [report_running (by rw [up]; rfl)]
  exact ⟨up, locked, logged⟩

theorem Dev.Held.refuseKey {d : Dev} (h : d.Held) (s : Nat) : (Machine.refuseKey d s).Held := by
  simp only [Machine.refuseKey]
  split
  · split
    · exact h
    · exact Dev.Held.report (by exact h) _ _
  · exact Dev.Held.report (by exact h) _ _

theorem Dev.Held.invoke {d : Dev} (h : d.Held) (s master use : Nat) : (Machine.invoke d s master use).2.Held := by
  simp only [Machine.invoke]
  split
  · exact h
  · exact h.refuseKey s

theorem Dev.Held.answerQuote {d : Dev} (h : d.Held) (master : Nat)
    (q : Option (BitVec 128 × BitVec 16) × BitVec 8 × BitVec 256) : (Machine.answerQuote master d q).Held := by
  obtain ⟨asker, seq, nonce⟩ := q
  have asked := h.invoke 1 master useSign
  simp only [Machine.answerQuote]
  split
  · split
    · exact h
    · exact h
  · split
    · split
      · rename_i e
        rw [e] at asked
        split
        · exact asked
        · exact asked
      · rename_i e
        rw [e] at asked
        cases asker <;> exact asked
    · exact Dev.Held.report (by exact h) _ _

theorem reelCommit_regular {d : Dev} (ok : Bool) (h : d.pra.trial = false) : reelCommit d ok = d := by
  simp only [reelCommit, h, Bool.false_eq_true, if_false]

/-- The device in HOLD, with the digests locked and the next hold-up check due (R318, R379). -/
def Dev.entersHold (d : Dev) : Dev :=
  { refreshBanks d with
    phase := .up, dst := { (refreshBanks d).dst with mdLocked := true }, glb := { (refreshBanks d).glb with power := 1 },
    pwr := { (refreshBanks d).pwr with holdupDue := some (refreshBanks d).pwr.wall } }

/-- The device in HOLD with the events of its start logged (R346, R354). -/
def Dev.holdReported (d : Dev) : Dev := report (reportStartChange (logDeferred d.entersHold)) evStartHold []

theorem logDeferred_deferred (d : Dev) : (logDeferred d).start.deferred = [] := by
  have logged (e : Dev) (l : List (Nat × List Byte)) : (each l (fun d p => reportDeferred d p.1 p.2) e).start = e.start :=
    each_keeps Dev.start fun _ _ => reportDeferred_start ..
  simp only [logDeferred]
  split
  · simp only [reportDeferred_start, logged]
  · simp only [reportDeferred_start, logged]

theorem logDeferred_same (d : Dev) {p : Part} (h : p ∉ [Part.start, .evt]) : p.same d (logDeferred d) :=
  (logDeferred_only d rfl (.refl _ _)).same p h

theorem Dev.entersHold_logged (d : Dev) : (logDeferred d.entersHold).Held :=
  ⟨logDeferred_same _ (p := .phase) (by decide), congrArg Dst.mdLocked (logDeferred_same _ (p := .dst) (by decide)),
    logDeferred_deferred _⟩

theorem Dev.Held.reportStartChange {d : Dev} (h : d.Held) : (Machine.reportStartChange d).Held := by
  simp only [Machine.reportStartChange]
  split
  · exact Dev.Held.report (by exact h) _ _
  · exact h

theorem Dev.holdReported_held (d : Dev) : d.holdReported.Held := d.entersHold_logged.reportStartChange.report _ _

theorem Dev.holdReported_same (d : Dev) {p : Part} (h : p ∉ [Part.free, .start, .evt]) : p.same d.entersHold d.holdReported :=
  (report_only (l_ := [.free, .start, .evt]) _ _ _ rfl (reportStartChange_only _ rfl
    (logDeferred_only _ rfl (.refl _ _)))).same p h

theorem Dev.holdReported_sticky (d : Dev) : d.holdReported.evt.sticky evStartHold = true := by
  obtain ⟨up, -, -⟩ := d.entersHold_logged.reportStartChange
  exact report_sticky _ _ _ (by rw [up]; rfl)

theorem refreshBanks_same (d : Dev) {p : Part} (h : p ∉ [Part.img]) : p.same d (refreshBanks d) :=
  (refreshBanks_only d rfl (.refl _ _)).same p h

/-- PRA_BOOT written with PEND and FAILS clear (R38). -/
def Dev.startCounted (d : Dev) (ok : Bool) : Dev := (praWait d 2 (bootWord (fld (d.pra.word 2) 31 8) false 0) ok).1

theorem Dev.startCounted_word (d : Dev) (ok : Bool) : (d.startCounted ok).pra.word 2
    = if ok then bootWord (fld (d.pra.word 2) 31 8) false 0 else d.pra.word 2 := by
  cases ok
  · exact praWait_fault_word ..
  · exact praWait_word_same ..

/-- The quotes that wait are answered last (R319). -/
theorem doStartHold_regular {d : Dev} (bootOk bankOk : Bool) (h : d.phase = .applied) (idle : d.pra.idle = true)
    (regular : d.pra.trial = false) : doStartHold bootOk bankOk d
      = each (d.startCounted bootOk).holdReported.dst.quoteWait (answerQuote masterCcp)
          ((d.startCounted bootOk).holdReported.modDst fun x => { x with quoteWait := [] }) := by
  have trial : (d.startCounted bootOk).pra.trial = false := by
    rw [← regular, Pra.trial, Pra.trial, Dev.startCounted, praWait_word_other _ _ _ _ _ (by decide)]
  simp only [doStartHold, h, idle, and_self, if_true]
  rw [← Dev.startCounted, reelCommit_regular _ trial]
  rfl

theorem answerQuote_glb (master : Nat) (d : Dev) (q : Option (BitVec 128 × BitVec 16) × BitVec 8 × BitVec 256) :
    (answerQuote master d q).glb = d.glb :=
  (answerQuote_only master d q (l_ := [.out, .start, .evt, .dst, .img]) rfl (.refl _ _)).same .glb (by decide)

/-- What START_HOLD leaves (R38, R318). -/
theorem doStartHold_holds {d : Dev} (bootOk bankOk : Bool) (h : d.phase = .applied) (idle : d.pra.idle = true)
    (regular : d.pra.trial = false) : let r := doStartHold bootOk bankOk d
      r.Held ∧ r.glb.power = 1 ∧ r.pra = (d.startCounted bootOk).pra
        ∧ (d.dst.quoteWait = [] → r.evt.sticky evStartHold = true) := by
  intro r
  have hr : r = _ := doStartHold_regular bootOk bankOk h idle regular
  generalize hc : d.startCounted bootOk = c at hr ⊢
  have asked : c.dst = d.dst := hc ▸ praWait_dst ..
  refine ⟨?_, ?_, ?_, fun none => ?_⟩
  · rw [hr]
    exact each_holds (P := Dev.Held) c.holdReported_held fun e q held => held.answerQuote masterCcp q
  · calc r.glb.power = c.holdReported.glb.power := by rw [hr, each_keeps Dev.glb fun _ _ => answerQuote_glb ..]; rfl
      _ = c.entersHold.glb.power := congrArg Glb.power (c.holdReported_same (p := .glb) (by decide))
  · calc r.pra = c.holdReported.pra := by rw [hr, each_keeps Dev.pra fun _ _ => answerQuote_pra ..]; rfl
      _ = (refreshBanks c).pra := c.holdReported_same (p := .pra) (by decide)
      _ = c.pra := refreshBanks_same c (p := .pra) (by decide)
  · have waits : c.holdReported.dst.quoteWait = [] := by
      calc c.holdReported.dst.quoteWait = c.entersHold.dst.quoteWait :=
            congrArg Dst.quoteWait (c.holdReported_same (p := .dst) (by decide))
        _ = (refreshBanks c).dst.quoteWait := rfl
        _ = c.dst.quoteWait := congrArg Dst.quoteWait (refreshBanks_same c (p := .dst) (by decide))
        _ = [] := by rw [asked, none]
    rw [hr, waits]
    exact c.holdReported_sticky

/-- Settles O6: each step of the start comes in the phase that the one before it left. -/
theorem stepsOfTheStart : Obligations.StepsOfTheStart := by
  unfold Obligations.StepsOfTheStart
  constructor
  · intro s dt e
    have phase : e.phase = s.dev.phase := by simp [e]
    have pra : e.pra = s.dev.pra := by simp [e]
    have dst : e.dst = s.dev.dst := by simp [e]
    have start : e.start = s.dev.start := by simp [e]
    refine ⟨fun f h => ⟨fun ok => gives_run rfl ?_, fun bad => gives_run rfl ?_⟩, ?_, fun code h => gives_run rfl ?_, ?_⟩
    · exact doSfdpDiscovery_ok (phase.trans h) ok
    · rw [doSfdpDiscovery_bad (phase.trans h) bad]
      exact ⟨rfl, rfl⟩
    · intro r h unlocked good md
      refine gives_run rfl ?_
      rw [← pra] at good
      rw [← dst] at unlocked
      show doLoaderCheck r e = _
      rw [doLoaderCheck_good (phase.trans h) good unlocked, Dst.extended, dst]
    · have loading : e.phase.deferring = true := by rw [phase, h]; rfl
      rw [doDramZeroFill_done code (phase.trans h)]
      exact ⟨rfl, kgetD_ksetD_selftest e 3 code, (selfTest_deferred 3 code loading).trans (by rw [start]; rfl),
        (selfTest_pra ..).trans pra⟩
    · intro r0 r1 ok h unlocked regular r md good
      refine gives_run rfl ?_
      have loaded : (if e.pra.activeBank = 0 then r0 else r1) = r := by rw [pra]
      have measured : e.dst.extended 1 r.digest = md := by rw [Dst.extended, dst]
      clear_value md r
      rw [← pra, ← loaded] at good
      rw [doBankLoad_loads ok (phase.trans h) (by rwa [pra]) good, loadBank_unlocked _ _ _ (by rwa [dst]), loaded, measured, pra,
        start]
      exact ⟨rfl, rfl⟩
  · intro s dt e
    have phase : e.phase = s.dev.phase := by simp [e]
    have pra : e.pra = s.dev.pra := by simp [e]
    have dst : e.dst = s.dev.dst := by simp [e]
    have start : e.start = s.dev.start := by simp [e]
    have wrp : e.wrp = s.dev.wrp := by simp [e]
    have ccp : e.ccp = s.dev.ccp := by simp [e]
    have spn : e.spn = s.dev.spn := by simp [e]
    have ply : e.ply = s.dev.ply := by simp [e]
    refine ⟨fun tests faults h live => gives_run rfl ?_, fun h => ⟨fun kwBad => gives_run rfl ?_, ?_⟩, ?_, ?_, ?_⟩
    · obtain ⟨started, same⟩ := e.fwTested_atStart tests
      rw [doFirmwareStart_live tests faults (phase.trans h) (by rwa [pra])]
      simp only [praLow, watchIf_phase, watchIf_ccp, watchIf_img, watchIf_pra]
      refine ⟨started, ?_, (congrArg Start.bank same).trans (congrArg Start.bank start), ?_⟩
      · rw [Dev.fwSet, fld_pack_starts, Dev.fwTested_pra, pra]
      · exact congrArg Pra.words ((e.fwTested_pra tests).trans pra)
    · have runs : e.phase.fwRuns = true := by rw [phase, h]; rfl
      rw [doConfigImageCheck_none kwBad (phase.trans h), rejectConfig]
      exact ⟨rfl, rfl, rfl, rfl, rfl, report_sticky _ _ _ runs, (report_pra ..).trans pra, (report_wrp ..).trans wrp,
        (report_ccp ..).trans ccp, (report_spn ..).trans spn⟩
    · intro image kwBad keep skip accepts
      refine gives_run rfl ?_
      rw [doConfigImageCheck_accepts (phase.trans h) accepts]
      have same {p : Part} (out : p ∉ [Part.phase, .start, .evt, .dst]) :=
        (acceptConfig_only (a_ := e) (measureImage e image) (natAt image 0x10 8) (keep.map (·.2)) skip rfl
          (measureImage_only e image rfl (.refl _ _))).same p out
      exact ⟨rfl, rfl, rfl, rfl, rfl, rfl, rfl, (same (p := .wrp) (by decide)).trans wrp,
        (same (p := .spn) (by decide)).trans spn⟩
    · intro faults upto h idle rejected first done
      refine gives_run rfl ?_
      rw [← start] at rejected first
      rw [← pra] at idle done
      have none : applyImage faults e = e := applyImage_rejected faults rejected
      rw [doConfigApply_unreset faults upto (phase.trans h) idle first (by rwa [none]), none]
      have same {p : Part} (out : p ≠ .dst) :=
        measureArray_same { e with start := { e.start with resetLeft := some ([], 0) } } out
      exact ⟨rfl, (same (p := .spn) (by decide)).trans spn, (same (p := .ccp) (by decide)).trans ccp,
        (same (p := .ply) (by decide)).trans ply, (same (p := .pra) (by decide)).trans pra,
        (same (p := .wrp) (by decide)).trans wrp⟩
    · intro l g k h idle left short
      refine gives_run rfl ?_
      rw [doConfigApply_cut (phase.trans h) (by rwa [pra]) (by rwa [start]) short]
      exact ⟨(praWaits_phase ..).trans (phase.trans h), rfl⟩
    · intro bootOk bankOk h idle regular
      refine gives_run rfl ?_
      obtain ⟨⟨up, locked, logged⟩, power, array, sticky⟩ :=
        doStartHold_holds bootOk bankOk (phase.trans h) (by rwa [pra]) (by rwa [pra])
      refine ⟨up, power, locked, ?_, logged, by rwa [dst] at sticky⟩
      rw [array, Dev.startCounted_word, pra]

end Sys2Proof.Machine
end

section
/-! PROOFS. The records of an image (O7). -/

namespace Sys2Proof.Machine

theorem applyRecord_keywrap {d : Dev} {r : ImgRecord} (faults : List Nat) (h : r.kind = tyKeywrap) :
    applyRecord faults d r = applyKeywrap faults d r.payload := by
  simp only [applyRecord, h, if_true]

theorem applyRecord_owner {d : Dev} {r : ImgRecord} (faults : List Nat) (h : r.kind ≠ tyKeywrap) :
    applyRecord faults d r = applyOwner d r := by
  simp only [applyRecord, h, if_false]

/-! ## REGION -/

/-- Every spindle is changed once, by what the array holds. -/
theorem each_spindles_get (f : Pra → Fin 4 → Spn → Spn) (d : Dev) (n : Fin 4) :
    (each spindles (fun e m => e.modSpn m (f e.pra m)) d).spn.get n = f d.pra n (d.spn.get n) := by
  match n with
  | 0 | 1 | 2 | 3 => rfl

/-- The spindle's values of a REGION record (R122), the tuner codes being the array's where it holds them (R123). -/
def Spn.ofRegion (l : List Byte) (p : Pra) (n : Fin 4) (s : Spn) : Spn :=
  let b := 16 * n.val
  let codes := (heldCodes p n.val).getD (natAt l (b + 8) 1, natAt l (b + 9) 1)
  let binds := (List.range 16).foldl (fun m i => ksetD m i (bindOf (bindAt l n.val i)) {}) []
  { s with window := natAt l b 2, windowEff := natAt l b 2, txMax := natAt l (b + 2) 1, txLevel := natAt l (b + 3) 1,
           pacfg := BitVec.ofNat 6 (natAt l (b + 4) 1), fitted := flagBit l (b + 5) 5, cxAbort := flagBit l (b + 5) 4,
           cxEn := flagBit l (b + 5) 3, inhRetry := flagBit l (b + 5) 2, tuneEn := flagBit l (b + 5) 1,
           autocal := flagBit l (b + 5) 0, reqLead := natAt l (b + 6) 2, cs := codes.1, cp := codes.2,
           calDt := natAt l (b + 10) 1, binds := binds, bindsEff := binds }

theorem applyRegion_get (d : Dev) (l : List Byte) (n : Fin 4) :
    (applyRegion d l).spn.get n = Spn.ofRegion l d.pra n (d.spn.get n) :=
  each_spindles_get (Spn.ofRegion l) { d with region := regionOf l } n

/-! ## SLOTFRAME -/

@[simp] theorem Wrp.modSf_sf (w : Wrp) (n : Fin 4) (h : Nat) (f : SfReg → SfReg) : (w.modSf n h f).sf n h = f (w.sf n h) :=
  kgetD_ksetD_same ..

@[simp] theorem setHop_sfs (d : Dev) (t : Nat) (i : Option Nat) (v : Word) : (setHop d t i v).wrp.sfs = d.wrp.sfs := by
  cases i <;> rfl

@[simp] theorem setCell_sfs (d : Dev) (n : Fin 4) (i : Nat) (c : Option (Word × Word)) :
    (setCell d n i c).wrp.sfs = d.wrp.sfs := rfl

theorem spindle?_val (n : Fin 4) : spindle? n.val = some n := by simp [spindle?]

/-- A SLOTFRAME record sets its slotframe; its hops and cells are other registers (R184). -/
theorem applySlotframe_sfs {d : Dev} {l : List Byte} {n : Fin 4} (h : (sfRecOf l).spn = n.val) : (applySlotframe d l).wrp.sfs
    = (d.wrp.modSf n (sfRecOf l).sf fun r => { r with cfg := sfWord (sfRecOf l) }).sfs := by
  simp only [applySlotframe, h, spindle?_val]
  rw [each_keeps (fun e => e.wrp.sfs) fun _ _ => setCell_sfs .., each_keeps (fun e => e.wrp.sfs) fun _ _ => setHop_sfs .., setHop_sfs]
  rfl

theorem applySlotframe_cfg {d : Dev} {l : List Byte} {n : Fin 4} (h : (sfRecOf l).spn = n.val) :
    ((applySlotframe d l).wrp.sf n (sfRecOf l).sf).cfg = sfWord (sfRecOf l) := by
  rw [Wrp.sf, applySlotframe_sfs h, ← Wrp.sf, Wrp.modSf_sf]

/-! ## KEYWRAP -/

section
variable {d : Dev} {l : List Byte} (faults : List Nat)

theorem applyKeywrap_held (h : commitHalf (d.pra.word (commitWord (keyWrapOf l).skein)) ≠ 0) : applyKeywrap faults d l = d := by
  simp only [applyKeywrap]
  rw [if_pos h]

theorem praWait_status_ok (e : Dev) (n : Nat) (v : Word) : (praWait e n v true).2 = .ok := by
  simp only [praWait, praFinish_status, if_true]

/-- The half that a KEYWRAP record gives (R307). -/
def wrappedHalf (d : Dev) (k : KeyWrap) : Half :=
  { skein := k.skein, gen := k.gen, attr := k.attr, district := k.district,
    key := fitTo (wrapLen (attrType k.attr) - 8) (Config.unwrapKey (skeinKey d 0) k.wrapped) }

theorem applyKeywrap_installs (empty : commitHalf (d.pra.word (commitWord (keyWrapOf l).skein)) = 0) (may : mayInstall d = true)
    (verifies : faults.contains (commitWord (keyWrapOf l).skein) = false) : applyKeywrap faults d l =
      let k := keyWrapOf l
      loadHalf (praWait (d.modDst fun x => x.putHalf 1 k.skein (wrappedHalf d k)) (commitWord k.skein)
        (pack [(30, 1), (0, k.gen)]) true).1 k.skein (wrappedHalf d k) := by
  simp only [applyKeywrap]
  rw [if_neg (not_not.mpr empty), if_neg (by simp [may]), verifies, Bool.not_false]
  have done := praWait_status_ok (d.modDst fun x => x.putHalf 1 (keyWrapOf l).skein (wrappedHalf d (keyWrapOf l)))
    (commitWord (keyWrapOf l).skein) (pack [(30, 1), (0, (keyWrapOf l).gen)])
  simp only [wrappedHalf] at done ⊢
  generalize praWait _ _ _ _ = w at done ⊢
  obtain ⟨e, st⟩ := w
  cases done
  rfl

end

/-- A half is loaded into working use from the record that stays (R306). -/
theorem loadHalf_halfOf (d : Dev) (s : Nat) (h : Half) (code t : Nat) :
    (loadHalf d s h).dst.halfOf code t = d.dst.halfOf code t := rfl

theorem Dst.halfOf_putHalf_A (x : Dst) (s : Nat) (h : Half) : (x.putHalf 1 s h).halfOf 1 s = some h := by
  simp [Dst.halfOf, Dst.putHalf]

/-! ## The records of an image -/

theorem applyImage_records {d : Dev} (faults : List Nat) (h : d.start.configured = true)
    (none : allEntries d.start.records = []) : applyImage faults d = d.start.records.foldl (applyRecord faults) d := by
  simp only [applyImage, h, none, if_true]
  rfl

theorem extendMd_skeins (d : Dev) (i : Nat) (item : BitVec 384) : (extendMd d i item).dst.skeins = d.dst.skeins := by
  simp only [extendMd]
  split
  · rfl
  · rfl

theorem measureArray_skeins (d : Dev) : (measureArray d).dst.skeins = d.dst.skeins := by
  simp only [measureArray, extendMdBy, extendMd_skeins]

/-- Settles O7: a record sets what its payload says, and each is the step of a fold. -/
theorem recordsAreApplied : Obligations.RecordsAreApplied := by
  unfold Obligations.RecordsAreApplied
  constructor
  · intro s dt faults upto h idle accepted first none d' done
    refine gives_run rfl ?_
    have start : (s.dev.elapse dt).start = s.dev.start := by simp
    have applied : applyImage faults (s.dev.elapse dt) = d' := by
      rw [applyImage_records faults (by rwa [start]) (by rwa [start]), start]
    rw [doConfigApply_unreset faults upto (by simpa using h) (by simpa using idle) (by rwa [start]) (by rwa [applied]), applied]
    have same {p : Part} (out : p ≠ .dst) :=
      measureArray_same { d' with start := { d'.start with resetLeft := some ([], 0) } } out
    exact ⟨rfl, same (p := .spn) (by decide), same (p := .region) (by decide), same (p := .wrp) (by decide),
      same (p := .sht) (by decide), same (p := .ccp) (by decide), same (p := .ply) (by decide), same (p := .pra) (by decide),
      measureArray_skeins _⟩
  · intro faults d r l
    have owner (other : r.kind ≠ tyKeywrap) := applyRecord_owner (d := d) faults other
    refine ⟨fun kind n => ?_, fun kind n spindle => ?_, fun kind => ?_, fun kind => ?_, fun kind => ?_⟩
    · have applied : applyRecord faults d r = applyRegion d l := by
        rw [owner (by rw [kind]; decide), applyOwner, kind]; rfl
      rw [applied, applyRegion_get]
      exact ⟨rfl, rfl, rfl, rfl, rfl, rfl⟩
    · have applied : applyRecord faults d r = applySlotframe d l := by
        rw [owner (by rw [kind]; decide), applyOwner, kind]; rfl
      rw [applied]
      exact ⟨applySlotframe_cfg spindle, (applySlotframe_only d l (l_ := [.wrp]) rfl (.refl _ _)).same .ccp (by decide)⟩
    · rw [owner (by rw [kind]; decide), applyOwner, kind]; rfl
    · have applied : applyRecord faults d r = applyPly d l := by
        rw [owner (by rw [kind]; decide), applyOwner, kind]; rfl
      rw [applied]
      exact ⟨rfl, rfl, rfl, rfl, rfl, rfl⟩
    · have applied := applyRecord_keywrap (d := d) faults kind
      rw [applied]
      refine ⟨applyKeywrap_held faults, fun empty may verifies => ?_⟩
      rw [applyKeywrap_installs faults empty may verifies]
      refine ⟨?_, ?_⟩
      · rw [loadHalf_pra]
        exact praWait_word_same ..
      · rw [loadHalf_halfOf, praWait_dst]
        exact congrArg (Option.map Half.gen) (Dst.halfOf_putHalf_A ..)

end Sys2Proof.Machine
end
section
/-! PROOFS. The whorl's sources (O16 to O18). Gaining or losing a source moves the whorl's state, its source and what is learned
and estimated with them, and may set the step and the slew; the rest of the whorl stays, and no STICKY bit is lost. -/

namespace Sys2Proof.Machine

/-! ## STICKY -/

/-- A source's STICKY, once set, outlasts a change of a source that does not clear it. -/
theorem Evt.sticky_modSrc {v : Evt} {k : Nat} (e : Nat) {f : SrcSt → SrcSt} (keeps : ∀ x, x.sticky = true → (f x).sticky = true)
    (h : v.sticky k = true) : (v.modSrc e f).sticky k = true := by
  by_cases same : e = k
  · subst same; exact (congrArg SrcSt.sticky (Evt.src_modSrc_same v e f)).trans (keeps _ h)
  · exact (congrArg SrcSt.sticky (Evt.src_modSrc_other v e k f same)).trans h

theorem report_keeps_sticky {d : Dev} {k : Nat} (e : Nat) (l : List Byte) (h : d.evt.sticky k = true) :
    (report d e l).evt.sticky k = true := by
  have now : (reportNow d e l).evt.sticky k = true :=
    (congrArg SrcSt.sticky (reportNow_src d e k l)).trans (Evt.sticky_modSrc e (fun _ _ => rfl) h)
  unfold report; repeat' split
  · exact h
  · exact now
  · exact h

@[simp] theorem Evt.sticky_push (v : Evt) (l : LogEntry) (k : Nat) : (v.push l).sticky k = v.sticky k := rfl

theorem watch_keeps_sticky {d : Dev} {k : Nat} (e i : Nat) (set clear : Bool) (l : List Byte) (h : d.evt.sticky k = true) :
    (watch d e i set clear l).evt.sticky k = true := by
  unfold watch; repeat' split
  · simp only [fall, Evt.sticky_push]
    exact Evt.sticky_modSrc e (fun _ s => s) h
  · exact h
  · simp only [rise, Evt.sticky_push]
    exact Evt.sticky_modSrc e (fun _ _ => rfl) h
  · exact h
  · exact h

/-! ## What a change of source leaves -/

/-- The whorl without what follows its source: state, source, what is learned and estimated, and the correction in hand. -/
def Whl.settled (w : Whl) : Whl :=
  { w with state := .freerun, src := .none, todValid := false, learned := false, learnedStep := none, holdEst := 0, holdFrom := 0,
           holdOff := 0, lockedSince := none, longestLock := 0, goodRun := 0, offset := 0, slew := 0, slewFrom := 0, step := none,
           stepPend := false }

/-- From `a` to `b` the whorl has followed its sources, and reported it. -/
structure Follows (a b : Dev) : Prop where
  settled : b.whl.settled = a.whl.settled
  todValid : a.whl.todValid = true → b.whl.todValid = true
  sticky : ∀ {k}, a.evt.sticky k = true → b.evt.sticky k = true
  only : Only [.start, .evt, .whl] a b

theorem Follows.refl (d : Dev) : Follows d d := ⟨rfl, id, id, .refl _ _⟩

theorem Follows.trans {a b c : Dev} (h : Follows a b) (k : Follows b c) : Follows a c :=
  ⟨k.settled.trans h.settled, k.todValid ∘ h.todValid, k.sticky ∘ h.sticky, h.only.trans k.only⟩

theorem Follows.phase {a b : Dev} (h : Follows a b) : b.phase = a.phase := h.only.same .phase (by decide)
theorem Follows.out {a b : Dev} (h : Follows a b) : b.out = a.out := h.only.same .out (by decide)

/-- What is read of the settled whorl alone is as it was. -/
theorem Follows.reads {a b : Dev} {α : Type} (h : Follows a b) (g : Whl → α) (only : ∀ w, g w.settled = g w := by intro; rfl) :
    g b.whl = g a.whl := by
  rw [← only b.whl, h.settled, only]

theorem Follows.modWhl (d : Dev) {f : Whl → Whl} (settled : (f d.whl).settled = d.whl.settled)
    (tod : d.whl.todValid = true → (f d.whl).todValid = true) : Follows d (d.modWhl f) :=
  ⟨settled, tod, id, Dev.modWhl_only d f (by decide) (.refl _ _)⟩

theorem Follows.report (d : Dev) (e : Nat) (l : List Byte) : Follows d (Machine.report d e l) :=
  ⟨by rw [report_whl], by rw [report_whl]; exact id, report_keeps_sticky e l, report_only d e l rfl (.refl _ _)⟩

theorem Follows.holdWatch (d : Dev) : Follows d (Machine.holdWatch d) :=
  ⟨by rw [Machine.holdWatch, watchIf_whl], by rw [Machine.holdWatch, watchIf_whl]; exact id,
    fun h => watch_keeps_sticky _ _ _ _ _ h, holdWatch_only d rfl (.refl _ _)⟩

theorem Whl.enter_settled (w : Whl) (st : WhlState) (src : Source) (now : Nat) : (w.enter st src now).settled = w.settled := by
  unfold enter settled; dsimp only; repeat' split
  all_goals rfl

theorem Whl.enter_todValid {w : Whl} (st : WhlState) (src : Source) (now : Nat) (h : w.todValid = true) :
    (w.enter st src now).todValid = true := by
  unfold enter; dsimp only; repeat' split
  all_goals simp [h]

theorem Whl.enter_state (w : Whl) (st : WhlState) (src : Source) (now : Nat) :
    (w.enter st src now).state = st ∧ (w.enter st src now).src = src := by
  unfold enter; dsimp only; repeat' split
  all_goals simp_all

theorem Follows.setSource (d : Dev) (st : WhlState) (src : Source) : Follows d (Machine.setSource d st src) := by
  unfold Machine.setSource; split
  · exact .refl d
  · have entered : Follows d (d.modWhl fun w => w.enter st src d.whl.time) :=
      .modWhl d (Whl.enter_settled ..) (Whl.enter_todValid _ _ _)
    exact (entered.trans (.report ..)).trans (.holdWatch _)

theorem setSource_state (d : Dev) (st : WhlState) (src : Source) :
    (setSource d st src).whl.state = st ∧ (setSource d st src).whl.src = src := by
  unfold setSource; split
  next same => exact same
  · rw [holdWatch, watchIf_whl, report_whl]
    exact Whl.enter_state ..

theorem Follows.seek (d : Dev) : Follows d (Machine.seek d) := by
  unfold Machine.seek; split
  · exact .setSource ..
  · exact .setSource ..
  · exact .refl d

theorem Follows.activeLost (d : Dev) : Follows d (Machine.activeLost d) := by
  unfold Machine.activeLost; repeat' split
  · exact .setSource ..
  · exact .setSource ..
  · exact .setSource ..

theorem Follows.holdReference (d : Dev) : Follows d (Machine.holdReference d) := by
  unfold Machine.holdReference; split
  · exact .setSource ..
  · exact .refl d

theorem Follows.ite {c : Prop} [Decidable c] {a x y : Dev} (h : Follows a x) (k : Follows a y) : Follows a (if c then x else y) := by
  split <;> assumption

theorem Follows.measured (d : Dev) (off : Int) : Follows d (Machine.measured d off) := by
  have noted : Follows d (d.modWhl fun w =>
      { w with offset := clampInt (2 ^ 31 - 1) off, goodRun := if off.natAbs ≤ 100 then w.goodRun + 1 else 0 }) :=
    .modWhl d rfl id
  unfold Machine.measured; dsimp only
  refine .trans (noted.trans
    (.ite (.modWhl _ rfl id) (.ite (.ite (.modWhl _ rfl id) (.modWhl _ rfl id)) (.ite ?_ (.modWhl _ rfl id)))))
    (.ite (.setSource ..) (.refl _))
  exact .trans (.modWhl _ rfl id) (.trans (.modWhl _ rfl id) (.report ..))

/-! ## The loss of a source (R70) -/

theorem Whl.ptp_setPtp_same (w : Whl) (port : Bool) (p : PtpPort) : (w.setPtp port p).ptp port = p := by cases port <;> rfl

theorem Whl.ptp_setPtp_other (w : Whl) (port : Bool) (p : PtpPort) : (w.setPtp port p).ptp (!port) = w.ptp (!port) := by
  cases port <;> rfl

theorem losePtp_follows (d : Dev) (port : Bool) :
    Follows (report (d.modWhl (fun w => w.setPtp port {})) evPtpLoss []) (losePtp d port) := .ite (.activeLost _) (.refl _)

theorem losePps_follows (d : Dev) :
    Follows (report (d.modWhl (fun w => { w with ppsQual := false, ppsLast := none, ppsRun := 0, ppsSec := none })) evPpsLoss [])
      (losePps d) := .ite (.activeLost _) (.refl _)

theorem loseRef_follows (d : Dev) :
    Follows (report (d.modWhl (fun w => { w with refQual := false, ppsQual := false, ppsRun := 0 })) evRef10mLoss []) (loseRef d) :=
  .trans (.ite (.activeLost _) (.refl _)) (.holdReference _)

/-- What is read of the whorl apart from its state and source, after a report and what follows it. -/
theorem Follows.reads_report {a b : Dev} {e : Nat} {l : List Byte} {α : Type} (h : Follows (Machine.report a e l) b) (g : Whl → α)
    (only : ∀ w, g w.settled = g w := by intro; rfl) : g b.whl = g a.whl :=
  (h.reads g only).trans (congrArg g (report_whl a e l))

theorem Follows.reported {a b : Dev} {e : Nat} {l : List Byte} (h : Follows (Machine.report a e l) b) (runs : a.phase.fwRuns = true) :
    b.evt.sticky e = true := h.sticky (report_sticky a e l runs)

end Sys2Proof.Machine
end
section
/-! PROOFS. Registers of the whorl (O16). -/

namespace Sys2Proof.Machine

/-! ## WHL_CTRL (R68, R70, R90) -/

/-- The enables of the whorl and TOD_ARM. -/
def Whl.enables (w : Whl) : Bool × Bool × Bool × Bool × Bool := (w.enPps, w.enPtp1, w.enPtp0, w.enRef, w.todArm)

/-- The enables as a write of WHL_CTRL sets them. -/
def Whl.enable (w : Whl) (v : Word) : Whl :=
  { w with todArm := w.todArm || bit v 8, enPps := bit v 3, enPtp1 := bit v 2, enPtp0 := bit v 1, enRef := bit v 0 }

/-- What a cleared enable does: PTP of a port, PPS_IN, and REF10M_IN. -/
def ptpOff (d : Dev) (off port : Bool) : Dev :=
  if off then
    (if (d.whl.ptp port).qual || d.whl.isActive (ptpSource port) then losePtp d port else d.modWhl (fun w => w.setPtp port {}))
  else d
def ppsOff (d : Dev) (off : Bool) : Dev :=
  if off then
    (if d.whl.ppsQual || d.whl.isActive .pps then losePps d
      else d.modWhl (fun w => { w with ppsQual := false, ppsLast := none, ppsRun := 0, ppsSec := none }))
  else d
def refOff (d : Dev) (off : Bool) : Dev := if off ∧ d.whl.refQual then loseRef d else d

theorem writeWhlCtrl_eq (d : Dev) (v : Word) : writeWhlCtrl d v =
    (refOff (ppsOff (ptpOff (ptpOff (d.modWhl (·.enable v)) (d.whl.enPtp0 && !bit v 1) false) (d.whl.enPtp1 && !bit v 2) true)
      (d.whl.enPps && !bit v 3)) (d.whl.enRef && !bit v 0), .ok) := rfl

theorem ptpOff_enables (d : Dev) (off port : Bool) : (ptpOff d off port).whl.enables = d.whl.enables := by
  have cleared : (d.whl.setPtp port {}).enables = d.whl.enables := by cases port <;> rfl
  unfold ptpOff; repeat' split
  · exact ((losePtp_follows d port).reads_report Whl.enables).trans cleared
  · exact cleared
  · rfl

theorem ptpOff_ptp_same (d : Dev) (port : Bool) : (ptpOff d true port).whl.ptp port = {} := by
  have cleared : (d.whl.setPtp port {}).ptp port = {} := Whl.ptp_setPtp_same ..
  unfold ptpOff; rw [if_pos rfl]; split
  · exact ((losePtp_follows d port).reads_report (·.ptp port)).trans cleared
  · exact cleared

theorem ptpOff_ptp_other (d : Dev) (off port : Bool) : (ptpOff d off port).whl.ptp (!port) = d.whl.ptp (!port) := by
  have cleared : (d.whl.setPtp port {}).ptp (!port) = d.whl.ptp (!port) := Whl.ptp_setPtp_other ..
  unfold ptpOff; repeat' split
  · exact ((losePtp_follows d port).reads_report (·.ptp (!port))).trans cleared
  · exact cleared
  · rfl

section
variable {α : Type} (d : Dev) (off : Bool) (g : Whl → α) (settled : ∀ w, g w.settled = g w := by intro; rfl)
include settled

/-- What is read neither of PPS_IN nor of the state is as it was once PPS_IN is disabled. -/
theorem ppsOff_reads
    (pps : ∀ w : Whl, g { w with ppsQual := false, ppsLast := none, ppsRun := 0, ppsSec := none } = g w := by intro; rfl) :
    g (ppsOff d off).whl = g d.whl := by
  unfold ppsOff; repeat' split
  · exact ((losePps_follows d).reads_report g settled).trans (pps _)
  · exact pps _
  · rfl

theorem refOff_reads (ref : ∀ w : Whl, g { w with refQual := false, ppsQual := false, ppsRun := 0 } = g w := by intro; rfl) :
    g (refOff d off).whl = g d.whl := by
  unfold refOff; split
  · exact ((loseRef_follows d).reads_report g settled).trans (ref _)
  · rfl

end

theorem writeWhlCtrl_enables (d : Dev) (v : Word) : (writeWhlCtrl d v).1.whl.enables = (d.whl.enable v).enables := by
  rw [writeWhlCtrl_eq]; dsimp only
  rw [refOff_reads _ _ Whl.enables, ppsOff_reads _ _ Whl.enables, ptpOff_enables, ptpOff_enables]; rfl

/-- PTP of BH0, disabled, is forgotten. -/
theorem writeWhlCtrl_ptp0 {d : Dev} {v : Word} (on : d.whl.enPtp0 = true) (off : bit v 1 = false) :
    (writeWhlCtrl d v).1.whl.ptp0 = {} := by
  rw [writeWhlCtrl_eq, on, off]; dsimp only
  rw [refOff_reads _ _ Whl.ptp0, ppsOff_reads _ _ Whl.ptp0]
  exact (ptpOff_ptp_other _ _ true).trans (ptpOff_ptp_same _ false)

/-- The enables as WHL_CTRL reads them, written back with TOD_ARM. -/
theorem ctrl_arm_bits : ∀ arm pps ptp1 ptp0 ref : Bool,
    let v := pack [(8, b2n arm), (3, b2n pps), (2, b2n ptp1), (1, b2n ptp0), (0, b2n ref)] ||| 0x100
    bit v 8 = true ∧ bit v 3 = pps ∧ bit v 2 = ptp1 ∧ bit v 1 = ptp0 ∧ bit v 0 = ref := by decide

theorem writeWhlCtrl_arm (d : Dev) : writeWhlCtrl d (d.whl.ctrl ||| 0x100) = (d.modWhl (fun w => { w with todArm := true }), .ok) := by
  obtain ⟨arm, pps, ptp1, ptp0, ref⟩ := ctrl_arm_bits d.whl.todArm d.whl.enPps d.whl.enPtp1 d.whl.enPtp0 d.whl.enRef
  have armed : d.modWhl (·.enable (d.whl.ctrl ||| 0x100)) = d.modWhl (fun w => { w with todArm := true }) := by
    simp only [Dev.modWhl, Whl.enable, Whl.ctrl, arm, pps, ptp1, ptp0, ref, Bool.or_true]
  rw [writeWhlCtrl_eq, armed]
  simp only [Whl.ctrl, pps, ptp1, ptp0, ref, Bool.and_not_self]
  rfl

/-! ## The period and the epoch (R81) -/

theorem reported_whl {d : Dev} (runs : d.phase.fwRuns = true) (f : Whl → Whl) (e : Nat) (st : Status) :
    let a := (report (d.modWhl f) e []).emit (.status st)
    a = { d with out := d.out ++ [.status st], whl := f d.whl, evt := a.evt } ∧ a.evt.sticky e = true := by
  intro a
  refine ⟨?_, report_sticky (d.modWhl f) e [] runs⟩
  simp only [a, Dev.emit]
  rw [report_running (d := d.modWhl f) runs]
  rfl

theorem writePeriod_open {d : Dev} {v : Word} (h : periodOpen d = true) : writePeriod d v =
    if fld v 11 0 < 400 ∨ 4000 < fld v 11 0 then (d, .range)
    else (report (d.modWhl (fun w => { w with period := fld v 11 0 })) evPeriodChange [], .ok) := by
  simp only [writePeriod, h, Bool.true_eq_false, if_false]

theorem writeEpoch_open {d : Dev} (hi : Bool) (v : Word) (h : periodOpen d = true) : writeEpoch d hi v =
    (report (d.modWhl (fun w =>
      { w with epoch := if hi then v.toNat * 2 ^ 32 + w.epoch % 2 ^ 32 else w.epoch / 2 ^ 32 * 2 ^ 32 + v.toNat }))
      evPeriodChange [], .ok) := by
  simp only [writeEpoch, h, Bool.true_eq_false, if_false]

theorem writePeriod_closed {d : Dev} (v : Word) (h : periodOpen d = false) : writePeriod d v = (d, .state) := by
  simp only [writePeriod, h, if_true]

theorem writeEpoch_closed {d : Dev} (hi : Bool) (v : Word) (h : periodOpen d = false) : writeEpoch d hi v = (d, .state) := by
  simp only [writeEpoch, h, if_true]

/-- Settles O16: a write of WHL_CTRL is the loss of the sources it disables, each of which leaves the enables and the others. -/
theorem whorlRegisters : Obligations.WhorlRegisters := by
  unfold Obligations.WhorlRegisters
  intro s dt v e runs
  have quiet : e.out = [] := Dev.elapse_out ..
  have row {P : Dev → Prop} (c : Instr) (f : Dev → Dev × Status) (h : exec c s = run dt (fun d => regRow f d) s)
      (p : P ((f e).1.emit (.status (f e).2))) : Gives c s P := gives_run h (by rwa [regRow_runs f e runs])
  refine ⟨fun latch => row _ _ rfl ?_, row _ _ rfl ?_, row _ _ rfl ?_, fun may => ⟨fun lo hi => row _ _ rfl ?_,
    fun out => row _ _ rfl ?_, row _ _ rfl ?_, row _ _ rfl ?_⟩, fun no hi => ⟨row _ _ rfl ?_, row _ _ rfl ?_⟩,
    fun clr => row _ _ rfl ?_⟩
  · simp only [writeLatch, latch, if_true]
    rfl
  · have only : Only [.start, .evt, .whl] e (writeWhlCtrl e v).1 := writeWhlCtrl_only e v rfl (.refl _ _)
    obtain ⟨pps, ptp1, ptp0, ref, arm⟩ : _ ∧ _ ∧ _ ∧ _ ∧ _ := by simpa [Whl.enables] using writeWhlCtrl_enables e v
    have out : (writeWhlCtrl e v).1.out = [] := (only.same .out (by decide)).trans quiet
    exact ⟨pps, ptp1, ptp0, ref, arm, by rw [Dev.emit_out, out]; rfl, writeWhlCtrl_ptp0,
      only.same .pra (by decide), only.same .spn (by decide)⟩
  · rw [writeWhlCtrl_arm]; rfl
  · rw [writePeriod_open may, if_neg (by omega)]
    exact reported_whl runs _ _ _
  · rw [writePeriod_open may, if_pos out]; rfl
  · rw [writeEpoch_open _ _ may]
    exact (reported_whl runs _ _ _).symm
  · rw [writeEpoch_open _ _ may]
    exact (reported_whl runs _ _ _).symm
  · rw [writePeriod_closed v no]; rfl
  · rw [writeEpoch_closed hi v no]; rfl
  · simp only [writeOvr, clr, if_true]
    rfl

end Sys2Proof.Machine
end
section
/-! PROOFS. PPS_IN, REF10M_IN and PPS_OUT (O18). -/

namespace Sys2Proof.Machine

/-! ## PPS_IN (R67, R68, R70) -/

theorem sourcesRun_fwRuns {d : Dev} (h : sourcesRun d = true) : d.phase.fwRuns = true := by
  rcases (by simpa [sourcesRun] using h : d.phase = .applied ∨ d.phase = .up) with p | p <;> rw [p] <;> rfl

theorem Whl.isActive_of_ne {w : Whl} {s : Source} (h : w.src ≠ s) : w.isActive s = false := by simp [isActive, h]

/-- The whorl once an active edge of PPS_IN is taken in. -/
def Whl.edge (w : Whl) (interval : Nat) : Whl :=
  { w with ppsLast := some w.time,
           ppsRun := if w.ppsLast.isSome ∧ ((interval : Int) - 1000000000).natAbs ≤ 1000 then w.ppsRun + 1 else 1,
           ppsSec := if w.todArm then some w.todSec else w.ppsSec.map (· + 1), todArm := false, todValid := w.todValid || w.todArm }

/-- How far an edge seen at time `t` lies from the second nearest to it. -/
def secondAway (t : Int) : Nat := ((t + 500000000) / 1000000000 * 1000000000 - t).natAbs

theorem doPpsInEdge_idle {d : Dev} {rising : Bool} (interval : Nat) (h : rising = d.whl.inEdge) : doPpsInEdge rising interval d = d :=
  if_pos (.inr h)

section
variable {d : Dev} {rising : Bool} (interval : Nat) (runs : sourcesRun d = true) (active : rising ≠ d.whl.inEdge)
  (other : d.whl.src ≠ .pps)
include runs active other

/-- An edge within its limits, or of a PPS_IN that is neither qualified nor followed, is taken in, and the sources evaluated. -/
theorem doPpsInEdge_taken (near : ¬ (d.whl.state = .locked ∨ d.whl.state = .holdover) ∨ d.whl.ppsQual = false) :
    ∃ q, Follows (d.modWhl (fun w => { w.edge interval with ppsQual := q })) (doPpsInEdge rising interval d) := by
  have idle : d.whl.isActive .pps = false := Whl.isActive_of_ne other
  refine ⟨d.whl.ppsQual || ((d.whl.edge interval).enPps && (d.whl.edge interval).refQual && (d.whl.edge interval).todValid
    && decide (4 ≤ (d.whl.edge interval).ppsRun)), ?_⟩
  unfold doPpsInEdge
  rw [if_neg (by simp [runs, active])]
  dsimp only
  rw [if_neg ?kept]
  case kept =>
    rintro ⟨follows, qual | act, -⟩
    · exact near.elim (· follows) fun no => absurd (no.symm.trans qual) (by decide)
    · exact absurd (idle.symm.trans act) (by decide)
  exact .trans (.ite (.seek _) (.refl _)) (.ite (.measured ..) (.refl _))

/-- An edge more than 1 µs off loses a qualified PPS_IN (log 51). -/
theorem doPpsInEdge_away (follows : d.whl.state = .locked ∨ d.whl.state = .holdover) (qual : d.whl.ppsQual = true)
    (away : 1000 < secondAway ((d.whl.time : Int) - settingInt d.pra 0x401)) :
    doPpsInEdge rising interval d = losePps (d.modWhl (·.edge interval)) := by
  unfold doPpsInEdge
  rw [if_neg (by simp [runs, active])]
  dsimp only
  rw [if_pos ⟨follows, .inl qual, by simp only [Dev.modWhl_whl, other, if_false]; exact away⟩]
  rfl

end

theorem losePps_idle {d : Dev} (h : d.whl.src ≠ .pps) : losePps d =
    report (d.modWhl (fun w => { w with ppsQual := false, ppsLast := none, ppsRun := 0, ppsSec := none })) evPpsLoss [] := by
  simp only [losePps, Whl.isActive_of_ne h, Bool.false_eq_true, if_false]

/-- Settles O18: an edge, a loss and a qualification each change the whorl's inputs, which following the sources then leaves. -/
theorem ppsAndReference : Obligations.PpsAndReference := by
  unfold Obligations.PpsAndReference
  intro s dt e follows t
  refine ⟨fun rising interval runs active other => ⟨fun near => gives_run rfl ?_, fun locked qual away => gives_run rfl ?_⟩,
    fun rising interval idle => gives_run rfl (doPpsInEdge_idle interval idle), fun last runs seen late => gives_run rfl ?_,
    fun runs qual => gives_run rfl ?_, fun edge rate runs en =>
      ⟨fun lo hi within => gives_run rfl ?_, fun out => gives_run rfl ?_⟩,
    fun runs second mode => gives_run rfl ?_⟩
  · obtain ⟨q, taken⟩ := doPpsInEdge_taken interval runs active other near
    refine ⟨taken.reads (·.ppsLast), taken.reads (·.todArm), fun arm => ⟨?_, taken.todValid ?_⟩, fun arm => ?_,
      taken.reads (·.time)⟩
    · exact (taken.reads (·.ppsSec)).trans (if_pos arm)
    · exact (congrArg (e.whl.todValid || ·) arm).trans (Bool.or_true _)
    · exact (taken.reads (·.ppsSec)).trans (if_neg (by rw [arm]; decide))
  · rw [doPpsInEdge_away interval runs active other locked qual away,
      losePps_idle (d := e.modWhl (·.edge interval)) other]
    exact ⟨by rw [report_whl]; rfl, by rw [report_whl]; rfl, report_sticky _ _ _ (sourcesRun_fwRuns runs), by rw [report_whl]; rfl⟩
  · have lost : doPpsTimeout e = losePps e := by simp only [doPpsTimeout, seen, late, if_true]
    rw [lost]
    exact ⟨(losePps_follows e).reads_report (·.ppsLast), (losePps_follows e).reads_report (·.ppsQual),
      (losePps_follows e).reported runs⟩
  · rw [doRef10mLoss, if_pos qual]
    exact ⟨(loseRef_follows e).reads_report (·.refQual), (loseRef_follows e).reads_report (·.ppsQual),
      (loseRef_follows e).reported runs⟩
  · have ok : doRef10mQualify edge rate e = holdReference (e.modWhl (fun w => { w with refQual := true })) := by
      simp only [doRef10mQualify, runs, en, lo, hi, within, decide_true, Bool.and_self, and_self, if_true]
    rw [ok]
    exact (Follows.holdReference _).reads (·.refQual)
  · have bad : doRef10mQualify edge rate e = doRef10mLoss e := by
      have no : (decide (50 ≤ edge) && decide (edge ≤ 150) && decide (rate.natAbs ≤ 110000)) = false := by
        simp only [Bool.and_eq_false_iff, decide_eq_false_iff_not]; omega
      simp only [doRef10mQualify, runs, en, no, and_self, if_true, Bool.false_eq_true, if_false]
    rw [bad, doRef10mLoss]
    split
    · exact (loseRef_follows e).reads_report (·.refQual)
    next no => simpa using no
  · have quiet : e.out = [] := Dev.elapse_out ..
    rw [doPpsOutSecond, if_pos ⟨runs, second⟩, pulse]
    by_cases locked : e.whl.state = .locked ∨ e.whl.state = .holdover
    · rw [if_pos ⟨mode, locked⟩, if_pos locked, Dev.emit, quiet]; rfl
    · rw [if_neg (fun h => locked h.2), if_neg locked, ← quiet]

end Sys2Proof.Machine
end
section
/-! PROOFS. PTP (O17). -/

namespace Sys2Proof.Machine

theorem gives_runCpu {c : Instr} {s : State} {P : Dev → Prop} {dt : Nat} {f : Dev → Dev} (h : exec c s = runCpu dt f s)
    (p : P (f (takeCpu (s.dev.elapse dt)))) : Gives c s P := gives_run h p

theorem Whl.setPtp_time (w : Whl) (port : Bool) (p : PtpPort) : (w.setPtp port p).time = w.time := by cases port <;> rfl

theorem Whl.isActive_setPtp (w : Whl) (port : Bool) (p : PtpPort) (s : Source) : (w.setPtp port p).isActive s = w.isActive s := by
  cases port <;> rfl

/-! ## The messages (R67, R71) -/

section
variable {d : Dev} {port : Bool} (runs : ptpRuns d port = true)
include runs

theorem doPtpAnnounce_others {m : PtpAnnounce} (h : ptpOurs d m.domain m.via m.extra = false) :
    doPtpAnnounce port m d = ptpDrop d := by
  simp only [doPtpAnnounce, runs, h, Bool.true_eq_false, true_or, if_true, if_false]

section
variable {m : PtpAnnounce} (ours : ptpOurs d m.domain m.via m.extra = true) (lo : 0 ≤ m.logInterval) (hi : m.logInterval ≤ 3)
include ours lo hi

/-- The first Announce makes the parent. -/
theorem doPtpAnnounce_adopts (new : (d.whl.ptp port).parent = none) : doPtpAnnounce port m d =
    d.modWhl (fun w => w.setPtp port { d.whl.ptp port with
      parent := some m, lastAnnounce := d.whl.time, lastSync := d.whl.time, syncs := [], delay := 0, lastT1T2 := none,
      delayReqAt := none, qual := false }) := by
  unfold doPtpAnnounce
  rw [if_neg (by simp [runs]), if_neg (by simp only [ours, Bool.true_eq_false, false_or]; omega)]
  simp only [new]

/-- The parent's own Announce renews it. -/
theorem doPtpAnnounce_renews {a : PtpAnnounce} (parent : (d.whl.ptp port).parent = some a) (same : a.clockId = m.clockId) :
    doPtpAnnounce port m d = d.modWhl (fun w => w.setPtp port { d.whl.ptp port with
      parent := some m, lastAnnounce := d.whl.time, qual := (d.whl.ptp port).qual && m.ptpTimescale }) := by
  unfold doPtpAnnounce
  rw [if_neg (by simp [runs]), if_neg (by simp only [ours, Bool.true_eq_false, false_or]; omega)]
  simp only [parent, same, if_true]

end

/-- A Sync of the parent is measured, and the sources evaluated. -/
theorem doPtpSync_parent {m : PtpSync} {a : PtpAnnounce} (ours : ptpOurs d m.domain m.via m.extra = true) (lo : -4 ≤ m.logInterval)
    (hi : m.logInterval ≤ 1) (parent : (d.whl.ptp port).parent = some a) (same : a.clockId = m.clockId) (usable : m.usable = true) :
    ∃ q since, ((d.whl.ptp port).qual = true → q = true) ∧
      Follows (d.modWhl (fun w => w.setPtp port { d.whl.ptp port with
        syncs := ((d.whl.time, (m.t1 : Int) + (d.whl.ptp port).delay + settingInt d.pra 0x402 - (d.whl.time : Int))
          :: (d.whl.ptp port).syncs).take 8,
        lastSync := d.whl.time, syncInterval := m.logInterval, lastT1T2 := some (m.t1, d.whl.time), qual := q, qualSince := since }))
        (doPtpSync port m d) := by
  unfold doPtpSync
  rw [if_neg (by simp [runs]), if_neg (by simp only [ours, Bool.true_eq_false, false_or]; omega)]
  dsimp only
  rw [parent]
  dsimp only
  rw [if_neg (by simp [same, usable])]
  exact ⟨_, _, fun qual => by rw [qual]; exact Bool.true_or _, .trans (.ite (.seek _) (.refl _)) (.ite (.measured ..) (.refl _))⟩

theorem doPtpDelayResp_parent {m : PtpDelayResp} {a : PtpAnnounce} {t1 t2 t3 : Nat}
    (ours : ptpOurs d m.domain m.via m.extra = true) (parent : (d.whl.ptp port).parent = some a)
    (sent : (d.whl.ptp port).delayReqAt = some t3) (sync : (d.whl.ptp port).lastT1T2 = some (t1, t2)) (same : a.clockId = m.clockId) :
    doPtpDelayResp port m d = d.modWhl (fun w => w.setPtp port { d.whl.ptp port with
      delay := (((t2 : Int) - (t1 : Int)) + ((m.t4 : Int) - (t3 : Int))) / 2, delayReqAt := none,
      delayReqLog := m.logMinDelayReq }) := by
  unfold doPtpDelayResp
  simp only [runs, ours, parent, sent, sync, same, Bool.true_eq_false, if_true, if_false]

end

/-! ## Delay_Req (R71, R247) -/

theorem sendDelayReq_sends (d : Dev) (port : Bool) {via : PtpVia} (seq : Nat) (h : via ≠ .udp4) :
    ∃ data, sendDelayReq d port via seq = sendOwn d (bhPort port) true data := by
  cases via with
  | udp6 g => exact ⟨_, rfl⟩
  | ieee8023 => exact ⟨_, rfl⟩
  | udp4 => exact absurd rfl h

/-- A frame that the device originates joins Q0 of its port, which stands alone. -/
theorem sendOwn_q0 (d : Dev) (port : Port) (ptp : Bool) (data : List Byte) :
    (kgetD (sendOwn d port ptp data).sht.queues (16 * port.num) []).length = (kgetD d.sht.queues (16 * port.num) []).length + 1 := by
  simp [sendOwn, kmod, kgetD_kput_same]

/-- What is known of PTP once a Delay_Req has left, the next falling due at `next`. -/
def PtpPort.asked (p : PtpPort) (next : Nat) : PtpPort :=
  { p with delayReqAt := none, delayReqDue := next, delayReqSeq := (p.delayReqSeq + 1) % 65536 }

/-- When the next Delay_Req falls due, with its spread of ±30 %. -/
def nextDelayReq (d : Dev) (port : Bool) : Nat :=
  d.whl.time + logNs (d.whl.ptp port).delayReqLog * (70 + ((Config.freeBits d.free).setWidth 8).toNat % 61) / 100

theorem doPtpDelayReqSend_due {d : Dev} {port : Bool} {a : PtpAnnounce} (runs : ptpRuns d port = true)
    (parent : (d.whl.ptp port).parent = some a) (due : (d.whl.ptp port).delayReqDue ≤ d.whl.time) :
    doPtpDelayReqSend port d =
      sendDelayReq (d.draw.2.modWhl (fun w => w.setPtp port ((d.whl.ptp port).asked (nextDelayReq d port)))) port a.via
        (d.whl.ptp port).delayReqSeq := by
  simp only [doPtpDelayReqSend, parent, runs, due, and_self, if_true, PtpPort.asked, nextDelayReq, Dev.draw_value, Dev.draw_whl]

/-! ## The loss of PTP, and its preference (R69, R70) -/

theorem Whl.best_ne_of_not_ready {w : Whl} {port : Bool} (h : w.ptpReady port = false) : w.best ≠ some (ptpSource port) := by
  cases port with
  | false => cases other : w.ptpReady true <;> simp [best, h, other, ptpSource]
  | true => cases other : w.ptpReady false <;> simp [best, h, other, ptpSource]

theorem activeLost_inactive {d : Dev} {port : Bool} (h : d.whl.ptpReady port = false) :
    (activeLost d).whl.isActive (ptpSource port) = false := by
  unfold activeLost; split
  next s found =>
    have other : s ≠ ptpSource port := fun same => Whl.best_ne_of_not_ready h (same ▸ found)
    exact Whl.isActive_of_ne (by rw [(setSource_state ..).2]; exact other)
  next =>
    split
    · simp [Whl.isActive, setSource_state]
    · simp [Whl.isActive, setSource_state]

theorem losePtp_inactive (d : Dev) (port : Bool) : (losePtp d port).whl.isActive (ptpSource port) = false := by
  unfold losePtp; dsimp only; split
  · refine activeLost_inactive ?_
    rw [report_whl, Dev.modWhl_whl, Whl.ptpReady, Whl.ptp_setPtp_same, Bool.and_false]
  next idle =>
    rw [report_whl, Dev.modWhl_whl, Whl.isActive_setPtp]
    exact Bool.eq_false_iff.2 idle

theorem Whl.enter_acquire_lockedSince (w : Whl) (src : Source) (now : Nat) : (w.enter .acquire src now).lockedSince = none := by
  unfold enter; dsimp only; split
  · rfl
  · assumption

theorem setSource_changed {d : Dev} {st : WhlState} {src : Source} (h : d.whl.state ≠ st) : setSource d st src =
    holdWatch (report (d.modWhl (fun w => w.enter st src d.whl.time)) evSrcChange []) := if_neg fun same => h same.1

theorem setSource_reported {d : Dev} {st : WhlState} {src : Source} (h : d.whl.state ≠ st) (runs : d.phase.fwRuns = true) :
    (setSource d st src).evt.sticky evSrcChange = true := by
  rw [setSource_changed h]
  exact (Follows.holdWatch _).sticky (report_sticky _ _ _ runs)

/-- The one port whose PTP is ready is the best source. -/
theorem Whl.best_of_ready {w : Whl} {port : Bool} (ready : w.ptpReady port = true) (other : w.ptpReady (!port) = false) :
    w.best = some (ptpSource port) := by
  cases port with
  | false => simp only [Bool.not_false] at other; simp [best, ready, other, ptpSource]
  | true => simp only [Bool.not_true] at other; simp [best, ready, other, ptpSource]

theorem doPtpPreferenceTimer_long {d : Dev} {port : Bool} (locked : d.whl.state = .locked) (src : d.whl.src = .pps)
    (ready : d.whl.ptpReady port = true) (other : d.whl.ptpReady (!port) = false)
    (long : (d.whl.ptp port).qualSince + 60000000000 ≤ d.whl.time) :
    doPtpPreferenceTimer d = setSource d .acquire (ptpSource port) := by
  have best := Whl.best_of_ready ready other
  cases port with
  | false => simp only [Bool.not_false] at other; simp [doPtpPreferenceTimer, locked, src, ready, long, best, ptpSource]
  | true => simp only [Bool.not_true] at other; simp [doPtpPreferenceTimer, locked, src, ready, long, best, ptpSource]

/-- Settles O17: each message changes what is known of its own port (`Whl.setPtp`), and the sources are then followed. -/
theorem ptpMessagesAndPreference : Obligations.PtpMessagesAndPreference := by
  unfold Obligations.PtpMessagesAndPreference
  refine ⟨fun s dt port => ?_, fun s dt port => ?_⟩
  · intro e c p q0
    refine ⟨fun runs => ⟨fun m ours lo hi => ⟨fun new => gives_runCpu rfl ?_, fun a parent same => gives_runCpu rfl ?_⟩,
      fun m others => gives_runCpu rfl ?_, fun m a ours lo hi parent same usable => ?_,
      fun a parent via due => gives_run rfl ?_,
      fun m a t1 t2 t3 ours parent sent sync same => gives_runCpu rfl ?_⟩, fun a parent fw late => gives_run rfl ?_⟩
    · rw [doPtpAnnounce_adopts (d := c) runs ours lo hi new, Dev.modWhl_whl, Whl.ptp_setPtp_same]
      exact ⟨rfl, rfl, rfl, rfl, rfl⟩
    · rw [doPtpAnnounce_renews (d := c) runs ours lo hi parent same]
      rfl
    · rw [doPtpAnnounce_others (d := c) runs others]
      rfl
    · obtain ⟨q, since, keeps, follows⟩ := doPtpSync_parent (d := c) runs ours lo hi parent same usable
      have own := (follows.reads (·.ptp port)).trans (Whl.ptp_setPtp_same ..)
      refine gives_runCpu rfl ⟨?_, ?_, ?_, fun qual => ?_, ?_, ?_, follows.only.same .pra (by decide)⟩
      · rw [own]; rfl
      · rw [own]; rfl
      · rw [own]; rfl
      · rw [own]; exact keeps qual
      · exact (follows.reads (·.ptp (!port))).trans (Whl.ptp_setPtp_other ..)
      · exact (follows.reads (·.time)).trans (Whl.setPtp_time ..)
    · rw [doPtpDelayReqSend_due runs parent due]
      obtain ⟨data, sends⟩ := sendDelayReq_sends (e.draw.2.modWhl (fun w => w.setPtp port (p.asked (nextDelayReq e port)))) port
        p.delayReqSeq via
      have own : (e.whl.setPtp port (p.asked (nextDelayReq e port))).ptp port = p.asked (nextDelayReq e port) := Whl.ptp_setPtp_same ..
      rw [sends]
      exact ⟨congrArg (·.delayReqAt) own, congrArg (·.delayReqSeq) own, congrArg (·.delayReqDue) own, sendOwn_q0 .., rfl,
        Whl.ptp_setPtp_other .., rfl⟩
    · rw [doPtpDelayResp_parent (d := c) runs ours parent sent sync same]
      rfl
    · have lost : doPtpAnnounceTimeout port e = losePtp e port := by
        simp only [doPtpAnnounceTimeout]
        rw [show (e.whl.ptp port).parent = some a from parent]
        exact if_pos late
      rw [lost]
      have follows := losePtp_follows e port
      exact ⟨(follows.reads_report (·.ptp port)).trans (Whl.ptp_setPtp_same ..),
        (follows.reads_report (·.ptp (!port))).trans (Whl.ptp_setPtp_other ..), follows.reported fw, losePtp_inactive e port⟩
  · intro e locked src ready other long runs
    refine gives_run rfl ?_
    rw [doPtpPreferenceTimer_long locked src ready other long]
    have changes : e.whl.state ≠ .acquire := by rw [locked]; decide
    refine ⟨(setSource_state ..).1, (setSource_state ..).2, setSource_reported changes runs, ?_,
      (Follows.setSource ..).reads (·.ptp0),
      (Follows.setSource ..).reads (·.ptp1)⟩
    rw [setSource_changed changes, holdWatch, watchIf_whl, report_whl]
    exact Whl.enter_acquire_lockedSince ..

end Sys2Proof.Machine
end
section
/-! PROOFS. Launches leave the launch table (O14, O19): the end of a thread releases fences, and a throw given up at its fence is
the one thing of the whorl that goes with it (R209). -/

namespace Sys2Proof.Machine

/-- The whorl without its launch table. -/
def Whl.unlaunched (w : Whl) : Whl := { w with launches := [] }

/-- From `a` to `b` launches may have left the launch table, and nothing else of the whorl has changed. -/
structure Launched (a b : Dev) : Prop where
  sub : b.whl.launches.Sublist a.whl.launches
  rest : b.whl.unlaunched = a.whl.unlaunched

theorem Launched.of_whl {a b : Dev} (h : b.whl = a.whl) : Launched a b := ⟨by rw [h], by rw [h]⟩

theorem Launched.of_only {l : List Part} {a b : Dev} (h : Only l a b) (out : Part.whl ∉ l) : Launched a b :=
  .of_whl (h.same .whl out)

theorem Launched.refl (d : Dev) : Launched d d := .of_whl rfl

theorem Launched.trans {a b c : Dev} (h : Launched a b) (k : Launched b c) : Launched a c :=
  ⟨k.sub.trans h.sub, k.rest.trans h.rest⟩

theorem Launched.ite {c : Prop} [Decidable c] {a x y : Dev} (h : Launched a x) (k : Launched a y) :
    Launched a (if c then x else y) := by
  split <;> assumption

theorem Launched.each {α : Type} {l : List α} {f : Dev → α → Dev} {d : Dev} (k : ∀ e x, Launched e (f e x)) :
    Launched d (Machine.each l f d) := each_holds (P := Launched d) (.refl d) fun e x h => h.trans (k e x)

/-- What is read of the whorl without its launches is as it was. -/
theorem Launched.reads {a b : Dev} {α : Type} (h : Launched a b) (g : Whl → α)
    (only : ∀ w, g w.unlaunched = g w := by intro; rfl) :
    g b.whl = g a.whl := by
  rw [← only b.whl, h.rest, only]

theorem Launched.dropLaunch (d : Dev) (l : Launch) : Launched d (Machine.dropLaunch d l) := ⟨List.filter_sublist, rfl⟩

theorem markDone_whl (d : Dev) (th : Nat) (st : Status) (res : List Byte) : (markDone d th st res).whl = d.whl :=
  (markDone_only d th st res (l_ := [.ccp, .img]) rfl (.refl _ _)).same .whl (by decide)

theorem Launched.settleFence (d : Dev) (th : Nat) : Launched d (Machine.settleFence d th) := by
  unfold Machine.settleFence; split
  · exact .refl d
  · split
    · split
      · refine .trans (b := match d.launchOf th with | some l => Machine.dropLaunch d l | none => d) ?_ (.of_whl (markDone_whl ..))
        split
        · exact .dropLaunch ..
        · exact .refl d
      · exact .of_whl rfl
    · exact .refl d

theorem Launched.finish (d : Dev) (th : Nat) (st : Status) (res : List Byte) : Launched d (Machine.finish d th st res) :=
  .trans (.of_whl (markDone_whl d th st res)) (.each .settleFence)

/-- Where no thread is FENCED, the end of one leaves the whorl. -/
theorem NoFence.finish_whl {d : Dev} (h : NoFence d) (th : Nat) (st : Status) (res : List Byte) :
    (finish d th st res).whl = d.whl := by
  rw [finish, (h.markDone th st res).settleFences]
  exact markDone_whl ..

theorem NoFence.finish {d : Dev} (h : NoFence d) (th : Nat) (st : Status) (res : List Byte) :
    NoFence (Machine.finish d th st res) := by
  rw [Machine.finish, (h.markDone th st res).settleFences]
  exact h.markDone th st res

theorem mem_of_kfind {α : Type} {m : KMap α} {k : Nat} {v : α} (h : kfind m k = some v) : (k, v) ∈ m := by
  induction m with
  | nil => simp [kfind] at h
  | cons p r ih =>
    obtain ⟨j, w⟩ := p
    unfold kfind at h; split at h
    · simp_all
    · exact .tail _ (ih h)

theorem NoFence.of_threads {a b : Dev} (h : NoFence a) (same : b.ccp = a.ccp) : NoFence b := by
  unfold NoFence; rw [same]; exact h

/-- A change of a thread that leaves its state fences none. -/
theorem NoFence.modThread_keeps {d : Dev} (h : NoFence d) (th : Nat) {f : Thread → Thread} (keeps : ∀ t, (f t).st = t.st) :
    NoFence (d.modThread th f) := by
  intro p hp
  simp only [Dev.modThread, Dev.modCcp_ccp, kadj] at hp
  split at hp
  next t found =>
    rcases mem_kput hp with rfl | old
    · exact (keeps t).symm ▸ h _ (mem_of_kfind found)
    · exact h p old
  next => exact h p hp

end Sys2Proof.Machine
end
section
/-! PROOFS. Launch release (O19). -/

namespace Sys2Proof.Machine

/-- The launches whose instants have come. -/
def Dev.dueLaunches (d : Dev) : List Launch := d.whl.launches.filter (fun l => decide (l.at_ ≤ d.whl.time))

/-- The device as a throw is closed: its launch dropped, its thread told the time's quality. -/
def closing (d : Dev) (l : Launch) : Dev :=
  (dropLaunch d l).modThread l.th (fun t => { t with
    degraded := !(d.whl.state == .locked || (d.whl.state == .holdover && !d.evt.live evHoldoverLimit)) })

/-- The status a throw closes with (R180). -/
def Launch.status (l : Launch) : Status := if l.missing = [] ∧ l.refused = [] then .ok else .partialOk

theorem Launch.partly_iff (l : Launch) : (!l.missing.isEmpty || !l.refused.isEmpty) = !decide (l.missing = [] ∧ l.refused = []) := by
  cases l.missing <;> cases l.refused <;> rfl

/-- A throw is closed by the end of its thread; where it is PARTIAL, that is reported. -/
theorem closeThrow_eq (d : Dev) (l : Launch) : closeThrow d l =
    if l.missing = [] ∧ l.refused = [] then finish (closing d l) l.th l.status l.result
    else report (finish (closing d l) l.th l.status l.result) evThrowPartial
      (octets 2 l.throwId ++ octets 2 l.group ++ octets 4 l.missing.length ++ octets 4 l.refused.length) := by
  simp only [closeThrow, Launch.partly_iff, Launch.status]
  by_cases whole : l.missing = [] ∧ l.refused = []
  · simp only [whole, and_self, decide_true, Bool.not_true, Bool.false_eq_true, if_true, if_false]; rfl
  · simp only [whole, decide_false, Bool.not_false, if_true, if_false]; rfl

theorem closeThrow_whl (d : Dev) (l : Launch) : (closeThrow d l).whl = (finish (closing d l) l.th l.status l.result).whl := by
  rw [closeThrow_eq]; split
  · rfl
  · exact report_whl ..

theorem closeThrow_ccp (d : Dev) (l : Launch) : (closeThrow d l).ccp = (finish (closing d l) l.th l.status l.result).ccp := by
  rw [closeThrow_eq]; split
  · rfl
  · exact report_ccp ..

theorem Launched.closeThrow (d : Dev) (l : Launch) : Launched d (Machine.closeThrow d l) :=
  .trans (b := closing d l) (.trans (.dropLaunch d l) (.of_whl rfl)) (.trans (.finish ..) (.of_whl (closeThrow_whl d l)))

theorem NoFence.closing {d : Dev} (h : NoFence d) (l : Launch) : NoFence (Machine.closing d l) :=
  NoFence.modThread_keeps (d := dropLaunch d l) (h.of_threads rfl) l.th fun _ => rfl

theorem NoFence.closeThrow {d : Dev} (h : NoFence d) (l : Launch) : NoFence (Machine.closeThrow d l) :=
  ((h.closing l).finish l.th l.status l.result).of_threads (closeThrow_ccp d l)

theorem NoFence.closeThrow_launches {d : Dev} (h : NoFence d) (l : Launch) :
    (Machine.closeThrow d l).whl.launches = d.whl.launches.filter (fun x => x.throwId != l.throwId) :=
  congrArg Whl.launches ((closeThrow_whl d l).trans ((h.closing l).finish_whl ..))

/-- The end of a running throw's thread. -/
theorem closeThrow_ended {d : Dev} {l : Launch} {t : Thread} (found : d.thread? l.th = some t) (running : t.st = .running) :
    EndedWith (closeThrow d l) l.th l.status l.result := by
  have told := modThread_thread?_same (d := dropLaunch d l) (fun t => { t with
    degraded := !(d.whl.state == .locked || (d.whl.state == .holdover && !d.evt.live evHoldoverLimit)) }) found
  obtain ⟨u, ended, done⟩ := finish_ended (d := closing d l) l.status l.result told (by simp [running])
  exact ⟨u, (congrArg (fun c : Ccp => kfind c.threads l.th) (closeThrow_ccp d l)).trans ended, done⟩

/-- The device with the launches whose instant has come out of the table, and PPS_OUT pulsed where it follows them. -/
def released (d : Dev) : Dev :=
  pulse (d.modWhl (fun w => { w with launches := w.launches.filter (fun l => !decide (l.at_ ≤ w.time)) })) 3 10

theorem pulse_whl (d : Dev) (mode us : Nat) : (pulse d mode us).whl = d.whl :=
  (pulse_only d mode us (l_ := [.out]) rfl (.refl _ _)).same .whl (by decide)

theorem pulse_ccp (d : Dev) (mode us : Nat) : (pulse d mode us).ccp = d.ccp :=
  (pulse_only d mode us (l_ := [.out]) rfl (.refl _ _)).same .ccp (by decide)

theorem pulse_out (d : Dev) (mode us : Nat) (h : d.out = []) : (pulse d mode us).out =
    if d.whl.outMode = mode ∧ (d.whl.state = .locked ∨ d.whl.state = .holdover) then [.ppsOut us] else [] := by
  unfold pulse; split
  · rw [Dev.emit_out, h]; rfl
  · exact h

theorem doLaunchRelease_due {d : Dev} (up : d.phase = .up) (due : d.dueLaunches ≠ []) :
    doLaunchRelease d = each d.dueLaunches closeThrow (released d) := by
  rw [Dev.dueLaunches] at *
  simp [doLaunchRelease, released, up, due]

/-- A launch that is not due has another number than one that is. -/
theorem kept_throwId_ne {l : List Launch} {now : Nat} (distinct : (l.map (·.throwId)).Nodup) {x y : Launch}
    (hx : x ∈ l.filter (fun l => !decide (l.at_ ≤ now))) (hy : y ∈ l.filter (fun l => decide (l.at_ ≤ now))) :
    x.throwId ≠ y.throwId := by
  obtain ⟨inx, later⟩ := List.mem_filter.1 hx
  obtain ⟨iny, due⟩ := List.mem_filter.1 hy
  intro same
  rw [List.inj_on_of_nodup_map distinct inx iny same] at later
  simp_all

/-- The closing of throws leaves every launch of another number. -/
theorem NoFence.closes_launches {d : Dev} (free : NoFence d) {due : List Launch}
    (apart : ∀ l ∈ due, ∀ x ∈ d.whl.launches, x.throwId ≠ l.throwId) :
    (each due Machine.closeThrow d).whl.launches = d.whl.launches := by
  induction due generalizing d with
  | nil => rfl
  | cons l due ih =>
    have kept : (Machine.closeThrow d l).whl.launches = d.whl.launches := by
      rw [free.closeThrow_launches]
      exact List.filter_eq_self.2 fun x hx => by simpa using apart l (.head _) x hx
    exact (ih (free.closeThrow l) (kept ▸ fun k hk => apart k (.tail _ hk))).trans kept

/-- Settles O19: the release takes the launches that are due out of the table, and the closing of each drops it alone. -/
theorem launchRelease : Obligations.LaunchRelease := by
  unfold Obligations.LaunchRelease
  intro s dt e up due
  refine gives_run rfl ?_
  rw [doLaunchRelease_due up due]
  have kept : (released e).whl.launches = e.whl.launches.filter (fun l => !decide (l.at_ ≤ e.whl.time)) :=
    congrArg Whl.launches (pulse_whl ..)
  have only : Only [.start, .evt, .whl, .ccp, .ply, .img] (released e) (each e.dueLaunches closeThrow (released e)) :=
    .each (.refl _ _) fun d l => closeThrow_only d l rfl (.refl _ _)
  have pulsed : Only [.whl, .out] e (released e) :=
    pulse_only _ 3 10 rfl (Dev.modWhl_only e _ (by decide) (.refl _ _))
  refine ⟨fun l left => ?_, fun unfenced distinct => ?_, ?_, ?_, ?_, ?_, fun l t one found running => ?_⟩
  · have stays := (Launched.each Launched.closeThrow).sub.subset left
    rw [kept] at stays
    simpa using stays
  · have free : NoFence (released e) := NoFence.of_threads (a := e) unfenced (pulse_ccp ..)
    exact (free.closes_launches fun l hl x hx => kept_throwId_ne distinct (kept ▸ hx) hl).trans kept
  · exact (only.same .out (by decide)).trans (pulse_out _ 3 10 rfl)
  · exact (only.same .wrp (by decide)).trans (pulsed.same .wrp (by decide))
  · exact (only.same .pra (by decide)).trans (pulsed.same .pra (by decide))
  · exact (only.same .spn (by decide)).trans (pulsed.same .spn (by decide))
  · have here : e.dueLaunches = [l] := by
      rw [Dev.dueLaunches, one]; rw [one] at due
      simpa using due
    have held : (released e).thread? l.th = some t := (congrArg (fun c : Ccp => kfind c.threads l.th) (pulse_ccp ..)).trans found
    obtain ⟨u, ended, done, status, result⟩ := closeThrow_ended held running
    rw [here]
    refine (congrArg (Option.map _) ended).trans ?_
    rw [Option.map_some, done, status, result]; rfl

end Sys2Proof.Machine
end
section
/-! PROOFS. Admission of commands (O31). -/

namespace Sys2Proof.Machine

/-! ## An acknowledgement leaves the threads and the hanks that wait -/

/-- The thread table and the hanks that wait. -/
def Ccp.held (c : Ccp) : KMap Thread × List WaitHank := (c.threads, c.waiting)

theorem invoke_ccp (d : Dev) (s master use : Nat) : (invoke d s master use).2.ccp = d.ccp :=
  (invoke_only d s master use (l_ := [.start, .evt, .dst]) rfl (.refl _ _)).same .ccp (by decide)

theorem ccpSend_held (d : Dev) (i : Nat) (dst : BitVec 128) (port : BitVec 16) (mk : Nat → Output) :
    (ccpSend d i dst port mk).2.ccp.held = d.ccp.held := by
  unfold ccpSend; split
  · rfl
  next x _ =>
    have same := congrArg Ccp.held (invoke_ccp d x.skein masterCcp useEncrypt)
    dsimp only; split
    · exact same
    · exact same

theorem sendAck_held (d : Dev) (i : Nat) (src : BitVec 128) (sport : BitVec 16) (hseq st epoch : Nat) (entries : List (Nat × Nat)) :
    (sendAck d i src sport hseq st epoch entries).ccp.held = d.ccp.held := by
  have sent := ccpSend_held d i src sport (fun seq => .hankAck src sport i seq hseq st epoch entries)
  unfold sendAck; split
  next eq => rw [eq] at sent; exact sent
  next eq => rw [eq] at sent; exact sent

/-! ## The thread a command takes (R202, R203) -/

/-- The thread of command `c`. -/
def newThread (d : Dev) (w : WaitHank) (m : CmdMsg) (c : Cmd) : Thread :=
  let fence := fenceSet d w m
  let held : Bool := match c with | .throw _ _ _ _ => true | _ => false
  { st := if fence.isEmpty then (if held then .running else .ready) else .fenced, msg := m, cmd := c, ident := w.ident,
    hseq := w.hseq, idx := w.next, epoch := d.ccp.epoch, adm := d.ccp.nextAdm, admAt := d.whl.time,
    tmoAt := if held then none else some (d.glb.upNs + (if m.tmo = 0 then fDefaultTmo.get d.pra else m.tmo) * 10000000),
    fence := fence, started := fence.isEmpty && held, src := w.src, sport := w.sport, via := w.via }

/-- The device with the lowest free thread taken by command `c`. -/
def seated (d : Dev) (w : WaitHank) (m : CmdMsg) (c : Cmd) : Dev :=
  threadsWatch (d.modCcp (fun x =>
    { x with threads := kput x.threads (firstFree 0 d.ccp.threads) (newThread d w m c), nextAdm := x.nextAdm + 1,
             hwm := max x.hwm (x.inUse + 1) }))

theorem takeThread_eq (d : Dev) (w : WaitHank) (m : CmdMsg) (c : Cmd) : takeThread d w m c =
    let th := firstFree 0 d.ccp.threads
    (match c with
      | .throw g id l action => holdThrow (seated d w m c) th g id l action
      | .reelActivate bank alone => (seated d w m c).modImg (fun i => { i with act := i.act ++ [(th, bank, alone)] })
      | _ => seated d w m c, th) := by
  cases c <;> rfl

theorem seated_ccp (d : Dev) (w : WaitHank) (m : CmdMsg) (c : Cmd) : (seated d w m c).ccp.held =
    (kput d.ccp.threads (firstFree 0 d.ccp.threads) (newThread d w m c), d.ccp.waiting) :=
  congrArg Ccp.held (threadsWatch_ccp _)

theorem takeThread_held (d : Dev) (w : WaitHank) (m : CmdMsg) (c : Cmd) : (takeThread d w m c).1.ccp.held =
    (kput d.ccp.threads (firstFree 0 d.ccp.threads) (newThread d w m c), d.ccp.waiting) := by
  rw [takeThread_eq, ← seated_ccp]
  dsimp only; split
  next g id l action =>
    exact congrArg Ccp.held
      ((holdThrow_only _ _ g id l action rfl (.refl [.out, .start, .evt, .whl, .sht, .ply, .dst] _)).same .ccp (by decide))
  · rfl
  · rfl

/-- In `b` command `c` of hank `w` has the lowest thread that was free in `a`; every other thread is as it was. -/
def Seated (a b : Dev) (w : WaitHank) (m : CmdMsg) (c : Cmd) : Prop :=
  b.ccp.threads = kput a.ccp.threads (firstFree 0 a.ccp.threads) (newThread a w m c)

theorem Seated.thread {a b : Dev} {w : WaitHank} {m : CmdMsg} {c : Cmd} (h : Seated a b w m c) :
    b.thread? (firstFree 0 a.ccp.threads) = some (newThread a w m c)
    ∧ ∀ k, k ≠ firstFree 0 a.ccp.threads → b.thread? k = a.thread? k := by
  unfold Dev.thread?; rw [h]
  exact ⟨kfind_kput_same .., fun k other => kfind_kput_other _ _ _ _ other.symm⟩

theorem takeThread_pra (d : Dev) (w : WaitHank) (m : CmdMsg) (c : Cmd) : (takeThread d w m c).1.pra = d.pra :=
  (takeThread_only d w m c (l_ := [.out, .start, .evt, .whl, .ccp, .sht, .ply, .dst, .img]) rfl (.refl _ _)).same .pra (by decide)

theorem seated_only (d : Dev) (w : WaitHank) (m : CmdMsg) (c : Cmd) : Only [.evt, .ccp] d (seated d w m c) :=
  threadsWatch_only _ rfl (Dev.modCcp_only d _ (by decide) (.refl _ _))

/-- A throw joins the launch table at its end. -/
theorem takeThread_throw (d : Dev) (w : WaitHank) (m : CmdMsg) (g id l : Nat) (action : List Byte) :
    ∃ x : Launch, (takeThread d w m (.throw g id l action)).1.whl.launches = d.whl.launches ++ [x]
      ∧ (x.at_, x.throwId, x.group, x.action, x.th) = (l, id, g, action, firstFree 0 d.ccp.threads) := by
  have same : (seated d w m (.throw g id l action)).whl = d.whl := (seated_only ..).same .whl (by decide)
  rw [takeThread_eq]; dsimp only [holdThrow]
  rw [(submitRec_only _ _ (l_ := [.out, .start, .evt, .sht, .ply, .dst]) rfl (.refl _ _)).same .whl (by decide), Dev.modWhl_whl, same]
  exact ⟨_, rfl, rfl⟩

theorem takeThread_activate (d : Dev) (w : WaitHank) (m : CmdMsg) (bank : Nat) (alone : Bool) :
    (takeThread d w m (.reelActivate bank alone)).1.img.act = d.img.act ++ [(firstFree 0 d.ccp.threads, bank, alone)]
    ∧ (takeThread d w m (.reelActivate bank alone)).1.whl = d.whl := by
  have only := seated_only d w m (.reelActivate bank alone)
  rw [takeThread_eq]
  exact ⟨by rw [Dev.modImg_img, only.same .img (by decide)], only.same .whl (by decide)⟩

/-! ## Admission (R199) -/

/-- The device with these hanks waiting. -/
def Dev.withWaiting (d : Dev) (l : List WaitHank) : Dev := d.modCcp (fun c => { c with waiting := l })

theorem admitNext_refused {d : Dev} {w : WaitHank} {m : CmdMsg} {st : Status} (h : admission d w.ident m = .inl st) :
    (admitNext d w m).1.ccp.held = d.ccp.held ∧ (admitNext d w m).1.whl = d.whl ∧ (admitNext d w m).1.pra = d.pra := by
  unfold admitNext; rw [h]; dsimp only; split
  · exact ⟨rfl, rfl, rfl⟩
  · exact ⟨rfl, rfl, rfl⟩

theorem admitNext_admitted {d : Dev} {w : WaitHank} {m : CmdMsg} {c : Cmd} (h : admission d w.ident m = .inr c) :
    (admitNext d w m).1 = (takeThread d w m c).1 ∧ (admitNext d w m).2.next = w.next + 1 := by
  unfold admitNext; rw [h]
  exact ⟨rfl, rfl⟩

/-- A hank of one command: it is admitted or refused, and then the hank is acknowledged. -/
theorem doHankAdmit_one {d : Dev} {w : WaitHank} {rest : List WaitHank} {m : CmdMsg} (up : d.phase = .up)
    (waits : d.ccp.waiting = w :: rest) (one : w.cmds = [m]) (first : w.next = 0) :
    (doHankAdmit d).ccp.held = (admitNext (d.withWaiting rest) w m).1.ccp.held
    ∧ Only [.out, .start, .evt, .ccp, .dst] (admitNext (d.withWaiting rest) w m).1 (doHankAdmit d) := by
  have acks : ∃ i src sport hseq entries, doHankAdmit d = sendAck (admitNext (d.withWaiting rest) w m).1 i src sport hseq 0
      (admitNext (d.withWaiting rest) w m).1.ccp.epoch entries :=
    ⟨_, _, _, _, _, by simp [doHankAdmit, admitRest, waits, up, one, first]; rfl⟩
  obtain ⟨i, src, sport, hseq, entries, eq⟩ := acks
  rw [eq]
  exact ⟨sendAck_held .., sendAck_only _ _ _ _ _ _ _ _ rfl (.refl _ _)⟩

theorem admitOne_next {d : Dev} {w : WaitHank} {rest : List WaitHank} {m : CmdMsg} {op : Nat} (up : d.phase = .up)
    (waits : d.ccp.waiting = w :: rest) (next : w.cmds[w.next]? = some m) (mine : m.opcode = op) :
    admitOne op d = (admitNext d w m).1.withWaiting ((admitNext d w m).2 :: rest) := by
  simp [admitOne, waits, up, next, mine, Dev.withWaiting]

/-- Settles O31: the acknowledgement leaves the threads (`sendAck_held`), and a thread taken is one write of their table. -/
theorem hankAdmission : Obligations.HankAdmission := by
  unfold Obligations.HankAdmission
  intro s dt w rest m e up waits th taken
  have seats {d : Dev} {c : Cmd} (h : Seated e d w m c) : taken d c := by
    obtain ⟨own, others⟩ := h.thread
    exact ⟨by rw [own]; rfl, others⟩
  refine ⟨fun one first => ?_, fun g id l action next mine admitted => gives_run rfl ?_,
    fun bank alone next mine admitted => gives_run rfl ?_⟩
  · obtain ⟨held, only⟩ := doHankAdmit_one up waits one first
    refine ⟨fun st refused => gives_run rfl ?_, fun c admitted => gives_run rfl ?_⟩
    · obtain ⟨same, whl, pra⟩ := admitNext_refused (d := e.withWaiting rest) refused
      have table := held.trans same
      exact ⟨congrArg Prod.fst table, congrArg Prod.snd table, (only.same .whl (by decide)).trans whl,
        (only.same .pra (by decide)).trans pra⟩
    · have takes := (admitNext_admitted (d := e.withWaiting rest) admitted).1
      have table := held.trans ((congrArg (·.ccp.held) takes).trans (takeThread_held ..))
      exact ⟨seats (congrArg Prod.fst table), congrArg Prod.snd table,
        (only.same .pra (by decide)).trans ((congrArg (·.pra) takes).trans (takeThread_pra ..))⟩
  · obtain ⟨takes, after⟩ := admitNext_admitted admitted
    obtain ⟨x, launches, fields⟩ := takeThread_throw e w m g id l action
    rw [show doThrowCmd e = _ from admitOne_next up waits next mine, takes]
    refine ⟨seats (congrArg Prod.fst (takeThread_held ..)), ?_, congrArg (· :: rest.map WaitHank.next) after⟩
    refine (congrArg (List.map _) launches).trans ?_
    rw [List.map_append, List.map_singleton, fields]
  · obtain ⟨takes, -⟩ := admitNext_admitted admitted
    obtain ⟨act, whl⟩ := takeThread_activate e w m bank alone
    rw [show doReelActivate e = _ from admitOne_next up waits next mine, takes]
    exact ⟨seats (congrArg Prod.fst (takeThread_held ..)), act, whl⟩

end Sys2Proof.Machine
end
section
/-! PROOFS. Cells of the present slot (O15). -/

namespace Sys2Proof.Machine

/-! ## The transmit cell (R82, R84, R104, R164) -/

/-- The transmit cell of the present slot, as a spindle holds it: its plan, the transmission, and that it has one. -/
def Spn.cell (s : Spn) : Option (CellRef × AirKind) × Option TxRun × Bool := (s.nowPlan, s.tx, s.nowTx)

theorem countLost_cell (d : Dev) (n : Fin 4) (c : Lost) (k : Nat) : ((countLost d n c k).spn.get n).cell = (d.spn.get n).cell := by
  cases c <;> simp [countLost, Dev.modCnt, Spn.cell, Dev.modSpn]

theorem giveUp_cell (d : Dev) (n : Fin 4) (k : AirKind) : ((giveUp d n k).spn.get n).cell = (none, (d.spn.get n).tx, false) := by
  have same : (giveUp d n k).spn = (clearCell d n).spn :=
    (loseRecord_only (clearCell d n) k (l_ := [.ply]) rfl (.refl _ _)).same .spn (by decide)
  rw [same, clearCell, Dev.modSpn, Four.get_set_same]
  rfl

theorem giveUp_whl (d : Dev) (n : Fin 4) (k : AirKind) : (giveUp d n k).whl = d.whl :=
  (giveUp_only d n k (l_ := [.spn, .ply]) rfl (.refl _ _)).same .whl (by decide)

/-! ## Overruns (R84) -/

theorem overrun_drain_whl (d : Dev) (k : Int) :
    (overrun d .drain k).whl = { d.whl with ovrDrain := sat 1023 (d.whl.ovrDrain + 1) } := by simp [overrun]

theorem overrun_sched_whl (d : Dev) (k : Int) :
    (overrun d .sched k).whl = { d.whl with ovrSched := sat 1023 (d.whl.ovrSched + 1) } := by simp [overrun]

theorem overrun_txprep_whl (d : Dev) (k : Int) :
    (overrun d .txprep k).whl = { d.whl with ovrTxprep := sat 1023 (d.whl.ovrTxprep + 1), prepMissed := true } := by simp [overrun]

theorem overrun_spn (d : Dev) (ph : TickPhase) (k : Int) : (overrun d ph k).spn = d.spn :=
  (overrun_only d ph k (l_ := [.start, .evt, .whl]) rfl (.refl _ _)).same .spn (by decide)

theorem overrun_sticky {d : Dev} (ph : TickPhase) (k : Int) (runs : d.phase.fwRuns = true) :
    (overrun d ph k).evt.sticky evTickOverrun = true := report_sticky d evTickOverrun _ runs

/-! ## The latch (R82, R112) -/

/-- Spindle `n` once the drops of its latch have been counted. -/
def latched (d : Dev) (n : Fin 4) : Dev := d.modSpn n (fun s => { s with nowDrops := s.nowDrops.filter (fun x => !x.atLatch) })

theorem latched_get (d : Dev) (n : Fin 4) :
    (latched d n).spn.get n = { d.spn.get n with nowDrops := (d.spn.get n).nowDrops.filter (fun x => !x.atLatch) } :=
  Four.get_set_same ..

section
variable {d : Dev} {n : Fin 4} {c : CellRef} {f : AirKind} (late : latchAt d d.whl.tickK ≤ (d.whl.time : Int))
  (plan : (d.spn.get n).nowPlan = some (c, f)) (sends : d.ply.role.sends = true)
  (empty : (d.spn.get n).nowDrops.filter (·.atLatch) = [])
include late plan sends empty

/-- A frame that is not whole is given up, and its cell counted as skipped; the miss of its phase is reported once. -/
theorem doTransmitLatch_partial : doTransmitLatch n false d =
    countSkipped (giveUp (if (latched d n).whl.prepMissed then latched d n else overrun (latched d n) .txprep d.whl.tickK) n f) 1 := by
  simp only [doTransmitLatch, if_neg (not_lt.2 late), empty, each, List.foldl_nil, plan]
  rw [if_neg (by rw [Dev.modSpn_ply, sends]; decide), if_pos (.inl trivial)]
  rfl

section
variable (run_ : d.glb.power = 3) (idle : (d.spn.get n).tx = none) (room : (d.bob.get (4 + n.val)).full (4 + n.val) = false)
include run_ idle room

/-- A frame whose cell is lost for a cause of R164 is given up, and the cell counted under that cause. -/
theorem doTransmitLatch_lost {l : Lost} (cause : latchCause d (d.spn.get n) = some l) :
    doTransmitLatch n true d = countLost (giveUp (latched d n) n f) n l 1 := by
  simp only [doTransmitLatch, if_neg (not_lt.2 late), empty, each, List.foldl_nil, plan, cause]
  rw [if_neg (by rw [Dev.modSpn_ply, sends]; decide), if_neg (by simp [room]), if_neg (by simp [run_, idle])]
  rfl

/-- A whole frame whose cell nothing blocks is taken over. -/
theorem doTransmitLatch_taken (cause : latchCause d (d.spn.get n) = none) (known : (d.spn.get n).nowUnbound = false)
    (bound : (d.spn.get n).bound c = true) : doTransmitLatch n true d =
      beginTx ((latched d n).modSpn n (fun s => { s with nowPlan := none })) n
        { kind := f, cell := some c, profile := c.profile, chan := c.chan, ts := (d.slotTx d.whl.tickK).toNat, pri := airPri c f,
          df := 0 } := by
  simp only [doTransmitLatch, if_neg (not_lt.2 late), empty, each, List.foldl_nil, plan, cause]
  rw [if_neg (by rw [Dev.modSpn_ply, sends]; decide), if_neg (by simp [room]), if_neg (by simp [run_, idle]),
    if_neg (by simp [known, bound])]
  rfl

end
end

/-! ## Receive cells (R120, R164) -/

theorem Four.set_set {α : Type} (x : Four α) (n : Fin 4) (a b : α) : (x.set n a).set n b = x.set n b := by
  match n with
  | 0 => rfl
  | 1 => rfl
  | 2 => rfl
  | 3 => rfl

theorem Four.set_get {α : Type} (x : Four α) (n : Fin 4) : x.set n (x.get n) = x := by
  match n with
  | 0 => rfl
  | 1 => rfl
  | 2 => rfl
  | 3 => rfl

theorem Dev.modSpn_same (d : Dev) (n : Fin 4) {f : Spn → Spn} (h : f (d.spn.get n) = d.spn.get n) : d.modSpn n f = d := by
  rw [modSpn, h, Four.set_get]

theorem Dev.modSpn_modSpn (d : Dev) (n : Fin 4) (f g : Spn → Spn) : (d.modSpn n f).modSpn n g = d.modSpn n (fun s => g (f s)) := by
  simp only [Dev.modSpn, Four.get_set_same, Four.set_set]

theorem Dev.modSpn_congr (d : Dev) (n : Fin 4) {f g : Spn → Spn} (h : f (d.spn.get n) = g (d.spn.get n)) :
    d.modSpn n f = d.modSpn n g := by
  rw [modSpn, h, modSpn]

theorem Dev.modSpn_get_other (d : Dev) {n m : Fin 4} (f : Spn → Spn) (h : m ≠ n) : (d.modSpn n f).spn.get m = d.spn.get m :=
  Four.get_set_other _ _ _ _ h

section
variable {d : Dev} {n : Fin 4} (started : d.slotTx d.whl.tickK - (d.wrp.sel * 1000 : Nat) ≤ (d.whl.time : Int))
  (empty : (d.spn.get n).nowDrops = [])

include empty in
theorem no_drops_counted : d.modSpn n (fun s => { s with nowDrops := s.nowDrops.filter (·.atLatch) }) = d :=
  d.modSpn_same n (by rw [empty, List.filter_nil, ← empty])

include started empty

/-- Cells of enabled bindings, on a spindle that nothing blocks, are served from here. -/
theorem doReceiveWindowStart_served (cause : lostCause d (d.spn.get n) = none)
    (bound : ((d.spn.get n).nowRx.filter (fun c => c.slot == d.whl.tickK)).all (d.spn.get n).bound = true) :
    doReceiveWindowStart n d = d.modSpn n (fun s => { s with
      nowRx := s.nowRx.filter (fun c => c.slot != d.whl.tickK) ++ s.nowRx.filter (fun c => c.slot == d.whl.tickK) }) := by
  have served : ((d.spn.get n).nowRx.filter (fun c => c.slot == d.whl.tickK)).filter (d.spn.get n).bound
      = (d.spn.get n).nowRx.filter (fun c => c.slot == d.whl.tickK) := List.filter_eq_self.2 (List.all_eq_true.1 bound)
  have unbound : ((d.spn.get n).nowRx.filter (fun c => c.slot == d.whl.tickK)).filter (fun c => !(d.spn.get n).bound c) = [] :=
    List.filter_eq_nil_iff.2 fun c hc => by simp [List.all_eq_true.1 bound c hc]
  simp only [doReceiveWindowStart, if_neg (not_lt.2 started), no_drops_counted empty, empty, cause, unbound, each, List.filter_nil,
    List.foldl_nil]
  exact d.modSpn_congr n (by rw [served])

/-- In a hold they are counted as lost to it. -/
theorem doReceiveWindowStart_hold (cause : lostCause d (d.spn.get n) = some .hold) :
    ∃ held, doReceiveWindowStart n d = d.modSpn n (fun s => { s with
      heldRx := held, nowRx := s.nowRx.filter (fun c => c.slot != d.whl.tickK),
      lostHold := add32 s.lostHold (s.nowRx.filter (fun c => c.slot == d.whl.tickK)).length }) := by
  simp only [doReceiveWindowStart, if_neg (not_lt.2 started), no_drops_counted empty, empty, cause, countLost, each, List.filter_nil,
    List.foldl_nil, Dev.modSpn_modSpn]
  exact ⟨_, d.modSpn_congr n rfl⟩

end

/-- Settles O15: the latch takes the frame over or gives it up (`giveUp_cell`), and counting the loss leaves the cell as it is
(`countLost_cell`). -/
theorem cellsOfTheSlot : Obligations.CellsOfTheSlot := by
  unfold Obligations.CellsOfTheSlot
  intro s dt n e x mine others
  refine ⟨fun c f late plan sends drops => ⟨fun run_ idle room => ⟨fun cause known bound => gives_run rfl ?_,
    fun l cause => gives_run rfl ?_⟩, gives_run rfl ?_⟩, fun opens drops => ⟨fun cause bound => gives_run rfl ?_,
    fun cause => gives_run rfl ?_⟩⟩
  · rw [doTransmitLatch_taken late plan sends drops run_ idle room cause known bound]
    simp [beginTx, Dev.modSpn]
  · rw [doTransmitLatch_lost late plan sends drops run_ idle room cause]
    have cell := (countLost_cell _ n l 1).trans (giveUp_cell (latched e n) n f)
    rw [latched_get] at cell
    obtain ⟨plan_, tx, now⟩ : _ ∧ _ ∧ _ := by simpa [Spn.cell] using cell
    exact ⟨plan_, tx.trans idle, now⟩
  · rw [doTransmitLatch_partial late plan sends drops]
    generalize hb : (if (latched e n).whl.prepMissed then latched e n else overrun (latched e n) .txprep e.whl.tickK) = b
    have spn : b.spn = (latched e n).spn := by
      rw [← hb]; split
      · rfl
      · exact overrun_spn ..
    have skipped : b.whl.skipped = e.whl.skipped := by
      rw [← hb]; split
      · rfl
      · rw [overrun_txprep_whl]; rfl
    have cell := giveUp_cell b n f
    rw [spn, latched_get] at cell
    obtain ⟨plan_, tx, now⟩ : _ ∧ _ ∧ _ := by simpa [Spn.cell] using cell
    refine ⟨plan_, tx, now, ?_⟩
    rw [countSkipped, Dev.modWhl_whl, giveUp_whl, skipped]
  · rw [doReceiveWindowStart_served opens drops cause bound]
    rfl
  · obtain ⟨held, eq⟩ := doReceiveWindowStart_hold opens drops cause
    rw [eq]
    refine ⟨?_, ?_, fun m other => e.modSpn_get_other _ other⟩
    · rw [Dev.modSpn, Four.get_set_same]
    · rw [Dev.modSpn, Four.get_set_same]

end Sys2Proof.Machine
end
section
/-! PROOFS. The tick strobe (O14). Once the tick is numbered, a strobe changes of the whorl only its launch table and the count of
skipped cells. -/

namespace Sys2Proof.Machine

/-! ## What a spindle's strobe leaves of the whorl -/

theorem Launched.takeOos (d : Dev) (n : Fin 4) : Launched d (Machine.takeOos d n) := by
  unfold Machine.takeOos; split
  · exact .refl d
  next o th _ =>
    cases o with
    | none => exact .of_whl rfl
    | test =>
      refine .of_whl (report_whl .. |>.trans ?_)
      exact (truncateAll_only _ n (l_ := [.start, .evt, .spn, .bob]) rfl (.refl _ _)).same .whl (by decide)
    | bypass =>
      refine .trans (.of_whl ?_) (.finish ..)
      exact ((actTarget_only _ n (l_ := [.free, .start, .evt, .spn, .wrp, .ply, .bob]) rfl (.refl _ _)).same .whl (by decide)).trans
        (report_whl ..)

theorem Launched.holdOn (d : Dev) (n : Fin 4) (th dur : Nat) : Launched d (Machine.holdOn d n th dur) := by
  refine .trans (.of_whl (report_whl .. |>.trans ?_)) (.finish ..)
  exact (truncateAll_only d n (l_ := [.start, .evt, .spn, .bob]) rfl (.refl _ _)).same .whl (by decide)

/-- A change of one spindle leaves the whorl. -/
theorem Launched.modSpn (d : Dev) (n : Fin 4) (f : Spn → Spn) : Launched d (d.modSpn n f) := .of_whl rfl

theorem Launched.endOfCell (d : Dev) (n : Fin 4) : Launched d (Machine.endOfCell d n) := by
  have target : Launched d (actTarget d n) :=
    .of_only (actTarget_only d n (l_ := [.free, .start, .evt, .spn, .wrp, .ply, .bob]) rfl (.refl _ _)) (by decide)
  have acted := (target.trans (.modSpn _ n fun s => (s.takeWindow n).takeBinds n (actTarget d n).whl.time)).trans (.takeOos _ n)
  unfold Machine.endOfCell; dsimp only; split
  · exact acted.trans (.holdOn ..)
  · exact acted

theorem Launched.trimTick (d : Dev) (n : Fin 4) : Launched d (Machine.trimTick d n) :=
  .of_only (trimTick_only d n (l_ := [.start, .evt, .spn]) rfl (.refl _ _)) (by decide)

theorem Launched.calTempTick (d : Dev) (n : Fin 4) : Launched d (Machine.calTempTick d n) :=
  .of_only (calTempTick_only d n (l_ := [.start, .evt, .spn]) rfl (.refl _ _)) (by decide)

theorem Launched.spindleTick (d : Dev) (k : Int) (stepped : Bool) (n : Fin 4) : Launched d (Machine.spindleTick d k stepped n) := by
  have crossed : Launched d (crossStore d n (some k) 0 (d.spn.get n).store.length) := .of_whl rfl
  exact (crossed.trans (.endOfCell _ n)).trans ((Launched.modSpn _ n _).trans ((Launched.calTempTick _ n).trans (.trimTick _ n)))

/-! ## The strobe after the tick's number -/

/-- What the numbering of a tick sets, with device time and the step in hand. -/
def Whl.ticked (w : Whl) : (Nat × Option Nat × Option Int) × Int × Nat × Bool × Bool :=
  ((w.time, w.radio, w.step), w.tickK, w.tickAt, w.drained, w.scheduled)

/-- The strobe once the tick is numbered. -/
def slotBegins (served : Four Bool) (stepped beacon : Bool) (d : Dev) : Dev :=
  let k := d.whl.tickK
  let d := each spindles (fun d n => spindleTick d k stepped n) d
  let d := blankTick d served
  let d := if stepped ∧ d.glb.power = 3 then
      countSkipped (d.modWhl (fun w => { w with txMissed := true })) (transmitCells d d.wrp.cells (k + 1)) else d
  let d := if d.phase = .up then plyTick d k else d
  let d := faultTick d k
  let d := if beacon ∧ d.phase.fwRuns then d.modPly (fun p => { p with beaconAt := d.glb.upNs }) else d
  each [Port.bh0, .bh1, .plk] gateDue (pulse d 2 10)

theorem strobe_eq (tcxo : Int) (beacon : Bool) (d : Dev) : strobe tcxo beacon d =
    slotBegins (d.spn.mapIdx (fun _ s => s.servesNow)) (stepTick d).2 beacon (numberTick (whorlTick (stepTick d).1 tcxo)) := by
  unfold strobe slotBegins
  rcases stepTick d with ⟨moved, stepped⟩
  dsimp only

theorem plyStrobe_whl (k : Int) (d : Dev) : (faultTick (if d.phase = .up then plyTick d k else d) k).whl = d.whl :=
  (faultTick_only _ k (l_ := [.out, .start, .evt, .wrp, .sht, .ply, .dst]) rfl
    (.ite (plyTick_only d k rfl (.refl _ _)) (.refl _ _))).same .whl (by decide)

theorem gates_whl (d : Dev) : (each [Port.bh0, .bh1, .plk] gateDue (pulse d 2 10)).whl = d.whl :=
  (Only.each (l := [.out, .start, .evt, .que]) (pulse_only d 2 10 rfl (.refl _ _)) fun a p => gateDue_only a p rfl (.refl _ _)).same
    .whl (by decide)

theorem slotBegins_ticked (served : Four Bool) (stepped beacon : Bool) (d : Dev) :
    (slotBegins served stepped beacon d).whl.ticked = d.whl.ticked := by
  have spindle : Launched d (blankTick (each spindles (fun a n => spindleTick a d.whl.tickK stepped n) d) served) :=
    .trans (.each fun _ _ => .spindleTick ..)
      (.of_only (blankTick_only _ served (l_ := [.free, .start, .evt, .spn, .wrp, .ply, .bob]) rfl (.refl _ _)) (by decide))
  have counted {a : Dev} {p : Prop} [Decidable p] (t : Nat) :
      (if p then countSkipped (a.modWhl (fun w => { w with txMissed := true })) t else a).whl.ticked = a.whl.ticked := by
    split <;> rfl
  have noted {a : Dev} {p : Prop} [Decidable p] (f : Ply → Ply) : (if p then a.modPly f else a).whl = a.whl := by split <;> rfl
  calc (slotBegins served stepped beacon d).whl.ticked = _ := congrArg Whl.ticked (gates_whl _)
    _ = _ := congrArg Whl.ticked (noted _)
    _ = _ := congrArg Whl.ticked (plyStrobe_whl ..)
    _ = _ := counted _
    _ = d.whl.ticked := spindle.reads Whl.ticked

/-! ## The strobe (R64, R77, R79, R82) -/

/-- The strobe's work on the whorl reloads the radio copy, and leaves what numbers the tick. -/
theorem whorlTick_whl (d : Dev) (tcxo : Int) : (whorlTick d tcxo).whl.time = d.whl.time
    ∧ (whorlTick d tcxo).whl.radio = some d.whl.time ∧ (whorlTick d tcxo).whl.step = d.whl.step
    ∧ (whorlTick d tcxo).whl.slot = d.whl.slot := by
  unfold whorlTick holdWatch; dsimp only
  rw [watchIf_whl]
  split_ifs <;> exact ⟨rfl, rfl, rfl, rfl⟩

/-- The tick is numbered by the slot that contains device time as a step has left it. -/
theorem strobe_ticked (tcxo : Int) (beacon : Bool) (d : Dev) : (strobe tcxo beacon d).whl.ticked =
    let w := (stepTick d).1.whl
    ((w.time, some w.time, w.step), w.slot, w.time, !d.phase.fwRuns, !d.phase.fwRuns) := by
  obtain ⟨time, radio, step, slot⟩ := whorlTick_whl (stepTick d).1 tcxo
  have phase : (whorlTick (stepTick d).1 tcxo).phase = d.phase :=
    (whorlTick_only _ tcxo (l_ := [.start, .evt, .whl, .spn, .wrp, .que, .crd, .ply]) rfl (stepTick_only d rfl (.refl _ _))).same
      .phase (by decide)
  rw [strobe_eq, slotBegins_ticked]
  simp only [numberTick, Whl.ticked, Dev.modWhl_whl, time, radio, step, slot, phase]

theorem strobe_pra (tcxo : Int) (beacon : Bool) (d : Dev) : (strobe tcxo beacon d).pra = d.pra :=
  (strobe_only tcxo beacon d (l_ := [.free, .out, .start, .evt, .whl, .spn, .wrp, .ccp, .sht, .que, .crd, .ply, .dst, .img, .bob])
    rfl (.refl _ _)).same .pra (by decide)

/-- With no step due, no step is made. -/
theorem stepTick_none {d : Dev} (idle : d.whl.step = none) (pend : d.whl.stepPend = false) : (stepTick d).1.whl = d.whl := by
  have same : (d.modWhl (fun w => { w with stepPend := false })).whl = d.whl := by
    show { d.whl with stepPend := false } = d.whl
    rw [← pend]
  by_cases held : d.whl.launches.isEmpty
  · simpa only [stepTick, dueStep, held, idle, pend, Bool.false_eq_true, false_and, if_true, if_false] using same
  · simp [stepTick, dueStep, held, idle]

/-- With no launch held, the step that is due is made. -/
theorem stepTick_some {d : Dev} {off : Int} (due : d.whl.step = some off) (held : d.whl.launches = []) :
    (stepTick d).1.whl = (applyStep (d.modWhl (fun w => { w with stepPend := false })) off).whl := by
  simp [stepTick, dueStep, held, due]

/-- The strobe comes at slot_pos 0, once. -/
theorem doTickStrobe_due {d : Dev} (tcxo : Int) (beacon : Bool) (runs : d.phase.ctrlRuns = true)
    (begins : d.whl.slotPosAt d.whl.time = 0) (once : d.whl.radio = none ∨ d.whl.tickAt ≠ d.whl.time) :
    doTickStrobe tcxo beacon d = if d.glb.faultReset then controlReset d 6 else strobe tcxo beacon d := by
  have first : ¬ (d.phase.ctrlRuns = false ∨ d.whl.slotPosAt d.whl.time ≠ 0
      ∨ (d.whl.radio.isSome ∧ d.whl.tickAt = d.whl.time)) := by
    rcases once with unset | other
    · simp [runs, begins, unset]
    · simp [runs, begins, other]
  exact if_neg first

end Sys2Proof.Machine
end
section
/-! PROOFS. The phases of a tick (O14). No computation of a schedule touches the number of the tick or the cells of the slotframes. -/

namespace Sys2Proof.Machine

/-! ## The grid: the tick in hand, and the cells -/

/-- The number of the tick, and the cells. -/
def Dev.grid (d : Dev) : Int × Four (KMap (Word × Word)) := (d.whl.tickK, d.wrp.cells)

theorem Only.grid {l : List Part} {a b : Dev} (h : Only l a b)
    (whl : Part.whl ∉ l := by decide) (wrp : Part.wrp ∉ l := by decide) : b.grid = a.grid := by
  have time : b.whl = a.whl := h.same .whl whl
  have warp : b.wrp = a.wrp := h.same .wrp wrp
  rw [Dev.grid, time, warp, Dev.grid]

@[simp] theorem modPly_grid (d : Dev) (f : Ply → Ply) : (d.modPly f).grid = d.grid := rfl
@[simp] theorem modNode_grid (d : Dev) (i : Nat) (f : Node → Node) : (d.modNode i f).grid = d.grid := rfl
@[simp] theorem modCnt_grid (d : Dev) (n : Fin 4) (f : WrpCnt → WrpCnt) : (d.modCnt n f).grid = d.grid := rfl
@[simp] theorem modThread_grid (d : Dev) (th : Nat) (f : Thread → Thread) : (d.modThread th f).grid = d.grid := rfl
@[simp] theorem modSpn_grid (d : Dev) (n : Fin 4) (f : Spn → Spn) : (d.modSpn n f).grid = d.grid := rfl

@[simp] theorem report_grid (d : Dev) (e : Nat) (l : List Byte) : (report d e l).grid = d.grid :=
  (report_only d e l (l_ := [.start, .evt]) rfl (.refl _ _)).grid

@[simp] theorem finish_grid (d : Dev) (th : Nat) (st : Status) (res : List Byte) : (finish d th st res).grid = d.grid := by
  have warp : (finish d th st res).wrp = d.wrp := (ThreadsOnly.finish d th st res).1.same .wrp (by decide)
  rw [Dev.grid, warp, (Launched.finish d th st res).reads Whl.tickK, Dev.grid]

@[simp] theorem plySend_grid (d : Dev) (o : Output) : (plySend d o).grid = d.grid :=
  (plySend_only d o (l_ := [.out, .start, .evt, .sht, .ply, .dst]) rfl (.refl _ _)).grid

@[simp] theorem loseRecord_grid (d : Dev) (k : AirKind) : (loseRecord d k).grid = d.grid :=
  (loseRecord_only d k (l_ := [.ply]) rfl (.refl _ _)).grid

/-! ## Settlement (R278) -/

@[simp] theorem relayDelivered_grid (d : Dev) (r : DownRec) (st : Status) : (relayDelivered d r st).grid = d.grid := by
  unfold relayDelivered; split
  · exact each_keeps Dev.grid fun e x => (loomSend_only e _ _ (l_ := [.out, .start, .evt, .ply, .dst]) rfl (.refl _ _)).grid
  · rfl

@[simp] theorem threadDelivered_grid (r : DownRec) (d : Dev) (th : Nat) : (threadDelivered r d th).grid = d.grid := by
  unfold threadDelivered; split
  · rfl
  · split
    · split <;> simp
    · dsimp only; split <;> simp
    · rfl

@[simp] theorem recDelivered_grid (d : Dev) (r : DownRec) : (recDelivered d r).grid = d.grid := by
  rw [recDelivered, relayDelivered_grid]
  exact each_keeps Dev.grid fun e th => threadDelivered_grid r e th

@[simp] theorem recFailed_grid (d : Dev) (r : DownRec) : (recFailed d r).grid = d.grid := by
  rw [recFailed, relayDelivered_grid]
  exact each_keeps Dev.grid fun e th => finish_grid e th _ _

@[simp] theorem oweCounters_grid (d : Dev) (dest : Option Nat) : (oweCounters d dest).grid = d.grid := by cases dest <;> rfl

@[simp] theorem unsync_grid (d : Dev) (dest : Option Nat) : (unsync d dest).grid = d.grid := by
  cases dest with
  | none => simp only [unsync, apply_ite Dev.grid, report_grid, modPly_grid, ite_self]
  | some i => simp only [unsync, apply_ite Dev.grid, report_grid, modNode_grid, ite_self]

@[simp] theorem shFail_grid (d : Dev) (dest : Option Nat) : (shFail d dest).grid = d.grid := rfl

@[simp] theorem shReset_grid (d : Dev) (dest : Option Nat) (shared : Bool) : (shReset d dest shared).grid = d.grid := by
  unfold shReset; split <;> rfl

theorem settleOne_grid (d : Dev) (a : Await) : (settleOne d a).grid = d.grid := by
  unfold settleOne
  simp only [apply_ite Dev.grid, recDelivered_grid, shReset_grid, unsync_grid, recFailed_grid, modPly_grid, shFail_grid,
    oweCounters_grid, ite_self]

theorem settleAll_grid (d : Dev) (start : Nat) : (settleAll d start).grid = d.grid := by
  rw [settleAll]
  exact each_keeps Dev.grid settleOne_grid

/-! ## Drops and placement (R163, R166, R277) -/

@[simp] theorem advance_grid (d : Dev) (dest : Option Nat) : (advance d dest).grid = d.grid := by cases dest <;> rfl

@[simp] theorem countCopy_grid (d : Dev) (n : Fin 4) (k : Int) (r : DownRec) : (countCopy d n k r).grid = d.grid := by
  unfold countCopy; split <;> rfl

theorem dropBcast_grid (k : Int) (d : Dev) (n : Fin 4) : (dropBcast k d n).grid = d.grid := by
  rw [dropBcast]
  exact each_keeps Dev.grid fun e r => by simp

theorem dropNoFit_grid (d : Dev) (k : Int) : (dropNoFit d k).grid = d.grid := by
  rw [dropNoFit]
  exact (each_keeps Dev.grid (dropBcast_grid k)).trans (each_keeps Dev.grid fun e r => by split <;> simp)

theorem passShared_grid (d : Dev) (n : Fin 4) (k : Int) : (passShared d n k).grid = d.grid := by
  rw [passShared]
  exact each_keeps Dev.grid fun _ _ => rfl

theorem placeRec_grid (d : Dev) (n : Fin 4) (k : Int) (c : CellRef) (r : DownRec) : (placeRec d n k c r).1.grid = d.grid := by
  have keyed : (recKey d r).2.grid = d.grid := (recKey_only d r (l_ := [.free, .start, .evt, .dst]) rfl (.refl _ _)).grid
  have counted : (countCopy (advance (recKey d r).2 r.dest) n k r).grid = d.grid := by simp [keyed]
  unfold placeRec; dsimp only; rw [modPly_grid]
  split
  · exact counted
  · exact counted

theorem placePlan_grid (d : Dev) (n : Fin 4) (k : Int) (pl : Plan) : (placePlan d n k pl).1.grid = d.grid := by
  unfold placePlan; split
  · exact placeRec_grid ..
  · rfl
  · exact placeRec_grid ..
  · rfl

/-- The device once the plan of spindle `n` has placed its frame. -/
def planPlaced (d : Dev) (n : Fin 4) (k : Int) (skip : Bool) : Dev :=
  let (e, tx) := placePlan d n k (planSpindle d n k)
  let e := if e.ply.role.places then passShared e n k else e
  match tx with
  | some (_, f) => if skip then loseRecord e f else e
  | none => e

theorem planPlaced_grid (d : Dev) (n : Fin 4) (k : Int) (skip : Bool) : (planPlaced d n k skip).grid = d.grid := by
  have passed (e : Dev) : (if e.ply.role.places then passShared e n k else e).grid = e.grid := by
    split
    · exact passShared_grid ..
    · rfl
  have placed := placePlan_grid d n k (planSpindle d n k)
  unfold planPlaced; dsimp only; split
  · split
    · exact (loseRecord_grid ..).trans ((passed _).trans placed)
    · exact (passed _).trans placed
  · exact (passed _).trans placed

theorem planPlaced_spn (d : Dev) (n : Fin 4) (k : Int) (skip : Bool) : (planPlaced d n k skip).spn = d.spn := by
  have passed : Only [.free, .start, .evt, .whl, .wrp, .ply, .dst] d
      (if (placePlan d n k (planSpindle d n k)).1.ply.role.places then passShared (placePlan d n k (planSpindle d n k)).1 n k
        else (placePlan d n k (planSpindle d n k)).1) :=
    have placed := placePlan_only d n k (planSpindle d n k) rfl (.refl _ _)
    .ite (passShared_only _ n k rfl placed) placed
  unfold planPlaced; dsimp only; split
  · exact (Only.ite (loseRecord_only _ _ rfl passed) passed).same .spn (by decide)
  · exact passed.same .spn (by decide)

/-- What a schedule leaves on its spindle; its slot is planned where it is not the present one. -/
theorem applyPlan_eq (d : Dev) (n : Fin 4) (k : Int) (skip : Bool) : ∃ f : Spn → Spn,
    applyPlan d n k skip = (planPlaced d n k skip).modSpn n f
      ∧ ∀ x, (f x).planSlot = if k = (planPlaced d n k skip).whl.tickK then -1 else k := by
  unfold applyPlan planPlaced
  dsimp only
  refine ⟨_, rfl, fun x => ?_⟩
  exact apply_ite Spn.planSlot _ _ _

theorem applyPlan_grid (d : Dev) (n : Fin 4) (k : Int) (skip : Bool) : (applyPlan d n k skip).grid = d.grid := by
  obtain ⟨f, eq, -⟩ := applyPlan_eq d n k skip
  rw [eq, modSpn_grid, planPlaced_grid]

/-- A schedule of a slot ahead plans its own spindle for that slot, and no other spindle. -/
theorem applyPlan_planSlot {d : Dev} {k : Int} (ahead : k ≠ d.whl.tickK) (n m : Fin 4) (skip : Bool) :
    ((applyPlan d n k skip).spn.get m).planSlot = if m = n then k else (d.spn.get m).planSlot := by
  obtain ⟨f, eq, plans⟩ := applyPlan_eq d n k skip
  have tick : (planPlaced d n k skip).whl.tickK = d.whl.tickK := congrArg Prod.fst (planPlaced_grid d n k skip)
  rw [eq, Dev.modSpn_spn, planPlaced_spn]
  split
  next same => rw [same, Four.get_set_same, plans, tick, if_neg ahead]
  next other => rw [Four.get_set_other _ _ _ _ other]

/-- Once their schedules are computed, the spindles named are planned for the slot. -/
theorem plans_planSlot {k : Int} {skip : Bool} {l : List (Fin 4)} {d : Dev} (ahead : k ≠ d.whl.tickK) {m : Fin 4}
    (known : m ∈ l ∨ (d.spn.get m).planSlot = k) : ((each l (fun e n => applyPlan e n k skip) d).spn.get m).planSlot = k := by
  induction l generalizing d with
  | nil => exact known.resolve_left (List.not_mem_nil)
  | cons n l ih =>
    have tick : (applyPlan d n k skip).whl.tickK = d.whl.tickK := congrArg Prod.fst (applyPlan_grid d n k skip)
    refine ih (d := applyPlan d n k skip) (by rwa [tick]) ?_
    rw [applyPlan_planSlot ahead]
    by_cases here : m = n
    · exact .inr (if_pos here)
    · rw [if_neg here]
      exact known.imp_left fun named => (List.mem_cons.1 named).resolve_left here

theorem mem_spindles (n : Fin 4) : n ∈ spindles := by revert n; decide

theorem tellCounters_grid (d : Dev) : (tellCounters d).grid = d.grid := by
  unfold tellCounters; split
  · rfl
  · refine each_keeps Dev.grid fun e dest => ?_
    cases dest with
    | none => simp
    | some i => dsimp only; split <;> simp

/-- The device as the plans of the spindles begin (R163): records settled, and dropped where they fit nowhere. -/
def settledFor (d : Dev) (k : Int) (start : Nat) : Dev :=
  let d := settleAll d start
  let d := if d.ply.role.places then dropNoFit d k else d
  d.modPly (fun p => { p with placed := [], pdigest := 0 })

theorem settledFor_grid (d : Dev) (k : Int) (start : Nat) : (settledFor d k start).grid = d.grid := by
  unfold settledFor; dsimp only; rw [modPly_grid]; split
  · exact (dropNoFit_grid ..).trans (settleAll_grid ..)
  · exact settleAll_grid ..

/-- The device as the plans of all spindles stand. -/
def plannedFor (d : Dev) (k : Int) (skip : Bool) (start : Nat) : Dev :=
  each spindles (fun d n => applyPlan d n k skip) (settledFor d k start)

theorem plannedFor_grid (d : Dev) (k : Int) (skip : Bool) (start : Nat) : (plannedFor d k skip start).grid = d.grid :=
  (each_keeps Dev.grid fun e n => applyPlan_grid e n k skip).trans (settledFor_grid ..)

/-- A schedule is the plans of the spindles; the cancels that owe no copy then go, and the counters are told. -/
theorem schedule_eq (d : Dev) (k : Int) (skip : Bool) (start : Nat) : schedule d k skip start =
    tellCounters ((plannedFor d k skip start).modWhl
      (fun w => { w with cancels := w.cancels.filter (cancelOwed (plannedFor d k skip start) k) })) := rfl

theorem schedule_grid (d : Dev) (k : Int) (skip : Bool) (start : Nat) : (schedule d k skip start).grid = d.grid := by
  rw [schedule_eq, tellCounters_grid]
  exact plannedFor_grid d k skip start

theorem schedule_planSlot {d : Dev} {k : Int} (ahead : k ≠ d.whl.tickK) (skip : Bool) (start : Nat) (n : Fin 4) :
    ((schedule d k skip start).spn.get n).planSlot = k := by
  have told (e : Dev) : (tellCounters e).spn = e.spn :=
    (tellCounters_only e (l_ := [.out, .start, .evt, .wrp, .sht, .ply, .dst]) rfl (.refl _ _)).same .spn (by decide)
  have tick : (settledFor d k start).whl.tickK = d.whl.tickK := congrArg Prod.fst (settledFor_grid d k start)
  rw [schedule_eq, told]
  exact plans_planSlot (by rwa [tick]) (.inl (mem_spindles n))

theorem schedule_pra (d : Dev) (k : Int) (skip : Bool) (start : Nat) : (schedule d k skip start).pra = d.pra :=
  (schedule_only d k skip start (l_ := [.free, .out, .start, .evt, .whl, .spn, .wrp, .ccp, .sht, .ply, .dst, .img]) rfl
    (.refl _ _)).same .pra (by decide)

theorem doScheduleComputation_now {d : Dev} (runs : d.phase.fwRuns = true) (alone : d.whl.before = [])
    (drained : d.whl.drained = true) (open_ : d.whl.scheduled = false) : doScheduleComputation d =
    (schedule d (d.whl.tickK + 1) d.whl.txMissed d.whl.drainedAt).modWhl (fun w => { w with scheduled := true }) := by
  simp only [doScheduleComputation, runs, alone, drained, open_, Bool.true_eq_false, and_self, if_true, if_false]

/-! ## Deadlines (R84) -/

theorem skipSlot_whl (d : Dev) (b : TickWork) : ∃ n, (skipSlot d b).whl = { d.whl with skipped := n } := by
  unfold skipSlot; split
  · exact ⟨d.whl.skipped, rfl⟩
  · exact ⟨_, rfl⟩

theorem skipSlot_evt (d : Dev) (b : TickWork) : (skipSlot d b).evt = d.evt := by
  unfold skipSlot; split <;> rfl

/-- With no earlier tick's phases late, a miss is one of the present tick's phases. -/
theorem missPhase_now {d : Dev} {drain : Bool} (others : ¬ ∃ b ∈ d.whl.before, b.late drain d.whl.time = true)
    (late : d.work.late drain d.whl.time = true) : missPhase d drain =
    (skipSlot (overrun d (if drain then .drain else .sched) (d.work.tick + 1)) d.work).modWhl (fun w =>
      { w with drainMissed := (d.work.miss drain).drainMissed, schedMissed := (d.work.miss drain).schedMissed,
               txMissed := (d.work.miss drain).txMissed }) := by
  have none : d.whl.before.find? (fun b => b.late drain d.whl.time) = none :=
    List.find?_eq_none.2 fun b mem found => others ⟨b, mem, found⟩
  simp only [missPhase, none, late, if_true]

theorem missPhase_sticky {d : Dev} {drain : Bool} (runs : d.phase.fwRuns = true)
    (others : ¬ ∃ b ∈ d.whl.before, b.late drain d.whl.time = true) (late : d.work.late drain d.whl.time = true) :
    (missPhase d drain).evt.sticky evTickOverrun = true := by
  rw [missPhase_now others late, Dev.modWhl_evt, skipSlot_evt]
  exact overrun_sticky _ _ runs

/-! ## The tick strobe and the phases -/

/-- A late drain is reported and counted, once, and the slot's transmit cells are skipped. -/
theorem missPhase_drain {d : Dev} (others : ¬ ∃ b ∈ d.whl.before, b.late true d.whl.time = true)
    (late : d.work.late true d.whl.time = true) : (missPhase d true).whl.ovrDrain = sat 1023 (d.whl.ovrDrain + 1)
      ∧ (missPhase d true).whl.drainMissed = true ∧ (missPhase d true).whl.txMissed = true := by
  obtain ⟨n, skipped⟩ := skipSlot_whl (overrun d .drain (d.work.tick + 1)) d.work
  rw [overrun_drain_whl] at skipped
  rw [missPhase_now others late, Dev.modWhl_whl, if_pos rfl, skipped]
  exact ⟨rfl, Bool.or_true _, rfl⟩

/-- The same of a late schedule computation. -/
theorem missPhase_sched {d : Dev} (others : ¬ ∃ b ∈ d.whl.before, b.late false d.whl.time = true)
    (late : d.work.late false d.whl.time = true) : (missPhase d false).whl.ovrSched = sat 1023 (d.whl.ovrSched + 1)
      ∧ (missPhase d false).whl.schedMissed = true ∧ (missPhase d false).whl.txMissed = true := by
  obtain ⟨n, skipped⟩ := skipSlot_whl (overrun d .sched (d.work.tick + 1)) d.work
  rw [overrun_sched_whl] at skipped
  rw [missPhase_now others late, Dev.modWhl_whl, if_neg Bool.false_ne_true, skipped]
  exact ⟨rfl, Bool.or_true _, rfl⟩

theorem doPhaseDeadlineMiss_txprep {d : Dev} {n : Fin 4} (runs : d.phase.fwRuns = true) (planned : (d.spn.get n).nowPlan.isSome = true)
    (once : d.whl.prepMissed = false) (late : latchAt d d.whl.tickK ≤ (d.whl.time : Int)) :
    doPhaseDeadlineMiss .txprep d = overrun d .txprep d.whl.tickK := by
  have some : spindles.any (fun m => (d.spn.get m).nowPlan.isSome) = true := List.any_eq_true.2 ⟨n, mem_spindles n, planned⟩
  simp only [doPhaseDeadlineMiss, runs, once, late, some, Bool.true_eq_false, and_self, if_true, if_false]

theorem doPhaseDeadlineMiss_drain {d : Dev} (runs : d.phase.fwRuns = true) : doPhaseDeadlineMiss .drain d = missPhase d true := by
  simp only [doPhaseDeadlineMiss, runs, Bool.true_eq_false, if_false]

theorem doPhaseDeadlineMiss_sched {d : Dev} (runs : d.phase.fwRuns = true) : doPhaseDeadlineMiss .sched d = missPhase d false := by
  simp only [doPhaseDeadlineMiss, runs, Bool.true_eq_false, if_false]

/-- With no earlier tick's drain open and no frame due, the drain ends. -/
theorem doDrainComplete_now {d : Dev} (runs : d.phase.fwRuns = true) (open_ : d.whl.drained = false)
    (others : ∀ b ∈ d.whl.before, b.drained = true) (due : framesDue d = []) : doDrainComplete d =
    { d with whl := { d.whl with drained := true, drainedAt := d.whl.time }, wrp := { d.wrp with live := d.wrp.cells },
             ply := { d.ply with coverNext := coverNow d } } := by
  have none : d.whl.before.find? (fun b => !b.drained) = none :=
    List.find?_eq_none.2 fun b mem => by simp [others b mem]
  simp only [doDrainComplete, runs, none, open_, due, Bool.true_eq_false, and_self, if_true, if_false]
  rfl

/-- Settles O14: the strobe numbers its tick by the slot of device time, as a step leaves it; and each phase by its own equation. -/
theorem theTickAndItsPhases : Obligations.TheTickAndItsPhases := by
  unfold Obligations.TheTickAndItsPhases
  refine ⟨fun s dt tcxo beacon => ?_, fun s dt => ?_⟩
  · intro e runs begins once
    have strobes := doTickStrobe_due tcxo beacon runs begins once
    refine ⟨fun faulted => ?_, fun sound => ⟨fun idle pend => ?_, fun off due held => ?_⟩⟩
    · exact gives_run rfl (strobes.trans (if_pos faulted))
    · refine gives_run rfl ?_
      rw [strobes, if_neg (by simp [sound])]
      have ticked := strobe_ticked tcxo beacon e
      rw [stepTick_none idle pend] at ticked
      simp only [Whl.ticked, Prod.mk.injEq] at ticked
      obtain ⟨⟨time, radio, -⟩, tick, tickAt, drained, scheduled⟩ := ticked
      exact ⟨time, radio, tick, tickAt, drained, scheduled, strobe_pra ..⟩
    · refine gives_run rfl ?_
      rw [strobes, if_neg (by simp [sound])]
      have ticked := strobe_ticked tcxo beacon e
      rw [stepTick_some due held] at ticked
      simp only [Whl.ticked, Prod.mk.injEq] at ticked
      obtain ⟨⟨time, radio, step⟩, tick, tickAt, -, -⟩ := ticked
      exact ⟨time, radio, tick, tickAt, step⟩
  · intro e late runs
    refine ⟨fun open_ others due => ?_, fun alone drained open_ => ?_, fun open_ once by_ others => ?_,
      fun open_ once by_ others => ?_, fun n planned once by_ => ?_⟩
    · exact gives_run rfl (doDrainComplete_now runs open_ others due)
    · refine gives_run rfl ?_
      rw [doScheduleComputation_now runs alone drained open_]
      have grid := schedule_grid e (e.whl.tickK + 1) e.whl.txMissed e.whl.drainedAt
      have ahead : e.whl.tickK + 1 ≠ e.whl.tickK := by omega
      exact ⟨rfl, schedule_planSlot ahead _ _, schedule_pra .., congrArg Prod.snd grid, congrArg Prod.fst grid⟩
    · refine gives_run rfl ?_
      have behind : e.work.late true e.whl.time = true := by simp [TickWork.late, Dev.work, open_, once, by_]
      rw [doPhaseDeadlineMiss_drain runs]
      obtain ⟨counted, told, skipped⟩ := missPhase_drain others behind
      exact ⟨counted, told, skipped, missPhase_sticky runs others behind⟩
    · refine gives_run rfl ?_
      have behind : e.work.late false e.whl.time = true := by simp [TickWork.late, Dev.work, open_, once, by_]
      rw [doPhaseDeadlineMiss_sched runs]
      obtain ⟨counted, told, skipped⟩ := missPhase_sched others behind
      exact ⟨counted, told, skipped, missPhase_sticky runs others behind⟩
    · refine gives_run rfl ?_
      rw [doPhaseDeadlineMiss_txprep runs planned once by_]
      have counted := overrun_txprep_whl e e.whl.tickK
      exact ⟨by rw [counted], by rw [counted], overrun_sticky _ _ runs⟩

end Sys2Proof.Machine
end

section
/-! PROOFS. What an operation on a spindle spares (O20 to O25): every other spindle, and what a view of its own spindle reads. -/

namespace Sys2Proof.Machine

/-- From `a` to `b` no spindle but `n` has changed, and what `g` reads of `n` is as it was. -/
structure Spares {α : Type} (g : Spn → α) (n : Fin 4) (a b : Dev) : Prop where
  others : ∀ m, m ≠ n → b.spn.get m = a.spn.get m
  same : g (b.spn.get n) = g (a.spn.get n)

section
variable {α : Type} {g : Spn → α} {n : Fin 4}

theorem Spares.of_spn {a b : Dev} (h : b.spn = a.spn) : Spares g n a b := ⟨fun _ _ => by rw [h], by rw [h]⟩

theorem Spares.refl (d : Dev) : Spares g n d d := .of_spn rfl

theorem Spares.of_only {l : List Part} {a b : Dev} (h : Only l a b) (out : Part.spn ∉ l) : Spares g n a b :=
  .of_spn (h.same .spn out)

theorem Spares.trans {a b c : Dev} (h : Spares g n a b) (k : Spares g n b c) : Spares g n a c :=
  ⟨fun m other => (k.others m other).trans (h.others m other), k.same.trans h.same⟩

theorem Spares.each {β : Type} {l : List β} {f : Dev → β → Dev} {d : Dev} (k : ∀ e x, Spares g n e (f e x)) :
    Spares g n d (Machine.each l f d) := each_holds (P := Spares g n d) (.refl d) fun e x h => h.trans (k e x)

theorem Spares.modSpn (d : Dev) {f : Spn → Spn} (keeps : g (f (d.spn.get n)) = g (d.spn.get n)) :
    Spares g n d (d.modSpn n f) :=
  ⟨fun _ other => d.modSpn_get_other f other, (congrArg g (Four.get_set_same ..)).trans keeps⟩

theorem Spares.report (d : Dev) (e : Nat) (l : List Byte) : Spares g n d (Machine.report d e l) :=
  .of_only (report_only d e l (l_ := [.start, .evt]) rfl (.refl _ _)) (by decide)

@[simp] theorem finish_spn (d : Dev) (th : Nat) (st : Status) (res : List Byte) : (finish d th st res).spn = d.spn :=
  (ThreadsOnly.finish d th st res).1.same .spn (by decide)

theorem Spares.finish (d : Dev) (th : Nat) (st : Status) (res : List Byte) : Spares g n d (Machine.finish d th st res) :=
  .of_spn (finish_spn ..)

/-- Of two spindles that a view shows alike, what reads no more than the view reads the same. -/
theorem Spn.reads {v : Spn → Spn} {s t : Spn} (h : v s = v t) (g : Spn → α) (only : g ∘ v = g) :
    g s = g t := by
  exact (congrFun only s).symm.trans ((congrArg g h).trans (congrFun only t))

theorem Spares.view {v : Spn → Spn} {a b : Dev} (h : Spares v n a b) (g : Spn → α)
    (only : g ∘ v = g) : Spares g n a b := ⟨h.others, Spn.reads h.same g only⟩

end

@[simp] theorem Dev.modSpn_get_same (d : Dev) (n : Fin 4) (f : Spn → Spn) : (d.modSpn n f).spn.get n = f (d.spn.get n) :=
  Four.get_set_same ..

/-! ## Wires and transitions (R96, R107, R108) -/

/-- A spindle without its wires. -/
def Spn.unwired (s : Spn) : Spn :=
  { s with paEn := false, paBias := false, trsw := false, lnaByp := false, cxReq := false, cxPri := false }

/-- A spindle without its wires and without the transition under way, and the calibration that a passage from SLEEP makes
pending. -/
def Spn.still (s : Spn) : Spn := { s.unwired with trans := none, calPend := false, calCause := 0, calWait := false }

/-- A spindle without what leaving RX changes. -/
def Spn.modeless (s : Spn) : Spn := { s.still with mode := .sleep }

/-- RX is left for SYNTH, and a passage to RX given up (R94, R96). -/
def Spn.leaveRx (s : Spn) : Spn :=
  let s := if s.mode = .rx then { s with mode := .synth } else s
  (match s.trans with | some (.rx, _) => { s with trans := none } | _ => s).syncWires

theorem Spn.syncWires_unwired (s : Spn) : s.syncWires.unwired = s.unwired := by
  unfold syncWires; dsimp only; split <;> rfl

theorem Spn.settle_still (s : Spn) (now : Nat) : (s.settle now).still = s.still := by
  unfold settle; repeat' split
  all_goals rfl

section
variable {α : Type} (g : Spn → α)

theorem Spn.syncWires_reads (s : Spn) (only : g ∘ unwired = g) : g s.syncWires = g s :=
  reads (syncWires_unwired s) g only

theorem Spn.settle_reads (s : Spn) (now : Nat) (only : g ∘ still = g) : g (s.settle now) = g s :=
  reads (settle_still s now) g only

/-- What is read of a spindle beside its wires and its transition outlasts its settling. -/
theorem Spn.settled_reads (s : Spn) (now : Nat) (only : g ∘ still = g) :
    g (s.settle now).syncWires = g s :=
  reads ((syncWires_reads still _ rfl).trans (settle_still s now)) g only

theorem Spn.leaveRx_reads (s : Spn) (only : g ∘ modeless = g) : g s.leaveRx = g s := by
  have left : s.leaveRx.modeless = s.modeless := by
    unfold leaveRx
    refine (syncWires_reads modeless _ rfl).trans ?_
    repeat' split
    all_goals rfl
  exact reads left g only

end

/-! ## Reception (R144 to R146) -/

/-- A spindle without what ending its frames changes. -/
def Spn.deaf (s : Spn) : Spn :=
  { s with demods := [], bindsEff := [], bindFrom := [], bindDue := [], rxOk := 0, rxHdr := 0, rxRs := 0, rxFcs := 0, rxTrunc := 0,
           rxColl := 0, rxStore := 0, rxLong := 0, rxUnsup := 0, errs := [], store := [], crossing := [], validFrom := 0 }

theorem Spn.countRx_deaf (s : Spn) (status : Nat) : (s.countRx status).deaf = s.deaf := by
  unfold countRx; split <;> rfl

section
variable (d : Dev) (n : Fin 4)

theorem Spares.endRun (b : Nat) : Spares Spn.deaf n d (d.endRun n b) :=
  .modSpn d (by dsimp only; split <;> rfl)

theorem Spares.storeFull : Spares Spn.deaf n d (Machine.storeFull d n) := .trans (.modSpn d rfl) (.report ..)

theorem Spares.modBob (i : Nat) (f : Bobbin → Bobbin) : Spares Spn.deaf n d (d.modBob i f) := .of_spn rfl

theorem Spares.crossStore (due : Option Int) (i k : Nat) : Spares Spn.deaf n d (Machine.crossStore d n due i k) := by
  unfold Machine.crossStore
  refine .trans (.modSpn d ?_) (.modBob ..)
  rfl

theorem Spares.deliver (e : Descriptor) : Spares Spn.deaf n d (Machine.deliver d n e) := by
  have counted : Spares Spn.deaf n d (errWatch (d.modSpn n (fun s =>
      { s.countRx e.status with
        store := (s.countRx e.status).store ++ [e],
        errs := ((e.status == 1 || e.status == 2 || e.status == 7) :: (s.countRx e.status).errs).take 256 })) n) :=
    .trans (.modSpn d (Spn.countRx_deaf _ e.status)) (.of_only (errWatch_only _ n (l_ := [.evt]) rfl (.refl _ _)) (by decide))
  unfold Machine.deliver; dsimp only; repeat' split
  · exact counted.trans (.crossStore ..)
  · exact counted
  · exact .storeFull d n

theorem Spares.truncateAll : Spares Spn.deaf n d (Machine.truncateAll d n) := by
  refine .each fun e p => ?_
  split
  · exact .endRun e n p.1
  · exact (Spares.endRun e n p.1).trans (.deliver ..)

theorem Spares.syncReset : Spares Spn.deaf n d (Machine.syncReset d n) := (Spares.truncateAll d n).trans (.modSpn _ rfl)

end

/-! ## The return loss and the abort of a transmission (R106, R112, R116, R117) -/

/-- A spindle without what the tuner counts. -/
def Spn.untuned (s : Spn) : Spn := { s with tuneTrial := none, tuneWait := 0, tuneRevert := none }

/-- A spindle without what the measure of a return loss changes. -/
def Spn.unmeasured (s : Spn) : Spn := { s.untuned with rlLast := 0, rls := [] }

theorem Spn.tuneCount_untuned (s : Spn) : s.tuneCount.untuned = s.untuned := by
  unfold tuneCount; dsimp only; repeat' split
  all_goals rfl

theorem pushRl_spn (d : Dev) (n : Fin 4) (rl : Nat) :
    (pushRl d n rl).spn = (d.modSpn n (fun s => { s with rlLast := rl, rls := (rl :: s.rls).take 8 })).spn := by
  unfold pushRl; dsimp only; split
  · exact watch_spn ..
  · rfl

theorem Spares.measureRl (d : Dev) (n : Fin 4) (rl : Option Nat) : Spares Spn.unmeasured n d (Machine.measureRl d n rl) := by
  have counted (e : Dev) (k : Nat) : Spares Spn.unmeasured n e ((pushRl e n k).modSpn n Spn.tuneCount) :=
    .trans (.trans (.modSpn e rfl) (.of_spn (pushRl_spn e n k)))
      (.modSpn _ (Spn.reads (Spn.tuneCount_untuned _) Spn.unmeasured rfl))
  cases rl with
  | none => exact .trans (b := d.draw.2) (.of_spn rfl) (counted d.draw.2 (d.draw.1.toNat % 65535))
  | some k => exact counted d k

@[simp] theorem maskWatch_spn (d : Dev) (n : Fin 4) : (maskWatch d n).spn = d.spn := watch_spn ..

theorem Spares.maskWatch {α : Type} {g : Spn → α} {n : Fin 4} (d : Dev) : Spares g n d (Machine.maskWatch d n) :=
  .of_spn (maskWatch_spn d n)

@[simp] theorem loseRecord_spn (d : Dev) (k : AirKind) : (loseRecord d k).spn = d.spn := by cases k <;> rfl
@[simp] theorem loseRecord_whl (d : Dev) (k : AirKind) : (loseRecord d k).whl = d.whl := by cases k <;> rfl

/-- A spindle whose transmission is aborted now. -/
def Spn.cutTx (s : Spn) (t : TxRun) (now : Nat) : Spn :=
  ({ s with tx := some { t with ended := some now, aborted := true }, txAbort := inc32 s.txAbort }.pushMask 0).syncWires

/-- The device with the transmission of spindle `n` aborted, before the measures of R116 and R151. -/
def cutOff (d : Dev) (n : Fin 4) (t : TxRun) : Dev := (loseRecord d t.kind).modSpn n (·.cutTx t d.whl.time)

theorem cutOff_get (d : Dev) (n : Fin 4) (t : TxRun) : (cutOff d n t).spn.get n = (d.spn.get n).cutTx t d.whl.time := by
  rw [cutOff, Dev.modSpn_get_same, loseRecord_spn]

section
variable {d : Dev} {n : Fin 4} {t : TxRun} (tx : (d.spn.get n).tx = some t) (runs : t.ended = none) (granted : t.granted = true)
include tx runs granted

theorem abortTx_granted (c : Lost) (rl : Option Nat) : abortTx d n c rl =
    maskWatch (if t.started then measureRl (cutOff d n t) n rl else cutOff d n t) n := by
  rw [abortTx, tx]
  dsimp only
  rw [if_neg (by simp [runs]), if_pos granted, loseRecord_whl]
  rfl

/-- Once past its grant sample point a transmission is cut, and no more is done than to measure it. -/
theorem Spares.abortTx_granted (c : Lost) (rl : Option Nat) :
    Spares Spn.unmeasured n (cutOff d n t) (Machine.abortTx d n c rl) := by
  rw [Machine.abortTx_granted tx runs granted]
  refine .trans ?_ (.maskWatch _)
  split
  · exact .measureRl ..
  · exact .refl _

theorem abortTx_cut (c : Lost) (rl : Option Nat) :
    ((abortTx d n c rl).spn.get n).unmeasured = ((d.spn.get n).cutTx t d.whl.time).unmeasured :=
  (Spares.abortTx_granted tx runs granted c rl).same.trans (congrArg Spn.unmeasured (cutOff_get ..))

theorem abortTx_others (c : Lost) (rl : Option Nat) {m : Fin 4} (other : m ≠ n) :
    (abortTx d n c rl).spn.get m = d.spn.get m := by
  rw [(Spares.abortTx_granted tx runs granted c rl).others m other, cutOff, Dev.modSpn_get_other _ _ other, loseRecord_spn]

end

end Sys2Proof.Machine
end

section
/-! PROOFS. Registers of a spindle (O20). What is written stands in the spindle's settings; what it sets in motion at the end of
the cell in progress changes no setting but the window in effect. -/

namespace Sys2Proof.Machine

/-! ## Settings -/

/-- What the writes of a spindle's registers set, and the window in effect. -/
def Spn.settings (s : Spn) : Spn :=
  { target := s.target, autocal := s.autocal, tuneEn := s.tuneEn, inhRetry := s.inhRetry, cxEn := s.cxEn, cxAbort := s.cxAbort,
    lnaForceByp := s.lnaForceByp, calStart := s.calStart, inhibit := s.inhibit, retryAt := s.retryAt, window := s.window,
    windowEff := s.windowEff, binds := s.binds }

/-- The settings, with the hold, TEST or BYPASS that waits for the end of the cell in progress. -/
def Spn.asked (s : Spn) : Spn := { s.settings with holdPend := s.holdPend, oosPend := s.oosPend }

theorem Spn.abandonBlank_asked (s : Spn) (pend : Bool) : (s.abandonBlank pend).asked = s.asked := by
  unfold abandonBlank; split <;> rfl

section
variable (d : Dev) (n : Fin 4)

theorem Spares.countLost (c : Lost) (k : Nat) : Spares Spn.asked n d (Machine.countLost d n c k) := by
  unfold Machine.countLost
  cases c with
  | resync | conflict | unbound | uncounted => exact .of_spn rfl
  | cal | hold | inhibit | cx | txsyn => exact .modSpn d rfl

theorem Spares.dropTx (c : Lost) : Spares Spn.asked n d (Machine.dropTx d n c) := by
  unfold Machine.dropTx; split
  · exact .refl d
  · exact .trans (.of_spn (loseRecord_spn ..)) (.trans (.countLost ..)
      (.modSpn _ ((Spn.settle_reads Spn.asked _ _ rfl).trans (Spn.syncWires_reads Spn.asked _ rfl))))

theorem Spares.abortTx (c : Lost) (rl : Option Nat) : Spares Spn.asked n d (Machine.abortTx d n c rl) := by
  cases tx : (d.spn.get n).tx with
  | none => simpa only [Machine.abortTx, tx] using .refl d
  | some t =>
    cases runs : t.ended with
    | some te => simpa only [Machine.abortTx, tx, runs, Option.isSome_some, if_true] using .refl d
    | none =>
      by_cases granted : t.granted = true
      · have cut : Spares Spn.asked n d (cutOff d n t) := by
          unfold cutOff Spn.cutTx
          exact .trans (.of_spn (loseRecord_spn d t.kind)) (.modSpn _ (Spn.syncWires_reads Spn.asked _ rfl))
        exact cut.trans ((Spares.abortTx_granted tx runs granted c rl).view Spn.asked rfl)
      · simpa only [Machine.abortTx, tx, runs, granted, Option.isSome_none, Bool.false_eq_true, if_false] using .dropTx d n c

theorem Spares.actTarget : Spares Spn.asked n d (Machine.actTarget d n) := by
  unfold Machine.actTarget; dsimp only; split
  · exact .modSpn d (Spn.settle_reads Spn.asked _ _ rfl)
  · by_cases low : effTarget d n < 2
    · simp only [low, if_true]
      refine .trans (.trans (.abortTx ..) ((Spares.truncateAll _ n).view Spn.asked rfl))
        (.modSpn _ ((Spn.settled_reads Spn.asked _ _ rfl).trans ?_))
      generalize (Machine.truncateAll (Machine.abortTx d n .uncounted none) n).spn.get n = s
      refine .trans ?_ (Spn.abandonBlank_asked { s with eff := effTarget d n } (effTarget d n == 1))
      repeat' split
      all_goals rfl
    · simp only [low, if_false]
      refine .modSpn d ((Spn.settled_reads Spn.asked _ _ rfl).trans ?_)
      repeat' split
      all_goals rfl

/-! ## The end of the cell in progress (R95) -/

/-- A spindle that a hold has taken (R119). -/
def Spn.takeHold (s : Spn) (now dur period : Nat) : Spn :=
  ({ s with hold := some ⟨now, if dur = 0xFFFF then none else some (now + dur * period)⟩, holdPend := none }).leaveRx

/-- The device as a hold of spindle `n` begins, before its command ends. -/
def holdBegun (d : Dev) (n : Fin 4) (dur : Nat) : Dev :=
  report ((truncateAll d n).modSpn n (·.takeHold d.whl.time dur d.whl.periodNs)) (evSpn n 7) []

theorem holdOn_eq (th dur : Nat) : holdOn d n th dur = finish (holdBegun d n dur) th .ok (octets 8 d.whl.time) := rfl

theorem Spares.holdOn (th dur : Nat) : Spares Spn.settings n d (Machine.holdOn d n th dur) := by
  have taken (e : Dev) (now period : Nat) : Spares Spn.settings n e (e.modSpn n (·.takeHold now dur period)) :=
    .modSpn e (Spn.leaveRx_reads Spn.settings _ rfl)
  rw [holdOn_eq]
  exact .trans (.trans (((Spares.truncateAll d n).view Spn.settings rfl).trans (taken ..)) (.report ..)) (.finish ..)

/-- The device as TEST or BYPASS takes effect on spindle `n`. -/
def oosTaken (o : OutOfService) : Dev := d.modSpn n (fun s => { s with oos := o, oosPend := none })

variable {d n} in
theorem takeOos_test {th : Nat} (h : (d.spn.get n).oosPend = some (.test, th)) : Machine.takeOos d n =
    (report (truncateAll (oosTaken d n .test) n) evSpnTest (octets 1 n.val ++ octets 1 1)).modSpn n
      (fun s => ({ s with testTh := some th }).leaveRx) := by
  rw [Machine.takeOos, h]; rfl

variable {d n} in
theorem takeOos_bypass {th : Nat} (h : (d.spn.get n).oosPend = some (.bypass, th)) : Machine.takeOos d n =
    finish (actTarget (report ((oosTaken d n .bypass).modSpn n (fun s => { s with pinBypass := true })) evSpnTest
      (octets 1 n.val ++ octets 1 2)) n) th .ok [] := by
  rw [Machine.takeOos, h]; rfl

theorem Spares.takeOos : Spares Spn.settings n d (Machine.takeOos d n) := by
  have taken (o : OutOfService) : Spares Spn.settings n d (oosTaken d n o) := .modSpn d rfl
  rcases h : (d.spn.get n).oosPend with _ | ⟨o, th⟩
  · simpa only [Machine.takeOos, h] using .refl d
  · cases o with
    | none => rw [Machine.takeOos, h]; exact taken .none
    | test =>
      rw [takeOos_test h]
      exact .trans (((taken .test).trans ((Spares.truncateAll _ n).view Spn.settings rfl)).trans (.report ..))
        (.modSpn _ (Spn.leaveRx_reads Spn.settings _ rfl))
    | bypass =>
      rw [takeOos_bypass h]
      exact .trans (.trans ((taken .bypass).trans (.trans (.modSpn _ rfl) (.report ..)))
        ((Spares.actTarget _ n).view Spn.settings rfl)) (.finish ..)

end

theorem Spn.takeBind_deaf (n : Fin 4) (now : Nat) (s : Spn) (i : Nat) : (s.takeBind n now i).deaf = s.deaf := by
  unfold takeBind; dsimp only; repeat' split
  all_goals rfl

theorem Spn.takeBinds_deaf (s : Spn) (n : Fin 4) (now : Nat) : (s.takeBinds n now).deaf = s.deaf :=
  List.foldlRecOn (motive := fun x => x.deaf = s.deaf) _ (takeBind n now) rfl fun x same i _ => (takeBind_deaf n now x i).trans same

/-- The window and the bindings last written take effect. -/
def Spn.takeLayout (n : Fin 4) (now : Nat) (s : Spn) : Spn := (s.takeWindow n).takeBinds n now

theorem Spn.takeLayout_asked (n : Fin 4) (now : Nat) (s : Spn) :
    (s.takeLayout n now).asked = { s with windowEff := s.window }.asked := by
  refine (reads (takeBinds_deaf (s.takeWindow n) n now) asked rfl).trans ?_
  unfold takeWindow; split
  next same => exact congrArg (fun w => { s with windowEff := w }.asked) same.symm
  next => rfl

/-- The device once the target, the window and the bindings of spindle `n` have taken effect. -/
def laidOut (d : Dev) (n : Fin 4) : Dev := (actTarget d n).modSpn n (Spn.takeLayout n (actTarget d n).whl.time)

theorem laidOut_asked (d : Dev) (n : Fin 4) : ((laidOut d n).spn.get n).asked =
    { d.spn.get n with windowEff := (d.spn.get n).window }.asked := by
  rw [laidOut, Dev.modSpn_get_same, Spn.takeLayout_asked]
  exact Spn.reads (Spares.actTarget d n).same (fun s => { s with windowEff := s.window }.asked) rfl

theorem endOfCell_eq (d : Dev) (n : Fin 4) : endOfCell d n =
    match ((takeOos (laidOut d n) n).spn.get n).holdPend with
    | some (th, dur) => holdOn (takeOos (laidOut d n) n) n th dur
    | none => takeOos (laidOut d n) n := rfl

theorem Spares.endOfCell (d : Dev) (n : Fin 4) : Spares Spn.settings n (laidOut d n) (Machine.endOfCell d n) := by
  rw [endOfCell_eq]; split
  · exact (Spares.takeOos (laidOut d n) n).trans (.holdOn ..)
  · exact Spares.takeOos (laidOut d n) n

theorem atEndOfCell_others (d : Dev) {n m : Fin 4} (other : m ≠ n) : (atEndOfCell d n).spn.get m = d.spn.get m := by
  unfold atEndOfCell; split
  · rfl
  · exact ((Spares.endOfCell d n).others m other).trans
      ((Dev.modSpn_get_other _ _ other).trans ((Spares.actTarget d n).others m other))

/-- While the spindle serves a cell the window in effect stays; otherwise the window last written takes effect (R95, R99). -/
def Spn.afterCell (s : Spn) : Spn := { s with windowEff := if s.servesNow then s.windowEff else s.window }

theorem atEndOfCell_settings (d : Dev) (n : Fin 4) : ((atEndOfCell d n).spn.get n).settings =
    (d.spn.get n).afterCell.settings := by
  unfold atEndOfCell Spn.afterCell; split
  next => rfl
  next => exact (Spares.endOfCell d n).same.trans (Spn.reads (laidOut_asked d n) Spn.settings rfl)

/-! ## The rest of the device -/

/-- What the end of the cell in progress asks: whether a cell is served, and what waits. -/
def Spn.waits (s : Spn) : Bool × Option (Nat × Nat) × Option (OutOfService × Nat) := (s.servesNow, s.holdPend, s.oosPend)

/-- A write to spindle `n` leaves the rest of the device; the whorl too, unless a command that ends may give a launch up. -/
def RestStays (n : Fin 4) (a b : Dev) : Prop :=
  (∀ m, m ≠ n → b.spn.get m = a.spn.get m) ∧ b.pra = a.pra ∧ b.wrp.cells = a.wrp.cells
    ∧ ((a.spn.get n).servesNow = true ∨ ((a.spn.get n).holdPend = none ∧ (a.spn.get n).oosPend = none) → b.whl = a.whl)

section
variable (d : Dev) (n : Fin 4)

theorem countLost_grid (c : Lost) (k : Nat) : (countLost d n c k).grid = d.grid := by cases c <;> rfl

theorem dropTx_grid (c : Lost) : (dropTx d n c).grid = d.grid := by
  unfold dropTx; split
  · rfl
  · exact (countLost_grid ..).trans (loseRecord_grid ..)

theorem truncateAll_grid : (truncateAll d n).grid = d.grid :=
  (truncateAll_only d n (l_ := [.start, .evt, .spn, .bob]) rfl (.refl _ _)).grid

theorem abortTx_grid (c : Lost) (rl : Option Nat) : (abortTx d n c rl).grid = d.grid := by
  have watched (e : Dev) : (maskWatch e n).grid = e.grid := (maskWatch_only e n (l_ := [.evt]) rfl (.refl _ _)).grid
  have measured (e : Dev) : (measureRl e n rl).grid = e.grid :=
    (measureRl_only e n rl (l_ := [.free, .evt, .spn]) rfl (.refl _ _)).grid
  unfold abortTx; dsimp only; split
  · rfl
  · split
    · rfl
    · split
      · rw [watched]; split
        · exact (measured _).trans (loseRecord_grid ..)
        · exact loseRecord_grid ..
      · exact dropTx_grid ..

theorem actTarget_grid : (actTarget d n).grid = d.grid := by
  unfold actTarget; dsimp only; split
  · rfl
  · by_cases low : effTarget d n < 2
    · simp only [low, if_true, modSpn_grid]
      exact (truncateAll_grid ..).trans (abortTx_grid ..)
    · simp only [low, if_false, modSpn_grid]

theorem takeOos_grid : (takeOos d n).grid = d.grid := by
  unfold takeOos; split
  · rfl
  next o th _ =>
    cases o with
    | none => rfl
    | test => exact (report_grid ..).trans (truncateAll_grid ..)
    | bypass => exact (finish_grid ..).trans ((actTarget_grid ..).trans (report_grid ..))

theorem holdOn_grid (th dur : Nat) : (holdOn d n th dur).grid = d.grid :=
  (finish_grid ..).trans ((report_grid ..).trans (truncateAll_grid ..))

theorem atEndOfCell_grid : (atEndOfCell d n).grid = d.grid := by
  have acted : (takeOos (laidOut d n) n).grid = d.grid := (takeOos_grid ..).trans (actTarget_grid d n)
  unfold atEndOfCell endOfCell; dsimp only; repeat' split
  · rfl
  · exact (holdOn_grid ..).trans acted
  · exact acted

theorem actTarget_whl : (actTarget d n).whl = d.whl :=
  (actTarget_only d n (l_ := [.free, .start, .evt, .spn, .wrp, .ply, .bob]) rfl (.refl _ _)).same .whl (by decide)

variable {d n} in
/-- With no command that waits, the end of the cell ends none. -/
theorem endOfCell_idle (hold : (d.spn.get n).holdPend = none) (oos : (d.spn.get n).oosPend = none) :
    endOfCell d n = laidOut d n := by
  have asked := laidOut_asked d n
  have noHold : ((laidOut d n).spn.get n).holdPend = none := (Spn.reads asked Spn.holdPend rfl).trans hold
  have noOos : ((laidOut d n).spn.get n).oosPend = none := (Spn.reads asked Spn.oosPend rfl).trans oos
  have taken : takeOos (laidOut d n) n = laidOut d n := by simp only [takeOos, noOos]
  rw [endOfCell_eq, taken, noHold]

variable {d n} in
theorem atEndOfCell_whl (h : (d.spn.get n).servesNow = true ∨ ((d.spn.get n).holdPend = none ∧ (d.spn.get n).oosPend = none)) :
    (atEndOfCell d n).whl = d.whl := by
  unfold atEndOfCell; split
  next => rfl
  next free =>
    obtain ⟨hold, oos⟩ := h.resolve_left free
    rw [endOfCell_idle hold oos]
    exact actTarget_whl d n

end

theorem atEndOfCell_keeps (d : Dev) (n : Fin 4) : (atEndOfCell d n).pra = d.pra ∧ (atEndOfCell d n).out = d.out :=
  have only := atEndOfCell_only d n (l_ := [.free, .start, .evt, .whl, .spn, .wrp, .ccp, .ply, .img, .bob]) rfl (.refl _ _)
  ⟨only.same .pra (by decide), only.same .out (by decide)⟩

/-- A change of a spindle that asks nothing new of the end of its cell, and what it sets in motion, leave the rest. -/
theorem RestStays.written {d : Dev} {n : Fin 4} {f : Spn → Spn} (waits : (f (d.spn.get n)).waits = (d.spn.get n).waits)
    (o : Output) : RestStays n d ((atEndOfCell (d.modSpn n f) n).emit o) := by
  refine ⟨fun m other => (atEndOfCell_others _ other).trans (d.modSpn_get_other f other), (atEndOfCell_keeps ..).1,
    congrArg Prod.snd (atEndOfCell_grid (d.modSpn n f) n), fun h => atEndOfCell_whl (d := d.modSpn n f) ?_⟩
  simp only [Spn.waits, Prod.mk.injEq] at waits
  obtain ⟨serves, hold, oos⟩ := waits
  rwa [Dev.modSpn_get_same, serves, hold, oos]

theorem written_out {d : Dev} {n : Fin 4} {f : Spn → Spn} (silent : d.out = []) (st : Status) :
    ((atEndOfCell (d.modSpn n f) n).emit (.status st)).out = [.status st] := by
  rw [Dev.emit_out, (atEndOfCell_keeps ..).2, Dev.modSpn_out, silent]; rfl

/-! ## SPN_CTRL (R94, R113, R118, R124) -/

/-- A spindle as a write of SPN_CTRL leaves it, before its wires follow. -/
def Spn.takeCtrl (v : Word) (s : Spn) : Spn :=
  { s with target := fld v 31 30, autocal := bit v 7, tuneEn := bit v 6, inhRetry := bit v 5, cxEn := bit v 4, cxAbort := bit v 3,
           lnaForceByp := bit v 2, calPend := bit v 29 || s.calPend, calCause := if bit v 29 then 4 else s.calCause,
           calStart := bit v 29 || s.calStart, inhibit := !bit v 28 && s.inhibit,
           retryAt := if bit v 28 then none else s.retryAt, retryOpen := !bit v 28 && s.retryOpen }

/-- The device as a write of SPN_CTRL leaves it. -/
def ctrlWritten (d : Dev) (n : Fin 4) (v : Word) : Dev :=
  (atEndOfCell (d.modSpn n (fun s => (s.takeCtrl v).syncWires)) n).emit (.status .ok)

theorem regRow_writes {f : Dev → Dev × Status} {d a : Dev} {st : Status} (runs : d.phase.fwRuns = true) (h : f d = (a, st)) :
    regRow f d = a.emit (.status st) := by rw [regRow_runs f d runs, h]

theorem Dev.emit_silent {d : Dev} (silent : d.out = []) (o : Output) : d.emit o = { d with out := [o] } := by
  rw [emit, silent]; rfl

section
variable {d : Dev} {n : Fin 4} {v : Word}

theorem writeSpnCtrl_taken (named : fld v 31 30 ≠ 3) (may : (d.spn.get n).fitted = true ∨ fld v 31 30 = (d.spn.get n).target) :
    writeSpnCtrl d n v = (atEndOfCell (d.modSpn n (fun s => (s.takeCtrl v).syncWires)) n, .ok) := by
  have allowed : ¬ ((d.spn.get n).fitted = false ∧ fld v 31 30 ≠ (d.spn.get n).target) := by
    rintro ⟨unfitted, moves⟩
    rcases may with fitted | same
    · rw [unfitted] at fitted; cases fitted
    · exact moves same
  simp only [writeSpnCtrl, if_neg named, if_neg allowed, Spn.takeCtrl]
  cases bit v 29 <;> cases bit v 28 <;> rfl

theorem takeCtrl_waits (s : Spn) : (s.takeCtrl v).syncWires.waits = s.waits := Spn.syncWires_reads Spn.waits _ rfl

theorem ctrlWritten_settings (d : Dev) (n : Fin 4) (v : Word) :
    ((ctrlWritten d n v).spn.get n).settings = ((d.spn.get n).takeCtrl v).afterCell.settings := by
  have settled := atEndOfCell_settings (d.modSpn n (fun s => (s.takeCtrl v).syncWires)) n
  rw [Dev.modSpn_get_same] at settled
  exact settled.trans (Spn.reads (Spn.syncWires_unwired _) (fun s => s.afterCell.settings) rfl)

/-- While the spindle serves a cell, a write of SPN_CTRL does no more than to change its fields. -/
theorem ctrlWritten_serving (serves : (d.spn.get n).servesNow = true) :
    (ctrlWritten d n v).spn.get n = ((d.spn.get n).takeCtrl v).syncWires := by
  have still : ((d.spn.get n).takeCtrl v).syncWires.servesNow = true := (congrArg Prod.fst (takeCtrl_waits _)).trans serves
  rw [ctrlWritten, Dev.emit_spn, atEndOfCell, Dev.modSpn_get_same, still, if_pos rfl, Dev.modSpn_get_same]

theorem ctrlWritten_rest (d : Dev) (n : Fin 4) (v : Word) : RestStays n d (ctrlWritten d n v) :=
  .written (takeCtrl_waits _) _

variable (runs : d.phase.fwRuns = true)
include runs

theorem doSpnTargetWrite_taken (named : fld v 31 30 < 3)
    (may : (d.spn.get n).fitted = true ∨ fld v 31 30 = (d.spn.get n).target) :
    doSpnTargetWrite n v d = ctrlWritten d n v :=
  regRow_writes runs (writeSpnCtrl_taken (Nat.ne_of_lt named) may)

end

/-! ## SPN_CTRL as it reads -/

theorem fld_or (a b : Word) (hi lo : Nat) : fld (a ||| b) hi lo = fld a hi lo ||| fld b hi lo := by
  simp only [fld, BitVec.toNat_or, Nat.shiftRight_or_distrib, Nat.or_mod_two_pow]

theorem fld_and (a b : Word) (hi lo : Nat) : fld (a &&& b) hi lo = fld a hi lo &&& fld b hi lo := by
  simp only [fld, BitVec.toNat_and, Nat.shiftRight_and_distrib, Nat.and_mod_two_pow]

theorem b2n_le (b : Bool) : b2n b ≤ 1 := by cases b <;> decide

theorem Spn.ctrl_target {s : Spn} (named : s.target < 3) : fld s.ctrl 31 30 = s.target := by
  have h29 := b2n_le s.calStart
  have h7 := b2n_le s.autocal
  have h6 := b2n_le s.tuneEn
  have h5 := b2n_le s.inhRetry
  have h4 := b2n_le s.cxEn
  have h3 := b2n_le s.cxAbort
  have h2 := b2n_le s.lnaForceByp
  simp only [fld, ctrl, pack, List.foldl_cons, List.foldl_nil, BitVec.toNat_ofNat, Nat.shiftRight_eq_div_pow]
  omega

/-- CAL_START with the other fields as they read. -/
theorem calStart_word {s : Spn} (named : s.target < 3) :
    fld (s.ctrl ||| 0x20000000) 31 30 = s.target ∧ bit (s.ctrl ||| 0x20000000) 29 = true := by
  refine ⟨?_, ?_⟩
  · rw [fld_or, Spn.ctrl_target named]
    exact Nat.or_zero _
  · simp [bit]

/-- INH_CLR with CAL_START clear and the other fields as they read. -/
theorem inhClr_word {s : Spn} (named : s.target < 3) :
    fld ((s.ctrl &&& 0xDFFFFFFF) ||| 0x10000000) 31 30 = s.target
      ∧ bit ((s.ctrl &&& 0xDFFFFFFF) ||| 0x10000000) 28 = true := by
  refine ⟨?_, ?_⟩
  · rw [fld_or, fld_and, Spn.ctrl_target named]
    exact (Nat.or_zero _).trans ((Nat.and_two_pow_sub_one_eq_mod s.target 2).trans (Nat.mod_eq_of_lt (by omega)))
  · simp [bit]

section
variable {d : Dev} {n : Fin 4} (runs : d.phase.fwRuns = true) (named : (d.spn.get n).target < 3)
include runs named

theorem doCalStart_taken : doCalStart n d = ctrlWritten d n ((d.spn.get n).ctrl ||| 0x20000000) := by
  have target := (calStart_word named).1
  exact regRow_writes runs (writeSpnCtrl_taken (target.trans_ne (Nat.ne_of_lt named)) (.inr target))

theorem doInhClr_taken : doInhClr n d = ctrlWritten d n (((d.spn.get n).ctrl &&& 0xDFFFFFFF) ||| 0x10000000) := by
  have target := (inhClr_word named).1
  exact regRow_writes runs (writeSpnCtrl_taken (target.trans_ne (Nat.ne_of_lt named)) (.inr target))

end

/-! ## SPN_WINDOW and SPN_BINDd (R98, R99, R129) -/

section
variable {d : Dev} {n : Fin 4} {v : Word} (runs : d.phase.fwRuns = true)
include runs

theorem doSpnWindowWrite_taken (sub : is24 n = false) (low : 15900 ≤ fld v 15 0) (high : fld v 15 0 ≤ 18880)
    (ok : bindsOk n d.region (fld v 15 0) (d.spn.get n).binds = true) : doSpnWindowWrite n v d =
      (atEndOfCell (d.modSpn n (fun s => { s with window := fld v 15 0 })) n).emit (.status .ok) := by
  have range : ¬ (fld v 15 0 < 15900 ∨ 18880 < fld v 15 0) := by omega
  simp only [doSpnWindowWrite, regRow_runs _ _ runs, writeSpnWindow, sub, if_neg range, ok, Bool.false_eq_true, Bool.true_eq_false,
    if_false]

theorem doSpnBindWrite_taken {i : Fin 16} {p : Profile} (known : d.region.profile? (fld v 14 12) = some p)
    (chan : fld v 9 0 < p.nchan) (ok : bindsOk n d.region (d.spn.get n).window
      (ksetD (d.spn.get n).binds i.val { en := bit v 31, profile := fld v 14 12, chan := fld v 9 0 } {}) = true) :
    doSpnBindWrite n i v d = (atEndOfCell (d.modSpn n (fun s => { s with
      binds := ksetD (d.spn.get n).binds i.val { en := bit v 31, profile := fld v 14 12, chan := fld v 9 0 } {} })) n).emit
        (.status .ok) := by
  simp only [doSpnBindWrite, regRow_runs _ _ runs, writeSpnBind, known, chan, ok, decide_true, Bool.true_eq_false, or_self,
    if_false]

end

/-- Settles O20: a refused write changes nothing, and one that is taken changes the settings of its spindle
(`atEndOfCell_settings`) and leaves the rest (`RestStays.written`). -/
theorem spindleRegisters : Obligations.SpindleRegisters := by
  unfold Obligations.SpindleRegisters
  intro s dt n v e x rest runs
  have silent : e.out = [] := rfl
  refine ⟨fun reserved => gives_run rfl ?_, fun named unfitted moves => gives_run rfl ?_, fun named fitted => gives_run rfl ?_,
    fun named => ⟨gives_run rfl ?_, gives_run rfl ?_⟩, fun band => gives_run rfl ?_, fun sub range => gives_run rfl ?_,
    fun sub low high ok => gives_run rfl ?_, fun i p known chan ok => gives_run rfl ?_, fun auto => gives_run rfl ?_,
    fun manual => gives_run rfl ?_, gives_run rfl ?_⟩
  · rw [doSpnTargetWrite, regRow_runs _ _ runs, writeSpnCtrl, if_pos reserved]
    exact e.emit_silent silent _
  · rw [doSpnTargetWrite, regRow_runs _ _ runs, writeSpnCtrl, if_neg (Nat.ne_of_lt named), if_pos ⟨unfitted, moves⟩]
    exact e.emit_silent silent _
  · rw [doSpnTargetWrite_taken runs named (.inl fitted)]
    have settings := ctrlWritten_settings e n v
    refine ⟨Spn.reads settings Spn.target rfl, Spn.reads settings Spn.autocal rfl, Spn.reads settings Spn.tuneEn rfl,
      Spn.reads settings Spn.inhRetry rfl, Spn.reads settings Spn.cxEn rfl, Spn.reads settings Spn.cxAbort rfl,
      Spn.reads settings Spn.lnaForceByp rfl, written_out silent _, ctrlWritten_rest e n v, fun serves => ?_⟩
    rw [ctrlWritten_serving serves]
    exact Spn.syncWires_reads Spn.eff _ rfl
  · obtain ⟨target, one⟩ := calStart_word named
    rw [doCalStart_taken runs named]
    generalize x.ctrl ||| 0x20000000 = w at target one
    have settings := ctrlWritten_settings e n w
    refine ⟨(Spn.reads settings Spn.calStart rfl).trans ?_, (Spn.reads settings Spn.target rfl).trans target, fun serves => ?_,
      written_out silent _, ctrlWritten_rest ..⟩
    · exact one ▸ Bool.true_or _
    · rw [ctrlWritten_serving serves, Spn.syncWires_reads Spn.calPend _ rfl, Spn.syncWires_reads Spn.calCause _ rfl]
      exact ⟨one ▸ Bool.true_or _, if_pos one⟩
  · obtain ⟨target, one⟩ := inhClr_word named
    rw [doInhClr_taken runs named]
    generalize (x.ctrl &&& 0xDFFFFFFF) ||| 0x10000000 = w at target one
    have settings := ctrlWritten_settings e n w
    refine ⟨(Spn.reads settings Spn.inhibit rfl).trans ?_, (Spn.reads settings Spn.retryAt rfl).trans (if_pos one),
      (Spn.reads settings Spn.target rfl).trans target, written_out silent _, ctrlWritten_rest ..⟩
    show (!bit w 28 && x.inhibit) = false
    rw [one]; rfl
  · rw [doSpnWindowWrite, regRow_runs _ _ runs, writeSpnWindow, if_pos band]
    exact e.emit_silent silent _
  · rw [doSpnWindowWrite, regRow_runs _ _ runs, writeSpnWindow, if_neg (by simp [sub]), if_pos range]
    exact e.emit_silent silent _
  · rw [doSpnWindowWrite_taken runs sub low high ok]
    have settings := atEndOfCell_settings (e.modSpn n (fun s => { s with window := fld v 15 0 })) n
    rw [Dev.modSpn_get_same] at settings
    have effect : ((atEndOfCell (e.modSpn n (fun s => { s with window := fld v 15 0 })) n).spn.get n).windowEff
        = if x.servesNow then x.windowEff else fld v 15 0 := Spn.reads settings Spn.windowEff rfl
    exact ⟨Spn.reads settings Spn.window rfl, written_out silent _, RestStays.written rfl _,
      fun serves => effect.trans (if_pos serves), fun free => effect.trans (if_neg (by simp [free]))⟩
  · rw [doSpnBindWrite_taken runs known chan ok]
    have settings := atEndOfCell_settings (e.modSpn n (fun s => { s with
      binds := ksetD x.binds i.val { en := bit v 31, profile := fld v 14 12, chan := fld v 9 0 } {} })) n
    rw [Dev.modSpn_get_same] at settings
    exact ⟨Spn.reads settings Spn.binds rfl, written_out silent _, RestStays.written rfl _⟩
  · rw [doSpnTuneWrite, regRow_runs _ _ runs, writeSpnTune, if_pos auto]
    exact e.emit_silent silent _
  · rw [doSpnTuneWrite, regRow_runs _ _ runs, writeSpnTune, if_neg (Bool.not_eq_true _ ▸ manual)]
    exact Dev.emit_silent (d := e.modSpn n _) silent _
  · rw [doSpnTrimWrite, regRow_runs _ _ runs, writeSpnTrim]
    exact Dev.emit_silent (d := e.modSpn n _) silent _

end Sys2Proof.Machine
end

section
/-! PROOFS. Transitions and holds of a spindle (O21). -/

namespace Sys2Proof.Machine

/-! ## The transition under way completes (R96) -/

theorem Spares.selfTest {α : Type} {g : Spn → α} {n : Fin 4} (d : Dev) (b : Nat) (code : BitVec 2) :
    Spares g n d (Machine.selfTest d b code) :=
  .of_only (selfTest_only d b code (l_ := [.glb, .start, .evt]) rfl (.refl _ _)) (by decide)

theorem Spares.reportCal {α : Type} {g : Spn → α} {n : Fin 4} (d : Dev) (fails : List CalKind) (repeats : Nat) :
    Spares g n d (Machine.reportCal d n fails repeats) :=
  .of_only (reportCal_only d n fails repeats (l_ := [.start, .evt]) rfl (.refl _ _)) (by decide)

/-- A passage to SYNTH puts its spindle there, and what follows leaves the state. -/
theorem reachSynth_spares (d : Dev) (n : Fin 4) (pairs : List CalPair) : ∃ f : Spn → Spn,
    Spares Spn.mode n (d.modSpn n f) (reachSynth d n pairs) ∧ ∀ s, (f s).mode = .synth := by
  unfold reachSynth; dsimp only
  refine ⟨_, .trans (.trans (.trans (.maskWatch _) (.reportCal _ _ _)) (.selfTest _ _ _))
    ((Spares.syncReset _ n).view Spn.mode rfl), fun s => ?_⟩
  dsimp only [List.foldl_cons, List.foldl_nil]
  repeat' split
  all_goals rfl

theorem reachSynth_mode (d : Dev) (n : Fin 4) (pairs : List CalPair) : ((reachSynth d n pairs).spn.get n).mode = .synth
    ∧ ∀ k, k ≠ n → (reachSynth d n pairs).spn.get k = d.spn.get k := by
  obtain ⟨f, spared, synth⟩ := reachSynth_spares d n pairs
  exact ⟨spared.same.trans ((congrArg Spn.mode (d.modSpn_get_same n f)).trans (synth _)),
    fun k other => (spared.others k other).trans (d.modSpn_get_other f other)⟩

/-- The device as spindle `n` reaches state `m`. -/
def stateReached (d : Dev) (n : Fin 4) (m : SpnMode) (pairs : List CalPair) : Dev :=
  match m with
  | .synth => reachSynth d n pairs
  | .rx => d.modSpn n (fun s => ({ s with mode := .rx, trans := none }.unblank n d.whl.time))
  | .sleep | .standby | .tx => d.modSpn n (fun s => { s with mode := m, trans := none })

theorem stateReached_mode (d : Dev) (n : Fin 4) (m : SpnMode) (pairs : List CalPair) :
    ((stateReached d n m pairs).spn.get n).mode = m ∧ ∀ k, k ≠ n → (stateReached d n m pairs).spn.get k = d.spn.get k := by
  cases m with
  | synth => exact reachSynth_mode d n pairs
  | rx | sleep | standby | tx =>
    exact ⟨congrArg Spn.mode (d.modSpn_get_same n _), fun k other => d.modSpn_get_other _ other⟩

theorem doSpindleStateReached_eq {d : Dev} {n : Fin 4} {m : SpnMode} {t : Nat} (pairs : List CalPair)
    (under : (d.spn.get n).trans = some (m, t)) : doSpindleStateReached n pairs d =
      (stateReached d n m pairs).modSpn n (fun s => (s.settle (stateReached d n m pairs).whl.time).syncWires) := by
  rw [doSpindleStateReached, under]
  cases m <;> rfl

/-! ## Holds (R119) -/

theorem holdBegun_only (d : Dev) (n : Fin 4) (dur : Nat) : Only [.start, .evt, .spn, .bob] d (holdBegun d n dur) :=
  report_only _ _ _ rfl (Dev.modSpn_only _ _ _ rfl (truncateAll_only d n rfl (.refl _ _)))

theorem holdBegun_hold (d : Dev) (n : Fin 4) (dur : Nat) : ((holdBegun d n dur).spn.get n).hold =
    some ⟨d.whl.time, if dur = 0xFFFF then none else some (d.whl.time + dur * d.whl.periodNs)⟩ := by
  rw [holdBegun, report_spn, Dev.modSpn_get_same]
  exact Spn.leaveRx_reads Spn.hold _ rfl

theorem holdBegun_others (d : Dev) {n k : Fin 4} (dur : Nat) (other : k ≠ n) : (holdBegun d n dur).spn.get k = d.spn.get k := by
  rw [holdBegun, report_spn, Dev.modSpn_get_other _ _ other]
  exact (Spares.truncateAll d n).others k other

theorem holdBegun_sticky {d : Dev} (n : Fin 4) (dur : Nat) (runs : d.phase.fwRuns = true) :
    (holdBegun d n dur).evt.sticky (evSpn n 7) = true := by
  have phase : (truncateAll d n).phase = d.phase :=
    (truncateAll_only d n (l_ := [.start, .evt, .spn, .bob]) rfl (.refl _ _)).same .phase (by decide)
  exact report_sticky _ _ _ (by rw [Dev.modSpn_phase, phase, runs])

/-- Of what leaves the threads, a thread is what it was. -/
theorem Only.thread? {l : List Part} {a b : Dev} (h : Only l a b) (th : Nat) (out : Part.ccp ∉ l) :
    b.thread? th = a.thread? th := congrArg (fun c : Ccp => kfind c.threads th) (h.same .ccp out)

theorem finish_evt (d : Dev) (th : Nat) (st : Status) (res : List Byte) : (finish d th st res).evt = d.evt :=
  (ThreadsOnly.finish d th st res).1.same .evt (by decide)

/-- A hold that takes effect holds its spindle, is reported, and ends its thread with the instant. -/
theorem holdOn_holds {d : Dev} {th : Nat} {t : Thread} (n : Fin 4) (dur : Nat) (found : d.thread? th = some t)
    (alive : t.st ≠ .done) (runs : d.phase.fwRuns = true) :
    ((holdOn d n th dur).spn.get n).hold =
      some ⟨d.whl.time, if dur = 0xFFFF then none else some (d.whl.time + dur * d.whl.periodNs)⟩
    ∧ EndedWith (holdOn d n th dur) th .ok (octets 8 d.whl.time) ∧ (holdOn d n th dur).evt.sticky (evSpn n 7) = true
    ∧ ∀ k, k ≠ n → (holdOn d n th dur).spn.get k = d.spn.get k := by
  rw [holdOn_eq, finish_spn, finish_evt]
  exact ⟨holdBegun_hold d n dur, finish_ended .ok _ (((holdBegun_only d n dur).thread? th (by decide)).trans found) alive,
    holdBegun_sticky n dur runs, fun k other => holdBegun_others d dur other⟩

/-- A hold that ends leaves its spindle free. -/
theorem holdOff_frees (d : Dev) (n : Fin 4) : ((holdOff d n).spn.get n).hold = none
    ∧ ∀ k, k ≠ n → (holdOff d n).spn.get k = d.spn.get k := by
  unfold holdOff; dsimp only; rw [report_spn]
  refine ⟨?_, fun k other => d.modSpn_get_other _ other⟩
  rw [Dev.modSpn_get_same]
  exact Spn.settled_reads Spn.hold _ _ rfl

/-- The device with the hold of spindle `n`, if there is one, ended. -/
def unheld (d : Dev) (n : Fin 4) : Dev := if (d.spn.get n).held then holdOff d n else d

theorem unheld_frees (d : Dev) (n : Fin 4) : ((unheld d n).spn.get n).hold = none
    ∧ ∀ k, k ≠ n → (unheld d n).spn.get k = d.spn.get k := by
  unfold unheld; split
  next => exact holdOff_frees d n
  next free => exact ⟨by simpa [Spn.held] using free, fun _ _ => rfl⟩

theorem unheld_only (d : Dev) (n : Fin 4) : Only [.start, .evt, .spn] d (unheld d n) :=
  .ite (holdOff_only d n rfl (.refl _ _)) (.refl _ _)

/-- With no hold pending, none is cancelled. -/
theorem cancelHold_none {d : Dev} {n : Fin 4} (free : (d.spn.get n).holdPend = none) : cancelHold d n = d := by
  rw [cancelHold, free]

section
variable {d : Dev} {th dur : Nat} {t : Thread} {n : Fin 4} (ready : ReadyFor d th t (.spindleHold n.val dur))
  (free : (d.spn.get n).holdPend = none)
include ready free

theorem doSpindleHold_takes (long : 0 < dur) (idle : (d.spn.get n).servesNow = false) :
    doSpindleHold th d = holdOn (d.modThread th (fun _ => t.begun)) n th dur := by
  have free_ : ((d.modThread th (fun _ => t.begun)).spn.get n).holdPend = none := free
  have idle_ : ((d.modThread th (fun _ => t.begun)).spn.get n).servesNow = false := idle
  refine (runThread_ready (a := (n.val, dur)) _ ready (by rfl)).trans ?_
  dsimp only
  rw [spindle?_val]
  dsimp only
  rw [cancelHold_none free_, if_neg (Nat.ne_of_gt long), if_neg (by simp [idle_])]

/-- DURATION 0 releases the spindle. -/
theorem doSpindleHold_releases (zero : dur = 0) : doSpindleHold th d =
    finish (unheld (d.modThread th (fun _ => t.begun)) n) th .ok
      (octets 8 (unheld (d.modThread th (fun _ => t.begun)) n).whl.time) := by
  have free_ : ((d.modThread th (fun _ => t.begun)).spn.get n).holdPend = none := free
  refine (runThread_ready (a := (n.val, dur)) _ ready (by rfl)).trans ?_
  dsimp only
  rw [spindle?_val]
  dsimp only
  rw [cancelHold_none free_, if_pos zero]
  rfl

end

theorem EndedWith.shows {d : Dev} {th : Nat} {st : Status} {res : List Byte} (h : EndedWith d th st res) :
    (d.thread? th).map (fun u => (u.st, u.status, u.result)) = some (.done, st, res) := by
  obtain ⟨u, found, done, status, result⟩ := h
  simp [found, done, status, result]

/-- A hold of which the instant has come ends; at most the slot that stays held is noted before. -/
theorem doHoldEnd_due {d : Dev} {n : Fin 4} {f t : Nat} (held : (d.spn.get n).hold = some ⟨f, some t⟩)
    (due : t ≤ d.whl.time) :
    ∃ b, doHoldEnd n d = holdOff b n ∧ Only [.spn] d b ∧ ∀ k, k ≠ n → b.spn.get k = d.spn.get k := by
  simp only [doHoldEnd, held, if_pos due]
  refine ⟨_, rfl, .ite (.refl _ _) (Dev.modSpn_only _ _ _ rfl (.refl _ _)), fun k other => ?_⟩
  split
  · rfl
  · exact d.modSpn_get_other _ other

/-- Settles O21: a state is reached (`stateReached_mode`); and a hold begins (`holdOn_holds`) or ends (`holdOff_frees`). -/
theorem spindleStatesAndHolds : Obligations.SpindleStatesAndHolds := by
  unfold Obligations.SpindleStatesAndHolds
  intro s dt n e x
  refine ⟨fun m t pairs under => gives_run rfl ?_, fun th t dur up found ready cmd free => ?_,
    fun f t held due runs => gives_run rfl ?_⟩
  · have only := doSpindleStateReached_only n pairs e (l_ := [.glb, .start, .evt, .spn, .bob]) rfl (.refl _ _)
    obtain ⟨mode, others⟩ := stateReached_mode e n m pairs
    refine ⟨?_, fun k other => ?_, only.same .whl (by decide), only.same .pra (by decide)⟩
    · rw [doSpindleStateReached_eq pairs under, Dev.modSpn_get_same, Spn.settled_reads Spn.mode _ _ rfl, mode]
    · rw [doSpindleStateReached_eq pairs under, Dev.modSpn_get_other _ _ other, others k other]
  · have begins : ReadyFor e th t (.spindleHold n.val dur) := ⟨up, found, ready, cmd⟩
    have alive : t.begun.st ≠ .done := by simp [Thread.begun]
    refine ⟨fun long idle => gives_run rfl ?_, fun zero => gives_run rfl ?_⟩
    · rw [doSpindleHold_takes begins free long idle]
      obtain ⟨hold, ended, sticky, others⟩ := holdOn_holds n dur begins.begun alive (congrArg Phase.fwRuns up)
      exact ⟨congrArg (Option.map _) hold, ended.shows, sticky, others⟩
    · rw [doSpindleHold_releases begins free zero, finish_spn]
      have only := unheld_only (e.modThread th (fun _ => t.begun)) n
      obtain ⟨hold, others⟩ := unheld_frees (e.modThread th (fun _ => t.begun)) n
      have time : (unheld (e.modThread th (fun _ => t.begun)) n).whl = e.whl := only.same .whl (by decide)
      rw [time]
      exact ⟨hold, (finish_ended .ok _ ((only.thread? th (by decide)).trans begins.begun) alive).shows, others⟩
  · obtain ⟨⟨f_, u⟩, here, same⟩ := Option.map_eq_some_iff.1 held
    obtain ⟨rfl, rfl⟩ : f_ = f ∧ u = some t := by simpa using same
    obtain ⟨b, eq, only, others⟩ := doHoldEnd_due here due
    obtain ⟨free, kept⟩ := holdOff_frees b n
    rw [eq]
    refine ⟨free, report_sticky _ _ _ ?_, fun k other => (kept k other).trans (others k other), ?_⟩
    · exact (congrArg Phase.fwRuns (only.same .phase (by decide))).trans runs
    · exact ((holdOff_only b n (l_ := [.start, .evt, .spn]) rfl (.refl _ _)).same .whl (by decide)).trans
        (only.same .whl (by decide))

end Sys2Proof.Machine
end

section
/-! PROOFS. Calibration pairs and the end of a blank (O22). -/

namespace Sys2Proof.Machine

/-! ## The change of channel (R104) -/

/-- A spindle whose synthesiser has agreed on the channel of transmission `t`. -/
def Spn.takeChannel (s : Spn) (t : TxRun) (pair : CalPair) : Spn :=
  { s.setCal .txsyn (CalPair.mean pair) with
    failTxsyn := false, lastChan := some (t.profile, t.chan),
    chanGood := ((t.profile, t.chan), CalPair.mean pair) :: s.chanGood.filter (fun g => g.1 != (t.profile, t.chan)),
    tx := some { t with chanDone := true, pairs := t.pairs + 1 } }

theorem doTxsynCalPair_agrees {d : Dev} {n : Fin 4} {t : TxRun} {pair : CalPair} (tx : (d.spn.get n).tx = some t)
    (open_ : t.chanDone = false) (early : t.granted = false) (runs : t.ended = none) (kind : pair.kind = .txsyn)
    (agrees : CalPair.agrees pair = true) : (doTxsynCalPair n pair d).spn = (d.modSpn n (·.takeChannel t pair)).spn := by
  have takes : ¬ (t.chanDone ∨ t.granted ∨ t.ended.isSome ∨ pair.kind ≠ .txsyn) := by simp [open_, early, runs, kind]
  rw [doTxsynCalPair, tx]
  dsimp only
  rw [if_neg takes, if_pos agrees]
  split
  · rfl
  · exact report_spn ..

/-! ## The pairs of a blank (R111) -/

/-- A kind still open agrees in a pair of its blank, or stays open. -/
def Spn.tryKind (pairs : List CalPair) (s : Spn) (k : CalKind) : Spn :=
  let l := pairs.filter (fun p => p.kind == k)
  let found : Option (Nat × CalMeas) :=
    match k with
    | .rxlo => if s.calPairs = 0 then firstAgreeing k pairs else none
    | .txsyn => none
    | .rxdc | .rxiq | .rxgain | .txiq => (firstAgreeing k (l.take 1)).map (fun p => (s.calPairs, p.2))
  match found with
  | some (i, m) =>
    { s with calOpen := s.calOpen.filter (· != k), calNew := s.calNew ++ [(k, m)], calRepeats := max s.calRepeats i }
  | none => s

/-- A spindle in whose blank a pair has ended. -/
def Spn.endPair (pairs : List CalPair) (s : Spn) : Spn :=
  { s.calOpen.foldl (tryKind pairs) s with calPairs := s.calPairs + 1 }

theorem Spn.endPair_blank (pairs : List CalPair) (s : Spn) : (s.endPair pairs).blank = s.blank := by
  refine List.foldlRecOn (motive := fun y : Spn => y.blank = s.blank) s.calOpen (tryKind pairs) rfl fun y same k _ => ?_
  refine .trans ?_ same
  unfold tryKind; dsimp only; split <;> rfl

/-- A pair that ends is counted in its blank; what follows leaves the count. -/
theorem doCalPairEnd_spares {d : Dev} {n : Fin 4} (pairs : List CalPair) (blank : (d.spn.get n).blank = true)
    (more : (d.spn.get n).calPairs < 4)
    (due : (d.spn.get n).blankFrom + (10 + 6 * (d.spn.get n).calPairs) * 1000000 ≤ d.whl.time) :
    Spares (fun s => (s.calPairs, s.blank)) n (d.modSpn n (·.endPair pairs)) (doCalPairEnd n pairs d) := by
  have now : ¬ ((d.spn.get n).blank = false ∨ 4 ≤ (d.spn.get n).calPairs
      ∨ d.whl.time < (d.spn.get n).blankFrom + (10 + 6 * (d.spn.get n).calPairs) * 1000000) := by
    rw [blank]; simp only [Bool.true_eq_false, false_or]; omega
  have eq : doCalPairEnd n pairs d = if ((d.modSpn n (·.endPair pairs)).spn.get n).calPairs = 4
      then syncReset (d.modSpn n (·.endPair pairs)) n else d.modSpn n (·.endPair pairs) := if_neg now
  rw [eq]; split
  · exact (Spares.syncReset _ n).view _ rfl
  · exact .refl _

/-! ## The end of a blank (R109, R111) -/

theorem each_reports_sticky {d : Dev} {l : List CalKind} (e : Nat) (runs : d.phase.fwRuns = true) (some : l ≠ []) :
    (each l (fun d _ => report d e []) d).evt.sticky e = true := by
  cases l with
  | nil => exact absurd rfl some
  | cons k l =>
    exact each_holds (P := fun x => x.evt.sticky e = true) (d := report d e []) (report_sticky d e [] runs)
      fun x _ h => report_keeps_sticky e [] h

/-- A blank ends with its outcome recorded, and the kinds that failed are reported. -/
theorem doCalBlankEnd_records {d : Dev} {n : Fin 4} (blank : (d.spn.get n).blank = true)
    (due : (d.spn.get n).blankFrom + 30000000 ≤ d.whl.time) : ∃ (f : Spn → Spn) (repeats : Nat),
      doCalBlankEnd n d = reportCal (d.modSpn n f) n (d.spn.get n).calOpen repeats
      ∧ ∀ s, (f s).blank = false ∧ (f s).calEnd = true ∧ (f s).calStart = false
        ∧ (f s).calLast = (if (d.spn.get n).calOpen = [] then (if (d.spn.get n).calRepeats = 0 then 1 else 2) else 3) := by
  have now : ¬ ((d.spn.get n).blank = false ∨ d.whl.time < (d.spn.get n).blankFrom + 30000000) := by
    rw [blank]; simp only [Bool.true_eq_false, false_or]; omega
  unfold doCalBlankEnd; dsimp only; rw [if_neg now]
  refine ⟨_, _, rfl, fun s => ⟨?_, ?_, ?_, ?_⟩⟩
  · exact Spn.settled_reads Spn.blank _ _ rfl
  · exact Spn.settled_reads Spn.calEnd _ _ rfl
  · exact Spn.settled_reads Spn.calStart _ _ rfl
  · refine (Spn.settled_reads Spn.calLast _ _ rfl).trans ?_
    cases (d.spn.get n).calOpen with
    | nil => rfl
    | cons k l => rfl

theorem reportCal_failed {d : Dev} {n : Fin 4} {fails : List CalKind} (repeats : Nat) (some : fails ≠ [])
    (runs : d.phase.fwRuns = true) : (reportCal d n fails repeats).evt.sticky (evSpn n 0) = true := by
  rw [reportCal, if_neg (by simpa using some)]
  exact each_reports_sticky _ runs some

/-- Settles O22. -/
theorem calibration : Obligations.Calibration := by
  unfold Obligations.Calibration
  intro s dt n e x
  refine ⟨fun t pair tx open_ early runs kind agrees => gives_run rfl ?_, fun pairs blank more due => gives_run rfl ?_,
    fun blank due => gives_run rfl ?_⟩
  · rw [doTxsynCalPair_agrees tx open_ early runs kind agrees]
    refine ⟨?_, ?_, ?_, fun k other => e.modSpn_get_other _ other⟩
    all_goals rw [Dev.modSpn_get_same]; rfl
  · have spared := doCalPairEnd_spares pairs blank more due
    obtain ⟨count, going⟩ := Prod.mk.inj spared.same
    rw [Dev.modSpn_get_same] at count going
    exact ⟨count, (going.trans (Spn.endPair_blank pairs x)).trans blank,
      fun k other => (spared.others k other).trans (e.modSpn_get_other _ other)⟩
  · obtain ⟨f, repeats, eq, records⟩ := doCalBlankEnd_records blank due
    have spared : Spares id n (e.modSpn n f) (reportCal (e.modSpn n f) n x.calOpen repeats) := .reportCal ..
    have same := spared.same.trans (e.modSpn_get_same n f)
    obtain ⟨ended, waits, start, last⟩ := records x
    rw [eq]
    refine ⟨(congrArg Spn.blank same).trans ended, (congrArg Spn.calEnd same).trans waits,
      (congrArg Spn.calStart same).trans start, (congrArg Spn.calLast same).trans last,
      fun some runs => reportCal_failed repeats some runs,
      fun k other => (spared.others k other).trans (e.modSpn_get_other f other)⟩

end Sys2Proof.Machine
end

section
/-! PROOFS. Coexistence (O23). -/

namespace Sys2Proof.Machine

/-! ## The wires in a transmission (R105 to R108) -/

section
variable {s : Spn} {t : TxRun} (tx : s.tx = some t)
include tx

theorem Spn.syncWires_cxReq : s.syncWires.cxReq = (s.cxEn && t.requested && decide (t.released < 2)) := by
  unfold syncWires; dsimp only; rw [tx]

theorem Spn.syncWires_cxPri : s.syncWires.cxPri = (s.cxEn && t.requested && decide (t.released < 2) && t.pri) := by
  unfold syncWires; dsimp only; rw [tx]

theorem Spn.syncWires_paBias : s.syncWires.paBias = (decide (3 ≤ t.step) && decide (t.released < 2)) := by
  unfold syncWires; dsimp only; rw [tx]

theorem Spn.syncWires_trsw : s.syncWires.trsw = (decide (4 ≤ t.step) && decide (t.released < 1)) := by
  unfold syncWires; dsimp only; rw [tx]

end

/-- With no transmission there is neither bias nor request. -/
theorem Spn.syncWires_idle {s : Spn} (tx : s.tx = none) : s.syncWires.paBias = false ∧ s.syncWires.cxReq = false := by
  unfold syncWires; dsimp only; rw [tx]; exact ⟨rfl, rfl⟩

/-! ## Request and sample (R108) -/

theorem bandMate_ne (n : Fin 4) : bandMate n ≠ n := by revert n; decide

section
variable {d : Dev} {n : Fin 4} {t : TxRun} (tx : (d.spn.get n).tx = some t) (runs : t.ended = none)
include tx runs

theorem doCxRequest_due (open_ : t.requested = false) (due : t.ts ≤ d.whl.time + reqLeadNs d (d.spn.get n) t) :
    doCxRequest n d = d.modSpn n (fun s => { s with tx := some { t with requested := true } }.syncWires) := by
  have now : ¬ (t.requested ∨ t.ended.isSome ∨ d.whl.time + reqLeadNs d (d.spn.get n) t < t.ts) := by
    simp [open_, runs, Nat.not_lt.2 due]
  rw [doCxRequest, tx]
  exact if_neg now

end

/-- The pair's grant as both its spindles show it. -/
def grantShown (d : Dev) (n : Fin 4) (grant : Bool) : Dev :=
  (d.modSpn n (fun s => { s with grant := grant })).modSpn (bandMate n) (fun s => { s with grant := grant })

theorem grantShown_get (d : Dev) (n : Fin 4) (grant : Bool) :
    (grantShown d n grant).spn.get n = { d.spn.get n with grant := grant } := by
  rw [grantShown, Dev.modSpn_get_other _ _ (bandMate_ne n).symm, Dev.modSpn_get_same]

/-- A transmission at its sample point is granted or dropped. -/
def grantSampled (n : Fin 4) (grant : Bool) (d : Dev) : Dev :=
  let s := d.spn.get n
  match s.tx with
  | none => d
  | some t =>
    if t.granted ∨ t.ended.isSome ∨ d.whl.time < samplePoint d s t then d
    else if s.cxEn ∧ grant = false then report (dropTx d n .cx) (evSpn n 5) []
    else
      let d := if t.chanDone then d else txsynFail d n t
      d.modSpn n (fun s => { s with tx := s.tx.map (fun t => { t with granted := true }) })

theorem doCxGrantSample_eq (n : Fin 4) (grant : Bool) (d : Dev) :
    doCxGrantSample n grant d = grantSampled n grant (grantShown d n grant) := rfl

section
variable {d : Dev} {n : Fin 4} {t : TxRun} {grant : Bool} (tx : (d.spn.get n).tx = some t) (runs : t.ended = none)
  (open_ : t.granted = false) (due : samplePoint d (d.spn.get n) t ≤ d.whl.time)
include tx runs open_ due

theorem grantSampled_due : grantSampled n grant d =
    if (d.spn.get n).cxEn ∧ grant = false then report (dropTx d n .cx) (evSpn n 5) []
    else (if t.chanDone then d else txsynFail d n t).modSpn n
      (fun s => { s with tx := s.tx.map (fun t => { t with granted := true }) }) := by
  have now : ¬ (t.granted ∨ t.ended.isSome ∨ d.whl.time < samplePoint d (d.spn.get n) t) := by
    simp [open_, runs, Nat.not_lt.2 due]
  rw [grantSampled, tx]
  exact if_neg now

theorem doCxGrantSample_due : doCxGrantSample n grant d =
    if (d.spn.get n).cxEn ∧ grant = false then report (dropTx (grantShown d n grant) n .cx) (evSpn n 5) []
    else (if t.chanDone then grantShown d n grant else txsynFail (grantShown d n grant) n t).modSpn n
      (fun s => { s with tx := s.tx.map (fun t => { t with granted := true }) }) := by
  have shown := grantShown_get d n grant
  have sampled := grantSampled_due (d := grantShown d n grant) (grant := grant) (by rw [shown]; exact tx) runs open_
    (by rw [shown]; exact due)
  rwa [shown, ← doCxGrantSample_eq] at sampled

theorem doCxGrantSample_grants (may : (d.spn.get n).cxEn = false ∨ grant = true) (ready : t.chanDone = true) :
    doCxGrantSample n grant d = (grantShown d n grant).modSpn n
      (fun s => { s with tx := s.tx.map (fun t => { t with granted := true }) }) := by
  have granted : ¬ ((d.spn.get n).cxEn ∧ grant = false) := by rcases may with off | high <;> simp [*]
  rw [doCxGrantSample_due tx runs open_ due, if_neg granted, if_pos ready]

theorem doCxGrantSample_drops (asks : (d.spn.get n).cxEn = true) (low : grant = false) :
    doCxGrantSample n grant d = report (dropTx (grantShown d n grant) n .cx) (evSpn n 5) [] := by
  rw [doCxGrantSample_due tx runs open_ due, if_pos ⟨asks, low⟩]

end

/-- A transmission that coexistence drops leaves its spindle with none, and its cell is counted in SPN_LOST_CX. -/
theorem dropTx_cx {d : Dev} {n : Fin 4} {t : TxRun} (tx : (d.spn.get n).tx = some t) :
    ((dropTx d n .cx).spn.get n).tx = none ∧ ((dropTx d n .cx).spn.get n).lostCx = add32 (d.spn.get n).lostCx 1 := by
  rw [dropTx, tx]
  dsimp only
  rw [Dev.modSpn_get_same, countLost, Dev.modSpn_get_same, loseRecord_spn]
  exact ⟨(Spn.settle_reads Spn.tx _ _ rfl).trans (Spn.syncWires_reads Spn.tx _ rfl),
    (Spn.settle_reads Spn.lostCx _ _ rfl).trans (Spn.syncWires_reads Spn.lostCx _ rfl)⟩

theorem dropTx_phase (d : Dev) (n : Fin 4) (c : Lost) : (dropTx d n c).phase = d.phase :=
  (dropTx_only d n c (l_ := [.spn, .wrp, .ply]) rfl (.refl _ _)).same .phase (by decide)

/-! ## A grant that falls (R108) -/

/-- The grant of spindle `n` falls. -/
def grantFell (d : Dev) (n : Fin 4) : Dev :=
  let d := d.modSpn n (fun s => { s with grant := false })
  let s := d.spn.get n
  match s.tx with
  | some t =>
    if t.granted ∧ t.ended = none ∧ s.cxEn ∧ s.cxAbort then report (abortTx d n .uncounted none) (evSpn n 6) [] else d
  | none => d

theorem doCxGrantFall_eq (pair : Bool) (d : Dev) :
    doCxGrantFall pair d = each (if pair then [2, 3] else [0, 1]) grantFell d := rfl

theorem grantFell_spares (d : Dev) (n : Fin 4) : Spares Spn.asked n d (grantFell d n) := by
  have low : Spares Spn.asked n d (d.modSpn n (fun s => { s with grant := false })) := .modSpn d rfl
  unfold grantFell; dsimp only; split
  · split
    · exact (low.trans (.abortTx ..)).trans (.report ..)
    · exact low
  · exact low

theorem grantFell_whl (d : Dev) (n : Fin 4) : (grantFell d n).whl = d.whl := by
  unfold grantFell; dsimp only; split
  · split
    · exact (report_whl ..).trans
        ((abortTx_only _ n .uncounted none (l_ := [.free, .evt, .spn, .wrp, .ply]) rfl (.refl _ _)).same .whl (by decide))
    · rfl
  · rfl

/-- With CX_ABORT a transmission past its sample point is cut. -/
theorem grantFell_cuts {d : Dev} {n : Fin 4} {t : TxRun} (tx : (d.spn.get n).tx = some t) (runs : t.ended = none)
    (granted : t.granted = true) (asks : (d.spn.get n).cxEn = true) (aborts : (d.spn.get n).cxAbort = true) :
    ((grantFell d n).spn.get n).unmeasured =
      ({ d.spn.get n with grant := false }.cutTx t d.whl.time).unmeasured := by
  have low := d.modSpn_get_same n (fun s => { s with grant := false })
  have cut := abortTx_cut (d := d.modSpn n (fun s => { s with grant := false })) (n := n) (by rw [low]; exact tx) runs granted
    .uncounted none
  rw [low] at cut
  unfold grantFell; dsimp only; rw [low]; dsimp only; rw [tx]; dsimp only
  rw [if_pos ⟨granted, runs, asks, aborts⟩, report_spn]
  exact cut

theorem Spn.cutTx_fields (s : Spn) (t : TxRun) (now : Nat) :
    (s.cutTx t now).tx = some { t with ended := some now, aborted := true } ∧ (s.cutTx t now).txAbort = inc32 s.txAbort
      ∧ (s.cutTx t now).grant = s.grant :=
  ⟨Spn.syncWires_reads Spn.tx _ rfl, Spn.syncWires_reads Spn.txAbort _ rfl, Spn.syncWires_reads Spn.grant _ rfl⟩

theorem pair_spindles (n : Fin 4) : (if is24 n then [2, 3] else [0, 1]) = [n, bandMate n]
    ∨ (if is24 n then [2, 3] else [0, 1]) = [bandMate n, n] := by revert n; decide

/-- The fall of the pair's grant does to a spindle what it does to it alone. -/
theorem doCxGrantFall_get (d : Dev) (n : Fin 4) : ∃ a : Dev, a.spn.get n = d.spn.get n ∧ a.whl = d.whl
    ∧ (doCxGrantFall (is24 n) d).spn.get n = (grantFell a n).spn.get n := by
  rw [doCxGrantFall_eq]
  rcases pair_spindles n with first | second
  · rw [first]
    exact ⟨d, rfl, rfl, (grantFell_spares (grantFell d n) (bandMate n)).others n (bandMate_ne n).symm⟩
  · rw [second]
    exact ⟨grantFell d (bandMate n), (grantFell_spares d (bandMate n)).others n (bandMate_ne n).symm, grantFell_whl .., rfl⟩

/-- Settles O23. -/
theorem coexistence : Obligations.Coexistence := by
  unfold Obligations.Coexistence
  intro s dt n t e x tx runs
  refine ⟨fun open_ due => gives_run rfl ?_, fun grant open_ due => ⟨fun may ready => gives_run rfl ?_,
    fun asks low => gives_run rfl ?_⟩, fun pair band granted asks aborts => gives_run rfl ?_⟩
  · rw [doCxRequest_due tx runs open_ due]
    refine ⟨?_, ?_, ?_, rfl, fun k other => e.modSpn_get_other _ other⟩
    all_goals rw [Dev.modSpn_get_same]
    · exact Spn.syncWires_reads Spn.tx _ rfl
    · exact (Spn.syncWires_cxReq rfl).trans (by simp [x])
    · exact (Spn.syncWires_cxPri rfl).trans (by simp [x])
  · rw [doCxGrantSample_grants tx runs open_ due may ready]
    refine ⟨?_, ?_, ?_, rfl⟩
    · rw [Dev.modSpn_get_same, grantShown_get]
      exact congrArg (Option.map _) tx
    · rw [Dev.modSpn_get_same, grantShown_get]
    · rw [Dev.modSpn_get_other _ _ (bandMate_ne n), grantShown, Dev.modSpn_get_same]
  · rw [doCxGrantSample_drops tx runs open_ due asks low, report_spn]
    have shown := grantShown_get e n grant
    have there : ((grantShown e n grant).spn.get n).tx = some t := by rw [shown]; exact tx
    obtain ⟨gone, lost⟩ := dropTx_cx there
    rw [shown] at lost
    exact ⟨gone, lost, fun fw => report_sticky _ _ _ (by rw [dropTx_phase]; exact fw)⟩
  · subst band
    obtain ⟨a, own, whl, eq⟩ := doCxGrantFall_get e n
    have cut := grantFell_cuts (d := a) (by rw [own]; exact tx) runs granted (by rw [own]; exact asks) (by rw [own]; exact aborts)
    rw [← eq, own, whl] at cut
    obtain ⟨ended, aborted, low⟩ := Spn.cutTx_fields { e.spn.get n with grant := false } t e.whl.time
    exact ⟨(Spn.reads cut Spn.tx rfl).trans ended, (Spn.reads cut Spn.grant rfl).trans low,
      (Spn.reads cut Spn.txAbort rfl).trans aborted⟩

end Sys2Proof.Machine
end

section
/-! PROOFS. The timed sequence of a transmission (O24). -/

namespace Sys2Proof.Machine

/-! ## The steps before the start (R105, R107) -/

theorem loadWord_keeps (d : Dev) (s : Spn) (t : TxRun) :
    (loadWord d s t).step = t.step ∧ (loadWord d s t).released = t.released := by
  unfold loadWord; split <;> exact ⟨rfl, rfl⟩

/-- What a step of the sequence leaves: its spindle carries the transmission one step on, in TX from the power-up. -/
structure Stepped (n : Fin 4) (st : TxStep) (t : TxRun) (a b : Dev) : Prop where
  others : ∀ m, m ≠ n → b.spn.get m = a.spn.get m
  run : ∃ (s : Spn) (u : TxRun), b.spn.get n = s.syncWires ∧ s.tx = some u ∧ u.step = TxStep.num st + 1
    ∧ u.released = t.released ∧ (st = .powerUp → s.mode = .tx)

theorem Stepped.modSpn {a d : Dev} {n : Fin 4} {st : TxStep} {t u : TxRun} {f : Spn → Spn}
    (others : ∀ m, m ≠ n → d.spn.get m = a.spn.get m) (tx : (f (d.spn.get n)).tx = some u) (step : u.step = TxStep.num st + 1)
    (released : u.released = t.released) (mode : st = .powerUp → (f (d.spn.get n)).mode = .tx) :
    Stepped n st t a (d.modSpn n (fun s => (f s).syncWires)) :=
  ⟨fun m other => (d.modSpn_get_other _ other).trans (others m other),
    ⟨f (d.spn.get n), u, d.modSpn_get_same n _, tx, step, released, mode⟩⟩

theorem doTxSequenceStep_steps {d : Dev} {n : Fin 4} {t : TxRun} {st : TxStep} (tx : (d.spn.get n).tx = some t)
    (granted : t.granted = true) (runs : t.ended = none) (here : t.step = TxStep.num st)
    (due : t.ts ≤ d.whl.time + TxStep.lead st (t.rampNs d)) : Stepped n st t d (doTxSequenceStep n st d) := by
  have next : t.step = TxStep.num st ∨ (t.step = 0 ∧ st = .powerUp ∧ (d.spn.get n).mode = .synth) := .inl here
  have now : ¬ (t.granted = false ∨ t.ended.isSome ∨ ¬ (t.step = TxStep.num st ∨ (t.step = 0 ∧ st = .powerUp
      ∧ (d.spn.get n).mode = .synth)) ∨ d.whl.time + TxStep.lead st (t.rampNs d) < t.ts) := by
    simp [granted, runs, next, Nat.not_lt.2 due]
  have cut := (Spares.truncateAll d n).others
  unfold doTxSequenceStep; dsimp only; rw [tx]; dsimp only; rw [if_neg now]
  cases st with
  | blank =>
    obtain ⟨step, released⟩ := loadWord_keeps (truncateAll d n) (d.spn.get n) { t with step := TxStep.num .blank + 1 }
    exact .modSpn (f := fun s => { s with
      tx := some _, mode := .synth, trans := match s.trans with | some (.rx, _) => none | x => x }) cut rfl step released (by simp)
  | powerUp =>
    have late : t.step ≠ 0 := by rw [here]; decide
    dsimp only; rw [if_neg late]
    exact .modSpn (f := fun s => { s with tx := some _, mode := .tx, trans := none }) cut rfl rfl rfl fun _ => rfl
  | bias | trsw | ramp =>
    exact .modSpn (f := fun s => { s with tx := some _ }) (fun _ _ => rfl) rfl rfl rfl (by simp)

/-! ## Start and end (R106, R116, R150, R151) -/

section
variable {d : Dev} {n : Fin 4} {t : TxRun} (tx : (d.spn.get n).tx = some t) (runs : t.ended = none)
include tx runs

theorem doTxStart_due (here : t.step = 5) (open_ : t.started = false) (due : t.ts ≤ d.radioNow) : ∃ wave, doTxStart n d =
    (d.modSpn n (fun s => { s with tx := some { t with started := true, level := txLevelNow d (d.spn.get n) t } })).emit
      (.air n.val t.kind t.profile t.chan (txLevelNow d (d.spn.get n) t) t.word wave) := by
  have now : ¬ (t.step ≠ 5 ∨ t.started ∨ t.ended.isSome ∨ d.radioNow < t.ts) := by
    simp [here, open_, runs, Nat.not_lt.2 due]
  rw [doTxStart, tx]
  exact ⟨_, if_neg now⟩

theorem doTxEnd_going (going : t.started = true) (rl : Nat) : doTxEnd n rl d =
    maskWatch ((measureRl (endRecord (d.modSpn n (fun s => { s with tx := some { t with ended := some d.whl.time } })) t.kind) n
      (some rl)).modSpn n (fun s => s.pushMask t.margin)) n := by
  have now : ¬ (t.started = false ∨ t.ended.isSome) := by simp [going, runs]
  rw [doTxEnd, tx]
  exact if_neg now

end

@[simp] theorem endRecord_spn (d : Dev) (k : AirKind) : (endRecord d k).spn = d.spn := by cases k <;> rfl

theorem measureRl_get (d : Dev) (n : Fin 4) (rl : Nat) : (measureRl d n (some rl)).spn.get n =
    Spn.tuneCount { d.spn.get n with rlLast := rl, rls := (rl :: (d.spn.get n).rls).take 8 } := by
  show ((pushRl d n rl).modSpn n Spn.tuneCount).spn.get n = _
  rw [Dev.modSpn_get_same, pushRl_spn, Dev.modSpn_get_same]

/-- What is read of a spindle beside its tuner outlasts the count of a transmission. -/
theorem Spn.tuneCount_reads {α : Type} (g : Spn → α) (s : Spn)
    (only : g ∘ Spn.untuned = g) : g s.tuneCount = g s := reads (tuneCount_untuned s) g only

section
variable {d : Dev} {n : Fin 4} {t : TxRun} (tx : (d.spn.get n).tx = some t) (runs : t.ended = none) (going : t.started = true)
include tx runs going

theorem doTxEnd_get (rl : Nat) : (doTxEnd n rl d).spn.get n = (Spn.tuneCount { d.spn.get n with
    tx := some { t with ended := some d.whl.time }, rlLast := rl, rls := (rl :: (d.spn.get n).rls).take 8 }).pushMask t.margin := by
  rw [doTxEnd_going tx runs going, maskWatch_spn]
  simp only [Dev.modSpn_get_same, measureRl_get, endRecord_spn]

theorem doTxEnd_others (rl : Nat) {m : Fin 4} (other : m ≠ n) : (doTxEnd n rl d).spn.get m = d.spn.get m := by
  rw [doTxEnd_going tx runs going, maskWatch_spn, Dev.modSpn_get_other _ _ other,
    (Spares.measureRl _ n _).others m other, endRecord_spn, Dev.modSpn_get_other _ _ other]

end

/-! ## The release (R106, R107) -/

/-- A spindle that leaves TX as its PA is turned off. -/
def Spn.leaveTx (s : Spn) : Spn := { s with mode := if s.mode = SpnMode.tx then SpnMode.synth else s.mode }

/-- A spindle whose PA has been turned off: the transmission is over where the spindle does not return to RX. -/
def Spn.releaseBias (t : TxRun) (now : Nat) (s : Spn) : Spn :=
  if s.leaveTx.mayReceive then { s.leaveTx with tx := some { t with released := t.released + 1 } }.syncWires
  else ({ s.leaveTx with tx := none }.settle now).syncWires

/-- A spindle whose transmission is over, back in RX where nothing keeps it in SYNTH. -/
def Spn.releaseRx (n : Fin 4) (now : Nat) (s : Spn) : Spn :=
  let rx := s.mode == SpnMode.synth && s.mayReceive
  let s := { s with tx := none, mode := if rx then SpnMode.rx else s.mode }
  let s := if rx then s.unblank n now else s
  (s.settle now).syncWires

/-- A spindle after a release step of transmission `t`. -/
def Spn.release (n : Fin 4) (t : TxRun) (now : Nat) (st : TxRelease) (s : Spn) : Spn :=
  match st with
  | .trsw => { s with tx := some { t with released := t.released + 1 } }.syncWires
  | .bias => s.releaseBias t now
  | .rx => s.releaseRx n now

/-- A release step whose place and delay have come is taken. -/
theorem doTxReleaseStep_due {d : Dev} {n : Fin 4} {t : TxRun} {te : Nat} {st : TxRelease} (tx : (d.spn.get n).tx = some t)
    (ended : t.ended = some te) (here : t.released = TxRelease.num st)
    (due : te + TxRelease.delay st (t.rampNs d) ≤ d.whl.time) :
    doTxReleaseStep n st d = d.modSpn n (Spn.release n t d.whl.time st) := by
  have now : ¬ (t.released ≠ TxRelease.num st ∨ d.whl.time < te + TxRelease.delay st (t.rampNs d)) := by
    simp [here, Nat.not_lt.2 due]
  rw [doTxReleaseStep, tx]
  dsimp only
  split
  next going => rw [ended] at going; cases going
  next u ends =>
    cases ended.symm.trans ends
    rw [if_neg now]
    cases st <;> rfl

theorem Spn.releaseBias_wires {t : TxRun} (now : Nat) (s : Spn) (here : t.released = 1) :
    (s.releaseBias t now).paBias = false ∧ (s.releaseBias t now).cxReq = false := by
  unfold releaseBias; split
  · exact ⟨(syncWires_paBias rfl).trans (by simp [here]), (syncWires_cxReq rfl).trans (by simp [here])⟩
  · exact syncWires_idle (settle_reads Spn.tx _ _ rfl)

theorem Spn.releaseBias_mode (t : TxRun) (now : Nat) {s : Spn} (on : s.mode = .tx) : (s.releaseBias t now).mode = .synth := by
  have left : s.leaveTx.mode = .synth := if_pos on
  unfold releaseBias; split
  · exact (syncWires_reads Spn.mode _ rfl).trans left
  · exact (settled_reads Spn.mode _ _ rfl).trans left

theorem Spn.releaseRx_tx (n : Fin 4) (now : Nat) (s : Spn) : (s.releaseRx n now).tx = none := by
  unfold releaseRx; dsimp only
  refine (settled_reads Spn.tx _ _ rfl).trans ?_
  split <;> rfl

theorem Spn.releaseRx_mode (n : Fin 4) (now : Nat) {s : Spn} (synth : s.mode = .synth) (may : s.mayReceive = true) :
    (s.releaseRx n now).mode = .rx := by
  unfold releaseRx; dsimp only
  refine (settled_reads Spn.mode _ _ rfl).trans ?_
  simp [synth, may, unblank]

/-- Settles O24. -/
theorem transmitSequence : Obligations.TransmitSequence := by
  unfold Obligations.TransmitSequence
  intro s dt n t e x tx
  refine ⟨fun st granted runs here fresh due => gives_run rfl ?_, fun here open_ runs due => gives_run rfl ?_,
    fun rl going runs => gives_run rfl ?_, fun te ended => ⟨fun here due => gives_run rfl ?_, fun here due => gives_run rfl ?_,
    fun here due => gives_run rfl ?_⟩⟩
  · obtain ⟨others, y, u, own, carries, step, released, mode⟩ := doTxSequenceStep_steps tx granted runs here due
    rw [fresh] at released
    rw [own, Spn.syncWires_reads Spn.tx _ rfl, Spn.syncWires_reads Spn.mode _ rfl, Spn.syncWires_paBias carries,
      Spn.syncWires_trsw carries, carries, step, released]
    refine ⟨?_, mode, ?_, ?_, others⟩
    · exact congrArg some step
    · rintro rfl; rfl
    · rintro rfl; rfl
  · obtain ⟨wave, eq⟩ := doTxStart_due tx runs here open_ due
    rw [eq, Dev.emit_spn, Dev.modSpn_get_same]
    exact ⟨rfl, ⟨wave, rfl⟩, fun m other => e.modSpn_get_other _ other⟩
  · rw [doTxEnd_get tx runs going]
    exact ⟨Spn.tuneCount_reads Spn.tx _ rfl, Spn.tuneCount_reads Spn.rlLast _ rfl, Spn.tuneCount_reads Spn.rls _ rfl, rfl,
      fun m other => doTxEnd_others tx runs going rl other⟩
  · rw [doTxReleaseStep_due (st := .trsw) tx ended here due]
    refine ⟨?_, ?_, rfl, fun m other => e.modSpn_get_other _ other⟩
    all_goals rw [Dev.modSpn_get_same]
    · rw [Spn.release, Spn.syncWires_reads Spn.tx _ rfl, here]
    · exact (Spn.syncWires_trsw rfl).trans (by simp)
  · rw [doTxReleaseStep_due (st := .bias) tx ended here due, Dev.modSpn_get_same]
    obtain ⟨bias, asks⟩ := Spn.releaseBias_wires e.whl.time x here
    exact ⟨bias, asks, Spn.releaseBias_mode t _, rfl, fun m other => e.modSpn_get_other _ other⟩
  · rw [doTxReleaseStep_due (st := .rx) tx ended here due, Dev.modSpn_get_same]
    exact ⟨Spn.releaseRx_tx .., Spn.releaseRx_mode n _, rfl, fun m other => e.modSpn_get_other _ other⟩

end Sys2Proof.Machine
end

section
/-! PROOFS. Reflection, mask and tuner (O25). -/

namespace Sys2Proof.Machine

theorem TxRun.judged_running {t : TxRun} (going : t.started = true) (runs : t.ended = none) (now : Nat) :
    t.judged now = true := by
  simp [judged, going, runs]

theorem abortTx_phase (d : Dev) (n : Fin 4) (c : Lost) (rl : Option Nat) : (abortTx d n c rl).phase = d.phase :=
  (abortTx_only d n c rl (l_ := [.free, .evt, .spn, .wrp, .ply]) rfl (.refl _ _)).same .phase (by decide)

/-- A transmission `u` that takes the place of the one under way, and is then cut. -/
theorem abortTx_replaced {d : Dev} {n : Fin 4} {u : TxRun} (runs : u.ended = none) (granted : u.granted = true) (c : Lost)
    (rl : Option Nat) : let b := d.modSpn n (fun s => { s with tx := some u })
      ((abortTx b n c rl).spn.get n).tx = some { u with ended := some d.whl.time, aborted := true }
      ∧ ((abortTx b n c rl).spn.get n).txAbort = inc32 (d.spn.get n).txAbort
      ∧ ∀ m, m ≠ n → (abortTx b n c rl).spn.get m = d.spn.get m := by
  intro b
  have here : b.spn.get n = { d.spn.get n with tx := some u } := d.modSpn_get_same n _
  have tx : (b.spn.get n).tx = some u := by rw [here]
  have cut := abortTx_cut tx runs granted c rl
  rw [here] at cut
  obtain ⟨ended, aborted, -⟩ := Spn.cutTx_fields { d.spn.get n with tx := some u } u b.whl.time
  exact ⟨(Spn.reads cut Spn.tx rfl).trans ended, (Spn.reads cut Spn.txAbort rfl).trans aborted,
    fun m other => (abortTx_others tx runs granted c rl other).trans (d.modSpn_get_other _ other)⟩

/-! ## Reflection (R118) -/

/-- The device with the return loss of transmission `t` of spindle `n` judged. -/
def judgedTx (d : Dev) (n : Fin 4) (t : TxRun) : Dev := d.modSpn n (fun s => { s with tx := some { t with checked := true } })

section
variable {d : Dev} {n : Fin 4} {t : TxRun} {rl : Nat} (tx : (d.spn.get n).tx = some t) (going : t.started = true)
  (runs : t.ended = none) (once : t.checked = false) (due : t.ts + 20000 ≤ d.whl.time)
include tx going runs once due

theorem doReflectionCheck_due : doReflectionCheck n rl d =
    if t.retry ∧ 95 ≤ rl then
      (judgedTx d n t).modSpn n (fun s => { s with inhibit := false, retryAt := none, retryOpen := false })
    else if rl < 60 ∨ t.retry then
      let b := (abortTx (judgedTx d n t) n .uncounted (some rl)).modSpn n (fun s =>
        { s with inhibit := true, retryAt := some (d.whl.time + 60000000000), retryOpen := false })
      if rl < 60 then report b (evSpn n 4) [] else b
    else judgedTx d n t := by
  have now : ¬ (t.judged d.whl.time = false ∨ t.checked ∨ d.whl.time < t.ts + 20000) := by
    simp [TxRun.judged_running going runs, once, Nat.not_lt.2 due]
  rw [doReflectionCheck, tx]
  exact if_neg now

theorem doReflectionCheck_clears (retry : t.retry = true) (good : 95 ≤ rl) : doReflectionCheck n rl d =
    d.modSpn n (fun s => { s with tx := some { t with checked := true }, inhibit := false, retryAt := none, retryOpen := false }) := by
  rw [doReflectionCheck_due tx going runs once due, if_pos ⟨retry, good⟩, judgedTx, Dev.modSpn_modSpn]

theorem doReflectionCheck_inhibits (poor : rl < 60) : doReflectionCheck n rl d =
    report ((abortTx (judgedTx d n t) n .uncounted (some rl)).modSpn n (fun s =>
      { s with inhibit := true, retryAt := some (d.whl.time + 60000000000), retryOpen := false })) (evSpn n 4) [] := by
  rw [doReflectionCheck_due tx going runs once due, if_neg (by omega), if_pos (.inl poor)]
  exact if_pos poor

end

theorem doInhibitRetry_due {d : Dev} {n : Fin 4} {r : Nat} (at_ : (d.spn.get n).retryAt = some r)
    (inhibited : (d.spn.get n).inhibit = true) (may : (d.spn.get n).inhRetry = true) (due : r ≤ d.whl.time) :
    doInhibitRetry n d = d.modSpn n (fun s => { s with retryAt := none, retryOpen := true }) := by
  rw [doInhibitRetry, at_]
  exact if_pos ⟨inhibited, may, due⟩

/-! ## The spectral mask (R151) -/

/-- Margins to the mask of a profile, at its points in order. -/
def maskMargins (d : Dev) (profile : Nat) (levels : List Int) : List Int :=
  List.zipWith (fun (p : Int × Int) l => p.2 - l) (maskPoints d profile) levels

/-- The points beyond their limits. -/
def breached (margins : List Int) : List Nat := (List.range margins.length).filter (fun i => decide (margins.getD i 0 < 0))

/-- A transmission once its latest block has been measured. -/
def TxRun.measured (t : TxRun) (margins : List Int) (block : Nat) : TxRun :=
  { t with margin := margins.foldl (fun m x => min m (x.toNat / 5)) t.margin, blocks := block, breach := breached margins }

section
variable {d : Dev} {n : Fin 4} {t : TxRun} (levels : List Int) (tx : (d.spn.get n).tx = some t) (going : t.started = true)
  (runs : t.ended = none) (fresh : t.blocks < (d.whl.time - t.ts) / 100000)
include tx going runs fresh

theorem doMaskBlockCheck_due : doMaskBlockCheck n levels d =
    let u := t.measured (maskMargins d t.profile levels) ((d.whl.time - t.ts) / 100000)
    let b := d.modSpn n (fun s => { s with tx := some u })
    if u.blocks == t.blocks + 1 && u.breach.any (fun i => t.breach.contains i)
    then report (abortTx b n .uncounted none) (evSpn n 16) [] else b := by
  have now : ¬ (t.judged d.whl.time = false ∨ (d.whl.time - t.ts) / 100000 ≤ t.blocks) := by
    simp [TxRun.judged_running going runs, Nat.not_le.2 fresh]
  rw [doMaskBlockCheck, tx]
  exact if_neg now

end

theorem doReceiveIdle_written {d : Dev} {n : Fin 4} {cs cp : Nat} (idle : receiveIdle d (d.spn.get n) = true)
    (written : (d.spn.get n).tuneWrite = some (cs, cp)) : doReceiveIdle n d =
      d.modSpn n (fun s => { s with cs := cs, cp := cp, tuneWrite := none, tuneRevert := none, tuneTrial := none }) := by
  unfold doReceiveIdle; dsimp only
  rw [if_neg (by simp [idle]), written]

/-- Settles O25: what is judged in a transmission goes with it where it is cut (`abortTx_replaced`). -/
theorem reflectionMaskAndTuner : Obligations.ReflectionMaskAndTuner := by
  unfold Obligations.ReflectionMaskAndTuner
  intro s dt n e x
  refine ⟨fun t rl tx going granted runs once due => ⟨fun retry good => gives_run rfl ?_, fun poor fw => gives_run rfl ?_⟩,
    fun r at_ inhibited may due => gives_run rfl ?_, fun t levels tx going runs granted fresh =>
    ⟨fun apart => gives_run rfl ?_, fun next again => gives_run rfl ?_⟩, fun cs cp idle written => gives_run rfl ?_⟩
  · rw [doReflectionCheck_clears tx going runs once due retry good]
    rfl
  · rw [doReflectionCheck_inhibits tx going runs once due poor, report_spn, Dev.modSpn_get_same]
    obtain ⟨cut, -, others⟩ := abortTx_replaced (d := e) (n := n) (u := { t with checked := true }) runs granted .uncounted (some rl)
    refine ⟨rfl, rfl, congrArg (Option.map TxRun.aborted) cut, report_sticky _ _ _ ?_,
      fun m other => (Dev.modSpn_get_other _ _ other).trans (others m other)⟩
    rw [Dev.modSpn_phase, abortTx_phase]
    exact fw
  · exact doInhibitRetry_due at_ inhibited may due
  · rw [doMaskBlockCheck_due levels tx going runs fresh]
    dsimp only
    rw [if_neg ?_]
    · exact ⟨by rw [Dev.modSpn_get_same]; exact congrArg (fun o => some (_, o)) runs, rfl⟩
    · intro both
      obtain ⟨next, again⟩ := Bool.and_eq_true_iff.1 both
      rcases apart with later | other
      · exact later (beq_iff_eq.1 next)
      · exact Bool.false_ne_true (other.symm.trans again)
  · rw [doMaskBlockCheck_due levels tx going runs fresh]
    dsimp only
    rw [if_pos ?_, report_spn]
    · obtain ⟨cut, count, -⟩ := abortTx_replaced (d := e) (n := n)
        (u := t.measured (maskMargins e t.profile levels) ((e.whl.time - t.ts) / 100000)) runs granted .uncounted none
      exact ⟨congrArg (Option.map fun u => (u.breach, u.ended, u.aborted)) cut, count⟩
    · exact Bool.and_eq_true_iff.2 ⟨beq_iff_eq.2 next, again⟩
  · exact doReceiveIdle_written idle written

end Sys2Proof.Machine
end

section
/-! PROOFS. Reception of a frame (O26). -/

namespace Sys2Proof.Machine

/-! ## The preamble (R141 to R143) -/

/-- The frame that begins now on binding `c` of spindle `n`. -/
def RxRun.begun (d : Dev) (n : Fin 4) (c : Bind) (p : Profile) (rssi snr foff : Int) (coded : Bool) : RxRun :=
  { ts := d.radioNow, rssi := rssi, snr := snr, foff := foff, profile := c.profile, chan := c.chan,
    coded := coded && decide (p.wave ≤ 3), nco := (d.spn.get n).nco p c.chan, slot := d.whl.slot, cells := (d.spn.get n).nowRx }

/-- A spindle on which a frame has begun in demodulator `b`. -/
def Spn.begin (s : Spn) (b : Nat) (r : RxRun) (now : Nat) : Spn := { s with lastPreamble := some now, demods := kput s.demods b r }

/-- A frame found on an idle demodulator in RX, whose binding is enabled and settled, is declared. -/
theorem doPreambleDetect_idle {d : Dev} {n : Fin 4} {b : Fin 16} {c : Bind} {p : Profile} {corr : Nat} {rssi snr foff : Int}
    (coded : Bool) (rx : (d.spn.get n).mode = .rx) (idle : kfind (d.spn.get n).demods b.val = none)
    (bound : kgetD (d.spn.get n).bindsEff b.val {} = c) (en : c.en = true) (prof : d.region.profile? c.profile = some p)
    (strong : p.thresh ≤ corr) (near : foff.natAbs ≤ 60000)
    (settled : kgetD (d.spn.get n).bindFrom b.val 0 + p.corrNs ≤ d.whl.time)
    (valid : (d.spn.get n).validFrom + p.corrNs ≤ d.whl.time) :
    doPreambleDetect n b corr rssi snr foff coded d =
      d.modSpn n (fun s => s.begin b.val (.begun d n c p rssi snr foff coded) d.whl.time) := by
  subst bound
  have declared : ¬ ((d.spn.get n).mode ≠ .rx
      ∨ ((none : Option RxRun).isSome || ((kgetD (d.spn.get n).bindsEff b.val {}).en
          && decide (kgetD (d.spn.get n).bindFrom b.val 0 + p.corrNs ≤ d.whl.time))) = false
      ∨ corr < p.thresh ∨ 60000 < foff.natAbs ∨ d.whl.time < (d.spn.get n).validFrom + p.corrNs) := by
    simp [rx, en, settled, strong, near, valid]
  unfold doPreambleDetect
  simp only [idle, prof]
  rw [if_neg declared, Dev.modSpn_modSpn]
  rfl

/-! ## The frame store (R144, R145) -/

/-- The frame store takes a descriptor, counted under its status. -/
def Spn.keep (x : Descriptor) (s : Spn) : Spn :=
  { s.countRx x.status with
    store := (s.countRx x.status).store ++ [x],
    errs := ((x.status == 1 || x.status == 2 || x.status == 7) :: (s.countRx x.status).errs).take 256 }

@[simp] theorem errWatch_spn (d : Dev) (n : Fin 4) : (errWatch d n).spn = d.spn := watch_spn ..

/-- A descriptor of the present slot or a later one waits in a frame store that has room for it. -/
theorem deliver_kept {d : Dev} {n : Fin 4} {x : Descriptor} (room : (d.spn.get n).storeUsed + x.room ≤ 65536)
    (slot : d.whl.slot ≤ x.slot) : deliver d n x = errWatch (d.modSpn n (·.keep x)) n := by
  have here : ¬ x.slot < (errWatch (d.modSpn n (·.keep x)) n).whl.slot := by
    rw [errWatch, watch_whl, Dev.modSpn_whl]; omega
  exact (if_pos room).trans (if_neg here)

/-! ## The end of a frame in progress -/

/-- A spindle with demodulator `b` idle, but for the binding change that waited for that. -/
theorem Dev.endRun_get (d : Dev) (n : Fin 4) (b : Nat) : ∃ eff from_ due, (d.endRun n b).spn.get n =
    { d.spn.get n with demods := kdel (d.spn.get n).demods b, bindsEff := eff, bindFrom := from_, bindDue := due } := by
  rw [Dev.endRun, Dev.modSpn_get_same]
  dsimp only
  split <;> exact ⟨_, _, _, rfl⟩

/-- The room that a frame had reserved is given back at its end. -/
theorem Dev.endRun_storeUsed (d : Dev) (n : Fin 4) (b : Nat) :
    ((d.endRun n b).spn.get n).storeUsed ≤ (d.spn.get n).storeUsed := by
  obtain ⟨eff, from_, due, own⟩ := d.endRun_get n b
  have fewer : ((kdel (d.spn.get n).demods b).map (fun p => p.2.room)).sum ≤ ((d.spn.get n).demods.map (fun p => p.2.room)).sum :=
    (List.filter_sublist.map _).sum_le_sum (by simp)
  rw [own]
  exact Nat.add_le_add_left fewer _

/-- What a spindle holds of demodulator `b`: the frame in progress, the descriptors that wait, and the counts of good and of
over-long frames. -/
def Spn.reception (b : Nat) (s : Spn) : Option RxRun × List Descriptor × Nat × Nat := (kfind s.demods b, s.store, s.rxOk, s.rxLong)

/-- What a spindle with its demodulator idle holds once descriptor `x` waits and is counted. -/
def Spn.received (x : Descriptor) (s : Spn) : Option RxRun × List Descriptor × Nat × Nat :=
  (none, s.store ++ [x], if x.status = 0 then inc32 s.rxOk else s.rxOk, if x.status = 6 then inc32 s.rxLong else s.rxLong)

theorem Spn.keep_reception {b : Nat} {s : Spn} (x : Descriptor) (idle : kfind s.demods b = none) :
    (s.keep x).reception b = s.received x := by
  unfold keep countRx
  split <;> simp_all [reception, received]

/-- A frame that the store took ends: its demodulator is idle, and its descriptor waits and is counted. -/
theorem endRun_reception {d : Dev} {n : Fin 4} {b : Nat} {r : RxRun} {x : Descriptor} (whole : r.dropped = false)
    (room : (d.spn.get n).storeUsed + x.room ≤ 65536) (slot : d.whl.slot ≤ x.slot) :
    ((endRun d n b r x).spn.get n).reception b = (d.spn.get n).received x := by
  have fits : ((d.endRun n b).spn.get n).storeUsed + x.room ≤ 65536 :=
    (Nat.add_le_add_right (d.endRun_storeUsed n b) _).trans room
  have taken : endRun d n b r x = errWatch ((d.endRun n b).modSpn n (·.keep x)) n :=
    (if_neg (by simp [whole])).trans (deliver_kept fits slot)
  obtain ⟨eff, from_, due, own⟩ := d.endRun_get n b
  have idle : kfind ((d.endRun n b).spn.get n).demods b = none := by rw [own, kfind_kdel_same]
  rw [taken, errWatch_spn, Dev.modSpn_get_same, Spn.keep_reception x idle, own]
  rfl

theorem Spares.endFrame (d : Dev) (n : Fin 4) (b : Nat) (r : RxRun) (x : Descriptor) :
    Spares Spn.deaf n d (Machine.endRun d n b r x) := by
  unfold Machine.endRun; dsimp only; split
  · exact .endRun d n b
  · exact (Spares.endRun d n b).trans (.deliver ..)

/-- The end of a frame changes nothing of another spindle, of the whorl, the array or the key store. -/
theorem endRun_elsewhere (d : Dev) (n : Fin 4) (b : Nat) (r : RxRun) (x : Descriptor) :
    (∀ m, m ≠ n → (endRun d n b r x).spn.get m = d.spn.get m) ∧ (endRun d n b r x).whl = d.whl
      ∧ (endRun d n b r x).pra = d.pra ∧ (endRun d n b r x).dst = d.dst :=
  have only := endRun_only d n b r x (l_ := [.start, .evt, .spn, .bob]) rfl (.refl _ _)
  ⟨(Spares.endFrame ..).others, only.same .whl (by decide), only.same .pra (by decide), only.same .dst (by decide)⟩

/-! ## Header, end, and a frame too long (R131, R139, R144) -/

section
variable {d : Dev} {n : Fin 4} {b : Fin 16} {r : RxRun} (heard : (d.spn.get n).silenced = false)
  (run : kfind (d.spn.get n).demods b.val = some r)
include heard run

section
variable {p : Profile} (prof : d.region.profile? r.profile = some p)
include prof

theorem doHeaderDecode_length {hdr : RxHeader} {len fixed : Nat} (fresh : r.len = none)
    (good : readHeader p.wave hdr = .inl (len, fixed)) (room : (d.spn.get n).storeUsed + 32 + len ≤ 65536) :
    doHeaderDecode n b hdr d = d.modSpn n (fun s =>
      { s with demods := kput s.demods b.val { r with len := some len, fixed := fixed, room := 32 + len } }) := by
  unfold doHeaderDecode
  simp only [run, prof, fresh, heard, good]
  exact (if_neg (by simp)).trans (if_neg (Nat.not_lt.2 room))

theorem doHeaderDecode_ends {hdr : RxHeader} {st : Nat} (fresh : r.len = none) (bad : readHeader p.wave hdr = .inr st) :
    doHeaderDecode n b hdr d = endRun d n b.val r (r.stub b.val st d.radioNow) := by
  unfold doHeaderDecode
  simp only [run, prof, fresh, heard, bad]
  exact if_neg (by simp)

end

theorem doFrameTooLong_cuts (long : r.tooLong d.region = true) :
    doFrameTooLong n b d = endRun d n b.val r (r.stub b.val 6 d.radioNow) := by
  unfold doFrameTooLong
  simp only [run]
  exact if_pos ⟨long, heard⟩

end

theorem frameOutcome_status (wave len : Nat) (octs : List Byte) (corrected : Nat) (fcsOk : Bool) :
    (frameOutcome wave len octs corrected fcsOk).1 ≠ 6 := by
  unfold frameOutcome
  repeat' split
  all_goals simp

/-- The outcome of frame `r` of length `len`: bit errors are corrected only where it was coded. -/
def RxRun.outcome (r : RxRun) (wave len : Nat) (octs : List Byte) (corrected : Nat) (fcsOk : Bool) : Nat × Nat × List Byte :=
  frameOutcome wave len octs (if r.coded then corrected else 0) fcsOk

/-- The descriptor of a frame whose outcome is `o`. -/
def RxRun.descriptor (r : RxRun) (b : Nat) (o : Nat × Nat × List Byte) (now : Nat) : Descriptor :=
  { r.stub b o.1 now with corr := r.fixed + o.2.1, payload := if o.1 = 0 then o.2.2 else [] }

/-- The offset of a good frame counts for the trim, and its acknowledgement begins (R149, R167). -/
def takeGood (d : Dev) (n : Fin 4) (r : RxRun) (x : Descriptor) : Dev :=
  beginAck (d.modSpn n (fun s => { s with foffs := if s.trimEn then (r.foff :: s.foffs).take 256 else s.foffs })) n x

/-- An acknowledgement that begins, or is lost to an inhibited spindle, changes nothing that has been received. -/
theorem Spares.beginAck (d : Dev) (n : Fin 4) (x : Descriptor) (b : Nat) :
    Spares (Spn.reception b) n d (Machine.beginAck d n x) := by
  unfold Machine.beginAck
  refine iteInduction (motive := Spares (Spn.reception b) n d) (fun _ => ?_) fun _ => .refl d
  refine iteInduction (motive := Spares (Spn.reception b) n d) (fun _ => ?_) fun _ => .modSpn d rfl
  exact .modSpn (f := fun s => { s with lostInhibit := add32 s.lostInhibit 1 }) d rfl

theorem Spares.takeGood (d : Dev) (n : Fin 4) (r : RxRun) (x : Descriptor) (b : Nat) :
    Spares (Spn.reception b) n d (Machine.takeGood d n r x) := (Spares.modSpn d rfl).trans (.beginAck ..)

section
variable {d : Dev} {n : Fin 4} {b : Fin 16} {r : RxRun} {p : Profile} {len : Nat} (octs : List Byte) (corrected : Nat)
  (fcsOk : Bool) (heard : (d.spn.get n).silenced = false) (run : kfind (d.spn.get n).demods b.val = some r)
  (known : r.len = some len) (prof : d.region.profile? r.profile = some p) (whole : r.dropped = false)
  (short : r.tooLong d.region = false)
include heard run known prof whole short

theorem doFrameEnd_whole : let o := r.outcome p.wave len octs corrected fcsOk
    let x := r.descriptor b.val o d.radioNow
    doFrameEnd n b octs corrected fcsOk d =
      if o.1 = 0 then takeGood (endRun d n b.val r x) n r x else endRun d n b.val r x := by
  have other := frameOutcome_status p.wave len octs (if r.coded then corrected else 0) fcsOk
  unfold doFrameEnd
  simp only [run, known, prof, short, heard, whole, Bool.false_eq_true, if_false, other]
  rfl

theorem doFrameEnd_received : let x := r.descriptor b.val (r.outcome p.wave len octs corrected fcsOk) d.radioNow
    (d.spn.get n).storeUsed + x.room ≤ 65536 → d.whl.slot ≤ x.slot →
    ((doFrameEnd n b octs corrected fcsOk d).spn.get n).reception b.val = (d.spn.get n).received x
      ∧ ∀ m, m ≠ n → (doFrameEnd n b octs corrected fcsOk d).spn.get m = d.spn.get m := by
  intro x room slot
  have ended := endRun_reception (b := b.val) whole room slot
  have others := (Spares.endFrame d n b.val r x).others
  rw [doFrameEnd_whole octs corrected fcsOk heard run known prof whole short]
  split
  · have good := Spares.takeGood (endRun d n b.val r x) n r x b.val
    exact ⟨good.same.trans ended, fun m other => (good.others m other).trans (others m other)⟩
  · exact ⟨ended, others⟩

end

/-- Settles O26: a frame that ends leaves its descriptor in the store (`endRun_reception`), and what a good frame does besides
changes nothing that has been received (`Spares.takeGood`). -/
theorem frameReception : Obligations.FrameReception := by
  unfold Obligations.FrameReception
  intro s dt n b e x rest
  refine ⟨fun c p corr rssi snr foff coded rx idle bound en prof strong near settled valid => gives_run rfl ?_,
    fun heard r p hdr run fresh prof => ⟨fun len fixed good room => gives_run rfl ?_,
      fun st bad whole room slot => gives_run rfl ?_⟩,
    fun heard r p len run known prof whole slot => ⟨fun octs corrected fcsOk short room => gives_run rfl ?_,
      fun long room => gives_run rfl ?_⟩⟩
  · rw [doPreambleDetect_idle coded rx idle bound en prof strong near settled valid, Dev.modSpn_get_same]
    refine ⟨?_, rfl, rfl, fun m other => e.modSpn_get_other _ other, rfl, rfl, rfl⟩
    rw [Spn.begin, kfind_kput_same]
    rfl
  · rw [doHeaderDecode_length heard run prof fresh good room, Dev.modSpn_get_same]
    exact ⟨kfind_kput_same .., rfl, fun m other => e.modSpn_get_other _ other, rfl, rfl, rfl⟩
  · rw [doHeaderDecode_ends heard run prof fresh bad]
    have ended := endRun_reception (x := r.stub b.val st e.radioNow) (b := b.val) whole room slot
    exact ⟨congrArg (·.1) ended, congrArg (·.2.1) ended, endRun_elsewhere ..⟩
  · obtain ⟨received, others⟩ := doFrameEnd_received octs corrected fcsOk heard run known prof whole short room slot
    have only := doFrameEnd_only n b octs corrected fcsOk e (l_ := [.start, .evt, .spn, .wrp, .bob]) rfl (.refl _ _)
    exact ⟨congrArg (·.1) received, congrArg (·.2.1) received, congrArg (·.2.2.1) received, others,
      only.same .whl (by decide), only.same .pra (by decide), only.same .dst (by decide)⟩
  · rw [doFrameTooLong_cuts heard run long]
    have ended := endRun_reception (x := r.stub b.val 6 e.radioNow) (b := b.val) whole room slot
    exact ⟨congrArg (·.1) ended, congrArg (·.2.1) ended, congrArg (·.2.2.2) ended, endRun_elsewhere ..⟩

end Sys2Proof.Machine
end

section
/-! PROOFS. What the firmware does with received frames (O27). -/

namespace Sys2Proof.Machine

/-! ## A packet that enters the shuttle takes back nothing that was sent -/

theorem Only.out_prefix {l : List Part} {a b : Dev} (h : Only l a b) (keeps : Part.out ∉ l) : a.out <+: b.out :=
  (h.same .out keeps : b.out = a.out) ▸ List.prefix_rfl

theorem enterQueue_out (d : Dev) (inPort : Port) (inClass : Nat) (p : Port) (c : Nat) (k : Packet) (node : Option Nat) :
    d.out <+: (enterQueue d inPort inClass p c k node).out := by
  unfold enterQueue; dsimp only; split
  · split
    · simp [dropBuf, Dev.shtCount]
    · exact List.prefix_rfl
  · refine .trans ?_ (bufEval_out _)
    repeat' split
    all_goals simp

theorem forwardFit_out (d : Dev) (inPort : Port) (inClass : Nat) (p : Port) (c : Nat) (node : Option Nat) (k : Packet) :
    d.out <+: (forwardFit d inPort inClass p c node k).out := by
  unfold forwardFit
  cases p with
  | bh0 | bh1 | plk | cpu => exact enterQueue_out ..
  | mesh =>
    cases node with
    | none => exact List.prefix_rfl
    | some n =>
      refine iteInduction (motive := fun e : Dev => d.out <+: e.out) (fun _ => ?_) fun _ => List.prefix_rfl
      exact iteInduction (motive := fun e : Dev => d.out <+: e.out) (fun _ => List.prefix_rfl) fun _ => enterQueue_out ..

theorem forward_out (d : Dev) (inPort : Port) (inClass : Nat) (p : Port) (c : Nat) (k : Packet) (node : Option Nat) :
    d.out <+: (forward d inPort inClass p c k node).out := by
  unfold forward; dsimp only
  generalize (if inPort != p && p != .cpu then _ else k) = k'
  split
  · exact List.prefix_rfl
  · split
    · split
      · exact each_holds (P := fun e => d.out <+: e.out) List.prefix_rfl fun e x h => h.trans (forwardFit_out ..)
      · exact List.prefix_rfl
    · exact forwardFit_out ..

theorem forwardBh_out (d : Dev) (inPort : Port) (inClass c : Nat) (k : Packet) :
    d.out <+: (forwardBh d inPort inClass c k).out := by
  have entry : d.out <+: (bhEntry d k).2.out := 
    (bhEntry_only d k (l_ := [.start, .evt, .sht]) rfl (.refl _ _)).out_prefix (by decide)
  unfold forwardBh; dsimp only; split
  · exact entry.trans (forward_out ..)
  · repeat' split
    all_goals exact entry

theorem routePacket_out (d : Dev) (inPort : Port) (c : Nat) (k : Packet) : d.out <+: (routePacket d inPort c k).out := by
  have found : d.out <+: (lookup d false k.dst).1.out :=
    (lookup_only d false k.dst (l_ := [.start, .evt, .sht]) rfl (.refl _ _)).out_prefix (by decide)
  unfold routePacket; split
  · exact forward_out ..
  · generalize lookup d false k.dst = l at found
    obtain ⟨b, hit⟩ := l
    refine found.trans ?_
    cases hit with
    | none =>
      dsimp only; split
      · exact forward_out ..
      · split
        · exact forwardBh_out ..
        · exact List.prefix_rfl
    | some h =>
      dsimp only; split
      · exact forwardBh_out ..
      on_goal 6 => exact List.prefix_rfl
      all_goals exact forward_out ..

theorem ingressPacket_out (d : Dev) (port : Port) (k : Packet) : d.out <+: (ingressPacket d port k).out := by
  unfold ingressPacket; dsimp only; split
  · split
    · have policed (i : Nat) : d.out <+: (police d i k.len).2.out :=
        (police_only d i k.len (l_ := [.start, .evt, .crd]) rfl (.refl _ _)).out_prefix (by decide)
      split
      · exact (policed _).trans (routePacket_out ..)
      · exact policed _
    · exact routePacket_out ..
  · split
    · exact enterQueue_out ..
    · exact List.prefix_rfl

/-! ## What taking a frame in leaves: the frames behind it, and whether OUTSIDE ones are handed on -/

/-- The frames that wait for the firmware, and whether those of class OUTSIDE are handed on. -/
def Dev.intake (d : Dev) : List RxItem × Bool := (d.wrp.rxq, d.wrp.outsideAccept)

theorem Only.intake {l : List Part} {a b : Dev} (h : Only l a b) (keeps : Part.wrp ∉ l) : b.intake = a.intake := by
  have same : b.wrp = a.wrp := h.same .wrp keeps
  rw [Dev.intake, same, Dev.intake]

@[simp] theorem report_intake (d : Dev) (e : Nat) (l : List Byte) : (report d e l).intake = d.intake := by simp [Dev.intake]

@[simp] theorem watch_intake (d : Dev) (e i : Nat) (a b : Bool) (l : List Byte) : (watch d e i a b l).intake = d.intake := by
  simp [Dev.intake]

@[simp] theorem modNode_intake (d : Dev) (i : Nat) (f : Node → Node) : (d.modNode i f).intake = d.intake := rfl

theorem countClass_wrp (d : Dev) (n : Fin 4) (cls : Nat) :
    ∃ cnt edges, (countClass d n cls).wrp = { d.wrp with cnt := cnt, edges := edges } := by
  rw [countClass, watch_wrp, Dev.modWrp_wrp]
  repeat' split
  all_goals exact ⟨_, _, rfl⟩

@[simp] theorem countClass_intake (d : Dev) (n : Fin 4) (cls : Nat) : (countClass d n cls).intake = d.intake := by
  obtain ⟨cnt, edges, counted⟩ := countClass_wrp d n cls
  rw [Dev.intake, counted, Dev.intake]

theorem countClass_nodeByEui (d : Dev) (n : Fin 4) (cls : Nat) (eui : BitVec 64) :
    (countClass d n cls).nodeByEui eui = d.nodeByEui eui := by
  obtain ⟨cnt, edges, counted⟩ := countClass_wrp d n cls
  rw [Dev.nodeByEui, counted, Dev.nodeByEui]

@[simp] theorem takeFoff_intake (d : Dev) (n : Fin 4) (i : Nat) (foff : Int) : (takeFoff d n i foff).intake = d.intake := by
  unfold takeFoff; dsimp only; split <;> simp

@[simp] theorem driftRun_intake (d : Dev) (i cls : Nat) (e : Int) : (driftRun d i cls e).intake = d.intake := by
  unfold driftRun; repeat' split
  all_goals simp

@[simp] theorem submitRec_intake (d : Dev) (r : DownRec) : (submitRec d r).intake = d.intake :=
  (submitRec_only d r (l_ := [.out, .start, .evt, .sht, .ply, .dst]) rfl (.refl _ _)).intake (by decide)

@[simp] theorem correctNode_intake (d : Dev) (i : Nat) (e : Int) (ts : Nat) (gen : Option Nat) :
    (correctNode d i e ts gen).intake = d.intake := by
  unfold correctNode; split
  · rfl
  · dsimp only; repeat' split
    all_goals simp [dropCorrection]
    all_goals rfl

/-! ## Link security (R315) -/

theorem invoke_fst (d : Dev) (s master use : Nat) : (invoke d s master use).1 =
    (attrAllows (skeinAttr d s) master [use] d.pra.lifecycle && !skeinDisabled d s) := by
  unfold invoke; dsimp only; split
  next ok => exact ok.symm
  next no => exact (Bool.eq_false_iff.2 no).symm

/-- The device with the key store and the array of another. -/
def Dev.keyedAs (d k : Dev) : Dev := { d with dst := k.dst, pra := k.pra }

theorem Dev.keyedAs_self {a b : Dev} (dst : b.dst = a.dst) (pra : b.pra = a.pra) : a.keyedAs b = a := by
  rw [keyedAs, dst, pra]

section
variable {a b : Dev} (dst : b.dst = a.dst) (pra : b.pra = a.pra)
include dst pra

/-- The checks of link security go by the key store and the array. -/
theorem linkCheck_of_keys (x : Node) (m : MacInfo) : linkCheck b x m = linkCheck a x m :=
  (rfl : _ = linkCheck (a.keyedAs b) x m).trans (by rw [Dev.keyedAs_self dst pra])

theorem invoke_of_keys (s master use : Nat) : (invoke b s master use).1 = (invoke a s master use).1 := by
  rw [invoke_fst, invoke_fst, ← Dev.keyedAs_self dst pra]
  rfl

end

/-- A frame that the checks accept, by a key that may be used, with a good MIC, passes under its generation. -/
theorem linkSecure_accepted {d : Dev} {x : Node} {m : MacInfo} {s gen : Nat} (i : Nat) (check : linkCheck d x m = .accepted s gen)
    (may : (invoke d s masterLink useDerive).1 = true) (mic : m.micOk = true) :
    ∃ b, linkSecure d i x m = (some gen, b) ∧ b.intake = d.intake := by
  have key : linkKey d x s gen = (true, deriveKey d s x.eui gen) := by rw [linkKey, invoke_allowed may]; rfl
  have derived : (deriveKey d s x.eui gen).intake = d.intake :=
    (deriveKey_only d s x.eui gen (l_ := [.free, .evt, .dst]) rfl (.refl _ _)).intake (by decide)
  unfold linkSecure
  simp only [check, key, mic]
  refine ⟨_, rfl, .trans ?_ derived⟩
  split <;> rfl

/-! ## A data frame (R148, R170 to R172, R315) -/

/-- The error of a received frame (R170). -/
def Descriptor.error (x : Descriptor) (d : Dev) : Int := frameError d x.profile x.ts x.slot (cellFor x.cells x.profile x.chan)

/-- The class of a received frame (R170). -/
def Descriptor.class_ (x : Descriptor) (d : Dev) : Nat := frameClass d (x.error d) (cellFor x.cells x.profile x.chan).isSome

/-- The device once frame `x` has counted for its class, and node `i` has taken its offset and its drift. -/
def heardNode (d : Dev) (n : Fin 4) (i : Nat) (x : Descriptor) : Dev :=
  driftRun (takeFoff (countClass d n (x.class_ d)) n i x.foff) i (x.class_ d) (x.error d)

/-- Node `i` of record `v` is corrected for error `e` of a frame of class `cls` at `ts` (R170, R171): by the acknowledgement where
the frame asked for one, and else by a correction frame. -/
def amendNode (d : Dev) (i : Nat) (v : Node) (ack : Bool) (cls : Nat) (e : Int) (ts gen : Nat) : Dev :=
  if ack ∧ cls < 2 then (if tcFits (timeCorrection e) ∨ acksNode d v = false then d else report d evTcRange [])
  else if 0 < cls then correctNode d i e ts gen
  else d

@[simp] theorem amendNode_intake (d : Dev) (i : Nat) (v : Node) (ack : Bool) (cls : Nat) (e : Int) (ts gen : Nat) :
    (amendNode d i v ack cls e ts gen).intake = d.intake := by
  unfold amendNode
  repeat' split
  all_goals simp

theorem heardNode_only (d : Dev) (n : Fin 4) (i : Nat) (x : Descriptor) : Only [.start, .evt, .wrp] d (heardNode d n i x) :=
  driftRun_only _ _ _ _ rfl (takeFoff_only _ _ _ _ rfl (countClass_only _ _ _ rfl (.refl _ _)))

@[simp] theorem heardNode_intake (d : Dev) (n : Fin 4) (i : Nat) (x : Descriptor) : (heardNode d n i x).intake = d.intake := by
  simp [heardNode]

/-- A data frame of a node of the table that passes link security is handed on, whatever its class. -/
theorem takeData_handsOn {d : Dev} {m : MacInfo} {i : Nat} {v : Node} {s gen : Nat} (n : Fin 4) (x : Descriptor)
    (data : m.kind = .data) (node : d.nodeByEui m.eui = some (i, v)) (check : linkCheck d v m = .accepted s gen)
    (may : (invoke d s masterLink useDerive).1 = true) (mic : m.micOk = true) (outside : d.wrp.outsideAccept = true) :
    ∃ b : Dev, takeData d n x m = ingressPacket (b.emit (.uplink m.packet)) .mesh m.packet ∧ b.intake = d.intake := by
  have only := heardNode_only d n i x
  have dst : (heardNode d n i x).dst = d.dst := only.same .dst (by decide)
  have pra : (heardNode d n i x).pra = d.pra := only.same .pra (by decide)
  obtain ⟨b, secure, kept⟩ := linkSecure_accepted i ((linkCheck_of_keys dst pra v m).trans check)
    ((invoke_of_keys dst pra s masterLink useDerive).trans may) mic
  let c := amendNode b i v m.ackReq (x.class_ d) (x.error d) x.ts gen
  have left : c.intake = d.intake := (amendNode_intake ..).trans (kept.trans (heardNode_intake d n i x))
  have open_ : ¬ (x.class_ d = 2 ∧ c.wrp.outsideAccept = false) := by
    have takes : c.wrp.outsideAccept = true := (congrArg Prod.snd left).trans outside
    simp [takes]
  unfold heardNode Descriptor.class_ Descriptor.error at secure
  unfold takeData
  simp only [countClass_nodeByEui, node, secure, data]
  exact ⟨c, if_neg open_, left⟩

/-! ## The frame at the head (R144, R167) -/

section
variable {d : Dev} {f : RxItem} {rest : List RxItem} (m : MacInfo) (fw : d.phase.fwRuns = true) (head : d.wrp.rxq = f :: rest)
include fw head

theorem doRxFrameProcess_head : doRxFrameProcess m d = takeFrame m d := by
  unfold doRxFrameProcess
  simp [fw, head]

theorem doRxFrameProcess_bad (bad : f.d.status ≠ 0) (alone : f.d.late = none) :
    doRxFrameProcess m d = d.modWrp (fun w => { w with rxq := rest }) := by
  rw [doRxFrameProcess_head m fw head, takeFrame]
  simp only [head, alone]
  exact if_pos bad

theorem doRxFrameProcess_data (good : f.d.status = 0) (version : (macHeader f.d.payload).version = 2) (data : m.kind = .data) :
    doRxFrameProcess m d = takeData (d.modWrp (fun w => { w with rxq := rest })) f.spn f.d m := by
  rw [doRxFrameProcess_head m fw head, takeFrame]
  simp only [head, data]
  exact (if_neg (not_not.2 good)).trans (if_neg (not_not.2 version))

end

/-! ## Node offsets and correction frames (R148, R171) -/

theorem doNodeOffsetLapse_due {d : Dev} {i : Nat} {x : Node} {o : Int} {t : Nat} (node : d.node? i = some x)
    (offset : x.offset = some (o, t)) (due : t + 600000000000 ≤ d.glb.upNs) :
    (doNodeOffsetLapse i d).node? i = some { x with offset := none } := by
  refine (kfind_kadj_same _ node).trans (congrArg some ?_)
  rw [offset]
  exact if_pos due

theorem modNode_node?_other (d : Dev) {i j : Nat} (f : Node → Node) (other : j ≠ i) : (d.modNode i f).node? j = d.node? j :=
  kfind_kadj_other _ f other.symm

theorem doCorrectionFrameExpire_due {d : Dev} {i : Nat} {x : Node} {tc : Int} {t : Nat} (node : d.node? i = some x)
    (corr : x.corr = some (tc, t)) (due : t ≤ d.whl.time) : doCorrectionFrameExpire i d =
      (dropCorrection d i).modCnt (pinned d x) (fun c => { c with corrDrop := inc32 c.corrDrop }) := by
  unfold doCorrectionFrameExpire
  simp only [node, corr]
  exact if_pos due

/-! ## The CONFIRM of a throw (R179) -/

theorem Launch.confirm_eq (l : Launch) (i : Nat) (st : BitVec 8) : l.confirm i st =
    if l.heard i = false then
      (if l.members.contains i && !l.absent.contains i then
        (if st = 0 then { l with armed := l.armed ++ [i] } else { l with refused := l.refused ++ [i] })
      else { l with extra := l.extra ++ [i] })
    else l := by
  unfold confirm
  cases l.heard i <;> rfl

/-- Settles O27: what counts for a frame's class and for its node leaves the keys that link security goes by, and the frames behind
it, as they were (`takeData_handsOn`); and what enters the shuttle takes back nothing that was sent (`ingressPacket_out`). -/
theorem receivedFrames : Obligations.ReceivedFrames := by
  unfold Obligations.ReceivedFrames
  intro s dt e
  refine ⟨fun f rest m fw head => ⟨fun bad alone => gives_run rfl ?_,
      fun i v k g good version data node check may mic outside => gives_run rfl ?_⟩,
    fun i x node => ⟨fun o t offset due => gives_run rfl ?_, fun tc t corr due => gives_run rfl ?_⟩,
    fun i id st known => gives_runCpu rfl ?_⟩
  · exact doRxFrameProcess_bad m fw head bad alone
  · rw [doRxFrameProcess_data m fw head good version data]
    obtain ⟨b, handed, kept⟩ := takeData_handsOn (d := e.modWrp (fun w => { w with rxq := rest })) f.spn f.d data node check
      ((invoke_of_keys (e.modWrp_dst _) (e.modWrp_pra _) k masterLink useDerive).trans may) mic outside
    rw [handed]
    have only := ingressPacket_only (b.emit (.uplink m.packet)) .mesh m.packet
      (l_ := [.free, .out, .glb, .start, .evt, .sht, .que, .crd]) rfl (.refl _ _)
    refine ⟨(ingressPacket_out ..).subset (by simp), ?_⟩
    exact congrArg Prod.fst ((only.intake (by decide)).trans kept)
  · exact ⟨doNodeOffsetLapse_due node offset due, fun j other => modNode_node?_other e _ other, rfl⟩
  · rw [doCorrectionFrameExpire_due node corr due]
    refine ⟨kfind_kadj_same _ node, ?_, fun j other => modNode_node?_other _ _ other, rfl⟩
    exact congrArg WrpCnt.corrDrop (Four.get_set_same ..)
  · have counts : ¬ 2 < st.toNat := Nat.not_lt.2 known
    rw [doThrowConfirmReceive, if_neg counts]
    refine ⟨fun j l at_ => ?_, List.length_map .., rfl⟩
    show (List.map _ e.whl.launches)[j]? = _
    rw [List.getElem?_map, at_, Option.map_some, Launch.confirm_eq, ← ite_and]
    simp only [and_assoc]
    rfl

end Sys2Proof.Machine
end
section
/-! PROOFS. Cells, slotframes, hopping tables and the template (O28). A write of the warp is streamed to the other side of the ply
(R281), which leaves the warp as it is; a command on a cell entry touches that one entry. -/

namespace Sys2Proof.Machine

/-! ## What is streamed leaves the warp -/

@[simp] theorem streamDelta_wrp (d : Dev) (x : Delta) : (streamDelta d x).wrp = d.wrp :=
  (streamDelta_only d x (l_ := [.out, .start, .evt, .sht, .ply, .dst]) rfl (.refl _ _)).same .wrp (by decide)

@[simp] theorem streamDelta_whl (d : Dev) (x : Delta) : (streamDelta d x).whl = d.whl :=
  (streamDelta_only d x (l_ := [.out, .start, .evt, .sht, .ply, .dst]) rfl (.refl _ _)).same .whl (by decide)

@[simp] theorem streamDelta_ccp (d : Dev) (x : Delta) : (streamDelta d x).ccp = d.ccp :=
  (streamDelta_only d x (l_ := [.out, .start, .evt, .sht, .ply, .dst]) rfl (.refl _ _)).same .ccp (by decide)

@[simp] theorem streamDelta_phase (d : Dev) (x : Delta) : (streamDelta d x).phase = d.phase :=
  (streamDelta_only d x (l_ := [.out, .start, .evt, .sht, .ply, .dst]) rfl (.refl _ _)).same .phase (by decide)

/-! ## One cell entry (R159, R160) -/

theorem setCell_entry_same (d : Dev) (n : Fin 4) (i : Nat) (c : Option (Word × Word)) :
    kfind ((setCell d n i c).wrp.cells.get n) i = c := by
  rw [setCell, Dev.modWrp_wrp, Four.get_set_same]
  cases c with
  | none => exact kfind_kdel_same ..
  | some c => exact kfind_kput_same ..

theorem setCell_entry_other (d : Dev) {n m : Fin 4} {i k : Nat} (c : Option (Word × Word)) (other : m ≠ n ∨ k ≠ i) :
    kfind ((setCell d n i c).wrp.cells.get m) k = kfind (d.wrp.cells.get m) k := by
  rw [setCell, Dev.modWrp_wrp]
  by_cases spindle : m = n
  · have entry : i ≠ k := fun same => other.elim (· spindle) (· same.symm)
    rw [spindle, Four.get_set_same]
    cases c with
    | none => exact kfind_kdel_other _ _ _ entry
    | some c => exact kfind_kput_other _ _ _ _ entry
  · rw [Four.get_set_other _ _ _ _ spindle]

/-- The device once a command on a cell entry has shown its spindle, its entry and its status. -/
def ccmdShown (d : Dev) (v : Word) (status : Nat) : Dev := (ccmdKeep d v).modWrp (fun w => { w with ccStatus := status })

section
variable {d : Dev} {v : Word}

theorem ccmdWrite_accepted (may : cellRefusedNow d (ccmdSpn v) (fld v 13 0) (d.wrp.cstg0, d.wrp.cstg1) = none) :
    ccmdWrite d v = streamDelta (setCell (ccmdShown d v 0) (ccmdSpn v) (fld v 13 0) (some (d.wrp.cstg0, d.wrp.cstg1)))
      (.cell (ccmdSpn v).val (fld v 13 0) d.wrp.cstg0 d.wrp.cstg1) := by
  simp only [ccmdWrite, may]; rfl

theorem ccmdWrite_refused {st : Status}
    (refused : cellRefusedNow d (ccmdSpn v) (fld v 13 0) (d.wrp.cstg0, d.wrp.cstg1) = some st) :
    ccmdWrite d v = ccmdShown d v (ccmdStatus (some st)) := by
  simp only [ccmdWrite, refused]; rfl

/-- DELETE of a free entry has nothing to free. -/
theorem ccmdDelete_free (free : kfind (d.wrp.cells.get (ccmdSpn v)) (fld v 13 0) = none) : ccmdDelete d v = ccmdShown d v 0 := by
  simp only [ccmdDelete, free]; rfl

theorem ccmdDelete_held {c : Word × Word} (held : kfind (d.wrp.cells.get (ccmdSpn v)) (fld v 13 0) = some c) :
    ccmdDelete d v = streamDelta (setCell (ccmdShown d v 0) (ccmdSpn v) (fld v 13 0) none)
      (.cellFree (ccmdSpn v).val (fld v 13 0)) := by
  simp only [ccmdDelete, held]; rfl

/-- DELETE leaves the entry free, and touches no other. -/
theorem ccmdDelete_frees (d : Dev) (v : Word) : kfind ((ccmdDelete d v).wrp.cells.get (ccmdSpn v)) (fld v 13 0) = none
    ∧ (ccmdDelete d v).wrp.ccStatus = 0 ∧ ∀ m k, (m ≠ ccmdSpn v ∨ k ≠ fld v 13 0) →
      kfind ((ccmdDelete d v).wrp.cells.get m) k = kfind (d.wrp.cells.get m) k := by
  cases held : kfind (d.wrp.cells.get (ccmdSpn v)) (fld v 13 0) with
  | none =>
    rw [ccmdDelete_free held]
    exact ⟨held, rfl, fun _ _ _ => rfl⟩
  | some c =>
    rw [ccmdDelete_held held, streamDelta_wrp]
    exact ⟨setCell_entry_same .., rfl, fun _ _ other => setCell_entry_other _ _ other⟩

end

/-! ## Slotframes (R161) -/

section
variable {d : Dev} {n : Fin 4} {h : Nat} {v : Word}

theorem writeSfLo_arms (known : d.whl.hasAsn = true) (later : d.whl.asn + 1 < (d.wrp.sf n h).actHi.toNat * 2 ^ 32 + v.toNat) :
    writeSfLo d n h v = (d.modWrp (·.modSf n h (fun r =>
      { r with actLo := v, armed := true, act := (d.wrp.sf n h).actHi.toNat * 2 ^ 32 + v.toNat })), .ok) :=
  if_neg (by simp only [known, Bool.true_eq_false, false_or]; omega)

theorem writeSfLo_late (late : (d.wrp.sf n h).actHi.toNat * 2 ^ 32 + v.toNat ≤ d.whl.asn + 1) :
    writeSfLo d n h v = (d, .time) := if_pos (.inr late)

/-- ACT_HI written with DISARM set. -/
theorem writeSfHi_disarm (d : Dev) (n : Fin 4) (h : Nat) (v : Word) : writeSfHi d n h (v ||| 0x40000000) =
    (d.modWrp (·.modSf n h (fun r => { r with actHi := v.setWidth 8, armed := false })), .ok) := by
  have high : (v ||| 0x40000000).setWidth 8 = v.setWidth 8 := by simp [BitVec.setWidth_or]
  have disarm : bit (v ||| 0x40000000) 30 = true := by simp [bit]
  simp only [writeSfHi, high, disarm, Bool.not_true, Bool.and_false]

theorem doSfSwitch_due {h : Fin 8} (armed : (d.wrp.sf n h.val).armed = true) (known : d.whl.hasAsn = true)
    (due : (d.wrp.sf n h.val).act ≤ d.whl.asn) (runs : d.phase.fwRuns = true) :
    doSfSwitch n h d = report (streamDelta (d.modWrp (·.modSf n h.val (fun r => { r with cfg := r.new, armed := false })))
      (.warpReg (addrSfCfg n h.val) (d.wrp.sf n h.val).new)) evSfSwitch
      (octets 1 n.val ++ octets 1 h.val ++ octets 5 (d.wrp.sf n h.val).act) := by
  simp only [doSfSwitch, armed, known, due, runs, and_self, if_true]

end

/-! ## Hopping tables and the template (R156, R162) -/

section
variable {d : Dev} {v : Word}

theorem writeHop_busy {t : Nat} (i : Option Nat) (busy : d.wrp.hopBusy t = true) : writeHop d t i v = (d, .state) := if_pos busy

theorem writeHop_entry {t i : Nat} (unused : d.wrp.hopBusy t = false) :
    writeHop d t (some i) v = (streamDelta (setHop d t (some i) v) (.warpReg (addrHop t i) v), .ok) := by
  simp [writeHop, unused]

theorem writeHop_length {t : Nat} (unused : d.wrp.hopBusy t = false) (low : 1 ≤ fld v 7 0) (high : fld v 7 0 ≤ 128) :
    writeHop d t none v = (streamDelta (setHop d t none v) (.warpReg (addrHopLen t) v), .ok) := by
  have within : ¬ (fld v 7 0 = 0 ∨ 128 < fld v 7 0) := by omega
  simp [writeHop, unused, within]

theorem writeTiming_elsewhere (ackt : Bool) (power : d.glb.power ≠ 1) : writeTiming d ackt v = (d, .state) := if_pos power

theorem writeTiming_hold {ackt : Bool} (power : d.glb.power = 1)
    (ok : (if ackt then acktOk v else timingOk d.whl.period (fld v 31 16) (fld v 15 0)) = true) :
    writeTiming d ackt v =
      (streamDelta (setTiming d ackt v) (.warpReg (if ackt then addrAckt else addrTiming) v), .ok) := by
  simp only [writeTiming, power, ok, ne_eq, not_true_eq_false, if_false, Bool.true_eq_false]

end

/-- Settles O28: what is written is streamed, which leaves the warp (`streamDelta_wrp`), and a command on a cell entry touches that
entry alone (`setCell_entry_other`). -/
theorem cellsSlotframesAndHops : Obligations.CellsSlotframesAndHops := by
  unfold Obligations.CellsSlotframesAndHops
  refine ⟨fun s dt v => ?_, fun s dt v => ?_⟩
  · intro e n i others runs
    have silent : e.out = [] := rfl
    refine ⟨gives_run rfl ?_, fun may => gives_run rfl ?_, fun st refused => gives_run rfl ?_, gives_run rfl ?_⟩
    · rw [doCellRead, regRow_writes runs rfl]
      exact ⟨rfl, rfl, rfl, rfl, Dev.emit_silent (d := ccmdRead e v) silent _⟩
    · have only := doCellWrite_only v e (l_ := [.out, .start, .evt, .wrp, .sht, .ply, .dst]) rfl (.refl _ _)
      refine ⟨?_, ?_, fun m k other => ?_, only.same .spn (by decide), only.same .whl (by decide), only.same .pra (by decide)⟩
        <;> rw [doCellWrite, regRow_writes runs rfl, Dev.emit_wrp, ccmdWrite_accepted may, streamDelta_wrp]
      · exact setCell_entry_same ..
      · rfl
      · exact setCell_entry_other _ _ other
    · rw [doCellWrite, regRow_writes runs rfl, ccmdWrite_refused refused]
      exact ⟨rfl, rfl, Dev.emit_silent (d := ccmdShown e v _) silent _⟩
    · have only := doCellDelete_only v e (l_ := [.out, .start, .evt, .wrp, .sht, .ply, .dst]) rfl (.refl _ _)
      obtain ⟨free, status, rest⟩ := ccmdDelete_frees e v
      rw [doCellDelete, regRow_writes runs rfl] at only ⊢
      exact ⟨free, status, rest, only.same .spn (by decide), only.same .whl (by decide), only.same .pra (by decide)⟩
  · intro e runs
    have silent : e.out = [] := rfl
    refine ⟨fun n h => ?_, fun t i => ⟨fun busy => gives_run rfl ?_, fun unused => ⟨fun j entry => gives_run rfl ?_,
        fun length low high => gives_run rfl ?_⟩⟩, fun hold ok => gives_run rfl ?_, fun hold ok => gives_run rfl ?_,
      fun ackt power => gives_run rfl ?_⟩
    · intro r act
      refine ⟨fun known later => gives_run rfl ?_, fun late => gives_run rfl ?_, gives_run rfl ?_,
        fun armed known due => gives_run rfl ?_⟩
      · rw [doSfArm, regRow_writes runs (writeSfLo_arms known later)]
        exact ⟨Wrp.modSf_sf .., rfl, Dev.emit_silent (d := e.modWrp _) silent _⟩
      · rw [doSfArm, regRow_writes runs (writeSfLo_late late)]
        exact e.emit_silent silent _
      · rw [doSfDisarm, regRow_writes runs (writeSfHi_disarm ..)]
        exact ⟨Wrp.modSf_sf .., rfl, Dev.emit_silent (d := e.modWrp _) silent _⟩
      · rw [doSfSwitch_due armed known due runs, report_wrp, report_whl, streamDelta_wrp, streamDelta_whl]
        exact ⟨Wrp.modSf_sf .., report_sticky _ _ _ (by rw [streamDelta_phase]; exact runs), rfl, rfl⟩
    · rw [doWrpHopWrite, regRow_writes runs (writeHop_busy _ busy)]
      exact e.emit_silent silent _
    · rw [doWrpHopWrite, entry, Option.map_some, regRow_writes runs (writeHop_entry unused), Dev.emit_wrp, Dev.emit_whl,
        streamDelta_wrp, streamDelta_whl]
      exact ⟨kgetD_ksetD_same .., rfl, rfl, rfl⟩
    · rw [doWrpHopWrite, length, Option.map_none, regRow_writes runs (writeHop_length unused low high), Dev.emit_wrp, Dev.emit_whl,
        streamDelta_wrp, streamDelta_whl]
      exact ⟨kgetD_ksetD_same .., rfl, rfl, rfl⟩
    · rw [doWrpTimingWrite, regRow_writes runs (writeTiming_hold (ackt := false) hold ok), Dev.emit_wrp, Dev.emit_whl,
        streamDelta_wrp, streamDelta_whl]
      exact ⟨rfl, rfl⟩
    · rw [doWrpTimingWrite, regRow_writes runs (writeTiming_hold (ackt := true) hold ok), Dev.emit_wrp, Dev.emit_whl,
        streamDelta_wrp, streamDelta_whl]
      exact ⟨rfl, rfl⟩
    · rw [doWrpTimingWrite, regRow_writes runs (writeTiming_elsewhere ackt power)]
      exact e.emit_silent silent _

end Sys2Proof.Machine
end
section
/-! PROOFS. The RPL root (O29). A record that this side submits is taken up or waits, and what is sent to the partner or over the
loom leaves the node table and the records that are held. -/

namespace Sys2Proof.Machine

/-! ## Records that are held (R276) -/

/-- The records of the ply: those assigned, and those that wait. -/
def Ply.records (p : Ply) : List DownRec × List (DownRec × Option Nat) := (p.recs, p.waiting)

theorem sendOwn_ply (d : Dev) (port : Port) (ptp : Bool) (data : List Byte) : (sendOwn d port ptp data).ply = d.ply := rfl

theorem plyOut_records (d : Dev) (o : Output) (b : Bool) : (plyOut d o b).ply.records = d.ply.records := by
  unfold plyOut; dsimp only; split
  · show (each _ _ d).ply.records = _
    rw [each_keeps Dev.ply fun _ _ => sendOwn_ply ..]
  · rfl

theorem plySend_records (d : Dev) (o : Output) : (plySend d o).ply.records = d.ply.records := by
  have checked : (invoke d d.ply.plySkein masterLoom useEncrypt).2.ply = d.ply :=
    (invoke_only d _ _ _ (l_ := [.start, .evt, .dst]) rfl (.refl _ _)).same .ply (by decide)
  unfold plySend; split
  · split
    next ok a checks =>
      rw [checks] at checked
      split
      · exact (plyOut_records ..).trans (congrArg Ply.records checked)
      · exact congrArg Ply.records checked
  · rfl

theorem insertRec_any (f : DownRec → Bool) (r : DownRec) (l : List DownRec) : (insertRec r l).any f = (f r || l.any f) := by
  induction l with
  | nil => rfl
  | cons x rest ih =>
    unfold insertRec; split
    · rfl
    · rw [List.any_cons, ih, List.any_cons, Bool.or_left_comm]

theorem assignRec_holds (d : Dev) (r : DownRec) : (assignRec d r).ply.recs.any (fun x => x.hash == r.hash) = true := by
  have recs : (assignRec d r).ply.recs = insertRec { r with share := some (d.whl.asn + 2) } d.ply.recs :=
    congrArg Prod.fst (plySend_records ..)
  rw [recs, insertRec_any, beq_self_eq_true, Bool.true_or]

/-- The master takes a record up, or, of a command, waits with it for its twin. -/
theorem masterTake_takes (d : Dev) (r : DownRec) : (masterTake d r).ply.recs.any (fun x => x.hash == r.hash) = true
    ∨ RecKind.byCommand r.kind = true ∧ (masterTake d r).ply.waiting.any (fun q => q.1.hash == r.hash) = true := by
  unfold masterTake; split
  next held => exact .inl held
  next =>
    split
    next x due twin =>
      have same : x.hash = r.hash := by simpa using List.find?_some twin
      exact .inl (same ▸ assignRec_holds d x)
    next =>
      split
      next command => exact .inr ⟨command, by simp⟩
      next => exact .inl (assignRec_holds d r)

theorem submitRec_master {d : Dev} (r : DownRec) (master : d.ply.master = true) : submitRec d r = masterTake d r := if_pos master

/-- A side that is not master keeps what it offers. -/
theorem submitRec_offers {d : Dev} (r : DownRec) (other : d.ply.master = false) :
    (submitRec d r).ply.records = (d.ply.recs, d.ply.waiting ++ [(r, none)]) := by
  rw [submitRec, if_neg (by simp [other])]
  exact plySend_records ..

theorem submitRec_keeps (d : Dev) (r : DownRec) : Only [.out, .start, .evt, .sht, .ply, .dst] d (submitRec d r) :=
  submitRec_only d r rfl (.refl _ _)

/-! ## One node of the table (R169) -/

theorem modNode_node?_same (d : Dev) (i : Nat) (f : Node → Node) : (d.modNode i f).node? i = (d.node? i).map f := by
  cases node : d.node? i with
  | none =>
    show kfind (kadj d.wrp.nodes i f) i = none
    rw [kadj, show kfind d.wrp.nodes i = none from node]
    exact node
  | some x => exact kfind_kadj_same f node

theorem node?_of_wrp {a b : Dev} (same : b.wrp = a.wrp) (i : Nat) : b.node? i = a.node? i := by rw [Dev.node?, same]; rfl

/-- Whom a node is, and the way to it that its DAO gave. -/
def Node.route (x : Node) : BitVec 64 × Option Nat × Nat × Bool × BitVec 16 := (x.eui, x.path, x.depth, x.band, x.district)

/-- From `a` to `b` node `i` keeps its route, and every other node is as it was. -/
structure Routed (i : Nat) (a b : Dev) : Prop where
  same : (b.node? i).map Node.route = (a.node? i).map Node.route
  others : ∀ j, j ≠ i → b.node? j = a.node? j

section
variable {i : Nat} {a b c : Dev}

theorem Routed.of_wrp (same : b.wrp = a.wrp) : Routed i a b :=
  ⟨by rw [node?_of_wrp same], fun j _ => node?_of_wrp same j⟩

theorem Routed.of_only {l : List Part} (only : Only l a b) (out : Part.wrp ∉ l) : Routed i a b := .of_wrp (only.same .wrp out)

theorem Routed.trans (h : Routed i a b) (k : Routed i b c) : Routed i a c :=
  ⟨k.same.trans h.same, fun j other => (k.others j other).trans (h.others j other)⟩

theorem Routed.modNode (a : Dev) {f : Node → Node} (keeps : ∀ x, (f x).route = x.route) : Routed i a (a.modNode i f) :=
  ⟨by rw [modNode_node?_same, Option.map_map, show Node.route ∘ f = Node.route from funext keeps],
    fun _ other => modNode_node?_other a f other⟩

end

theorem tellWhere_wrp (d : Dev) (x : Node) (serving : Nat) : (tellWhere d x serving).wrp = d.wrp :=
  (tellWhere_only d x serving (l_ := [.out, .start, .evt, .ply, .dst]) rfl (.refl _ _)).same .wrp (by decide)

/-- A visitor's home ply is told, and VISITOR is reported (R292). -/
theorem tellVisitor_wrp (d : Dev) (x y : Node) (serving : Nat) :
    (if x.visitor then report (tellWhere d y serving) evVisitor [] else d).wrp = d.wrp := by
  split
  · rw [report_wrp, tellWhere_wrp]
  · rfl

/-- After a DAO with a lifetime a node has the DAO's path, and the rest of the renewal leaves it. -/
theorem renewNode_routed (d : Dev) (i : Nat) (x : Node) {p : DaoPath} (lasting : p.lifetime ≠ 0) :
    Routed i (setPath d i p) (renewNode d i x p) := by
  have back : Routed i (setPath d i p) (if x.away.isSome then
      report ((setPath d i p).modNode i (fun x => { x with away := none })) evVisitor [] else setPath d i p) := by
    split
    · exact .trans (.modNode _ (f := fun x => { x with away := none }) fun _ => rfl) (.of_wrp (report_wrp ..))
    · exact .of_wrp rfl
  rw [renewNode, if_neg lasting]
  dsimp only
  generalize (if x.away.isSome then _ else setPath d i p) = b at back ⊢
  have acks (a : Dev) : Routed i a (sendDaoAck a i p.seq) :=
    .of_only (sendDaoAck_only a i p.seq (l_ := [.out, .start, .evt, .sht, .ply, .dst]) rfl (.refl _ _)) (by decide)
  refine .trans (.trans back ?_) (acks _)
  split
  · exact .trans (.modNode _ (f := fun x => { x with dormantSince := none }) fun _ => rfl)
      (.of_wrp ((tellVisitor_wrp ..).trans (streamDelta_wrp ..)))
  · exact .of_wrp rfl

section
variable {d : Dev} {i : Nat} {x : Node} {t : Nat} (node : d.node? i = some x)
include node

theorem setPath_route (p : DaoPath) : ((setPath d i p).node? i).map Node.route =
    some (x.eui, some (d.glb.upNs + p.lifetime * 1000000000), p.route, p.band, p.district) := by
  rw [setPath, modNode_node?_same, node]; rfl

/-- A node that stops being present is dormant at the master (R282). -/
theorem leaveNode_wrp (awake : x.dormantSince = none) : (leaveNode d i).wrp =
    (if d.ply.master then sleepNode d i else d.modNode i (fun x => { x with path := none })).wrp := by
  unfold leaveNode
  simp only [node, awake, Option.isSome_none, Bool.false_eq_true, if_false]
  split
  · exact (tellVisitor_wrp ..).trans (streamDelta_wrp ..)
  · rfl

theorem leaveNode_node (awake : x.dormantSince = none) : ((leaveNode d i).node? i).map (fun y => (y.path, y.dormantSince)) =
    some (none, if d.ply.master then some d.glb.upNs else none) := by
  rw [node?_of_wrp (leaveNode_wrp node awake)]
  split
  · rw [sleepNode, modNode_node?_same, node]
    simp [awake]
  · rw [modNode_node?_same, node]
    simp [awake]

theorem leaveNode_others (awake : x.dormantSince = none) {j : Nat} (other : j ≠ i) : (leaveNode d i).node? j = d.node? j := by
  rw [node?_of_wrp (leaveNode_wrp node awake)]
  split
  · exact modNode_node?_other d _ other
  · exact modNode_node?_other d _ other

theorem doDaoPathLapse_due (path : x.path = some t) (due : t ≤ d.glb.upNs) : doDaoPathLapse i d = leaveNode d i := by
  simp only [doDaoPathLapse, node, path, due, if_true]

theorem doDormantExpire_due (dormant : x.dormantSince = some t) (master : d.ply.master = true)
    (due : t + dormantNs d ≤ d.glb.upNs) : doDormantExpire i d = releaseNode d i := by
  simp only [doDormantExpire, node, dormant, master, due, and_self, if_true]

theorem doDisReceive_answers (runs : rplRuns d = true) :
    doDisReceive i d = submitRec d (packetRec d .dioUnicast (some i) (dioPacket d (some x.eui))) := by
  simp only [doDisReceive, node, runs, if_true]

end

theorem releaseNode_node (d : Dev) (i : Nat) : (releaseNode d i).node? i = none := by
  rw [releaseNode, node?_of_wrp (streamDelta_wrp ..)]
  exact kfind_kdel_same ..

/-! ## Trickle and DAOs (R169) -/

section
variable {d : Dev} (runs : rplRuns d = true)
include runs

theorem doDioTrickleTimer_fires (sends : d.ply.role.sends = true) (going : 0 < d.wrp.trickleI)
    (due : d.wrp.trickleAt ≤ d.whl.time) : doDioTrickleTimer d =
      armTrickle (if dioWanted d then d.modWrp (fun w => { w with dioPend := Four.all true }) else d)
        (d.wrp.trickleFrom + d.wrp.trickleI * 1000000) (min (2 * d.wrp.trickleI) (trickleMin d * 2 ^ fDioDoublings.get d.pra)) := by
  unfold doDioTrickleTimer
  dsimp only
  rw [if_neg (by simp [runs, sends]), if_neg (Nat.ne_of_gt going), if_pos due]
  cases dioWanted d <;> rfl

variable {eui : BitVec 64} {p : DaoPath}

theorem doDaoReceive_renews {i : Nat} {x : Node} (known : d.nodeByEui eui = some (i, x)) (here : x.lost = none) :
    doDaoReceive eui p d = renewNode d i x p := by
  simp only [doDaoReceive, runs, known, here, Bool.true_eq_false, Option.isSome_none, Bool.false_eq_true, if_false]

theorem doDaoReceive_waits (new : d.nodeByEui eui = none) (lasting : p.lifetime ≠ 0) (other : d.ply.master = false) : ∃ since,
    doDaoReceive eui p d =
      (dropVisit d eui).modWrp (fun w => { w with visits := w.visits ++ [{ eui := eui, path := p, since := since }] }) := by
  unfold doDaoReceive
  simp only [runs, new, lasting, other, Bool.true_eq_false, Bool.false_eq_true, false_and, if_false]
  exact ⟨_, if_neg fun held => absurd (other.symm.trans held.1) (by decide)⟩

end

/-- Settles O29: a firing of Trickle arms the next interval; what a DIS asks for is submitted (`masterTake_takes`,
`submitRec_offers`); and a DAO, a lapse and a release change the one node that they name (`Routed`, `leaveNode_others`). -/
theorem rplRoot : Obligations.RplRoot := by
  unfold Obligations.RplRoot
  intro s dt e
  refine ⟨fun runs sends going due => gives_run rfl ?_, fun i x runs node => ?_,
    fun eui route lifetime band district seq runs lasting => ⟨fun i x known node here => gives_runCpu rfl ?_,
      fun new other => gives_runCpu rfl ?_⟩,
    fun i x t node path awake due => gives_run rfl ?_, fun i x t node dormant master due => gives_run rfl ?_⟩
  · rw [doDioTrickleTimer_fires runs sends going due]
    cases dioWanted e <;> exact ⟨rfl, rfl, rfl, rfl, rfl⟩
  · intro c r
    have only := submitRec_keeps c r
    refine ⟨fun master => gives_runCpu rfl ?_, fun other => gives_runCpu rfl ?_⟩
    · rw [doDisReceive_answers (d := c) node runs]
      refine ⟨?_, only.same .wrp (by decide), only.same .whl (by decide)⟩
      rw [submitRec_master (d := c) _ master]
      exact (masterTake_takes c r).resolve_right fun command => Bool.false_ne_true command.1
    · rw [doDisReceive_answers (d := c) node runs]
      have records := submitRec_offers (d := c) r other
      exact ⟨congrArg Prod.snd records, congrArg Prod.fst records, only.same .wrp (by decide), only.same .whl (by decide)⟩
  · rw [doDaoReceive_renews (d := takeCpu e) runs known here]
    have routed := renewNode_routed (takeCpu e) i x (p := ⟨route, lifetime, band, district, seq⟩) (Nat.ne_of_gt lasting)
    exact ⟨routed.same.trans (setPath_route (d := takeCpu e) node _),
      fun j other => (routed.others j other).trans (modNode_node?_other (takeCpu e) _ other)⟩
  · obtain ⟨since, waits⟩ := doDaoReceive_waits (d := takeCpu e) (p := ⟨route, lifetime, band, district, seq⟩) runs new
      (Nat.ne_of_gt lasting) other
    rw [waits]
    refine ⟨?_, rfl⟩
    show List.any (_ ++ _) _ = true
    simp
  · rw [doDaoPathLapse_due node path due]
    exact ⟨leaveNode_node node awake, fun j other => leaveNode_others node awake other⟩
  · rw [doDormantExpire_due node dormant master due]
    exact releaseNode_node e i

end Sys2Proof.Machine
end
section
/-! PROOFS. Node requests, throw groups and bulk objects (O34). The end of a command leaves the objects; a thread that has ended
stays as it ended, whatever threads end after it. -/

namespace Sys2Proof.Machine

/-! ## What the end of a command leaves -/

theorem markDone_objs (d : Dev) (th : Nat) (st : Status) (res : List Byte) : (markDone d th st res).ccp.objs = d.ccp.objs := by
  unfold markDone; split
  · rfl
  · split <;> rfl

theorem settleFence_objs (d : Dev) (th : Nat) : (settleFence d th).ccp.objs = d.ccp.objs := by
  unfold settleFence; split
  · rfl
  · split
    · split
      · split <;> exact markDone_objs ..
      · rfl
    · rfl

@[simp] theorem finish_objs (d : Dev) (th : Nat) (st : Status) (res : List Byte) : (finish d th st res).ccp.objs = d.ccp.objs :=
  (each_keeps (fun e => e.ccp.objs) settleFence_objs).trans (markDone_objs ..)

@[simp] theorem finish_wrp (d : Dev) (th : Nat) (st : Status) (res : List Byte) : (finish d th st res).wrp = d.wrp :=
  (finish_only d th st res (l_ := [.whl, .ccp, .ply, .img]) rfl (.refl _ _)).same .wrp (by decide)

theorem finish_thread?_other {d : Dev} {n k : Nat} {u : Thread} (st : Status) (res : List Byte) (other : n ≠ k)
    (found : d.thread? k = some u) (unfenced : u.st ≠ .fenced) : (finish d n st res).thread? k = some u :=
  (settleFences_keepsUnfenced _).unfenced ((markDone_thread?_other st res other).2 u found unfenced) unfenced

/-- A thread that has ended is not ended again (R221). -/
theorem markDone_done {d : Dev} {th : Nat} {t : Thread} (st : Status) (res : List Byte) (found : d.thread? th = some t)
    (done : t.st = .done) : markDone d th st res = d := by
  unfold markDone; rw [found]; exact if_pos done

theorem EndedWith.finish {d : Dev} {k : Nat} {st : Status} {res : List Byte} (h : EndedWith d k st res) (n : Nat) (st' : Status)
    (res' : List Byte) : EndedWith (Machine.finish d n st' res') k st res := by
  obtain ⟨u, found, done, shows⟩ := h
  have unfenced : u.st ≠ .fenced := by simp [done]
  refine ⟨u, ?_, done, shows⟩
  by_cases same : n = k
  · subst same
    rw [Machine.finish, markDone_done _ _ found done]
    exact (settleFences_keepsUnfenced d).unfenced found unfenced
  · exact finish_thread?_other st' res' same found unfenced

/-- Of threads that end one after another, one that runs ends as the others do. -/
theorem finishes_ended {l : List Nat} {d : Dev} {k : Nat} {u : Thread} {st : Status} {res : List Byte} (named : k ∈ l)
    (found : d.thread? k = some u) (runs : u.st = .running) : EndedWith (each l (fun e n => finish e n st res) d) k st res := by
  induction l generalizing d with
  | nil => cases named
  | cons n l ih =>
    by_cases same : n = k
    · subst same
      have ended : EndedWith (finish d n st res) n st res := finish_ended st res found (by simp [runs])
      exact each_holds (P := fun e => EndedWith e n st res) (l := l) ended fun _ m h => h.finish m st res
    · have later : k ∈ l := by simpa [Ne.symm same] using named
      exact ih later (finish_thread?_other st res same found (by simp [runs]))

/-! ## Node requests and throw groups (R174, R219) -/

/-- The device once thread `th` runs its command. -/
def Dev.running (d : Dev) (th : Nat) (t : Thread) : Dev := d.modThread th (fun _ => t.begun)

theorem Thread.begun_msg (t : Thread) : t.begun.msg = t.msg := rfl

theorem modThread_nodeByHandle (d : Dev) (th : Nat) (f : Thread → Thread) (h : BitVec 32) :
    (d.modThread th f).nodeByHandle h = d.nodeByHandle h := rfl

theorem modThread_objs (d : Dev) (th : Nat) (f : Thread → Thread) : (d.modThread th f).ccp.objs = d.ccp.objs := rfl

section
variable {d : Dev} {th : Nat} {t : Thread} {c : Cmd} (h : ReadyFor d th t c)
include h

theorem ReadyFor.thread? : (d.running th t).thread? th = some t.begun := h.begun

/-- Where a command has left its thread running, its end is the thread's. -/
theorem ReadyFor.ends {b : Dev} (same : b.ccp.threads = (d.running th t).ccp.threads) (st : Status) (res : List Byte) :
    EndedWith (finish b th st res) th st res := by
  refine finish_ended (t := t.begun) st res ?_ (by simp [Thread.begun])
  rw [Dev.thread?, same]
  exact h.thread?

end

/-- What is submitted is assigned, or waits. -/
theorem submitRec_held (d : Dev) (r : DownRec) : ((submitRec d r).ply.recs.any (fun y => y.hash == r.hash)
    || (submitRec d r).ply.waiting.any (fun q => q.1.hash == r.hash)) = true := by
  cases master : d.ply.master with
  | true =>
    rw [submitRec_master r master]
    rcases masterTake_takes d r with taken | ⟨_, waits⟩
    · rw [taken, Bool.true_or]
    · rw [waits, Bool.or_true]
  | false =>
    have records := submitRec_offers r master
    rw [show (submitRec d r).ply.waiting = _ from congrArg Prod.snd records]
    simp

section
variable {d : Dev} {th : Nat} {t : Thread}

theorem doNodeReq_absent {port : BitVec 16} {noReply : Bool} {data : List Byte} (h : ReadyFor d th t (.nodeReq port noReply data))
    (absent : d.nodeByHandle t.msg.node = none) : doNodeReq th d = finish (d.running th t) th .nodeFail [] := by
  refine (runThread_ready (a := (port, noReply, data)) _ h (by rfl)).trans ?_
  rw [modThread_nodeByHandle, Thread.begun_msg, absent]
  rfl

theorem doNodeReq_present {port : BitVec 16} {noReply : Bool} {data : List Byte} {i : Nat} {x : Node}
    (h : ReadyFor d th t (.nodeReq port noReply data)) (found : d.nodeByHandle t.msg.node = some (i, x)) (here : x.away = none) :
    doNodeReq th d = submitRec (d.running th t) (nodeReqRec d i port t.msg.tag data) := by
  refine (runThread_ready (a := (port, noReply, data)) _ h (by rfl)).trans ?_
  rw [modThread_nodeByHandle, Thread.begun_msg, found]
  simp only [here]
  rfl

section
variable {g : Nat} {add : Bool} {i : Nat} {x : Node} (h : ReadyFor d th t (.throwGroupSet g add))
  (found : d.nodeByHandle t.msg.node = some (i, x))
include h found

/-- The groups of the node are set, and streamed to the other side. -/
theorem doThrowGroupSet_sets (changes : x.groups.contains g ≠ add) (room : ¬ (add = true ∧ 8 ≤ x.groups.length)) :
    let gs := if add then x.groups ++ [g] else x.groups.filter (· != g)
    doThrowGroupSet th d =
      finish (streamDelta ((d.running th t).modNode i (fun x => { x with groups := gs })) (.groups i gs)) th .ok [] := by
  intro gs
  refine (runThread_ready (a := (g, add)) _ h (by rfl)).trans ?_
  rw [modThread_nodeByHandle, Thread.begun_msg, found]
  dsimp only
  rw [if_neg changes, if_neg room]
  rfl

theorem doThrowGroupSet_full (adds : add = true) (new : x.groups.contains g = false) (full : 8 ≤ x.groups.length) :
    doThrowGroupSet th d = finish (d.running th t) th .range [] := by
  refine (runThread_ready (a := (g, add)) _ h (by rfl)).trans ?_
  rw [modThread_nodeByHandle, Thread.begun_msg, found]
  dsimp only
  rw [if_neg (by rw [new, adds]; decide), if_pos ⟨adds, full⟩]
  rfl

/-- The node's groups change, its thread ends, and no other node changes. -/
theorem doThrowGroupSet_groups (node : d.node? i = some x) (changes : x.groups.contains g ≠ add)
    (room : ¬ (add = true ∧ 8 ≤ x.groups.length)) :
    ((doThrowGroupSet th d).node? i).map (·.groups) = some (if add then x.groups ++ [g] else x.groups.filter (· != g))
      ∧ EndedWith (doThrowGroupSet th d) th .ok [] ∧ ∀ j, j ≠ i → (doThrowGroupSet th d).node? j = d.node? j := by
  have nodes (b : Dev) (y : Delta) : (finish (streamDelta b y) th .ok []).wrp = b.wrp :=
    (finish_wrp ..).trans (streamDelta_wrp ..)
  rw [doThrowGroupSet_sets h found changes room]
  refine ⟨?_, h.ends (by rw [streamDelta_ccp]; rfl) _ _, fun j other => ?_⟩
  · rw [node?_of_wrp (nodes ..), modNode_node?_same, show (d.running th t).node? i = some x from node]
    rfl
  · rw [node?_of_wrp (nodes ..)]
    exact modNode_node?_other (d.running th t) _ other

end

/-- A reply ends the threads that wait for it. -/
theorem doNodeReplyReceive_ends {i tag : Nat} {x : Node} {data : List Byte} (node : d.node? i = some x) :
    ∃ b, Only [.out, .start, .evt, .ply, .dst] d b ∧ doNodeReplyReceive i tag data d =
      each (nodeReqThreads b x.handle tag (fun t => t.wantsReply && !t.relayed)) (fun e n => finish e n .ok data) b := by
  unfold doNodeReplyReceive
  simp only [node]
  exact ⟨_, .each (Dev.modPly_only d _ rfl (.refl _ _)) fun _ _ => loomSend_only _ _ _ rfl (.refl _ _), rfl⟩

theorem mem_nodeReqThreads {handle : BitVec 32} {tag : Nat} {pick : Thread → Bool} (found : d.thread? th = some t)
    (runs : t.st = .running) (op : t.msg.opcode = 0x20) (dest : t.msg.node = handle) (tagged : t.msg.tag = tag)
    (picked : pick t = true) : th ∈ nodeReqThreads d handle tag pick :=
  List.mem_map.2 ⟨(th, t), List.mem_filter.2 ⟨mem_of_kfind found, by simp [runs, op, dest, tagged, picked]⟩, rfl⟩

end

/-! ## The octets of an object (R218) -/

/-- Octets put at an offset. -/
def putOctets (m : KMap Byte) (off : Nat) (l : List Byte) : KMap Byte :=
  (l.foldl (fun a b => (ksetD a.1 a.2 b 0, a.2 + 1)) (m, off)).1

theorem Obj.write_data (x : Obj) (off : Nat) (l : List Byte) : (x.write off l).data = putOctets x.data off l := rfl

theorem putOctets_cons (m : KMap Byte) (off : Nat) (b : Byte) (l : List Byte) :
    putOctets m off (b :: l) = putOctets (ksetD m off b 0) (off + 1) l := rfl

theorem putOctets_outside {l : List Byte} {m : KMap Byte} {off j : Nat} (out : j < off ∨ off + l.length ≤ j) :
    kgetD (putOctets m off l) j 0 = kgetD m j 0 := by
  induction l generalizing m off with
  | nil => rfl
  | cons b l ih =>
    rw [List.length_cons] at out
    rw [putOctets_cons, ih (by omega), kgetD_ksetD_other _ _ _ _ _ _ (by omega)]

theorem putOctets_inside {l : List Byte} {m : KMap Byte} {off k : Nat} (within : k < l.length) :
    kgetD (putOctets m off l) (off + k) 0 = l[k] := by
  induction l generalizing m off k with
  | nil => cases within
  | cons b l ih =>
    rw [putOctets_cons]
    cases k with
    | zero => rw [putOctets_outside (by omega)]; exact kgetD_ksetD_same ..
    | succ k => rw [← Nat.add_assoc, Nat.add_right_comm]; exact ih (Nat.lt_of_succ_lt_succ within)

theorem Obj.write_reads (x : Obj) (off : Nat) (l : List Byte) : (x.write off l).octets_ off l.length = l := by
  refine List.ext_getElem (by simp [octets_]) fun k _ within => ?_
  simp only [octets_, List.getElem_map, List.getElem_range, write_data]
  exact putOctets_inside within

theorem Obj.write_octet_other (x : Obj) {off k : Nat} {l : List Byte} (out : k < off ∨ off + l.length ≤ k) :
    (x.write off l).octets_ k 1 = x.octets_ k 1 :=
  congrArg (fun b => [b]) (putOctets_outside out)

/-! ## The commands on objects (R218) -/

/-- The device with another table of objects. -/
def Dev.withObjs (d : Dev) (m : KMap Obj) : Dev := d.modCcp (fun c => { c with objs := m })

/-- What a command on the objects ends with: its thread's end, the objects it leaves, and nothing of the warp or the array. -/
structure ObjsEnd (a b : Dev) (th : Nat) (st : Status) (m : KMap Obj) : Prop where
  ended : EndedWith b th st []
  objs : b.ccp.objs = m
  wrp : b.wrp = a.wrp
  pra : b.pra = a.pra

theorem ObjsEnd.obj {a b : Dev} {th : Nat} {st : Status} {m : KMap Obj} (h : ObjsEnd a b th st m) (k : Nat) :
    kfind b.ccp.objs k = kfind m k := by rw [h.objs]

theorem ReadyFor.endsObjs {d : Dev} {th : Nat} {t : Thread} {c : Cmd} (h : ReadyFor d th t c) (m : KMap Obj) (st : Status) :
    ObjsEnd d (finish ((d.running th t).withObjs m) th st []) th st m :=
  ⟨h.ends (b := (d.running th t).withObjs m) rfl _ _, finish_objs .., finish_wrp .., finish_pra ..⟩

/-- The same where OBJ_SPACE_LOW follows the free space. -/
theorem ReadyFor.endsWatched {d : Dev} {th : Nat} {t : Thread} {c : Cmd} (h : ReadyFor d th t c) (m : KMap Obj) (st : Status) :
    ObjsEnd d (finish (objWatch ((d.running th t).withObjs m)) th st []) th st m := by
  have watched := objWatch_only ((d.running th t).withObjs m) (l_ := [.evt]) rfl (.refl _ _)
  have ccp : (objWatch ((d.running th t).withObjs m)).ccp = ((d.running th t).withObjs m).ccp := watched.same .ccp (by decide)
  exact ⟨h.ends (congrArg Ccp.threads ccp :) _ _, (finish_objs ..).trans (congrArg Ccp.objs ccp),
    (finish_wrp ..).trans (watched.same .wrp (by decide)), (finish_pra ..).trans (watched.same .pra (by decide))⟩

section
variable {d : Dev} {th : Nat} {t : Thread} {o : Nat}

section
variable {n : Nat} {dig : BitVec 384} (h : ReadyFor d th t (.objOpen o n dig))
include h

theorem doObjOpen_room (free : kfind d.ccp.objs o = none) (few : d.ccp.objs.length < 64) (room : n ≤ bulkFree d) :
    doObjOpen th d =
      finish (objWatch ((d.running th t).withObjs (kput d.ccp.objs o { size := n, digest := dig }))) th .ok [] := by
  refine (runThread_ready (a := (o, n, dig)) _ h (by rfl)).trans ?_
  have space : ¬ (64 ≤ d.ccp.objs.length ∨ bulkFree d < n) := by omega
  exact (if_neg (by rw [modThread_objs, free]; simp)).trans (if_neg space)

theorem doObjOpen_taken (taken : (kfind d.ccp.objs o).isSome = true) :
    doObjOpen th d = finish ((d.running th t).withObjs d.ccp.objs) th .duplicate [] :=
  (runThread_ready (a := (o, n, dig)) _ h (by rfl)).trans (if_pos taken)

end

theorem doObjWrite_open {x : Obj} {off : Nat} {l : List Byte} (h : ReadyFor d th t (.objWrite o off l))
    (found : kfind d.ccp.objs o = some x) (writable : x.closed = false) (within : off + l.length ≤ x.size) :
    doObjWrite th d = finish ((d.running th t).withObjs (kadj d.ccp.objs o (fun x => x.write off l))) th .ok [] := by
  refine (runThread_ready (a := (o, off, l)) _ h (by rfl)).trans ?_
  dsimp only
  rw [modThread_objs, found]
  dsimp only
  rw [if_neg (by simp [writable]), if_neg (Nat.not_lt.2 within)]
  rfl

theorem doObjClose_eq {x : Obj} (h : ReadyFor d th t (.objClose o)) (found : kfind d.ccp.objs o = some x) : doObjClose th d =
    if Config.sha384 (x.octets_ 0 x.size) = x.digest then
      finish ((d.running th t).withObjs (kadj d.ccp.objs o (fun x => { x with closed := true }))) th .ok []
    else finish ((d.running th t).withObjs d.ccp.objs) th .digest [] := by
  refine (runThread_ready (a := o) _ h (by rfl)).trans ?_
  rw [modThread_objs, found]
  rfl

/-- OBJ_DELETE is no use of its object. -/
theorem running_uses (h : ReadyFor d th t (.objDelete o)) (unused : d.ccp.threads.any (fun p => p.2.uses o) = false) :
    (d.running th t).ccp.threads.any (fun p => p.2.uses o) = false := by
  rw [List.any_eq_false] at unused ⊢
  intro p mem
  rcases mem_kadj mem with old | ⟨_, new⟩
  · exact unused p old
  · rw [new]
    obtain ⟨_, _, _, cmd⟩ := h
    simp [Thread.uses, Thread.begun, cmd]

theorem doObjDelete_unused (h : ReadyFor d th t (.objDelete o)) (unused : d.ccp.threads.any (fun p => p.2.uses o) = false) :
    doObjDelete th d =
      finish (objWatch ((d.running th t).withObjs (kdel d.ccp.objs o))) th .ok [] :=
  (runThread_ready (a := o) _ h (by rfl)).trans (if_neg (Bool.eq_false_iff.1 (running_uses h unused)))

/-- The record of block `k` of an object. -/
def blockRec (d : Dev) (i o : Nat) (port : BitVec 16) (blk : Nat) (x : Obj) (k : Nat) : DownRec :=
  objRec d i o (k * blk) port (x.octets_ (k * blk) (min blk (x.size - k * blk)))

/-- The device once OBJ_SEND has counted its corrected reads, its thread owing every block. -/
def sending (d : Dev) (th : Nat) (t : Thread) (corrected : Nat) (owes : List Nat) : Dev :=
  ((d.running th t).modGlb (fun g => { g with corr := add32 g.corr corrected })).modThread th (fun t => { t with owes := owes })

theorem sending_thread? {c : Cmd} (h : ReadyFor d th t c) (corrected : Nat) (owes : List Nat) :
    (sending d th t corrected owes).thread? th = some { t.begun with owes := owes } :=
  modThread_thread?_same (d := (d.running th t).modGlb _) _ h.thread?

theorem doObjSend_blocks {x : Obj} {port : BitVec 16} {blk i : Nat} {y : Node} (corrected : Nat) (poisoned : List Nat)
    (h : ReadyFor d th t (.objSend o port blk)) (found : kfind d.ccp.objs o = some x) (closed : x.closed = true)
    (node : d.nodeByHandle t.msg.node = some (i, y)) : doObjSend th corrected poisoned d =
      each ((List.range ((x.size + blk - 1) / blk)).filter (fun k => !poisoned.contains k))
        (fun e k => submitRec e (blockRec d i o port blk x k))
        (sending d th t corrected ((List.range ((x.size + blk - 1) / blk)).map (fun k => (blockRec d i o port blk x k).hash))) := by
  refine (runThread_ready (a := (o, port, blk)) _ h (by rfl)).trans ?_
  dsimp only
  rw [modThread_objs, found, modThread_nodeByHandle, Thread.begun_msg, node]
  dsimp only
  rw [if_neg (by simp [closed])]
  rfl

/-- From there on blocks are submitted, and nothing else is done. -/
theorem doObjSend_submits {x : Obj} {port : BitVec 16} {blk i : Nat} {y : Node} (corrected : Nat) (poisoned : List Nat)
    (h : ReadyFor d th t (.objSend o port blk)) (found : kfind d.ccp.objs o = some x) (closed : x.closed = true)
    (node : d.nodeByHandle t.msg.node = some (i, y)) : ∃ owes : List Nat, owes.length = (x.size + blk - 1) / blk
      ∧ Only [.out, .start, .evt, .sht, .ply, .dst] (sending d th t corrected owes) (doObjSend th corrected poisoned d) := by
  rw [doObjSend_blocks corrected poisoned h found closed node]
  exact ⟨_, by rw [List.length_map, List.length_range], .each (.refl _ _) fun _ _ => submitRec_keeps ..⟩

end

/-- Settles O34: a record that is submitted is assigned or waits (`submitRec_held`); a reply ends the threads that wait for it, one
after another (`finishes_ended`); and a command leaves the tables of nodes and objects with the one change that it names
(`doThrowGroupSet_groups`, `ObjsEnd`). That the corrected reads which are counted are those of OBJ_SEND is the model's choice
(log 125). -/
theorem nodeAndObjectCommands : Obligations.NodeAndObjectCommands := by
  unfold Obligations.NodeAndObjectCommands
  refine ⟨fun s dt th t => ?_, fun s dt th t o => ?_⟩
  · intro e
    refine ⟨fun port noReply data ready => ⟨fun absent => gives_run rfl ?_, fun i x found here => gives_run rfl ?_⟩,
      fun i x data node found runs op dest wants direct => gives_runCpu rfl ?_,
      fun g add i x ready found node => ⟨fun adds new room => gives_run rfl ?_, fun adds new full => gives_run rfl ?_,
        fun leaves member => gives_run rfl ?_⟩⟩
    · rw [doNodeReq_absent ready absent]
      exact ended_threadsOnly ready _ _
    · have only := submitRec_keeps (e.running th t) (nodeReqRec e i port t.msg.tag data)
      rw [doNodeReq_present ready found here]
      refine ⟨?_, only.same .wrp (by decide), submitRec_held ..⟩
      rw [only.thread? th (by decide), ready.thread?]
      rfl
    · have only := doNodeReplyReceive_only i t.msg.tag data (takeCpu e)
        (l_ := [.out, .start, .evt, .whl, .ccp, .ply, .dst, .img]) rfl (.refl _ _)
      obtain ⟨b, before, ends⟩ := doNodeReplyReceive_ends (d := takeCpu e) (tag := t.msg.tag) (data := data) node
      have waits : b.thread? th = some t := (before.thread? th (by decide)).trans found
      refine ⟨?_, only.same .wrp (by decide), only.same .pra (by decide)⟩
      rw [ends]
      exact finishes_ended (mem_nodeReqThreads waits runs op dest rfl (by simp [wants, direct])) waits runs
    · have sets := doThrowGroupSet_groups ready found node (by rw [new, adds]; decide) (fun full => by omega)
      rwa [if_pos adds] at sets
    · rw [doThrowGroupSet_full ready found adds new full]
      exact ⟨ready.ends rfl _ _, finish_wrp ..⟩
    · have sets := doThrowGroupSet_groups ready found node (by rw [member, leaves]; decide) (fun full => by simp [leaves] at full)
      rwa [if_neg (by simp [leaves])] at sets
  · intro e others
    refine ⟨fun n dig ready => ⟨fun free few room => gives_run rfl ?_, fun taken => gives_run rfl ?_⟩,
      fun x off l found ready writable within => gives_run rfl ?_,
      fun x found ready => ⟨fun agrees => gives_run rfl ?_, fun differs => gives_run rfl ?_⟩,
      fun ready unused => gives_run rfl ?_, fun x port blk i y corrected poisoned found closed ready node => gives_run rfl ?_⟩
    · rw [doObjOpen_room ready free few room]
      have ends := ready.endsWatched (kput e.ccp.objs o { size := n, digest := dig }) .ok
      exact ⟨(ends.obj o).trans (kfind_kput_same ..), ends.ended,
        fun k other => (ends.obj k).trans (kfind_kput_other _ _ _ _ other.symm), ends.wrp, ends.pra⟩
    · rw [doObjOpen_taken ready taken]
      have ends := ready.endsObjs e.ccp.objs .duplicate
      exact ⟨ends.ended, ends.objs⟩
    · rw [doObjWrite_open ready found writable within]
      have ends := ready.endsObjs (kadj e.ccp.objs o (fun x => x.write off l)) .ok
      exact ⟨ends.ended, ⟨fun k other => (ends.obj k).trans (kfind_kadj_other _ _ other.symm), ends.wrp, ends.pra⟩,
        x.write off l, (ends.obj o).trans (kfind_kadj_same _ found), x.write_reads off l, fun k out => x.write_octet_other out, rfl⟩
    · rw [doObjClose_eq ready found, if_pos agrees]
      have ends := ready.endsObjs (kadj e.ccp.objs o (fun x => { x with closed := true })) .ok
      exact ⟨(ends.obj o).trans (kfind_kadj_same _ found), ends.ended,
        fun k other => (ends.obj k).trans (kfind_kadj_other _ _ other.symm), ends.wrp, ends.pra⟩
    · rw [doObjClose_eq ready found, if_neg differs]
      have ends := ready.endsObjs e.ccp.objs .digest
      exact ⟨ends.ended, ends.objs⟩
    · rw [doObjDelete_unused ready unused]
      have ends := ready.endsWatched (kdel e.ccp.objs o) .ok
      exact ⟨(ends.obj o).trans (kfind_kdel_same ..), ends.ended,
        fun k other => (ends.obj k).trans (kfind_kdel_other _ _ _ other.symm), ends.wrp, ends.pra⟩
    · obtain ⟨owes, blocks, only⟩ := doObjSend_submits corrected poisoned ready found closed node
      refine ⟨?_, (congrArg Glb.corr (only.same .glb (by decide)) :), (congrArg Ccp.objs (only.same .ccp (by decide)) :),
        only.same .wrp (by decide)⟩
      rw [only.thread? th (by decide), sending_thread? ready, ← blocks]
      rfl

end Sys2Proof.Machine
end
section
/-! PROOFS. Packets to an identity (O53): one that may be sent leaves with the identity's next number, and counts it. -/

namespace Sys2Proof.Machine

section
variable {d : Dev} {i : Nat} {x : Identity} (known : kfind d.ccp.idents i = some x)
  (allowed : (invoke d x.skein masterCcp useEncrypt).1 = true)
include known allowed

/-- A packet to an identity whose skein may encrypt leaves in its frame, and the identity's run counts it (R188, R195). -/
theorem ccpSend_allowed (dst : BitVec 128) (port : BitVec 16) (mk : Nat → Output) : ccpSend d i dst port mk =
    let seq := 2 ^ 63 + (kgetD d.ccp.runs i {}).sent
    (true, ((ccpEmit d dst port (ccpPacket d x.skein (mk seq).ccp.1 i seq (mk seq).ccp.2)).emit (mk seq)).modIdent i
      (fun r => { r with sent := r.sent + 1 })) := by
  simp only [ccpSend, known, invoke_allowed allowed, if_true]

theorem ccpSend_runs (dst : BitVec 128) (port : BitVec 16) (mk : Nat → Output) : (ccpSend d i dst port mk).2.ccp.runs =
    kmod d.ccp.runs i {} (fun r => { r with sent := r.sent + 1 }) := by
  rw [ccpSend_allowed known allowed]; rfl

end

/-- Settles O53: a packet that leaves is counted in its identity's run, and in no other (`ccpSend_runs`). -/
theorem packetsAreNumbered : Obligations.PacketsAreNumbered := by
  unfold Obligations.PacketsAreNumbered
  intro d i x dst port mk known allowed n o
  have may : (invoke d x.skein masterCcp useEncrypt).1 = true := by rw [allowed]
  rw [ccpSend_runs known may]
  refine ⟨?_, ?_, fun j other => kgetD_kput_other _ _ _ _ _ other.symm, fun ph pwr => rfl⟩
  · rw [ccpSend_allowed known may]
    exact List.append_assoc ..
  · exact congrArg IdentRun.sent (kgetD_kput_same ..)

end Sys2Proof.Machine
end
section
/-! PROOFS. Receipt of hanks (O30). -/

namespace Sys2Proof.Machine

/-! ## The replay window -/

/-- A SEQ that the window has accepted is accepted no more (R194). -/
theorem IdentRun.take_stale (r : IdentRun) (seq : Nat) : (r.take_ seq).fresh seq = false := by
  have top : ¬ max seq (r.high.getD 0) < seq := by omega
  simp [take_, fresh, top]

/-! ## The checks of R193, in their order -/

section
variable {d : Dev} {p : CcpPacket}

theorem doHankReceive_whole {port : Port} (up : d.phase = .up) (hears : ccpHears d port p = true) :
    doHankReceive port none p d = takePacket d p := if_neg (by simp [up, hears])

theorem takePacket_malformed (bad : packetOk p = false) : takePacket d p = ccpFormat d := if_pos bad

/-- A hank of a known identity is checked by its tag, by its SEQ, and then from BOOT on. -/
theorem takePacket_hank {x : Identity} (good : packetOk p = true) (hank : p.type = 1) (room : d.ccp.waiting.length < 256)
    (known : kfind d.ccp.idents p.ident.toNat = some x) (may : (invoke d x.skein masterCcp useDecrypt).1 = true) :
    takePacket d p = if p.tagOk = false then ccpAuthFail d else if 2 ^ 63 ≤ p.seq then ccpFormat d else takeHank d p := by
  simp [takePacket, good, hank, known, invoke_allowed may, Nat.not_le.2 room]

theorem takeHank_stale (stale : p.boot ≠ d.ccp.boot) : takeHank d p =
    report (sendAck d p.ident.toNat p.src p.sport p.seq 1 d.ccp.epoch []) evHankStaleBoot [] := if_pos stale

/-- A new hank for this side, with a well-formed body, waits for admission. -/
theorem takeHank_waits {cmds : List CmdMsg} (current : p.boot = d.ccp.boot)
    (fresh : (kgetD d.ccp.runs p.ident.toNat {}).fresh p.seq = true) (ours : p.dply = 0 ∨ p.dply.toNat = d.ply.ply)
    (side : p.dside.toNat = b2n d.ply.side) (body : parseBody 256 p.body = some cmds) :
    takeHank d p = queueHank (d.modIdent p.ident.toNat (·.take_ p.seq)) p cmds none := by
  have here : arrive (d.modIdent p.ident.toNat (·.take_ p.seq)) p none
      = queueHank (d.modIdent p.ident.toNat (·.take_ p.seq)) p cmds none := by
    unfold arrive; rw [body]; exact if_neg (not_not.2 side)
  rw [← here]
  unfold takeHank; dsimp only
  rw [if_neg (not_not.2 current), if_neg (by simp [fresh])]
  exact if_pos ours

end

/-! ## What is answered -/

theorem sendAck_acks {d : Dev} {i : Nat} {x : Identity} (src : BitVec 128) (sport : BitVec 16) (hseq st epoch : Nat)
    (entries : List (Nat × Nat)) (known : kfind d.ccp.idents i = some x)
    (allowed : (invoke d x.skein masterCcp useEncrypt).1 = true) :
    (sendAck d i src sport hseq st epoch entries).out.drop (d.out.length + 1)
      = [.hankAck src sport i (2 ^ 63 + (kgetD d.ccp.runs i {}).sent) hseq st epoch entries] := by
  have sent := (ccpSend_sent src sport (fun seq => .hankAck src sport i seq hseq st epoch entries) known allowed).1
  unfold sendAck; split
  next eq => rw [eq] at sent; exact sent
  next eq => rw [eq] at sent; exact sent

/-- A hank of another BOOT is acknowledged with STALE_BOOT and reported; no hank and no thread comes of it. -/
theorem takeHank_answers {d : Dev} {p : CcpPacket} {x : Identity} (runs : d.phase.fwRuns = true) (stale : p.boot ≠ d.ccp.boot)
    (known : kfind d.ccp.idents p.ident.toNat = some x) (allowed : (invoke d x.skein masterCcp useEncrypt).1 = true) :
    (takeHank d p).out.drop (d.out.length + 1) = [.hankAck p.src p.sport p.ident.toNat
        (2 ^ 63 + (kgetD d.ccp.runs p.ident.toNat {}).sent) p.seq 1 d.ccp.epoch []]
      ∧ (takeHank d p).evt.sticky evHankStaleBoot = true ∧ (takeHank d p).ccp.held = d.ccp.held := by
  have phase := (sendAck_only d p.ident.toNat p.src p.sport p.seq 1 d.ccp.epoch []
    (l_ := [.out, .start, .evt, .ccp, .dst]) rfl (.refl _ _)).same .phase (by decide)
  rw [takeHank_stale stale, report_out, report_ccp]
  exact ⟨sendAck_acks _ _ _ _ _ _ known allowed, report_sticky _ _ _ ((congrArg Phase.fwRuns phase).trans runs), sendAck_held ..⟩

/-! ## Reassembly (R188) -/

theorem mem_doReassemblyTimeout (src : BitVec 128) (id : Nat) (d : Dev) (r : BitVec 128 × Nat × Nat) :
    r ∈ (doReassemblyTimeout src id d).ccp.reass
      ↔ r ∈ d.ccp.reass ∧ ¬ (r.1 = src ∧ r.2.1 = id ∧ r.2.2 + 1000000000 ≤ d.glb.upNs) :=
  List.mem_filter.trans (and_congr_right fun _ => by
    simp only [Bool.not_eq_true', ← Bool.not_eq_true, Bool.and_eq_true, beq_iff_eq, decide_eq_true_eq, and_assoc])

/-- Settles O30: a packet passes the checks of R193 in their order (`takePacket_hank`), and what has passed them waits
(`takeHank_waits`) or is answered (`takeHank_answers`). That a STALE_BOOT acknowledgement carries the epoch is the model's
reading (log 58), and that the firmware takes the packet from the CPU port's queue its choice (log 118). -/
theorem hankReceipt : Obligations.HankReceipt := by
  unfold Obligations.HankReceipt
  intro s dt port p e c
  refine ⟨fun up hears hank room => ?_, fun src id => gives_run rfl ⟨rfl, rfl, fun r => ?_⟩⟩
  · have runs : c.phase.fwRuns = true := congrArg Phase.fwRuns up
    have whole : doHankReceive port none p c = takePacket c p := doHankReceive_whole up hears
    refine ⟨fun bad => gives_runCpu rfl (whole.trans (takePacket_malformed bad)), fun x good known may => ?_⟩
    have usable (use : Nat) : (invoke c x.skein masterCcp use).1 = (invoke e x.skein masterCcp use).1 :=
      invoke_of_keys (a := e) (b := c) rfl rfl ..
    have checked := takePacket_hank (d := c) good hank room known ((usable _).trans may)
    have taken (tagged : p.tagOk = true) (low : p.seq < 2 ^ 63) : doHankReceive port none p c = takeHank c p := by
      rw [whole, checked, if_neg (by simp [tagged]), if_neg (Nat.not_le.2 low)]
    refine ⟨fun forged => gives_runCpu rfl ?_, fun tagged low stale allowed => gives_runCpu rfl ?_,
      fun cmds tagged low current fresh ours side body => gives_runCpu rfl ?_⟩
    · rw [whole.trans (checked.trans (if_pos forged))]
      exact ⟨report_ccp .., report_sticky _ _ _ runs, report_out ..⟩
    · rw [taken tagged low]
      obtain ⟨acks, sticky, held⟩ := takeHank_answers (d := c) runs stale known ((usable _).trans allowed)
      exact ⟨acks, sticky, congrArg Prod.snd held, congrArg Prod.fst held⟩
    · rw [taken tagged low, takeHank_waits (d := c) current fresh ours side body]
      refine ⟨rfl, rfl, ?_, rfl⟩
      exact (congrArg (IdentRun.fresh · p.seq) (kgetD_kput_same ..)).trans (IdentRun.take_stale ..)
  · exact mem_doReassemblyTimeout ..

end Sys2Proof.Machine
end
section
/-! PROOFS. Threads in time (O32). -/

namespace Sys2Proof.Machine

/-! ## A thread's time (R203, R205) -/

theorem doThreadTimeout_due {d : Dev} {th x : Nat} {t : Thread} (found : d.thread? th = some t) (time : t.tmoAt = some x)
    (alive : t.st ≠ .done) (due : x ≤ d.glb.upNs) : doThreadTimeout th d = finish d th .timeout [] := by
  simp only [doThreadTimeout, found, time]
  exact if_pos ⟨alive, due⟩

theorem doThreadRetainExpire_due {d : Dev} {th : Nat} {t : Thread} (found : d.thread? th = some t) (done : t.st = .done)
    (due : t.doneUp + t.retain * 1000000000 ≤ d.glb.upNs) : doThreadRetainExpire th d = freeThread d th := by
  simp only [doThreadRetainExpire, found]
  exact if_pos ⟨done, due⟩

/-! ## Completions (R205) -/

/-- Thread `th` is counted as sent. -/
def markSent (d : Dev) (th : Nat) : Dev := d.modThread th (fun t => { t with sent := true })

theorem markSent_only (d : Dev) (th : Nat) : Only [.ccp] d (markSent d th) := Dev.modThread_only d th _ rfl (.refl _ _)

theorem markSent_doneQ (d : Dev) (th : Nat) : (markSent d th).ccp.doneQ = d.ccp.doneQ := rfl

/-- A thread that is counted as sent stays so. -/
theorem markSent_sent {d : Dev} {th : Nat} (n : Nat) (h : (d.thread? th).map (·.sent) = some true) :
    ((markSent d n).thread? th).map (·.sent) = some true := by
  obtain ⟨t, found, sent⟩ := Option.map_eq_some_iff.1 h
  by_cases same : n = th
  · subst same; rw [markSent, modThread_thread?_same _ found]; rfl
  · rwa [markSent, modThread_thread?_other _ _ same]

/-- Of threads counted as sent one after another, the first stays counted. -/
theorem markSent_first {d : Dev} {th : Nat} {t : Thread} (l : List Nat) (found : d.thread? th = some t) :
    ((each (th :: l) markSent d).thread? th).map (·.sent) = some true := by
  have first : ((markSent d th).thread? th).map (·.sent) = some true := by rw [markSent, modThread_thread?_same _ found]; rfl
  exact each_holds (P := fun e => (e.thread? th).map (·.sent) = some true) (l := l) (d := markSent d th) first
    fun _ n h => markSent_sent n h

/-- The record of the thread that ended first goes into the packet where it fits. -/
theorem packRecords_cons {d : Dev} {th room : Nat} {t : Thread} (rest : List Nat) (found : d.thread? th = some t)
    (fits : (completionRecord th t).length ≤ room) : packRecords d (t.ident, t.src, t.sport) room (th :: rest) =
      (th, completionRecord th t) ::
        packRecords d (t.ident, t.src, t.sport) (room - (completionRecord th t).length) rest := by
  rw [packRecords, found]
  exact if_pos ⟨rfl, fits⟩

/-- The device once a packet of completions has left for the hank's source. -/
def completionSent (d : Dev) (t : Thread) (l : List (List Byte)) : Dev :=
  (ccpSend d t.ident t.src t.sport (fun seq => .completion t.src t.sport t.ident seq l)).2

theorem completionSent_only (d : Dev) (t : Thread) (l : List (List Byte)) :
    Only [.out, .start, .evt, .ccp, .dst] d (completionSent d t l) := ccpSend_only _ _ _ _ _ rfl (.refl _ _)

/-- Where no thread is COMPLETE_ACK's, the records that come first leave in one packet, and their threads the queue. -/
theorem doCompletionSend_packs {d : Dev} {th : Nat} {t : Thread} {rest : List Nat} {l : List (Nat × List Byte)}
    (found : d.thread? th = some t) (queue : d.ccp.doneQ = th :: rest)
    (heard : ∀ k ∈ d.ccp.doneQ, ∃ u, d.thread? k = some u ∧ u.silent = false)
    (packs : packRecords d (t.ident, t.src, t.sport) 8156 (th :: rest) = l) : doCompletionSend d =
      (each (l.map (·.1)) markSent (completionSent d t (l.map (·.2)))).modCcp (fun c => { c with doneQ := c.doneQ.drop l.length }) := by
  subst packs
  unfold doCompletionSend; dsimp only
  rw [List.filter_eq_nil_iff.2 ?loud]
  case loud =>
    intro k mem
    obtain ⟨u, some, speaks⟩ := heard k mem
    simp [some, speaks]
  simp only [each, List.foldl_nil, queue, found]
  rfl

section
variable {d : Dev} {t : Thread} {x : Identity} (known : kfind d.ccp.idents t.ident = some x)
  (allowed : (invoke d x.skein masterCcp useEncrypt).1 = true) (l : List (List Byte))
include known allowed

theorem completionSent_out : (completionSent d t l).out.drop (d.out.length + 1)
    = [.completion t.src t.sport t.ident (2 ^ 63 + (kgetD d.ccp.runs t.ident {}).sent) l] :=
  (ccpSend_sent _ _ _ known allowed).1

theorem completionSent_ccp : ∃ m, (completionSent d t l).ccp = { d.ccp with runs := m } := by
  rw [completionSent, ccpSend_allowed known allowed]
  exact ⟨_, rfl⟩

end

/-- The packet starts with the record of the thread that ended first, which is sent now and waits no more. -/
theorem doCompletionSend_sends {d : Dev} {th : Nat} {t : Thread} {x : Identity} {rest : List Nat} (found : d.thread? th = some t)
    (queue : d.ccp.doneQ = th :: rest) (known : kfind d.ccp.idents t.ident = some x)
    (allowed : (invoke d x.skein masterCcp useEncrypt).1 = true) (fits : (completionRecord th t).length ≤ 8156)
    (heard : ∀ k ∈ d.ccp.doneQ, ∃ u, d.thread? k = some u ∧ u.silent = false) :
    (∃ l, (doCompletionSend d).out.drop (d.out.length + 1) = [.completion t.src t.sport t.ident
        (2 ^ 63 + (kgetD d.ccp.runs t.ident {}).sent) (completionRecord th t :: l)])
      ∧ (doCompletionSend d).ccp.doneQ.length ≤ rest.length ∧ ((doCompletionSend d).thread? th).map (·.sent) = some true
      ∧ Only [.out, .start, .evt, .ccp, .dst] d (doCompletionSend d) := by
  rw [doCompletionSend_packs found queue heard (packRecords_cons rest found fits)]
  generalize packRecords d _ _ rest = more
  obtain ⟨runs, ccp⟩ := completionSent_ccp known allowed (completionRecord th t :: more.map (·.2))
  have leaves := completionSent_out known allowed (completionRecord th t :: more.map (·.2))
  have only := completionSent_only d t (completionRecord th t :: more.map (·.2))
  rw [List.map_cons, List.map_cons]
  generalize completionSent d t (completionRecord th t :: more.map (·.2)) = b at ccp leaves only ⊢
  have marks : Only [.ccp] b (each (th :: more.map (·.1)) markSent b) := .each (.refl _ _) markSent_only
  have waits : (each (th :: more.map (·.1)) markSent b).ccp.doneQ = th :: rest :=
    (each_keeps (fun e => e.ccp.doneQ) markSent_doneQ).trans ((congrArg Ccp.doneQ ccp).trans queue)
  refine ⟨⟨more.map (·.2), ?_⟩, ?_, ?_, Dev.modCcp_only _ _ rfl (only.trans (marks.mono rfl))⟩
  · exact (congrArg (List.drop (d.out.length + 1)) (marks.same .out (by decide))).trans leaves
  · rw [Dev.modCcp_ccp]
    simp only [waits, List.length_drop, List.length_cons]
    omega
  · exact markSent_first _ (.trans (congrArg (fun c : Ccp => kfind c.threads th) ccp) found)

/-- Settles O32: the time of a thread is its own (`doThreadTimeout_due`, `doThreadRetainExpire_due`), and the packet of completions
starts with the record of the thread that ended first (`doCompletionSend_sends`). -/
theorem threadsInTime : Obligations.ThreadsInTime := by
  unfold Obligations.ThreadsInTime
  intro s dt th t e found
  refine ⟨fun x time alive due => gives_run rfl ?_, fun done due => gives_run rfl ?_,
    fun x rest queue known allowed fits heard => gives_run rfl ?_⟩
  · rw [doThreadTimeout_due found time alive due]
    exact ⟨finish_ended .timeout [] found alive, .finish ..⟩
  · rw [doThreadRetainExpire_due found done due]
    exact ⟨freeThread_thread?_same .., fun k other => freeThread_thread?_other _ other.symm⟩
  · obtain ⟨leaves, shorter, sent, only⟩ := doCompletionSend_sends found queue known allowed fits heard
    exact ⟨leaves, shorter, sent, only.same .whl (by decide), only.same .pra (by decide)⟩

end Sys2Proof.Machine
end
section
/-! PROOFS. POLICY_WRITE (O35). The end of a thread leaves the policy; a hard revocation ends every thread it is to end, whatever
threads it ends besides. -/

namespace Sys2Proof.Machine

/-! ## The policy and its epoch -/

/-- The policy table and its epoch. -/
def Ccp.rules (c : Ccp) : KMap Policy × Nat := (c.policy, c.epoch)

theorem markDone_rules (d : Dev) (th : Nat) (st : Status) (res : List Byte) : (markDone d th st res).ccp.rules = d.ccp.rules := by
  unfold markDone; split
  · rfl
  · split <;> rfl

theorem settleFence_rules (d : Dev) (th : Nat) : (settleFence d th).ccp.rules = d.ccp.rules := by
  unfold settleFence; split
  · rfl
  · split
    · split
      · split <;> exact markDone_rules ..
      · rfl
    · rfl

theorem settleFences_rules (d : Dev) : (settleFences d).ccp.rules = d.ccp.rules :=
  each_keeps (fun e => e.ccp.rules) settleFence_rules

theorem finish_rules (d : Dev) (th : Nat) (st : Status) (res : List Byte) : (finish d th st res).ccp.rules = d.ccp.rules :=
  (settleFences_rules _).trans (markDone_rules ..)

/-- Who is allowed what goes by the table alone. -/
theorem allowed_of_policy {a b : Dev} (same : b.ccp.policy = a.ccp.policy) (ident op : Nat) (node : BitVec 32) :
    allowed b ident op node = allowed a ident op node := by
  unfold allowed; rw [same]

theorem putPolicy_policy (d : Dev) (i : Nat) (l : List Byte) : (putPolicy d i l).ccp.policy =
    match policyOf l with | some p => kput d.ccp.policy i p | none => kdel d.ccp.policy i := rfl

theorem putPolicy_same (d : Dev) (i : Nat) (l : List Byte) : kfind (putPolicy d i l).ccp.policy i = policyOf l := by
  rw [putPolicy_policy]; split
  next p => rw [p, kfind_kput_same]
  next n => rw [n, kfind_kdel_same]

theorem putPolicy_other (d : Dev) {i k : Nat} (l : List Byte) (other : k ≠ i) :
    kfind (putPolicy d i l).ccp.policy k = kfind d.ccp.policy k := by
  rw [putPolicy_policy]; split
  · exact kfind_kput_other _ _ _ _ other.symm
  · exact kfind_kdel_other _ _ _ other.symm

/-! ## A list in rising order of a key holds what it held -/

theorem insertBy_perm {α : Type} (key : α → Nat) (x : α) (l : List α) : (insertBy key x l).Perm (x :: l) := by
  induction l with
  | nil => exact .refl _
  | cons y r ih =>
    unfold insertBy; split
    · exact .refl _
    · exact (ih.cons y).trans (.swap x y r)

theorem sortBy_perm {α : Type} (key : α → Nat) (l : List α) : (sortBy key l).Perm l := by
  have folds (a : List α) : (l.foldl (fun a x => insertBy key x a) a).Perm (l ++ a) := by
    induction l generalizing a with
    | nil => exact .refl _
    | cons x r ih => exact (ih _).trans (((insertBy_perm key x a).append_left r).trans List.perm_middle)
  simpa [sortBy] using folds []

/-! ## A hard revocation (R214) -/

/-- A thread not DONE, of an older epoch, with a command that the table does not allow is one that a hard revocation ends. -/
theorem mem_revokedThreads {d : Dev} {k : Nat} {u : Thread} (found : d.thread? k = some u) (alive : u.st ≠ .done)
    (older : epochOlder u.epoch d.ccp.epoch = true) (denied : allowed d u.ident u.msg.opcode u.msg.node = false) :
    k ∈ revokedThreads d :=
  List.mem_map.2 ⟨(k, u), (sortBy_perm ..).mem_iff.2
    (List.mem_filter.2 ⟨mem_of_kfind found, by simp [alive, older, denied]⟩), rfl⟩

/-- Thread `th` is revoked, before the fences on it are released. -/
def revoke (d : Dev) (th : Nat) : Dev := markDone (revokeThrow d th) th .revoked []

theorem revokeThrow_ccp (d : Dev) (th : Nat) : (revokeThrow d th).ccp = d.ccp :=
  (revokeThrow_only d th (l_ := [.out, .start, .evt, .whl, .sht, .ply, .dst]) rfl (.refl _ _)).same .ccp (by decide)

theorem revoke_only (d : Dev) (th : Nat) : Only [.out, .start, .evt, .whl, .ccp, .sht, .ply, .dst, .img] d (revoke d th) :=
  markDone_only _ _ _ _ rfl (revokeThrow_only d th rfl (.refl _ _))

theorem revoke_rules (d : Dev) (th : Nat) : (revoke d th).ccp.rules = d.ccp.rules :=
  (markDone_rules ..).trans (congrArg Ccp.rules (revokeThrow_ccp d th))

/-- The end of another thread leaves a thread's end to come. -/
theorem markDone_thread?_alive {d : Dev} {n k : Nat} {u : Thread} (st : Status) (res : List Byte) (other : n ≠ k)
    (found : d.thread? k = some u) (alive : u.st ≠ .done) :
    ∃ v, (markDone d n st res).thread? k = some v ∧ v.st ≠ .done := by
  unfold markDone; split
  · exact ⟨u, found, alive⟩
  · split
    · exact ⟨u, found, alive⟩
    · simp only [Dev.thread?, Dev.modCcp_ccp, Dev.modImg_ccp, kfind_kmap, kfind_kput_other _ _ _ _ other]
      refine ⟨_, congrArg (Option.map _) found, ?_⟩
      dsimp only; split <;> exact alive

/-- A thread that has ended stays as it ended when another ends. -/
theorem EndedWith.markDone {d : Dev} {k : Nat} {st : Status} {res : List Byte} (h : EndedWith d k st res) (n : Nat) (st' : Status)
    (res' : List Byte) : EndedWith (Machine.markDone d n st' res') k st res := by
  obtain ⟨u, found, done, shows⟩ := h
  by_cases same : n = k
  · subst same; rw [markDone_done _ _ found done]; exact ⟨u, found, done, shows⟩
  · exact ⟨u, (markDone_thread?_other st' res' same).2 u found (by simp [done]), done, shows⟩

theorem EndedWith.of_ccp {a b : Dev} {k : Nat} {st : Status} {res : List Byte} (h : EndedWith a k st res) (same : b.ccp = a.ccp) :
    EndedWith b k st res := by
  unfold EndedWith Dev.thread? at *; rwa [same]

theorem EndedWith.revoke {d : Dev} {k : Nat} {st : Status} {res : List Byte} (h : EndedWith d k st res) (n : Nat) :
    EndedWith (Machine.revoke d n) k st res := (h.of_ccp (revokeThrow_ccp d n)).markDone ..

theorem EndedWith.settleFences {d : Dev} {k : Nat} {st : Status} {res : List Byte} (h : EndedWith d k st res) :
    EndedWith (Machine.settleFences d) k st res := by
  obtain ⟨u, found, done, shows⟩ := h
  exact ⟨u, (settleFences_keepsUnfenced d).unfenced found (by simp [done]), done, shows⟩

/-- Of threads revoked one after another, each that was not DONE ends with REVOKED. -/
theorem revokes_ended {l : List Nat} {d : Dev} {k : Nat} {u : Thread} (named : k ∈ l) (found : d.thread? k = some u)
    (alive : u.st ≠ .done) : EndedWith (each l revoke d) k .revoked [] := by
  induction l generalizing d u with
  | nil => cases named
  | cons n l ih =>
    have here : (revokeThrow d n).thread? k = some u := (congrArg (fun c : Ccp => kfind c.threads k) (revokeThrow_ccp d n)).trans found
    by_cases same : n = k
    · subst same
      have ended : EndedWith (revoke d n) n .revoked [] := markDone_thread?_same .revoked [] here alive
      exact each_holds (P := fun e => EndedWith e n .revoked []) (l := l) (d := revoke d n) ended fun _ m h => h.revoke m
    · obtain ⟨v, later, going⟩ := markDone_thread?_alive .revoked [] same here alive
      exact ih (by simpa [Ne.symm same] using named) later going

/-- The device once the threads that a hard revocation ends are ended, the fences on them released, and it is reported. -/
def revokeAll (d : Dev) : Dev :=
  report (settleFences (each (revokedThreads d) revoke d)) evRevoke (octets 4 (revokedThreads d).length)

theorem revokeAll_rules (d : Dev) : (revokeAll d).ccp.rules = d.ccp.rules :=
  (congrArg Ccp.rules (report_ccp ..)).trans ((settleFences_rules _).trans (each_keeps (fun e => e.ccp.rules) revoke_rules))

theorem revokeAll_sticky {d : Dev} (runs : d.phase.fwRuns = true) : (revokeAll d).evt.sticky evRevoke = true := by
  have phase : (settleFences (each (revokedThreads d) revoke d)).phase = d.phase :=
    (settleFences_only _ (l_ := [.out, .start, .evt, .whl, .ccp, .sht, .ply, .dst, .img]) rfl (.each (.refl _ _) revoke_only)).same
      .phase (by decide)
  exact report_sticky _ _ _ ((congrArg Phase.fwRuns phase).trans runs)

/-- A hard revocation ends each thread that it finds. -/
theorem revokeAll_ended {d : Dev} {k : Nat} {u : Thread} (found : d.thread? k = some u) (alive : u.st ≠ .done)
    (older : epochOlder u.epoch d.ccp.epoch = true) (denied : allowed d u.ident u.msg.opcode u.msg.node = false) :
    EndedWith (revokeAll d) k .revoked [] :=
  ((revokes_ended (mem_revokedThreads found alive older denied) found alive).settleFences).of_ccp (report_ccp ..)

/-! ## The command (R212) -/

/-- The device once the command of thread `th` has replaced entry `i`, counted the epoch on and reported it. -/
def policySet (d : Dev) (th i : Nat) (t : Thread) (entry : List Byte) : Dev :=
  report ((putPolicy (d.running th t) i entry).modCcp
    (fun c => { c with epoch := (c.epoch + 1) % 65536, lastPolicy := some d.glb.upNs })) evPolicyChange []

section
variable {d : Dev} {th i : Nat} {t : Thread} {entry : List Byte}

theorem policySet_ccp : (policySet d th i t entry).ccp =
    { (putPolicy (d.running th t) i entry).ccp with epoch := (d.ccp.epoch + 1) % 65536, lastPolicy := some d.glb.upNs } :=
  report_ccp ..

theorem policySet_epoch : (policySet d th i t entry).ccp.epoch = (d.ccp.epoch + 1) % 65536 := congrArg Ccp.epoch policySet_ccp

theorem policySet_policy : (policySet d th i t entry).ccp.policy = (putPolicy d i entry).ccp.policy :=
  (congrArg Ccp.policy policySet_ccp :)

theorem policySet_thread? (k : Nat) : (policySet d th i t entry).thread? k = (d.running th t).thread? k :=
  (congrArg (fun c : Ccp => kfind c.threads k) policySet_ccp :)

theorem policySet_only : Only [.start, .evt, .ccp] d (policySet d th i t entry) :=
  report_only _ _ _ rfl (Dev.modCcp_only _ _ rfl (putPolicy_only _ _ _ rfl (Dev.modThread_only _ _ _ rfl (.refl _ _))))

theorem policySet_runs (up : d.phase = .up) : (policySet d th i t entry).phase.fwRuns = true :=
  congrArg Phase.fwRuns ((policySet_only.same .phase (by decide)).trans up)

theorem policySet_sticky (up : d.phase = .up) : (policySet d th i t entry).evt.sticky evPolicyChange = true :=
  report_sticky _ _ _ (congrArg Phase.fwRuns up)

/-- What leaves the table and the epoch leaves them as POLICY_WRITE has set them. -/
theorem policySet_stays {b : Dev} (h : b.ccp.rules = (policySet d th i t entry).ccp.rules) :
    b.ccp.epoch = (d.ccp.epoch + 1) % 65536 ∧ kfind b.ccp.policy i = policyOf entry
      ∧ ∀ k, k ≠ i → kfind b.ccp.policy k = kfind d.ccp.policy k := by
  obtain ⟨policy, epoch⟩ := Prod.ext_iff.1 h
  rw [show b.ccp.policy = (putPolicy d i entry).ccp.policy from policy.trans policySet_policy]
  exact ⟨epoch.trans policySet_epoch, putPolicy_same .., fun k other => putPolicy_other _ _ other⟩

theorem doPolicyWrite_soft (turn : policyTurn d th = true) (ready : ReadyFor d th t (.policyWrite i false entry)) :
    doPolicyWrite th d = finish (policySet d th i t entry) th .ok
      (octets 2 ((d.ccp.epoch + 1) % 65536) ++ octets 2 0 ++ octets 4 0) := by
  rw [← policySet_epoch (th := th) (i := i) (t := t) (entry := entry)]
  exact (if_neg (by simp [turn])).trans (runThread_ready (a := (i, false, entry)) _ ready (by rfl))

theorem doPolicyWrite_hard (turn : policyTurn d th = true) (ready : ReadyFor d th t (.policyWrite i true entry)) :
    ∃ res, doPolicyWrite th d = finish (revokeAll (policySet d th i t entry)) th .ok res :=
  ⟨_, (if_neg (by simp [turn])).trans (runThread_ready (a := (i, true, entry)) _ ready (by rfl))⟩

end

/-- Settles O35: the end of a thread leaves the table and the epoch as POLICY_WRITE has set them (`policySet_stays`), and each
thread that a hard revocation finds it ends (`revokeAll_ended`). -/
theorem policyWrite : Obligations.PolicyWrite := by
  unfold Obligations.PolicyWrite
  intro s dt th i t entry e epoch turn
  refine ⟨fun ready => gives_run rfl ?_, fun ready => gives_run rfl ?_⟩
  · let res := octets 2 epoch ++ octets 2 0 ++ octets 4 0
    rw [show doPolicyWrite th e = finish (policySet e th i t entry) th .ok res from doPolicyWrite_soft turn ready]
    obtain ⟨counted, entered, others⟩ := policySet_stays (finish_rules (policySet e th i t entry) th .ok res)
    have only : Only [.start, .evt, .whl, .ccp, .ply, .img] e (finish (policySet e th i t entry) th .ok res) :=
      finish_only _ _ _ _ rfl (policySet_only.mono rfl)
    have ended := finish_ended .ok res ((policySet_thread? (i := i) (entry := entry) th).trans ready.thread?) (by simp [Thread.begun])
    refine ⟨counted, entered, others, ended, ?_, only.same .spn (by decide), only.same .pra (by decide)⟩
    rw [finish_evt]
    exact policySet_sticky ready.1
  · obtain ⟨res, eq⟩ := doPolicyWrite_hard turn ready
    rw [eq]
    obtain ⟨counted, entered, -⟩ := policySet_stays ((finish_rules _ th .ok res).trans (revokeAll_rules (policySet e th i t entry)))
    refine ⟨counted, entered, ?_, fun k u other found alive older denied => ?_⟩
    · rw [finish_evt]
      exact revokeAll_sticky (policySet_runs ready.1)
    · have waits : (policySet e th i t entry).thread? k = some u :=
        (policySet_thread? k).trans ((modThread_thread?_other _ _ other.symm).trans found)
      exact (revokeAll_ended waits alive (by rw [policySet_epoch]; exact older)
        ((allowed_of_policy policySet_policy ..).trans denied)).finish ..

end Sys2Proof.Machine
end

section
/-! PROOFS. A packet that enters the shuttle, and the end of its frame (O42). The path of a packet is walked one step of R225 at a
time: each lemma takes the packet one step further, or drops it there. -/

namespace Sys2Proof.Machine

/-! ## Steps 1 to 3: classification and the table (R225, R231, R252) -/

section
variable {d : Dev} {port : Port} {k : Packet}

theorem doPacketIngress_nonip (runs : shuttleRuns d port = true) (nonip : k.ipv6 = false)
    (other : ¬ (isBh port = true ∧ (k.ptp = true ∨ k.plink = true))) : doPacketIngress port k d = dropNonip d := by
  simp only [doPacketIngress, ingressPacket, runs, nonip, Bool.false_eq_true, if_true, if_false]
  exact if_neg other

theorem doPacketIngress_unpoliced (runs : shuttleRuns d port = true) (ip : k.ipv6 = true)
    (free : (d.crd.selOf (qkey port (dscpClass d k.dscp))).1 = false) :
    doPacketIngress port k d = routePacket d port (dscpClass d k.dscp) k := by
  simp only [doPacketIngress, ingressPacket, runs, ip, free, Bool.false_eq_true, if_true, if_false]

variable {c : Nat}

theorem routePacket_own (own : ownAddr d port k.dst = true) :
    routePacket d port c k = forward d port c .cpu c k none := by
  rw [routePacket, if_pos own]

theorem routePacket_miss (foreign : ownAddr d port k.dst = false) (miss : lookup d false k.dst = (d, none))
    (drops : d.sht.missAct = 0) : routePacket d port c k = dropMiss d := by
  simp [routePacket, foreign, miss, drops]

theorem routePacket_mesh {h : Hit} (foreign : ownAddr d port k.dst = false) (hit : lookup d false k.dst = (d, some h))
    (act : fld h.e.result 31 29 = 4) :
    ∃ c', routePacket d port c k = forward d port c .mesh c' k (meshNode d h.e.result k.dst) := by
  simp only [routePacket, foreign, hit, act, Bool.false_eq_true, if_false]
  exact ⟨_, rfl⟩

/-! ## Steps 4 to 6: hop limit, MTU and node (R225, R230, R239) -/

variable {c' : Nat} {node : Option Nat}

theorem forward_cpu (fits : k.ipLen ≤ 1280) :
    forward d port c .cpu c' k none = enterQueue d port c .cpu c' k none := by
  simp [forward, forwardFit, mtuOf, hasLine, fits.not_gt]

theorem forward_mesh_spent (outside : port ≠ .mesh) (spent : k.hop ≤ 1) :
    forward d port c .mesh c' k node = dropHop d := by
  simp [forward, outside, spent]

theorem forward_mesh_long (hops : 1 < k.hop) (long : 1280 < k.ipLen) (whole : splits port k = false) :
    forward d port c .mesh c' k node = dropMtu d := by
  simp [forward, hops.not_ge, mtuOf, hasLine, long, whole]

theorem forward_mesh_absent {n : Nat} (hops : 1 < k.hop) (fits : k.ipLen ≤ 1280) (absent : d.present n = false) :
    forward d port c .mesh c' k (some n) = dropNonode d := by
  simp [forward, forwardFit, hops.not_ge, mtuOf, hasLine, fits.not_gt, absent]

end

/-! ## Steps 7 and 8: admission and queueing (R226, R228) -/

section
variable {d : Dev} {port : Port} {k : Packet} {p : Port} {c c' : Nat} {node : Option Nat}

theorem enterQueue_refused_sht {hdrm : Bool} (refused : drawCells d p c' ((k.len + 255) / 256) port c = (none, hdrm)) :
    (enterQueue d port c p c' k node).sht = { d.sht with dropBuf := inc32 d.sht.dropBuf } := by
  simp only [enterQueue, refused]
  cases hdrm with
  | false => rfl
  | true => rw [if_pos rfl, report_sht, Dev.modQport_sht]; rfl

/-- The packet as it is queued for the CPU port, whose egress never cuts through. -/
def cpuPkt (port : Port) (c : Nat) (k : Packet) (m h : Nat) : QPkt :=
  { p := k, inPort := port, inClass := c, minCells := m, shared := h, head := 0, node := none, whole := !hasLine port }

theorem enterQueue_cpu {m h : Nat} (plain : d.sht.ecnEn = false)
    (drawn : drawCells d .cpu c ((k.len + 255) / 256) port c = (some (m, h, 0), false)) :
    (enterQueue d port c .cpu c k none).queue .cpu c = d.queue .cpu c ++ [cpuPkt port c k m h]
      ∧ (enterQueue d port c .cpu c k none).sht.bank = d.sht.bank
      ∧ (enterQueue d port c .cpu c k none).sht.dropBuf = d.sht.dropBuf := by
  have noCut : hasLine .cpu = false := rfl
  simp only [enterQueue, drawn, plain, noCut, Bool.false_and, Bool.and_false, Bool.false_eq_true, if_false,
    bufEval_queue, bufEval_sht]
  generalize started : (if (d.queue .cpu c).isEmpty = true ∧ 4 ≤ c then _ else d) = a
  have sht : a.sht = d.sht := by rw [← started]; split <;> simp
  split
  all_goals exact ⟨Dev.queue_setQueue_same a .cpu c _, (congrArg Sht.bank sht :), (congrArg Sht.dropBuf sht :)⟩

/-! ## The end of an ingress frame (R228) -/

/-- No frame is on its way out of port `p`: what flow control sends changes nothing of that. -/
def Dev.idle (d : Dev) (p : Port) : Prop := (d.qport p).sending = none

theorem Dev.idle.modQport (h : d.idle p) (r : Port) {f : QPort → QPort}
    (keeps : ∀ q, q.sending = none → (f q).sending = none) : (d.modQport r f).idle p := by
  by_cases same : r = p
  · subst same
    rw [Dev.idle, Dev.qport_modQport_same]
    exact keeps _ h
  · rw [Dev.idle, Dev.qport_modQport_other _ _ _ _ same]
    exact h

theorem Dev.idle.sendFc (h : d.idle p) (r : Port) (l : KMap Nat) : (sendFc d r l).idle p := by
  unfold Machine.sendFc; dsimp only; split
  · exact h
  · split
    · exact h.modQport r fun _ _ => rfl
    · exact h.modQport r fun _ none_ => none_

theorem Dev.idle.fcEvalPort (h : d.idle p) (r : Port) : (fcEvalPort d r).idle p := by
  unfold Machine.fcEvalPort; dsimp only; split
  · refine Dev.idle.sendFc (Dev.idle.modQport h r ?_) ..
    exact fun _ none_ => none_
  · exact h

theorem Dev.idle.bufEval (h : d.idle p) : (bufEval d).idle p := by
  have watched : (bufWatch d).idle p := by rwa [Dev.idle, bufWatch_qport]
  rw [Machine.bufEval, Dev.idle, xoffWatch_qport]
  exact (watched.fcEvalPort .bh0).fcEvalPort .bh1

/-- The shuttle after a frame of `port` has ended, `l` being left of the queue it entered. -/
def Sht.ended (s : Sht) (port : Port) (g : Ingress) (l : List QPkt) : Sht :=
  { s with ingress := kdel s.ingress port.num, queues := ksetD s.queues (qkey g.port g.cls) l [] }

/-- What is left of a queue once a bad frame of `port` is gone from it. -/
def Dev.remaining (d : Dev) (port : Port) (g : Ingress) : List QPkt := (d.queue g.port g.cls).filter (fun q => !q.arriving port)

theorem endIngress_good {g : Ingress} (began : kfind d.sht.ingress port.num = some g) :
    endIngress d port true = (d.modSht (·.ended port g ((d.queue g.port g.cls).map (·.ended port)))).modQport g.port
      (fun q => { q with sending := q.sending.map (fun x => (x.1, x.2.ended port)) }) := by
  simp only [endIngress, began, if_true]
  rfl

/-- A bad frame whose egress has not begun is gone from its queue. -/
theorem endIngress_waits {g : Ingress} (began : kfind d.sht.ingress port.num = some g) (waits : cutsNow d g.port port = false) :
    endIngress d port false = bufEval (d.modSht (·.ended port g (d.remaining port g))) := by
  have waits' : cutsNow (d.modSht (fun s => { s with ingress := kdel s.ingress port.num })) g.port port = false := waits
  simp only [endIngress, began, waits', Bool.false_eq_true, if_false]
  rfl

/-- One whose egress has begun is ended there as well. -/
theorem endIngress_stomp {g : Ingress} (began : kfind d.sht.ingress port.num = some g) (cut : cutsNow d g.port port = true) :
    endIngress d port false = bufEval (report ((((d.modSht (·.ended port g (d.remaining port g))).modQport g.port
        (fun q => { q with sending := none, freeAt := d.whl.time })).modSht
          (fun s => { s with ctStomp := inc32 s.ctStomp })).emit (.stomp g.port)) evCtStomp []) := by
  have cut' : cutsNow (d.modSht (fun s => { s with ingress := kdel s.ingress port.num })) g.port port = true := cut
  simp only [endIngress, began, cut', Bool.false_eq_true, if_false, if_true]
  rfl

/-- A bad frame is counted only where its egress has begun. -/
theorem endIngress_bad_sht {g : Ingress} (began : kfind d.sht.ingress port.num = some g) :
    (endIngress d port false).sht = { d.sht.ended port g (d.remaining port g) with
      ctStomp := if cutsNow d g.port port then inc32 d.sht.ctStomp else d.sht.ctStomp } := by
  cases cut : cutsNow d g.port port with
  | false => rw [endIngress_waits began cut, bufEval_sht]; rfl
  | true =>
    rw [endIngress_stomp began cut]
    simp only [bufEval_sht, report_sht, Dev.emit_sht, Dev.modSht_sht, Dev.modQport_sht]
    rfl

theorem endIngress_stomps {g : Ingress} (began : kfind d.sht.ingress port.num = some g) (cut : cutsNow d g.port port = true) :
    Output.stomp g.port ∈ (endIngress d port false).out ∧ (endIngress d port false).idle g.port := by
  rw [endIngress_stomp began cut]
  refine ⟨(bufEval_out _).subset (by simp), Dev.idle.bufEval ?_⟩
  rw [Dev.idle, Dev.qport_que (report_que ..)]
  exact congrArg QPort.sending (Dev.qport_modQport_same (d.modSht _) g.port _)

end

/-- Settles O42: a packet that is dropped on its way (R225) leaves the device counted at that step, and one that is queued for the
CPU stays queued through the evaluation of flow control; the three ends of a frame are `endIngress_good`, `endIngress_waits` and
`endIngress_stomp`. -/
theorem packetsEnter : Obligations.PacketsEnter := by
  unfold Obligations.PacketsEnter
  intro s dt port k e c
  refine ⟨fun runs => ⟨fun nonip other => gives_run rfl (doPacketIngress_nonip runs nonip other), fun ip free => ?_⟩,
    fun g began => ⟨gives_run rfl ?_, gives_run rfl ?_⟩⟩
  · have path : doPacketIngress port k e = routePacket e port c k := doPacketIngress_unpoliced runs ip free
    have only : Only [.out, .start, .evt, .sht, .que] e (enterQueue e port c .cpu c k none) :=
      enterQueue_only _ _ _ _ _ _ _ rfl (.refl _ _)
    refine ⟨fun m h own fits plain drawn => gives_run rfl ?_, fun hdrm own fits refused => gives_run rfl ?_,
      fun foreign miss drops => gives_run rfl (path.trans (routePacket_miss foreign miss drops)),
      fun h foreign hit act outside => ?_⟩
    · obtain ⟨queue, bank, dropBuf⟩ := enterQueue_cpu plain drawn
      rw [path, routePacket_own own, forward_cpu fits]
      exact ⟨queue, only.same .whl (by decide), bank, dropBuf, only.same .ply (by decide)⟩
    · rw [path, routePacket_own own, forward_cpu fits]
      exact ⟨enterQueue_refused_sht refused, only.same .whl (by decide), only.same .ply (by decide)⟩
    · obtain ⟨c', routed⟩ := routePacket_mesh (c := c) foreign hit act
      rw [← path] at routed
      refine ⟨fun spent => gives_run rfl (routed.trans (forward_mesh_spent outside spent)),
        fun hops long whole => gives_run rfl (routed.trans (forward_mesh_long hops long whole)),
        fun n hops fits names absent => gives_run rfl ?_⟩
      exact routed.trans (names ▸ forward_mesh_absent hops fits absent)
  · rw [doPacketIngressEnd, endIngress_good began]
    refine ⟨?_, ?_, ?_, Dev.modQport_out .., Dev.modQport_whl .., Dev.modQport_ply ..⟩
    · rw [Dev.modQport_sht]
      exact kfind_kdel_same ..
    · rw [Dev.queue_sht _ _ (Dev.modQport_sht ..)]
      exact Dev.queue_setQueue_same e ..
    · rw [Dev.qport_modQport_same]
      rfl
  · have only : Only [.out, .start, .evt, .sht, .que] e (endIngress e port false) :=
      endIngress_only _ _ _ rfl (.refl _ _)
    have sht := endIngress_bad_sht began
    rw [doPacketIngressEnd]
    refine ⟨?_, ?_, only.same .whl (by decide), only.same .ply (by decide), fun waits => ?_,
      fun cut => ⟨?_, endIngress_stomps began cut⟩⟩
    · rw [sht]
      exact kfind_kdel_same ..
    · rw [Dev.queue, sht]
      exact kgetD_ksetD_same ..
    · rw [sht, waits]
      rfl
    · rw [sht, cut]
      rfl

end Sys2Proof.Machine
end

section
/-! PROOFS. The table commands of SHT_TCMD, and the swap of the banks (O44). What each operation answers is stated of the device
whose SHT_TCMD names the place; a command first sets those fields, then answers with the operation's STATUS. -/

namespace Sys2Proof.Machine

/-! ## A row of SHT_TCMD (R235, R239) -/

/-- The operation that an OP starts. -/
def tableOp : Nat → Option (Dev → Dev × Nat)
  | 1 => some tableReadOp
  | 2 => some tableWriteOp
  | 3 => some tableDeleteOp
  | 4 => some tableInsertOp
  | 5 => some tableFindOp
  | 6 => some tableLookupOp
  | _ => none

/-- The shuttle with the fields of a write of SHT_TCMD taken. -/
def Sht.addressed (s : Sht) (v : Word) : Sht := { s with tcTable := fld v 24 23, tcBank := bit v 22, tcIndex := fld v 17 0 }

/-- The device once an operation's STATUS stands, and the write has been answered. -/
def tableAnswer (r : Dev × Nat) : Dev := (r.1.modSht (fun s => { s with tcStatus := r.2 })).emit (.status .ok)

theorem writeTcmd_tableOp {d : Dev} {v : Word} {f : Dev → Dev × Nat} (starts : tableOp (fld v 27 25) = some f) :
    (writeTcmd d v).1.emit (.status (writeTcmd d v).2) = tableAnswer (f (d.modSht (·.addressed v))) := by
  unfold tableOp at starts
  split at starts
  case h_7 => cases starts
  all_goals
    next op =>
    cases starts
    simp only [writeTcmd, op]
    rfl

theorem tcmdRow_tableOp {d : Dev} {v : Word} {op : Nat} {f : Dev → Dev × Nat} (runs : d.phase.fwRuns = true)
    (asked : fld v 27 25 = op) (starts : tableOp op = some f) :
    tcmdRow op v d = tableAnswer (f (d.modSht (·.addressed v))) := by
  rw [tcmdRow, if_pos asked, regRow_runs _ _ runs]
  exact writeTcmd_tableOp (asked ▸ starts)

/-- A command of the table gives what its operation answers of the shuttle. -/
theorem gives_table {c : Instr} {s : State} {dt op : Nat} {v : Word} {f : Dev → Dev × Nat} {x : Sht} {st : Nat}
    (row : exec c s = run dt (tcmdRow op v) s) (starts : tableOp op = some f) (asked : fld v 27 25 = op)
    (runs : (s.dev.elapse dt).phase.fwRuns = true)
    (answers : f ((s.dev.elapse dt).modSht (·.addressed v)) = ({ s.dev.elapse dt with sht := x }, st)) :
    Gives c s (fun d => d = { s.dev.elapse dt with
      sht := { x with tcStatus := st }, out := (s.dev.elapse dt).out ++ [.status .ok] }) := by
  refine gives_run row ?_
  rw [tcmdRow_tableOp runs asked starts, answers]
  rfl

/-! ## What each operation answers (R235) -/

/-- Staging with a copy of an entry. -/
def Sht.showing (s : Sht) (x : TEntry) : Sht :=
  { s with stgPre := x.pre, stgLen := x.len, stgResult := x.result, stgValid := x.valid, stgPerr := x.bad }

/-- The bank that SHT_TCMD names. -/
def Sht.target (s : Sht) : Bank := s.bankAt s.tcBank

/-- The device with that bank replaced. -/
def Dev.putTarget (d : Dev) (b : Bank) : Dev := d.modSht (fun s => s.putBank s.tcBank b)

section
variable {d : Dev}

theorem tableReadOp_mam (mam : d.sht.tcTable = 0) (inside : d.sht.tcIndex < 4096) :
    tableReadOp d = (d.modSht (·.showing (d.sht.target.entry 1 d.sht.tcIndex)), tcOk) := by
  simp only [tableReadOp, mam, if_pos inside]
  rfl

theorem tableReadOp_beyond (mam : d.sht.tcTable = 0) (beyond : 4096 ≤ d.sht.tcIndex) : tableReadOp d = (d, tcRange) := by
  simp only [tableReadOp, mam, if_neg beyond.not_gt]

theorem tableReadOp_hash (hash : d.sht.tcTable = 1) :
    tableReadOp d = (d.modSht (·.showing (d.sht.target.entry 2 d.sht.tcIndex)), tcOk) := by
  simp only [tableReadOp, hash]
  rfl

theorem tableWriteOp_mam (mam : d.sht.tcTable = 0) (inside : d.sht.tcIndex < 4096) (ok : stagedOk d.sht 0 64 = true)
    (orders : d.sht.stgValid = false ∨ mamOrder d.sht.target.mam d.sht.tcIndex d.sht.stgLen = true) :
    tableWriteOp d = (d.putTarget (d.sht.target.put 1 d.sht.tcIndex d.sht.staged), tcOk) := by
  have order : ¬ (d.sht.stgValid = true ∧ mamOrder d.sht.target.mam d.sht.tcIndex d.sht.stgLen = false) := by
    rintro ⟨valid, breaks⟩
    simp [valid, breaks] at orders
  simp only [tableWriteOp, mam, if_pos (And.intro inside ok)]
  exact if_neg order

theorem tableWriteOp_order (mam : d.sht.tcTable = 0) (inside : d.sht.tcIndex < 4096) (ok : stagedOk d.sht 0 64 = true)
    (valid : d.sht.stgValid = true) (breaks : mamOrder d.sht.target.mam d.sht.tcIndex d.sht.stgLen = false) :
    tableWriteOp d = (d, tcConflict) := by
  simp only [tableWriteOp, mam, if_pos (And.intro inside ok)]
  exact if_pos ⟨valid, breaks⟩

theorem tableWriteOp_hash (hash : d.sht.tcTable = 1) (act : fld d.sht.stgResult 31 29 ≠ 7)
    (same : (d.sht.target.entry 2 d.sht.tcIndex).valid = true ∧ (d.sht.target.entry 2 d.sht.tcIndex).pre = d.sht.stgPre
      ∧ (d.sht.target.entry 2 d.sht.tcIndex).len = d.sht.stgLen) :
    tableWriteOp d = (d.putTarget (d.sht.target.put 2 d.sht.tcIndex
      { d.sht.target.entry 2 d.sht.tcIndex with result := d.sht.stgResult, badRes := false }), tcOk) := by
  simp only [tableWriteOp, hash, if_neg act]
  exact if_pos same

theorem tableDeleteOp_mam (mam : d.sht.tcTable = 0) (inside : d.sht.tcIndex < 4096) :
    tableDeleteOp d = (d.putTarget (d.sht.target.drop 1 d.sht.tcIndex), tcOk) := by
  simp only [tableDeleteOp, mam, if_pos inside]
  rfl

theorem tableDeleteOp_hash (hash : d.sht.tcTable = 1) :
    tableDeleteOp d = (d.putTarget (d.sht.target.drop 2 d.sht.tcIndex), tcOk) := by
  simp only [tableDeleteOp, hash]
  rfl

theorem tableInsertOp_placed {k : Nat} {b : Bank} (hash : d.sht.tcTable = 1)
    (placed : hashInsert d.sht.target d.sht.staged = .inl (k, b)) :
    tableInsertOp d = ((d.putTarget b).modSht (fun s => { s with tcIndex := k }), tcOk) := by
  rw [Sht.target] at placed
  simp only [tableInsertOp, if_pos hash, placed]
  rfl

theorem tableInsertOp_refused {st : Nat} (hash : d.sht.tcTable = 1)
    (refused : hashInsert d.sht.target d.sht.staged = .inr st) : tableInsertOp d = (d, st) := by
  rw [Sht.target] at refused
  simp only [tableInsertOp, if_pos hash, refused]

theorem tableFindOp_found {k : Nat} (hash : d.sht.tcTable = 1)
    (found : hashFind d.sht.target d.sht.stgPre d.sht.stgLen = some k) :
    tableFindOp d = (d.modSht (fun s => { s with tcIndex := k }), tcOk) := by
  rw [Sht.target] at found
  simp only [tableFindOp, if_pos hash, found]

theorem tableFindOp_missed (hash : d.sht.tcTable = 1)
    (missed : hashFind d.sht.target d.sht.stgPre d.sht.stgLen = none) : tableFindOp d = (d, tcMiss) := by
  rw [Sht.target] at missed
  simp only [tableFindOp, if_pos hash, missed]

/-- Staging with what a lookup has found. -/
def Sht.matched (s : Sht) (h : Hit) : Sht :=
  { s with stgValid := true, stgPerr := false, stgLen := h.e.len, stgResult := h.e.result, stgHit := true,
           stgLevel := h.level, stgIndex := h.index }

theorem tableLookupOp_hit {h : Hit} (hit : lookup d d.sht.tcBank d.sht.stgPre = (d, some h)) :
    tableLookupOp d = (d.modSht (·.matched h), tcOk) := by
  simp only [tableLookupOp, hit]
  rfl

end

/-! ## The swap (R234) -/

/-- The shuttle with its banks exchanged. -/
def Sht.swapped (s : Sht) : Sht := { s with active := !s.active, bank := s.shadow, shadow := s.bank }

theorem doBankSwap_swap {d : Dev} {v : Word} (runs : d.phase.fwRuns = true) (swap : bit v 31 = true) :
    doBankSwap v d = (report (d.modSht (·.swapped)) evBankSwap []).emit (.status .ok) := by
  rw [doBankSwap, regRow_runs _ _ runs, writeShtBank, if_pos swap]
  rfl

/-- Settles O44: each row answers what its operation answers (`gives_table`), and a report of the swap touches no bank. -/
theorem tableOperations : Obligations.TableOperations := by
  unfold Obligations.TableOperations
  intro s dt v e runs b i m done read
  refine ⟨fun asked => ⟨fun mam inside => ?_, fun mam beyond => ?_, fun hash => ?_⟩,
    fun asked mam inside ok => ⟨fun orders => ?_, fun valid breaks => ?_⟩,
    fun asked hash act => ?_,
    fun asked => ⟨fun mam inside => ?_, fun hash => ?_⟩,
    fun asked hash => ⟨fun k b' placed => ?_, fun st refused => ?_⟩,
    fun asked hash => ⟨fun k found => ?_, fun missed => ?_⟩,
    fun asked h hit => ?_, fun swap => gives_run rfl ?_⟩
  · exact gives_table rfl rfl asked runs (tableReadOp_mam mam inside)
  · exact gives_table rfl rfl asked runs (tableReadOp_beyond mam beyond)
  · exact gives_table rfl rfl asked runs (tableReadOp_hash hash)
  · exact gives_table rfl rfl asked runs (tableWriteOp_mam mam inside ok orders)
  · exact gives_table rfl rfl asked runs (tableWriteOp_order mam inside ok valid breaks)
  · intro x valid pre len
    exact gives_table rfl rfl asked runs (tableWriteOp_hash hash act ⟨valid, pre, len⟩)
  · exact gives_table rfl rfl asked runs (tableDeleteOp_mam mam inside)
  · exact gives_table rfl rfl asked runs (tableDeleteOp_hash hash)
  · exact gives_table rfl rfl asked runs (tableInsertOp_placed hash placed)
  · exact gives_table rfl rfl asked runs (tableInsertOp_refused hash refused)
  · exact gives_table rfl rfl asked runs (tableFindOp_found hash found)
  · exact gives_table rfl rfl asked runs (tableFindOp_missed hash missed)
  · exact gives_table rfl rfl asked runs (tableLookupOp_hit hit)
  · rw [doBankSwap_swap runs swap]
    simp only [Dev.emit_sht, Dev.emit_que, Dev.emit_crd, report_sht, report_que, report_crd]
    exact ⟨rfl, rfl, rfl⟩

end Sys2Proof.Machine
end

section
/-! PROOFS. Shapers, policers and time gates (O45). A write of a register of QUE or CRD answers what the register's own write
answers; the gates of a line port change by `Dev.modQport` alone. -/

namespace Sys2Proof.Machine

/-! ## A row of QUE or CRD that reaches its register (R261, R262) -/

theorem queRow_reaches {d : Dev} {addr o : Nat} {v : Word} {mine : Nat → Bool} {r : Dev × Status}
    (at_ : block? addr = some (.que, o)) (own : mine o = true) (answers : writeQue d o v = some r)
    (runs : d.phase.fwRuns = true) : queRow d addr v mine = r.1.emit (.status r.2) := by
  simp only [queRow, at_, own, answers, if_true, regRow_runs _ _ runs]

theorem doPolicerWrite_reaches {d : Dev} {addr o : Nat} {v : Word} {r : Dev × Status} (at_ : block? addr = some (.crd, o))
    (own : 0x1000 ≤ o ∧ (o % 16 = 0 ∨ o % 16 = 4)) (answers : writeCrd d o v = some r) (runs : d.phase.fwRuns = true) :
    doPolicerWrite addr v d = r.1.emit (.status r.2) := by
  simp only [doPolicerWrite, at_, own, answers, and_self, if_true, regRow_runs _ _ runs]

/-! ## RATE of a shaper, BURST of a policer (R244, R245, R254) -/

/-- A bucket that a write gives is taken; none is refused. -/
def takenOr (d : Dev) (put : Bucket → Dev) : Option Bucket → Dev × Status
  | some b => (put b, .ok)
  | none => (d, .range)

theorem writeRate_shaper {v : Word} (b : Bucket) (now : Nat) (inside : 1 ≤ fld v 20 0 ∧ fld v 20 0 ≤ 1250000) :
    writeRate b now true v = some { b.shaper now with rate := fld v 20 0, en := bit v 31 } := if_pos inside

theorem writeRate_range {v : Word} (b : Bucket) (now : Nat) (shaper : Bool)
    (outside : fld v 20 0 = 0 ∨ 1250000 < fld v 20 0) : writeRate b now shaper v = none := if_neg (by omega)

theorem writeBurst_policer {v : Word} (b : Bucket) (now : Nat) (inside : fld v 20 0 ≤ 1048576) :
    writeBurst b now false v
      = some { b.accrue now with burst := fld v 20 0, tok := min (tokens_ (fld v 20 0)) (b.accrue now).tok } := if_pos inside

theorem writeBurst_range {v : Word} (b : Bucket) (now : Nat) (shaper : Bool) (outside : 1048576 < fld v 20 0) :
    writeBurst b now shaper v = none := if_neg (by omega)

/-- QUE_PRATE of BH0. -/
theorem writeQue_rate (d : Dev) (v : Word) : writeQue d 0x100 v = some (takenOr d
    (fun b => { d with que := { d.que with p0 := { d.que.p0 with shaper := b } } })
    (writeRate d.que.p0.shaper d.whl.time true v)) := by
  have port : writeQue d 0x100 v = writePortReg d .bh0 0x100 v := rfl
  rw [port]
  cases h : writeRate d.que.p0.shaper d.whl.time true v <;>
    simp [writePortReg, Dev.qport, Dev.modQport, takenOr, h]

/-- CRD_BURSTi. -/
theorem writeCrd_burst (d : Dev) {i : Nat} (v : Word) (one : i < 512) : writeCrd d (0x1000 + 16 * i + 4) v = some (takenOr d
    (fun b => { d with crd := { d.crd with pol := ksetD d.crd.pol i b {} } })
    (writeBurst (d.crd.get i) d.whl.time false v)) := by
  have index : (0x1000 + 16 * i + 4 - 0x1000) / 16 = i := by omega
  have word : (0x1000 + 16 * i + 4) % 16 = 4 := by omega
  have above : ¬ 0x1000 + 16 * i + 4 < 0x140 := by omega
  have inside : 0x1000 ≤ 0x1000 + 16 * i + 4 ∧ 0x1000 + 16 * i + 4 < 0x3000 := by omega
  simp only [writeCrd, above, inside, index, word, and_self, if_true, if_false]
  cases writeBurst (d.crd.get i) d.whl.time false v <;> rfl

theorem doShaperWrite_rate {d : Dev} {addr : Nat} {v : Word} (at_ : block? addr = some (.que, 0x100))
    (runs : d.phase.fwRuns = true) : doShaperWrite addr v d =
      let r := takenOr d (fun b => { d with que := { d.que with p0 := { d.que.p0 with shaper := b } } })
        (writeRate d.que.p0.shaper d.whl.time true v)
      r.1.emit (.status r.2) :=
  queRow_reaches at_ rfl (writeQue_rate d v) runs

theorem doPolicerWrite_burst {d : Dev} {addr i : Nat} {v : Word} (one : i < 512)
    (at_ : block? addr = some (.crd, 0x1000 + 16 * i + 4)) (runs : d.phase.fwRuns = true) : doPolicerWrite addr v d =
      let r := takenOr d (fun b => { d with crd := { d.crd with pol := ksetD d.crd.pol i b {} } })
        (writeBurst (d.crd.get i) d.whl.time false v)
      r.1.emit (.status r.2) :=
  doPolicerWrite_reaches at_ (by omega) (writeCrd_burst d v one) runs

/-! ## QUE_GCTRL and the change of lists (R249, R250) -/

/-- The admin list with the EN and LEN of a write of QUE_GCTRL. -/
def GateList.written (a : GateList) (v : Word) : GateList := { a with en := bit v 27, len := fld v 6 0 }

/-- A change of the admin list waits for its change time. -/
def Gates.armed (g : Gates) (now : Nat) (a : GateList) : Gates :=
  { g with admin := a, pending := true, cct := changeTime now a.base a.cycle }

theorem writeGctrl_arm {d : Dev} {p : Port} {v : Word} (arm : bit v 31 = true) (idle : (d.qport p).gates.pending = false)
    (time : d.whl.todValid = true) (ok : ((d.qport p).gates.admin.written v).ok = true) :
    writeGctrl d p v = (d.modQport p (fun q =>
      { q with gates := q.gates.armed d.whl.time ((d.qport p).gates.admin.written v) }), .ok) := by
  unfold GateList.written at ok
  simp only [writeGctrl, arm, idle, time, ok, Bool.false_eq_true, Bool.true_eq_false, if_true, if_false]
  rfl

/-- CANCEL takes its own EN and LEN while a change is pending (log 75). -/
theorem writeGctrl_cancel {d : Dev} {p : Port} {v : Word} (arm : bit v 31 = false) (cancel : bit v 30 = true) :
    writeGctrl d p v = (d.modQport p (fun q =>
      { q with gates := { q.gates with admin := (d.qport p).gates.admin.written v, pending := false } }), .ok) := by
  simp only [writeGctrl, arm, cancel, Bool.false_eq_true, if_true, if_false]
  rfl

theorem Dev.modQport_emit (d : Dev) (p : Port) (f : QPort → QPort) (o : Output) :
    (d.modQport p f).emit o = { d.modQport p f with out := d.out ++ [o] } := by
  rw [Dev.emit, Dev.modQport_out]

/-- What time makes of the gates leaves both lists and what is pending. -/
theorem Gates.refresh_lists (g : Gates) (t : Nat) :
    (g.refresh t).oper = g.oper ∧ (g.refresh t).admin = g.admin ∧ (g.refresh t).pending = g.pending := by
  unfold refresh; split <;> exact ⟨rfl, rfl, rfl⟩

theorem gateDue_due {d : Dev} {p : Port} (pending : (d.qport p).gates.pending = true)
    (due : (d.qport p).gates.cct ≤ d.whl.time) : gateDue d p = gateSwitchNow d p := if_pos ⟨pending, due⟩

theorem gateSwitchNow_gates (d : Dev) (p : Port) : ((gateSwitchNow d p).qport p).gates
    = { (d.qport p).gates with oper := (d.qport p).gates.admin, pending := false }.refresh d.whl.time := by
  rw [gateSwitchNow, Dev.qport_que (report_que ..), Dev.qport_modQport_same]

/-- Settles O45: the register reached says whether the bucket is taken (`doShaperWrite_rate`, `doPolicerWrite_burst`), and
the gates of a line port are written by `writeGctrl` or follow the list that has become operative
(`gateSwitchNow_gates`). -/
theorem bucketsAndGates : Obligations.BucketsAndGates := by
  unfold Obligations.BucketsAndGates
  intro s dt v e runs
  refine ⟨fun addr at_ => ⟨fun low high => gives_run rfl ?_, fun outside => gives_run rfl ?_⟩,
    fun addr i one at_ => ⟨fun inside => gives_run rfl ?_, fun outside => gives_run rfl ?_⟩,
    fun p => ⟨fun arm idle time ok => gives_run rfl ?_, fun arm cancel => gives_run rfl ?_,
      fun pending due => gives_run rfl ?_, gives_run rfl rfl⟩⟩
  · rw [doShaperWrite_rate at_ runs, writeRate_shaper _ _ ⟨low, high⟩]; rfl
  · rw [doShaperWrite_rate at_ runs, writeRate_range _ _ _ outside]; rfl
  · rw [doPolicerWrite_burst one at_ runs, writeBurst_policer _ _ inside]; rfl
  · rw [doPolicerWrite_burst one at_ runs, writeBurst_range _ _ _ outside]; rfl
  · rw [doGateArm, regRow_runs _ _ runs, writeGctrl_arm arm idle time ok]
    exact Dev.modQport_emit ..
  · rw [doGateCancel, regRow_runs _ _ runs, writeGctrl_cancel arm cancel]
    exact Dev.modQport_emit ..
  · rw [doGateSwitch, gateDue_due pending due, gateSwitchNow_gates]
    obtain ⟨oper, admin, change⟩ := Gates.refresh_lists
      { (e.qport (linePort p)).gates with oper := (e.qport (linePort p)).gates.admin, pending := false } e.whl.time
    refine ⟨oper, change, admin, ?_, ?_, ?_⟩
    · exact report_sticky _ _ _ (by simpa using runs)
    · simp [gateSwitchNow]
    · simp [gateSwitchNow]

end Sys2Proof.Machine
end

section
/-! PROOFS. PAUSE and PFC, received and generated, and their settings (O46). What a frame received does is done in the table of
pauses; what the buffer's evaluation sends leaves the settings of every port. -/

namespace Sys2Proof.Machine

/-! ## The table of pauses (R256) -/

theorem Dev.quantaNs_pos (d : Dev) (p : Port) {t : Nat} (some_ : 0 < t) : 0 < d.quantaNs p t := by
  unfold Dev.quantaNs Dev.lineNs; split <;> omega

theorem QPort.pauseFor_same {q : QPort} {c now ns : Nat} (long : 0 < ns) :
    (kfind (q.pauseFor c now ns).pauses c).map (·.1) = some (now + ns) := by
  simp [pauseFor, Nat.ne_of_gt long]

theorem QPort.pauseFor_other {q : QPort} {c k now ns : Nat} (long : 0 < ns) (other : c ≠ k) :
    kfind (q.pauseFor c now ns).pauses k = kfind q.pauses k := by
  simp [pauseFor, Nat.ne_of_gt long, kfind_kput_other _ _ _ _ other]

/-- A PAUSE frame's time counts for every queue of the port, whatever paused it before. -/
theorem QPort.pauseFor_all {now ns : Nat} (long : 0 < ns) (l : List Nat) {k : Nat} (q : QPort)
    (covered : k ∈ l ∨ (kfind q.pauses k).map (·.1) = some (now + ns)) :
    (kfind (l.foldl (fun q c => q.pauseFor c now ns) q).pauses k).map (·.1) = some (now + ns) := by
  induction l generalizing q with
  | nil => exact covered.resolve_left List.not_mem_nil
  | cons c l ih =>
    refine ih _ ?_
    by_cases same : c = k
    · subst same; exact .inr (pauseFor_same long)
    · rw [pauseFor_other long same]
      exact covered.imp_left fun inside => (List.mem_cons.1 inside).resolve_left (Ne.symm same)

/-! ## Frames received and pauses in time (R255, R256, R263) -/

theorem Dev.modQport_congr {d : Dev} {p : Port} {f g : QPort → QPort} (same : f (d.qport p) = g (d.qport p)) :
    d.modQport p f = d.modQport p g := by
  cases p <;> simpa [Dev.modQport, Dev.qport] using same

theorem doPauseReceive_pause {d : Dev} {port : Bool} {t : Nat} (mode : (d.qport (bhPort port)).fcMode = 1) :
    doPauseReceive port (.pause t) d = pauseWatch (d.modQport (bhPort port) (fun q =>
      { (List.range 16).foldl (fun q c => q.pauseFor c d.whl.time (d.quantaNs (bhPort port) t)) q with
        pauseRx := inc32 q.pauseRx })) := by
  simp only [doPauseReceive, mode]

theorem doPauseReceive_other (port : Bool) (d : Dev) : doPauseReceive port .other d
    = report (d.modQport (bhPort port) (fun q => { q with fcIgnored := inc32 q.fcIgnored })) evFcIgnored [] := rfl

theorem doPauseExpire_over {d : Dev} {port : Bool} {c : Fin 16} {u v : Nat}
    (paused : kfind (d.qport (bhPort port)).pauses c.val = some (u, v)) (ended : u ≤ d.whl.time) : doPauseExpire port c d
      = pauseWatch (d.modQport (bhPort port) (fun q => { q with pauses := kdel q.pauses c.val })) :=
  congrArg pauseWatch (Dev.modQport_congr (by simp [paused, ended]))

theorem doPauseLong_paused {d : Dev} {port : Bool} {c : Fin 16} {x : Nat × Nat}
    (paused : kfind (d.qport (bhPort port)).pauses c.val = some x) : doPauseLong port c d = pauseWatch d := by
  simp [doPauseLong, paused]

/-- A queue paused for 100 ms makes PAUSE_LONG live. -/
theorem pauseWatch_long {d : Dev} {port : Bool} {c u v : Nat} (runs : d.phase.fwRuns = true)
    (paused : kfind (d.qport (bhPort port)).pauses c = some (u, v)) (lasts : d.whl.time < u)
    (long : v + 100000000 ≤ d.whl.time) : (pauseWatch d).evt.liveAt evPauseLong 0 = true := by
  have any : (d.qport (bhPort port)).pauses.any (fun x =>
      decide (d.whl.time < x.2.1) && decide (x.2.2 + 100000000 ≤ d.whl.time)) = true :=
    List.any_eq_true.2 ⟨_, mem_of_kfind paused, by simp [lasts, long]⟩
  have on : pauseWatch d = watchIf d evPauseLong true := by
    cases port
    · exact congrArg (watchIf d evPauseLong) ((congrArg (· || _) any).trans (Bool.true_or _))
    · exact congrArg (watchIf d evPauseLong) ((congrArg (_ || ·) any).trans (Bool.or_true _))
  rw [on]
  exact watchIf_live _ _ runs

/-! ## The refresh of a frame sent (R257) -/

section
variable {d : Dev} {p : Port} {l : KMap Nat} (any : l ≠ [])
include any

theorem sendFc_now (free : (d.qport p).freeAt ≤ d.whl.time ∧ (d.qport p).fcq = []) :
    sendFc d p l = fcLeave d p { pfc := (d.qport p).fcMode == 2, times := l } := by
  simp [sendFc, any, free]

theorem sendFc_behind (busy : ¬ ((d.qport p).freeAt ≤ d.whl.time ∧ (d.qport p).fcq = [])) :
    sendFc d p l
      = d.modQport p (fun q => { q with fcq := q.fcq ++ [{ pfc := (d.qport p).fcMode == 2, times := l }] }) := by
  simp [sendFc, any, busy]

end

/-- The port as a generated frame that leaves it now leaves it. -/
theorem fcLeave_qport (d : Dev) (p : Port) (f : FcFrame) : (fcLeave d p f).qport p =
    { d.qport p with
      pauseTx := inc32 (d.qport p).pauseTx, sending := none, freeAt := d.whl.time + d.lineNs p fcLine,
      xoff := kmap (d.qport p).xoff (fun i due => if kgetD f.times i 0 = 0 then due
        else some (d.whl.time + d.lineNs p fcLine + d.quantaNs p (d.qport p).refreshQ)) } :=
  (Dev.qport_que rfl p).trans (Dev.qport_modQport_same ..)

/-- The device with a refresh in hand: its one priority in XOFF waits for the frame. -/
def refreshing (d : Dev) (p : Port) (i : Nat) : Dev := d.modQport p (fun q => { q with xoff := [(i, none)] })

theorem refreshing_qport (d : Dev) (p : Port) (i : Nat) : (refreshing d p i).qport p = { d.qport p with xoff := [(i, none)] } :=
  Dev.qport_modQport_same ..

/-- The next refresh counts from the end of the frame (log 111). -/
theorem fcLeave_refreshing_xoff (d : Dev) (p : Port) (i : Nat) {f : FcFrame} (pauses : kgetD f.times i 0 ≠ 0) :
    ((fcLeave (refreshing d p i) p f).qport p).xoff
      = [(i, some (d.whl.time + d.lineNs p fcLine + d.quantaNs p (d.qport p).refreshQ))] := by
  have line (o : Nat) : (refreshing d p i).lineNs p o = d.lineNs p o := by
    simp [Dev.lineNs, Dev.slow, refreshing]
  have time : (refreshing d p i).whl = d.whl := Dev.modQport_whl ..
  simp only [fcLeave_qport, refreshing_qport, kmap, List.map_cons, List.map_nil, if_neg pauses, Dev.quantaNs, line, time]

section
variable {d : Dev} {port : Bool} {i : Fin 8} {due : Nat} (off : (d.qport (bhPort port)).xoff = [(i.val, some due)])
include off

theorem doPfcRefresh_early (early : d.whl.time < due) : doPfcRefresh port i d = d := by
  simp [doPfcRefresh, off, kfind, early]

theorem doPfcRefresh_due (now : due ≤ d.whl.time) : doPfcRefresh port i d =
    sendFc (refreshing d (bhPort port) i) (bhPort port) [(i.val, (d.qport (bhPort port)).quantaTx)] := by
  simp only [doPfcRefresh, off, kfind, now, if_true, decide_true, List.filter_cons_of_pos, List.filter_nil, List.map_cons,
    List.map_nil]
  exact congrArg (sendFc · _ _) (Dev.modQport_congr (by simp [off, kmap, now]))

end

/-! ## The settings of flow control (R257, R258) -/

/-- What QUE_FC3 sets of a port. -/
def QPort.headroomOf (q : QPort) : Nat × BitVec 8 := (q.headroom, q.pfcEn)

theorem Dev.modQport_headroomOf (d : Dev) (r p : Port) {f : QPort → QPort} (h : ∀ q, (f q).headroomOf = q.headroomOf) :
    ((d.modQport r f).qport p).headroomOf = (d.qport p).headroomOf := by
  by_cases same : r = p
  · subst same; simp [h]
  · rw [Dev.qport_modQport_other _ _ _ _ same]

theorem sendFc_headroomOf (d : Dev) (r p : Port) (l : KMap Nat) :
    ((sendFc d r l).qport p).headroomOf = (d.qport p).headroomOf := by
  unfold sendFc; dsimp only; split
  · rfl
  · split
    · exact (congrArg QPort.headroomOf (Dev.qport_que rfl p)).trans (Dev.modQport_headroomOf _ _ _ fun _ => rfl)
    · exact Dev.modQport_headroomOf _ _ _ fun _ => rfl

theorem fcEvalPort_headroomOf (d : Dev) (r p : Port) :
    ((fcEvalPort d r).qport p).headroomOf = (d.qport p).headroomOf := by
  unfold fcEvalPort; dsimp only; split
  · exact (sendFc_headroomOf ..).trans (Dev.modQport_headroomOf _ _ _ fun _ => rfl)
  · rfl

theorem bufEval_headroomOf (d : Dev) (p : Port) : ((bufEval d).qport p).headroomOf = (d.qport p).headroomOf := by
  rw [bufEval, xoffWatch_qport, fcEvalPort_headroomOf, fcEvalPort_headroomOf, bufWatch_qport]

/-- A change of a backhaul port that takes no more headroom is made. -/
theorem changeFc_headroomOf {d : Dev} {p : Port} {f : QPort → QPort} {x : Nat × BitVec 8}
    (room : (d.modQport p f).headSum ≤ d.headSum) (sets : ∀ q, (f q).headroomOf = x) :
    ((changeFc d p f).1.qport p).headroomOf = x ∧ (changeFc d p f).2 = .ok
      ∧ (changeFc d p f).1.sht = d.sht ∧ (changeFc d p f).1.crd = d.crd := by
  have made : ¬ (d.headSum < (d.modQport p f).headSum ∧ 16384 < (d.modQport p f).headSum) := by omega
  simp only [changeFc, made, if_false, bufEval_headroomOf, Dev.qport_modQport_same, sets, bufEval_sht, bufEval_crd,
    Dev.modQport_sht, Dev.modQport_crd, true_and]
  split
  next same => exact ⟨rfl, rfl⟩
  next changes => exact ⟨endXoff_sht .., endXoff_crd ..⟩

/-- The settings of a write of QUE_FC3. -/
def QPort.withHeadroom (v : Word) (q : QPort) : QPort :=
  { q with headroom := fld v 28 16, pfcEn := BitVec.ofNat 8 (fld v 7 0) }

/-- QUE_FC3 of BH0. -/
theorem writeQue_headroom (d : Dev) (v : Word) : writeQue d 0x11C v =
    some (if 4096 < fld v 28 16 then (d, .range) else changeFc d .bh0 (QPort.withHeadroom v)) := by
  have port : writeQue d 0x11C v = if 4096 < fld v 28 16 then some (d, .range)
      else some (changeFc d .bh0 (QPort.withHeadroom v)) := rfl
  rw [port, apply_ite some]

theorem doFcConfigWrite_headroom {d : Dev} {addr : Nat} {v : Word} (at_ : block? addr = some (.que, 0x11C))
    (runs : d.phase.fwRuns = true) : doFcConfigWrite addr v d =
      let r := if 4096 < fld v 28 16 then (d, .range) else changeFc d .bh0 (QPort.withHeadroom v)
      r.1.emit (.status r.2) := queRow_reaches at_ rfl (writeQue_headroom d v) runs

/-- A port with flow control OFF takes no headroom from the shared pool, whatever its HEADROOM. -/
theorem headSum_withHeadroom {d : Dev} (v : Word) (off : d.que.p0.fcMode = 0) :
    (d.modQport .bh0 (QPort.withHeadroom v)).headSum = d.headSum := by
  simp [Dev.headSum, Dev.modQport, QPort.withHeadroom, QPort.fcCount, off]

/-- Settles O46: a pause received is in the table of its queue (`QPort.pauseFor_all`), a refresh that is due sends its frame
at once (`sendFc_now`, `fcLeave_refreshing_xoff`) or behind the one in progress (`sendFc_behind`), and settings that take no
headroom from the shared pool are made (`changeFc_headroomOf`). -/
theorem flowControl : Obligations.FlowControl := by
  unfold Obligations.FlowControl
  intro s dt e
  refine ⟨fun t mode sends => gives_run rfl ?_, fun port => gives_run rfl ?_,
    fun port c u v paused => ⟨fun ended => gives_run rfl ?_, fun runs lasts long => gives_run rfl ?_⟩,
    fun i due off pauses => ?_, fun addr v runs at_ => ⟨fun over_ => gives_run rfl ?_, fun inside off => gives_run rfl ?_⟩⟩
  · rw [doPauseReceive_pause (port := false) mode, pauseWatch_que, pauseWatch_sht, pauseWatch_whl,
      Dev.modQport_sht, Dev.modQport_whl]
    exact ⟨rfl, fun c => QPort.pauseFor_all (e.quantaNs_pos .bh0 sends) _ _ (.inl (List.mem_range.2 c.isLt)), rfl, rfl, rfl⟩
  · rw [doPauseReceive_other, Dev.qport_que (report_que ..), Dev.qport_modQport_same, report_sht, report_whl,
      Dev.modQport_sht, Dev.modQport_whl]
    exact ⟨rfl, rfl, rfl, rfl⟩
  · rw [doPauseExpire_over paused ended, pauseWatch_qport, Dev.qport_modQport_same, pauseWatch_sht, pauseWatch_whl,
      Dev.modQport_sht, Dev.modQport_whl]
    exact ⟨rfl, rfl, rfl⟩
  · rw [doPauseLong_paused paused]
    exact ⟨pauseWatch_long runs paused lasts long, pauseWatch_que .., pauseWatch_sht ..⟩
  · intro f free
    refine ⟨fun now idle => gives_run rfl ?_, fun now busy => gives_run rfl ?_,
      fun early => gives_run rfl (doPfcRefresh_early (port := true) off early)⟩
    · rw [(doPfcRefresh_due (port := true) off now).trans (sendFc_now (by simp) idle), fcLeave_out]
      have time : kgetD f.times i 0 ≠ 0 := (kgetD_kput_same [] ..).trans_ne (Nat.ne_of_gt pauses)
      exact ⟨fcLeave_refreshing_xoff e .bh1 i time, congrArg QPort.pauseTx (fcLeave_qport (refreshing e .bh1 i) .bh1 f), rfl⟩
    · rw [(doPfcRefresh_due (port := true) off now).trans (sendFc_behind (by simp) busy)]
      exact ⟨rfl, rfl, rfl⟩
  · rw [doFcConfigWrite_headroom at_ runs, if_pos over_]; rfl
  · rw [doFcConfigWrite_headroom at_ runs, if_neg (Nat.not_lt.2 inside)]
    obtain ⟨settings, status, sht, crd⟩ := changeFc_headroomOf (x := (fld v 28 16, BitVec.ofNat 8 (fld v 7 0)))
      (headSum_withHeadroom v off).le fun _ => rfl
    obtain ⟨headroom, pfcEn⟩ := Prod.mk.inj settings
    exact ⟨headroom, pfcEn, sht, crd, by simp [status, Dev.emit]⟩

end Sys2Proof.Machine
end

section
/-! PROOFS. Frames between the sides and messages of the loom (R268, R269, R290): what a frame that is taken leaves, and what one
that is sent leaves and changes. -/

namespace Sys2Proof.Machine

/-! ## Frames taken (R269, R290) -/

/-- From `e` to `a` a frame has been taken: a packet may have left the CPU port, and the replay windows may have moved. -/
structure Heard (e a : Dev) : Prop where
  only : Only [.sht, .ply] e a
  windows : ∃ l, a.ply = { e.ply with replays := l }

section
variable {d a : Dev} {k key : Nat} {h : LinkHeader}

/-- A frame that is taken leaves the key store as it was. -/
theorem linkTake_taken (taken : linkTake d k key h = (true, a)) : ∃ l, a = { d with ply := { d.ply with replays := l } } := by
  cases allowed : (invoke d k masterLoom useDecrypt).1 with
  | false => simp [linkTake, allowed] at taken
  | true =>
    rw [linkTake, invoke_allowed allowed] at taken
    dsimp only at taken
    split at taken
    · simp at taken
    · split at taken
      next l _ => exact ⟨l, (Prod.mk.inj taken).2.symm⟩
      next => simp at taken

/-- A frame that is refused is counted. -/
theorem linkTake_refused (refused : linkTake d k key h = (false, a)) : a.ply = { d.ply with reject := inc32 d.ply.reject } := by
  have checked : (invoke d k masterLoom useDecrypt).2.ply = d.ply :=
    (invoke_only d k _ _ (l_ := [.start, .evt, .dst]) rfl (.refl _ _)).same .ply (by decide)
  rw [linkTake] at refused
  dsimp only at refused
  rw [← checked]
  split at refused
  · exact congrArg Dev.ply (Prod.mk.inj refused).2.symm
  · split at refused
    · simp at refused
    · exact congrArg Dev.ply (Prod.mk.inj refused).2.symm

/-- What the CPU port gives up before a frame is taken is in the shuttle. -/
theorem heard_of_taken {e : Dev} (only : Only [.sht] e d) (taken : linkTake d k key h = (true, a)) : Heard e a := by
  obtain ⟨l, rfl⟩ := linkTake_taken taken
  have ply : d.ply = e.ply := only.same .ply (by decide)
  exact ⟨.rec_ply rfl (only.mono rfl), l, by rw [ply]⟩

variable {f : Dev → Dev}

theorem plinkIn_taken (up : d.phase = .up) (partnered : d.ply.partnered = true)
    (taken : linkTake d d.ply.plySkein h.side.toNat h = (true, a)) : plinkIn d h f = f a := by
  simp only [plinkIn, up, partnered, taken, ne_eq, not_true_eq_false, Bool.true_eq_false, or_self, if_false]

theorem plinkIn_refused (up : d.phase = .up) (partnered : d.ply.partnered = true)
    (refused : linkTake d d.ply.plySkein h.side.toNat h = (false, a)) : plinkIn d h f = report a evPlinkAuth [] := by
  simp only [plinkIn, up, partnered, refused, ne_eq, not_true_eq_false, Bool.true_eq_false, or_self, if_false]

theorem loomIn_taken {ply : BitVec 8} (up : d.phase = .up)
    (taken : linkTake d d.ply.loomSkein (256 * ply.toNat + h.side.toNat) h = (true, a)) : loomIn d h ply f = f a := by
  simp only [loomIn, up, taken, ne_eq, not_true_eq_false, if_false]

end

namespace Heard

variable {e a : Dev} (heard : Heard e a)
include heard

theorem phase : a.phase = e.phase := heard.only.same .phase (by decide)
theorem whl : a.whl = e.whl := heard.only.same .whl (by decide)
theorem spn : a.spn = e.spn := heard.only.same .spn (by decide)
theorem wrp : a.wrp = e.wrp := heard.only.same .wrp (by decide)

/-- What is read of the ply beside its replay windows. -/
theorem reads {α : Type} (g : Ply → α) (beside : ∀ p l, g { p with replays := l } = g p := by intros; rfl) :
    g a.ply = g e.ply := by
  obtain ⟨l, windows⟩ := heard.windows
  rw [windows, beside]

theorem runs (up : e.phase = .up) : a.phase.fwRuns = true := by rw [heard.phase, up]; rfl

end Heard

theorem takeCpu_sht (d : Dev) : Only [.sht] d (takeCpu d) := takeCpu_only d rfl (.refl _ _)

section
variable {c : Instr} {s : State} {dt : Nat} {h : LinkHeader} {f : Dev → Dev} {a : Dev} {P : Dev → Prop}
  (up : (s.dev.elapse dt).phase = .up)
include up

/-- A frame of the partner that is no heartbeat, once it is taken, gives what its meaning leaves. -/
theorem gives_plink (row : exec c s = runLink dt (fun d => plinkIn d h f) s) (partnered : (s.dev.elapse dt).ply.partnered = true)
    (taken : linkTake (if (s.dev.elapse dt).sht.linkp then s.dev.elapse dt else takeCpu (s.dev.elapse dt))
      (s.dev.elapse dt).ply.plySkein h.side.toNat h = (true, a))
    (p : Heard (s.dev.elapse dt) a → P (f a)) : Gives c s P := by
  refine gives_run row ?_
  revert taken p
  generalize s.dev.elapse dt = e at up partnered ⊢
  intro taken p
  dsimp only
  split at taken
  next link => rw [if_pos link, plinkIn_taken up partnered taken]; exact p (heard_of_taken (.refl _ _) taken)
  next link => rw [if_neg link, plinkIn_taken (d := takeCpu e) up partnered taken]; exact p (heard_of_taken (takeCpu_sht e) taken)

/-- A message of the loom, once it is taken, gives what its meaning leaves. -/
theorem gives_loom {ply : BitVec 8} (row : exec c s = runCpu dt (fun d => loomIn d h ply f) s)
    (taken : linkTake (takeCpu (s.dev.elapse dt)) (s.dev.elapse dt).ply.loomSkein (256 * ply.toNat + h.side.toNat) h = (true, a))
    (p : Heard (s.dev.elapse dt) a → P (f a)) : Gives c s P := by
  refine gives_runCpu row ?_
  rw [loomIn_taken (d := takeCpu (s.dev.elapse dt)) up taken]
  exact p (heard_of_taken (takeCpu_sht _) taken)

end

/-! ## Frames sent (R268, R269, R290) -/

/-- The frame that tells the partner `o`. -/
def partnerFrame (d : Dev) (o : Output) : List Byte := plinkFrame d (o.link d.ply.seqOut).1 (o.link d.ply.seqOut).2

theorem plyOut_eq (d : Dev) (o : Output) (b : Bool) : plyOut d o b =
    ((if b then each (pathB d) (fun e p => sendOwn e p false (plinkEther e ++ partnerFrame d o)) d
      else d.emit (.sealed .plk (plinkEther d ++ partnerFrame d o))).emit o).modPly
        (fun p => { p with seqOut := p.seqOut + 1 }) := by
  unfold plyOut partnerFrame
  rfl

/-- A frame for the partner takes one sequence number of the ply, and nothing else of it. -/
theorem plyOut_ply (d : Dev) (o : Output) (b : Bool) : (plyOut d o b).ply = { d.ply with seqOut := d.ply.seqOut + 1 } := by
  rw [plyOut_eq]
  cases b with
  | true => exact congrArg (fun p : Ply => { p with seqOut := p.seqOut + 1 }) (each_keeps Dev.ply fun _ _ => sendOwn_ply ..)
  | false => rfl

theorem plyOut_out (d : Dev) (o : Output) (b : Bool) :
    (plyOut d o b).out = (if b then d.out else d.out ++ [.sealed .plk (plinkEther d ++ partnerFrame d o)]) ++ [o] := by
  rw [plyOut_eq]
  cases b with
  | true => exact congrArg (· ++ [o]) (each_keeps Dev.out fun _ _ => rfl)
  | false => rfl

theorem mem_plyOut {d : Dev} {o x : Output} (b : Bool) (sent : x ∈ d.out ∨ x = o) : x ∈ (plyOut d o b).out := by
  rw [plyOut_out]
  cases b <;> rcases sent with before | rfl <;> simp [*]

theorem plySend_sends {d : Dev} (o : Output) (partnered : d.ply.partnered = true) (reach : plyReach d = true)
    (allowed : invoke d d.ply.plySkein masterLoom useEncrypt = (true, d)) : plySend d o = plyOut d o (!d.sht.linkp) := by
  simp only [plySend, partnered, reach, allowed, and_self, if_true]

/-- Of two states of the ply that a view shows alike, what reads no more than the view reads the same. -/
theorem Ply.reads {α : Type} {v : Ply → Ply} {p q : Ply} (h : v p = v q) (g : Ply → α)
    (only : g ∘ v = g := by rfl) : g p = g q :=
  (congrFun only p).symm.trans ((congrArg g h).trans (congrFun only q))

/-- The ply without the number of its next frame. -/
def Ply.unsent (p : Ply) : Ply := { p with seqOut := 0 }

theorem plySend_unsent (d : Dev) (o : Output) : (plySend d o).ply.unsent = d.ply.unsent := by
  have checked : (invoke d d.ply.plySkein masterLoom useEncrypt).2.ply = d.ply :=
    (invoke_only d _ _ _ (l_ := [.start, .evt, .dst]) rfl (.refl _ _)).same .ply (by decide)
  unfold plySend; split
  · split
    next ok a checks =>
      rw [checks] at checked
      split
      · calc (plyOut a o (!a.sht.linkp)).ply.unsent = _ := congrArg Ply.unsent (plyOut_ply ..)
          _ = a.ply.unsent := rfl
          _ = d.ply.unsent := congrArg Ply.unsent checked
      · exact congrArg Ply.unsent checked
  · rfl

/-- A loom message that may be sealed leaves, one datagram for each address. -/
theorem loomSend_sends {d : Dev} (x : LoomTo) (o : Output)
    (allowed : invoke d d.ply.loomSkein masterLoom useEncrypt = (true, d)) :
    loomSend d x o = ((each (x.addrs d) (fun e a => e.emit (.sealed (.udp e.ply.devAddr a 47603 47603)
      (loomFrame d (o.link d.ply.loomSeq).1 (o.link d.ply.loomSeq).2))) d).emit o).modPly
        (fun p => { p with loomSeq := p.loomSeq + 1 }) := by
  simp only [loomSend, allowed, if_true]

theorem loomSend_out {d : Dev} (x : LoomTo) (o : Output)
    (allowed : (invoke d d.ply.loomSkein masterLoom useEncrypt).1 = true) : o ∈ (loomSend d x o).out := by
  rw [loomSend_sends x o (invoke_allowed allowed)]
  exact List.mem_append_right _ (List.mem_singleton_self o)

end Sys2Proof.Machine
end

section
/-! PROOFS. Heartbeats and the treadle (O47). A heartbeat that is heard changes what this side knows of the partner; the ply engine
brings every spindle to STANDBY by actions of which the ply keeps no more than the records they lose. -/

namespace Sys2Proof.Machine

/-! ## A heartbeat written (R268, R271) -/

section
variable {d : Dev} (partnered : d.ply.partnered = true)
  (allowed : invoke d d.ply.plySkein masterLoom useEncrypt = (true, d))
include partnered allowed

/-- With no path B, a heartbeat leaves by PLK alone. -/
theorem sendHeartbeat_plk {b : Heartbeat} (off : d.ply.pathBEn = false) (link : d.sht.linkp = true) (sound : b.fault = false) :
    sendHeartbeat d b = plyOut d (.heartbeat .plk d.ply.seqOut { b with t1 := d.whl.time }) false := by
  have noPath (o : Output) : pathB (plyOut d o false) = [] := by
    rw [pathB, plyOut_ply, if_neg (by simp [off])]
  simp only [sendHeartbeat, partnered, allowed, link, sound, noPath, Bool.true_eq_false, Bool.false_eq_true, if_false, if_true,
    List.isEmpty_nil]

/-- While PLK is down a heartbeat leaves by path B alone. -/
theorem sendHeartbeat_b (b : Heartbeat) (paths : pathB d ≠ []) (link : d.sht.linkp = false) :
    sendHeartbeat d b = plyOut d (.heartbeat .b d.ply.seqOut { b with t1 := 0 }) true := by
  simp only [sendHeartbeat, partnered, allowed, link, Bool.true_eq_false, Bool.false_eq_true, if_false, List.isEmpty_iff, paths]

end

theorem Port.num_injective {p q : Port} (same : p.num = q.num) : p = q := by
  revert same
  cases p <;> cases q <;> decide

theorem sendOwn_queue (d : Dev) (q p : Port) (ptp : Bool) (data : List Byte) :
    ((sendOwn d q ptp data).queue p 0).length = (d.queue p 0).length + if q = p then 1 else 0 := by
  obtain ⟨x, joins⟩ : ∃ x, (sendOwn d q ptp data).sht.queues
      = kput d.sht.queues (qkey q 0) (kgetD d.sht.queues (qkey q 0) [] ++ [x]) := ⟨_, rfl⟩
  rw [Dev.queue, Dev.queue, joins]
  by_cases same : q = p
  · subst same
    simp
  · have apart : qkey q 0 ≠ qkey p 0 := fun h => same (Port.num_injective (by unfold qkey at h; omega))
    rw [if_neg same, kgetD_kput_other _ _ _ _ _ apart]
    rfl

theorem sendOwns_queue (ptp : Bool) (data : Dev → List Byte) (l : List Port) (d : Dev) (p : Port) :
    ((each l (fun e q => sendOwn e q ptp (data e)) d).queue p 0).length = (d.queue p 0).length + l.count p := by
  induction l generalizing d with
  | nil => rfl
  | cons q l ih =>
    refine (ih _).trans ?_
    rw [sendOwn_queue, List.count_cons]
    simp only [beq_iff_eq]
    omega

theorem pathB_nodup (d : Dev) : (pathB d).Nodup := by
  unfold pathB; split_ifs <;> decide

/-- A frame for path B joins the highest queue of each of its ports. -/
theorem plyOut_queue {d : Dev} (o : Output) {p : Port} (path : p ∈ pathB d) :
    ((plyOut d o true).queue p 0).length = (d.queue p 0).length + 1 := by
  have joins : (plyOut d o true).sht = (each (pathB d) (fun e q => sendOwn e q false (plinkEther e ++ partnerFrame d o)) d).sht :=
    (congrArg Dev.sht (plyOut_eq d o true)).trans rfl
  rw [Dev.queue_sht _ _ joins, sendOwns_queue false (fun e => plinkEther e ++ partnerFrame d o),
    List.count_eq_one_of_mem (pathB_nodup d) path]

theorem plyOut_spn (d : Dev) (o : Output) (b : Bool) : (plyOut d o b).spn = d.spn :=
  (plyOut_only d o b (l_ := [.out, .sht, .ply]) rfl (.refl _ _)).same .spn (by decide)

/-! ## All spindles to STANDBY (R271, R285) -/

/-- The ply without the records that await an acknowledgement. -/
def Ply.unawaited (p : Ply) : Ply := { p with awaiting := [] }

section
variable (d : Dev) (n : Fin 4)

theorem loseRecord_unawaited (k : AirKind) : (loseRecord d k).ply.unawaited = d.ply.unawaited := by cases k <;> rfl

theorem dropTx_unawaited (c : Lost) : (dropTx d n c).ply.unawaited = d.ply.unawaited := by
  unfold dropTx; split
  · rfl
  next t _ =>
    have counted : (countLost (loseRecord d t.kind) n c 1).ply = (loseRecord d t.kind).ply :=
      (countLost_only _ n c 1 (l_ := [.spn, .wrp]) rfl (.refl _ _)).same .ply (by decide)
    exact (congrArg Ply.unawaited counted).trans (loseRecord_unawaited ..)

theorem cutOff_unawaited (t : TxRun) : (cutOff d n t).ply.unawaited = d.ply.unawaited := loseRecord_unawaited d t.kind

theorem abortTx_unawaited (c : Lost) (rl : Option Nat) : (abortTx d n c rl).ply.unawaited = d.ply.unawaited := by
  cases tx : (d.spn.get n).tx with
  | none => simp only [abortTx, tx]
  | some t =>
    cases runs : t.ended with
    | some te => simp only [abortTx, tx, runs, Option.isSome_some, if_true]
    | none =>
      by_cases granted : t.granted = true
      · rw [abortTx_granted tx runs granted, ← cutOff_unawaited d n t]
        have measured : Only [.free, .evt, .spn] (cutOff d n t)
            (maskWatch (if t.started then measureRl (cutOff d n t) n rl else cutOff d n t) n) :=
          maskWatch_only _ n rfl (.ite (measureRl_only _ n rl rfl (.refl _ _)) (.refl _ _))
        exact congrArg Ply.unawaited (measured.same .ply (by decide))
      · simpa only [abortTx, tx, runs, granted, Option.isSome_none, Bool.false_eq_true, if_false] using dropTx_unawaited d n c

theorem actTarget_unawaited : (actTarget d n).ply.unawaited = d.ply.unawaited := by
  unfold actTarget; dsimp only; split
  · rfl
  · by_cases low : effTarget d n < 2
    · simp only [low, if_true]
      have cut (e : Dev) : (truncateAll e n).ply = e.ply :=
        (truncateAll_only e n (l_ := [.start, .evt, .spn, .bob]) rfl (.refl _ _)).same .ply (by decide)
      exact (congrArg Ply.unawaited (cut _)).trans (abortTx_unawaited ..)
    · simp only [low, if_false]
      rfl

end

/-- What an action on one of a list sets, and its actions on the rest keep, holds after all of them. -/
theorem each_sets {α : Type} {P : Dev → Prop} {l : List α} {f : Dev → α → Dev} {d : Dev} {x : α} (member : x ∈ l)
    (sets : ∀ e, P (f e x)) (keeps : ∀ e y, P e → P (f e y)) : P (each l f d) := by
  induction l generalizing d with
  | nil => cases member
  | cons y l ih =>
    rcases List.mem_cons.1 member with rfl | later
    · exact each_holds (d := f d x) (sets d) keeps
    · exact ih later

/-- A spindle is brought to STANDBY at once, with nothing left to serve. -/
def toStandby (d : Dev) (n : Fin 4) : Dev :=
  (actTarget d n).modSpn n (fun s =>
    { s with nowRx := [], heldRx := [], nowTx := false, nowPlan := none, planRx := [], planTx := none })

theorem allToStandby_eq (d : Dev) : allToStandby d = each spindles toStandby (d.modPly (fun p => { p with quiet := true })) := rfl

theorem allToStandby_unawaited (d : Dev) : (allToStandby d).ply.unawaited = Ply.unawaited { d.ply with quiet := true } := by
  rw [allToStandby_eq]
  exact each_keeps (fun e => e.ply.unawaited) fun e n => actTarget_unawaited e n

theorem allToStandby_planTx (d : Dev) (n : Fin 4) : ((allToStandby d).spn.get n).planTx = none := by
  have planless (e : Dev) : ((toStandby e n).spn.get n).planTx = none := by rw [toStandby, Dev.modSpn_get_same]
  rw [allToStandby_eq]
  refine each_sets (P := fun e => (e.spn.get n).planTx = none) (mem_spindles n) planless fun e m plan => ?_
  by_cases same : n = m
  · exact same ▸ planless e
  · rw [toStandby, Dev.modSpn_get_other _ _ same, (Spares.actTarget e m).others n same]
    exact plan

/-! ## HEARTBEAT_SEND (R271) -/

section
variable {d : Dev} (up : d.phase = .up) (sound : d.ply.faultTicks = none) (first : d.ply.hbTick ≠ some d.whl.tickK)
  (due : d.whl.tickAt + 2600000 ≤ d.whl.time)
include up sound first due

theorem heartbeat_due :
    ¬ (d.phase ≠ .up ∨ d.ply.faultTicks.isSome ∨ d.ply.hbTick = some d.whl.tickK
      ∨ d.whl.time < d.whl.tickAt + 2600000) := by
  simp [up, sound, first, due]

/-- A heartbeat that leaves by one path ends a run of omissions. -/
theorem doHeartbeatSend_written {o : Output} {b : Bool} (sent : sendHeartbeat d (heartbeatBody d) = plyOut d o b)
    (loud : d.ply.quiet = false) : doHeartbeatSend true d = (plyOut d o b).modPly (fun p =>
      { p with hbTick := some d.whl.tickK, omitted := 0, quiet := false,
               ackSeen := p.ackSeen.filter (fun a => !(ackSeenDue d).contains a) }) := by
  have still : (plyOut d o b).ply.quiet = false := by rw [plyOut_ply]; exact loud
  rw [doHeartbeatSend, if_neg (heartbeat_due up sound first due), if_pos rfl]
  dsimp only
  rw [sent, still, if_neg Bool.false_ne_true]

theorem doHeartbeatSend_plk (partnered : d.ply.partnered = true)
    (allowed : invoke d d.ply.plySkein masterLoom useEncrypt = (true, d)) (off : d.ply.pathBEn = false)
    (link : d.sht.linkp = true) (loud : d.ply.quiet = false) : let a := doHeartbeatSend true d
    a.out = d.out ++ [.sealed .plk (plinkEther d ++ plinkFrame d 1 (heartbeatOctets (heartbeatBody d))),
        .heartbeat .plk d.ply.seqOut (heartbeatBody d)]
      ∧ a.ply.seqOut = d.ply.seqOut + 1 ∧ a.ply.hbTick = some d.whl.tickK ∧ a.ply.omitted = 0 ∧ a.ply.role = d.ply.role
      ∧ a.spn = d.spn := by
  have sent := sendHeartbeat_plk (b := heartbeatBody d) partnered allowed off link rfl
  rw [doHeartbeatSend_written up sound first due sent loud]
  simp only [Dev.modPly_out, Dev.modPly_ply, Dev.modPly_spn, plyOut_out, plyOut_ply, Bool.false_eq_true, if_false,
    List.append_assoc, List.cons_append, List.nil_append, true_and]
  exact ⟨rfl, plyOut_spn ..⟩

theorem doHeartbeatSend_b (partnered : d.ply.partnered = true)
    (allowed : invoke d d.ply.plySkein masterLoom useEncrypt = (true, d)) (paths : pathB d ≠ [])
    (link : d.sht.linkp = false) (loud : d.ply.quiet = false) : let a := doHeartbeatSend true d
    a.out = d.out ++ [.heartbeat .b d.ply.seqOut { heartbeatBody d with t1 := 0 }] ∧ a.ply.seqOut = d.ply.seqOut + 1
      ∧ (∀ p ∈ pathB d, (a.queue p 0).length = (d.queue p 0).length + 1) ∧ a.ply.hbTick = some d.whl.tickK
      ∧ a.spn = d.spn := by
  have sent := sendHeartbeat_b partnered allowed (heartbeatBody d) paths link
  rw [doHeartbeatSend_written up sound first due sent loud]
  simp only [Dev.modPly_out, Dev.modPly_ply, Dev.modPly_spn, plyOut_out, plyOut_ply, if_true, true_and]
  exact ⟨fun p path => by rw [Dev.queue_sht _ _ (Dev.modPly_sht ..), plyOut_queue _ path],
    plyOut_spn ..⟩

theorem doHeartbeatSend_omitted : doHeartbeatSend false d =
    let a := d.modPly (fun p => { p with hbTick := some d.whl.tickK, omitted := p.omitted + 1 })
    if d.ply.omitted = 7 then allToStandby a else a := by
  rw [doHeartbeatSend, if_neg (heartbeat_due up sound first due), if_neg Bool.false_ne_true]
  simp only [Dev.modPly_ply, Nat.reduceEqDiff]

end

/-! ## What is known of the partner (R272, R273, R277) -/

/-- This side's part, and what its partner's heartbeats have shown. -/
def Ply.partner (p : Ply) : Role × Bool × Bool × Option Heartbeat × Option Role × Nat :=
  (p.role, p.master, p.pfail, p.last, p.prole, p.pmepoch)

theorem takeOffset_partner (d : Dev) (b : Heartbeat) : (takeOffset d b).ply.partner = d.ply.partner := by
  unfold takeOffset; dsimp only; split_ifs <;> rfl

theorem oweCounters_partner (d : Dev) (dest : Option Nat) : (oweCounters d dest).ply.partner = d.ply.partner := by
  cases dest <;> rfl

/-- The ply without the mark of a destination that is unsynced. -/
def Ply.synced (p : Ply) : Ply := { p with unsyncB := false }

theorem unsync_synced (d : Dev) (dest : Option Nat) : (unsync d dest).ply.synced = d.ply.synced := by
  cases dest with
  | none => simp only [unsync, apply_ite Dev.ply, report_ply]; split <;> rfl
  | some i =>
    simp only [unsync, apply_ite Dev.ply, report_ply]
    repeat' split
    all_goals rfl

theorem comparePlaced_partner (d : Dev) (b : Heartbeat) : (comparePlaced d b).ply.partner = d.ply.partner := by
  unfold comparePlaced; dsimp only; split_ifs
  · rfl
  · rfl
  · rfl
  · rw [each_keeps (fun e => e.ply.partner)]
    · rfl
    · intro e k
      split
      · exact oweCounters_partner ..
      · exact Ply.reads (unsync_synced ..) Ply.partner

/-! ## HEARTBEAT_RECEIVE (R272, R273, R289) -/

/-- The device as it notes by which path a heartbeat of the present tick came. -/
def notedOn (path : Path) (b : Heartbeat) (d : Dev) : Dev :=
  if (b.asn : Int) = d.whl.tickK % (2 ^ 40 : Nat) then
    d.modPly (fun p => match path with | .plk => { p with heardA := true } | .b => { p with heardB := true })
  else d

/-- The ply without the note. -/
def Ply.unnoted (p : Ply) : Ply := { p with heardA := false, heardB := false }

theorem notedOn_only (path : Path) (b : Heartbeat) (d : Dev) : Only [.ply] d (notedOn path b d) :=
  .ite (Dev.modPly_only d _ rfl (.refl _ _)) (.refl _ _)

theorem notedOn_unnoted (path : Path) (b : Heartbeat) (d : Dev) : (notedOn path b d).ply.unnoted = d.ply.unnoted := by
  unfold notedOn; split
  · cases path <;> rfl
  · rfl

theorem notedOn_reads {α : Type} (g : Ply → α) (path : Path) (b : Heartbeat) (d : Dev)
    (only : g ∘ Ply.unnoted = g := by rfl) : g (notedOn path b d).ply = g d.ply := Ply.reads (notedOn_unnoted path b d) g only

theorem notedOn_whl (path : Path) (b : Heartbeat) (d : Dev) : (notedOn path b d).whl = d.whl :=
  (notedOn_only path b d).same .whl (by decide)

/-- The offset that a heartbeat gives, on PLK alone. -/
def offsetOf (path : Path) (b : Heartbeat) (d : Dev) : Dev := match path with | .plk => takeOffset d b | .b => d

theorem offsetOf_partner (path : Path) (b : Heartbeat) (d : Dev) : (offsetOf path b d).ply.partner = d.ply.partner := by
  cases path
  · exact takeOffset_partner d b
  · rfl

theorem offsetOf_only (path : Path) (b : Heartbeat) (d : Dev) : Only [.whl, .ply] d (offsetOf path b d) := by
  cases path
  · exact takeOffset_only d b rfl (.refl _ _)
  · exact .refl _ _

theorem offsetOf_tickK (path : Path) (b : Heartbeat) (d : Dev) : (offsetOf path b d).whl.tickK = d.whl.tickK := by
  cases path
  · show (takeOffset d b).whl.tickK = _
    unfold takeOffset; dsimp only; split_ifs <;> rfl
  · rfl

/-- What a heartbeat without FAULT gives beside what it says of the partner: its offset, and, where it is the first of its tick, the
digests to compare. -/
def heardOf (path : Path) (b : Heartbeat) (first : Bool) (d : Dev) : Dev :=
  let d := offsetOf path b d
  if first ∧ (b.asn : Int) = d.whl.tickK % (2 ^ 40 : Nat) then comparePlaced d b else d

theorem heardOf_partner (path : Path) (b : Heartbeat) (first : Bool) (d : Dev) :
    (heardOf path b first d).ply.partner = d.ply.partner := by
  unfold heardOf; dsimp only; split
  · exact (comparePlaced_partner ..).trans (offsetOf_partner ..)
  · exact offsetOf_partner ..

/-- A heartbeat of another tick leaves the events and the nodes. -/
theorem heardOf_other {path : Path} {b : Heartbeat} {d : Dev} (first : Bool)
    (other : (b.asn : Int) ≠ d.whl.tickK % (2 ^ 40 : Nat)) :
    Only [.whl, .ply] d (heardOf path b first d) := by
  rw [heardOf, offsetOf_tickK, if_neg fun now => other now.2]
  exact offsetOf_only path b d

/-- The meaning of a heartbeat that is taken. -/
def heartbeatTaken (path : Path) (b : Heartbeat) (d : Dev) : Dev :=
  if b.fault then
    let again : Bool := match (notedOn path b d).ply.last with | some x => x.fault | none => false
    let declared := declareFailed ((notedOn path b d).modPly (fun p => { p with last := some (faultSeen (p.last.getD b)) }))
    if again then declared else report declared evPartnerFault []
  else heardOf path b (!d.ply.heardA && !d.ply.heardB) (partnerHeard (notedOn path b d) b)

theorem doHeartbeatReceive_eq (path : Path) (h : LinkHeader) (b : Heartbeat) (d : Dev) :
    doHeartbeatReceive path h b d = plinkIn d h (heartbeatTaken path b) := rfl

/-- The ply once a heartbeat without FAULT has been heard. -/
def Ply.hears (b : Heartbeat) (p : Ply) : Ply :=
  { p with pfail := false, last := some b, prole := roleOf b.role.toNat, pmepoch := b.mepoch.toNat,
           joinAt := if b.ready then (p.joinAt <|> some ((b.asn : Int) + 2)) else none,
           awaiting := p.awaiting.map (fun a => if b.acks.contains a.r.hash then { a with acked := true } else a) }

section
variable {d : Dev} {b : Heartbeat}

theorem partnerHeard_eq (d : Dev) (b : Heartbeat) : partnerHeard d b =
    let a := d.modPly (Ply.hears b)
    if d.ply.pfail = true ∧ d.ply.role = .solo ∧ roleOf b.role.toNat = some .solo then
      let split := report a evSplit []
      if split.ply.side then setRole split .spare false else split
    else a := rfl

/-- A partner that had not failed is still there. -/
theorem partnerHeard_calm (well : d.ply.pfail = false) : partnerHeard d b = d.modPly (Ply.hears b) := by
  rw [partnerHeard_eq]
  exact if_neg (by simp [well])

/-- The device with two SOLO sides found to be split. -/
def splitFound (d : Dev) (b : Heartbeat) : Dev := report (d.modPly (Ply.hears b)) evSplit []

/-- Where both sides are SOLO the ply was split, and side B enters SPARE. -/
theorem partnerHeard_split (failed : d.ply.pfail = true) (solo : d.ply.role = .solo) (both : roleOf b.role.toNat = some .solo) :
    partnerHeard d b = if d.ply.side then setRole (splitFound d b) .spare false else splitFound d b := by
  have side : (splitFound d b).ply.side = d.ply.side := by rw [splitFound, report_ply]; rfl
  rw [partnerHeard_eq, ← side]
  exact if_pos ⟨failed, solo, both⟩

/-- A side that enters SPARE discards its nodes (R283), and reports the change. -/
theorem setRole_spare (other : d.ply.role ≠ .spare) : setRole d .spare false = discardNodes (report (d.modPly (fun p =>
      { p with role := .spare, master := false, electAt := none, joinAt := none, readyTick := none, bothSpare := 0,
               ready := p.ready && Role.spare == .spare }))
    evRoleChange (octets 1 (Role.num d.ply.role) ++ octets 1 (Role.num .spare) ++ octets 1 (b2n false))) := by
  simp only [setRole, other, ne_eq, not_false_eq_true, and_self, if_true, if_false, reduceCtorEq, false_and, Bool.false_eq_true]

theorem setRole_spare_sticky {e : Nat} (other : d.ply.role ≠ .spare) (set : d.evt.sticky e = true) :
    (setRole d .spare false).evt.sticky e = true := by
  rw [setRole_spare other]
  exact report_keeps_sticky (d := d.modPly _) _ _ set

theorem setRole_spare_enters (other : d.ply.role ≠ .spare) : (setRole d .spare false).ply.role = .spare
    ∧ (setRole d .spare false).ply.master = false ∧ (setRole d .spare false).ply.pfail = d.ply.pfail
    ∧ (setRole d .spare false).wrp.nodes = [] := by
  simp only [setRole_spare other, discardNodes, Dev.modWrp_ply, Dev.modPly_ply, Dev.modWrp_wrp, report_ply, and_self]

theorem declareFailed_first (well : d.ply.pfail = false) : declareFailed d =
    report (d.modPly (fun p => { p with pfail := true, joinAt := none })) evPartnerFailed [] := by
  rw [declareFailed, if_neg (by simp [well])]

end

/-- The device as a heartbeat with FAULT declares its partner failed, before the report of the fault. -/
def faultDeclared (path : Path) (b : Heartbeat) (d : Dev) : Dev :=
  declareFailed ((notedOn path b d).modPly (fun p => { p with last := some (faultSeen (p.last.getD b)) }))

/-- A heartbeat with FAULT is reported, once for a run of them. -/
theorem heartbeatTaken_fault {b : Heartbeat} (path : Path) (d : Dev) (fault : b.fault = true) : heartbeatTaken path b d =
    if (d.ply.last.map (·.fault)).getD false then faultDeclared path b d
    else report (faultDeclared path b d) evPartnerFault [] := by
  have last : (notedOn path b d).ply.last = d.ply.last := notedOn_reads Ply.last path b d
  rw [heartbeatTaken, if_pos fault, last]
  cases d.ply.last <;> rfl

section
variable {path : Path} {b : Heartbeat} {d : Dev} (well : d.ply.pfail = false)
include well

theorem faultDeclared_eq : faultDeclared path b d = report ((notedOn path b d).modPly (fun p =>
    { p with last := some (faultSeen (p.last.getD b)), pfail := true, joinAt := none })) evPartnerFailed [] :=
  declareFailed_first (d := (notedOn path b d).modPly _) ((notedOn_reads Ply.pfail path b d).trans well)

theorem faultDeclared_ply : (faultDeclared path b d).ply.pfail = true ∧ (faultDeclared path b d).ply.role = d.ply.role := by
  rw [faultDeclared_eq well, report_ply]
  exact ⟨rfl, notedOn_reads Ply.role path b d⟩

theorem faultDeclared_sticky (runs : d.phase.fwRuns = true) :
    (faultDeclared path b d).evt.sticky evPartnerFailed = true := by
  rw [faultDeclared_eq well]
  exact report_sticky _ _ _ (((congrArg Phase.fwRuns ((notedOn_only path b d).same .phase (by decide)))).trans runs)

end

theorem faultDeclared_only (path : Path) (b : Heartbeat) (d : Dev) : Only [.start, .evt, .ply] d (faultDeclared path b d) :=
  declareFailed_only _ rfl (Dev.modPly_only _ _ rfl ((notedOn_only path b d).mono rfl))

theorem heartbeatTaken_sound {b : Heartbeat} (path : Path) (d : Dev) (sound : b.fault = false) : heartbeatTaken path b d =
    heardOf path b (!d.ply.heardA && !d.ply.heardB) (partnerHeard (notedOn path b d) b) := by
  rw [heartbeatTaken, if_neg (by simp [sound])]

/-- The split is reported, and side B alone has left SOLO, with no nodes. -/
theorem partnerHeard_splits {d : Dev} {b : Heartbeat} (runs : d.phase.fwRuns = true) (failed : d.ply.pfail = true)
    (solo : d.ply.role = .solo) (both : roleOf b.role.toNat = some .solo) : let x := partnerHeard d b
    x.ply.pfail = false ∧ x.evt.sticky evSplit = true
      ∧ (d.ply.side = true → x.ply.role = .spare ∧ x.ply.master = false ∧ x.wrp.nodes = [])
      ∧ (d.ply.side = false → x.ply.role = .solo ∧ x.wrp.nodes = d.wrp.nodes) := by
  have found : (splitFound d b).evt.sticky evSplit = true := report_sticky (d.modPly _) _ _ runs
  have ply : (splitFound d b).ply = Ply.hears b d.ply := report_ply ..
  rw [partnerHeard_split failed solo both]
  cases side : d.ply.side with
  | true =>
    have other : (splitFound d b).ply.role ≠ .spare := by rw [ply]; exact solo.trans_ne (by decide)
    obtain ⟨role, master, pfail, nodes⟩ := setRole_spare_enters other
    exact ⟨pfail.trans (by rw [ply]; rfl), setRole_spare_sticky other found, fun _ => ⟨role, master, nodes⟩, nofun⟩
  | false =>
    exact ⟨by rw [if_neg Bool.false_ne_true, ply]; rfl, found, nofun,
      fun _ => ⟨by rw [if_neg Bool.false_ne_true, ply]; exact solo, congrArg Wrp.nodes (report_wrp (d.modPly _) ..)⟩⟩

/-- The device once a heartbeat on `path` has left the CPU port, by which path B alone brings it. -/
def cameBy (path : Path) (d : Dev) : Dev := if path = .b then takeCpu d else d

theorem cameBy_only (path : Path) (d : Dev) : Only [.sht] d (cameBy path d) := .ite (takeCpu_sht d) (.refl _ _)

section
variable {s : State} {dt : Nat} {path : Path} {h : LinkHeader} {b : Heartbeat} {a : Dev} {P : Dev → Prop}

theorem gives_heartbeat (p : P (doHeartbeatReceive path h b (cameBy path (s.dev.elapse dt)))) :
    Gives (.heartbeatReceive dt path h b) s P := by
  have row : exec (.heartbeatReceive dt path h b) s = run dt (fun d => doHeartbeatReceive path h b (cameBy path d)) s := by
    cases path <;> rfl
  exact gives_run row p

variable (up : (s.dev.elapse dt).phase = .up) (partnered : (s.dev.elapse dt).ply.partnered = true)
include up partnered

theorem gives_heartbeat_taken
    (taken : linkTake (cameBy path (s.dev.elapse dt)) (s.dev.elapse dt).ply.plySkein h.side.toNat h = (true, a))
    (p : Heard (s.dev.elapse dt) a → P (heartbeatTaken path b a)) : Gives (.heartbeatReceive dt path h b) s P := by
  have came := cameBy_only path (s.dev.elapse dt)
  refine gives_heartbeat ?_
  rw [← show (cameBy path (s.dev.elapse dt)).ply = _ from came.same .ply (by decide)] at taken partnered
  rw [doHeartbeatReceive_eq, plinkIn_taken (Eq.trans (came.same .phase (by decide)) up) partnered taken]
  exact p (heard_of_taken came taken)

theorem gives_heartbeat_refused
    (refused : linkTake (cameBy path (s.dev.elapse dt)) (s.dev.elapse dt).ply.plySkein h.side.toNat h = (false, a))
    (p : Only [.sht, .start, .evt, .ply, .dst] (s.dev.elapse dt) a → a.ply.reject = inc32 (s.dev.elapse dt).ply.reject →
      P (report a evPlinkAuth [])) : Gives (.heartbeatReceive dt path h b) s P := by
  have came := cameBy_only path (s.dev.elapse dt)
  have ply : (cameBy path (s.dev.elapse dt)).ply = (s.dev.elapse dt).ply := came.same .ply (by decide)
  refine gives_heartbeat ?_
  rw [← ply] at refused partnered
  rw [doHeartbeatReceive_eq, plinkIn_refused (Eq.trans (came.same .phase (by decide)) up) partnered refused]
  refine p (.snd refused (linkTake_only _ _ _ _ rfl (came.mono rfl))) ?_
  rw [linkTake_refused refused, ply]

end

/-! ## The treadle (R285, R286) -/

theorem doTreadleTimeout_due {d : Dev} (up : d.phase = .up) (late : 2000000000 ≤ d.glb.upNs) (sound : d.ply.faultTicks = none)
    (silent : d.ply.beaconAt + fTreadleTmo.get d.pra * 1000000 ≤ d.glb.upNs) :
    doTreadleTimeout d = allToStandby (d.modPly (fun p => { p with faultTicks := some 0 })) := by
  rw [doTreadleTimeout, if_pos (by simp [up, late, sound, silent, Phase.ctrlRuns])]

theorem doTreadleReset_held {d : Dev} {n : Nat} (asserted : d.ply.faultTicks = some n) :
    doTreadleReset d = if fFaultHold.get d.pra ≤ n then controlReset d 5 else d := by
  rw [doTreadleReset, asserted]

theorem Phase.ctrlRuns_of_fwRuns {p : Phase} (runs : p.fwRuns = true) : p.ctrlRuns = true := by
  cases p <;> simp_all [Phase.fwRuns, Phase.ctrlRuns]

theorem doTreadleLost_first {d : Dev} (runs : d.phase.fwRuns = true) (first : d.ply.treadleLost = false) :
    doTreadleLost d = report (d.modPly (fun p => { p with treadleLost := true })) evTreadleLost [] := by
  rw [doTreadleLost, if_neg (by simp [first, Phase.ctrlRuns_of_fwRuns runs])]

theorem selfTestLive_failed (d : Dev) (b : Nat) : kgetD (selfTestLive d b false).glb.selftest b 0 = 2 := by
  rw [selfTestLive, if_neg Bool.false_ne_true]
  split
  next was => exact was
  next => exact kgetD_ksetD_selftest ..

theorem selfTestLive_passed (d : Dev) (b : Nat) : kgetD (selfTestLive d b true).glb.selftest b 0 = 1 := by
  rw [selfTestLive, if_pos rfl]
  exact kgetD_ksetD_same d.glb.selftest b 1 0

theorem doTreadleStatusTimeout_lapses (d : Dev) : let a := doTreadleStatusTimeout d
    a.pwr.treadleLapse = true ∧ a.spn = d.spn ∧ a.ply = d.ply
      ∧ (d.phase.ctrlRuns = true → kgetD a.glb.selftest blockTreadle 0 = 2) := by
  by_cases runs : d.phase.ctrlRuns = true
  · have test := selfTestLive_only (d.modPwr (fun p => { p with treadleLapse := true })) blockTreadle false
      (l_ := [.glb, .start, .evt]) rfl (.refl _ _)
    have pwr := test.same .pwr (by decide)
    simp only [doTreadleStatusTimeout, Dev.modPwr_phase, runs, if_true]
    exact ⟨congrArg Pwr.treadleLapse pwr, test.same .spn (by decide), test.same .ply (by decide),
      fun _ => selfTestLive_failed ..⟩
  · simp only [doTreadleStatusTimeout, Dev.modPwr_phase, runs]
    exact ⟨rfl, rfl, rfl, nofun⟩

theorem doTreadleStatusResume_resumes (d : Dev) : let a := doTreadleStatusResume d
    a.pwr.treadleLapse = false ∧ a.spn = d.spn
      ∧ (d.phase.ctrlRuns = true → a.ply.treadleLost = false ∧ kgetD a.glb.selftest blockTreadle 0 = 1) := by
  by_cases runs : d.phase.ctrlRuns = true
  · simp only [doTreadleStatusResume, Dev.modPwr_phase, runs, if_true]
    exact ⟨rfl, rfl, fun _ => ⟨rfl, selfTestLive_passed ..⟩⟩
  · simp only [doTreadleStatusResume, Dev.modPwr_phase, runs]
    exact ⟨rfl, rfl, nofun⟩

section
variable {d : Dev} {b : Heartbeat} (path : Path)

/-- A first heartbeat with FAULT declares the partner failed, and is reported where the one before had none. -/
theorem heartbeatTaken_declares (runs : d.phase.fwRuns = true) (fault : b.fault = true) (well : d.ply.pfail = false) :
    let a := heartbeatTaken path b d
    a.ply.pfail = true ∧ a.evt.sticky evPartnerFailed = true ∧ a.ply.role = d.ply.role ∧ a.whl = d.whl
      ∧ ((∀ x, d.ply.last = some x → x.fault = false) → a.evt.sticky evPartnerFault = true) := by
  have declared := faultDeclared_only path b d
  obtain ⟨pfail, role⟩ := faultDeclared_ply (path := path) (b := b) well
  have failed := faultDeclared_sticky (path := path) (b := b) well runs
  have whl : (faultDeclared path b d).whl = d.whl := declared.same .whl (by decide)
  have phase : (faultDeclared path b d).phase = d.phase := declared.same .phase (by decide)
  rw [heartbeatTaken_fault path d fault]
  dsimp only
  split
  next again =>
    refine ⟨pfail, failed, role, whl, fun first => ?_⟩
    cases last : d.ply.last with
    | none => simp [last] at again
    | some x => simp [last, first x last] at again
  next =>
    rw [report_ply, report_whl]
    exact ⟨pfail, report_keeps_sticky _ _ failed, role, whl, fun _ => report_sticky _ _ _ (by rw [phase]; exact runs)⟩

/-- The latest heartbeat of a partner that had not failed. -/
theorem heartbeatTaken_latest (sound : b.fault = false) (well : d.ply.pfail = false) : (heartbeatTaken path b d).ply.partner =
    (d.ply.role, d.ply.master, false, some b, roleOf b.role.toNat, b.mepoch.toNat) := by
  rw [heartbeatTaken_sound path d sound, heardOf_partner, partnerHeard_calm ((notedOn_reads Ply.pfail path b d).trans well)]
  simp only [Ply.partner, Dev.modPly_ply, Ply.hears, notedOn_reads Ply.role path b d, notedOn_reads Ply.master path b d]

/-- A heartbeat that finds the ply split, of a tick other than the present one. -/
theorem heartbeatTaken_splits (runs : d.phase.fwRuns = true) (sound : b.fault = false) (failed : d.ply.pfail = true)
    (solo : d.ply.role = .solo) (both : roleOf b.role.toNat = some .solo)
    (other : (b.asn : Int) ≠ d.whl.tickK % (2 ^ 40 : Nat)) :
    let a := heartbeatTaken path b d
    a.ply.pfail = false ∧ a.evt.sticky evSplit = true
      ∧ (d.ply.side = true → a.ply.role = .spare ∧ a.ply.master = false ∧ a.wrp.nodes = [])
      ∧ (d.ply.side = false → a.ply.role = .solo ∧ a.wrp.nodes = d.wrp.nodes) := by
  have phase : (notedOn path b d).phase = d.phase := (notedOn_only path b d).same .phase (by decide)
  have nodes : (notedOn path b d).wrp = d.wrp := (notedOn_only path b d).same .wrp (by decide)
  obtain ⟨pfail, split, sideB, sideA⟩ := partnerHeard_splits (d := notedOn path b d) (by rw [phase]; exact runs)
    ((notedOn_reads Ply.pfail path b d).trans failed) ((notedOn_reads Ply.role path b d).trans solo) both
  rw [notedOn_reads Ply.side path b d] at sideB sideA
  have tick : (partnerHeard (notedOn path b d) b).whl = d.whl :=
    ((partnerHeard_only _ b (l_ := [.out, .start, .evt, .wrp, .sht, .ply, .dst]) rfl (.refl _ _)).same .whl (by decide)).trans
      (notedOn_whl ..)
  rw [← tick] at other
  have rest := heardOf_other (path := path) (!d.ply.heardA && !d.ply.heardB) other
  have partner := heardOf_partner path b (!d.ply.heardA && !d.ply.heardB) (partnerHeard (notedOn path b d) b)
  simp only [Ply.partner, Prod.mk.injEq] at partner
  obtain ⟨role, master, fail, -⟩ := partner
  rw [heartbeatTaken_sound path d sound]
  simp only [role, master, fail, show _ = _ from rest.same .evt (by decide), show _ = _ from rest.same .wrp (by decide)]
  exact ⟨pfail, split, sideB, fun a => ⟨(sideA a).1, (sideA a).2.trans (congrArg Wrp.nodes nodes)⟩⟩

end

/-- Settles O47: a heartbeat written leaves by one path (`sendHeartbeat_plk`, `sendHeartbeat_b`), the eighth omission and a silent
treadle bring every spindle to STANDBY (`allToStandby_unawaited`, `allToStandby_planTx`), and a heartbeat taken is a declaration of
failure (`faultDeclared_eq`), the partner's latest (`partnerHeard_calm`) or a split found (`partnerHeard_splits`). -/
theorem heartbeatsAndTreadle : Obligations.HeartbeatsAndTreadle := by
  unfold Obligations.HeartbeatsAndTreadle
  intro s dt e idle
  refine ⟨fun up sound first due => ⟨fun partnered off link allowed loud => gives_run rfl ?_,
      fun partnered paths link allowed loud => gives_run rfl ?_, fun few => gives_run rfl ?_, fun eighth _ => gives_run rfl ?_⟩,
    fun path h b a up partnered => ⟨fun refused => gives_heartbeat_refused up partnered refused ?_, fun taken =>
      ⟨fun fault well => gives_heartbeat_taken up partnered taken ?_,
        fun sound well => gives_heartbeat_taken up partnered taken ?_,
        fun sound failed solo both other => gives_heartbeat_taken up partnered taken ?_⟩⟩,
    fun up late sound silent _ => gives_run rfl ?_,
    fun n asserted => ⟨fun over_ => gives_run rfl ?_, fun early => gives_run rfl ?_⟩,
    gives_run rfl ?_, gives_run rfl ?_, fun runs first => gives_run rfl ?_⟩
  · exact doHeartbeatSend_plk up sound first due partnered allowed off link loud
  · exact doHeartbeatSend_b up sound first due partnered allowed paths link loud
  · rw [doHeartbeatSend_omitted up sound first due, if_neg few]; rfl
  · rw [doHeartbeatSend_omitted up sound first due, if_pos eighth]
    have ply := allToStandby_unawaited (e.modPly fun p => { p with hbTick := some e.whl.tickK, omitted := p.omitted + 1 })
    exact ⟨Ply.reads ply Ply.quiet, (Ply.reads ply Ply.omitted).trans (congrArg (· + 1) eighth), allToStandby_planTx _⟩
  · intro only count
    have phase : a.phase = e.phase := only.same .phase (by decide)
    exact ⟨report_ply .., count, report_sticky _ _ _ (by rw [phase, up]; rfl),
      (report_spn ..).trans (only.same .spn (by decide))⟩
  · intro heard
    obtain ⟨pfail, failed, role, whl, reported⟩ := heartbeatTaken_declares path (heard.runs up) fault well
    exact ⟨pfail, failed, role.trans (heard.reads Ply.role), whl.trans heard.whl, reported⟩
  · intro heard
    have partner := heartbeatTaken_latest path sound well
    simp only [Ply.partner, Prod.mk.injEq] at partner
    obtain ⟨role, -, pfail, last, prole, pmepoch⟩ := partner
    exact ⟨pfail, last, prole, pmepoch, role.trans (heard.reads Ply.role)⟩
  · intro heard
    obtain ⟨pfail, split, sideB, sideA⟩ := heartbeatTaken_splits path (heard.runs up) sound failed solo both other
    exact ⟨pfail, split, sideB, fun a => ⟨(sideA a).1, (sideA a).2.trans (congrArg Wrp.nodes heard.wrp)⟩⟩
  · rw [doTreadleTimeout_due up late sound silent]
    have ply := allToStandby_unawaited (e.modPly fun p => { p with faultTicks := some 0 })
    exact ⟨Ply.reads ply Ply.faultTicks, Ply.reads ply Ply.quiet, allToStandby_planTx _⟩
  · rw [doTreadleReset_held asserted, if_pos over_]
    exact ⟨rfl, rfl, rfl, rfl, rfl, rfl, rfl, rfl, rfl, rfl, rfl, rfl⟩
  · rw [doTreadleReset_held asserted, if_neg (Nat.not_le.2 early)]
  · exact doTreadleStatusTimeout_lapses e
  · exact doTreadleStatusResume_resumes e
  · rw [doTreadleLost_first runs first]
    exact ⟨report_ply .., report_sticky _ _ _ runs, report_spn ..⟩

end Sys2Proof.Machine
end

section
/-! PROOFS. Records and counters between the sides (O48). The master lists a record as assigned, or keeps it waiting for its twin; the
other side lists what the master has assigned. -/

namespace Sys2Proof.Machine

/-! ## Records at the master (R276) -/

/-- An assigned record is listed two slots on, and waits no more. -/
theorem assignRec_lists (d : Dev) (r : DownRec) :
    (assignRec d r).ply.recs = insertRec { r with share := some (d.whl.asn + 2) } d.ply.recs
      ∧ (assignRec d r).ply.waiting = d.ply.waiting.filter (fun q => q.1.hash != r.hash) := Prod.mk.inj (plySend_records ..)

theorem assignRec_wrp (d : Dev) (r : DownRec) : (assignRec d r).wrp = d.wrp :=
  (assignRec_only d r (l_ := [.out, .start, .evt, .sht, .ply, .dst]) rfl (.refl _ _)).same .wrp (by decide)

theorem assignRec_whl (d : Dev) (r : DownRec) : (assignRec d r).whl = d.whl :=
  (assignRec_only d r (l_ := [.out, .start, .evt, .sht, .ply, .dst]) rfl (.refl _ _)).same .whl (by decide)

section
variable {d : Dev} {r : DownRec} (new : d.ply.recs.any (fun x => x.hash == r.hash) = false)
include new

theorem masterTake_twin {x : DownRec} {w : Option Nat} (twin : d.ply.waiting.find? (fun q => q.1.hash == r.hash) = some (x, w)) :
    masterTake d r = assignRec d x := by
  simp only [masterTake, new, twin, Bool.false_eq_true, if_false]

variable (alone : d.ply.waiting.find? (fun q => q.1.hash == r.hash) = none)
include alone

theorem masterTake_waits (command : RecKind.byCommand r.kind = true) : masterTake d r = { d with ply := { d.ply with
    waiting := d.ply.waiting ++ [(r, some (d.glb.upNs + fMergeWait.get d.pra * d.whl.periodNs))] } } := by
  simp only [masterTake, new, alone, command, Bool.false_eq_true, if_true, if_false]
  rfl

theorem masterTake_assigns (own : RecKind.byCommand r.kind = false) : masterTake d r = assignRec d r := by
  simp only [masterTake, new, alone, own, Bool.false_eq_true, if_false]

end

section
variable {d : Dev} {hash t : Nat} {r : DownRec} (waits : d.ply.waiting = [(r, some t)]) (named : r.hash = hash)
include waits named

theorem doMergeWaitExpire_over (master : d.ply.master = true) (over_ : t ≤ d.glb.upNs) :
    doMergeWaitExpire hash d = assignRec d r := by
  simp [doMergeWaitExpire, waits, named, over_, master]

theorem doMergeWaitExpire_early (early : d.glb.upNs < t) : doMergeWaitExpire hash d = d := by
  simp [doMergeWaitExpire, waits, named, Nat.not_le.2 early]

end

/-! ## Records on the other side (R276, R277) -/

/-- The device with an assigned record listed. -/
def listed (d : Dev) (r : DownRec) : Dev := d.modPly (fun p =>
  { p with recs := insertRec r p.recs, waiting := p.waiting.filter (fun q => q.1.hash != r.hash) })

/-- The meaning of an ASSIGN that is taken. -/
def assignTaken (r : DownRec) (d : Dev) : Dev :=
  if d.ply.master ∨ d.ply.recs.any (fun x => x.hash == r.hash) then d
  else
    let d := match r.kind, r.dest with
      | .correction tc, some i => (dropCorrection d i).modNode i (fun x => { x with corr := some (tc, d.whl.time + 2000000000) })
      | _, _ => d
    if scheduleBegun (listed d r) (r.share.getD 0 : Nat) then
      unsync ((listed d r).modPly (fun p => { p with dlLate := inc32 p.dlLate })) r.dest
    else listed d r

theorem doAssignReceive_eq (h : LinkHeader) (r : DownRec) (d : Dev) : doAssignReceive h r d = plinkIn d h (assignTaken r) := rfl

theorem assignTaken_new {d : Dev} {r : DownRec} (other : d.ply.master = false)
    (new : d.ply.recs.any (fun x => x.hash == r.hash) = false) (plain : ∀ tc, r.kind ≠ .correction tc) : assignTaken r d =
      if scheduleBegun d (r.share.getD 0 : Nat) then
        unsync ((listed d r).modPly (fun p => { p with dlLate := inc32 p.dlLate })) r.dest
      else listed d r := by
  rw [assignTaken, if_neg (by simp [other, new])]
  split
  next tc i correction _ => exact absurd correction (plain tc)
  next => rfl

/-- Settles O48: the master assigns a record or keeps it waiting (`masterTake_waits`, `masterTake_assigns`, `masterTake_twin`), and
the other side lists one that is assigned (`assignTaken_new`). -/
theorem recordsAndCounters : Obligations.RecordsAndCounters := by
  unfold Obligations.RecordsAndCounters
  intro s dt e c
  refine ⟨fun h r a up partnered taken new => ?_,
    fun hash t r waits named master => ⟨fun over_ => gives_run rfl ?_, fun early => gives_run rfl ?_⟩,
    fun h dsn fc a up partnered taken => ⟨fun master dest => gives_plink up rfl partnered taken fun _ => ?_,
      fun other => ⟨gives_plink up rfl partnered taken fun _ => ?_,
        fun i => gives_plink up rfl partnered taken fun _ => ?_⟩⟩⟩
  · intro r'
    refine ⟨fun master alone => ⟨fun command => gives_plink up rfl partnered taken fun _ => ?_,
        fun own => gives_plink up rfl partnered taken fun heard => ?_⟩,
      fun x w master twin => gives_plink up rfl partnered taken fun heard => ?_,
      fun other => gives_plink up rfl partnered taken fun _ => ?_,
      fun other plain => ⟨fun early => gives_plink up rfl partnered taken fun _ => ?_,
        fun late => gives_plink up rfl partnered taken fun heard => ?_⟩⟩
    · rw [if_pos master]; exact masterTake_waits (r := r') new alone command
    · rw [if_pos master, masterTake_assigns (r := r') new alone own]
      exact ⟨(assignRec_lists a r').1, (assignRec_wrp ..).trans heard.wrp, (assignRec_whl ..).trans heard.whl⟩
    · rw [if_pos master, masterTake_twin (r := r') new twin]
      exact ⟨(assignRec_lists a x).1, (assignRec_lists a x).2, (assignRec_wrp ..).trans heard.wrp,
        (assignRec_whl ..).trans heard.whl⟩
    · rw [if_neg (by simp [other])]
    · show assignTaken r a = _
      rw [assignTaken_new other new plain, if_neg (by simp [early])]; rfl
    · show (assignTaken r a).ply.recs = _ ∧ (assignTaken r a).ply.dlLate = _ ∧ (assignTaken r a).whl = _
      rw [assignTaken_new other new plain, if_pos late]
      have rest := unsync_synced ((listed a r).modPly (fun p => { p with dlLate := inc32 p.dlLate })) r.dest
      have whl := (unsync_only ((listed a r).modPly (fun p => { p with dlLate := inc32 p.dlLate })) r.dest
        (l_ := [.start, .evt, .wrp, .ply]) rfl (.refl _ _)).same .whl (by decide)
      exact ⟨Ply.reads rest Ply.recs, Ply.reads rest Ply.dlLate, Eq.trans whl heard.whl⟩
  · rw [doMergeWaitExpire_over waits named master over_]
    exact ⟨(assignRec_lists e r).1, (assignRec_lists e r).2.trans (by simp [waits]), assignRec_wrp ..⟩
  · exact doMergeWaitExpire_early waits named early
  · rw [if_pos master]
  · rw [if_neg (by simp [other])]; rfl
  · rw [if_neg (by simp [other])]; rfl

end Sys2Proof.Machine
end

section
/-! PROOFS. The mirror and its snapshots (O49). What this side tells the partner leaves its links and its keys, so that one frame may
follow another; a change or a snapshot that is taken is in the mirrored items alone. -/

namespace Sys2Proof.Machine

/-! ## Frames that reach the partner (R268, R269) -/

/-- The device's frames reach its partner, and may be sealed. -/
structure Reaches (d : Dev) : Prop where
  partnered : d.ply.partnered = true
  reach : plyReach d = true
  allowed : (invoke d d.ply.plySkein masterLoom useEncrypt).1 = true

/-- The links of the ports that lead to the partner. -/
def Sht.partnerLinks (s : Sht) : Bool × Bool × Bool := (s.linkp, s.link0, s.link1)

theorem plyOut_partnerLinks (d : Dev) (o : Output) (b : Bool) : (plyOut d o b).sht.partnerLinks = d.sht.partnerLinks := by
  rw [plyOut_eq]
  cases b with
  | true => exact each_keeps (fun e => e.sht.partnerLinks) fun _ _ => rfl
  | false => rfl

theorem plyOut_reach (d : Dev) (o : Output) (b : Bool) : plyReach (plyOut d o b) = plyReach d := by
  have links := plyOut_partnerLinks d o b
  simp only [Sht.partnerLinks, Prod.mk.injEq] at links
  obtain ⟨linkp, link0, link1⟩ := links
  simp only [plyReach, pathB, plyOut_ply, linkp, link0, link1]

namespace Reaches

variable {d : Dev} (reaches : Reaches d)
include reaches

theorem sends (o : Output) : plySend d o = plyOut d o (!d.sht.linkp) :=
  plySend_sends o reaches.partnered reaches.reach (invoke_allowed reaches.allowed)

theorem plySend (o : Output) : Reaches (Machine.plySend d o) := by
  rw [reaches.sends o]
  have only : Only [.out, .sht, .ply] d (plyOut d o (!d.sht.linkp)) := plyOut_only d o _ rfl (.refl _ _)
  refine ⟨by rw [plyOut_ply]; exact reaches.partnered, (plyOut_reach ..).trans reaches.reach, ?_⟩
  rw [invoke_of_keys (a := d) (only.same .dst (by decide)) (only.same .pra (by decide)), plyOut_ply]
  exact reaches.allowed

theorem mem_plySend {o x : Output} (sent : x ∈ d.out ∨ x = o) : x ∈ (Machine.plySend d o).out := by
  rw [reaches.sends o]
  exact mem_plyOut _ sent

end Reaches

section
variable (d : Dev) (o : Output)

theorem plySend_wrp : (plySend d o).wrp = d.wrp :=
  (plySend_only d o (l_ := [.out, .start, .evt, .sht, .ply, .dst]) rfl (.refl _ _)).same .wrp (by decide)

theorem plySend_ccp : (plySend d o).ccp = d.ccp :=
  (plySend_only d o (l_ := [.out, .start, .evt, .sht, .ply, .dst]) rfl (.refl _ _)).same .ccp (by decide)

end

/-! ## Changes of the mirror (R281) -/

/-- The master numbers a change. -/
theorem streamDelta_unsent {d : Dev} (x : Delta) (master : d.ply.master = true) :
    (streamDelta d x).ply.unsent = Ply.unsent { d.ply with mepoch := (d.ply.mepoch + 1) % 2 ^ 32 } := by
  rw [streamDelta, if_pos master]
  exact plySend_unsent ..

theorem applyDelta_groups (d : Dev) (i : Nat) (gs : List Nat) :
    applyDelta d (.groups i gs) = d.modNode i (fun x => { x with groups := gs }) := rfl

/-! ## Snapshots (R283, R361) -/

/-- The items of one part of a snapshot, in their places. -/
def snapPut (nodes : List NodeSnap) (cells : List (Nat × Nat × Word × Word)) (regs : List (Nat × Word))
    (policy : List (Nat × BitVec 128)) (d : Dev) : Dev :=
  let d := if d.ply.snapParts = 0 then clearMirror d else d
  let d := each regs (fun d r => mirrorReg d r.1 r.2) d
  let d := each cells (fun d c =>
    match spindle? c.1 with | some n => setCell d n c.2.1 (some (c.2.2.1, c.2.2.2)) | none => d) d
  let d := each nodes snapNode d
  each policy (fun d p => putPolicy d p.1 (octets 16 p.2.toNat)) d

/-- The meaning of a part of a snapshot that is taken. -/
def snapTaken (ep : BitVec 32) (nodes : List NodeSnap) (cells : List (Nat × Nat × Word × Word)) (regs : List (Nat × Word))
    (policy : List (Nat × BitVec 128)) (polEpoch : BitVec 16) (last : Bool) (d : Dev) : Dev :=
  if d.ply.role = .spare ∧ d.ply.snapping ∧ d.ply.snapped = false ∧ halfAdmitted d then
    d.modPly (fun p => { p with snapping := false })
  else if d.ply.role = .spare ∧ d.ply.snapping ∧ d.ply.snapped = false then
    ((snapPut nodes cells regs policy d).modCcp (fun c => { c with epoch := polEpoch.toNat })).modPly (fun p =>
      { p with mepoch := ep.toNat, snapParts := p.snapParts + 1, snapped := last })
  else each nodes refetched d

section
variable {nodes : List NodeSnap} {cells : List (Nat × Nat × Word × Word)} {regs : List (Nat × Word)}
  {policy : List (Nat × BitVec 128)} {d : Dev}

theorem doSnapReceive_eq (h : LinkHeader) (ep : BitVec 32) (polEpoch : BitVec 16) (last : Bool) :
    doSnapReceive h ep nodes cells regs policy polEpoch last d
      = plinkIn d h (snapTaken ep nodes cells regs policy polEpoch last) := rfl

theorem snapPut_only : Only [.wrp, .ccp] d (snapPut nodes cells regs policy d) := by
  refine .each (.each (.each (.each (.ite ?_ (.refl _ _)) ?_) ?_) ?_) ?_
  · exact clearMirror_only d rfl (.refl _ _)
  · exact fun a r => mirrorReg_only a r.1 r.2 rfl (.refl _ _)
  · intro a c
    split
    · exact setCell_only a _ _ _ rfl (.refl _ _)
    · exact .refl _ _
  · exact fun a x => snapNode_only a x rfl (.refl _ _)
  · exact fun a p => putPolicy_only a p.1 _ rfl (.refl _ _)

end

/-! ## A lost node rejoins (R361) -/

/-- What a node keeps of its entry as it rejoins. -/
def Node.cleared (x : Node) (now : Nat) : Node :=
  { eui := x.eui, handle := x.handle, home := x.home, visitor := x.visitor,
    dormantSince := if x.dormantSince.isSome then x.dormantSince else some now }

theorem Node.cleared_absent (x : Node) (t now : Nat) : (x.cleared t).present now = false := rfl

/-- Whom a node is. -/
def Node.named (x : Node) : BitVec 64 × BitVec 32 := (x.eui, x.handle)

theorem modNode_named (d : Dev) (i : Nat) {f : Node → Node} (keeps : ∀ x, (f x).named = x.named) :
    ((d.modNode i f).node? i).map Node.named = (d.node? i).map Node.named := by
  rw [modNode_node?_same, Option.map_map, show Node.named ∘ f = Node.named from funext keeps]

theorem leaveNode_named {d : Dev} {i : Nat} {x : Node} (node : d.node? i = some x) :
    ((leaveNode d i).node? i).map Node.named = some x.named := by
  cases asleep : x.dormantSince with
  | some t => simp [leaveNode, node, asleep]
  | none =>
    rw [node?_of_wrp (leaveNode_wrp node asleep)]
    split
    · refine (modNode_named d i ?_).trans (congrArg _ node)
      exact fun _ => rfl
    · refine (modNode_named d i ?_).trans (congrArg _ node)
      exact fun _ => rfl

theorem rejoinNode_node {d : Dev} {i : Nat} {x : Node} (node : d.node? i = some x) :
    ∃ y t, y.named = x.named ∧ (rejoinNode d i).node? i = some (Node.cleared y t) := by
  obtain ⟨y, left, named⟩ := Option.map_eq_some_iff.1 (leaveNode_named node)
  refine ⟨y, (leaveNode d i).glb.upNs, named, ?_⟩
  rw [rejoinNode, node?_of_wrp (report_wrp ..), modNode_node?_same, left]
  rfl

theorem doNodeRefetchTimeout_lost {d : Dev} {i t : Nat} {x : Node} (node : d.node? i = some x) (lost : x.lost = some t) :
    doNodeRefetchTimeout i d = if t + 8 * d.whl.periodNs ≤ d.glb.upNs then rejoinNode d i else d := by
  simp only [doNodeRefetchTimeout, node, lost]

/-- Settles O49: the master numbers a change (`streamDelta_unsent`), and answers for the mirror by frames that follow one another
(`Reaches.plySend`); a snapshot is put in its places (`snapPut_only`), and a lost node rejoins with a new entry
(`rejoinNode_node`). -/
theorem mirrorAndSnapshots : Obligations.MirrorAndSnapshots := by
  unfold Obligations.MirrorAndSnapshots
  intro s dt e c
  refine ⟨fun h a up partnered taken => ⟨fun ep i gs => ⟨fun master => gives_plink up rfl partnered taken fun heard => ?_,
        fun other active => ⟨fun after => gives_plink up rfl partnered taken fun _ => ?_,
          fun x old => gives_plink up rfl partnered taken fun _ => ?_⟩⟩,
      fun reach allowed => ⟨fun master => gives_plink up rfl partnered taken fun heard => ?_,
        fun i x node found => gives_plink up rfl partnered taken fun heard => ?_⟩,
      fun other => gives_plink up rfl partnered taken fun _ => ?_,
      fun ep nodes cells regs policy polEpoch last =>
        ⟨fun spare asked part half => gives_plink up rfl partnered taken fun _ => ?_,
        fun spare asked part whole => gives_plink up rfl partnered taken fun heard => ?_,
        fun active => gives_plink up rfl partnered taken fun _ => ?_⟩⟩,
    fun i t x node lost => ⟨fun early => gives_run rfl ?_, fun late => gives_run rfl ?_⟩⟩
  · rw [if_pos master, applyDelta_groups]
    refine ⟨Ply.reads (streamDelta_unsent (d := a.modNode i _) _ master) Ply.mepoch, ?_, (streamDelta_whl ..).trans heard.whl⟩
    rw [node?_of_wrp (streamDelta_wrp ..)]
    exact modNode_node?_same ..
  · rw [if_neg (by simp [other]), if_neg (fun spare => active spare.1), if_pos after]
    rfl
  · rw [if_neg (by simp [other]), if_neg (fun spare => active spare.1), if_neg (by simp [old])]
  · have reaches : Reaches a := ⟨(heard.reads Ply.partnered).trans partnered, reach, congrArg Prod.fst allowed⟩
    dsimp only
    rw [if_neg (by simp [master])]
    exact ⟨(reaches.plySend _).mem_plySend (.inl (reaches.mem_plySend (.inr rfl))), (reaches.plySend _).mem_plySend (.inr rfl),
      (plySend_wrp ..).trans (plySend_wrp ..), (plySend_ccp ..).trans (plySend_ccp ..)⟩
  · have reaches : Reaches a := ⟨(heard.reads Ply.partnered).trans partnered, reach, congrArg Prod.fst allowed⟩
    dsimp only
    rw [node]
    dsimp only
    rw [found, if_neg (by simp)]
    exact ⟨reaches.mem_plySend (.inr rfl), plySend_wrp .., plySend_ccp ..⟩
  · dsimp only
    rw [if_pos other]
  · show snapTaken ep nodes cells regs policy polEpoch last a = _
    rw [snapTaken, if_pos ⟨spare, asked, part, half⟩]
    rfl
  · have put : Only [.wrp, .ccp] a (snapPut nodes cells regs policy a) := snapPut_only
    have taken : snapTaken ep nodes cells regs policy polEpoch last a = _ :=
      (if_neg (by simp [whole])).trans (if_pos ⟨spare, asked, part⟩)
    show (snapTaken ep nodes cells regs policy polEpoch last a).ply.mepoch = _
      ∧ (snapTaken ep nodes cells regs policy polEpoch last a).ply.snapped = _
      ∧ (snapTaken ep nodes cells regs policy polEpoch last a).ccp.epoch = _
      ∧ (snapTaken ep nodes cells regs policy polEpoch last a).whl = _
      ∧ (snapTaken ep nodes cells regs policy polEpoch last a).spn = _
    rw [taken]
    exact ⟨rfl, rfl, rfl, Eq.trans (put.same .whl (by decide)) heard.whl, Eq.trans (put.same .spn (by decide)) heard.spn⟩
  · exact (if_neg fun spare => active spare.1).trans (if_neg fun spare => active spare.1)
  · rw [doNodeRefetchTimeout_lost node lost, if_neg (Nat.not_le.2 early)]
  · obtain ⟨y, since, named, rejoined⟩ := rejoinNode_node node
    obtain ⟨eui, handle⟩ := Prod.mk.inj named
    rw [doNodeRefetchTimeout_lost node lost, if_pos late, Dev.present, rejoined]
    exact ⟨rfl, congrArg some eui, congrArg some handle, Node.cleared_absent ..,
      (rejoinNode_only e i (l_ := [.out, .start, .evt, .wrp, .sht, .ply, .dst]) rfl (.refl _ _)).same .whl (by decide)⟩

end Sys2Proof.Machine
end

section
/-! PROOFS. Loom beacons and the table of plies (O50). What a beacon shows amiss is reported before its entry is kept, and nothing of the
table decides a report but the entries of its own ply and side. -/

namespace Sys2Proof.Machine

/-! ## A beacon sent (R290) -/

/-- A beacon leaves to the group, whenever the next is due. -/
theorem loomSend_beacon {d : Dev} (b : Beacon) (next : Nat)
    (allowed : (invoke d d.ply.loomSkein masterLoom useEncrypt).1 = true) :
    loomSend (d.modPly (fun p => { p with loomNext := next })) .group (.beacon b) = { d with
      out := d.out ++ [.sealed (.udp d.ply.devAddr d.ply.loomGroup 47603 47603) (loomFrame d 1 (beaconOctets b)), .beacon b],
      ply := { d.ply with loomNext := next, loomSeq := d.ply.loomSeq + 1 } } := by
  have later : (invoke (d.modPly (fun p => { p with loomNext := next })) d.ply.loomSkein masterLoom useEncrypt).1 = true :=
    (invoke_of_keys (a := d) (b := d.modPly (fun p => { p with loomNext := next })) rfl rfl ..).trans allowed
  rw [loomSend_sends _ _ (invoke_allowed later)]
  simp only [LoomTo.addrs, each, List.foldl_cons, List.foldl_nil, Dev.emit, Dev.modPly_out, List.append_assoc, List.cons_append,
    List.nil_append]
  rfl

theorem doLoomBeaconSend_due {d : Dev} (up : d.phase = .up) (configured : d.start.configured = true)
    (due : d.ply.loomNext ≤ d.glb.upNs) : doLoomBeaconSend d =
      loomSend (d.modPly (fun p => { p with loomNext := d.glb.upNs + fLoomPeriod.get d.pra * 1000000 })) .group
        (.beacon (beaconBody d)) := by
  rw [doLoomBeaconSend, if_pos ⟨up, configured, due⟩, loomPeriodNs]

theorem doLoomBeaconSend_early {d : Dev} (early : d.glb.upNs < d.ply.loomNext) : doLoomBeaconSend d = d := by
  rw [doLoomBeaconSend, if_neg (by simp [early])]

/-! ## A beacon taken (R291) -/

/-- The device as it reports a conflict of ply numbers, and an E or P other than its own. -/
def beaconNoted (n : Nat) (side : Bool) (b : Beacon) (d : Dev) : Dev :=
  let d := if plyConflict d n side b.eui then report d evPlyConflict [] else d
  if sameTime d b then d else report d evLoomMismatch []

/-- The device as it keeps a beacon in the table: where its sender has an entry, in that one. -/
def beaconKept (n : Nat) (side : Bool) (b : Beacon) (d : Dev) : Dev :=
  let same (e : LoomEntry) : Bool := e.ply == n && e.side == side && e.b.eui == b.eui
  let x : LoomEntry := { ply := n, side := side, b := b, at_ := d.glb.upNs }
  if d.ply.loom.any same then d.modPly (fun p => { p with loom := p.loom.map (fun e => if same e then x else e) })
  else report (d.modPly (fun p => { p with loom := p.loom ++ [x] })) evLoomJoin []

/-- The meaning of a beacon that is taken. -/
def beaconTaken (n : Nat) (side : Bool) (b : Beacon) (d : Dev) : Dev := beaconKept n side b (beaconNoted n side b d)

theorem doLoomBeaconReceive_eq (h : LinkHeader) (ply : BitVec 8) (b : Beacon) (d : Dev) :
    doLoomBeaconReceive h ply b d = loomIn d h ply (beaconTaken ply.toNat (h.side.getLsbD 0) b) := rfl

section
variable {n : Nat} {side : Bool} {b : Beacon} {d : Dev}

theorem beaconNoted_only : Only [.start, .evt] d (beaconNoted n side b d) := by
  have conflict : Only [.start, .evt] d (if plyConflict d n side b.eui then report d evPlyConflict [] else d) :=
    .ite (report_only d _ _ rfl (.refl _ _)) (.refl _ _)
  exact .ite conflict (report_only _ _ _ rfl conflict)

theorem beaconKept_only : Only [.start, .evt, .ply] d (beaconKept n side b d) :=
  .ite (Dev.modPly_only d _ rfl (.refl _ _)) (report_only _ _ _ rfl (Dev.modPly_only d _ rfl (.refl _ _)))

theorem beaconNoted_calm (calm : plyConflict d n side b.eui = false) :
    beaconNoted n side b d = if sameTime d b then d else report d evLoomMismatch [] := by
  rw [beaconNoted, calm]
  rfl

theorem beaconNoted_mismatch (runs : d.phase.fwRuns = true) (calm : plyConflict d n side b.eui = false)
    (other : sameTime d b = false) : (beaconNoted n side b d).evt.sticky evLoomMismatch = true := by
  rw [beaconNoted_calm calm, if_neg (by simp [other])]
  exact report_sticky _ _ _ runs

theorem beaconNoted_conflict (runs : d.phase.fwRuns = true) (conflict : plyConflict d n side b.eui = true) :
    (beaconNoted n side b d).evt.sticky evPlyConflict = true := by
  have reported : (report d evPlyConflict []).evt.sticky evPlyConflict = true := report_sticky _ _ _ runs
  rw [beaconNoted, if_pos conflict]
  split
  · exact reported
  · exact report_keeps_sticky _ _ reported

theorem beaconKept_keeps_sticky {k : Nat} (set : d.evt.sticky k = true) : (beaconKept n side b d).evt.sticky k = true := by
  unfold beaconKept
  dsimp only
  split
  · exact set
  · exact report_keeps_sticky (d := d.modPly _) _ _ set

/-- In an empty table a beacon makes the first entry. -/
theorem beaconKept_first (empty : d.ply.loom = []) : beaconKept n side b d = report (d.modPly (fun p =>
    { p with loom := [{ ply := n, side := side, b := b, at_ := d.glb.upNs }] })) evLoomJoin [] := by
  rw [beaconKept, empty]
  simp [Dev.modPly, empty]

/-- The only entry of the table, where it is the sender's, is refreshed. -/
theorem beaconKept_refresh {old : Beacon} {t : Nat} (known : d.ply.loom = [{ ply := n, side := side, b := old, at_ := t }])
    (same : old.eui = b.eui) : beaconKept n side b d = { d with ply := { d.ply with
      loom := [{ ply := n, side := side, b := b, at_ := d.glb.upNs }] } } := by
  simp [beaconKept, Dev.modPly, known, same]

/-- A ply that is not this one conflicts only with entries of the table. -/
theorem plyConflict_of_other {eui : BitVec 64} (other : n ≠ d.ply.ply) :
    plyConflict d n side eui = d.ply.loom.any (fun e => e.ply == n && e.side == side && e.b.eui != eui) := by
  simp [plyConflict, claimsOurs, other]

theorem beaconTaken_only : Only [.start, .evt, .ply] d (beaconTaken n side b d) :=
  (beaconNoted_only.mono rfl).trans beaconKept_only

/-- A ply that is not this one, in an empty table. -/
theorem beaconTaken_new (runs : d.phase.fwRuns = true) (empty : d.ply.loom = []) (foreign : n ≠ d.ply.ply) :
    let a := beaconTaken n side b d
    a.ply = { d.ply with loom := [{ ply := n, side := side, b := b, at_ := d.glb.upNs }] }
      ∧ a.evt.sticky evLoomJoin = true ∧ (sameTime d b = false → a.evt.sticky evLoomMismatch = true) := by
  have calm : plyConflict d n side b.eui = false := by rw [plyConflict_of_other foreign, empty]; rfl
  have noted : Only [.start, .evt] d (beaconNoted n side b d) := beaconNoted_only
  have ply : (beaconNoted n side b d).ply = d.ply := noted.same .ply (by decide)
  have glb : (beaconNoted n side b d).glb = d.glb := noted.same .glb (by decide)
  have phase : (beaconNoted n side b d).phase = d.phase := noted.same .phase (by decide)
  refine ⟨?_, ?_, fun other => beaconKept_keeps_sticky (beaconNoted_mismatch runs calm other)⟩
  · rw [beaconTaken, beaconKept_first (by rw [ply, empty]), report_ply, Dev.modPly_ply, ply, glb]
  · rw [beaconTaken, beaconKept_first (by rw [ply, empty])]
    exact report_sticky _ _ _ (by rw [Dev.modPly_phase, phase]; exact runs)

/-- A ply that is not this one, under the only entry of the table. -/
theorem beaconTaken_known {old : Beacon} {t : Nat} (known : d.ply.loom = [{ ply := n, side := side, b := old, at_ := t }])
    (foreign : n ≠ d.ply.ply) (same : old.eui = b.eui) (time : sameTime d b = true) : beaconTaken n side b d =
      { d with ply := { d.ply with loom := [{ ply := n, side := side, b := b, at_ := d.glb.upNs }] } } := by
  have calm : plyConflict d n side b.eui = false := by
    rw [plyConflict_of_other foreign, known]
    simp [same]
  rw [beaconTaken, beaconNoted_calm calm, if_pos time]
  exact beaconKept_refresh known same

/-! ## An entry that lapses (R291) -/

theorem doLoomEntryLapse_one {ply : BitVec 8} {t : Nat}
    (table : d.ply.loom = [{ ply := ply.toNat, side := side, b := b, at_ := t }]) : doLoomEntryLapse ply side d =
      if t + fLoomLapse.get d.pra * (fLoomPeriod.get d.pra * 1000000) ≤ d.glb.upNs then
        report (d.modPly (fun p => { p with loom := [] })) evLoomJoin []
      else d := by
  split
  next lapsed => simp [doLoomEntryLapse, loomPeriodNs, Dev.modPly, table, lapsed, each]
  next fresh =>
    have same : { d with ply := { d.ply with loom := [{ ply := ply.toNat, side := side, b := b, at_ := t }] } } = d := by
      rw [← table]
    simpa [doLoomEntryLapse, loomPeriodNs, Dev.modPly, table, fresh, each] using same

end

/-- Settles O50: a due beacon leaves to the group (`doLoomBeaconSend_due`); one that is taken is reported where it conflicts or differs
(`beaconNoted_conflict`, `beaconNoted_mismatch`) and makes or refreshes its entry (`beaconKept_first`, `beaconKept_refresh`). -/
theorem loomTable : Obligations.LoomTable := by
  unfold Obligations.LoomTable
  intro s dt e
  refine ⟨fun up configured => ⟨fun due allowed => gives_run rfl ?_,
      fun early => gives_run rfl (doLoomBeaconSend_early early)⟩,
    fun h ply b a up taken => ?_,
    fun ply side b at_ table runs => ⟨fun lapsed => gives_run rfl ?_, fun fresh => gives_run rfl ?_⟩⟩
  · exact (doLoomBeaconSend_due up configured due).trans (loomSend_beacon _ _ (congrArg Prod.fst allowed))
  · intro side
    refine ⟨fun empty foreign => gives_loom (f := beaconTaken ply.toNat side b) up rfl taken fun heard => ?_,
      fun old at_ known foreign same time => gives_loom (f := beaconTaken ply.toNat side b) up rfl taken fun _ =>
        beaconTaken_known known foreign same time,
      fun conflict => gives_loom (f := beaconTaken ply.toNat side b) up rfl taken fun heard => ?_⟩
    · have only : Only [.start, .evt, .ply] a (beaconTaken ply.toNat side b a) := beaconTaken_only
      obtain ⟨entry, join, mismatch⟩ := beaconTaken_new (side := side) (b := b) (heard.runs up) empty foreign
      exact ⟨entry, join, mismatch, Eq.trans (only.same .whl (by decide)) heard.whl,
        Eq.trans (only.same .wrp (by decide)) heard.wrp⟩
    · have only : Only [.start, .evt, .ply] a (beaconTaken ply.toNat side b a) := beaconTaken_only
      exact ⟨beaconKept_keeps_sticky (beaconNoted_conflict (heard.runs up) conflict),
        Eq.trans (only.same .whl (by decide)) heard.whl⟩
  · rw [doLoomEntryLapse_one table, if_pos lapsed, report_ply]
    exact ⟨rfl, report_sticky _ _ _ runs⟩
  · rw [doLoomEntryLapse_one table, if_neg (Nat.not_le.2 fresh)]

end Sys2Proof.Machine
end

section
/-! PROOFS. Visitors, forwarded hanks and relayed requests (O51). A join into an empty table takes its first index; what is told to the
home ply or to the partner leaves the node table. -/

namespace Sys2Proof.Machine

/-! ## Messages of the loom (R290, R292) -/

theorem loomSend_wrp (d : Dev) (x : LoomTo) (o : Output) : (loomSend d x o).wrp = d.wrp :=
  (loomSend_only d x o (l_ := [.out, .start, .evt, .ply, .dst]) rfl (.refl _ _)).same .wrp (by decide)

theorem tellWhere_ccp (d : Dev) (x : Node) (serving : Nat) : (tellWhere d x serving).ccp = d.ccp :=
  (tellWhere_only d x serving (l_ := [.out, .start, .evt, .ply, .dst]) rfl (.refl _ _)).same .ccp (by decide)

theorem tellWhere_out {d : Dev} {x : Node} (serving : Nat) (visitor : x.visitor = true)
    (allowed : (invoke d d.ply.loomSkein masterLoom useEncrypt).1 = true) :
    Output.whereMsg x.home x.handle serving ∈ (tellWhere d x serving).out := by
  rw [tellWhere, if_pos visitor]
  exact loomSend_out _ _ allowed

/-! ## Joins (R282, R292) -/

/-- The entry of a join at the first index, before its path. -/
def firstJoiner (d : Dev) (eui : BitVec 64) (visiting : Option (BitVec 32)) : Node :=
  let h := visiting.getD (handleOf d.ply.ply 0)
  { eui := eui, handle := h, home := if visiting.isSome then handlePly h else d.ply.ply, visitor := visiting.isSome,
    whereAt := d.glb.upNs + 600000000000 }

section
variable {d : Dev} (empty : d.wrp.nodes = [])
include empty

theorem takeIndex_first : takeIndex d = (some 0, d) := by
  simp [takeIndex, empty, firstFree, nodeIndices]

theorem joinNode_wrp (eui : BitVec 64) (p : DaoPath) (visiting : Option (BitVec 32)) : (joinNode d eui p visiting).wrp =
    (setPath (d.modWrp (fun w => { w with nodes := kput w.nodes 0 (firstJoiner d eui visiting) })) 0 p).wrp := by
  have acks (a : Dev) : (sendDaoAck a 0 p.seq).wrp = a.wrp :=
    (sendDaoAck_only a 0 p.seq (l_ := [.out, .start, .evt, .sht, .ply, .dst]) rfl (.refl _ _)).same .wrp (by decide)
  rw [joinNode, takeIndex_first empty]
  exact (acks _).trans ((tellVisitor_wrp ..).trans (streamDelta_wrp ..))

theorem joinNode_node (eui : BitVec 64) (p : DaoPath) (visiting : Option (BitVec 32)) :
    ∃ y, (joinNode d eui p visiting).node? 0 = some y ∧ y.named = (firstJoiner d eui visiting).named
      ∧ y.home = (firstJoiner d eui visiting).home ∧ y.visitor = visiting.isSome := by
  have entry : (d.modWrp (fun w => { w with nodes := kput w.nodes 0 (firstJoiner d eui visiting) })).node? 0
      = some (firstJoiner d eui visiting) := kfind_kput_same ..
  rw [node?_of_wrp (joinNode_wrp empty ..), setPath, modNode_node?_same, entry]
  exact ⟨_, rfl, rfl, rfl, rfl⟩

end

theorem dropVisit_one {d : Dev} {v : Visit} {eui : BitVec 64} (waits : d.wrp.visits = [v]) (named : v.eui = eui) :
    (dropVisit d eui).wrp.visits = [] := by
  simp [dropVisit, waits, named]

section
variable {d : Dev} {v : Visit} {eui : BitVec 64} (waits : d.wrp.visits = [v]) (named : v.eui = eui)
include waits named

theorem visit_found : d.wrp.visits.find? (fun v => v.eui == eui) = some v := by
  simp [waits, named]

/-- Every join that waits has been taken off the list as its node joins. -/
theorem joinNode_waits (empty : d.wrp.nodes = []) (p : DaoPath) (visiting : Option (BitVec 32)) :
    (joinNode (dropVisit d eui) eui p visiting).wrp.visits = [] := by
  rw [joinNode_wrp (d := dropVisit d eui) empty]
  exact dropVisit_one waits named

theorem doVisitTimeout_over (master : d.ply.master = true) (over_ : v.since + 2000000000 ≤ d.glb.upNs) :
    doVisitTimeout eui d = joinNode (dropVisit d eui) eui v.path none := by
  simp [doVisitTimeout, waits, named, master, visitWait, over_]

theorem doVisitTimeout_early (early : d.glb.upNs < v.since + 2000000000) : doVisitTimeout eui d = d := by
  simp [doVisitTimeout, waits, named, visitWait, Nat.not_le.2 early]

end

/-! ## Forwarded hanks and relayed requests (R293) -/

/-- A hank whose body can be read waits for admission on the side it names. -/
theorem arrive_queues {d : Dev} {p : CcpPacket} {cmds : List CmdMsg} (via : Option Nat) (side : p.dside.toNat = b2n d.ply.side)
    (parsed : parseBody 256 p.body = some cmds) : arrive d p via = queueHank d p cmds via := by
  simp only [arrive, side, parsed, ne_eq, not_true_eq_false, if_false]

/-- The ply without the records it holds and the number of its next frame. -/
def Ply.unlisted (p : Ply) : Ply := { p with seqOut := 0, recs := [], waiting := [] }

theorem assignRec_unlisted (d : Dev) (r : DownRec) : (assignRec d r).ply.unlisted = d.ply.unlisted :=
  Ply.reads (plySend_unsent (d.modPly _) _) Ply.unlisted

theorem submitRec_unlisted (d : Dev) (r : DownRec) : (submitRec d r).ply.unlisted = d.ply.unlisted := by
  unfold submitRec masterTake
  dsimp only
  repeat' split
  · rfl
  · exact assignRec_unlisted ..
  · rfl
  · exact assignRec_unlisted ..
  · exact Ply.reads (plySend_unsent (d.modPly _) _) Ply.unlisted

/-! ## Leases (R292) -/

/-- The ply without what a change of the mirror numbers. -/
def Ply.unnumbered (p : Ply) : Ply := { p with seqOut := 0, mepoch := 0 }

theorem streamDelta_unnumbered (d : Dev) (x : Delta) : (streamDelta d x).ply.unnumbered = d.ply.unnumbered := by
  unfold streamDelta
  split
  · exact Ply.reads (plySend_unsent (d.modPly _) _) Ply.unnumbered
  · exact Ply.reads (plySend_unsent d _) Ply.unnumbered

/-- A node to which no record is listed goes with none. -/
theorem removeNode_role {d : Dev} {i : Nat} (unnamed : d.ply.recs.all (fun r => r.dest != some i) = true) :
    (removeNode d i).ply.role = d.ply.role := by
  have unlisted : d.ply.recs.filter (fun r => r.dest == some i) = [] :=
    List.filter_eq_nil_iff.2 fun r listed => by simpa using List.all_eq_true.1 unnamed r listed
  rw [removeNode, unlisted]
  rfl

theorem doHomeLeaseExpire_away {d : Dev} {i k t : Nat} {x : Node} (node : d.node? i = some x) (away : x.away = some (k, t))
    (master : d.ply.master = true) : doHomeLeaseExpire i d =
      if t + fHomeLease.get d.pra * 86400000000000 ≤ d.glb.upNs then report (releaseNode d i) evVisitor [] else d := by
  simp only [doHomeLeaseExpire, node, away, master, true_and]

/-- The home notes the serving ply of its node, which is absent from here. -/
theorem away_absent (d : Dev) {i k : Nat} {x : Node} (node : d.node? i = some x) :
    let a := d.modNode i (fun x => { x with away := some (k, d.glb.upNs), path := none, dormantSince := none })
    (a.node? i).map (·.away) = some (some (k, d.glb.upNs)) ∧ a.present i = false := by
  have noted := modNode_node?_same d i (fun x => { x with away := some (k, d.glb.upNs), path := none, dormantSince := none })
  rw [node] at noted
  dsimp only
  rw [Dev.present, noted]
  exact ⟨rfl, by simp [Node.present]⟩

theorem present_of_parts {a b : Dev} (wrp : b.wrp = a.wrp) (glb : b.glb = a.glb) (i : Nat) : b.present i = a.present i := by
  rw [Dev.present, Dev.present, node?_of_wrp wrp, glb]

/-- What a report changes is not the nodes, nor the time that they are seen at. -/
theorem away_reported (d : Dev) {i k : Nat} {x : Node} (node : d.node? i = some x) (moved : Bool) :
    let noted := d.modNode i (fun x => { x with away := some (k, d.glb.upNs), path := none, dormantSince := none })
    let a := if moved then report noted evVisitor [] else noted
    (a.node? i).map (·.away) = some (some (k, d.glb.upNs)) ∧ a.present i = false ∧ a.ply = d.ply := by
  obtain ⟨away, absent⟩ := away_absent d (k := k) node
  cases moved with
  | false => exact ⟨away, absent, rfl⟩
  | true =>
    exact ⟨(congrArg _ (node?_of_wrp (report_wrp ..) i)).trans away,
      (present_of_parts (report_wrp ..) (report_glb ..) i).trans absent, report_ply ..⟩

/-- Settles O51: a visitor joins, or a node finds its home, by a join into the table (`joinNode_node`); what the home, the serving ply
and a relayed request note is kept by what is then sent (`tellWhere_wrp`, `submitRec_unlisted`). -/
theorem visitorsAndRelays : Obligations.VisitorsAndRelays := by
  unfold Obligations.VisitorsAndRelays
  intro s dt e
  refine ⟨fun h ply a up taken =>
      ⟨fun eui i x found master native foreign allowed => gives_loom up rfl taken fun _ => ?_,
        fun eui unknown => gives_loom up rfl taken fun _ => ?_,
        fun eui handle v master ok waits named soon empty => gives_loom up rfl taken fun _ => ?_,
        fun handle i x found native node serving served => gives_loom up rfl taken fun _ => ?_,
        fun p hank here room known side cmds parsed => gives_loom up rfl taken fun _ => ?_,
        fun handle dport tag noReply data unknown allowed => gives_loom up rfl taken fun _ => ?_,
        fun handle dport tag noReply data i x found => gives_loom up rfl taken fun _ => ?_,
        fun handle tag status data => ⟨fun th t st one thread running known => gives_loom up rfl taken fun _ => ?_,
          fun unknown => gives_loom up rfl taken fun _ => ?_⟩⟩,
    fun eui v waits named master empty => ⟨fun over_ => gives_run rfl ?_, fun early => gives_run rfl ?_⟩,
    fun i x node => ⟨fun master visitor present due allowed => gives_run rfl ?_,
      fun k t away master => ⟨fun over_ unnamed => gives_run rfl ?_, fun early => gives_run rfl ?_⟩⟩⟩
  · rw [found]
    dsimp only
    rw [if_pos ⟨master, native, foreign⟩]
    exact ⟨loomSend_out _ _ (congrArg Prod.fst allowed), loomSend_wrp ..⟩
  · rw [unknown]
  · rw [if_neg (by simp [master, ok]), visit_found waits named]
    dsimp only
    rw [if_pos (show a.glb.upNs ≤ v.since + visitWait from soon)]
    obtain ⟨y, joined, same, -, visitor⟩ := joinNode_node (d := dropVisit a eui) empty eui v.path (some handle)
    obtain ⟨eui_, handle_⟩ := Prod.mk.inj same
    rw [joined]
    exact ⟨joinNode_waits waits named empty .., by simp [eui_, handle_, visitor, firstJoiner]⟩
  · rw [found]
    dsimp only
    rw [if_neg (by simp [native]), if_neg served]
    exact away_reported a node _
  · rw [if_neg (by simp [hank, here]), if_neg (Nat.not_le.2 room), if_neg (by simp [Option.isSome_iff_ne_none.1 known])]
    exact arrive_queues _ side parsed
  · rw [unknown]
    exact ⟨loomSend_out _ _ (congrArg Prod.fst allowed), loomSend_wrp ..⟩
  · rw [found]
    dsimp only
    refine ⟨?_, (submitRec_keeps ..).same .wrp (by decide), (submitRec_keeps ..).same .ccp (by decide)⟩
    rw [Ply.reads (submitRec_unlisted ..) Ply.relays]
    exact List.mem_append_right _ (List.mem_singleton_self _)
  · rw [known]
    dsimp only
    rw [one]
    exact finish_ended _ _ thread (by simp [running])
  · rw [unknown]
    rfl
  · rw [doVisitTimeout_over waits named master over_]
    obtain ⟨y, joined, same, home, visitor⟩ := joinNode_node (d := dropVisit e eui) empty eui v.path none
    obtain ⟨eui_, -⟩ := Prod.mk.inj same
    rw [joined]
    exact ⟨joinNode_waits waits named empty .., by simp [eui_, home, visitor, firstJoiner, dropVisit]⟩
  · exact doVisitTimeout_early waits named early
  · rw [doWhereRefresh, node]
    dsimp only
    rw [if_pos ⟨master, visitor, present, due⟩]
    refine ⟨tellWhere_out _ visitor (congrArg Prod.fst allowed), ?_, tellWhere_ccp ..⟩
    rw [modNode_node?_same, node?_of_wrp (tellWhere_wrp ..), node]
    rfl
  · rw [doHomeLeaseExpire_away node away master, if_pos over_, node?_of_wrp (report_wrp ..), releaseNode_node, report_ply]
    exact ⟨rfl, (Ply.reads (streamDelta_unnumbered ..) Ply.role).trans (removeNode_role unnamed)⟩
  · rw [doHomeLeaseExpire_away node away master, if_neg (Nat.not_le.2 early)]

end Sys2Proof.Machine
end

section
/-! PROOFS. Steps (O1, O2): the command at the front of the queue runs, and it always answers. -/

namespace Sys2Proof.Machine

theorem step_cons (c : Instr) (d : Dev) (rest : List Instr) :
    step { dev := d, pending := c :: rest } = exec c { dev := d, pending := rest } := rfl

theorem step_nil (d : Dev) : step { dev := d, pending := [] } = .next { dev := d, pending := [] } := rfl

/-- Every row is a meaning run on the device (`run`), so that it answers and leaves the queue. -/
theorem exec_answers (c : Instr) (s : State) : ∃ t, exec c s = .next t ∧ t.pending = s.pending := by
  cases c <;> exact ⟨_, rfl, rfl⟩

/-- Settles O1. -/
theorem stepRunsTheFrontCommand : Obligations.StepRunsTheFrontCommand := step_cons

/-- Settles O2: a queue that is not empty runs its front command, which answers (`exec_answers`). -/
theorem stepsAlwaysAnswer : Obligations.StepsAlwaysAnswer := by
  unfold Obligations.StepsAlwaysAnswer
  refine ⟨fun ⟨d, pending⟩ => ?_, step_nil⟩
  cases pending with
  | nil => exact ⟨_, step_nil d, rfl⟩
  | cons c rest =>
    rw [step_cons]
    exact exec_answers c _

end Sys2Proof.Machine
end

section
/-! PROOFS. What a command leaves as it was (O57 to O60): a command changes what its meaning may change, once its time has
passed. -/

namespace Sys2Proof.Machine

/-! ## From a meaning to its command -/

variable {c : Instr} {s : State} {dt : Nat} {l : List Part} {f : Dev → Dev}

theorem frame_run (row : exec c s = run dt f s) (only : Only l (s.dev.elapse dt) (f (s.dev.elapse dt))) : Frame c dt l s := by
  intro t h
  rw [row] at h
  cases h
  exact only

/-- A meaning on a packet of the CPU port (R242) leaves the shuttle one packet shorter. -/
theorem frame_runCpu (row : exec c s = runCpu dt f s) (sht : Part.sub [.sht] l = true) (only : ∀ d, Only l d (f d)) :
    Frame c dt l s :=
  frame_run row (.trans (takeCpu_only _ sht (.refl _ _)) (only _))

/-- A ply-link frame comes by PLK, or as a packet of the CPU port (R268). -/
theorem frame_runLink (row : exec c s = runLink dt f s) (sht : Part.sub [.sht] l = true) (only : ∀ d, Only l d (f d)) :
    Frame c dt l s :=
  frame_run row (.trans (.ite (.refl _ _) (takeCpu_only _ sht (.refl _ _))) (only _))

/-- A heartbeat comes by PLK, or as a packet of the CPU port (R268, R272). -/
theorem heartbeatReceive_frame (path : Path) (h : LinkHeader) (b : Heartbeat) :
    Frame (.heartbeatReceive dt path h b) dt [.out, .start, .evt, .whl, .wrp, .sht, .ply, .dst] s := by
  cases path with
  | plk => exact frame_run rfl (doHeartbeatReceive_only (s_ := rfl) (k_ := .refl _ _) ..)
  | b => exact frame_runCpu rfl rfl fun _ => doHeartbeatReceive_only (s_ := rfl) (k_ := .refl _ _) ..

/-- A strobe that resets nothing is the strobe's own work (R79, R360). -/
theorem doTickStrobe_only (tcxo : Int) (beacon : Bool) {d : Dev} (noFault : d.glb.faultReset = false) :
    Only [.free, .out, .start, .evt, .whl, .spn, .wrp, .ccp, .sht, .que, .crd, .ply, .dst, .img, .bob] d
      (doTickStrobe tcxo beacon d) := by
  unfold doTickStrobe
  rw [noFault]
  exact .ite (.refl _ _) (strobe_only tcxo beacon d rfl (.refl _ _))

/-! ## The commands -/

/-- Settles O57: each command changes what its meaning may change. -/
theorem framesOfTheDevice : Obligations.FramesOfTheDevice := by
  unfold Obligations.FramesOfTheDevice
  intro s dt
  refine ⟨fun _ _ => frame_run rfl (doRegisterWrite_only (s_ := rfl) (k_ := .refl _ _) ..),
    frame_run rfl (doLogicRailRise_only (s_ := rfl) (k_ := .refl _ _) ..),
    frame_run rfl (doRailInTolerance_only (s_ := rfl) (k_ := .refl _ _) ..),
    fun _ _ _ _ => frame_run rfl (doControlDieResetRelease_only (s_ := rfl) (k_ := .refl _ _) ..),
    fun _ => frame_run rfl (doSfdpDiscovery_only (s_ := rfl) (k_ := .refl _ _) ..),
    fun _ => frame_run rfl (doLoaderCheck_only (s_ := rfl) (k_ := .refl _ _) ..),
    fun _ => frame_run rfl (doDramZeroFill_only (s_ := rfl) (k_ := .refl _ _) ..),
    fun _ _ _ => frame_run rfl (doBankLoad_only (s_ := rfl) (k_ := .refl _ _) ..),
    fun _ _ => frame_run rfl (doFirmwareStart_only (s_ := rfl) (k_ := .refl _ _) ..),
    fun _ _ => frame_run rfl (doConfigImageCheck_only (s_ := rfl) (k_ := .refl _ _) ..),
    fun _ _ => frame_run rfl (doStartHold_only (s_ := rfl) (k_ := .refl _ _) ..),
    frame_run rfl (doPraWriteBegin_only (s_ := rfl) (k_ := .refl _ _) ..),
    fun _ => frame_run rfl (doPraWriteComplete_only (s_ := rfl) (k_ := .refl _ _) ..),
    frame_run rfl (doPraTokenRefill_only (s_ := rfl) (k_ := .refl _ _) ..),
    fun _ => frame_run rfl (doPraLifeUpdate_only (s_ := rfl) (k_ := .refl _ _) ..),
    fun _ => frame_run rfl (doLearnedOffsetWrite_only (s_ := rfl) (k_ := .refl _ _) ..),
    fun _ _ => frame_run rfl (doTunerCodesWrite_only (s_ := rfl) (k_ := .refl _ _) ..),
    fun _ _ _ _ _ => frame_run rfl (doClockMonitorWindow_only (s_ := rfl) (k_ := .refl _ _) ..),
    fun _ => frame_run rfl (doPllLossOfLock_only (s_ := rfl) (k_ := .refl _ _) ..),
    fun _ _ _ => frame_run rfl (doBobbinWordWrite_only (s_ := rfl) (k_ := .refl _ _) ..),
    fun _ _ _ => frame_run rfl (doBobbinWordRead_only (s_ := rfl) (k_ := .refl _ _) ..),
    fun _ _ => frame_run rfl (doBobbinFlushWrite_only (s_ := rfl) (k_ := .refl _ _) ..),
    fun _ => frame_run rfl (doBobbinFlushComplete_only (s_ := rfl) (k_ := .refl _ _) ..),
    fun _ _ => frame_run rfl (doBobErrClear_only (s_ := rfl) (k_ := .refl _ _) ..),
    fun _ _ => frame_run rfl (doBobHwmClr_only (s_ := rfl) (k_ := .refl _ _) ..),
    fun _ _ => frame_run rfl (doTemperatureSample_only (s_ := rfl) (k_ := .refl _ _) ..),
    fun _ _ _ => frame_run rfl (doSupplyMeasure_only (s_ := rfl) (k_ := .refl _ _) ..),
    frame_run rfl (doKeyRemask_only (s_ := rfl) (k_ := .refl _ _) ..),
    fun _ => frame_run rfl (doRngHealthWindow_only (s_ := rfl) (k_ := .refl _ _) ..),
    fun _ => frame_run rfl (doHello_only (s_ := rfl) (k_ := .refl _ _) ..),
    fun _ _ => frame_run rfl (doSetBaud_only (s_ := rfl) (k_ := .refl _ _) ..),
    frame_run rfl (doSetBaudRevert_only (s_ := rfl) (k_ := .refl _ _) ..),
    fun _ _ _ => frame_run rfl (doSvcRegRead_only (s_ := rfl) (k_ := .refl _ _) ..),
    fun _ _ _ => frame_run rfl (doSvcRegWrite_only (s_ := rfl) (k_ := .refl _ _) ..),
    fun _ _ => frame_run rfl (doQuote_only (s_ := rfl) (k_ := .refl _ _) ..),
    frame_run rfl (doServiceFrameGap_only (s_ := rfl) (k_ := .refl _ _) ..),
    fun _ _ => frame_run rfl (doImgBegin_only (s_ := rfl) (k_ := .refl _ _) ..),
    fun _ _ _ _ _ _ _ => frame_run rfl (doImgData_only (s_ := rfl) (k_ := .refl _ _) ..),
    fun _ _ _ _ => frame_run rfl (doImgEnd_only (s_ := rfl) (k_ := .refl _ _) ..),
    fun _ _ => frame_run rfl (doRecoveryCardRead_only (s_ := rfl) (k_ := .refl _ _) ..),
    fun _ _ => frame_run rfl (doEvtStickyClear_only (s_ := rfl) (k_ := .refl _ _) ..),
    frame_run rfl (doNoticeSend_only (s_ := rfl) (k_ := .refl _ _) ..),
    fun _ _ _ _ _ => frame_run rfl (doPickerScan_only (s_ := rfl) (k_ := .refl _ _) ..),
    fun _ => frame_run rfl (doThrHwmClr_only (s_ := rfl) (k_ := .refl _ _) ..),
    fun _ => frame_run rfl (doHoldupCheckStart_only (s_ := rfl) (k_ := .refl _ _) ..),
    fun _ _ => frame_run rfl (doHoldupCheckEnd_only (s_ := rfl) (k_ := .refl _ _) ..),
    fun _ _ => frame_run rfl (doRef10mQualify_only (s_ := rfl) (k_ := .refl _ _) ..),
    fun _ => frame_run rfl (doPllRelock_only (s_ := rfl) (k_ := .refl _ _) ..),
    frame_run rfl (doTreadleStatusResume_only (s_ := rfl) (k_ := .refl _ _) ..),
    fun _ => frame_run rfl (doReceiveWindowStart_only (s_ := rfl) (k_ := .refl _ _) ..)⟩

/-- Settles O58: each command changes what its meaning may change; the tick, once no uncorrectable error resets the device there. -/
theorem framesOfClockAndRadio : Obligations.FramesOfClockAndRadio := by
  unfold Obligations.FramesOfClockAndRadio
  intro s dt
  refine ⟨fun _ _ noFault => frame_run rfl (doTickStrobe_only _ _ (by simpa using noFault)),
    frame_run rfl (doDrainComplete_only (s_ := rfl) (k_ := .refl _ _) ..),
    frame_run rfl (doScheduleComputation_only (s_ := rfl) (k_ := .refl _ _) ..),
    fun _ => frame_run rfl (doPhaseDeadlineMiss_only (s_ := rfl) (k_ := .refl _ _) ..),
    fun _ _ => frame_run rfl (doTransmitLatch_only (s_ := rfl) (k_ := .refl _ _) ..),
    fun _ => frame_run rfl (doWhlLatch_only (s_ := rfl) (k_ := .refl _ _) ..),
    fun _ => frame_run rfl (doWhlCtrlWrite_only (s_ := rfl) (k_ := .refl _ _) ..),
    frame_run rfl (doWhlTodArm_only (s_ := rfl) (k_ := .refl _ _) ..),
    fun _ => frame_run rfl (doWhlTickPeriodWrite_only (s_ := rfl) (k_ := .refl _ _) ..),
    fun _ _ => frame_run rfl (doWhlEpochWrite_only (s_ := rfl) (k_ := .refl _ _) ..),
    fun _ => frame_run rfl (doWhlOvrClr_only (s_ := rfl) (k_ := .refl _ _) ..),
    fun _ _ => frame_runCpu rfl rfl fun _ => doPtpSync_only (s_ := rfl) (k_ := .refl _ _) ..,
    fun _ _ => frame_runCpu rfl rfl fun _ => doPtpAnnounce_only (s_ := rfl) (k_ := .refl _ _) ..,
    fun _ => frame_run rfl (doPtpDelayReqSend_only (s_ := rfl) (k_ := .refl _ _) ..),
    fun _ _ => frame_runCpu rfl rfl fun _ => doPtpDelayResp_only (s_ := rfl) (k_ := .refl _ _) ..,
    fun _ => frame_run rfl (doPtpAnnounceTimeout_only (s_ := rfl) (k_ := .refl _ _) ..),
    fun _ _ => frame_run rfl (doPpsInEdge_only (s_ := rfl) (k_ := .refl _ _) ..),
    frame_run rfl (doPpsTimeout_only (s_ := rfl) (k_ := .refl _ _) ..),
    frame_run rfl (doRef10mLoss_only (s_ := rfl) (k_ := .refl _ _) ..),
    frame_run rfl (doPtpPreferenceTimer_only (s_ := rfl) (k_ := .refl _ _) ..),
    frame_run rfl (doPpsOutSecond_only (s_ := rfl) (k_ := .refl _ _) ..),
    frame_run rfl (doLaunchRelease_only (s_ := rfl) (k_ := .refl _ _) ..),
    fun _ _ => frame_run rfl (doSpnTargetWrite_only (s_ := rfl) (k_ := .refl _ _) ..),
    fun _ _ => frame_run rfl (doSpindleStateReached_only (s_ := rfl) (k_ := .refl _ _) ..),
    fun _ _ => frame_run rfl (doSpnWindowWrite_only (s_ := rfl) (k_ := .refl _ _) ..),
    fun _ _ _ => frame_run rfl (doSpnBindWrite_only (s_ := rfl) (k_ := .refl _ _) ..),
    fun _ => frame_run rfl (doCalStart_only (s_ := rfl) (k_ := .refl _ _) ..),
    fun _ => frame_run rfl (doInhClr_only (s_ := rfl) (k_ := .refl _ _) ..),
    fun _ _ => frame_run rfl (doSpnTuneWrite_only (s_ := rfl) (k_ := .refl _ _) ..),
    fun _ _ => frame_run rfl (doSpnTrimWrite_only (s_ := rfl) (k_ := .refl _ _) ..),
    fun _ _ => frame_run rfl (doCalPairEnd_only (s_ := rfl) (k_ := .refl _ _) ..),
    fun _ => frame_run rfl (doCalBlankEnd_only (s_ := rfl) (k_ := .refl _ _) ..),
    fun _ _ => frame_run rfl (doTxsynCalPair_only (s_ := rfl) (k_ := .refl _ _) ..),
    fun _ => frame_run rfl (doCxRequest_only (s_ := rfl) (k_ := .refl _ _) ..),
    fun _ _ => frame_run rfl (doCxGrantSample_only (s_ := rfl) (k_ := .refl _ _) ..),
    fun _ => frame_run rfl (doCxGrantFall_only (s_ := rfl) (k_ := .refl _ _) ..),
    fun _ _ => frame_run rfl (doTxSequenceStep_only (s_ := rfl) (k_ := .refl _ _) ..),
    fun _ => frame_run rfl (doTxStart_only (s_ := rfl) (k_ := .refl _ _) ..),
    fun _ _ => frame_run rfl (doTxEnd_only (s_ := rfl) (k_ := .refl _ _) ..),
    fun _ _ => frame_run rfl (doTxReleaseStep_only (s_ := rfl) (k_ := .refl _ _) ..),
    fun _ _ => frame_run rfl (doReflectionCheck_only (s_ := rfl) (k_ := .refl _ _) ..),
    fun _ => frame_run rfl (doInhibitRetry_only (s_ := rfl) (k_ := .refl _ _) ..),
    fun _ _ => frame_run rfl (doMaskBlockCheck_only (s_ := rfl) (k_ := .refl _ _) ..),
    fun _ => frame_run rfl (doReceiveIdle_only (s_ := rfl) (k_ := .refl _ _) ..),
    fun _ => frame_run rfl (doSpindleHold_only (s_ := rfl) (k_ := .refl _ _) ..),
    fun _ => frame_run rfl (doHoldEnd_only (s_ := rfl) (k_ := .refl _ _) ..),
    fun _ _ _ _ _ _ _ => frame_run rfl (doPreambleDetect_only (s_ := rfl) (k_ := .refl _ _) ..),
    fun _ _ _ => frame_run rfl (doHeaderDecode_only (s_ := rfl) (k_ := .refl _ _) ..),
    fun _ _ _ _ _ => frame_run rfl (doFrameEnd_only (s_ := rfl) (k_ := .refl _ _) ..),
    fun _ _ => frame_run rfl (doFrameTooLong_only (s_ := rfl) (k_ := .refl _ _) ..),
    fun _ => frame_run rfl (doRxFrameProcess_only (s_ := rfl) (k_ := .refl _ _) ..),
    fun _ => frame_run rfl (doNodeOffsetLapse_only (s_ := rfl) (k_ := .refl _ _) ..),
    fun _ => frame_run rfl (doCorrectionFrameExpire_only (s_ := rfl) (k_ := .refl _ _) ..),
    fun _ => frame_run rfl (doCellRead_only (s_ := rfl) (k_ := .refl _ _) ..),
    fun _ => frame_run rfl (doCellWrite_only (s_ := rfl) (k_ := .refl _ _) ..),
    fun _ => frame_run rfl (doCellDelete_only (s_ := rfl) (k_ := .refl _ _) ..),
    fun _ _ _ => frame_run rfl (doSfArm_only (s_ := rfl) (k_ := .refl _ _) ..),
    fun _ _ _ => frame_run rfl (doSfDisarm_only (s_ := rfl) (k_ := .refl _ _) ..),
    fun _ _ => frame_run rfl (doSfSwitch_only (s_ := rfl) (k_ := .refl _ _) ..),
    fun _ _ _ => frame_run rfl (doWrpHopWrite_only (s_ := rfl) (k_ := .refl _ _) ..),
    fun _ _ => frame_run rfl (doWrpTimingWrite_only (s_ := rfl) (k_ := .refl _ _) ..),
    frame_run rfl (doDioTrickleTimer_only (s_ := rfl) (k_ := .refl _ _) ..),
    fun _ => frame_runCpu rfl rfl fun _ => doDisReceive_only (s_ := rfl) (k_ := .refl _ _) ..,
    fun _ _ _ _ _ _ => frame_runCpu rfl rfl fun _ => doDaoReceive_only (s_ := rfl) (k_ := .refl _ _) ..,
    fun _ => frame_run rfl (doDaoPathLapse_only (s_ := rfl) (k_ := .refl _ _) ..),
    fun _ => frame_run rfl (doDormantExpire_only (s_ := rfl) (k_ := .refl _ _) ..),
    fun _ _ _ => frame_runCpu rfl rfl fun _ => doThrowConfirmReceive_only (s_ := rfl) (k_ := .refl _ _) ..⟩

/-- Settles O59: each command changes what its meaning may change. -/
theorem framesOfTheCcp : Obligations.FramesOfTheCcp := by
  unfold Obligations.FramesOfTheCcp
  intro s dt
  refine ⟨fun _ _ _ => frame_runCpu rfl rfl fun _ => doHankReceive_only (s_ := rfl) (k_ := .refl _ _) ..,
    fun _ _ => frame_run rfl (doReassemblyTimeout_only (s_ := rfl) (k_ := .refl _ _) ..),
    frame_run rfl (doHankAdmit_only (s_ := rfl) (k_ := .refl _ _) ..),
    fun _ => frame_run rfl (doThreadTimeout_only (s_ := rfl) (k_ := .refl _ _) ..),
    fun _ => frame_run rfl (doThreadRetainExpire_only (s_ := rfl) (k_ := .refl _ _) ..),
    frame_run rfl (doCompletionSend_only (s_ := rfl) (k_ := .refl _ _) ..),
    fun _ => frame_run rfl (doRegRead_only (s_ := rfl) (k_ := .refl _ _) ..),
    fun _ => frame_run rfl (doRegWrite_only (s_ := rfl) (k_ := .refl _ _) ..),
    fun _ => frame_run rfl (doPraInfo_only (s_ := rfl) (k_ := .refl _ _) ..),
    fun _ => frame_run rfl (doHealthSummary_only (s_ := rfl) (k_ := .refl _ _) ..),
    fun _ => frame_run rfl (doHealthLog_only (s_ := rfl) (k_ := .refl _ _) ..),
    fun _ => frame_run rfl (doThreadQuery_only (s_ := rfl) (k_ := .refl _ _) ..),
    fun _ => frame_run rfl (doCompleteAck_only (s_ := rfl) (k_ := .refl _ _) ..),
    fun _ => frame_run rfl (doPowerState_only (s_ := rfl) (k_ := .refl _ _) ..),
    fun _ => frame_run rfl (doReturnTest_only (s_ := rfl) (k_ := .refl _ _) ..),
    fun _ => frame_run rfl (doTest_only (s_ := rfl) (k_ := .refl _ _) ..),
    fun _ _ => frame_run rfl (doSpindleTestComplete_only (s_ := rfl) (k_ := .refl _ _) ..),
    fun _ => frame_run rfl (doBypass_only (s_ := rfl) (k_ := .refl _ _) ..),
    fun _ => frame_run rfl (doUnbypass_only (s_ := rfl) (k_ := .refl _ _) ..),
    fun _ => frame_run rfl (doNodeReq_only (s_ := rfl) (k_ := .refl _ _) ..),
    fun _ _ _ => frame_runCpu rfl rfl fun _ => doNodeReplyReceive_only (s_ := rfl) (k_ := .refl _ _) ..,
    fun _ => frame_run rfl (doThrowGroupSet_only (s_ := rfl) (k_ := .refl _ _) ..),
    frame_run rfl (doThrowCmd_only (s_ := rfl) (k_ := .refl _ _) ..),
    fun _ => frame_run rfl (doObjOpen_only (s_ := rfl) (k_ := .refl _ _) ..),
    fun _ => frame_run rfl (doObjWrite_only (s_ := rfl) (k_ := .refl _ _) ..),
    fun _ => frame_run rfl (doObjClose_only (s_ := rfl) (k_ := .refl _ _) ..),
    fun _ => frame_run rfl (doObjDelete_only (s_ := rfl) (k_ := .refl _ _) ..),
    fun _ _ _ => frame_run rfl (doObjSend_only (s_ := rfl) (k_ := .refl _ _) ..),
    fun _ => frame_run rfl (doPolicyWrite_only (s_ := rfl) (k_ := .refl _ _) ..),
    fun _ => frame_run rfl (doPolicyRead_only (s_ := rfl) (k_ := .refl _ _) ..),
    fun _ _ _ _ _ => frame_run rfl (doKeyLoad_only (s_ := rfl) (k_ := .refl _ _) ..),
    fun _ => frame_run rfl (doKeyAttr_only (s_ := rfl) (k_ := .refl _ _) ..),
    fun _ _ => frame_run rfl (doKeyErase_only (s_ := rfl) (k_ := .refl _ _) ..),
    fun _ => frame_run rfl (doKeyInfo_only (s_ := rfl) (k_ := .refl _ _) ..),
    fun _ _ _ _ => frame_run rfl (doLifecycleSet_only (s_ := rfl) (k_ := .refl _ _) ..),
    fun _ _ _ => frame_run rfl (doReelStage_only (s_ := rfl) (k_ := .refl _ _) ..),
    fun _ _ _ _ _ _ => frame_run rfl (doReelStageBlock_only (s_ := rfl) (k_ := .refl _ _) ..),
    frame_run rfl (doReelActivate_only (s_ := rfl) (k_ := .refl _ _) ..),
    fun _ => frame_run rfl (doReelActivateExecute_only (s_ := rfl) (k_ := .refl _ _) ..),
    fun _ _ => frame_run rfl (doOwnerLock_only (s_ := rfl) (k_ := .refl _ _) ..),
    fun _ _ => frame_runCpu rfl rfl fun _ => doQuoteReq_only (s_ := rfl) (k_ := .refl _ _) ..⟩

/-- Settles O60: each command changes what its meaning may change. -/
theorem framesOfShuttleAndPly : Obligations.FramesOfShuttleAndPly := by
  unfold Obligations.FramesOfShuttleAndPly
  intro s dt
  refine ⟨fun _ _ => frame_run rfl (doPacketIngress_only (s_ := rfl) (k_ := .refl _ _) ..),
    fun _ _ => frame_run rfl (doPacketIngressEnd_only (s_ := rfl) (k_ := .refl _ _) ..),
    fun _ => frame_run rfl (doEgressSelect_only (s_ := rfl) (k_ := .refl _ _) ..),
    fun _ _ => frame_run rfl (doPortLink_only (s_ := rfl) (k_ := .refl _ _) ..),
    fun _ => frame_run rfl (doTableRead_only (s_ := rfl) (k_ := .refl _ _) ..),
    fun _ => frame_run rfl (doTableWrite_only (s_ := rfl) (k_ := .refl _ _) ..),
    fun _ => frame_run rfl (doTableDelete_only (s_ := rfl) (k_ := .refl _ _) ..),
    fun _ => frame_run rfl (doTableInsert_only (s_ := rfl) (k_ := .refl _ _) ..),
    fun _ => frame_run rfl (doTableFind_only (s_ := rfl) (k_ := .refl _ _) ..),
    fun _ => frame_run rfl (doTableLookup_only (s_ := rfl) (k_ := .refl _ _) ..),
    fun _ => frame_run rfl (doBankSwap_only (s_ := rfl) (k_ := .refl _ _) ..),
    fun _ _ => frame_run rfl (doShaperWrite_only (s_ := rfl) (k_ := .refl _ _) ..),
    fun _ _ => frame_run rfl (doPolicerWrite_only (s_ := rfl) (k_ := .refl _ _) ..),
    fun _ _ => frame_run rfl (doGateArm_only (s_ := rfl) (k_ := .refl _ _) ..),
    fun _ _ => frame_run rfl (doGateCancel_only (s_ := rfl) (k_ := .refl _ _) ..),
    fun _ => frame_run rfl (doGateSwitch_only (s_ := rfl) (k_ := .refl _ _) ..),
    fun _ => frame_run rfl (doGateEntryChange_only (s_ := rfl) (k_ := .refl _ _) ..),
    fun _ _ => frame_run rfl (doPauseReceive_only (s_ := rfl) (k_ := .refl _ _) ..),
    fun _ _ => frame_run rfl (doPauseExpire_only (s_ := rfl) (k_ := .refl _ _) ..),
    fun _ _ => frame_run rfl (doPauseLong_only (s_ := rfl) (k_ := .refl _ _) ..),
    fun _ _ => frame_run rfl (doPfcRefresh_only (s_ := rfl) (k_ := .refl _ _) ..),
    fun _ _ => frame_run rfl (doFcConfigWrite_only (s_ := rfl) (k_ := .refl _ _) ..),
    fun _ => frame_run rfl (doHeartbeatSend_only (s_ := rfl) (k_ := .refl _ _) ..),
    heartbeatReceive_frame,
    fun _ _ => frame_runLink rfl rfl fun _ => doOfferReceive_only (s_ := rfl) (k_ := .refl _ _) ..,
    fun _ => frame_run rfl (doMergeWaitExpire_only (s_ := rfl) (k_ := .refl _ _) ..),
    fun _ _ => frame_runLink rfl rfl fun _ => doAssignReceive_only (s_ := rfl) (k_ := .refl _ _) ..,
    fun _ _ _ _ => frame_runLink rfl rfl fun _ => doCountersReceive_only (s_ := rfl) (k_ := .refl _ _) ..,
    fun _ _ _ => frame_runLink rfl rfl fun _ => doDeltaReceive_only (s_ := rfl) (k_ := .refl _ _) ..,
    fun _ _ => frame_runLink rfl rfl fun _ => doSnapReqReceive_only (s_ := rfl) (k_ := .refl _ _) ..,
    fun _ _ _ _ _ _ _ _ => frame_runLink rfl rfl fun _ => doSnapReceive_only (s_ := rfl) (k_ := .refl _ _) ..,
    frame_run rfl (doTreadleTimeout_only (s_ := rfl) (k_ := .refl _ _) ..),
    frame_run rfl (doTreadleStatusTimeout_only (s_ := rfl) (k_ := .refl _ _) ..),
    frame_run rfl (doTreadleLost_only (s_ := rfl) (k_ := .refl _ _) ..),
    frame_run rfl (doLoomBeaconSend_only (s_ := rfl) (k_ := .refl _ _) ..),
    fun _ _ _ => frame_runCpu rfl rfl fun _ => doLoomBeaconReceive_only (s_ := rfl) (k_ := .refl _ _) ..,
    fun _ _ => frame_run rfl (doLoomEntryLapse_only (s_ := rfl) (k_ := .refl _ _) ..),
    fun _ _ _ => frame_runCpu rfl rfl fun _ => doVisitQReceive_only (s_ := rfl) (k_ := .refl _ _) ..,
    fun _ _ _ _ => frame_runCpu rfl rfl fun _ => doVisitAReceive_only (s_ := rfl) (k_ := .refl _ _) ..,
    fun _ => frame_run rfl (doVisitTimeout_only (s_ := rfl) (k_ := .refl _ _) ..),
    fun _ _ _ _ => frame_runCpu rfl rfl fun _ => doWhereReceive_only (s_ := rfl) (k_ := .refl _ _) ..,
    fun _ => frame_run rfl (doWhereRefresh_only (s_ := rfl) (k_ := .refl _ _) ..),
    fun _ => frame_run rfl (doHomeLeaseExpire_only (s_ := rfl) (k_ := .refl _ _) ..),
    fun _ _ _ => frame_runCpu rfl rfl fun _ => doFwdReceive_only (s_ := rfl) (k_ := .refl _ _) ..,
    fun _ _ _ _ _ _ _ => frame_runCpu rfl rfl fun _ => doRelayReceive_only (s_ := rfl) (k_ := .refl _ _) ..,
    fun _ _ _ _ _ _ => frame_runCpu rfl rfl fun _ => doRelayResReceive_only (s_ := rfl) (k_ := .refl _ _) ..,
    fun _ => frame_run rfl (doNodeRefetchTimeout_only (s_ := rfl) (k_ := .refl _ _) ..)⟩

end Sys2Proof.Machine
end

section
/-! PROOFS. Attribute words (O52): what R300 asks of a word, and KEY_ATTR's refusal (R312). -/

namespace Sys2Proof.Machine

/-- The list of R300 holds of a word whose TYPE R299 gives exactly where the word is consistent. -/
theorem attrConsistent_iff {a : Word} (known : attrType a ≤ 3) : attrConsistent a = true ↔
    bit a 15 = false ∧ (attrType a = 3 → fld a 21 16 = 0b010000) ∧ (bit a useSign = true → attrType a = 3)
      ∧ (bit a useWrap = true → attrType a = 2)
      ∧ (bit a useDerive = true ∨ bit a useEncrypt = true ∨ bit a useDecrypt = true ∨ bit a 19 = true →
          attrType a = 1 ∨ attrType a = 2) := by
  obtain type | type | type | type : attrType a = 0 ∨ attrType a = 1 ∨ attrType a = 2 ∨ attrType a = 3 := by omega
  all_goals simp [attrConsistent, type, useDerive, useEncrypt, useDecrypt, and_assoc, and_comm, and_left_comm]

@[simp] theorem finish_dst (d : Dev) (th : Nat) (st : Status) (res : List Byte) : (finish d th st res).dst = d.dst :=
  (finish_only d th st res (l_ := [.whl, .ccp, .ply, .img]) rfl (.refl _ _)).same .dst (by decide)

section
variable {d : Dev} {th k : Nat} {t : Thread} {a : Word}

theorem doKeyAttr_ready (turn : inTurn d th isKeyCommand = true) (r : ReadyFor d th t (.keyAttr k a)) :
    doKeyAttr th d =
      if k < 2 ∨ attrConsistent a = false ∨ attrType a ≠ attrType (skeinAttr d k) then finish (d.running th t) th .range []
      else if attrAdds a (skeinAttr d k) then finish (d.running th t) th .attr []
      else finish (if bit a useDerive ∧ bit a masterLink then setAttr (d.running th t) k a
        else dropCache (setAttr (d.running th t) k a) k) th .ok [] := by
  rw [doKeyAttr, if_neg (by simp [turn])]
  exact runThread_ready (a := (k, a)) _ r (by rfl)

/-- A command refused with its first check ends its thread, and changes nothing but threads. -/
theorem ended_refused {c : Cmd} (r : ReadyFor d th t c) (st : Status) : EndedWith (finish (d.running th t) th st []) th st []
    ∧ (finish (d.running th t) th st []).dst = d.dst ∧ (finish (d.running th t) th st []).pra = d.pra := by
  obtain ⟨ended, only, -⟩ := ended_threadsOnly r st []
  exact ⟨ended, only.same .dst (by decide), only.same .pra (by decide)⟩

end

/-- Settles O52: the word is checked before anything else but the skein's number (`doKeyAttr_ready`). -/
theorem attributeWordsAreConsistent : Obligations.AttributeWordsAreConsistent := by
  unfold Obligations.AttributeWordsAreConsistent
  intro s dt th k t a e consistent known
  refine ⟨attrConsistent_iff known, fun turn r no => gives_run rfl ?_⟩
  have bad : attrConsistent a = false := Bool.eq_false_iff.2 fun h => no ((attrConsistent_iff known).1 h)
  rw [doKeyAttr_ready turn r, if_pos (.inr (.inl bad))]
  exact ended_refused r .range

end Sys2Proof.Machine
end

section
/-! PROOFS. Key and life-cycle commands, the re-mask, and RNG_OK (O37). What a command streams to the partner leaves the keys and
loses no STICKY bit, so the keys and the events are those that the command's own steps leave. -/

namespace Sys2Proof.Machine

/-! ## What is streamed leaves the keys -/

/-- From `a` to `b` the halves and the skeins in working use are as they were, and no STICKY bit is lost. -/
structure SparesKeys (a b : Dev) : Prop where
  halfA : b.dst.halfA = a.dst.halfA
  halfB : b.dst.halfB = a.dst.halfB
  skeins : b.dst.skeins = a.dst.skeins
  sticky : ∀ {k}, a.evt.sticky k = true → b.evt.sticky k = true

namespace SparesKeys
variable {a b c : Dev}

theorem refl (d : Dev) : SparesKeys d d := ⟨rfl, rfl, rfl, id⟩

theorem trans (h : SparesKeys a b) (k : SparesKeys b c) : SparesKeys a c :=
  ⟨k.halfA.trans h.halfA, k.halfB.trans h.halfB, k.skeins.trans h.skeins, fun s => k.sticky (h.sticky s)⟩

theorem ite {p : Prop} [Decidable p] (h : SparesKeys a b) (k : SparesKeys a c) : SparesKeys a (if p then b else c) := by
  split <;> assumption

theorem of_same (dst : b.dst = a.dst) (evt : b.evt = a.evt) : SparesKeys a b :=
  ⟨by rw [dst], by rw [dst], by rw [dst], fun s => by rwa [evt]⟩

theorem report (d : Dev) (e : Nat) (l : List Byte) : SparesKeys d (Machine.report d e l) :=
  ⟨by simp, by simp, by simp, report_keeps_sticky e l⟩

theorem refuseKey (d : Dev) (s : Nat) : SparesKeys d (Machine.refuseKey d s) := by
  have counted : SparesKeys d (d.modDst fun x => { x with attrRefuse := inc32 x.attrRefuse }) := ⟨rfl, rfl, rfl, id⟩
  refine .ite counted (counted.trans (.trans ?_ (.report ..)))
  exact ⟨rfl, rfl, rfl, id⟩

theorem invoke (d : Dev) (s master use : Nat) : SparesKeys d (Machine.invoke d s master use).2 := by
  unfold Machine.invoke; dsimp only; split
  · exact .refl d
  · exact .refuseKey d s

theorem plySend (d : Dev) (o : Output) : SparesKeys d (Machine.plySend d o) := by
  have leaves (e : Dev) (viaB : Bool) : SparesKeys e (plyOut e o viaB) :=
    have only := plyOut_only e o viaB (l_ := [.out, .sht, .ply]) rfl (.refl _ _)
    .of_same (only.same .dst (by decide)) (only.same .evt (by decide))
  unfold Machine.plySend; dsimp only; split
  · split
    · exact (SparesKeys.invoke ..).trans (leaves ..)
    · exact .invoke ..
  · exact .refl d

theorem streamDelta (d : Dev) (x : Delta) : SparesKeys d (Machine.streamDelta d x) := by
  exact .ite (.trans (b := d.modPly _) (.of_same rfl rfl) (.plySend ..)) (.plySend ..)

theorem streamGen (d : Dev) (s gen : Nat) (district : Bool) : SparesKeys d (Machine.streamGen d s gen district) := by
  exact .ite (.streamDelta ..) (.refl d)

/-- The end of a command leaves the distaff and the events. -/
theorem finish (d : Dev) (th : Nat) (st : Status) (res : List Byte) : SparesKeys d (Machine.finish d th st res) :=
  .of_same (finish_dst ..) (finish_evt ..)

theorem halfOf (h : SparesKeys a b) (code s : Nat) : b.dst.halfOf code s = a.dst.halfOf code s := by
  simp only [Dst.halfOf, h.halfA, h.halfB]

end SparesKeys

theorem streamGen_ccp (d : Dev) (s gen : Nat) (district : Bool) : (streamGen d s gen district).ccp = d.ccp :=
  (streamGen_only d s gen district (l_ := [.out, .start, .evt, .sht, .ply, .dst]) rfl (.refl _ _)).same .ccp (by decide)

/-! ## KEY_LOAD (R309, R310) -/

/-- The half that a load of skein `s` writes: the one not in force. -/
def Dev.spareHalf (d : Dev) (s : Nat) : Nat := if commitHalf (d.pra.word (commitWord s)) = 1 then 2 else 1

/-- The device once record `h` is skein `s`'s half in force and in working use (R310). -/
def Dev.keyCommitted (d : Dev) (s : Nat) (h : Half) : Dev :=
  let code := d.spareHalf s
  let d := (praFinish (d.modDst fun x => x.putHalf code s h) (commitWord s) (pack [(30, code), (0, h.gen)]) true).1
  report (dropCache (loadHalf d s h) s) evKeyCommit []

section
variable (d : Dev) (s : Nat) (h : Half)

theorem commitKey_whole (th : Nat) (intact : h.intact = true) : commitKey d th s h 3 true true =
    finish (streamGen (d.keyCommitted s h) s h.gen (bit h.attr useDerive && bit h.attr masterLink)) th .ok
      (keyKcv (attrType h.attr) h.key) := by
  have same : { h with intact := true && decide (0 < 3) } = h := by cases h; cases intact; rfl
  unfold commitKey
  rw [same]
  rfl

theorem keyCommitted_word : (d.keyCommitted s h).pra.word (commitWord s) = pack [(30, d.spareHalf s), (0, h.gen)] := by
  simp only [Dev.keyCommitted, report_pra, dropCache_pra, loadHalf_pra, praFinish_ok_word]

theorem keyCommitted_word_other {n : Nat} (other : n ≠ commitWord s) : (d.keyCommitted s h).pra.word n = d.pra.word n := by
  simp only [Dev.keyCommitted, report_pra, dropCache_pra, loadHalf_pra, praFinish_word_other _ _ _ _ _ other.symm, Dev.modDst_pra]

theorem keyCommitted_halfOf : (d.keyCommitted s h).dst.halfOf (d.spareHalf s) s = some h := by
  rw [Dev.keyCommitted, report_dst]
  refine (loadHalf_halfOf _ s h ..).trans ?_
  rw [praFinish_dst, Dev.modDst_dst, Dst.halfOf, Dst.putHalf]
  split <;> exact kfind_kput_same ..

theorem keyCommitted_skein :
    (kfind (d.keyCommitted s h).dst.skeins s).map (fun y => (y.attr, y.gen)) = some (h.attr, h.gen) := by
  rw [Dev.keyCommitted, report_dst]
  exact congrArg (Option.map _) (kfind_kput_same ..)

theorem keyCommitted_sticky (runs : d.phase.fwRuns = true) : (d.keyCommitted s h).evt.sticky evKeyCommit = true :=
  report_sticky _ _ _ ((congrArg Phase.fwRuns (praFinish_phase (d.modDst fun x => x.putHalf (d.spareHalf s) s h) ..)).trans runs)

theorem keyCommitted_ccp : (d.keyCommitted s h).ccp = d.ccp := by
  rw [Dev.keyCommitted, report_ccp]
  exact praFinish_ccp ..

end

section
variable {d : Dev} {th : Nat} {t : Thread}

theorem ReadyFor.praDue {c : Cmd} (r : ReadyFor d th t c) : ReadyFor (Machine.praDue d) th t c := by
  obtain ⟨up, found, ready⟩ := r
  exact ⟨(praDue_phase d).trans up, (praDue_thread? d th).trans found, ready⟩

/-- The device as a command that waits on the array finds it: refills taken, its thread running (R54, R202). -/
def Dev.starts (d : Dev) (th : Nat) (t : Thread) : Dev := (Machine.praDue d).running th t

@[simp] theorem starts_word (d : Dev) (th : Nat) (t : Thread) (n : Nat) : (d.starts th t).pra.word n = d.pra.word n :=
  praDue_word d n

@[simp] theorem starts_dst (d : Dev) (th : Nat) (t : Thread) : (d.starts th t).dst = d.dst := praDue_dst d

@[simp] theorem starts_phase (d : Dev) (th : Nat) (t : Thread) : (d.starts th t).phase = d.phase := praDue_phase d

/-- KEY_LOAD's checks go by the words of the array, the distaff and the supply. -/
theorem keyLoadRefused_starts (d : Dev) (th : Nat) (t : Thread) (k g : Nat) (a : Word) :
    keyLoadRefused (d.starts th t) k a g = keyLoadRefused d k a g := by
  have pwr : (d.starts th t).pwr = d.pwr := praDue_pwr d
  simp only [keyLoadRefused, Pra.lifecycle, starts_word, starts_dst, pwr]
  rfl

theorem skeinAttr_of_dst {a b : Dev} (dst : b.dst = a.dst) (s : Nat) : skeinAttr b s = skeinAttr a s := by
  simp only [skeinAttr, dst]

theorem skeinKey_of_dst {a b : Dev} (dst : b.dst = a.dst) (s : Nat) : skeinKey b s = skeinKey a s := by
  simp only [skeinKey, dst]

/-- The check of an invocation goes by the distaff and the words of the array. -/
theorem invoke_starts (d : Dev) (th : Nat) (t : Thread) (s master use : Nat) :
    (invoke (d.starts th t) s master use).1 = (invoke d s master use).1 := by
  simp only [invoke_fst, skeinAttr, skeinDisabled, Pra.lifecycle, starts_word, starts_dst]

/-- The record that KEY_LOAD makes of a wrapped key (R309). -/
def Dev.unwrapped (d : Dev) (k w : Nat) (x : BitVec 16) (a : Word) (g : Nat) (l : List Byte) : Half where
  skein := k
  gen := g
  attr := a
  district := x
  key := fitTo (wrapLen (attrType a) - 8) (Config.unwrapKey (skeinKey d w) l)

section
variable {k w g : Nat} {x : BitVec 16} {a : Word} {l : List Byte} (turn : inTurn d th isKeyCommand = true)
  (free : writeTurn d = true) (r : ReadyFor d th t (.keyLoad k w x a g l))
include turn free r

theorem doKeyLoad_refused {st : Status} (u rd v : Bool) (n : Nat) (refused : keyLoadRefused d k a g = some st) :
    doKeyLoad th u rd v n d = finish (d.starts th t) th st [] := by
  rw [doKeyLoad, if_neg (by simp [turn, free])]
  refine (runThread_ready (a := (k, w, x, a, g, l)) _ r.praDue (by rfl)).trans ?_
  have same := (keyLoadRefused_starts d th t k g a).trans refused
  simp only [Dev.starts, Dev.running] at same ⊢
  simp only [same]

theorem doKeyLoad_loads (passed : keyLoadRefused d k a g = none) (wraps : attrType (skeinAttr d w) = 2)
    (may : (invoke d w masterCcp useWrap).1 = true) (token : 0 < (Machine.praDue d).pra.tokens (commitWord k))
    (len : l.length = wrapLen (attrType a)) (some_ : 0 < wrapLen (attrType a)) : doKeyLoad th true true true 3 d =
      commitKey (d.starts th t) th k (d.unwrapped k w x a g l) 3 true true := by
  rw [doKeyLoad, if_neg (by simp [turn, free])]
  refine (runThread_ready (a := (k, w, x, a, g, l)) _ r.praDue (by rfl)).trans ?_
  have passed' := (keyLoadRefused_starts d th t k g a).trans passed
  have wraps' := (congrArg attrType (skeinAttr_of_dst (starts_dst d th t) w)).trans wraps
  have may' := invoke_allowed ((invoke_starts d th t w masterCcp useWrap).trans may)
  have tokens : (d.starts th t).pra.tokens (commitWord k) ≠ 0 := Nat.pos_iff_ne_zero.1 token
  rw [Dev.unwrapped, ← skeinKey_of_dst (starts_dst d th t) w]
  simp only [Dev.starts, Dev.running] at passed' wraps' may' tokens ⊢
  simp only [passed', wraps', may', if_true, tokens, if_false, len, some_.ne', Bool.true_eq_false, ne_eq, not_true_eq_false,
    or_self]

/-- KEY_LOAD puts its record in force, then streams its generation (R280) and ends. -/
theorem doKeyLoad_commits (passed : keyLoadRefused d k a g = none) (wraps : attrType (skeinAttr d w) = 2)
    (may : (invoke d w masterCcp useWrap).1 = true) (token : 0 < (Machine.praDue d).pra.tokens (commitWord k))
    (len : l.length = wrapLen (attrType a)) (some_ : 0 < wrapLen (attrType a)) :
    let c := (d.starts th t).keyCommitted k (d.unwrapped k w x a g l)
    let b := doKeyLoad th true true true 3 d
    SparesKeys c b ∧ b.pra = c.pra ∧ EndedWith b th .ok (keyKcv (attrType a) (d.unwrapped k w x a g l).key) := by
  intro c b
  have whole : b = finish (streamGen c k g (bit a useDerive && bit a masterLink)) th .ok
      (keyKcv (attrType a) (d.unwrapped k w x a g l).key) :=
    (doKeyLoad_loads turn free r passed wraps may token len some_).trans (commitKey_whole _ _ _ th rfl)
  rw [whole]
  refine ⟨(SparesKeys.streamGen ..).trans (.finish ..), (finish_pra ..).trans (streamGen_pra ..), ?_⟩
  exact r.praDue.ends (congrArg Ccp.threads ((streamGen_ccp ..).trans (keyCommitted_ccp ..))) _ _

end

end

/-! ## KEY_ATTR and KEY_INFO (R308, R312) -/

theorem setAttr_skein (d : Dev) (s : Nat) (a : Word) :
    (kfind (setAttr d s a).dst.skeins s).map (·.attr) = (kfind d.dst.skeins s).map (fun _ => a) := by
  change Option.map _ (kfind (kadj (match d.dst.halfOf _ s with | some h => d.dst.putHalf _ s _ | none => d.dst).skeins s _) s) = _
  have skeins : (match d.dst.halfOf (commitHalf (d.pra.word (commitWord s))) s with
      | some h => d.dst.putHalf (commitHalf (d.pra.word (commitWord s))) s { h with attr := a }
      | none => d.dst).skeins = d.dst.skeins := by
    split
    · rw [Dst.putHalf]; split <;> rfl
    · rfl
  rw [skeins]
  cases held : kfind d.dst.skeins s with
  | none => simp [kadj, held]
  | some k => simp [kfind_kadj_same _ held]

/-- Whether or not derived keys are dropped, threads, array and skeins are as the new word left them. -/
theorem dropCache_unless (p : Prop) [Decidable p] (d : Dev) (s : Nat) : let b := if p then d else dropCache d s
    b.ccp = d.ccp ∧ b.pra = d.pra ∧ b.dst.skeins = d.dst.skeins := by
  intro b
  by_cases h : p
  · rw [show b = d from if_pos h]; exact ⟨rfl, rfl, rfl⟩
  · rw [show b = dropCache d s from if_neg h]; exact ⟨rfl, rfl, rfl⟩

section
variable {d : Dev} {th k : Nat} {t : Thread} (turn : inTurn d th isKeyCommand = true)
include turn

theorem doKeyAttr_lowers {a : Word} (r : ReadyFor d th t (.keyAttr k a)) (operator : 2 ≤ k) (good : attrConsistent a = true)
    (type : attrType a = attrType (skeinAttr d k)) (lowers : attrAdds a (skeinAttr d k) = false) : let b := doKeyAttr th d
    EndedWith b th .ok [] ∧ b.pra = d.pra ∧ (kfind b.dst.skeins k).map (·.attr) = (kfind d.dst.skeins k).map (fun _ => a) := by
  rw [doKeyAttr_ready turn r, if_neg (by simp [good, type]; omega), if_neg (by simp [lowers])]
  obtain ⟨ccp, pra, skeins⟩ := dropCache_unless (bit a useDerive ∧ bit a masterLink) (setAttr (d.running th t) k a) k
  refine ⟨r.ends (congrArg Ccp.threads ccp :) _ _, (finish_pra ..).trans pra, ?_⟩
  rw [(SparesKeys.finish ..).skeins, skeins]
  exact setAttr_skein ..

theorem doKeyAttr_raises {a : Word} (r : ReadyFor d th t (.keyAttr k a)) (operator : 2 ≤ k) (good : attrConsistent a = true)
    (type : attrType a = attrType (skeinAttr d k)) (raises : attrAdds a (skeinAttr d k) = true) :
    doKeyAttr th d = finish (d.running th t) th .attr [] := by
  rw [doKeyAttr_ready turn r, if_neg (by simp [good, type]; omega), if_pos raises]

theorem doKeyInfo_held {y : Skein} (r : ReadyFor d th t (.keyInfo k)) (operator : 2 ≤ k) (held : kfind d.dst.skeins k = some y) :
    doKeyInfo th d = finish (d.running th t) th .ok (octets 4 y.attr.toNat ++ octets 4 (skeinWord d k).toNat
      ++ octets 2 y.district.toNat ++ octets 2 0 ++ keyKcv (attrType y.attr) (skeinKey d k)
      ++ (if attrType y.attr = 3 then octets 96 (Config.publicPoint (skeinKey d k)).toNat else [])) := by
  rw [doKeyInfo, if_neg (by simp [turn])]
  refine (runThread_ready (a := k) _ r (by rfl)).trans ?_
  have attr : skeinAttr d k = y.attr := by simp [skeinAttr, held, Nat.not_lt.2 operator]
  have district : skeinDistrict d k = y.district := by simp [skeinDistrict, held]
  have kcv : heldKcv (d.running th t) k = (keyKcv (attrType (skeinAttr d k)) (skeinKey d k), d.running th t) :=
    if_pos (.inr (by simp [Dev.running, Dev.modThread, held]))
  rw [← attr, ← district]
  simp only [Dev.running] at kcv ⊢
  rw [kcv]
  rfl

end

/-! ## Erasure (R313) -/

/-- The device once both halves of skein `s` are zeroed and it has left working use, with the refills that are due. -/
def Dev.zeroed (d : Dev) (s : Nat) : Dev :=
  praDue (dropCache (d.modDst fun x => { (x.dropHalf 1 s).dropHalf 2 s with
    skeins := kdel x.skeins s, dead := x.dead.filter (· != s) }) s)

/-- A skein whose commit word still stands reads DISABLED. -/
def Dev.deadWhileCommitted (d : Dev) (s : Nat) : Dev :=
  if d.pra.word (commitWord s) = 0 then d else d.modDst (fun x => { x with dead := s :: x.dead })

/-- The commit word of a zeroed skein is cleared, unless its bucket is empty. -/
def Dev.uncommitted (d : Dev) (s : Nat) (ok : Bool) : Dev × Status :=
  if (d.zeroed s).pra.tokens (commitWord s) = 0 then (d.zeroed s, .ok) else praFinish (d.zeroed s) (commitWord s) 0 ok

theorem eraseSkein_eq (d : Dev) (s : Nat) (ok : Bool) : eraseSkein d s ok =
    (report ((d.uncommitted s ok).1.deadWhileCommitted s) evSkeinDisabled (octets 1 s ++ octets 1 3), (d.uncommitted s ok).2) := rfl

theorem praLow_keeps_sticky {d : Dev} {k : Nat} (h : d.evt.sticky k = true) : (praLow d).evt.sticky k = true :=
  watch_keeps_sticky _ _ _ _ _ h

theorem praDue_keeps_sticky {d : Dev} {k : Nat} (h : d.evt.sticky k = true) : (praDue d).evt.sticky k = true := by
  unfold praDue; dsimp only; split
  · exact h
  · exact praLow_keeps_sticky h

theorem praFinish_keeps_sticky {d : Dev} {k : Nat} (n : Nat) (v : Word) (ok : Bool) (h : d.evt.sticky k = true) :
    (praFinish d n v ok).1.evt.sticky k = true := by
  cases ok
  · exact praLow_keeps_sticky (report_keeps_sticky _ _ h)
  · exact praLow_keeps_sticky h

section
variable (d : Dev) (s : Nat)

theorem deadWhileCommitted_evt : (d.deadWhileCommitted s).evt = d.evt := by unfold Dev.deadWhileCommitted; split <;> rfl

theorem deadWhileCommitted_pra : (d.deadWhileCommitted s).pra = d.pra := by unfold Dev.deadWhileCommitted; split <;> rfl

theorem deadWhileCommitted_phase : (d.deadWhileCommitted s).phase = d.phase := by unfold Dev.deadWhileCommitted; split <;> rfl

theorem deadWhileCommitted_keys : (d.deadWhileCommitted s).dst.halfA = d.dst.halfA
    ∧ (d.deadWhileCommitted s).dst.halfB = d.dst.halfB ∧ (d.deadWhileCommitted s).dst.skeins = d.dst.skeins := by
  unfold Dev.deadWhileCommitted; split <;> exact ⟨rfl, rfl, rfl⟩

theorem zeroed_word (n : Nat) : (d.zeroed s).pra.word n = d.pra.word n := praDue_word ..

theorem zeroed_phase : (d.zeroed s).phase = d.phase := praDue_phase ..

theorem zeroed_tokens (n : Nat) : (d.zeroed s).pra.tokens n = (praDue d).pra.tokens n :=
  praDue_tokens_congr (a := dropCache (d.modDst _) s) (b := d) rfl rfl rfl n

section
variable (ok : Bool)

theorem uncommitted_dst : (d.uncommitted s ok).1.dst = (d.zeroed s).dst := by
  unfold Dev.uncommitted; split
  · rfl
  · exact praFinish_dst ..

theorem uncommitted_phase : (d.uncommitted s ok).1.phase = d.phase := by
  unfold Dev.uncommitted; split
  · exact zeroed_phase d s
  · exact (praFinish_phase ..).trans (zeroed_phase d s)

theorem uncommitted_word_other {n : Nat} (other : n ≠ commitWord s) : (d.uncommitted s ok).1.pra.word n = d.pra.word n := by
  unfold Dev.uncommitted; split
  · exact zeroed_word d s n
  · exact (praFinish_word_other _ _ _ _ _ other.symm).trans (zeroed_word d s n)

theorem uncommitted_keeps_sticky {k : Nat} (set : d.evt.sticky k = true) : (d.uncommitted s ok).1.evt.sticky k = true := by
  have zeroed : (d.zeroed s).evt.sticky k = true := praDue_keeps_sticky set
  unfold Dev.uncommitted; split
  · exact zeroed
  · exact praFinish_keeps_sticky _ _ _ zeroed

/-- An erased skein holds no half, and is in no working use. -/
theorem eraseSkein_keys : (eraseSkein d s ok).1.dst.halfA = kdel d.dst.halfA s
    ∧ (eraseSkein d s ok).1.dst.halfB = kdel d.dst.halfB s ∧ (eraseSkein d s ok).1.dst.skeins = kdel d.dst.skeins s := by
  obtain ⟨halfA, halfB, skeins⟩ := deadWhileCommitted_keys (d.uncommitted s ok).1 s
  rw [eraseSkein_eq, report_dst, halfA, halfB, skeins, uncommitted_dst, Dev.zeroed, praDue_dst]
  exact ⟨rfl, rfl, rfl⟩

theorem eraseSkein_word_other {n : Nat} (other : n ≠ commitWord s) : (eraseSkein d s ok).1.pra.word n = d.pra.word n := by
  rw [eraseSkein_eq, report_pra, deadWhileCommitted_pra, uncommitted_word_other d s ok other]

theorem eraseSkein_keeps_sticky {k : Nat} (set : d.evt.sticky k = true) : (eraseSkein d s ok).1.evt.sticky k = true := by
  rw [eraseSkein_eq]
  exact report_keeps_sticky _ _ (by rw [deadWhileCommitted_evt]; exact uncommitted_keeps_sticky d s ok set)

theorem eraseSkein_sticky (runs : d.phase.fwRuns = true) : (eraseSkein d s ok).1.evt.sticky evSkeinDisabled = true := by
  rw [eraseSkein_eq]
  exact report_sticky _ _ _ (by rwa [deadWhileCommitted_phase, uncommitted_phase])

/-- With a token, and a verify that passes, the commit word is cleared. -/
theorem eraseSkein_cleared (token : 0 < (praDue d).pra.tokens (commitWord s)) :
    (eraseSkein d s true).1.pra.word (commitWord s) = 0 ∧ (eraseSkein d s true).2 = .ok := by
  have some_ : ¬(d.zeroed s).pra.tokens (commitWord s) = 0 := by rw [zeroed_tokens]; omega
  rw [eraseSkein_eq, report_pra, deadWhileCommitted_pra, Dev.uncommitted, if_neg some_]
  exact ⟨praFinish_ok_word .., praFinish_status ..⟩

/-- Erasing a skein by a command leaves every other word of the array, and loses no STICKY bit. -/
theorem eraseByCommand_word_other {n : Nat} (other : n ≠ commitWord s) : (eraseByCommand d s ok).1.pra.word n = d.pra.word n :=
  (congrArg (Pra.word · n) (streamGen_pra ..)).trans (eraseSkein_word_other d s ok other)

theorem eraseByCommand_keeps_sticky {k : Nat} (set : d.evt.sticky k = true) : (eraseByCommand d s ok).1.evt.sticky k = true :=
  (SparesKeys.streamGen ..).sticky (eraseSkein_keeps_sticky d s ok set)

theorem eraseByCommand_ccp : (eraseByCommand d s ok).1.ccp = d.ccp :=
  (eraseByCommand_only d s ok (l_ := [.out, .start, .pra, .evt, .sht, .ply, .dst]) rfl (.refl _ _)).same .ccp (by decide)

end
end

/-! ## KEY_ERASE (R303, R313) -/

section
variable {d : Dev} {th k : Nat} {t : Thread}

theorem doKeyErase_erases (ok : Bool) (turn : inTurn d th isKeyCommand = true) (free : writeTurn d = true)
    (r : ReadyFor d th t (.keyErase k)) (operator : 2 ≤ k) (rng : d.dst.rngOk = true) :
    doKeyErase th ok d = finish (eraseByCommand (d.running th t) k ok).1 th (eraseByCommand (d.running th t) k ok).2 [] := by
  rw [doKeyErase, if_neg (by simp [turn, free])]
  refine (runThread_ready (a := k) _ r (by rfl)).trans ?_
  have good : (d.running th t).dst.rngOk ≠ false := by simp [Dev.running, Dev.modThread, rng]
  simp only [Nat.not_lt.2 operator, if_false]
  exact if_neg good

/-- An erased skein has neither half, is not in working use, and its commit word is clear. -/
theorem doKeyErase_erased (turn : inTurn d th isKeyCommand = true) (free : writeTurn d = true)
    (r : ReadyFor d th t (.keyErase k)) (operator : 2 ≤ k) (rng : d.dst.rngOk = true)
    (token : 0 < (praDue d).pra.tokens (commitWord k)) : let b := doKeyErase th true d
    EndedWith b th .ok [] ∧ kfind b.dst.halfA k = none ∧ kfind b.dst.halfB k = none ∧ kfind b.dst.skeins k = none
      ∧ b.pra.word (commitWord k) = 0 ∧ b.evt.sticky evSkeinDisabled = true := by
  have tokens : 0 < (praDue (d.running th t)).pra.tokens (commitWord k) := by
    rwa [praDue_tokens_congr (a := d.running th t) (b := d) rfl rfl rfl]
  obtain ⟨halfA, halfB, skeins⟩ := eraseSkein_keys (d.running th t) k true
  obtain ⟨word, status⟩ := eraseSkein_cleared (d.running th t) k tokens
  have runs : (d.running th t).phase.fwRuns = true := by
    have up : (d.running th t).phase = .up := r.1
    rw [up]; rfl
  have ended : (eraseByCommand (d.running th t) k true).2 = .ok := status
  rw [doKeyErase_erases true turn free r operator rng, ended]
  have spares : SparesKeys (eraseSkein (d.running th t) k true).1 (finish (eraseByCommand (d.running th t) k true).1 th .ok []) :=
    (SparesKeys.streamGen ..).trans (.finish ..)
  refine ⟨r.ends (congrArg Ccp.threads (eraseByCommand_ccp ..)) _ _, ?_, ?_, ?_, ?_, spares.sticky (eraseSkein_sticky _ _ _ runs)⟩
  · rw [spares.halfA, halfA, kfind_kdel_same]
  · rw [spares.halfB, halfB, kfind_kdel_same]
  · rw [spares.skeins, skeins, kfind_kdel_same]
  · rw [finish_pra]
    exact (congrArg (Pra.word · _) (streamGen_pra ..)).trans word

end

/-! ## LIFECYCLE_SET (R317) -/

/-- The refills do not read the threads, and the start of a command does not touch the array. -/
theorem praDue_running (d : Dev) (th : Nat) (t : Thread) : praDue (d.running th t) = d.starts th t := praDue_modCcp ..

theorem praOwn_token {d : Dev} {n : Nat} (v : Word) (ok : Bool) (token : 0 < (praDue d).pra.tokens n) :
    praOwn d n v ok = praFinish (praDue d) n v ok := if_neg token.ne'

/-- The device once the life-cycle word is written and reported. -/
def Dev.lifeWritten (d : Dev) (th : Nat) (t : Thread) (l : Nat) : Dev :=
  report (praFinish (d.starts th t) 1 (BitVec.ofNat 32 l) true).1 evLifecycleChange []

/-- One of the erasures that follow RETURNED. -/
def eraseReturnedSkein (faults : List Nat) (d : Dev) (s : Nat) : Dev := (eraseByCommand d s (!faults.contains (commitWord s))).1

/-- The erasures of RETURNED leave the threads and the life-cycle word, and lose no STICKY bit. -/
theorem eraseReturned_leaves (faults : List Nat) {d : Dev} {k : Nat} (set : d.evt.sticky k = true) :
    let b := each operatorSkeins (eraseReturnedSkein faults) d
    b.ccp = d.ccp ∧ b.pra.word 1 = d.pra.word 1 ∧ b.evt.sticky k = true := by
  have other (s : Nat) : 1 ≠ commitWord s := by unfold commitWord; omega
  exact ⟨each_keeps Dev.ccp fun e s => eraseByCommand_ccp e s _,
    each_keeps (fun e => e.pra.word 1) fun e s => eraseByCommand_word_other e s _ (other s),
    each_holds (P := fun e => e.evt.sticky k = true) set fun e s => eraseByCommand_keeps_sticky e s _⟩

section
variable {d : Dev} {th l : Nat} {t : Thread} (free : writeTurn d = true) (r : ReadyFor d th t (.lifecycleSet l))
include free r

theorem doLifecycleSet_refused (ok : Bool) (faults : List Nat) (upto : Option Nat) (no : lifecycleStep d.pra.lifecycle l = false) :
    doLifecycleSet th ok faults upto d = finish (d.running th t) th .state [] := by
  rw [doLifecycleSet, if_neg (by simp [free])]
  exact (runThread_ready (a := l) _ r (by rfl)).trans (if_pos no)

theorem doLifecycleSet_steps (faults : List Nat) (step : lifecycleStep d.pra.lifecycle l = true)
    (token : 0 < (praDue d).pra.tokens 1) : doLifecycleSet th true faults none d =
      finish (if l = 4 then each operatorSkeins (eraseReturnedSkein faults) (d.lifeWritten th t l) else d.lifeWritten th t l)
        th .ok [] := by
  rw [doLifecycleSet, if_neg (by simp [free])]
  refine (runThread_ready (a := l) _ r (by rfl)).trans ?_
  have token' : 0 < (praDue (d.running th t)).pra.tokens 1 := by rw [praDue_running]; exact token
  have written : praOwn (d.running th t) 1 (BitVec.ofNat 32 l) true
      = ((praFinish (d.starts th t) 1 (BitVec.ofNat 32 l) true).1, .ok) := by
    rw [praOwn_token _ _ token', praDue_running]; rfl
  have whole : ¬(l = 4 ∧ (none : Option Nat).getD operatorSkeins.length < operatorSkeins.length) :=
    fun h => absurd h.2 (lt_irrefl _)
  refine (if_neg (by simpa [Dev.running, Dev.modThread] using step)).trans ?_
  simp only [Dev.running] at written
  rw [written]
  refine (if_neg whole).trans ?_
  rw [Option.getD_none, List.take_length]
  rfl

theorem doLifecycleSet_stepped (faults : List Nat) (step : lifecycleStep d.pra.lifecycle l = true)
    (token : 0 < (praDue d).pra.tokens 1) : let b := doLifecycleSet th true faults none d
    EndedWith b th .ok [] ∧ b.pra.word 1 = BitVec.ofNat 32 l ∧ b.evt.sticky evLifecycleChange = true
      ∧ (l ≠ 4 → ∀ n, n ≠ 1 → b.pra.word n = d.pra.word n) := by
  have ccp : (d.lifeWritten th t l).ccp = ((praDue d).running th t).ccp := (report_ccp ..).trans (praFinish_ccp ..)
  have word : (d.lifeWritten th t l).pra.word 1 = BitVec.ofNat 32 l := by rw [Dev.lifeWritten, report_pra, praFinish_ok_word]
  have set : (d.lifeWritten th t l).evt.sticky evLifecycleChange = true :=
    report_sticky _ _ _ (by rw [praFinish_phase, starts_phase, r.1]; rfl)
  rw [doLifecycleSet_steps free r faults step token]
  simp only [finish_pra, finish_evt]
  split
  next returned =>
    obtain ⟨threads, life, kept⟩ := eraseReturned_leaves faults set
    exact ⟨r.praDue.ends (congrArg Ccp.threads (threads.trans ccp)) _ _, life.trans word, kept, fun no => absurd returned no⟩
  next =>
    refine ⟨r.praDue.ends (congrArg Ccp.threads ccp) _ _, word, set, fun _ n other => ?_⟩
    rw [Dev.lifeWritten, report_pra, praFinish_word_other _ _ _ _ _ other.symm, starts_word]

end

/-! ## The re-mask (R302, R303) -/

/-- Two shares of one length, at most that of the longest key, hold key `K`. -/
def SharesHold (a b K : List Byte) : Prop := a.length ≤ 64 ∧ b.length = a.length ∧ joinShares a b = K

theorem SharesHold.remask {a b K m : List Byte} (h : SharesHold a b K) (long : m.length = 64) :
    SharesHold (joinShares a m) (joinShares b m) K := by
  obtain ⟨short, same, key⟩ := h
  have fits : a.length ≤ m.length := long ▸ short
  have fits' : b.length ≤ m.length := same ▸ fits
  exact ⟨joinShares_length fits ▸ short, by rw [joinShares_length fits, joinShares_length fits', same],
    (joinShares_remask fits fits').trans key⟩

/-- Skein `k` is in working use with shares that hold key `K`. -/
def SkeinHolds (d : Dev) (k : Nat) (K : List Byte) : Prop := ∃ y, kfind d.dst.skeins k = some y ∧ SharesHold y.s0 y.s1 K

/-- The shares of root key `k` hold key `K`. -/
def RootHolds (d : Dev) (k : Nat) (K : List Byte) : Prop :=
  SharesHold (kgetD d.dst.root k ([], [])).1 (kgetD d.dst.root k ([], [])).2 K

/-- A skein's shares under another mask. -/
def Skein.remask (y : Skein) (mask : List Byte) : Skein := { y with s0 := joinShares y.s0 mask, s1 := joinShares y.s1 mask }

theorem remaskSkein_found {d : Dev} {s : Nat} {y : Skein} (found : kfind d.dst.skeins s = some y) :
    (remaskSkein d s).dst = { d.dst with skeins := kput d.dst.skeins s (y.remask (freshMask d).1) } := by
  simp only [remaskSkein, found]
  rfl

theorem remaskSkein_absent {d : Dev} {s : Nat} (absent : kfind d.dst.skeins s = none) : remaskSkein d s = d := by
  simp only [remaskSkein, absent]

theorem SkeinHolds.remaskSkein {d : Dev} {k : Nat} {K : List Byte} (h : SkeinHolds d k K) (s : Nat) :
    SkeinHolds (Machine.remaskSkein d s) k K := by
  cases found : kfind d.dst.skeins s with
  | none => rwa [remaskSkein_absent found]
  | some z =>
    rw [SkeinHolds, remaskSkein_found found]
    obtain ⟨y, held, shares⟩ := h
    by_cases same : s = k
    · subst same
      obtain rfl : z = y := Option.some.inj (found.symm.trans held)
      exact ⟨_, kfind_kput_same .., shares.remask (freshMask_length d)⟩
    · exact ⟨y, (kfind_kput_other _ _ _ _ same).trans held, shares⟩

theorem RootHolds.remaskRoot {d : Dev} {k : Nat} {K : List Byte} (h : RootHolds d k K) (s : Nat) :
    RootHolds (Machine.remaskRoot d s) k K := by
  cases found : kfind d.dst.root s with
  | none =>
    have root : (Machine.remaskRoot d s).dst.root = d.dst.root := by
      change kadj d.dst.root s _ = _
      simp only [kadj, found]
    rwa [RootHolds, root]
  | some v =>
    have shares : kgetD (Machine.remaskRoot d s).dst.root k ([], []) = _ := remaskRoot_shares d s found k
    rw [RootHolds, shares]
    split
    next same =>
      subst same
      have old : kgetD d.dst.root s ([], []) = v := by simp [kgetD, found]
      rw [RootHolds, old] at h
      exact h.remask (freshMask_length d)
    next => exact h

/-- What a cached key is without its mask. -/
def Derived.unmasked (e : Derived) : Nat × BitVec 64 × Nat × BitVec 128 := (e.skein, e.eui, e.gen, e.s0 ^^^ e.s1)

theorem xor_remask {n : Nat} (a b m : BitVec n) : (a ^^^ m) ^^^ (b ^^^ m) = a ^^^ b := by
  rw [BitVec.xor_comm b m, BitVec.xor_assoc, ← BitVec.xor_assoc m m b, BitVec.xor_self, BitVec.zero_xor]

theorem remaskCache_unmasked (l : List Derived) (d : Dev) : (remaskCache l d).1.map Derived.unmasked = l.map Derived.unmasked := by
  induction l generalizing d with
  | nil => rfl
  | cons e r ih =>
    simp only [remaskCache, List.map_cons, ih]
    simp only [Derived.unmasked, xor_remask]

theorem remaskCache_dst (l : List Derived) (d : Dev) : (remaskCache l d).2.dst = d.dst := by
  induction l generalizing d with
  | nil => rfl
  | cons e r ih => exact ih d.draw.2

/-- The device once the root keys and the skeins are re-masked. -/
def Dev.remasked (d : Dev) : Dev := each (d.dst.skeins.map (·.1)) remaskSkein (each [0, 1] remaskRoot d)

theorem remaskSkein_leaves (d : Dev) (s : Nat) :
    ((remaskSkein d s).dst.root, (remaskSkein d s).dst.cache) = (d.dst.root, d.dst.cache) := by
  cases found : kfind d.dst.skeins s with
  | none => rw [remaskSkein_absent found]
  | some y => rw [remaskSkein_found found]

theorem remasked_leaves (d : Dev) :
    (d.remasked.dst.root, d.remasked.dst.cache) = ((each [0, 1] remaskRoot d).dst.root, d.dst.cache) :=
  each_keeps (fun e => (e.dst.root, e.dst.cache)) remaskSkein_leaves

theorem doKeyRemask_good {d : Dev} (rng : d.dst.rngOk = true) (runs : d.phase.ctrlRuns = true) : let b := doKeyRemask d
    b.dst.skeins = d.remasked.dst.skeins ∧ b.dst.root = d.remasked.dst.root
      ∧ b.dst.cache = (remaskCache d.remasked.dst.cache d.remasked).1 := by
  intro b
  have cached := remaskCache_dst d.remasked.dst.cache d.remasked
  have done : b = _ := if_pos ⟨rng, runs⟩
  rw [done]
  exact ⟨(congrArg Dst.skeins cached :), (congrArg Dst.root cached :), rfl⟩

/-- From `a` to `b` only free values and the distaff have changed. -/
theorem Only.eq_free_dst {a b : Dev} (h : Only [.free, .dst] a b) : b = { a with dst := b.dst, free := b.free } := by
  have same := h.same
  obtain ⟨_, _, _, _, _, _, _, _, _, _, _, _, _, _, _, _, _, _, _, _⟩ := b
  obtain rfl := same .phase (by decide)
  obtain rfl := same .out (by decide)
  obtain rfl := same .pwr (by decide)
  obtain rfl := same .glb (by decide)
  obtain rfl := same .start (by decide)
  obtain rfl := same .pra (by decide)
  obtain rfl := same .evt (by decide)
  obtain rfl := same .whl (by decide)
  obtain rfl := same .spn (by decide)
  obtain rfl := same .region (by decide)
  obtain rfl := same .wrp (by decide)
  obtain rfl := same .ccp (by decide)
  obtain rfl := same .sht (by decide)
  obtain rfl := same .que (by decide)
  obtain rfl := same .crd (by decide)
  obtain rfl := same .ply (by decide)
  obtain rfl := same .img (by decide)
  obtain rfl := same .bob (by decide)
  rfl

theorem skeinKey_of_holds {d : Dev} {k : Nat} {K : List Byte} (operator : 2 ≤ k) (h : SkeinHolds d k K) : skeinKey d k = K := by
  obtain ⟨y, held, -, -, key⟩ := h
  simpa [skeinKey, Nat.not_lt.2 operator, held] using key

theorem skeinKey_of_root {d : Dev} {k : Nat} {K : List Byte} (root : k < 2) (h : RootHolds d k K) : skeinKey d k = K := by
  obtain ⟨-, -, key⟩ := h
  simpa [skeinKey, root] using key

/-- Every key in working use is the one it was. -/
theorem doKeyRemask_keys {d : Dev} (rng : d.dst.rngOk = true) (runs : d.phase.ctrlRuns = true) (k : Nat) (K : List Byte) :
    (SkeinHolds d k K → SkeinHolds (doKeyRemask d) k K) ∧ (RootHolds d k K → RootHolds (doKeyRemask d) k K)
      ∧ (doKeyRemask d).dst.cache.map Derived.unmasked = d.dst.cache.map Derived.unmasked := by
  obtain ⟨skeins, root, cache⟩ := doKeyRemask_good rng runs
  obtain ⟨roots, cached⟩ := Prod.mk.inj (remasked_leaves d)
  refine ⟨fun h => ?_, fun h => ?_, ?_⟩
  · have rooted : SkeinHolds (each [0, 1] remaskRoot d) k K := h
    have held : SkeinHolds d.remasked k K := 
      each_holds (P := fun e => SkeinHolds e k K) rooted fun _ s held => held.remaskSkein s
    rwa [SkeinHolds, skeins]
  · have held : RootHolds (each [0, 1] remaskRoot d) k K := 
      each_holds (P := fun e => RootHolds e k K) h fun _ s held => held.remaskRoot s
    rwa [RootHolds, root, roots]
  · rw [cache, remaskCache_unmasked, cached]

/-! ## RNG_OK (R303, R368) -/

theorem SparesKeys.selfTestLive (d : Dev) (b : Nat) (ok : Bool) : SparesKeys d (Machine.selfTestLive d b ok) := by
  have failed (c : BitVec 2) : SparesKeys d (selfTest d b c) :=
    .trans (b := d.modGlb _) (.of_same rfl rfl) (.ite (.report ..) (.refl _))
  exact .ite (.of_same rfl rfl) (.ite (.refl d) (failed 2))

/-- The self-test of the noise source leaves the distaff and the array, and loses no STICKY bit. -/
theorem rngTested {d : Dev} (p : Prop) [Decidable p] (ok : Bool) : let b := if p then selfTestLive d 5 ok else d
    b.dst = d.dst ∧ b.pra = d.pra ∧ SparesKeys d b := by
  have only : Only [.glb, .start, .evt] d (if p then selfTestLive d 5 ok else d) :=
    .ite (selfTestLive_only d 5 ok rfl (.refl _ _)) (.refl _ _)
  exact ⟨only.same .dst (by decide), only.same .pra (by decide), .ite (.selfTestLive ..) (.refl d)⟩

/-- The passing windows counted, and RNG_OK as they leave it. -/
def Dst.windowPassed (x : Dst) : Dst :=
  { x with rngPass := min 1024 (x.rngPass + 1), rngOk := x.rngOk || min 1024 (x.rngPass + 1) == 1024 }

/-- A window that fails: the run of passing windows is over. -/
def Dst.windowFailed (x : Dst) : Dst := { x with rngPass := 0, rngOk := false }

theorem doRngHealthWindow_pass {d : Dev} (runs : d.phase.ctrlRuns = true) : let b := doRngHealthWindow true d
    b.dst = d.dst.windowPassed ∧ b.pra = d.pra := by
  have row : doRngHealthWindow true d =
      if (d.modDst Dst.windowPassed).dst.rngOk = true ∧ (d.modDst Dst.windowPassed).phase.fwRuns = true
      then selfTestLive (d.modDst Dst.windowPassed) 5 true else d.modDst Dst.windowPassed := by
    rw [doRngHealthWindow, if_neg (by simp [runs])]
    rfl
  obtain ⟨dst, pra, -⟩ := rngTested (d := d.modDst Dst.windowPassed)
    ((d.modDst Dst.windowPassed).dst.rngOk = true ∧ (d.modDst Dst.windowPassed).phase.fwRuns = true) true
  rw [row]
  exact ⟨dst, pra⟩

theorem doRngHealthWindow_fail {d : Dev} (runs : d.phase.ctrlRuns = true) : let b := doRngHealthWindow false d
    b.dst = d.dst.windowFailed ∧ (d.phase.fwRuns = true → b.evt.sticky evRngFail = true) ∧ b.pra = d.pra := by
  have row : doRngHealthWindow false d = if (report (d.modDst Dst.windowFailed) evRngFail []).phase.fwRuns = true
      then selfTestLive (report (d.modDst Dst.windowFailed) evRngFail []) 5 false
      else report (d.modDst Dst.windowFailed) evRngFail [] := by
    rw [doRngHealthWindow, if_neg (by simp [runs])]
    rfl
  obtain ⟨dst, pra, spares⟩ := rngTested (d := report (d.modDst Dst.windowFailed) evRngFail [])
    ((report (d.modDst Dst.windowFailed) evRngFail []).phase.fwRuns = true) false
  rw [row]
  exact ⟨dst.trans (report_dst ..), fun fw => spares.sticky (report_sticky _ _ _ fw), pra.trans (report_pra ..)⟩

theorem windowPassed_rngOk (x : Dst) : x.windowPassed.rngOk = (x.rngOk || decide (1024 ≤ x.rngPass + 1)) := by
  have enough : (min 1024 (x.rngPass + 1) == 1024) = decide (1024 ≤ x.rngPass + 1) := by
    rw [Bool.eq_iff_iff]
    simp
  exact congrArg (x.rngOk || ·) enough

/-! ## The statement -/

/-- Settles O37: KEY_LOAD's record is in force by one commit (`doKeyLoad_commits`), an erasure leaves neither half
(`eraseSkein_keys`), and a re-mask puts one mask over both shares of every key (`doKeyRemask_keys`). -/
theorem keyCommands : Obligations.KeyCommands := by
  unfold Obligations.KeyCommands
  intro s dt th t e turn
  refine ⟨fun ⟨first, free⟩ k w x a g l r => ⟨fun st u rd v n refused => gives_run rfl ?_,
      fun passed wraps may token len some_ => gives_run rfl ?_⟩,
    fun first k a r => ⟨fun operator good type lowers => gives_run rfl (doKeyAttr_lowers first r operator good type lowers),
      fun operator good type raises => gives_run rfl ?_⟩,
    fun ⟨first, free⟩ k r operator rng token => gives_run rfl (doKeyErase_erased first free r operator rng token),
    fun first k y r operator held => gives_run rfl ?_,
    fun l v f r free => ⟨fun u no => gives_run rfl ?_,
      fun step token => gives_run rfl (doLifecycleSet_stepped free r f step token)⟩,
    fun rng runs => gives_run rfl ?_,
    fun runs => ⟨gives_run rfl ?_, gives_run rfl ?_⟩⟩
  · rw [doKeyLoad_refused first free r u rd v n refused]
    exact ⟨r.praDue.ends rfl _ _, finish_pra .., (finish_dst ..).trans (starts_dst ..)⟩
  · obtain ⟨spares, pra, ended⟩ := doKeyLoad_commits first free r passed wraps may token len some_
    have code : (e.starts th t).spareHalf k = if commitHalf (e.pra.word (commitWord k)) = 1 then 2 else 1 := by
      rw [Dev.spareHalf, starts_word]
    rw [← code, pra]
    exact ⟨keyCommitted_word .., fun n other => (keyCommitted_word_other _ _ _ other).trans (starts_word ..),
      (spares.halfOf ..).trans (keyCommitted_halfOf ..),
      (congrArg _ (congrArg (kfind · k) spares.skeins)).trans (keyCommitted_skein ..), ended,
      spares.sticky (keyCommitted_sticky _ _ _ (by rw [starts_phase, r.1]; rfl))⟩
  · rw [doKeyAttr_raises first r operator good type raises]
    obtain ⟨ended, dst, -⟩ := ended_refused r .attr
    exact ⟨ended, dst⟩
  · rw [doKeyInfo_held first r operator held]
    exact ⟨finish_pra .., finish_dst .., r.ends rfl _ _⟩
  · rw [doLifecycleSet_refused free r v f u no]
    obtain ⟨ended, -, pra⟩ := ended_refused r .state
    exact ⟨ended, pra⟩
  · refine ⟨(doKeyRemask_only e rfl (.refl _ _)).eq_free_dst, fun k y operator held short same => ?_,
      fun k root short same => ?_, ?_⟩
    · have holds : SkeinHolds e k (skeinKey e k) := ⟨y, held, short, same, by simp [skeinKey, Nat.not_lt.2 operator, held]⟩
      exact skeinKey_of_holds operator ((doKeyRemask_keys rng runs k _).1 holds)
    · have holds : RootHolds e k (skeinKey e k) := ⟨short, same, by simp [skeinKey, root]⟩
      exact skeinKey_of_root root ((doKeyRemask_keys rng runs k _).2.1 holds)
    · exact (doKeyRemask_keys rng runs 0 []).2.2
  · obtain ⟨dst, pra⟩ := doRngHealthWindow_pass runs
    exact ⟨congrArg Dst.rngPass dst, (congrArg Dst.rngOk dst).trans (windowPassed_rngOk _), pra⟩
  · obtain ⟨dst, sticky, pra⟩ := doRngHealthWindow_fail runs
    exact ⟨congrArg Dst.rngPass dst, congrArg Dst.rngOk dst, sticky, pra⟩

end Sys2Proof.Machine
end


section
/-! PROOFS. The service port (O39). -/

namespace Sys2Proof.Machine

/-- The two outputs of a response (R335). -/
def svcOut (type : Nat) (seq : BitVec 8) (st : Status) (l : List Byte) : List Output :=
  [.sealed .serial (svcFrame type seq st l), .svc (type + 0x80) seq st l]

@[simp] theorem svcReply_out (d : Dev) (type : Nat) (seq : BitVec 8) (st : Status) (l : List Byte) :
    (svcReply d type seq st l).out = d.out ++ svcOut type seq st l := List.append_assoc ..

/-- The device once a valid frame has come: a rate just set stands (R335). -/
def Dev.heard (d : Dev) : Dev := d.modImg (fun i => { i with baudUntil := none })

section
variable {d : Dev} {type : Nat} {seq : BitVec 8} {rom firmware : Bool} {f : Dev → Dev}

/-- A new request is run where the present mode serves its TYPE. -/
theorem svcRequest_new (served : svcServed d = true) (new : NewRequest d type seq)
    (mode : (if d.phase = .recovery then rom else firmware) = true) : svcRequest d type seq rom firmware f = f d.heard := by
  have run : (if (if d.heard.phase = .recovery then rom else firmware) then f d.heard
      else svcReply d.heard type seq .unknownOp []) = f d.heard := if_pos mode
  simp only [svcRequest, if_neg (Bool.eq_false_iff.not_left.2 served)]
  split
  next t s st l prev =>
    rw [if_neg fun ⟨ht, hs⟩ => new (st, l) (by rw [← ht, ← hs]; exact prev)]
    exact run
  next => exact run

/-- A request that repeats the one before has that one's response again. -/
theorem svcRequest_repeat {st : Status} {l : List Byte} (served : svcServed d = true)
    (prev : d.img.prev = some (type, seq, st, l)) : svcRequest d type seq rom firmware f = svcSend d.heard type seq st l := by
  have prev' : d.heard.img.prev = some (type, seq, st, l) := prev
  simp only [svcRequest, if_neg (Bool.eq_false_iff.not_left.2 served)]
  rw [Dev.heard] at prev'
  rw [prev']
  exact if_pos ⟨rfl, rfl⟩

end

@[simp] theorem Dev.heard_phase (d : Dev) : d.heard.phase = d.phase := rfl
@[simp] theorem Dev.heard_pra (d : Dev) : d.heard.pra = d.pra := rfl

theorem Phase.fwRuns_not_recovery {p : Phase} (h : p.fwRuns = true) : p ≠ .recovery := by
  rintro rfl
  exact absurd h (by decide)

/-- A quote with room, a sound noise source and a key that may sign is signed and answered (R319). -/
theorem answerQuote_answered {d : Dev} {master : Nat} {seq : BitVec 8} {nonce : BitVec 256} (rng : d.dst.rngOk = true)
    (room : quoteRoom d = true) (may : (invoke d 1 master useSign).1 = true) :
    answerQuote master d (none, seq, nonce) = svcReply (quoteStamp d) 5 seq .ok
      (quoteBody d nonce ++ octets 96 (quoteSig d (quoteBody d nonce)).toNat) := by
  simp only [answerQuote, if_neg (Bool.eq_false_iff.not_left.2 rng), room, if_true, invoke_allowed may]
  rfl

/-- A quote asked of the service port in recovery mode, or after START_HOLD, is answered at once. -/
theorem doQuote_answered {d : Dev} {seq : BitVec 8} {nonce : BitVec 256} (served : svcServed d = true)
    (new : NewRequest d 5 seq) (mode : d.phase = .up ∨ d.phase = .recovery) (rng : d.dst.rngOk = true)
    (room : quoteRoom d = true)
    (may : (invoke d 1 (if d.phase = .recovery then masterRom else masterCcp) useSign).1 = true) :
    doQuote seq nonce d = svcReply (quoteStamp d.heard) 5 seq .ok
      (quoteBody d nonce ++ octets 96 (quoteSig d (quoteBody d nonce)).toNat) := by
  have asked : doQuote seq nonce d = answerQuote (if d.phase = .recovery then masterRom else masterCcp) d.heard
      (none, seq, nonce) := by
    rw [doQuote, svcRequest_new served new (by split <;> rfl), Dev.heard_phase]
    obtain up | recovery := mode
    · rw [if_neg (by simp [up]), if_pos up, if_neg (by simp [up])]
    · rw [if_pos recovery, if_pos recovery]
  rw [asked]
  exact answerQuote_answered (d := d.heard) rng room ((invoke_of_keys (a := d) (b := d.heard) rfl rfl ..).trans may)

/-- Settles O39: a request is new, and its own meaning runs (`svcRequest_new`), or repeats the one before
(`svcRequest_repeat`). -/
theorem servicePort : Obligations.ServicePort := by
  unfold Obligations.ServicePort
  intro s dt seq e q ans served
  have silent : e.out = [] := rfl
  refine ⟨fun new => gives_run rfl ?_, fun st l prev => gives_run rfl ?_,
    fun rate new => ⟨fun known => gives_run rfl ?_, fun other => gives_run rfl ?_⟩, fun k due past => gives_run rfl ?_,
    fun fw a n new lo hi => gives_run rfl ?_,
    fun fw a v new => ⟨fun deployed => gives_run rfl ?_, fun early volatile => gives_run rfl ?_,
      fun w early persistent => gives_run rfl ?_⟩,
    fun nonce new mode rng room may => gives_run rfl ?_, gives_run rfl rfl⟩
  · rw [doHello, svcRequest_new served new (by split <;> rfl)]
    exact ⟨rfl, svcReply_out ..⟩
  · rw [doHello, svcRequest_repeat served prev]
    rfl
  · rw [doSetBaud, svcRequest_new served new (by split <;> rfl), if_pos (by simpa using known)]
    exact ⟨rfl, rfl, svcReply_out ..⟩
  · rw [doSetBaud, svcRequest_new served new (by split <;> rfl), if_neg (by simpa using other)]
    exact ⟨rfl, svcReply_out ..⟩
  · simp only [doSetBaudRevert]
    rw [due]
    exact if_pos past
  · rw [doSvcRegRead, svcRequest_new served new (if_neg (Phase.fwRuns_not_recovery fw)), if_neg (by omega)]
    have only := readRun_only q a n rfl (.refl [.start, .evt] _)
    have out : (readRun q a n).2.out = [] := only.same .out (by decide)
    exact ⟨(svcReply_out ..).trans (congrArg (· ++ ans 3 .ok (readRun q a n).1) out),
      only.same .whl (by decide), only.same .spn (by decide), only.same .wrp (by decide), only.same .pra (by decide)⟩
  · rw [doSvcRegWrite, svcRequest_new served new (if_neg (Phase.fwRuns_not_recovery fw)), Dev.heard_pra, if_pos deployed]
    exact ⟨svcReply_out .., rfl, rfl, rfl, rfl⟩
  · rw [doSvcRegWrite, svcRequest_new served new (if_neg (Phase.fwRuns_not_recovery fw)), Dev.heard_pra,
      if_neg (Nat.not_le.2 early), volatile]
    exact ⟨svcReply_out .., rfl, rfl, rfl⟩
  · rw [doSvcRegWrite, svcRequest_new served new (if_neg (Phase.fwRuns_not_recovery fw)), Dev.heard_pra,
      if_neg (Nat.not_le.2 early), persistent]
    exact ⟨rfl, rfl⟩
  · rw [doQuote_answered served new mode rng room may]
    exact ⟨svcReply_out .., rfl⟩

end Sys2Proof.Machine
end


section
/-! PROOFS. Recovery mode (O40). -/

namespace Sys2Proof.Machine

/-! ## Writes of the ROM that find a token (R56) -/

theorem praWait_pair (d : Dev) (n : Nat) (v : Word) : praWait d n v true = ((praWait d n v true).1, .ok) :=
  Prod.ext rfl (praWait_status_ok ..)

section
variable {d : Dev} {n : Nat} (v : Word) (token : 0 < (praDue d).pra.tokens n)
include token

theorem praWait_of_token : praWait d n v true = praFinish (praDue d) n v true := by
  simp only [praWait, if_neg (Nat.pos_iff_ne_zero.1 token)]

theorem praWait_glb_of_token : (praWait d n v true).1.glb = d.glb := by
  rw [praWait_of_token v token, praFinish_glb, praDue_glb]

/-- The other buckets are as they were: no refill falls due within the step. -/
theorem praWait_tokens_other {m : Nat} (other : n ≠ m) :
    (praDue (praWait d n v true).1).pra.tokens m = (praDue d).pra.tokens m := by
  have current : (praWait d n v true).1.pra.refillsDue (praWait d n v true).1.glb.upNs = 0 := by
    rw [praWait_glb_of_token v token, praWait_of_token v token]
    refine .trans ?_ (praDue_refillsDue d)
    rw [praFinish_pra]
    rfl
  rw [praDue_current current, praWait_of_token v token, praFinish_tokens_other _ _ _ other]

end

/-! ## The image received -/

/-- A reset falls due 100 ms from now (R336). -/
def Dev.resetDue (d : Dev) : Dev := d.modImg (fun i => { i with recReset := some (d.glb.upNs + 100000000) })

/-- PRA_BANK that selects the inactive bank on trial (R336). -/
def Pra.trialWord (p : Pra) : Word :=
  bankWord true (1 - p.activeBank == 1 || p.bankValid 1) (1 - p.activeBank == 0 || p.bankValid 0) (1 - p.activeBank) p.floor

/-- The bank selected on trial, and the boot counts cleared (R336). -/
def Dev.trialSelected (d : Dev) : Dev :=
  let a := (praWait d 3 d.pra.trialWord true).1
  (praWait a 2 (bootWord (fld (a.pra.word 2) 31 8) false 0) true).1

theorem acceptImage_other {r : Reel} (d : Dev) (ok : Bool) (other : r.kind ≠ 1) :
    acceptImage d r ok = ((extendMd6 d r.digest).resetDue, .ok) := by
  simp only [acceptImage, if_neg other]
  rfl

section
variable {d : Dev} (bank : 0 < (praDue d).pra.tokens 3) (boot : 0 < (praDue d).pra.tokens 2)
include bank boot

theorem trialSelected_glb : d.trialSelected.glb = d.glb := by
  have token := (praWait_tokens_other d.pra.trialWord bank (m := 2) (by decide)).symm ▸ boot
  rw [Dev.trialSelected, praWait_glb_of_token _ token, praWait_glb_of_token _ bank]

/-- A FIRMWARE image is accepted: its bank is on trial and the boot counts are clear, without a wait (R336). -/
theorem acceptImage_firmware {r : Reel} (firmware : r.kind = 1) : ∃ a : Dev, acceptImage d r true = (a.resetDue, .ok)
    ∧ a.img = d.img ∧ a.out = d.out ∧ a.glb = d.glb ∧ a.pra.word 3 = d.pra.trialWord
    ∧ a.pra.word 2 = bootWord (fld (d.pra.word 2) 31 8) false 0 := by
  have selects : acceptImage d r true = ((extendMd6 d r.digest).trialSelected.resetDue, .ok) := by
    have word : bankWord true (1 - d.pra.activeBank == 1 || d.pra.bankValid 1) (1 - d.pra.activeBank == 0 || d.pra.bankValid 0)
        (1 - d.pra.activeBank) d.pra.floor = (extendMd6 d r.digest).pra.trialWord := rfl
    simp only [acceptImage, if_pos firmware]
    rw [show (extendMd6 d r.digest).pra = d.pra from rfl, word, praWait_pair]
    dsimp only
    rw [praWait_pair]
    rfl
  have same := praDue_tokens_congr (a := extendMd6 d r.digest) (b := d) rfl rfl rfl
  refine ⟨_, selects, ?_, ?_, trialSelected_glb (same 3 ▸ bank) (same 2 ▸ boot), ?_, ?_⟩
  · simp only [Dev.trialSelected, praWait_img]
    rfl
  · simp only [Dev.trialSelected, praWait_out]
    rfl
  · rw [Dev.trialSelected, praWait_word_other _ _ _ _ _ (by decide), praWait_word_same]
    rfl
  · rw [Dev.trialSelected, praWait_word_same, praWait_word_other _ _ _ _ _ (by decide)]
    rfl

end

/-! ## Requests in recovery mode -/

section
variable {d : Dev} {seq : BitVec 8}

theorem svcServed_recovery (recovery : d.phase = .recovery) (read : d.pwr.vsd33 = false) : svcServed d = true := by
  simp [svcServed, recovery, read]

/-- A request that recovery mode serves is run on the device that has heard it. -/
theorem svcRequest_recovery {type : Nat} {f : Dev → Dev} (recovery : d.phase = .recovery) (read : d.pwr.vsd33 = false)
    (new : NewRequest d type seq) : svcRequest d type seq true false f = f d.heard :=
  svcRequest_new (svcServed_recovery recovery read) new (if_pos recovery)

section
variable {x : Transfer} {off n : Nat} (recovery : d.phase = .recovery) (read : d.pwr.vsd33 = false)
  (new : NewRequest d 0x11 seq) (begun : d.img.xfer = some x) (lo : 1 ≤ n) (hi : n ≤ 4092) (next : off = x.got)
  (fits : x.got + n ≤ x.size) (head : Reel) (b f v : Bool)
include recovery read new begun lo hi next fits

/-- Data in order, of the length allowed, go by where they end (R336). -/
theorem doImgData_inOrder : doImgData seq off n head b f v d =
    if (x.got + n) / 65536 = x.got / 65536 then
      svcReply (d.heard.modImg (fun i => { i with xfer := some { x with got := x.got + n } })) 0x11 seq .ok []
    else if flashSupply d = false then d.heard
    else if x.got < 65536 then takeHead d.heard seq { x with got := x.got + n } head f v
    else if b = false then failTransfer d.heard 0x11 seq .reelBlock
    else if f = false then failTransfer d.heard 0x11 seq .flash
    else svcReply (d.heard.modImg (fun i => { i with xfer := some { x with got := x.got + n } })) 0x11 seq .ok [] := by
  have begun' : d.heard.img.xfer = some x := begun
  rw [doImgData, svcRequest_recovery recovery read new, begun']
  exact if_neg (by omega)

end

theorem flashSupply_of (supply : 40000 ≤ d.pwr.vhold) : flashSupply d = true := decide_eq_true supply

theorem clearInactive_pair (d : Dev) (r : Reel) : clearInactive d r true = ((clearInactive d r true).1, .ok) := by
  unfold clearInactive
  split
  · exact praWait_pair ..
  · rfl

theorem clearInactive_out (d : Dev) (r : Reel) : (clearInactive d r true).1.out = d.out := by
  unfold clearInactive
  split
  · exact praWait_out ..
  · rfl

theorem clearInactive_bank (d : Dev) (r : Reel) : (clearInactive d r true).1.pra.word 3 =
    if r.kind = 1 then bankWithValid d.pra (1 - d.pra.activeBank) false else d.pra.word 3 := by
  unfold clearInactive
  split
  · exact praWait_word_same ..
  · rfl

/-- A good head of the transfer's length is taken (R336). -/
theorem takeHead_taken {x : Transfer} {head : Reel} (good : headRefused d.pra.floor head = none)
    (long : x.size = (1 + head.nblk) * 65536) : takeHead d seq x head true true =
      svcReply ((clearInactive d head true).1.modImg (fun i => { i with xfer := some { x with reel := some head } }))
        0x11 seq .ok [] := by
  unfold takeHead
  rw [good]
  dsimp only
  rw [if_neg (fun h => h long), clearInactive_pair]
  dsimp only
  rw [if_pos rfl]

/-- IMG_END of a whole image that passes every check (R336). -/
theorem doImgEnd_accepted {size : Nat} {r : Reel} (recovery : d.phase = .recovery) (read : d.pwr.vsd33 = false)
    (new : NewRequest d 0x12 seq) (whole : d.img.xfer = some { size := size, got := size, reel := some r }) :
    doImgEnd seq true true true d =
      svcReply (acceptImage (endTransfer d.heard) r true).1 0x12 seq (acceptImage (endTransfer d.heard) r true).2 [] := by
  have whole' : d.heard.img.xfer = some { size := size, got := size, reel := some r } := whole
  rw [doImgEnd, svcRequest_recovery recovery read new, whole']
  dsimp only
  rw [if_neg (fun h => h rfl), if_neg (by decide), if_neg (by decide)]

/-- The reset that falls due comes, unless RECOVERY_N is low (R336). -/
theorem doRecoveryReset_due {k : Nat} (due : d.img.recReset = some k) (past : k ≤ d.glb.upNs) (low : Bool) :
    doRecoveryReset low d =
      if low then (d.modPwr (fun p => { p with recoveryLow := low })).modImg (fun i => { i with recReset := none })
      else controlReset (d.modPwr (fun p => { p with recoveryLow := low })) 9 := by
  unfold doRecoveryReset
  rw [due]
  exact if_pos past

/-- The card is read, and the reel on it taken where there is one (R334). -/
theorem doRecoveryCardRead_none {card : Card} (v : Bool) (recovery : d.phase = .recovery) (unread : d.pwr.vsd33 = true)
    (none_ : cardReel d.pra.floor card = none) : doRecoveryCardRead card v d =
      (d.modImg (fun i => { i with media := cardAnswers card })).modPwr (fun p => { p with vsd33 := false }) := by
  simp only [doRecoveryCardRead, recovery, unread, and_self, if_true]
  rw [show (d.modImg (fun i => { i with media := cardAnswers card })).pra = d.pra from rfl, none_]

theorem doRecoveryCardRead_loader {card : Card} {r : Reel} (v : Bool) (recovery : d.phase = .recovery)
    (unread : d.pwr.vsd33 = true) (some_ : cardReel d.pra.floor card = some r) (loader : r.kind ≠ 1)
    (supply : 40000 ≤ d.pwr.vhold) : doRecoveryCardRead card v d =
      (extendMd6 (d.modImg (fun i => { i with media := cardAnswers card })) r.digest).resetDue.modPwr
        (fun p => { p with vsd33 := false }) := by
  simp only [doRecoveryCardRead, recovery, unread, and_self, if_true]
  rw [show (d.modImg (fun i => { i with media := cardAnswers card })).pra = d.pra from rfl, some_]
  simp only [clearInactive, if_neg loader, acceptImage_other _ _ loader]
  exact if_pos (flashSupply_of (d := d) supply)

end

/-- Settles O40: data in order are taken by where they end (`doImgData_inOrder`), and a FIRMWARE image is selected by two
writes that find their tokens (`acceptImage_firmware`). -/
theorem recoveryMode : Obligations.RecoveryMode := by
  unfold Obligations.RecoveryMode
  intro s dt seq e ans recovery
  have kept : Kept e e := ⟨rfl, rfl, rfl, rfl, rfl, rfl, rfl, rfl, rfl⟩
  refine ⟨fun read => ⟨fun size new => gives_run rfl ?_, fun x off n head b f v new begun lo hi next fits =>
      ⟨fun within => gives_run rfl ?_, fun ends supply first good long token => gives_run rfl ?_,
        fun ends supply later => gives_run rfl ?_⟩, fun size r new whole tokens => gives_run rfl ?_⟩,
    fun k due past => ⟨gives_run rfl ?_, gives_run rfl ?_⟩,
    fun unread => ⟨fun card v none_ => gives_run rfl ?_, fun card r v some_ loader supply => gives_run rfl ?_⟩⟩
  · rw [doImgBegin, svcRequest_recovery recovery read new]
    exact ⟨rfl, svcReply_out .., rfl⟩
  · rw [doImgData_inOrder recovery read new begun lo hi next fits, if_pos within]
    exact ⟨rfl, svcReply_out .., rfl⟩
  · rw [doImgData_inOrder recovery read new begun lo hi next fits, if_neg ends, if_neg (by simp [flashSupply_of supply]),
      if_pos first, takeHead_taken (d := e.heard) (x := { x with got := x.got + n }) good long]
    refine ⟨rfl, (svcReply_out ..).trans (congrArg (· ++ ans 0x11 .ok) (clearInactive_out ..)), clearInactive_bank ..⟩
  · rw [doImgData_inOrder recovery read new begun lo hi next fits, if_neg ends, if_neg (by simp [flashSupply_of supply]),
      if_neg (Nat.not_lt.2 later), if_pos rfl]
    exact ⟨rfl, svcReply_out .., rfl⟩
  · rw [doImgEnd_accepted recovery read new whole]
    by_cases firmware : r.kind = 1
    · obtain ⟨bank, boot⟩ := tokens firmware
      have same := praDue_tokens_congr (a := endTransfer e.heard) (b := e) rfl rfl rfl
      obtain ⟨a, accept, img, out, glb, w3, w2⟩ := acceptImage_firmware ((same 3).symm ▸ bank) ((same 2).symm ▸ boot) firmware
      rw [accept]
      exact ⟨congrArg Img.xfer img, (svcReply_out ..).trans (congrArg (· ++ ans 0x12 .ok) out),
        congrArg (fun g : Glb => some (g.upNs + 100000000)) glb, fun _ => ⟨w3, w2⟩, fun h => absurd firmware h⟩
    · rw [acceptImage_other _ _ firmware]
      exact ⟨rfl, svcReply_out .., rfl, fun h => absurd h firmware, fun _ => rfl⟩
  · rw [doRecoveryReset_due due past false]
    exact ⟨rfl, rfl, kept.fresh ..⟩
  · rw [doRecoveryReset_due due past true]
    exact ⟨recovery, rfl, rfl⟩
  · rw [doRecoveryCardRead_none v recovery unread none_]
    exact ⟨rfl, rfl, rfl⟩
  · rw [doRecoveryCardRead_loader v recovery unread some_ loader supply]
    exact ⟨rfl, rfl, rfl⟩

end Sys2Proof.Machine
end


section
/-! PROOFS. What the end of a cell and a change of the power state leave: a thread that nothing on a spindle waits for, the
whorl but its launches, and global control (O36, O38, O13). -/

namespace Sys2Proof.Machine

/-! ## What the end of a thread leaves of the image block -/

/-- The image block without the activations that wait. -/
def Img.unacted (i : Img) : Img := { i with act := [] }

theorem markDone_unacted (d : Dev) (th : Nat) (st : Status) (res : List Byte) :
    (markDone d th st res).img.unacted = d.img.unacted := by
  unfold markDone; split
  · rfl
  · split <;> rfl

theorem settleFence_unacted (d : Dev) (th : Nat) : (settleFence d th).img.unacted = d.img.unacted := by
  unfold settleFence; split
  · rfl
  · split
    · split
      · refine (markDone_unacted ..).trans ?_
        split <;> rfl
      · rfl
    · rfl

theorem finish_unacted (d : Dev) (th : Nat) (st : Status) (res : List Byte) :
    (finish d th st res).img.unacted = d.img.unacted :=
  (each_keeps (fun e : Dev => e.img.unacted) settleFence_unacted).trans (markDone_unacted ..)

/-! ## A thread that nothing on a spindle waits for -/

/-- Nothing that waits on a spindle is thread `th`'s. -/
def Spn.Frees (s : Spn) (th : Nat) : Prop := (∀ p, s.holdPend = some p → p.1 ≠ th) ∧ (∀ p, s.oosPend = some p → p.2 ≠ th)

theorem Spn.Frees.of_eq {s u : Spn} {th : Nat} (h : s.Frees th) (hold : u.holdPend = s.holdPend)
    (oos : u.oosPend = s.oosPend) : u.Frees th := by
  rwa [Spn.Frees, hold, oos]

/-- TEST or BYPASS taken leaves the hold that waits. -/
theorem takeOos_holdPend (d : Dev) (n : Fin 4) : ((takeOos d n).spn.get n).holdPend = (d.spn.get n).holdPend := by
  have taken (o : OutOfService) : Spares Spn.holdPend n d (oosTaken d n o) := .modSpn d rfl
  rcases h : (d.spn.get n).oosPend with _ | ⟨o, th⟩
  · simp only [takeOos, h]
  · cases o with
    | none => rw [takeOos, h]; exact (taken .none).same
    | test =>
      rw [takeOos_test h]
      exact Spares.same (.trans (((taken .test).trans ((Spares.truncateAll _ n).view Spn.holdPend rfl)).trans (.report ..))
        (.modSpn _ (Spn.leaveRx_reads Spn.holdPend _ rfl)))
    | bypass =>
      rw [takeOos_bypass h]
      exact Spares.same (.trans (.trans ((taken .bypass).trans (.trans (.modSpn _ rfl) (.report ..)))
        ((Spares.actTarget _ n).view Spn.holdPend rfl)) (.finish ..))

theorem actTarget_ccp (d : Dev) (n : Fin 4) : (actTarget d n).ccp = d.ccp :=
  (actTarget_only d n (l_ := [.free, .start, .evt, .spn, .wrp, .ply, .bob]) rfl (.refl _ _)).same .ccp (by decide)

theorem truncateAll_ccp (d : Dev) (n : Fin 4) : (truncateAll d n).ccp = d.ccp :=
  (truncateAll_only d n (l_ := [.start, .evt, .spn, .bob]) rfl (.refl _ _)).same .ccp (by decide)

theorem thread?_of_ccp {a b : Dev} (h : b.ccp = a.ccp) (th : Nat) : b.thread? th = a.thread? th :=
  congrArg (fun c : Ccp => kfind c.threads th) h

section
variable {d : Dev} {th : Nat} {t : Thread} (unfenced : t.st ≠ .fenced)
include unfenced

theorem takeOos_thread {n : Fin 4} (free : (d.spn.get n).Frees th) (found : d.thread? th = some t) :
    (takeOos d n).thread? th = some t := by
  obtain ⟨-, other⟩ := free
  rcases h : (d.spn.get n).oosPend with _ | ⟨o, k⟩
  · simpa only [takeOos, h] using found
  · cases o with
    | none => rw [takeOos, h]; exact found
    | test =>
      rw [takeOos_test h]
      refine (thread?_of_ccp ?_ th).trans found
      exact (report_ccp ..).trans (truncateAll_ccp ..)
    | bypass =>
      rw [takeOos_bypass h]
      refine finish_thread?_other _ _ (other _ h) ((thread?_of_ccp ?_ th).trans found) unfenced
      exact (actTarget_ccp ..).trans (report_ccp ..)

theorem endOfCell_thread {n : Fin 4} (free : (d.spn.get n).Frees th) (found : d.thread? th = some t) :
    (endOfCell d n).thread? th = some t := by
  have freeLaid : ((laidOut d n).spn.get n).Frees th := 
    free.of_eq (Spn.reads (laidOut_asked d n) Spn.holdPend rfl) (Spn.reads (laidOut_asked d n) Spn.oosPend rfl)
  have laid : (laidOut d n).thread? th = some t := (thread?_of_ccp (actTarget_ccp d n) th).trans found
  have taken := takeOos_thread unfenced freeLaid laid
  rw [endOfCell_eq]
  split
  next k dur hold =>
    have other : k ≠ th := freeLaid.1 _ ((takeOos_holdPend ..).symm.trans hold)
    rw [holdOn_eq]
    refine finish_thread?_other _ _ other ((thread?_of_ccp ?_ th).trans taken) unfenced
    exact (report_ccp ..).trans (truncateAll_ccp ..)
  next => exact taken

theorem atEndOfCell_thread {n : Fin 4} (free : (d.spn.get n).Frees th) (found : d.thread? th = some t) :
    (atEndOfCell d n).thread? th = some t := by
  unfold atEndOfCell; split
  · exact found
  · exact endOfCell_thread unfenced free found

/-- The ends of the cells of different spindles leave a thread that none of them waits for. -/
theorem each_atEndOfCell_thread {l : List (Fin 4)} (nodup : l.Nodup) (free : ∀ n ∈ l, (d.spn.get n).Frees th)
    (found : d.thread? th = some t) : (each l atEndOfCell d).thread? th = some t := by
  induction l generalizing d with
  | nil => exact found
  | cons n l ih =>
    obtain ⟨out, nodup⟩ := List.nodup_cons.1 nodup
    refine ih nodup (fun m mem => ?_) (atEndOfCell_thread unfenced (free n (by simp)) found)
    rw [atEndOfCell_others d (by rintro rfl; exact out mem)]
    exact free m (by simp [mem])

end

/-! ## A change of the power state (R342) -/

/-- The device with the record of its trips cleared (R345). -/
def Dev.untripped (d : Dev) : Dev := d.modGlb fun g => { g with tripped := false, tripInput := false, tripThermal := false }

/-- What LISTEN gives up of spindle `n`: a transmission that has not its grant. -/
def dropUnstarted (d : Dev) (n : Fin 4) : Dev :=
  match (d.spn.get n).tx with
  | some t => if t.granted then d else dropTx d n .uncounted
  | none => d

/-- The role that a power state leaves. -/
def roleFollows (new : Nat) (d : Dev) : Dev :=
  if new = 1 then setRole d .hold false else if d.ply.role = .hold then setRole d .spare false else d

/-- The report of a change of the power state, and what LISTEN gives up. -/
def powerReported (d : Dev) (new cause : Nat) : Dev :=
  let a := report (d.modGlb fun g => { g with power := new }) evPowerChange
    (octets 1 d.glb.power ++ octets 1 new ++ octets 1 cause)
  if new = 2 then each spindles dropUnstarted a else a

theorem changePower_eq (d : Dev) (new cause : Nat) : changePower d new cause =
    if d.glb.power = new then d else roleFollows new (each spindles atEndOfCell (powerReported d new cause)) := by
  unfold changePower powerReported roleFollows
  split
  · rfl
  · rfl

theorem Spares.dropUnstarted (d : Dev) (n : Fin 4) : Spares Spn.asked n d (Machine.dropUnstarted d n) := by
  unfold Machine.dropUnstarted; split
  · split
    · exact .refl d
    · exact .dropTx ..
  · exact .refl d

theorem dropUnstarted_only (d : Dev) (n : Fin 4) : Only [.start, .evt, .spn, .wrp, .ply] d (dropUnstarted d n) := by
  unfold dropUnstarted; split
  · split
    · exact .refl _ d
    · exact dropTx_only d n .uncounted rfl (.refl _ _)
  · exact .refl _ d

theorem roleFollows_only (new : Nat) (d : Dev) :
    Only [.out, .start, .evt, .wrp, .sht, .ply, .dst] d (roleFollows new d) := by
  unfold roleFollows; split
  · exact setRole_only d _ _ rfl (.refl _ _)
  · split
    · exact setRole_only d _ _ rfl (.refl _ _)
    · exact .refl _ d

theorem powerReported_only (d : Dev) (new cause : Nat) :
    Only [.start, .evt, .spn, .wrp, .ply] (d.modGlb fun g => { g with power := new }) (powerReported d new cause) := by
  have reported := report_only (d.modGlb fun g => { g with power := new }) evPowerChange
    (octets 1 d.glb.power ++ octets 1 new ++ octets 1 cause) (l_ := [.start, .evt, .spn, .wrp, .ply]) rfl (.refl _ _)
  exact .ite (.each reported dropUnstarted_only) reported

theorem dropUnstarted_asked (d : Dev) (n m : Fin 4) : ((dropUnstarted d n).spn.get m).asked = (d.spn.get m).asked := by
  by_cases other : m = n
  · rw [other]
    exact (Spares.dropUnstarted d n).same
  · rw [(Spares.dropUnstarted d n).others m other]

theorem powerReported_asked (d : Dev) (new cause : Nat) (m : Fin 4) :
    ((powerReported d new cause).spn.get m).asked = (d.spn.get m).asked := by
  have reported : (report (d.modGlb fun g => { g with power := new }) evPowerChange
      (octets 1 d.glb.power ++ octets 1 new ++ octets 1 cause)).spn = d.spn := report_spn ..
  have unasked : ((powerReported d new cause).spn.get m).asked = ((report (d.modGlb fun g => { g with power := new })
      evPowerChange (octets 1 d.glb.power ++ octets 1 new ++ octets 1 cause)).spn.get m).asked := by
    unfold powerReported; split
    · exact each_keeps (fun e : Dev => (e.spn.get m).asked) fun e n => dropUnstarted_asked e n m
    · rfl
  rw [unasked, reported]

/-- A thread that nothing on a spindle waits for goes on through a change of the power state. -/
theorem changePower_thread {d : Dev} {th : Nat} {t : Thread} (new cause : Nat) (unfenced : t.st ≠ .fenced)
    (untied : Untied d th) (found : d.thread? th = some t) : (changePower d new cause).thread? th = some t := by
  rw [changePower_eq]
  split
  · exact found
  · refine (thread?_of_ccp ((roleFollows_only new _).same .ccp (by decide)) th).trans ?_
    refine each_atEndOfCell_thread unfenced (by decide) (fun n _ => ?_)
      ((thread?_of_ccp ((powerReported_only d new cause).same .ccp (by decide)) th).trans found)
    have asked := powerReported_asked d new cause n
    exact Spn.Frees.of_eq (untied n) (Spn.reads asked Spn.holdPend rfl) (Spn.reads asked Spn.oosPend rfl)

theorem changePower_glb (d : Dev) (new cause : Nat) : (changePower d new cause).glb = { d.glb with power := new } := by
  rw [changePower_eq]
  split
  next same => rw [← same]
  next =>
    have cell (e : Dev) (n : Fin 4) : (atEndOfCell e n).glb = e.glb :=
      (atEndOfCell_only e n (l_ := [.free, .start, .evt, .whl, .spn, .wrp, .ccp, .ply, .img, .bob]) rfl (.refl _ _)).same
        .glb (by decide)
    exact ((roleFollows_only new _).same .glb (by decide)).trans
      ((each_keeps Dev.glb cell).trans ((powerReported_only d new cause).same .glb (by decide)))

theorem Launched.changePower (d : Dev) (new cause : Nat) : Launched d (Machine.changePower d new cause) := by
  rw [changePower_eq]
  have reported : Launched d (powerReported d new cause) := .of_whl ((powerReported_only d new cause).same .whl (by decide))
  refine .ite (.refl d) (reported.trans (.trans (.each fun e n => ?_) (.of_only (roleFollows_only new _) (by decide))))
  unfold Machine.atEndOfCell
  exact .ite (.refl e) (.endOfCell e n)

/-- What a change of the power state may change. -/
theorem changePower_changes (d : Dev) (new cause : Nat) :
    Only [.free, .out, .glb, .start, .evt, .whl, .spn, .wrp, .ccp, .sht, .ply, .dst, .img, .bob] d (changePower d new cause) :=
  changePower_only d new cause rfl (.refl _ _)

end Sys2Proof.Machine
end


section
/-! PROOFS. Images (O38): staging, activation, the owner lock and quotes. -/

namespace Sys2Proof.Machine

/-! ## The device's own writes that find a token (R56) -/

/-- Word `n` written by the device itself: refills are taken first (R54). -/
def Dev.ownWritten (d : Dev) (n : Nat) (v : Word) : Dev := (praFinish (praDue d) n v true).1

theorem praOwn_ok {d : Dev} {n : Nat} (v : Word) (token : 0 < (praDue d).pra.tokens n) :
    praOwn d n v true = (d.ownWritten n v, .ok) := praOwn_token v true token

section
variable (d : Dev) (n : Nat) (v : Word)

theorem ownWritten_word : (d.ownWritten n v).pra.word n = v := praFinish_ok_word ..

theorem ownWritten_word_other {m : Nat} (other : m ≠ n) : (d.ownWritten n v).pra.word m = d.pra.word m :=
  (praFinish_word_other _ _ _ _ _ other.symm).trans (praDue_word ..)

@[simp] theorem ownWritten_phase : (d.ownWritten n v).phase = d.phase := (praFinish_phase ..).trans (praDue_phase d)
@[simp] theorem ownWritten_ccp : (d.ownWritten n v).ccp = d.ccp := (praFinish_ccp ..).trans (praDue_ccp d)
@[simp] theorem ownWritten_glb : (d.ownWritten n v).glb = d.glb := (praFinish_glb ..).trans (praDue_glb d)
@[simp] theorem ownWritten_whl : (d.ownWritten n v).whl = d.whl := (praFinish_whl ..).trans (praDue_whl d)

end

/-! ## PRA_BANK (R326) -/

section
variable {p q : Pra} (same : p.word 3 = q.word 3)
include same

theorem floor_of_word : p.floor = q.floor := by rw [Pra.floor, same, Pra.floor]
theorem activeBank_of_word : p.activeBank = q.activeBank := by rw [Pra.activeBank, same, Pra.activeBank]
theorem bankValid_of_word (n : Nat) : p.bankValid n = q.bankValid n := by rw [Pra.bankValid, same, Pra.bankValid]

theorem bankWithValid_of_word (n : Nat) (v : Bool) : bankWithValid p n v = bankWithValid q n v := by
  simp only [bankWithValid, Pra.trial, floor_of_word same, activeBank_of_word same, bankValid_of_word same, same]

end

/-! ## The end of an image command (R338) -/

section
variable (d : Dev) (th : Nat) (st : Status) (res : List Byte)

@[simp] theorem imgFinish_evt : (imgFinish d th st res).evt = d.evt := finish_evt ..

theorem imgFinish_last : (imgFinish d th st res).img.last = st.num := congrArg Img.last (finish_unacted ..)
theorem imgFinish_stage : (imgFinish d th st res).img.stage = d.img.stage := (congrArg Img.stage (finish_unacted ..) :)
theorem imgFinish_actReset : (imgFinish d th st res).img.actReset = d.img.actReset :=
  (congrArg Img.actReset (finish_unacted ..) :)

end

/-- Where an image command has left its thread running, its end is the thread's. -/
theorem ReadyFor.imgEnds {d b : Dev} {th : Nat} {t : Thread} {c : Cmd} (r : ReadyFor d th t c)
    (same : b.ccp = (d.running th t).ccp) (st : Status) (res : List Byte) : EndedWith (imgFinish b th st res) th st res :=
  r.ends (b := b.modImg fun i => { i with last := st.num }) (congrArg Ccp.threads same) st res

/-! ## REEL_STAGE (R329) -/

/-- The device once it has seen whether the card answers. -/
def Dev.sawCard (d : Dev) (answers : Bool) : Dev := d.modImg fun i => { i with media := answers }

theorem starts_current (d : Dev) (th : Nat) (t : Thread) (answers : Bool) :
    praDue ((d.starts th t).sawCard answers) = (d.starts th t).sawCard answers :=
  praDue_current ((congrArg (fun g : Glb => (praDue d).pra.refillsDue g.upNs) (praDue_glb d)).trans (praDue_refillsDue d))

theorem stageBegin_ok (d : Dev) (th n : Nat) (r : Reel) : (stageBegin d th n r .ok).pra = d.pra
    ∧ (stageBegin d th n r .ok).img.stage = some { th := th, bank := n, reel := r, done := 0 }
    ∧ (stageBegin d th n r .ok).img.blocks = 0 := by
  simp only [stageBegin, if_true]
  exact ⟨rfl, rfl, rfl⟩

section
variable {d : Dev} {th : Nat} {t : Thread} {card : Card} (turn : imageTurn d th = true) (free : writeTurn d = true)
  (r : ReadyFor d th t .reelStage)
include turn free r

theorem doReelStage_refused {st : Status} (v : Bool) (no : stageRefused (praDue d) = some st) :
    doReelStage th card v d = imgFinish (d.starts th t) th st [] := by
  rw [doReelStage, if_neg (by simp [turn, free])]
  refine (runThread_ready (a := ()) _ r.praDue (by rfl)).trans ?_
  have no' : stageRefused ((praDue d).modThread th fun _ => t.begun) = some st := no
  simp only [no']
  rfl

/-- A reel that passes every check: VALID of the inactive bank is cleared, and the stage begins. -/
theorem doReelStage_begins {x : Reel} (may : stageRefused (praDue d) = none) (good : cardRefused d.pra.floor card = .inr x) :
    doReelStage th card true d = stageBegin (((d.starts th t).sawCard (cardAnswers card)).ownWritten 3
      (bankWithValid d.pra (1 - d.pra.activeBank) false)) th (1 - d.pra.activeBank) x .ok := by
  have word : ((d.starts th t).sawCard (cardAnswers card)).pra.word 3 = d.pra.word 3 := starts_word d th t 3
  have tokens : 2 ≤ (praDue d).pra.tokens 3 := by
    simp only [stageRefused] at may
    split_ifs at may
    omega
  have written := praOwn_ok (d := (d.starts th t).sawCard (cardAnswers card)) (n := 3)
    (bankWithValid d.pra (1 - d.pra.activeBank) false)
    (by rw [starts_current]; exact Nat.lt_of_lt_of_le (by decide) tokens)
  have may' : stageRefused (d.starts th t) = none := may
  have good' : cardRefused ((d.starts th t).sawCard (cardAnswers card)).pra.floor card = .inr x := by
    rw [floor_of_word word]; exact good
  rw [doReelStage, if_neg (by simp [turn, free])]
  refine (runThread_ready (a := ()) _ r.praDue (by rfl)).trans ?_
  rw [← bankWithValid_of_word word, ← activeBank_of_word word] at written ⊢
  simp only [Dev.starts, Dev.running, Dev.sawCard] at may' good' written ⊢
  simp only [may', good', written]

end

/-! ## REEL_STAGE_BLOCK (R329) -/

theorem refreshBanks_stage (d : Dev) : (refreshBanks d).img.stage = d.img.stage := by
  rcases h : d.start.reels with _ | ⟨r0, r1⟩
  · rw [refreshBanks, h]
  · rw [refreshBanks, h]
    dsimp only
    rw [Dev.modImg_img]

theorem refreshBanks_other (d : Dev) : Only [.img] d (refreshBanks d) := refreshBanks_only d rfl (.refl _ _)

/-- The result of a REEL_STAGE (R329). -/
def Stage.result (g : Stage) : List Byte :=
  octets 4 g.reel.version ++ octets 2 g.reel.svn ++ octets 1 g.bank ++ octets 1 0 ++ octets 8 g.reel.build

/-- The device once bank `g.bank` is VALID and the stage is over. -/
def Dev.stageOver (d : Dev) (g : Stage) : Dev :=
  refreshBanks ((d.ownWritten 3 (bankWithValid d.pra g.bank true)).modImg fun i => { i with stage := none, blocks := 0 })

section
variable {d : Dev} {g : Stage} {u : Thread}

theorem stageDone_done (token : 0 < (praDue d).pra.tokens 3) :
    stageDone d g true = imgFinish (report (d.stageOver g) evReelStaged []) g.th .ok g.result := by
  rw [stageDone, praOwn_ok _ token]
  rfl

theorem stageDone_ends (token : 0 < (praDue d).pra.tokens 3) (up : d.phase = .up) (found : d.thread? g.th = some u)
    (runs : u.st = .running) : let b := stageDone d g true
    b.img.stage = none ∧ b.pra.word 3 = bankWithValid d.pra g.bank true ∧ b.evt.sticky evReelStaged = true
      ∧ EndedWith b g.th .ok g.result := by
  have rest := refreshBanks_other ((d.ownWritten 3 (bankWithValid d.pra g.bank true)).modImg
    fun i => { i with stage := none, blocks := 0 })
  have phase : (d.stageOver g).phase = .up := (rest.same .phase (by decide)).trans ((ownWritten_phase ..).trans up)
  have ccp : (d.stageOver g).ccp = d.ccp := (rest.same .ccp (by decide)).trans (ownWritten_ccp ..)
  have word : (d.stageOver g).pra.word 3 = bankWithValid d.pra g.bank true :=
    (congrArg (Pra.word · 3) (rest.same .pra (by decide))).trans (ownWritten_word ..)
  have stage : (d.stageOver g).img.stage = none := refreshBanks_stage _
  rw [stageDone_done token]
  refine ⟨?_, ?_, ?_, finish_ended _ _ ((thread?_of_ccp (a := d) ?_ _).trans found) (by simp [runs])⟩
  · rw [imgFinish_stage, report_img, stage]
  · rw [imgFinish_pra, report_pra, word]
  · rw [imgFinish_evt]
    exact report_sticky _ _ _ (by rw [phase]; rfl)
  · exact (report_ccp ..).trans ccp

theorem stageFail_fails {st : Status} (stage : d.img.stage = some g) (found : d.thread? g.th = some u)
    (runs : u.st = .running) : let b := stageFail d st
    b.img.stage = none ∧ EndedWith b g.th st [] ∧ b.pra = d.pra := by
  have rest := refreshBanks_other (d.modImg fun i => { i with stage := none, blocks := 0, last := st.num })
  simp only [stageFail, stage]
  refine ⟨?_, finish_ended _ _ ((thread?_of_ccp (a := d) ?_ _).trans found) (by simp [runs]), ?_⟩
  · exact (congrArg Img.stage (finish_unacted ..) :).trans ((congrArg Img.stage (report_img ..)).trans (refreshBanks_stage _))
  · exact (report_ccp ..).trans (rest.same .ccp (by decide))
  · rw [finish_pra, report_pra]
    exact rest.same .pra (by decide)

/-- A block of the reel under way, once it is read (R329). -/
theorem doReelStageBlock_eq (stage : d.img.stage = some g) (up : d.phase = .up) (free : writeTurn d = true)
    (card block flash sig blocks v : Bool) : doReelStageBlock card block flash sig blocks v d =
    if card = false then stageFail (d.sawCard card) .noMedia
    else if block = false then stageFail (d.sawCard card) .reelBlock
    else if flash = false then stageFail (d.sawCard card) .flash
    else
      let a := (d.sawCard card).modImg fun i => { i with blocks := g.done + 1, stage := some { g with done := g.done + 1 } }
      if g.done + 1 < g.reel.nblk then a
      else if sig = false then stageFail a .reelSig
      else if blocks = false then stageFail a .reelBlock
      else stageDone a g v := by
  unfold doReelStageBlock
  rw [stage]
  exact if_neg (by simp [up, free])

end

/-! ## The activation (R331) -/

section
variable {d : Dev} {th bank : Nat} {t : Thread} {alone : Bool}

/-- The device in HOLD for the activation. -/
def Dev.inHold (d : Dev) : Dev := changePower d.untripped 1 1

theorem inHold_glb (d : Dev) :
    d.inHold.glb = { d.glb with power := 1, tripped := false, tripInput := false, tripThermal := false } := changePower_glb ..
theorem inHold_upNs (d : Dev) : d.inHold.glb.upNs = d.glb.upNs := (congrArg Glb.upNs (inHold_glb d) :)
theorem inHold_pra (d : Dev) : d.inHold.pra = d.pra := changePower_pra ..
theorem inHold_phase (d : Dev) : d.inHold.phase = d.phase := (changePower_changes _ 1 1).same .phase (by decide)
theorem inHold_launched (d : Dev) : Launched d d.inHold :=
  .trans (b := d.untripped) (.of_whl rfl) (.changePower ..)

/-- The device in HOLD with PRA_BANK written: bank `bank` is active and on trial. -/
def Dev.trialWritten (d : Dev) (bank : Nat) : Dev :=
  d.inHold.ownWritten 3 (bankWord true (d.inHold.pra.bankValid 1) (d.inHold.pra.bankValid 0) bank d.inHold.pra.floor)

/-- The device once the bank is on trial and the reset of the activation is due. -/
def Dev.onTrial (d : Dev) (bank : Nat) : Dev :=
  let a := d.trialWritten bank
  a.modImg fun i => { i with actReset := some (a.glb.upNs + 50000000 - (a.whl.time - a.whl.tickAt)) }

theorem activateNow_activates (serves : alone = true ∨ d.ply.partnered = false) (token : 0 < (praDue d).pra.tokens 3) :
    activateNow d th bank alone true = imgFinish (report (d.onTrial bank) evReelActivate []) th .ok [] := by
  have partner : ¬(alone = false ∧ d.ply.partnered ∧ partnerServes d = false) := by
    rintro ⟨no, partnered, -⟩
    simp [no, partnered] at serves
  have token' : 0 < (praDue d.inHold).pra.tokens 3 :=
    (praDue_tokens_congr (congrArg Pra.spent (inHold_pra d)) (congrArg Pra.refillAt (inHold_pra d)) (inHold_upNs d) 3).symm ▸ token
  have written := praOwn_ok (bankWord true (d.inHold.pra.bankValid 1) (d.inHold.pra.bankValid 0) bank d.inHold.pra.floor) token'
  simp only [Dev.inHold, Dev.untripped] at written
  unfold activateNow
  rw [if_neg partner]
  dsimp only
  rw [written]
  rfl

theorem onTrial_actReset (d : Dev) (bank : Nat) :
    (d.onTrial bank).img.actReset = some (d.glb.upNs + 50000000 - (d.whl.time - d.whl.tickAt)) := by
  have up : (d.trialWritten bank).glb.upNs = d.glb.upNs := by rw [Dev.trialWritten, ownWritten_glb, inHold_upNs]
  have whl : (d.trialWritten bank).whl = d.inHold.whl := ownWritten_whl ..
  have time : d.inHold.whl.time = d.whl.time := (inHold_launched d).reads Whl.time
  have tick : d.inHold.whl.tickAt = d.whl.tickAt := (inHold_launched d).reads Whl.tickAt
  simp only [Dev.onTrial, Dev.modImg_img, up, whl, time, tick]

theorem onTrial_bank (d : Dev) (bank : Nat) :
    (d.onTrial bank).pra.word 3 = bankWord true (d.pra.bankValid 1) (d.pra.bankValid 0) bank d.pra.floor := by
  rw [← inHold_pra d]
  exact ownWritten_word ..

theorem onTrial_word_other (d : Dev) (bank : Nat) {n : Nat} (other : n ≠ 3) : (d.onTrial bank).pra.word n = d.pra.word n := by
  rw [← inHold_pra d]
  exact ownWritten_word_other _ _ _ other

theorem onTrial_power (d : Dev) (bank : Nat) : (d.onTrial bank).glb.power = 1 :=
  (congrArg Glb.power ((ownWritten_glb ..).trans (inHold_glb d)) :)

theorem onTrial_phase (d : Dev) (bank : Nat) : (d.onTrial bank).phase = d.phase := (ownWritten_phase ..).trans (inHold_phase d)

theorem onTrial_thread (bank : Nat) (unfenced : t.st ≠ .fenced) (untied : Untied d th) (found : d.thread? th = some t) :
    (d.onTrial bank).thread? th = some t :=
  (thread?_of_ccp (a := d.inHold) (ownWritten_ccp ..) th).trans (changePower_thread 1 1 unfenced untied found)

/-- The activation in its tick runs on the device with its thread RUNNING. -/
theorem doReelActivateExecute_runs {rest : List (Nat × Nat × Bool)} (first : d.img.act = (th, bank, alone) :: rest)
    (r : ReadyFor d th t (.reelActivate bank alone)) (tick : activateTick d t = true) (turn : imageTurn d th = true)
    (free : writeTurn d = true) (none_ : d.img.actReset = none) (v : Bool) :
    doReelActivateExecute v d = activateNow (d.running th t) th bank alone v := by
  unfold doReelActivateExecute
  rw [first]
  dsimp only
  rw [r.2.1]
  dsimp only
  rw [if_pos ⟨tick, turn, none_, free⟩]
  exact runThread_ready (a := ()) _ r (by rfl)

theorem doReelActivateExecute_ends {rest : List (Nat × Nat × Bool)} (first : d.img.act = (th, bank, alone) :: rest)
    (r : ReadyFor d th t (.reelActivate bank alone)) (tick : activateTick d t = true) (turn : imageTurn d th = true)
    (free : writeTurn d = true) (none_ : d.img.actReset = none) (untied : Untied d th)
    (serves : alone = true ∨ d.ply.partnered = false) (token : 0 < (praDue d).pra.tokens 3) :
    let b := doReelActivateExecute true d
    b.glb.power = 1 ∧ b.pra.word 3 = bankWord true (d.pra.bankValid 1) (d.pra.bankValid 0) bank d.pra.floor
      ∧ b.img.actReset = some (d.glb.upNs + 50000000 - (d.whl.time - d.whl.tickAt)) ∧ EndedWith b th .ok []
      ∧ b.evt.sticky evReelActivate = true ∧ ∀ n, n ≠ 3 → b.pra.word n = d.pra.word n := by
  have token' : 0 < (praDue (d.running th t)).pra.tokens 3 := by rw [praDue_running]; exact token
  have runs : (d.running th t).thread? th = some t.begun := r.thread?
  have untied' : Untied (d.running th t) th := untied
  have glb (a : Dev) (st : Status) (res : List Byte) : (imgFinish a th st res).glb = a.glb :=
    (finish_only (a.modImg fun i => { i with last := st.num }) th st res (l_ := [.whl, .ccp, .ply, .img]) rfl (.refl _ _)).same
      .glb (by decide)
  rw [doReelActivateExecute_runs first r tick turn free none_, activateNow_activates (d := d.running th t) serves token']
  refine ⟨?_, ?_, ?_, finish_ended (t := t.begun) _ _ ((thread?_of_ccp (a := (d.running th t).onTrial bank) ?_ th).trans
    (onTrial_thread bank (by simp [Thread.begun]) untied' runs)) (by simp [Thread.begun]), ?_, fun n other => ?_⟩
  · rw [glb, report_glb, onTrial_power]
  · rw [imgFinish_pra, report_pra, onTrial_bank]
    rfl
  · rw [imgFinish_actReset, report_img, onTrial_actReset]
    rfl
  · exact report_ccp ..
  · rw [imgFinish_evt]
    exact report_sticky _ _ _ (by rw [onTrial_phase, show (d.running th t).phase = d.phase from rfl, r.1]; rfl)
  · rw [imgFinish_pra, report_pra, onTrial_word_other _ _ other]
    rfl

end

/-! ## OWNER_LOCK (R328) -/

section
variable {d : Dev} {th : Nat} {t : Thread} {set : Bool} (turn : imageTurn d th = true) (free : writeTurn d = true)
  (r : ReadyFor d th t (.ownerLock set))
include turn free r

/-- A release by another than the owner is refused. -/
theorem doOwnerLock_locked (release : set = false) (locked : ownerLocked d = true) (other : fld (d.pra.word 4) 3 0 ≠ t.ident)
    (v : Bool) : doOwnerLock th v d = imgFinish (d.running th t) th .locked [] := by
  rw [doOwnerLock, if_neg (by simp [turn, free])]
  refine (runThread_ready (a := set) _ r (by rfl)).trans ?_
  exact if_pos ⟨release, locked, other⟩

/-- A lock that is not yet the sender's is written and reported. -/
theorem doOwnerLock_sets (lock : set = true) (new : d.pra.word 4 ≠ ownerWord true t.ident)
    (token : 0 < (praDue d).pra.tokens 4) : doOwnerLock th true d =
      imgFinish (report ((d.running th t).ownWritten 4 (ownerWord true t.ident)) evOwnerLock []) th .ok [] := by
  subst lock
  have token' : 0 < (praDue (d.running th t)).pra.tokens 4 := by rw [praDue_running]; exact token
  have written := praOwn_ok (ownerWord true t.ident) token'
  rw [doOwnerLock, if_neg (by simp [turn, free])]
  refine (runThread_ready (a := true) _ r (by rfl)).trans ?_
  refine (if_neg (by simp)).trans ((if_neg fun h => new h.symm).trans ?_)
  rw [Dev.running] at written
  rw [show (if true = true then ownerWord true t.begun.ident else 0) = ownerWord true t.ident from rfl, written]
  rfl

end

/-! ## QUOTE_REQ (R319) -/

/-- The quote that a packet asks for. -/
def packetQuote (p : CcpPacket) : Option (BitVec 128 × BitVec 16) × BitVec 8 × BitVec 256 :=
  (some (p.src, p.sport), 0, BitVec.ofNat 256 (natOf p.body))

theorem doQuoteReq_taken {d : Dev} {port : Port} {p : CcpPacket} (hears : ccpHears d port p = true) (ok : packetOk p = true)
    (type : p.type = 5) (long : p.length = 52) : doQuoteReq port p (takeCpu d) =
      if d.phase = .up then answerQuote masterCcp (takeCpu d) (packetQuote p)
      else (takeCpu d).modDst fun x => { x with quoteWait := x.quoteWait ++ [packetQuote p] } := by
  have hears' : ccpHears (takeCpu d) port p = true := hears
  rw [doQuoteReq, if_pos hears', if_neg (by simp [ok, type]), takeQuoteReq, if_neg (by simp [long])]
  rfl

/-- A quote asked for by CCP, with room, a sound noise source and a key that may sign, is signed and sent (R319). -/
theorem answerQuote_sent {d : Dev} {master : Nat} {a : BitVec 128} {p : BitVec 16} {seq : BitVec 8} {nonce : BitVec 256}
    (rng : d.dst.rngOk = true) (room : quoteRoom d = true) (may : (invoke d 1 master useSign).1 = true) :
    ∃ head, answerQuote master d (some (a, p), seq, nonce) =
      (ccpEmit (quoteStamp d) a p head).emit (.quoteResp a p (quoteBody d nonce) (quoteSig d (quoteBody d nonce))) := by
  simp only [answerQuote, if_neg (Bool.eq_false_iff.not_left.2 rng), room, if_true, invoke_allowed may]
  exact ⟨_, rfl⟩

/-! ## The statement -/

/-- Settles O38: the stage's two writes find their tokens (`doReelStage_begins`, `stageDone_ends`), and the activation's thread
goes on through the passage to HOLD (`changePower_thread`, `doReelActivateExecute_ends`). -/
theorem imageCommands : Obligations.ImageCommands := by
  unfold Obligations.ImageCommands
  intro s dt th t e
  refine ⟨fun card turn free r => ⟨fun st v no => gives_run rfl ?_, fun x may good => gives_run rfl ?_⟩,
    fun g u stage up free found runs => ⟨fun more b c v => gives_run rfl ?_, fun last token => gives_run rfl ?_,
      fun b f g' h v => gives_run rfl ?_⟩,
    fun bank alone rest first r tick turn free none_ untied serves token => gives_run rfl
      (doReelActivateExecute_ends first r tick turn free none_ untied serves token),
    fun k due past => gives_run rfl ?_,
    fun set turn free r => ⟨fun release locked other v => gives_run rfl ?_, fun lock new token => gives_run rfl ?_⟩,
    fun port p hears ok type long => ⟨fun up rng room may => gives_runCpu rfl ?_, fun applied => gives_runCpu rfl ?_⟩⟩
  · rw [doReelStage_refused turn free r v no]
    exact ⟨r.praDue.imgEnds rfl _ _, imgFinish_last .., imgFinish_pra ..⟩
  · rw [doReelStage_begins turn free r may good]
    obtain ⟨pra, stage, blocks⟩ := stageBegin_ok (((e.starts th t).sawCard (cardAnswers card)).ownWritten 3
      (bankWithValid e.pra (1 - e.pra.activeBank) false)) th (1 - e.pra.activeBank) x
    rw [pra]
    exact ⟨stage, blocks, ownWritten_word .., fun n other => (ownWritten_word_other _ _ _ other).trans (starts_word e th t n)⟩
  · rw [doReelStageBlock_eq stage up free, if_neg (by decide), if_neg (by decide), if_neg (by decide), if_pos more]
    exact ⟨rfl, rfl, rfl⟩
  · rw [doReelStageBlock_eq stage up free, if_neg (by decide), if_neg (by decide), if_neg (by decide), if_neg (Nat.not_lt.2 last),
      if_neg (by decide), if_neg (by decide)]
    have same := praDue_tokens_congr (a := (e.sawCard true).modImg fun i =>
      { i with blocks := g.done + 1, stage := some { g with done := g.done + 1 } }) (b := e) rfl rfl rfl 3
    exact stageDone_ends (same.symm ▸ token) up found runs
  · rw [doReelStageBlock_eq stage up free, if_pos rfl]
    exact stageFail_fails stage found runs
  · unfold doActivateReset
    rw [due]
    dsimp only
    rw [if_pos past]
    exact ⟨rfl, rfl, rfl, Kept.fresh (d := e) ⟨rfl, rfl, rfl, rfl, rfl, rfl, rfl, rfl, rfl⟩ ..⟩
  · rw [doOwnerLock_locked turn free r release locked other]
    exact ⟨r.imgEnds rfl _ _, imgFinish_pra ..⟩
  · rw [doOwnerLock_sets turn free r lock new token]
    refine ⟨r.imgEnds ((report_ccp ..).trans (ownWritten_ccp ..)) _ _, ?_, ?_, fun n other => ?_⟩
    · rw [imgFinish_pra, report_pra, ownWritten_word]
    · rw [imgFinish_evt]
      exact report_sticky _ _ _ (by rw [ownWritten_phase, show (e.running th t).phase = e.phase from rfl, r.1]; rfl)
    · rw [imgFinish_pra, report_pra, ownWritten_word_other _ _ _ other]
      rfl
  · rw [doQuoteReq_taken hears ok type long, if_pos up]
    obtain ⟨head, sent⟩ := answerQuote_sent (d := takeCpu e) (a := p.src) (p := p.sport) (seq := 0)
      (nonce := BitVec.ofNat 256 (natOf p.body)) rng room ((invoke_of_keys (a := e) (b := takeCpu e) rfl rfl ..).trans may)
    rw [packetQuote, sent]
    exact ⟨rfl, rfl, rfl⟩
  · rw [doQuoteReq_taken hears ok type long, if_neg (by rw [applied]; decide)]
    exact ⟨rfl, rfl⟩

end Sys2Proof.Machine
end


section
/-! PROOFS. What the spindles and the power state leave of an event source that is not a spindle's (O36, O13). -/

namespace Sys2Proof.Machine

/-- From `a` to `b` source `e` has neither risen nor fallen, its dwells stand, and its STICKY is not lost. -/
structure SparesSource (e : Nat) (a b : Dev) : Prop where
  live : (b.evt.src e).live = (a.evt.src e).live
  dwell : (b.evt.src e).dwell = (a.evt.src e).dwell
  sticky : a.evt.sticky e = true → b.evt.sticky e = true

/-- A device that takes a role as no master, before anything follows from it. -/
def Dev.unroled (d : Dev) (r : Role) : Dev :=
  d.modPly fun p => { p with role := r, master := false, electAt := none, joinAt := none, readyTick := none,
                             bothSpare := 0, ready := p.ready && r == .spare }

/-- HOLD is taken by its report alone. -/
theorem setRole_hold (d : Dev) : setRole d .hold false = if d.ply.role = .hold then d.unroled .hold else
    report (d.unroled .hold) evRoleChange
      (octets 1 (Role.num d.ply.role) ++ octets 1 (Role.num .hold) ++ octets 1 (b2n false)) := by
  simp only [setRole, reduceCtorEq, false_and, Bool.false_eq_true, if_false]
  rfl

namespace SparesSource

variable {e : Nat}

theorem of_src {a b : Dev} (h : b.evt.src e = a.evt.src e) : SparesSource e a b :=
  ⟨by rw [h], by rw [h], fun set => (congrArg SrcSt.sticky h).trans set⟩

theorem of_evt {a b : Dev} (h : b.evt = a.evt) : SparesSource e a b := of_src (by rw [h])

theorem of_only {l : List Part} {a b : Dev} (h : Only l a b) (out : Part.evt ∉ l) : SparesSource e a b :=
  of_evt (h.same .evt out)

theorem refl (d : Dev) : SparesSource e d d := of_evt rfl

theorem trans {a b c : Dev} (h : SparesSource e a b) (k : SparesSource e b c) : SparesSource e a c :=
  ⟨k.live.trans h.live, k.dwell.trans h.dwell, fun set => k.sticky (h.sticky set)⟩

theorem ite {c : Prop} [Decidable c] {a x y : Dev} (h : SparesSource e a x) (k : SparesSource e a y) :
    SparesSource e a (if c then x else y) := by
  split <;> assumption

theorem each {α : Type} {l : List α} {f : Dev → α → Dev} {d : Dev} (k : ∀ a x, SparesSource e a (f a x)) :
    SparesSource e d (Machine.each l f d) := each_holds (P := SparesSource e d) (.refl d) fun a x h => h.trans (k a x)

theorem reportNow (d : Dev) (s : Nat) (l : List Byte) : SparesSource e d (Machine.reportNow d s l) := by
  by_cases same : s = e
  · subst same
    have src := (reportNow_src d s s l).trans (Evt.src_modSrc_same ..)
    exact ⟨(congrArg SrcSt.live src :), (congrArg SrcSt.dwell src :), fun _ => (congrArg SrcSt.sticky src :)⟩
  · exact of_src ((reportNow_src d s e l).trans (Evt.src_modSrc_other _ _ _ _ same))

/-- A report sets STICKY of its source, and nothing else of what is kept here. -/
theorem report (d : Dev) (s : Nat) (l : List Byte) : SparesSource e d (Machine.report d s l) := by
  unfold Machine.report; split
  · exact of_evt rfl
  · split
    · exact reportNow d s l
    · exact refl d

theorem watch (d : Dev) {s : Nat} (other : s ≠ e) (i : Nat) (a b : Bool) (l : List Byte) :
    SparesSource e d (Machine.watch d s i a b l) := of_src (watch_src_other d s i e a b l other)

theorem finish (d : Dev) (th : Nat) (st : Status) (res : List Byte) : SparesSource e d (Machine.finish d th st res) :=
  of_evt (finish_evt ..)

theorem modSpn (d : Dev) (n : Fin 4) (f : Spn → Spn) : SparesSource e d (d.modSpn n f) := of_evt rfl

/-! ## The spindles -/

section
variable (wide : e < 128) (d : Dev) (n : Fin 4)
include wide

theorem evSpn_other (k : Nat) : evSpn n k ≠ e := by unfold evSpn; omega

theorem watchSpn (k : Nat) (a b : Bool) (l : List Byte) : SparesSource e d (Machine.watch d (evSpn n k) 0 a b l) :=
  .watch d (evSpn_other wide n k) 0 a b l

theorem deliver (x : Descriptor) : SparesSource e d (Machine.deliver d n x) := by
  unfold Machine.deliver; dsimp only; split
  · have counted (f : Spn → Spn) : SparesSource e d (errWatch (d.modSpn n f) n) :=
      .trans (.modSpn d n f) (watchSpn wide _ n 18 _ _ _)
    exact .ite ((counted _).trans (of_evt rfl)) (counted _)
  · exact .trans (.modSpn d n _) (.report ..)

theorem truncateAll : SparesSource e d (Machine.truncateAll d n) :=
  .each fun a _ => .ite (.modSpn a n _) (.trans (.modSpn a n _) (deliver wide _ n _))

theorem pushRl (k : Nat) : SparesSource e d (Machine.pushRl d n k) := by
  unfold Machine.pushRl; dsimp only; split
  · exact .trans (.modSpn d n _) (watchSpn wide _ n 3 _ _ _)
  · exact .modSpn d n _

theorem measureRl (rl : Option Nat) : SparesSource e d (Machine.measureRl d n rl) := by
  unfold Machine.measureRl; split
  · exact .trans (pushRl wide d n _) (.modSpn _ n _)
  · exact .trans (.trans (b := d.draw.2) (of_evt rfl) (pushRl wide d.draw.2 n _)) (.modSpn _ n _)

omit wide in
theorem dropTx (c : Lost) : SparesSource e d (Machine.dropTx d n c) :=
  of_only (dropTx_only d n c (l_ := [.spn, .wrp, .ply]) rfl (.refl _ _)) (by decide)

theorem abortTx (c : Lost) (rl : Option Nat) : SparesSource e d (Machine.abortTx d n c rl) := by
  have lost (k : AirKind) : SparesSource e d (loseRecord d k) :=
    of_only (loseRecord_only d k (l_ := [.ply]) rfl (.refl _ _)) (by decide)
  unfold Machine.abortTx; split
  · exact refl d
  next t _ =>
    refine .ite (refl d) (.ite (.trans (.trans (.trans (lost t.kind) (.modSpn _ n _)) (.ite (measureRl wide _ n rl) (refl _)))
      (watchSpn wide _ n 17 _ _ _)) (dropTx d n c))

theorem actTarget : SparesSource e d (Machine.actTarget d n) := by
  have aborted : SparesSource e d (if effTarget d n < 2 then Machine.abortTx d n .uncounted none else d) :=
    .ite (abortTx wide d n _ _) (refl d)
  unfold Machine.actTarget
  exact .ite (.modSpn d n _) (.trans (.trans aborted (.ite (truncateAll wide _ n) (refl _))) (.modSpn _ n _))

theorem takeOos : SparesSource e d (Machine.takeOos d n) := by
  rcases h : (d.spn.get n).oosPend with _ | ⟨o, th⟩
  · simpa only [Machine.takeOos, h] using refl d
  · cases o with
    | none => rw [Machine.takeOos, h]; exact .modSpn d n _
    | test =>
      rw [takeOos_test h]
      exact .trans (.trans (.trans (.modSpn d n _) (truncateAll wide _ n)) (.report ..)) (.modSpn _ n _)
    | bypass =>
      rw [takeOos_bypass h]
      exact .trans (.trans (.trans (.trans (.modSpn d n _) (.modSpn _ n _)) (.report ..)) (actTarget wide _ n)) (.finish ..)

theorem holdOn (th dur : Nat) : SparesSource e d (Machine.holdOn d n th dur) :=
  .trans (.trans (.trans (truncateAll wide d n) (.modSpn _ n _)) (.report ..)) (.finish ..)

theorem laidOut : SparesSource e d (Machine.laidOut d n) := .trans (actTarget wide d n) (.modSpn _ n _)

theorem endOfCell : SparesSource e d (Machine.endOfCell d n) := by
  have taken := (laidOut wide d n).trans (takeOos wide (Machine.laidOut d n) n)
  rw [endOfCell_eq]; split
  · exact taken.trans (holdOn wide _ n _ _)
  · exact taken

theorem atEndOfCell : SparesSource e d (Machine.atEndOfCell d n) := .ite (refl d) (endOfCell wide d n)

end

/-! ## The power state -/

theorem roleFollows (new : Nat) (d : Dev) : SparesSource e d (Machine.roleFollows new d) := by
  unfold Machine.roleFollows; split
  · rw [setRole_hold]
    exact .trans (b := d.unroled .hold) (of_evt rfl) (.ite (refl _) (.report ..))
  · split
    next hold =>
      rw [setRole_spare (by simp [hold])]
      exact .trans (.trans (b := d.modPly _) (of_evt rfl) (.report ..)) (of_evt rfl)
    next => exact refl d

theorem changePower (wide : e < 128) (d : Dev) (new cause : Nat) : SparesSource e d (Machine.changePower d new cause) := by
  have reported : SparesSource e d (powerReported d new cause) := by
    have noted : SparesSource e d (Machine.report (d.modGlb fun g => { g with power := new }) evPowerChange
        (octets 1 d.glb.power ++ octets 1 new ++ octets 1 cause)) :=
      .trans (b := d.modGlb fun g => { g with power := new }) (of_evt rfl) (.report ..)
    refine .ite (noted.trans (.each fun a n => ?_)) noted
    unfold dropUnstarted; split
    · exact .ite (refl a) (dropTx a n _)
    · exact refl a
  rw [changePower_eq]
  exact .ite (refl d) (.trans (.trans reported (.each (atEndOfCell wide))) (.roleFollows new _))

end SparesSource

end Sys2Proof.Machine
end


section
/-! PROOFS. Power states and the in-service tests (O36). -/

namespace Sys2Proof.Machine

/-! ## Service through the end of a cell (R95) -/

/-- A spindle's service: whether it is out of it, and the TEST under way. -/
def Spn.service (s : Spn) : Spn := { oos := s.oos, testTh := s.testTh }

section
variable (d : Dev) (n : Fin 4)

theorem countLost_service (c : Lost) (k : Nat) : Spares Spn.service n d (countLost d n c k) := by
  unfold countLost
  cases c with
  | resync | conflict | unbound | uncounted => exact .of_spn rfl
  | cal | hold | inhibit | cx | txsyn => exact .modSpn d rfl

theorem dropTx_service (c : Lost) : Spares Spn.service n d (dropTx d n c) := by
  unfold dropTx; split
  · exact .refl d
  · exact .trans (.of_spn (loseRecord_spn ..)) (.trans (countLost_service _ n c 1)
      (.modSpn _ ((Spn.settle_reads Spn.service _ _ rfl).trans (Spn.syncWires_reads Spn.service _ rfl))))

theorem abortTx_service (c : Lost) (rl : Option Nat) : Spares Spn.service n d (abortTx d n c rl) := by
  cases tx : (d.spn.get n).tx with
  | none => simpa only [abortTx, tx] using .refl d
  | some t =>
    cases runs : t.ended with
    | some te => simpa only [abortTx, tx, runs, Option.isSome_some, if_true] using .refl d
    | none =>
      by_cases granted : t.granted = true
      · have cut : Spares Spn.service n d (cutOff d n t) :=
          .trans (.of_spn (loseRecord_spn d t.kind)) (.modSpn _ (Spn.syncWires_reads Spn.service _ rfl))
        exact cut.trans ((Spares.abortTx_granted tx runs granted c rl).view Spn.service rfl)
      · simpa only [abortTx, tx, runs, granted, Option.isSome_none, Bool.false_eq_true, if_false] using dropTx_service d n c

theorem Spn.abandonBlank_service (s : Spn) (pend : Bool) : (s.abandonBlank pend).service = s.service := by
  unfold abandonBlank; split <;> rfl

theorem actTarget_service : Spares Spn.service n d (actTarget d n) := by
  unfold actTarget; dsimp only; split
  · exact .modSpn d (Spn.settle_reads Spn.service _ _ rfl)
  · by_cases low : effTarget d n < 2
    · simp only [low, if_true]
      refine .trans (.trans (abortTx_service d n _ _) ((Spares.truncateAll _ n).view Spn.service rfl))
        (.modSpn _ ((Spn.settled_reads Spn.service _ _ rfl).trans ?_))
      generalize (truncateAll (abortTx d n .uncounted none) n).spn.get n = s
      refine .trans ?_ (Spn.abandonBlank_service { s with eff := effTarget d n } (effTarget d n == 1))
      repeat' split
      all_goals rfl
    · simp only [low, if_false]
      refine .modSpn d ((Spn.settled_reads Spn.service _ _ rfl).trans ?_)
      repeat' split
      all_goals rfl

theorem laidOut_service : ((laidOut d n).spn.get n).service = (d.spn.get n).service := by
  have window (s : Spn) : (s.takeWindow n).service = s.service := by unfold Spn.takeWindow; split <;> rfl
  rw [laidOut, Dev.modSpn_get_same]
  exact (Spn.reads (Spn.takeBinds_deaf ..) Spn.service rfl).trans ((window _).trans (actTarget_service d n).same)

theorem holdOn_service (th dur : Nat) : Spares Spn.service n d (holdOn d n th dur) := by
  have taken (e : Dev) (now period : Nat) : Spares Spn.service n e (e.modSpn n (·.takeHold now dur period)) :=
    .modSpn e (Spn.leaveRx_reads Spn.service _ rfl)
  rw [holdOn_eq]
  exact .trans (.trans (((Spares.truncateAll d n).view Spn.service rfl).trans (taken ..)) (.report ..)) (.finish ..)

/-- After TEST or BYPASS has been taken, the end of the cell leaves the service. -/
theorem endOfCell_service :
    ((endOfCell d n).spn.get n).service = ((takeOos (laidOut d n) n).spn.get n).service := by
  rw [endOfCell_eq]; split
  · exact (holdOn_service ..).same
  · rfl

end

/-! ## TEST and BYPASS taken (R364, R365) -/

section
variable {d : Dev} {n : Fin 4} {th : Nat} {t : Thread}

/-- The device once TEST or BYPASS is asked of spindle `n`. -/
def Dev.oosAsked (d : Dev) (n : Fin 4) (o : OutOfService) (th : Nat) : Dev :=
  d.modSpn n fun s => { s with oosPend := some (o, th) }

theorem oosAsked_holdPend (d : Dev) (n : Fin 4) (o : OutOfService) (th : Nat) :
    ((d.oosAsked n o th).spn.get n).holdPend = (d.spn.get n).holdPend := (congrArg Spn.holdPend (Dev.modSpn_get_same ..) :)

theorem laidOut_oosPend (o : OutOfService) : ((laidOut (d.oosAsked n o th) n).spn.get n).oosPend = some (o, th) :=
  (Spn.reads (laidOut_asked ..) Spn.oosPend rfl).trans (congrArg Spn.oosPend (Dev.modSpn_get_same ..))

theorem laidOut_phase (d : Dev) (n : Fin 4) : (laidOut d n).phase = d.phase :=
  (actTarget_only d n (l_ := [.free, .start, .evt, .spn, .wrp, .ply, .bob]) rfl (.refl _ _)).same .phase (by decide)

theorem truncateAll_phase (d : Dev) (n : Fin 4) : (truncateAll d n).phase = d.phase :=
  (truncateAll_only d n (l_ := [.start, .evt, .spn, .bob]) rfl (.refl _ _)).same .phase (by decide)

/-- What TEST or BYPASS reports stays reported through the end of the cell. -/
theorem endOfCell_sticky {e : Nat} (wide : e < 128) (set : (takeOos (laidOut d n) n).evt.sticky e = true) :
    (endOfCell d n).evt.sticky e = true := by
  rw [endOfCell_eq]; split
  · exact (SparesSource.holdOn wide _ n _ _).sticky set
  · exact set

theorem endOfCell_test (up : d.phase = .up) : let b := endOfCell (d.oosAsked n .test th) n
    (b.spn.get n).oos = .test ∧ (b.spn.get n).testTh = some th ∧ b.evt.sticky evSpnTest = true := by
  have taken := takeOos_test (laidOut_oosPend (d := d) (n := n) (th := th) .test)
  have service : ((takeOos (laidOut (d.oosAsked n .test th) n) n).spn.get n).service
      = ({ oos := .test, testTh := some th } : Spn) := by
    have cut : ((truncateAll (oosTaken (laidOut (d.oosAsked n .test th) n) n .test) n).spn.get n).oos = .test :=
      (((Spares.truncateAll _ n).view Spn.oos rfl).same).trans (congrArg Spn.oos (Dev.modSpn_get_same ..))
    rw [taken, Dev.modSpn_get_same, report_spn, Spn.leaveRx_reads Spn.service _ rfl]
    exact congrArg (fun o => ({ oos := o, testTh := some th } : Spn)) cut
  have both := (endOfCell_service (d.oosAsked n .test th) n).trans service
  refine ⟨congrArg Spn.oos both, congrArg Spn.testTh both, endOfCell_sticky (by decide) ?_⟩
  rw [taken]
  refine report_sticky _ _ _ ?_
  rw [truncateAll_phase, oosTaken, Dev.modSpn_phase, laidOut_phase]
  exact congrArg Phase.fwRuns up

theorem endOfCell_bypass (up : d.phase = .up) (found : d.thread? th = some t) (runs : t.st = .running)
    (free : (d.spn.get n).Frees th) : let b := endOfCell (d.oosAsked n .bypass th) n
    (b.spn.get n).oos = .bypass ∧ EndedWith b th .ok [] ∧ b.evt.sticky evSpnTest = true := by
  have taken := takeOos_bypass (laidOut_oosPend (d := d) (n := n) (th := th) .bypass)
  have oos : ((takeOos (laidOut (d.oosAsked n .bypass th) n) n).spn.get n).oos = .bypass := by
    rw [taken, finish_spn]
    refine ((actTarget_service _ n).view Spn.oos rfl).same.trans ?_
    rw [report_spn, Dev.modSpn_get_same]
    exact congrArg Spn.oos (Dev.modSpn_get_same ..)
  refine ⟨(congrArg Spn.oos (endOfCell_service (d.oosAsked n .bypass th) n) :).trans oos, ?_, endOfCell_sticky (by decide) ?_⟩
  · have ended : EndedWith (takeOos (laidOut (d.oosAsked n .bypass th) n) n) th .ok [] := by
      rw [taken]
      refine finish_ended _ _ ((thread?_of_ccp ?_ th).trans found) (by simp [runs])
      exact (actTarget_ccp ..).trans ((report_ccp ..).trans (actTarget_ccp ..))
    obtain ⟨u, found', done, status, result⟩ := ended
    rw [endOfCell_eq]; split
    next k dur hold =>
      have laid : ((laidOut (d.oosAsked n .bypass th) n).spn.get n).holdPend = (d.spn.get n).holdPend :=
        (Spn.reads (laidOut_asked ..) Spn.holdPend rfl).trans (oosAsked_holdPend ..)
      have other : k ≠ th := free.1 _ (laid.symm.trans ((takeOos_holdPend ..).symm.trans hold))
      rw [holdOn_eq]
      refine ⟨u, finish_thread?_other _ _ other ((thread?_of_ccp ?_ th).trans found') (by simp [done]), done, status, result⟩
      exact (report_ccp ..).trans (truncateAll_ccp ..)
    next => exact ⟨u, found', done, status, result⟩
  · rw [taken, finish_evt]
    refine (SparesSource.actTarget (by decide) _ n).sticky (report_sticky _ _ _ ?_)
    rw [Dev.modSpn_phase, oosTaken, Dev.modSpn_phase, laidOut_phase]
    exact congrArg Phase.fwRuns up

/-- With nothing asked of its service, the end of the cell leaves it. -/
theorem atEndOfCell_service (none_ : (d.spn.get n).oosPend = none) :
    ((atEndOfCell d n).spn.get n).service = (d.spn.get n).service := by
  unfold atEndOfCell; split
  · rfl
  · have noOos : ((laidOut d n).spn.get n).oosPend = none := (Spn.reads (laidOut_asked d n) Spn.oosPend rfl).trans none_
    have idle : takeOos (laidOut d n) n = laidOut d n := by simp only [takeOos, noOos]
    rw [endOfCell_service, idle, laidOut_service]

end

/-! ## The commands of a spindle's service (R363) -/

section
variable {d : Dev} {n : Fin 4} {th : Nat} {t : Thread}

/-- A SPINDLE_TEST of a spindle that there is runs on the device with its thread RUNNING. -/
theorem spindleTest_ready {op : Nat} (f : Dev → Fin 4 → Dev) (r : ReadyFor d th t (.spindleTest n.val op)) :
    spindleTest d th op f = f (d.running th t) n := by
  refine (runThread_ready (a := n.val) _ r (if_pos rfl)).trans ?_
  rw [spindle?_val]
  rfl

/-- TEST or BYPASS that may be, of a spindle that serves no cell, is taken at once. -/
theorem askOos_taken {o : OutOfService} (may : testRefused d n (o == .test) = none)
    (idle : (d.spn.get n).servesNow = false) : askOos d th n o = endOfCell (d.oosAsked n o th) n := by
  have idle' : ((d.oosAsked n o th).spn.get n).servesNow = false :=
    (congrArg Spn.servesNow (Dev.modSpn_get_same ..)).trans idle
  rw [askOos, may]
  exact if_neg (Bool.eq_false_iff.1 idle')

theorem askOos_others {o : OutOfService} (may : testRefused d n (o == .test) = none) {m : Fin 4} (other : m ≠ n) :
    (askOos d th n o).spn.get m = d.spn.get m := by
  rw [askOos, may]
  exact (atEndOfCell_others _ other).trans (Dev.modSpn_get_other _ _ other)

theorem Spn.settle_calPend (s : Spn) (now : Nat) (pend : s.calPend = true) : (s.settle now).calPend = true := by
  unfold settle; repeat' split
  all_goals simp [pend, goTo]

/-- The end of a TEST: a full calibration becomes pending (R364). -/
def Spn.returned (s : Spn) (now : Nat) : Spn := (({ s with oos := .none }.pendCal 5).settle now).syncWires

theorem Spn.returned_oos (s : Spn) (now : Nat) : (s.returned now).oos = .none := Spn.settled_reads Spn.oos _ _ rfl

theorem Spn.returned_calPend (s : Spn) (now : Nat) : (s.returned now).calPend = true :=
  (Spn.syncWires_reads Spn.calPend _ rfl).trans (Spn.settle_calPend _ _ rfl)

theorem doReturnTest_ready (r : ReadyFor d th t (.spindleTest n.val opReturn)) : doReturnTest th d =
    if (d.spn.get n).oos = .test then
      finish (report ((d.running th t).modSpn n (·.returned d.whl.time)) evSpnTest (octets 1 n.val ++ octets 1 opReturn)) th .ok []
    else finish (d.running th t) th .ok [] := spindleTest_ready _ r

theorem doUnbypass_ready (r : ReadyFor d th t (.spindleTest n.val opUnbypass)) : doUnbypass th d =
    if (d.spn.get n).oos = .bypass then
      finish (report (atEndOfCell ((d.running th t).modSpn n fun s => { s with oos := .none }) n) evSpnTest
        (octets 1 n.val ++ octets 1 opUnbypass)) th .ok []
    else finish (d.running th t) th .ok [] := spindleTest_ready _ r

theorem doTest_ready (r : ReadyFor d th t (.spindleTest n.val opTest)) : doTest th d = askOos (d.running th t) th n .test :=
  spindleTest_ready _ r

theorem doBypass_ready (r : ReadyFor d th t (.spindleTest n.val opBypass)) :
    doBypass th d = askOos (d.running th t) th n .bypass := spindleTest_ready _ r

theorem selfTest_ccp (d : Dev) (b : Nat) (code : BitVec 2) : (selfTest d b code).ccp = d.ccp :=
  (selfTest_only d b code (l_ := [.glb, .start, .evt]) rfl (.refl _ _)).same .ccp (by decide)

theorem selfTest_spn (d : Dev) (b : Nat) (code : BitVec 2) : (selfTest d b code).spn = d.spn :=
  (selfTest_only d b code (l_ := [.glb, .start, .evt]) rfl (.refl _ _)).same .spn (by decide)

theorem finish_glb (d : Dev) (th : Nat) (st : Status) (res : List Byte) : (finish d th st res).glb = d.glb :=
  (finish_only d th st res (l_ := [.whl, .ccp, .ply, .img]) rfl (.refl _ _)).same .glb (by decide)

theorem finish_pwr (d : Dev) (th : Nat) (st : Status) (res : List Byte) : (finish d th st res).pwr = d.pwr :=
  (finish_only d th st res (l_ := [.whl, .ccp, .ply, .img]) rfl (.refl _ _)).same .pwr (by decide)

theorem doReturnTest_ends (r : ReadyFor d th t (.spindleTest n.val opReturn)) : let b := doReturnTest th d
    EndedWith b th .ok [] ∧ ((d.spn.get n).oos = .test → (b.spn.get n).oos = .none ∧ (b.spn.get n).calPend = true)
      ∧ ((d.spn.get n).oos ≠ .test → b.spn = d.spn) := by
  rw [doReturnTest_ready r]
  split
  next test =>
    simp only [finish_spn, report_spn, Dev.modSpn_get_same, Spn.returned_oos, Spn.returned_calPend]
    refine ⟨r.ends (congrArg Ccp.threads ?_) _ _, fun _ => ⟨trivial, trivial⟩, fun no => absurd test no⟩
    exact report_ccp ..
  next no => exact ⟨r.ends rfl _ _, fun test => absurd test no, fun _ => finish_spn ..⟩

theorem doUnbypass_ends (r : ReadyFor d th t (.spindleTest n.val opUnbypass)) (untied : Untied d th)
    (none_ : (d.spn.get n).oosPend = none) : let b := doUnbypass th d
    EndedWith b th .ok [] ∧ ((d.spn.get n).oos = .bypass → (b.spn.get n).oos = .none)
      ∧ ((d.spn.get n).oos ≠ .bypass → b.spn = d.spn) := by
  rw [doUnbypass_ready r]
  split
  next bypass =>
    have same : (((d.running th t).modSpn n fun s => { s with oos := .none }).spn.get n)
        = { d.spn.get n with oos := .none } := Dev.modSpn_get_same ..
    have service := atEndOfCell_service (d := (d.running th t).modSpn n fun s => { s with oos := .none }) (n := n)
      ((congrArg Spn.oosPend same :).trans none_)
    have free : (((d.running th t).modSpn n fun s => { s with oos := .none }).spn.get n).Frees th :=
      Spn.Frees.of_eq (untied n) (congrArg Spn.holdPend same :) (congrArg Spn.oosPend same :)
    have runs := atEndOfCell_thread (t := t.begun) (by simp [Thread.begun]) free
      (r.thread? : ((d.running th t).modSpn n fun s => { s with oos := .none }).thread? th = some t.begun)
    refine ⟨finish_ended (t := t.begun) _ _ ((thread?_of_ccp (report_ccp ..) th).trans runs) (by simp [Thread.begun]),
      fun _ => ?_, fun no => absurd bypass no⟩
    rw [finish_spn, report_spn]
    exact (congrArg Spn.oos service :).trans (congrArg Spn.oos same :)
  next no => exact ⟨r.ends rfl _ _, fun bypass => absurd bypass no, fun _ => finish_spn ..⟩

theorem doSpindleTestComplete_ends (x : TestResult) (testing : (d.spn.get n).testTh = some th) (found : d.thread? th = some t)
    (runs : t.st = .running) : let b := doSpindleTestComplete n x d
    (b.spn.get n).testTh = none ∧ kgetD b.glb.selftest (8 + n.val) 0 = (if x.fail = 0 then 1 else 2)
      ∧ EndedWith b th .ok (octets 1 x.pass.toNat ++ octets 1 x.fail.toNat ++ octets 2 (toTwos 16 x.noise) ++ octets 2 x.evm
        ++ octets 2 0) := by
  simp only [doSpindleTestComplete, testing, finish_spn, finish_glb, selfTest_spn, kgetD_ksetD_selftest, Dev.modSpn_get_same]
  refine ⟨trivial, trivial, finish_ended _ _ ((thread?_of_ccp (a := d) ?_ th).trans found) (by simp [runs])⟩
  exact selfTest_ccp ..

/-! ## Power states (R342 to R344) -/

theorem doPowerState_ready {st wake : Nat} (r : ReadyFor d th t (.powerState st wake)) : doPowerState th d =
    match powerRefused d st wake with
    | some x => finish (d.running th t) th x []
    | none =>
      if st = 0 then
        finish ((d.running th t).untripped.modPwr fun p => { p with offDue := some (p.wall + 50000000), wake := wake }) th .ok
          (octets 8 (d.whl.time + 50000000))
      else finish (changePower (d.running th t).untripped st 1) th .ok (octets 8 d.whl.time) :=
  runThread_ready (a := (st, wake)) _ r (by rfl)

theorem doWakeElapsed_wakes {k : Nat} (since : d.pwr.offAt = some k) (off : d.phase = .off) (timed : 0 < d.pwr.wake)
    (past : k + d.pwr.wake * 1000000000 ≤ d.pwr.wall) (high : d.pwr.resetLow = false) (input : d.pwr.inputOk = true)
    (warm : d.pwr.powerOn = false) : doWakeElapsed d = { d.fresh (.rails 0) { d.pwr with
      cause := 10, rail := 0, powerOn := false, failsafeRail := false, t0 := d.pwr.wall,
      vhold := 0, pin := 0, temps := ⟨0, 0, 0, 0⟩, wake := 0, offAt := none } with out := d.out } := by
  unfold doWakeElapsed
  rw [since]
  dsimp only
  rw [if_pos ⟨off, timed, past⟩, beginStart, if_pos ⟨by rw [off]; rfl, high, input⟩, warm]
  rfl

theorem doPowerOffRails_off {k : Nat} (due : d.pwr.offDue = some k) (runs : d.phase.ctrlRuns = true) (past : k ≤ d.pwr.wall) :
    doPowerOffRails d = (railsOff d .off).modPwr fun p => { p with offAt := some p.wall } := by
  unfold doPowerOffRails
  rw [due]
  exact if_pos ⟨runs, past⟩

end

/-- Settles O36: a command's thread goes on through a change of the power state (`changePower_thread`), and TEST and BYPASS are
taken at once where no cell is served (`endOfCell_test`, `endOfCell_bypass`). -/
theorem powerStatesAndTests : Obligations.PowerStatesAndTests := by
  unfold Obligations.PowerStatesAndTests
  intro s dt th t e
  have kept : Kept e e := ⟨rfl, rfl, rfl, rfl, rfl, rfl, rfl, rfl, rfl⟩
  refine ⟨fun st wake r => ⟨fun x no => gives_run rfl ?_, fun may off => gives_run rfl ?_, fun may on untied => gives_run rfl ?_⟩,
    fun k due runs past => gives_run rfl ?_, fun k since off timed past high input warm => gives_run rfl ?_,
    fun n => ⟨fun r untied => ⟨fun may idle => gives_run rfl ?_, fun st no => gives_run rfl ?_⟩,
      fun r untied may idle => gives_run rfl ?_, fun r => gives_run rfl ?_, fun r untied none_ => gives_run rfl ?_,
      fun x testing found runs => gives_run rfl ?_⟩⟩
  · rw [doPowerState_ready r, no]
    exact ended_threadsOnly r x []
  · rw [doPowerState_ready r, may]
    dsimp only
    rw [if_pos off]
    have pwr := finish_pwr ((e.running th t).untripped.modPwr fun p => { p with offDue := some (p.wall + 50000000), wake := wake })
      th .ok (octets 8 (e.whl.time + 50000000))
    exact ⟨r.ends (b := (e.running th t).untripped.modPwr _) rfl _ _, (congrArg Pwr.offDue pwr :), (congrArg Pwr.wake pwr :),
      finish_spn ..⟩
  · rw [doPowerState_ready r, may]
    dsimp only
    rw [if_neg on, finish_glb, changePower_glb, finish_pra, changePower_pra, finish_pwr]
    have runs := changePower_thread (d := (e.running th t).untripped) st 1 (by simp [Thread.begun]) untied r.thread?
    refine ⟨finish_ended _ _ runs (by simp [Thread.begun]), rfl, rfl, rfl, rfl, rfl, ?_⟩
    exact (changePower_changes _ st 1).same .pwr (by decide)
  · rw [doPowerOffRails_off due runs past]
    exact ⟨rfl, rfl, rfl, rfl, kept.fresh ..⟩
  · rw [doWakeElapsed_wakes since off timed past high input warm]
    exact ⟨rfl, rfl, rfl, kept.fresh ..⟩
  · rw [doTest_ready r]
    have may' : testRefused (e.running th t) n (OutOfService.test == .test) = none := may
    obtain ⟨oos, test, set⟩ := endOfCell_test (d := e.running th t) (n := n) (th := th) r.1
    rw [askOos_taken may' idle]
    exact ⟨oos, test, set, fun m other => askOos_taken may' idle ▸ askOos_others may' other⟩
  · have no' : testRefused (e.running th t) n (OutOfService.test == .test) = some st := no
    rw [doTest_ready r, askOos, no']
    exact ⟨r.ends rfl _ _, finish_spn ..⟩
  · rw [doBypass_ready r]
    have may' : testRefused (e.running th t) n (OutOfService.bypass == .test) = none := may
    obtain ⟨oos, ended, set⟩ := endOfCell_bypass (d := e.running th t) (n := n) r.1 r.thread? rfl (untied n)
    rw [askOos_taken may' idle]
    exact ⟨oos, ended, set, fun m other => askOos_taken may' idle ▸ askOos_others may' other⟩
  · exact doReturnTest_ends r
  · exact doUnbypass_ends r untied none_
  · exact doSpindleTestComplete_ends x testing found runs

end Sys2Proof.Machine
end


section
/-! PROOFS. Temperatures, the supply and the hold-up check (O13). -/

namespace Sys2Proof.Machine

/-! ## Watches with a dwell (R348) -/

/-- From `a` to `b` watch `i` of source `e` has neither risen nor fallen, and its dwell stands. -/
structure SparesInstance (e i : Nat) (a b : Dev) : Prop where
  live : b.evt.liveAt e i = a.evt.liveAt e i
  dwell : kfind (b.evt.src e).dwell i = kfind (a.evt.src e).dwell i

theorem SparesInstance.trans {e i : Nat} {a b c : Dev} (h : SparesInstance e i a b) (k : SparesInstance e i b c) :
    SparesInstance e i a c := ⟨k.live.trans h.live, k.dwell.trans h.dwell⟩

theorem SparesInstance.ite {e i : Nat} {c : Prop} [Decidable c] {a x y : Dev} (h : SparesInstance e i a x)
    (k : SparesInstance e i a y) : SparesInstance e i a (if c then x else y) := by split <;> assumption

theorem SparesSource.atInstance {e : Nat} {a b : Dev} (h : SparesSource e a b) (i : Nat) : SparesInstance e i a b :=
  ⟨congrArg (List.contains · i) h.live, congrArg (kfind · i) h.dwell⟩

section
variable (d : Dev) {s e j i : Nat}

/-- An evaluation of another source leaves this one. -/
theorem SparesSource.watchDwell (other : s ≠ e) (set clear : Bool) (x y now : Nat) (l : List Byte) :
    SparesSource e d (Machine.watchDwell d s j set clear x y now l) := by
  refine .of_src ?_
  unfold Machine.watchDwell rise fall; dsimp only; repeat' split
  all_goals simp [Evt.src_modSrc_other _ _ _ _ other]

/-- An evaluation of another watch of the source leaves this one. -/
theorem SparesInstance.watchDwell (other : j ≠ i) (set clear : Bool) (x y now : Nat) (l : List Byte) :
    SparesInstance e i d (Machine.watchDwell d e j set clear x y now l) := by
  unfold Machine.watchDwell rise fall; dsimp only; repeat' split
  all_goals constructor
  all_goals simp [Evt.liveAt, kfind_kdel_other _ _ _ other, kfind_kput_other _ _ _ _ other, other.symm]

/-- A watch whose condition has held for its dwell rises (R348). -/
theorem watchDwell_rises {since dwell clear now : Nat} {c : Bool} {l : List Byte} (runs : d.phase.fwRuns = true)
    (dead : d.evt.liveAt e i = false) (held : kfind (d.evt.src e).dwell i = some since) (past : since + dwell ≤ now) :
    (watchDwell d e i true c dwell clear now l).evt.liveAt e i = true := by
  have since' : kgetD (d.evt.src e).dwell i now = since := by rw [kgetD, held]; rfl
  simp only [watchDwell, runs, dead, since', if_true, Bool.false_eq_true, if_false, past]
  simp [rise, Evt.liveAt]

end

/-! ## Protective trips (R345) -/

/-- Global control once a trip is recorded. -/
def Glb.trips (g : Glb) (thermal : Bool) : Glb :=
  { g with tripped := true, tripThermal := g.tripThermal || thermal, tripInput := g.tripInput || !thermal }

/-- The device with a trip recorded and, where it is the input's, reported. -/
def Dev.tripNoted (d : Dev) (thermal : Bool) : Dev :=
  if thermal then d.modGlb (·.trips thermal) else report (d.modGlb (·.trips thermal)) evInputTrip []

theorem tripNoted_glb (d : Dev) (thermal : Bool) : (d.tripNoted thermal).glb = d.glb.trips thermal := by
  unfold Dev.tripNoted; split
  · rfl
  · exact report_glb ..

theorem protectiveTrip_eq (d : Dev) (thermal : Bool) : protectiveTrip d thermal =
    if (d.tripNoted thermal).glb.power = 2 ∨ (d.tripNoted thermal).glb.power = 3 then
      changePower (d.tripNoted thermal) 1 (if thermal then 2 else 3)
    else d.tripNoted thermal := rfl

/-- A trip is recorded, and takes RUN or LISTEN to HOLD. -/
theorem protectiveTrip_glb (d : Dev) (thermal : Bool) : (protectiveTrip d thermal).glb =
    { d.glb.trips thermal with power := if d.glb.power = 2 ∨ d.glb.power = 3 then 1 else d.glb.power } := by
  have same : (d.tripNoted thermal).glb.power = d.glb.power := by rw [tripNoted_glb]; rfl
  rw [protectiveTrip_eq, same]
  split
  · rw [changePower_glb, tripNoted_glb]
  · exact tripNoted_glb ..

theorem SparesSource.protectiveTrip {e : Nat} (wide : e < 128) (d : Dev) (thermal : Bool) :
    SparesSource e d (Machine.protectiveTrip d thermal) := by
  have noted : SparesSource e d (d.tripNoted thermal) := by
    unfold Dev.tripNoted
    exact .ite (.of_evt rfl) (.trans (b := d.modGlb _) (.of_evt rfl) (.report ..))
  rw [protectiveTrip_eq]
  exact .ite (noted.trans (.changePower wide ..)) noted

/-- What a protective trip may change. -/
def judged : List Part := [.free, .out, .glb, .start, .evt, .whl, .spn, .wrp, .ccp, .sht, .ply, .dst, .img, .bob]

theorem protectiveTrip_changes (d : Dev) (thermal : Bool) : Only judged d (protectiveTrip d thermal) :=
  protectiveTrip_only d thermal rfl (.refl _ _)

/-! ## TEMPERATURE_SAMPLE (R355) -/

/-- Die `i` against the thresholds below the trip. -/
def dieWarned (x : Int) (d : Dev) (i : Fin 4) : Dev :=
  thermalWatch (thermalWatch d evThermalWarn i.val x 1100) evThermalThrottle i.val x 1200

/-- Die `i` against its thresholds: one that newly stands at the trip is a protective trip. -/
def dieWatched (t : Four Int) (d : Dev) (i : Fin 4) : Dev :=
  let a := dieWarned (t.get i) d i
  let b := thermalWatch a evThermalTrip i.val (t.get i) 1250
  if b.evt.liveAt evThermalTrip i.val ∧ a.evt.liveAt evThermalTrip i.val = false then protectiveTrip b true else b

/-- The spread of the temperatures, and the self-test of the sensors (R355, R368). -/
def spreadWatched (t : Four Int) (paired : Bool) (d : Dev) : Dev :=
  let spread := t.list.foldl max t.a - t.list.foldl min t.a
  let a := watchDwell d evDieTempSpread 0 (decide (300 < spread)) (decide (spread ≤ 260)) halfSecond halfSecond d.pwr.wall
    (octets 1 0)
  if a.phase.fwRuns then selfTestLive a 13 paired else a

theorem doTemperatureSample_eq {d : Dev} (t : Four Int) (paired : Bool) (runs : d.phase.ctrlRuns = true) :
    doTemperatureSample t paired d =
      spreadWatched t paired (each spindles (dieWatched t) (d.modPwr fun p => { p with temps := t })) := by
  rw [doTemperatureSample, if_pos runs]
  unfold spreadWatched dieWatched dieWarned
  dsimp only

theorem dieWarned_only (x : Int) (d : Dev) (i : Fin 4) : Only [.evt] d (dieWarned x d i) :=
  .trans (thermalWatch_only d evThermalWarn i.val x 1100 rfl (.refl _ _)) (thermalWatch_only _ _ _ _ _ rfl (.refl _ _))

theorem dieWatched_only (t : Four Int) (d : Dev) (i : Fin 4) : Only judged d (dieWatched t d i) := by
  have watched : Only judged d (thermalWatch (dieWarned (t.get i) d i) evThermalTrip i.val (t.get i) 1250) :=
    .trans ((dieWarned_only ..).mono rfl) (thermalWatch_only _ _ _ _ _ rfl (.refl _ _))
  unfold dieWatched; dsimp only; split
  · exact watched.trans (protectiveTrip_changes ..)
  · exact watched

theorem spreadWatched_only (t : Four Int) (paired : Bool) (d : Dev) : Only judged d (spreadWatched t paired d) := by
  have watched (set clear : Bool) (now : Nat) : Only judged d
      (watchDwell d evDieTempSpread 0 set clear halfSecond halfSecond now (octets 1 0)) :=
    watchDwell_only _ _ _ _ _ _ _ _ _ rfl (.refl _ _)
  exact .ite ((watched ..).trans (selfTestLive_only _ _ _ rfl (.refl _ _))) (watched ..)

theorem doTemperatureSample_judges {d : Dev} (t : Four Int) (paired : Bool) (runs : d.phase.ctrlRuns = true) :
    Only judged (d.modPwr fun p => { p with temps := t }) (doTemperatureSample t paired d) := by
  rw [doTemperatureSample_eq t paired runs]
  exact .trans (.each (.refl _ _) (dieWatched_only t)) (spreadWatched_only ..)

/-! ## A thermal trip (R345) -/

/-- A fold over different things, one of which takes `P` to `Q`. -/
theorem each_passes {α : Type} {P Q : Dev → Prop} {f : Dev → α → Dev} {i : α} (before : ∀ d j, j ≠ i → P d → P (f d j))
    (turn : ∀ d, P d → Q (f d i)) (after : ∀ d j, j ≠ i → Q d → Q (f d j)) {l : List α} (nodup : l.Nodup) (mem : i ∈ l)
    {d : Dev} (h : P d) : Q (each l f d) := by
  induction l generalizing d with
  | nil => simp at mem
  | cons j l ih =>
    obtain ⟨out, nodup⟩ := List.nodup_cons.1 nodup
    obtain rfl | mem := List.mem_cons.1 mem
    · refine List.foldlRecOn (motive := Q) l f (turn d h) fun a q k sits => after a k ?_ q
      rintro rfl
      exact out sits
    · exact ih nodup mem (before d j (by rintro rfl; exact out mem) h)

/-- Die `i` has stood at the trip since an instant, and has not tripped yet. -/
structure TripPending (i : Fin 4) (since : Nat) (d : Dev) : Prop where
  runs : d.phase.fwRuns = true
  power : d.glb.power = 1 ∨ d.glb.power = 3
  dead : d.evt.liveAt evThermalTrip i.val = false
  held : kfind (d.evt.src evThermalTrip).dwell i.val = some since
  past : since + halfSecond ≤ d.pwr.wall

/-- Die `i` has tripped, and the device is in HOLD. -/
structure Tripped (i : Fin 4) (d : Dev) : Prop where
  power : d.glb.power = 1
  tripped : d.glb.tripped = true
  thermal : d.glb.tripThermal = true
  live : d.evt.liveAt evThermalTrip i.val = true

section
variable (t : Four Int) (d : Dev)

theorem dieWarned_sparesSource (x : Int) (i : Fin 4) : SparesSource evThermalTrip d (dieWarned x d i) :=
  .trans (.watchDwell d (by decide) ..) (.watchDwell _ (by decide) ..)

/-- Another die's evaluation leaves die `i` to its dwell. -/
theorem dieWatched_sparesInstance {i j : Fin 4} (other : j ≠ i) :
    SparesInstance evThermalTrip i.val d (dieWatched t d j) := by
  have watched : SparesInstance evThermalTrip i.val d (thermalWatch (dieWarned (t.get j) d j) evThermalTrip j.val (t.get j) 1250) :=
    ((dieWarned_sparesSource d (t.get j) j).atInstance i.val).trans (.watchDwell _ (Fin.val_ne_of_ne other) ..)
  unfold dieWatched
  exact .ite (watched.trans ((SparesSource.protectiveTrip (by decide) _ true).atInstance i.val)) watched

theorem dieWatched_noted (x : Int) (j : Fin 4) : (thermalWatch (dieWarned x d j) evThermalTrip j.val x 1250).glb = d.glb :=
  (watchDwell_glb ..).trans ((watchDwell_glb ..).trans (watchDwell_glb ..))

/-- A die's evaluation leaves global control as it is, or is a protective trip. -/
theorem dieWatched_glb (j : Fin 4) : (dieWatched t d j).glb = d.glb ∨ (dieWatched t d j).glb =
    { d.glb.trips true with power := if d.glb.power = 2 ∨ d.glb.power = 3 then 1 else d.glb.power } := by
  unfold dieWatched; dsimp only; split
  · exact .inr ((protectiveTrip_glb ..).trans (by rw [dieWatched_noted]))
  · exact .inl (dieWatched_noted ..)

variable {t d} {i : Fin 4} {since : Nat}

theorem TripPending.other (h : TripPending i since d) {j : Fin 4} (other : j ≠ i) : TripPending i since (dieWatched t d j) := by
  have only := dieWatched_only t d j
  have spares := dieWatched_sparesInstance t d other
  refine ⟨?_, ?_, spares.live.trans h.dead, spares.dwell.trans h.held, ?_⟩
  · rw [only.same .phase (by decide)]; exact h.runs
  · obtain same | trips := dieWatched_glb t d j
    · rw [same]; exact h.power
    · rw [trips]
      obtain hold | run := h.power
      · simp [hold]
      · simp [run]
  · rw [only.same .pwr (by decide)]; exact h.past

theorem TripPending.trips (h : TripPending i since d) (hot : 1250 ≤ t.get i) : Tripped i (dieWatched t d i) := by
  obtain ⟨runs, power, dead, held, past⟩ := h
  have warned := (dieWarned_sparesSource d (t.get i) i).atInstance i.val
  have only := dieWarned_only (t.get i) d i
  have rises : (thermalWatch (dieWarned (t.get i) d i) evThermalTrip i.val (t.get i) 1250).evt.liveAt evThermalTrip i.val
      = true := by
    rw [thermalWatch, decide_eq_true hot]
    refine watchDwell_rises _ ?_ (warned.live.trans dead) (warned.dwell.trans held) ?_
    · rw [only.same .phase (by decide)]; exact runs
    · rw [only.same .pwr (by decide)]; exact past
  have tripping : dieWatched t d i =
      protectiveTrip (thermalWatch (dieWarned (t.get i) d i) evThermalTrip i.val (t.get i) 1250) true :=
    if_pos ⟨rises, warned.live.trans dead⟩
  have glb := protectiveTrip_glb (thermalWatch (dieWarned (t.get i) d i) evThermalTrip i.val (t.get i) 1250) true
  rw [dieWatched_noted] at glb
  rw [tripping]
  refine ⟨?_, ?_, ?_, ((SparesSource.protectiveTrip (by decide) _ true).atInstance i.val).live.trans rises⟩
  all_goals rw [glb]
  · obtain hold | run := power
    · simp [hold]
    · simp [run]
  · rfl
  · exact Bool.or_true _

theorem Tripped.other (h : Tripped i d) {j : Fin 4} (other : j ≠ i) : Tripped i (dieWatched t d j) := by
  have live := (dieWatched_sparesInstance t d other).live.trans h.live
  obtain same | trips := dieWatched_glb t d j
  · exact ⟨same ▸ h.power, same ▸ h.tripped, same ▸ h.thermal, live⟩
  · refine ⟨?_, congrArg Glb.tripped trips, ?_, live⟩
    all_goals rw [trips]
    · simp [h.power]
    · simp [Glb.trips]

theorem selfTestLive_power (d : Dev) (b : Nat) (ok : Bool) : let g := (selfTestLive d b ok).glb
    g.power = d.glb.power ∧ g.tripped = d.glb.tripped ∧ g.tripThermal = d.glb.tripThermal := by
  unfold selfTestLive selfTest; dsimp only; repeat' split
  all_goals simp

theorem SparesSource.selfTestLive {e : Nat} (d : Dev) (b : Nat) (ok : Bool) : SparesSource e d (Machine.selfTestLive d b ok) := by
  unfold Machine.selfTestLive selfTest
  exact .ite (.of_evt rfl) (.ite (.refl d) (.ite (.trans (b := d.modGlb _) (.of_evt rfl) (.report ..)) (.of_evt rfl)))

theorem Tripped.spread (h : Tripped i d) (paired : Bool) : Tripped i (spreadWatched t paired d) := by
  have watched (set clear : Bool) : Tripped i (watchDwell d evDieTempSpread 0 set clear halfSecond halfSecond d.pwr.wall
      (octets 1 0)) := by
    have glb (x y : Bool) : (watchDwell d evDieTempSpread 0 x y halfSecond halfSecond d.pwr.wall (octets 1 0)).glb = d.glb :=
      watchDwell_glb ..
    refine ⟨?_, ?_, ?_, ((SparesSource.watchDwell d (by decide) ..).atInstance i.val).live.trans h.live⟩
    all_goals rw [glb]
    · exact h.power
    · exact h.tripped
    · exact h.thermal
  unfold spreadWatched; dsimp only; split
  · obtain ⟨power, tripped, thermal⟩ := selfTestLive_power (watchDwell d evDieTempSpread 0
      (decide (300 < t.list.foldl max t.a - t.list.foldl min t.a)) (decide (t.list.foldl max t.a - t.list.foldl min t.a ≤ 260))
      halfSecond halfSecond d.pwr.wall (octets 1 0)) 13 paired
    exact ⟨power.trans (watched ..).power, tripped.trans (watched ..).tripped, thermal.trans (watched ..).thermal,
      ((SparesSource.selfTestLive ..).atInstance i.val).live.trans (watched ..).live⟩
  · exact watched ..

/-- A die that has stood at the trip for its dwell trips, whatever the other dies do (R345). -/
theorem doTemperatureSample_trips (paired : Bool) (h : TripPending i since d) (hot : 1250 ≤ t.get i) :
    Tripped i (doTemperatureSample t paired d) := by
  have sampled : TripPending i since (d.modPwr fun p => { p with temps := t }) := ⟨h.runs, h.power, h.dead, h.held, h.past⟩
  rw [doTemperatureSample_eq t paired (Phase.ctrlRuns_of_fwRuns h.runs)]
  exact Tripped.spread (each_passes (fun d j other h => h.other other) (fun d h => h.trips hot) (fun d j other h => h.other other)
    (by decide) (by fin_cases i <;> decide) sampled) paired

end

/-! ## SUPPLY_MEASURE (R345, R357, R376) -/

section
variable (d : Dev) (vhold pin : Nat) (rails : List Nat)

/-- A measurement recorded; below 38 V a hold-up check is abandoned (R379). -/
def Dev.measured (d : Dev) (vhold pin : Nat) : Dev :=
  d.modPwr fun p => { p with vhold := vhold, pin := pin, holdupV1 := if vhold < 38000 then none else p.holdupV1 }

/-- The rails against their tolerances, and their self-test. -/
def railsWatched (rails : List Nat) (d : Dev) : Dev :=
  let a := each ((List.range 7).zip (rails.zip railLimits)) (fun d x => railWatch d (x.1 + 1) x.2.1 x.2.2) d
  if a.phase.fwRuns then selfTestLive a 12 (!a.evt.live evRailRange) else a

theorem doSupplyMeasure_eq (runs : d.phase.ctrlRuns = true) : doSupplyMeasure vhold pin rails d =
    if vhold < 40000 then stageFail (inputTrip (pwrfailWatch (railsWatched rails (d.measured vhold pin)) vhold) vhold) .supply
    else inputTrip (pwrfailWatch (railsWatched rails (d.measured vhold pin)) vhold) vhold := by
  rw [doSupplyMeasure, if_pos runs]
  unfold railsWatched Dev.measured
  dsimp only

theorem railsWatched_only : Only [.glb, .start, .evt] d (railsWatched rails d) := by
  have watched : Only [.glb, .start, .evt] d
      (each ((List.range 7).zip (rails.zip railLimits)) (fun d x => railWatch d (x.1 + 1) x.2.1 x.2.2) d) :=
    .each (.refl _ _) fun a _ => railWatch_only a _ _ _ rfl (.refl _ _)
  unfold railsWatched; dsimp only; split
  · exact watched.trans (selfTestLive_only _ _ _ rfl (.refl _ _))
  · exact watched

theorem railsWatched_power : (railsWatched rails d).glb.power = d.glb.power := by
  have watched : (each ((List.range 7).zip (rails.zip railLimits)) (fun d x => railWatch d (x.1 + 1) x.2.1 x.2.2) d).glb = d.glb :=
    each_keeps Dev.glb fun _ _ => watchDwell_glb ..
  unfold railsWatched; dsimp only; split
  · rw [(selfTestLive_power ..).1, watched]
  · rw [watched]

/-- PWRFAIL_N after a measurement (R376). -/
def Pwr.failsAt (p : Pwr) (vhold : Nat) : Bool := if vhold ≤ 34000 then true else if 35000 ≤ vhold then false else p.pwrfail

/-- The device once a measurement is judged by all but the input trip. -/
def Dev.supplied (d : Dev) (vhold pin : Nat) (rails : List Nat) : Dev :=
  pwrfailWatch (railsWatched rails (d.measured vhold pin)) vhold

theorem supplied_pwr : (d.supplied vhold pin rails).pwr =
    { (d.measured vhold pin).pwr with pwrfail := d.pwr.failsAt vhold } := by
  have pwr : (railsWatched rails (d.measured vhold pin)).pwr = (d.measured vhold pin).pwr :=
    (railsWatched_only _ rails).same .pwr (by decide)
  refine (watchIf_pwr ..).trans ?_
  rw [Dev.modPwr_pwr, pwr]
  rfl

theorem supplied_power : (d.supplied vhold pin rails).glb.power = d.glb.power :=
  (congrArg Glb.power (watchIf_glb ..)).trans (railsWatched_power (d.measured vhold pin) rails)

theorem supplied_pra : (d.supplied vhold pin rails).pra = d.pra :=
  (watchIf_pra ..).trans ((railsWatched_only (d.measured vhold pin) rails).same .pra (by decide))

/-- Above 35.5 V the input trip's dwell is over (R345). -/
theorem inputTrip_high (high : 35500 < vhold) :
    inputTrip d vhold = d.modPwr fun p => { p with lowSince := none, tripDone := false } := if_pos high

/-- At or below 35.5 V the input trip comes once its dwell is over. -/
theorem inputTrip_low (low : vhold ≤ 35500) : inputTrip d vhold =
    let a := d.modPwr fun p => { p with lowSince := some (d.pwr.lowSince.getD d.pwr.wall) }
    if d.pwr.tripDone = false ∧ d.pwr.lowSince.getD d.pwr.wall + 10000000 ≤ d.pwr.wall then
      protectiveTrip (a.modPwr fun p => { p with tripDone := true }) false
    else a := if_neg (Nat.not_lt.2 low)

/-- The input trip takes RUN to HOLD once its dwell is over (R345). -/
theorem inputTrip_due {d : Dev} {vhold since : Nat} (low : vhold ≤ 35500) (from_ : d.pwr.lowSince = some since)
    (undone : d.pwr.tripDone = false) (past : since + 10000000 ≤ d.pwr.wall) (run : d.glb.power = 3) :
    let b := inputTrip d vhold
    b.glb.power = 1 ∧ b.glb.tripped = true ∧ b.glb.tripInput = true ∧ b.pwr.tripDone = true := by
  rw [inputTrip_low d vhold low, from_]
  dsimp only
  rw [if_pos ⟨undone, past⟩, protectiveTrip_glb]
  refine ⟨by simp [run], rfl, Bool.or_true _, ?_⟩
  exact (congrArg Pwr.tripDone ((protectiveTrip_changes _ false).same .pwr (by decide)) :)

/-- The input trip touches of the power die no more than its own dwell, and leaves the array. -/
theorem inputTrip_pwr : ∃ since done, (inputTrip d vhold).pwr = { d.pwr with lowSince := since, tripDone := done } := by
  by_cases high : 35500 < vhold
  · rw [inputTrip_high d vhold high]
    exact ⟨none, false, rfl⟩
  · rw [inputTrip_low d vhold (Nat.not_lt.1 high)]
    dsimp only; split
    · exact ⟨_, true, (protectiveTrip_changes ..).same .pwr (by decide)⟩
    · exact ⟨_, d.pwr.tripDone, rfl⟩

theorem inputTrip_pra : (inputTrip d vhold).pra = d.pra :=
  (inputTrip_only d vhold (l_ := .pwr :: judged) rfl (.refl _ _)).same .pra (by decide)

/-- A stage that fails leaves the power die, global control and the array. -/
theorem doSupplyMeasure_trips (runs : d.phase.ctrlRuns = true) : let a := inputTrip (d.supplied vhold pin rails) vhold
    let b := doSupplyMeasure vhold pin rails d
    b.pwr = a.pwr ∧ b.glb = a.glb ∧ b.pra = a.pra := by
  have only := stageFail_only (inputTrip (d.supplied vhold pin rails) vhold) .supply
    (l_ := [.start, .evt, .whl, .ccp, .ply, .img]) rfl (.refl _ _)
  rw [doSupplyMeasure_eq d vhold pin rails runs]
  split
  · exact ⟨only.same .pwr (by decide), only.same .glb (by decide), only.same .pra (by decide)⟩
  · exact ⟨rfl, rfl, rfl⟩

end

/-! ## The hold-up check (R379) -/

theorem selfTest_pwr (d : Dev) (b : Nat) (code : BitVec 2) : (selfTest d b code).pwr = d.pwr :=
  (selfTest_only d b code (l_ := [.glb, .start, .evt]) rfl (.refl _ _)).same .pwr (by decide)

section
variable {d : Dev} {v1 : Nat} (under : d.pwr.holdupV1 = some v1)
include under

theorem doHoldupCheckEnd_abandoned {v2 : Nat} (p : Nat) (low : v2 < 38000) :
    doHoldupCheckEnd v2 p d = d.modPwr fun p => { p with holdupV1 := none } := by
  unfold doHoldupCheckEnd
  rw [under]
  exact if_pos low

theorem doHoldupCheckEnd_judged {v2 p : Nat} (high : 38000 ≤ v2) (fell : v2 < v1)
    (past : d.pwr.holdupFrom + 1000000 ≤ d.pwr.wall) : doHoldupCheckEnd v2 p d =
      let ok := decide (3000 * (v1 * v1 - v2 * v2) ≤ 2000000 * p)
      selfTest (d.modPwr fun p => { p with holdupV1 := none, holdupPassed := ok }) 16 (if ok then 1 else 2) := by
  unfold doHoldupCheckEnd
  rw [under]
  dsimp only
  rw [if_neg (Nat.not_lt.2 high), if_neg (Nat.not_lt.2 past), holdupPass, if_pos fell]

end

/-! ## The statement -/

/-- Settles O13: no die's evaluation disturbs another's dwell, so one that has stood at the trip trips (`TripPending.trips`); and
a measurement of the supply is judged with all but its own watches left as they are (`supplied_pwr`, `inputTrip_pwr`). -/
theorem temperatureSupplyAndHoldup : Obligations.TemperatureSupplyAndHoldup := by
  unfold Obligations.TemperatureSupplyAndHoldup
  refine ⟨fun s dt t paired => ⟨fun runs => gives_run rfl ?_, fun i since runs run hot dead held past => gives_run rfl ?_⟩,
    fun s dt vhold pin rails runs => ⟨gives_run rfl ?_, fun high => gives_run rfl ?_,
      fun since low from_ undone past run => gives_run rfl ?_⟩,
    fun s dt => ⟨fun v1 k due up past high ok none_ => gives_run rfl ?_,
      fun v1 v2 p under => ⟨fun high fell past => gives_run rfl ?_, fun low => gives_run rfl ?_⟩⟩⟩
  · have only := doTemperatureSample_judges t paired runs
    exact ⟨only.same .pwr (by decide), only.same .pra (by decide), only.same .region (by decide), only.same .que (by decide)⟩
  · obtain ⟨power, tripped, thermal, live⟩ := doTemperatureSample_trips paired ⟨runs, .inr run, dead, held, past⟩ hot
    exact ⟨power, tripped, thermal, live⟩
  · obtain ⟨pwr, -, pra⟩ := doSupplyMeasure_trips (s.dev.elapse dt) vhold pin rails runs
    obtain ⟨since, done, trip⟩ := inputTrip_pwr ((s.dev.elapse dt).supplied vhold pin rails) vhold
    rw [supplied_pwr] at trip
    rw [pwr, trip, pra, inputTrip_pra, supplied_pra]
    exact ⟨rfl, rfl, rfl, rfl, rfl, rfl⟩
  · obtain ⟨pwr, glb, -⟩ := doSupplyMeasure_trips (s.dev.elapse dt) vhold pin rails runs
    rw [pwr, glb, inputTrip_high _ _ high]
    exact ⟨rfl, rfl, supplied_power ..⟩
  · obtain ⟨pwr, glb, -⟩ := doSupplyMeasure_trips (s.dev.elapse dt) vhold pin rails runs
    have judged := supplied_pwr (s.dev.elapse dt) vhold pin rails
    have power : ((s.dev.elapse dt).supplied vhold pin rails).glb.power = 3 := (supplied_power ..).trans run
    rw [pwr, glb]
    exact inputTrip_due low (by rw [judged]; exact from_) (by rw [judged]; exact undone) (by rw [judged]; exact past) power
  · unfold doHoldupCheckStart
    rw [due]
    exact if_pos ⟨up, past, high, ok, none_⟩
  · rw [doHoldupCheckEnd_judged under high fell past]
    dsimp only
    rw [selfTest_pwr, kgetD_ksetD_selftest]
    exact ⟨rfl, rfl, by simp⟩
  · exact doHoldupCheckEnd_abandoned under p low

end Sys2Proof.Machine
end
